-- ==== Sys2Proof/Word.lean ====
section
/-!
DEFINITION. The byte and word types of the model.
-/

namespace Sys2Proof

/-- A byte, as memory and packets hold it. -/
abbrev Byte := BitVec 8

/-- A 32-bit word, as BAR0 holds it (R441). -/
abbrev Word := BitVec 32

end Sys2Proof
end

