-- ==== Sys2Proof/Syntax.lean ====
section
/-!
DEFINITION. The commands that the module takes: one constructor per row of spec/opcode_table.json, and the operand types.
-/

namespace Sys2Proof

/-- Who sends a register write or a request (R404, Table 11-10 SRCKIND). -/
inductive Src where
  | bar0 | worA | worB | firmware | peer
  deriving DecidableEq, Repr

/-- A physical upset of a stored codeword: `val` is xored into the symbol at position `pos` of the codeword that
holds module address `addr` (R136). -/
structure Upset where
  addr : Nat
  pos : Nat
  val : Byte
  deriving DecidableEq, Repr

/-- A physical upset of an accumulator bank: bit `bit` (128 and above: the shadow) of lane `lane` flips; `odd` names the
odd array of a pair (R52 to R54). -/
structure CellUpset where
  odd : Bool
  bank : Bool
  lane : Nat
  bit : Nat
  deriving DecidableEq, Repr

/-- A physical upset of one block in one cell: bit `bit` of the 72-bit block-sum register flips, or for 72 and above a bit of the
7-bit block shadow; in a BF16 or FP16 pairing the register is that of product `bit / 128` of the chunk (R30, R52, Table 01-11). -/
structure BlkUpset where
  odd : Bool
  row : Nat
  col : Nat
  blk : Nat
  bit : Nat
  deriving DecidableEq, Repr

/-- A physical fault of an output stage: byte `pos` of what it encodes is xored with `val` (R80, Table 01-11). -/
structure OutUpset where
  odd : Bool
  pos : Nat
  val : Byte
  deriving DecidableEq, Repr

/-- The physical faults that a unit meets while it carries out one command; all absent in a fault-free run. -/
structure Flt where
  /-- symbol errors that have gathered in memory (R135 to R145) -/
  ups : List Upset
  /-- upsets of accumulator lanes and shadows (R54) -/
  cells : List CellUpset
  /-- upsets of block-sum registers and block shadows (R52) -/
  block : List BlkUpset
  /-- a decode parity bit differs (Table 01-11), in a pair the even array's, or a core's register parity bit differs (Table 03-4) -/
  parity : Bool
  /-- a decode parity bit of the odd array of a pair differs (Table 01-11) -/
  parityO : Bool
  /-- a check of Table 03-4 on a general core's result fails -/
  res : Bool
  /-- an uncorrectable error on the on-package path (R67) -/
  pkg : Bool
  /-- faults of the output stages (R80) -/
  outUps : List OutUpset
  deriving DecidableEq, Repr

/-- No fault. -/
def Flt.none : Flt := ⟨[], [], [], false, false, false, false, []⟩

/-- What the host answers to a read of its memory (R179, Table 05-11 HOST_READ). -/
inductive HostData where
  | error
  | data (bytes : List Byte)
  deriving DecidableEq, Repr

/-- The source of a reset request (Table 09-1). -/
inductive ResetWhy where
  | mrst | watchdog | lockstep | host | worA | worB | escalation | failedStart
  deriving DecidableEq, Repr

/-- A block that a reset asks to go idle (R343). -/
inductive Domain where
  | module
  | partition (p : Nat)
  | engine (p : Nat)
  deriving DecidableEq, Repr

/-- Outcome of the self-test of Table 09-7: the failing physical units, arrays as 26 p + i, cores as 52 p + i,
streamers as 16 p + s, and the partitions whose pool or NI fails. -/
structure TestEnv where
  arr : List Nat
  core : List Nat
  str : List Nat
  pool : List Nat
  /-- tier-0 channels (0 to 127) and tier-1 channels (0 to 31) that fail their training or check (Table 09-5) -/
  t0 : List Nat
  t1 : List Nat
  /-- items that fail the check of their saved values (R352): tier-1 channels 0 to 31, Fazar port n as 32 + n -/
  rejects : List Nat
  deriving DecidableEq, Repr

/-- The facts of the physical world that a start meets (Table 09-3). -/
structure StartEnv where
  /-- the rails of step 3 came up (RAIL_FAIL otherwise) -/
  rails : Bool
  /-- the PLL locks (PLL_LOCK otherwise) -/
  pll : Bool
  /-- CLK_MODE pins (R329) -/
  clkMode : Nat
  /-- up to three pairs of strap reads, each BOOT_SRC in [20:19] and LOC in [18:0] (R332) -/
  straps : List (Nat × Nat)
  /-- up to three measurements of 16 converter codes (R334) -/
  ladder : List (List Nat)
  /-- the fuse array reads without error (FUSE_READ otherwise) -/
  fuseOk : Bool
  /-- superblock copies readable in step 7 (R159) -/
  superOk : Bool
  /-- the CRC-32C of the saved training record matches, in the boot NOR and in its copy in the vault (Table 09-6) -/
  trainNor : Bool
  trainVault : Bool
  /-- the mode registers that the LPDDR6 package of each tier-1 channel answers with (Table 09-6) -/
  devs : List Nat
  /-- the measurement at the entry to manufacturing test or recovery (R335), up to three of 16 converter codes -/
  ladder2 : List (List Nat)
  /-- the PCIe link trains (Table 09-5) -/
  link : Bool
  /-- self-test and training failures of step 8 -/
  test : TestEnv
  /-- guard channels (0 to 2) that fail, and whether every channel's oscillator runs -/
  guardBad : List Nat
  /-- general-core firmware of the boot NOR or the vault verifies (R358) -/
  fwOk : Bool
  /-- the vault's firmware area holds an image -/
  fwVault : Bool
  deriving DecidableEq, Repr

/-- A Fazar packet: four header words, payload bytes and the CRC-32 (Tables 06-6 to 06-8). -/
structure Pkt where
  h0 : BitVec 64
  h1 : BitVec 64
  h2 : BitVec 64
  h3 : BitVec 64
  pay : List Byte
  crc : BitVec 32
  deriving DecidableEq, Repr

/-- What the router sees outside the packet, and the values that random picks take. -/
structure RouteEnv where
  /-- flits queued per port, in the class that the choice asks about: L0 at the source (R227), L1 where a packet enters an intermediate
  hedgerow (R226) -/
  loads : List Nat
  picks : List Nat
  /-- the directory entry that the packet needs reads uncorrectable (R223) -/
  dirUe : Bool
  deriving DecidableEq, Repr

/-- The fields of a received TIME frame (R253 to R255) with the stamps of the exchange that it ends. -/
structure TimeFrame where
  dist : Nat
  rootFa : Nat
  repoch : Nat
  rseq : Nat
  /-- the frame is a reply: it carries t2 and t3 -/
  reply : Bool
  /-- the stamps of R253 in units of 0.5 ns: t1, this module's sending of the frame that this one replies to; t2, the far end's receipt of it;
  t3, the far end's sending of this frame; t4, this module's receipt of it -/
  t1 : Nat
  t2 : Nat
  t3 : Nat
  t4 : Nat
  deriving DecidableEq, Repr

/-- What the estimator's counters read in one microsecond (R283, Table 07-9): by context slot the events of its phase's units, per class 0 to 16,
and the events of everything else. Classes: 0 to 2 narrow, standard and wide array cycles of CD0, 3 to 5 of CD1; 6 and 7 array store and output
stage; 8 and 9 scalar and vector instructions of CD0, 10 and 11 of CD1; 12 and 13 streamers and pools; 14 and 15 tiers 0 and 1; 16 Fazar. -/
structure Activity where
  slots : List (Nat × List Nat)
  other : List Nat
  deriving DecidableEq, Repr

/-- The header facts of a Worisy request (Table 11-1): port, SEQ, CRC-32C, LGEN, whether a reserved header byte is nonzero, and whether LEN is
the wrong one for the command. -/
structure WReq where
  port : Nat
  seq : Nat
  crc : Nat
  lgen : Nat
  rsv : Bool
  badLen : Bool
  deriving DecidableEq, Repr

/-- A quickset session as QS_ANNOUNCE names it (Table 09-11). -/
structure QsAnn where
  src : Nat
  dst : Nat
  session : Nat
  kind : Nat
  onBoot : Bool
  imageId : Nat
  imageLen : Nat
  base : Nat
  nData : Nat
  nTable : Nat
  deriving DecidableEq, Repr

/-- Integer operations of a general core (R98, Table 03-4). -/
inductive AluOp where
  | add | sub | mul | and | andn | or | xor | sll | srl | sra | slt | sltu
  deriving DecidableEq, Repr

/-- Element types of the vector unit (R97). -/
inductive VTy where
  | i64 | i32 | i16 | fp32 | bf16 | fp16
  deriving DecidableEq, Repr

/-- Lane-wise vector operations: add, subtract, multiply, fused multiply-add (R98, R99). -/
inductive VOp where
  | add | sub | mul | fma
  deriving DecidableEq, Repr

/-- Branch conditions of a general core. -/
inductive BrOp where
  | eq | ne | lt | ge | ltu | geu | always
  deriving DecidableEq, Repr

/-- An ordinary EWC instruction. The spec names the operations and gives no encoding, so the decoded instruction is the
operand (log entry 12). `rtz` selects RTZ in place of RNE. -/
inductive EwcOp where
  | alu (op : AluOp) (xd xa xb : Nat)
  | li (xd : Nat) (v : BitVec 64)
  | load (xd xa : Nat) (off : Int) (len : Nat)
  | store (xs xa : Nat) (off : Int) (len : Nat)
  | vload (vd xa : Nat) (off : Int)
  | vstore (vs xa : Nat) (off : Int)
  | vop (op : VOp) (ty : VTy) (rtz : Bool) (vd va vb vc : Nat)
  | vred (ty : VTy) (rtz : Bool) (vd va : Nat)
  | vcvt (src dst : VTy) (rtz : Bool) (vd va : Nat)
  /-- decode 16 packed elements of format `fmt` (Table 02-4) with E8M0 scale from xs into FP32 lanes; of a codebook format va holds 16 packed indices
  and vb the packed entries (Table 01-3) -/
  | vunpack (fmt : Nat) (rtz : Bool) (vd va vb xs : Nat)
  /-- encode 16 FP32 lanes into format `fmt` with the scale exponent in xs; of a codebook format as 16 packed indices of the entries in vb -/
  | vpack (fmt : Nat) (rtz : Bool) (vd va vb xs : Nat)
  | br (op : BrOp) (xa xb : Nat) (target : Nat)
  | illegal
  deriving DecidableEq, Repr

/-- The commands (the rows of the table; each docstring names the row and the rule the table gives it). -/
inductive Instr where
  /-- HOT_SWAP_ON (R314) -/
  | hotSwapOn (vin : Nat)
  /-- INPUT_GOOD (R265) -/
  | inputGood (vin : Nat)
  /-- OVERVOLTAGE_OFF (R314) -/
  | overvoltageOff (highest : Nat)
  /-- OVERCURRENT_OFF (R314) -/
  | overcurrentOff (instant : Bool)
  /-- VIN_HIGH (R258) -/
  | vinHigh (vin : Nat)
  /-- BROWNOUT (R259) -/
  | brownout (vin : Nat)
  /-- INPUT_RECOVER (R261) -/
  | inputRecover (vin : Nat)
  /-- MRST (R321) -/
  | mrst (ns : Nat)
  /-- HOST_INTERFACE_RESET (R203) -/
  | hostInterfaceReset (flr : Bool)
  /-- START_UP (R347) -/
  | startUp (e : StartEnv)
  /-- REFCLK_QUALIFY (R330) -/
  | refclkQualify (ok : Bool) (offset : Int)
  /-- WEIGHT_LOAD (R162) -/
  | weightLoad (bad : List Nat)
  /-- READY_ENTRY (R347) -/
  | readyEntry (moved : Bool)
  /-- HOST_FW_GO (R358) -/
  | hostFwGo (src : Src)
  /-- MODULE_RESET (R341) -/
  | moduleReset (why : ResetWhy) (key : Nat)
  /-- PARTITION_RESET (R372) -/
  | partitionReset (why : ResetWhy) (key : Nat) (pmask : Nat)
  /-- CONTEXT_RESET (R372) -/
  | contextReset (why : ResetWhy) (slot : Nat)
  /-- CLR_FAILS (R371) -/
  | clrFails (src : Src)
  /-- BLOCK_IDLE (R343) -/
  | blockIdle (d : Domain)
  /-- IDLE_T_EXPIRY (R343) -/
  | idleTExpiry (d : Domain)
  /-- PARTITION_RESET_DONE (R372) -/
  | partitionResetDone (p : Nat) (t : TestEnv)
  /-- ENGINE_RESET (R93) -/
  | engineReset (src : Src) (p unit : Nat)
  /-- ARRAY_NOP (R74) -/
  | arrayNop (p n : Nat)
  /-- TILE (R72) -/
  | tile (p n : Nat) (f : Flt)
  /-- RESIDUE_SWEEP (R54) -/
  | residueSweep (p n : Nat) (lane0 : Nat) (f : Flt)
  /-- BANK_COMPLETE (R73) -/
  | bankComplete (p n : Nat) (f : Flt)
  /-- EMIT (R72) -/
  | emit (p n : Nat) (f : Flt)
  /-- LDCB (R452) -/
  | ldcb (p n : Nat) (f : Flt)
  /-- SETSEED (R43) -/
  | setseed (p n : Nat)
  /-- SETB (R74) -/
  | setb (p n : Nat)
  /-- ADDB (R74) -/
  | addb (p n : Nat)
  /-- SETLC (R74) -/
  | setlc (p n : Nat)
  /-- LOOP (R74) -/
  | loop (p n : Nat)
  /-- WAITQ (R74) -/
  | waitq (p n : Nat)
  /-- POSTQ (R74) -/
  | postq (p n : Nat)
  /-- BRQ (R74) -/
  | brq (p n : Nat) (f : Flt)
  /-- JUMP (R74) -/
  | jump (p n : Nat)
  /-- ARRAY_ROTPT (R88) -/
  | arrayRotpt (p n : Nat)
  /-- ARRAY_END (R72) -/
  | arrayEnd (p n : Nat)
  /-- ROTATION_COMPLETE (R89) -/
  | rotationComplete (unit : Nat) (phys : Nat) (phys2 : Nat)
  /-- SLOT_PUBLISH (R61) -/
  | slotPublish (p q : Nat)
  /-- SLOT_RELEASE (R62) -/
  | slotRelease (p q : Nat)
  /-- CREDIT_BATCH_RETURN (R66) -/
  | creditBatchReturn (p q : Nat)
  /-- NI_SLOT_SEND (R451) -/
  | niSlotSend (p q : Nat) (f : Flt)
  /-- STREAMER_NOP (R82) -/
  | streamerNop (p k : Nat)
  /-- STREAMER_COPY (R82) -/
  | streamerCopy (p k : Nat) (f : Flt)
  /-- GATHER (R82) -/
  | gather (p k : Nat) (f : Flt)
  /-- SCATTER (R82) -/
  | scatter (p k : Nat) (f : Flt)
  /-- PGATHER (R85) -/
  | pgather (p k : Nat) (f : Flt)
  /-- PSCATTER (R85) -/
  | pscatter (p k : Nat) (f : Flt)
  /-- SYNC (R454) -/
  | sync (p k : Nat)
  /-- STREAMER_END (R454) -/
  | streamerEnd (p k : Nat)
  /-- SLOPE_GRANT (R87) -/
  | slopeGrant (d : Nat)
  /-- BRAMBLE_ACTION (R386) -/
  | brambleAction (slot opid : Nat)
  /-- EWC_INSTRUCTION (R97) -/
  | ewcInstruction (p g : Nat) (op : EwcOp) (f : Flt)
  /-- CSRR (R109) -/
  | csrr (p g : Nat) (xd csr : Nat) (f : Flt)
  /-- CSRW (R108) -/
  | csrw (p g : Nat) (csr xs : Nat) (f : Flt)
  /-- EI (R111) -/
  | ei (p g : Nat) (f : Flt)
  /-- DI (R111) -/
  | di (p g : Nat) (f : Flt)
  /-- IRET (R111) -/
  | iret (p g : Nat) (f : Flt)
  /-- WFI (R101) -/
  | wfi (p g : Nat) (f : Flt)
  /-- QWAIT (R101) -/
  | qwait (p g : Nat) (xd q : Nat) (f : Flt)
  /-- QREL (R101) -/
  | qrel (p g : Nat) (q : Nat) (f : Flt)
  /-- QACQ (R101) -/
  | qacq (p g : Nat) (xd q : Nat) (f : Flt)
  /-- QPUB (R101) -/
  | qpub (p g : Nat) (q : Nat) (f : Flt)
  /-- QPOLL (R101) -/
  | qpoll (p g : Nat) (xd q : Nat) (f : Flt)
  /-- QTRY (R101) -/
  | qtry (p g : Nat) (xd q : Nat) (f : Flt)
  /-- CORE_POSTQ (R101) -/
  | corePostq (p g : Nat) (q xs : Nat) (f : Flt)
  /-- MBOXW (R115) -/
  | mboxw (p g : Nat) (tgt n xs : Nat) (f : Flt)
  /-- MBOXR (R113) -/
  | mboxr (p g : Nat) (xd n : Nat) (f : Flt)
  /-- CORE_ROTPT (R120) -/
  | coreRotpt (p g : Nat) (f : Flt)
  /-- CORE_END (R101) -/
  | coreEnd (p g : Nat) (f : Flt)
  /-- INTERRUPT_ENTRY (R110) -/
  | interruptEntry (p g : Nat) (f : Flt)
  /-- TIMER_FIRE (R113) -/
  | timerFire (p g t : Nat)
  /-- MBOX_WRITE (R115) -/
  | mboxWrite (src : Src) (p g n : Nat) (v : BitVec 32)
  /-- SERVICE_CORE_WATCHDOG (R124) -/
  | serviceCoreWatchdog (pair : Nat)
  /-- LOCKSTEP_MISMATCH (R124) -/
  | lockstepMismatch (pair : Nat)
  /-- IMPEDANCE_CALIBRATION (R133) -/
  | impedanceCalibration (c : Nat)
  /-- DRIFT_CHECK (R133) -/
  | driftCheck (c : Nat) (drifted : Bool)
  /-- RETUNE (R134) -/
  | retune (c : Nat) (ok : Bool)
  /-- SCRUB_VISIT (R146) -/
  | scrubVisit (a : Nat) (ups : List Upset)
  /-- SCRUB_LATE (R148) -/
  | scrubLate (t : Nat)
  /-- MEM_RESTORED (R150) -/
  | memRestored (a : Nat)
  /-- PATROL_READ (R154) -/
  | patrolRead (page : Nat) (beyond : Bool)
  /-- BAR4_READ (R163) -/
  | bar4Read (off len : Nat) (ide : Bool) (ups : List Upset)
  /-- BAR4_WRITE (R163) -/
  | bar4Write (off : Nat) (data : List Byte) (ide : Bool)
  /-- RING_ENABLE (R173) -/
  | ringEnable (src : Src) (n : Nat)
  /-- RING_DISABLE (R180) -/
  | ringDisable (src : Src) (n : Nat)
  /-- SQ_TAIL (R174) -/
  | sqTail (n : Nat) (v : BitVec 32)
  /-- CQ_HEAD (R177) -/
  | cqHead (n : Nat) (v : BitVec 32)
  /-- DESCRIPTOR_FETCH (R175) -/
  | descriptorFetch (d : HostData)
  /-- COMPLETION_WRITE (R177) -/
  | completionWrite (opid : Nat) (refused : Bool)
  /-- MSIX_COALESCE_TIMER (R178) -/
  | msixCoalesceTimer (n : Nat)
  /-- NOP (R181) -/
  | nop (opid : Nat)
  /-- RUN_PHASE (R191) -/
  | runPhase (opid : Nat)
  /-- FABRIC_ADMIT_DEADLINE (R194) -/
  | fabricAdmitDeadline (slot : Nat)
  /-- PHASE_END (R191) -/
  | phaseEnd (slot : Nat)
  /-- COPY (R198) -/
  | copy (opid : Nat) (d : HostData) (f : Flt)
  /-- LOAD_IMAGE (R199) -/
  | loadImage (opid : Nat) (d : HostData)
  /-- IMAGE_VERIFY (R199) -/
  | imageVerify (opid : Nat)
  /-- BIND_CONTEXT (R188) -/
  | bindContext (opid : Nat)
  /-- BIND_COMPLETE (R188) -/
  | bindComplete (slot : Nat) (bad : List Nat)
  /-- UNBIND_CONTEXT (R189) -/
  | unbindContext (opid : Nat)
  /-- FENCE (R187) -/
  | fence (opid : Nat)
  /-- ABORT (R200) -/
  | abort (opid : Nat)
  /-- ABORT_CONTEXT (R200) -/
  | abortContext (opid : Nat)
  /-- QUERY_ENERGY (R196) -/
  | queryEnergy (opid : Nat)
  /-- SET_OP_PREF (R197) -/
  | setOpPref (opid : Nat)
  /-- SERVE_START (R204) -/
  | serveStart (src : Src)
  /-- SERVE_STOP (R204) -/
  | serveStop (src : Src)
  /-- GATE_STOP (R193) -/
  | gateStop (src : Src) (v : Bool)
  /-- PORT_ENABLE (R210) -/
  | portEnable (src : Src) (n : Nat)
  /-- PORT_DISABLE (R211) -/
  | portDisable (src : Src) (n : Nat)
  /-- FORCE_HOLD (R211) -/
  | forceHold (src : Src) (n : Nat) (v : Bool)
  /-- BER_NOW (R215) -/
  | berNow (src : Src) (n : Nat)
  /-- LINK_TRAINED (R210) -/
  | linkTrained (n : Nat)
  /-- IDENT (R211) -/
  | ident (n : Nat) (loc port : Nat)
  /-- IDENT_TIMEOUT (R211) -/
  | identTimeout (n : Nat)
  /-- IDENT_REPEAT (R211) -/
  | identRepeat (n : Nat)
  /-- TEST_REQ (R215) -/
  | testReq (n : Nat)
  /-- TEST_ACK (R215) -/
  | testAck (n : Nat)
  /-- TEST_RESULT (R215) -/
  | testResult (n : Nat) (pass : Bool)
  /-- BER_TEST_DONE (R215) -/
  | berTestDone (n : Nat) (errs : Nat)
  /-- BER_INTERVAL (R215) -/
  | berInterval (n : Nat)
  /-- KEEPALIVE_SEND (R212) -/
  | keepaliveSend (n : Nat)
  /-- PORT_DOWN (R212) -/
  | portDown (n why : Nat)
  /-- FEC_ERROR_LIMIT (R212) -/
  | fecErrorLimit (n cnt : Nat)
  /-- FLIT_TIMEOUT (R212) -/
  | flitTimeout (n : Nat)
  /-- RETRAIN (R214) -/
  | retrain (n : Nat)
  /-- PORT_STATE (R213) -/
  | portState (fa gen m port : Nat) (up : Bool)
  /-- PACKET_INJECT (R227) -/
  | packetInject (k : Pkt) (e : RouteEnv)
  /-- PACKET_RECEIVE (R219) -/
  | packetReceive (port : Nat) (k : Pkt) (e : RouteEnv)
  /-- STREAM_OPEN_RETRY (R231) -/
  | streamOpenRetry (dst och : Nat)
  /-- STREAM_ACK_TIMER (R231) -/
  | streamAckTimer (fa och : Nat)
  /-- STREAM_IDLE_CLOSE (R231) -/
  | streamIdleClose (dst och : Nat)
  /-- STREAM_CONTEXT_EXPIRY (R231) -/
  | streamContextExpiry (fa och : Nat)
  /-- FAZAR_OP_TIMEOUT (R234) -/
  | fazarOpTimeout (slot idx : Nat)
  /-- DIRECTORY_WRITE (R237) -/
  | directoryWrite (src : Src) (off : Nat) (v : BitVec 32)
  /-- DIR_UPDATE (R237) -/
  | dirUpdate (fa gen : Nat) (ws : List (Nat × BitVec 32))
  /-- BANK_COPY (R237) -/
  | bankCopy (src : Src)
  /-- SEAL (R237) -/
  | sealBank (src : Src)
  /-- ARM (R238) -/
  | arm (src : Src)
  /-- CANCEL (R238) -/
  | cancel (src : Src)
  /-- MCAST (R245) -/
  | mcast (e : RouteEnv)
  /-- BROADCAST (R246) -/
  | broadcast (k : Pkt) (port : Option Nat)
  /-- REDUCE_UP (R247) -/
  | reduceUp (mismatch : Bool) (e : RouteEnv)
  /-- REDUCE_DOWN (R247) -/
  | reduceDown (e : RouteEnv)
  /-- RED_CONTEXT_EXPIRY (R250) -/
  | redContextExpiry (grp rseq sg : Nat)
  /-- TIME_FRAME (R254) -/
  | timeFrame (port : Nat) (t : TimeFrame)
  /-- TIME_ROOT_SET (R256) -/
  | timeRootSet (src : Src)
  /-- TIME_SET (R252) -/
  | timeSet (src : Src) (hi : BitVec 32)
  /-- DROOP_DETECT (R273) -/
  | droopDetect (d : Nat)
  /-- DROOP_RELEASE (R273) -/
  | droopRelease (d : Nat)
  /-- DROOP_LONG (R273) -/
  | droopLong (d : Nat)
  /-- VR_ALERT (R275) -/
  | vrAlert (cond : Nat)
  /-- POWER_SAMPLE (R282) -/
  | powerSample (watts decivolts : Nat)
  /-- ESTIMATOR_TICK (R283) -/
  | estimatorTick (a : Activity)
  /-- GAIN_REFIT (R284) -/
  | gainRefit
  /-- HOTSPOT_SAMPLE (R290) -/
  | hotspotSample (r : List (Int × Int × Int))
  /-- SENSOR_COMPARE (R290) -/
  | sensorCompare
  /-- ROTATION_REQUEST (R293) -/
  | rotationRequest (unit : Nat)
  /-- THROTTLE_STEP (R292) -/
  | throttleStep (d h : Nat) (unit : Nat)
  /-- THROTTLE_RESTORE (R292) -/
  | throttleRestore (d h : Nat)
  /-- THERMAL_UPDATE (R298) -/
  | thermalUpdate (tin tout : Int)
  /-- FLOW_MISMATCH (R300) -/
  | flowMismatch
  /-- GUARD_TRIP (R381) -/
  | guardTrip (kind channels : Nat)
  /-- GUARD_SINGLE (R382) -/
  | guardSingle (ch kind : Nat)
  /-- GUARD_SUSPECT (R382) -/
  | guardSuspect (ch kind : Nat)
  /-- GUARD_SINGLE_RELEASE (R382) -/
  | guardSingleRelease (ch kind : Nat)
  /-- ESCALATE (R384) -/
  | escalate (code unit : Nat)
  /-- SWEEP_FAIL (R390) -/
  | sweepFail (p kind phys : Nat)
  /-- WORISY_SIGNAL_DETECT (R328) -/
  | worisySignalDetect (port : Nat)
  /-- WORISY_SIGNAL_LOSS (R328) -/
  | worisySignalLoss (port : Nat)
  /-- WORISY_FRAME_ERROR (R398) -/
  | worisyFrameError (port : Nat)
  /-- PING (R401) -/
  | ping (w : WReq)
  /-- INFO (R401) -/
  | info (w : WReq)
  /-- REG_READ (R401) -/
  | regRead (w : WReq) (off cnt : Nat)
  /-- REG_WRITE (R403) -/
  | regWrite (w : WReq) (off : Nat) (ws : List (BitVec 32))
  /-- EVT_READ (R401) -/
  | evtRead (w : WReq) (off len : Nat)
  /-- MEAS_READ (R439) -/
  | measRead (w : WReq) (idx : Nat)
  /-- LEASE_CLAIM (R406) -/
  | leaseClaim (w : WReq)
  /-- LEASE_RENEW (R405) -/
  | leaseRenew (w : WReq)
  /-- LEASE_RELEASE (R407) -/
  | leaseRelease (w : WReq)
  /-- LEASE_STATUS (R401) -/
  | leaseStatus (w : WReq)
  /-- SET_CLIP (R276) -/
  | setClip (w : WReq) (watts : Nat)
  /-- SET_RACK_CLIP (R276) -/
  | setRackClip (w : WReq) (watts : Nat)
  /-- SET_OP_CEIL (R278) -/
  | setOpCeil (w : WReq) (point time : Nat)
  /-- FLOW_REPORT (R299) -/
  | flowReport (w : WReq) (flow : Nat)
  /-- OPERATOR_HOLD (R263) -/
  | operatorHold (w : WReq)
  /-- OPERATOR_HOLD_RELEASE (R263) -/
  | operatorHoldRelease (w : WReq)
  /-- RESET (R401) -/
  | reset (w : WReq) (rung pmask slot rsv0 : Nat)
  /-- MEMBER_RENEW (R242) -/
  | memberRenew (w : WReq)
  /-- FENCE_COMMAND (R243) -/
  | fenceCommand (w : WReq)
  /-- READMIT (R396) -/
  | readmit (w : WReq) (epoch : Nat)
  /-- WORISY_CLR_FAILS (R371) -/
  | worisyClrFails (w : WReq)
  /-- ACTIVATE (R417) -/
  | activate (w : WReq) (tA grp nMembers confirmS : Nat)
  /-- UPD_VOTE (R418) -/
  | updVote (fa gen : Nat) (ready : Bool)
  /-- CONFIRM (R420) -/
  | confirm (w : WReq)
  /-- ROLLBACK (R421) -/
  | rollback (w : WReq)
  /-- ACTIVATE_PLAN (R424) -/
  | activatePlan (w : WReq) (tA slot : Nat)
  /-- EVT_CLEAR (R432) -/
  | evtClear (w : WReq)
  /-- OWNER_CHALLENGE (R436) -/
  | ownerChallenge (w : WReq)
  /-- OWNER_ENROLL (R436) -/
  | ownerEnroll (w : WReq) (slot : Nat) (modulus auth : List Byte)
  /-- OWNER_REVOKE (R437) -/
  | ownerRevoke (w : WReq) (slot : Nat) (auth : List Byte)
  /-- SET_SECURITY (R440) -/
  | setSecurity (w : WReq) (ideReq : Nat)
  /-- UPDATE_CHECK (R416) -/
  | updateCheck (src : Src)
  /-- UPDATE_PROGRAM (R416) -/
  | updateProgram (src : Src)
  /-- PROGRAM_DONE (R416) -/
  | programDone (verify : Bool)
  /-- UPDATE_CANCEL (R416) -/
  | updateCancel (src : Src)
  /-- STAGING_WRITE (R416) -/
  | stagingWrite (src : Src) (off : Nat) (v : BitVec 32)
  /-- SPDM_REQUEST (R438) -/
  | spdmRequest (req : List Byte)
  /-- IDE_KEY_PROG (R440) -/
  | ideKeyProg (stream : Nat) (key : List Byte)
  /-- QUICKSET_GO (R361) -/
  | quicksetGo (src : Src)
  /-- QUICKSET_CANCEL (R361) -/
  | quicksetCancel (src : Src)
  /-- QS_ANNOUNCE (R361) -/
  | qsAnnounce (gen : Nat) (a : QsAnn)
  /-- QS_BLOCK (R363) -/
  | qsBlock (fa gen user : Nat) (data : List Byte)
  /-- QS_END (R364) -/
  | qsEnd (fa gen session : Nat)
  /-- QS_REQ (R365) -/
  | qsReq (fa gen session : Nat) (blocks : List (Bool × Nat))
  /-- QS_DATA (R364) -/
  | qsData (fa gen user : Nat) (data : List Byte)
  /-- QS_NAK (R364) -/
  | qsNak (fa gen : Nat) (blocks : List (Bool × Nat))
  /-- REGISTER_WRITE (R8) -/
  | registerWrite (src : Src) (off : Nat) (len : Nat) (v : BitVec 64)
  /-- COMMAND_DONE (R399) -/
  | commandDone (port seq : Nat)
  /-- POWER_ON_RESET (R262) -/
  | powerOnReset
  /-- MATE (R306) -/
  | mate
  /-- UNMATE (R306) -/
  | unmate
  /-- UNDERVOLTAGE_OFF (R314) -/
  | undervoltageOff
  /-- INRUSH_FAULT (R314) -/
  | inrushFault
  /-- EPO (R317) -/
  | epo
  /-- EPO_RELEASE (R317) -/
  | epoRelease
  /-- LATCH_CLEAR (R316) -/
  | latchClear
  /-- BROWNOUT_END (R261) -/
  | brownoutEnd
  /-- START_TIMEOUT (R349) -/
  | startTimeout
  /-- START_RETRY (R369) -/
  | startRetry
  /-- HOST_FW_TIMEOUT (R358) -/
  | hostFwTimeout
  /-- BRAMBLE_SAMPLE (R91) -/
  | brambleSample
  /-- JOURNAL_COMMIT (R155) -/
  | journalCommit
  /-- WEAR_REFILL (R157) -/
  | wearRefill
  /-- GATE_TICK (R192) -/
  | gateTick
  /-- QSLOT (R232) -/
  | qslot
  /-- CREDIT (R233) -/
  | credit
  /-- STREAM_OPEN (R231) -/
  | streamOpen
  /-- STREAM_GRANT (R231) -/
  | streamGrant
  /-- STREAM_BUSY (R231) -/
  | streamBusy
  /-- STREAM_ACK (R231) -/
  | streamAck
  /-- STREAM_CLOSE (R231) -/
  | streamClose
  /-- LAYING (R238) -/
  | laying
  /-- EPOCH_HOLD_END (R239) -/
  | epochHoldEnd
  /-- MEMBERSHIP_LAPSE (R242) -/
  | membershipLapse
  /-- TIME_FRAME_SEND (R253) -/
  | timeFrameSend
  /-- ROOT_LOSS (R255) -/
  | rootLoss
  /-- ROOT_PROMOTION (R256) -/
  | rootPromotion
  /-- ROOT_START_WAIT (R256) -/
  | rootStartWait
  /-- TIME_LO_READ (R442) -/
  | timeLoRead
  /-- OP_MOVE (R269) -/
  | opMove
  /-- VCORE_SETTLED (R269) -/
  | vcoreSettled
  /-- BLEND_STEP (R269) -/
  | blendStep
  /-- FORCED_VCORE_FALL (R271) -/
  | forcedVcoreFall
  /-- FORCED_RELEASE (R272) -/
  | forcedRelease
  /-- BLEND_RESUME (R274) -/
  | blendResume
  /-- VR_ALERT_RELEASE (R275) -/
  | vrAlertRelease
  /-- CLIP_LAG_STEP (R280) -/
  | clipLagStep
  /-- CLIP_LAG_LONG (R281) -/
  | clipLagLong
  /-- OP_CEIL_APPLY (R278) -/
  | opCeilApply
  /-- HOT_RELEASE (R291) -/
  | hotRelease
  /-- RATE_RELEASE (R291) -/
  | rateRelease
  /-- CYCLE_SAMPLE (R301) -/
  | cycleSample
  /-- LIFE_SAVE (R301) -/
  | lifeSave
  /-- LEASE_EXPIRY (R405) -/
  | leaseExpiry
  /-- LEASE_GUARD_END (R406) -/
  | leaseGuardEnd
  /-- UPD_VOTE_SEND (R418) -/
  | updVoteSend
  /-- VOTE_COUNT (R418) -/
  | voteCount
  /-- FIRMWARE_ACTIVATION (R419) -/
  | firmwareActivation
  /-- CONFIRM_DEADLINE (R421) -/
  | confirmDeadline
  /-- PLAN_ACTIVATION (R424) -/
  | planActivation
  /-- RECORDER_PAGE_WRITE (R429) -/
  | recorderPageWrite
  /-- QS_SEND (R362) -/
  | qsSend
  /-- QS_ANNOUNCE_SEND (R362) -/
  | qsAnnounceSend
  /-- QS_REPAIR_TIMEOUT (R364) -/
  | qsRepairTimeout
  /-- QS_ROUND_END (R364) -/
  | qsRoundEnd
  /-- QS_FETCH_END (R364) -/
  | qsFetchEnd
  /-- QS_VERIFY (R366) -/
  | qsVerify
  /-- EVT_TOKEN_REFILL (R428) -/
  | evtTokenRefill
  /-- MRST_RELEASE (R322) -/
  | mrstRelease
  deriving DecidableEq, Repr

end Sys2Proof
end

