-- ==== Sys2Proof/Decode.lean ====
section
/-!
DEFINITION. The command that a word of the opcode table spells. The block takes commands, not encoded words: no row of
spec/opcode_table.json gives bits, so no word spells a command (log entry 1).
-/

namespace Sys2Proof

/-- The command spelled by a word of `nbits` bits: none, since no row of the table gives a word. -/
def decodeTableWord (_nbits _w : Nat) : Option Instr := none

end Sys2Proof
end

