-- ==== Sys2Proof/Machine/Tbl.lean ====
section
/-!
DEFINITION. Sparse tables: lists of (key, value) with strictly rising keys in which an unlisted key reads as a default.
-/

namespace Sys2Proof.Machine

/-- A sparse table by number. -/
abbrev Tbl (α : Type) := List (Nat × α)

/-- The value at key `k`; an unlisted key reads `d`. -/
def tget {α : Type} (d : α) : Tbl α → Nat → α
  | [], _ => d
  | (a, v) :: t, k => if k = a then v else tget d t k

/-- Put a value at key `k`, in the place that keeps the keys rising. -/
def tput {α : Type} : Tbl α → Nat → α → Tbl α
  | [], k, v => [(k, v)]
  | (a, w) :: t, k, v => if k < a then (k, v) :: (a, w) :: t else if k = a then (k, v) :: t else (a, w) :: tput t k v

/-- Set the value at key `k`, keeping the canonical form: the entry goes where the value is the default `d`. -/
def tset {α : Type} [DecidableEq α] (d : α) (t : Tbl α) (k : Nat) (v : α) : Tbl α :=
  if v = d then t.filter (fun e => decide (e.1 ≠ k)) else tput t k v

/-- Keys strictly rise from `lo` on and no entry holds the default. -/
def tokFrom {α : Type} [DecidableEq α] (d : α) (lo : Nat) : Tbl α → Bool
  | [] => true
  | (a, v) :: t => decide (lo ≤ a) && decide (v ≠ d) && tokFrom d (a + 1) t

/-- The canonical form of a table. -/
def tok {α : Type} [DecidableEq α] (d : α) (t : Tbl α) : Bool := tokFrom d 0 t

/-- Keys strictly rise from `lo` on. -/
def tsortedFrom {α : Type} (lo : Nat) : Tbl α → Bool
  | [] => true
  | (a, _) :: t => decide (lo ≤ a) && tsortedFrom (a + 1) t

/-- Remove every key from `lo` up to (not including) `hi`. -/
def tclear {α : Type} (lo hi : Nat) (t : Tbl α) : Tbl α := t.filter (fun e => decide (e.1 < lo) || decide (hi ≤ e.1))

/-- Keys and bytes of a run that starts at `a`, zeros left out. -/
def bytesAt (a : Nat) : List Byte → Tbl Byte
  | [] => []
  | b :: bs => if b = 0 then bytesAt (a + 1) bs else (a, b) :: bytesAt (a + 1) bs

/-- Write a run of bytes at `a`. -/
def twrite (t : Tbl Byte) (a : Nat) (bs : List Byte) : Tbl Byte :=
  t.filter (fun e => decide (e.1 < a)) ++ bytesAt a bs ++ t.filter (fun e => decide (a + bs.length ≤ e.1))

/-- Read `n` bytes from `a` out of a table whose keys are `a` or more. -/
def treadFrom : Tbl Byte → Nat → Nat → List Byte
  | _, _, 0 => []
  | [], a, n + 1 => 0 :: treadFrom [] (a + 1) n
  | (k, v) :: t, a, n + 1 => if k = a then v :: treadFrom t (a + 1) n else 0 :: treadFrom ((k, v) :: t) (a + 1) n

/-- Drop the entries before key `a`. -/
def tdrop : Tbl Byte → Nat → Tbl Byte
  | [], _ => []
  | (k, v) :: t, a => if k < a then tdrop t a else (k, v) :: t

/-- Read `n` bytes from `a`; an unlisted byte reads 0. -/
def tread (t : Tbl Byte) (a n : Nat) : List Byte := treadFrom (tdrop t a) a n

/-- Bits [lo+w-1:lo] of a number. -/
def fget (x lo w : Nat) : Nat := x / 2 ^ lo % 2 ^ w

/-- A number with bits [lo+w-1:lo] replaced by the low w bits of `v`. -/
def fset (x lo w v : Nat) : Nat := x % 2 ^ lo + v % 2 ^ w * 2 ^ lo + x / 2 ^ (lo + w) * 2 ^ (lo + w)

/-- The w-bit two's complement value of a number. -/
def sx (w x : Nat) : Int := if x % 2 ^ w < 2 ^ (w - 1) then (x % 2 ^ w : Nat) else (x % 2 ^ w : Nat) - (2 ^ w : Nat)

/-- The low w bits of an integer. -/
def ux (w : Nat) (x : Int) : Nat := (x % (2 ^ w : Nat)).toNat

/-- floor(log2 x) for x > 0, by at most `fuel` halvings; 0 for 0. -/
def flog2 : Nat → Nat → Nat
  | 0, _ => 0
  | fuel + 1, x => if x ≤ 1 then 0 else flog2 fuel (x / 2) + 1

/-- Little-endian value of a byte list. -/
def leNat : List Byte → Nat
  | [] => 0
  | b :: bs => b.toNat + 256 * leNat bs

/-- The low `n` bytes of a number, little-endian. -/
def leBytes : Nat → Nat → List Byte
  | 0, _ => []
  | n + 1, x => BitVec.ofNat 8 x :: leBytes n (x / 256)

/-- Split a list into runs of `n` (the last may be shorter), at most `fuel` runs. -/
def chunks {α : Type} (n : Nat) : Nat → List α → List (List α)
  | 0, _ => []
  | fuel + 1, l => if l.isEmpty then [] else l.take n :: chunks n fuel (l.drop n)

/-- `n` zero bytes. -/
def zeros (n : Nat) : List Byte := List.replicate n 0

/-- A byte run padded with zeros to length `n`. -/
def padTo (n : Nat) (l : List Byte) : List Byte := l ++ zeros (n - l.length)

end Sys2Proof.Machine
end

