-- ==== Sys2Proof/Machine/Operands.lean ====
section
/-!
DEFINITION. Operand forms: element formats (Table 01-1, R18, R19), block scales (R20), codebook records (R22 to R25), panels
(R68, Table 02-3) and the decoding of their bytes into elements.
-/

namespace Sys2Proof.Machine

/-! Format codes (Table 02-4). -/
abbrev F.E4M3 := 0
abbrev F.E5M2 := 1
abbrev F.E3M2 := 2
abbrev F.E2M3 := 3
abbrev F.E2M1 := 4
abbrev F.INT8 := 5
abbrev F.INT4 := 6
abbrev F.BF16 := 7
abbrev F.FP16 := 8
abbrev F.FP32 := 9
abbrev F.LANE := 10

/-- A codebook format code (Table 02-4). -/
def isCb (f : Nat) : Bool := decide (16 ≤ f) && decide (f ≤ 0x1A) && decide (f % 4 ≠ 3)

/-- A format code that is not reserved (Table 02-4). -/
def fmtOk (f : Nat) : Bool := decide (f ≤ 10) || isCb f

/-- BF16 or FP16: the wide class of Table 01-5. -/
def isWideFmt (f : Nat) : Bool := f == F.BF16 || f == F.FP16

/-- An exact format (R28). -/
def isExactFmt (f : Nat) : Bool := decide (f ≤ 6) || isCb f

/-- Index width b of a codebook format: IW + 1 (Table 01-4). -/
def cbWidth (f : Nat) : Nat := (f - 16) / 4 + 2

/-- Entry format of a codebook format (Table 01-4). -/
def cbEntFmt (f : Nat) : Nat := if f % 4 = 0 then F.E4M3 else if f % 4 = 1 then F.E5M2 else F.E2M1

/-- Format of the elements that the cells see (R25). -/
def elemFmt (f : Nat) : Nat := if isCb f then cbEntFmt f else f

/-- Bytes that the 2^b entries take (R22). -/
def cbEntBytes (f : Nat) : Nat := if cbEntFmt f = F.E2M1 then 2 ^ cbWidth f / 2 else 2 ^ cbWidth f

/-- Header byte that a record of format `f` carries (Table 01-4): ENT_FMT in [7:6], IW in [5:4]. -/
def cbHeader (f : Nat) : Nat := f % 4 * 64 + ((f - 16) / 4 + 1) * 16

/-- Bytes of a codebook record (R22). -/
def cbRecBytes (f : Nat) : Nat := 2 + cbEntBytes f + 32 * cbWidth f

/-- Bits of one packed element (Table 01-2). -/
def elemBits (f : Nat) : Nat :=
  if f = F.E4M3 ∨ f = F.E5M2 ∨ f = F.INT8 then 8
  else if f = F.E3M2 ∨ f = F.E2M3 then 6
  else if f = F.E2M1 ∨ f = F.INT4 then 4
  else if f = F.FP32 then 32 else 16

/-- Bytes of one lane of a panel (Table 02-3). -/
def laneBytes (f : Nat) : Nat := if isCb f then cbRecBytes f else 4 * elemBits f

/-- A format whose blocks carry an E8M0 scale byte (R20, R21). -/
def hasScale (f : Nat) : Bool := decide (f ≤ 6)

/-- Slots of a panel (Table 02-3). -/
def panelSlots (f : Nat) : Nat := (128 * laneBytes f + (if hasScale f then 128 else 0) + 255) / 256

/-- Bytes of a panel (Table 02-3). -/
def panelBytes (f : Nat) : Nat := 256 * panelSlots f

/-- Elements of K that a panel covers (Table 02-3). -/
def panelK (f : Nat) : Nat := if isCb f then 256 else 32

/-- Field layout of a floating-point format (Table 01-1): exponent bits, mantissa bits, bias. -/
structure FpLayout where
  eb : Nat
  mb : Nat
  bias : Nat
  deriving DecidableEq, Repr

/-- Table 01-1's layouts. -/
def fpLayout (f : Nat) : FpLayout :=
  match f with
  | 0 => ⟨4, 3, 7⟩
  | 1 => ⟨5, 2, 15⟩
  | 2 => ⟨3, 2, 3⟩
  | 3 => ⟨2, 3, 1⟩
  | 4 => ⟨2, 1, 1⟩
  | 7 => ⟨8, 7, 127⟩
  | 8 => ⟨5, 10, 15⟩
  | _ => ⟨8, 23, 127⟩

/-- An integer element format (R18). -/
def isInt (f : Nat) : Bool := f == F.INT8 || f == F.INT4

/-- The format has infinities (Table 01-1). -/
def hasInf (f : Nat) : Bool := f == F.E5M2 || f == F.BF16 || f == F.FP16 || f == F.FP32

/-- The format has a NaN (Table 01-1). -/
def hasNan (f : Nat) : Bool := f == F.E4M3 || hasInf f

/-- Quantum exponent q (Table 01-1): the exponent of the smallest subnormal; 0 for integers (R18). -/
def quantum (f : Nat) : Int :=
  if isInt f then 0 else 1 - ((fpLayout f).bias : Int) - ((fpLayout f).mb : Int)

/-- emax (Table 01-1, R18). -/
def emaxOf (f : Nat) : Int :=
  match f with
  | 0 => 8
  | 1 => 15
  | 2 => 4
  | 3 => 2
  | 4 => 2
  | 5 => 6
  | _ => 2

/-- An element or a result: a finite value is `m * 2^q` for its quantum exponent q; the sign of a zero is kept apart. -/
inductive Elem where
  | nan
  | inf (neg : Bool)
  | fin (neg : Bool) (m : Nat)
  deriving DecidableEq, Repr

/-- Integer significand of a finite element. -/
def Elem.sig : Elem → Int
  | .fin neg m => if neg then -(m : Int) else m
  | _ => 0

/-- Decode element bits of a floating-point format (R16, Table 01-1). -/
def decodeFp (f x : Nat) : Elem :=
  let l := fpLayout f
  let man := x % 2 ^ l.mb
  let ex := x / 2 ^ l.mb % 2 ^ l.eb
  let neg := decide (x / 2 ^ (l.mb + l.eb) % 2 = 1)
  if f = F.E4M3 ∧ ex = 15 ∧ man = 7 then .nan
  else if hasInf f ∧ ex = 2 ^ l.eb - 1 then (if man = 0 then .inf neg else .nan)
  else if ex = 0 then .fin neg man
  else .fin neg ((2 ^ l.mb + man) * 2 ^ (ex - 1))

/-- Decode element bits of any element format (R16, R18). -/
def decodeElem (f x : Nat) : Elem :=
  if isInt f then
    let v := sx (elemBits f) x
    .fin (decide (v < 0)) v.natAbs
  else decodeFp f x

/-- Element `k` of a packed run of bytes, as bits (R19). -/
def packedAt (w : Nat) (run k : Nat) : Nat := run / 2 ^ (w * k) % 2 ^ w

/-- Decode `n` packed elements (R19). -/
def decodeRun (f run : Nat) (n : Nat) : List Elem := (List.range n).map fun k => decodeElem f (packedAt (elemBits f) run k)

/-- A block of 32 elements with its scale byte (R20). -/
structure Blk where
  es : List Elem
  sc : Nat
  deriving DecidableEq, Repr

/-- The bytes of lane `l` of a panel. -/
def panelLane (f : Nat) (bytes : List Byte) (l : Nat) : List Byte := (bytes.drop (l * laneBytes f)).take (laneBytes f)

/-- Scale byte of lane `l` of a panel; 127 (the factor 1) for a format without scales. -/
def panelScale (f : Nat) (bytes : List Byte) (l : Nat) : Nat :=
  if hasScale f then ((bytes.drop (128 * laneBytes f + l)).headD 0).toNat else 127

/-- A record's header agrees with the instruction's format (R23): same fields, no reserved value, bits [3:0] zero. -/
def cbHeaderOk (f : Nat) (rec_ : List Byte) : Bool := (rec_.headD 0).toNat == cbHeader f

/-- Codebook entry `i` of packed entry bytes, as element bits (Table 01-3). -/
def cbEntry (f : Nat) (ents : List Byte) (i : Nat) : Nat :=
  if cbEntFmt f = F.E2M1 then packedAt 4 (leNat ents) i else ((ents.drop i).headD 0).toNat

/-- Decode a codebook record into its 256 entries' elements, in order of k (R24, R25). -/
def cbElems (f : Nat) (rec_ : List Byte) : List Elem :=
  let ents := (rec_.drop 2).take (cbEntBytes f)
  let idx := leNat (rec_.drop (2 + cbEntBytes f))
  (List.range 256).map fun k => decodeElem (cbEntFmt f) (cbEntry f ents (packedAt (cbWidth f) idx k))

/-- The blocks that lane `l` of a panel holds: one, or eight for a codebook record (R25). -/
def laneBlocks (f : Nat) (bytes : List Byte) (l : Nat) : List Blk :=
  let lane := panelLane f bytes l
  if isCb f then
    let sc := ((lane.drop 1).headD 0).toNat
    (chunks 32 8 (cbElems f lane)).map fun es => ⟨es, sc⟩
  else [⟨decodeRun f (leNat lane) 32, panelScale f bytes l⟩]

/-- The blocks of lane `l` over consecutive panels in `bytes`, `n` panels. -/
def unitBlocks (f : Nat) (bytes : List Byte) (n l : Nat) : List Blk :=
  (List.range n).flatMap fun i => laneBlocks f (bytes.drop (i * panelBytes f)) l

/-- Every codebook record of the panels agrees with its format (R23). -/
def unitHeadersOk (f : Nat) (bytes : List Byte) (n : Nat) : Bool :=
  !isCb f || (List.range n).all fun i => (List.range 128).all fun l => cbHeaderOk f (panelLane f (bytes.drop (i * panelBytes f)) l)

/-- A block holds a NaN or infinite element or the NaN scale (R21; PART_ARR_EXC.SPECIAL_IN). -/
def Blk.special (b : Blk) : Bool := decide (b.sc = 255) || b.es.any fun e => match e with | .fin _ _ => false | _ => true

end Sys2Proof.Machine
end

