-- ==== Sys2Proof/Config.lean ====
section
/-!
DEFINITION. What the spec leaves open or leaves to mathematics outside the model: opaque functions with no body, so that no
proof can rest on a value of theirs, and the fused ceilings of Table 00-1.
-/

namespace Sys2Proof.Config

/-- Free values: the value drawn at count `n` of the model's counter (log entry 4). -/
opaque freeValue : Nat → Nat

/-- The number that an event record carries for a cause which the rules name and do not number (R426, Table 11-11; log entry 20). -/
opaque eventCode : Nat → Nat

/-- What a byte of an array store or local memory holds after engine reset number `n` marked it invalid and no STORE range
has covered it (R95, R122): the spec gives no contents (log entry 14). -/
opaque staleByte : Nat → Nat → Byte

/-- SHA-512 of a byte string (R166, R435); a named standard whose values no rule restates (log entry 15). -/
opaque sha512 : List Byte → List Byte

/-- RSASSA-PSS verification with SHA-512, MGF1 and a 64-byte salt: modulus, signed digest, signature (R166; log entry 15). -/
opaque rsaVerify : List Byte → List Byte → List Byte → Bool

/-- The Birroram firmware key held in the boot ROM (R413; log entry 15). -/
opaque firmwareKey : List Byte

/-- A nonce of OWNER_CHALLENGE drawn at count `n` (R436; log entry 16). -/
opaque nonce : Nat → List Byte

/-- What the SPDM 1.3 responder answers (R438): SPDM is a standard outside the spec (log entry 17). -/
opaque spdmAnswer : List Byte → List Byte

/-- Digest of the running boot ROM and resident loader (Table 11-13 index 1; log entry 15). -/
opaque bootDigest : List Byte

/-- Whether a general-core program, as bytes, holds ROTPT at a program counter (R168, R170): the spec gives EWC instructions no encoding (log
entry 12). -/
opaque coreRotpt : List Byte → Nat → Bool

/-- Fused default gain of an estimator class, in uJ per 1,000,000 events (R283, R284): fuses whose values no rule gives (log entry 37). -/
opaque gainDefault : Nat → Nat

/-- The integrator's wiring of global links (R207): the index ℓ of a link that hedgerow h has to hedgerow g, none where it has none. Each
hedgerow's wiring is chosen outside the module, and the router's own tables name the links of its own hedgerow alone (log entry 31). -/
opaque linkTo : Nat → Nat → Option Nat

/-- Module index at which link ℓ of hedgerow h arrives (R207; log entry 31). -/
opaque landing : Nat → Nat → Nat

/-- Spare rows that a tier-0 stack (0 to 7) or a tier-1 channel (64 + channel) has for repairs over its life (R141): the spec gives no number (log
entry 119). -/
opaque spareRows : Nat → Nat

/-- Static power of a compute die in uW from its fused leakage tables (R283), by die, VCORE in mV and hottest hot spot in 1/8 C (log entry 37). -/
opaque leakUw : Nat → Nat → Int → Nat

/-- The least-squares fit of R284: each class's gain in ppm of its fused default that fits best measured samples in W to the estimator's 1 ms sums by
class in pJ at the fused defaults (log entry 37). -/
opaque fitGains : List (Nat × List Nat) → List Nat

/-- Heat in uW that the coolant carries for one unit of reported flow, 0.02 L/min, and one unit of temperature, 1/8 C, by its fused density and heat
capacity (R300; log entry 37). -/
opaque coolant : Nat

/-- CRC-32C of a directory bank (R237): its directory, gateway table, gateway list and child table as (index, entry) lists. The rules do not
give the byte sequence that it covers (log entry 34). -/
opaque bankCsum : List (Nat × BitVec 64) → List (Nat × BitVec 32) → List (Nat × BitVec 32) → List (Nat × BitVec 32) → BitVec 32

/-- The vendor ID that PCI-SIG assigns to Birroram (R171): the spec names no number (log entry 123). -/
opaque pciVendor : Nat

/-- What the module's one physical function presents in its configuration space (R171, Table 05-5). -/
structure PciFunction where
  /-- processing accelerator -/
  classCode : Nat
  vendor : Nat
  /-- link rates in GT/s, fastest first; the first in flit mode -/
  rates : List Nat
  /-- largest payload and read request in bytes -/
  maxPayload : Nat
  maxRead : Nat
  /-- sizes of BAR0, BAR2 and BAR4 -/
  bars : List Nat
  /-- function level reset, IDE selective streams, SPDM 1.3 over DOE -/
  flr : Bool
  ide : Bool
  doe : Bool

/-- The module's function (R171). -/
def pciFunction : PciFunction :=
  { classCode := 0x120000, vendor := pciVendor, rates := [128, 64, 32], maxPayload := 512, maxRead := 4096
    bars := [0x4000000, 0x100000, 0x1000000000], flr := true, ide := true, doe := true }

/-- Continuous power ceiling in W by VARIANT (Table 00-1). -/
def contCeiling (v : Nat) : Nat := if v = 0 then 2600 else if v = 1 then 2100 else 1600

/-- Transient ceiling in W by VARIANT (Table 00-1). -/
def transCeiling (v : Nat) : Nat := if v = 0 then 3100 else if v = 1 then 2500 else 1900

/-- Highest operating point by VARIANT (Table 00-1). -/
def topPoint (v : Nat) : Nat := if v = 0 then 0 else if v = 1 then 1 else 2

/-- Ceiling of the wear counter in units of 64 KiB (R157). -/
def wearCeiling : Nat := 305000000

/-- Refill of the wear counter in units per second (R157). -/
def wearRefill : Nat := 353

/-- Spill reserve in units (R157). -/
def spillReserve : Nat := 40000000

end Sys2Proof.Config
end

