-- ==== Sys2Proof/Machine/RegMap.lean ====
section
/-!
DEFINITION. The BAR0 register map: every register kind with its offset, its index strides and its field map (access codes of
Table 00-9 and reset values, R8 and R10), and the fields by name. A field whose Reset column names a source reads 0 until the start-up
copies the source in (R446).
-/

namespace Sys2Proof.Machine

/-- Access codes (Table 00-9). RSV fields are not listed: they read 0. -/
inductive Acc0 where
  | ro | rw | rw1c | wo
  deriving DecidableEq, Repr

/-- A field of a register map. -/
structure FldRow where
  lo : Nat
  w : Nat
  acc : Acc0
  reset : Nat
  deriving DecidableEq, Repr

/-- A register map: offset of the register of index 0, (stride, count) of each index, fields. -/
structure RegRow where
  base : Nat
  dims : List (Nat × Nat)
  flds : List FldRow
  deriving DecidableEq, Repr

/-- The register kinds of the spec. -/
inductive RegKind where
  | PART_ARR_EXC
  | PART_ARR_RESCNT
  | PART_Q_CFG
  | PART_Q_ENDS
  | PART_Q_OCC
  | PART_Q_CREDIT
  | PART_ARR_STAT
  | PART_STR_STAT
  | PART_BRM_CTL
  | PART_BRM_STAT
  | PART_ENG_RST
  | PART_ENG_RST_STAT
  | PART_CORE_STAT
  | PART_CORE_IPENDm
  | PART_CORE_IMASKm
  | PART_CORE_ISTATm
  | PART_CORE_MBOXn
  | PART_CORE_MISC
  | MEM_STAT
  | MEM_BAR4_WINw
  | MEM_SCRUB_STATt
  | MEM_CE_T0_c
  | MEM_T1_RECAL_c
  | MEM_LM_THR
  | MEM_ERRLOG_STAT
  | MEM_VLT_STAT
  | MEM_VLT_BUDGET
  | MEM_VLT_FUSE
  | HIF_CTL
  | HIF_EG_STAT
  | HIF_EG_LEVEL
  | HIF_RING_CFGn
  | HIF_RING_IRQn
  | HIF_RING_STATn
  | HIF_RING_POSn
  | HIF_CTX_STATc
  | FZ_PORT_CTL
  | FZ_PORT_STAT
  | FZ_PORT_MAP
  | FZ_PORT_FAR
  | FZ_PORT_CNTk
  | FZ_PORT_BER
  | FZ_PORT_ASYM
  | FZ_SELF
  | FZ_RT_CFG
  | FZ_BANK_CTL
  | FZ_BANK_STAT
  | FZ_DIR_WIN
  | FZ_MEMBER
  | FZ_TIME_CFG
  | FZ_TIME_STAT
  | FZ_VERIFY_CFG
  | FZ_DROPk
  | FZ_STREAMp
  | PWR_STAT
  | PWR_CLIP
  | PWR_CLIP_IN
  | PWR_CLIP_DER
  | PWR_INPUT
  | PWR_OP
  | PWR_COOL
  | PWR_RTH
  | PWR_EST
  | PWR_DROOPd
  | PWR_OPVk
  | PWR_HSd_h
  | RST_STRAP
  | RST_LADDER
  | RST_PIN_STAT
  | RST_FAULT
  | RST_LASTOFF
  | RST_REFCLK
  | HIF_BOOT_STATUS
  | RST_REQ
  | RST_CFG
  | RST_CAUSE
  | RST_PART_AVAIL
  | RST_QS_SRC_CTL
  | RST_QS_STAT
  | PART_TOP_STAT
  | PART_TOP_ARRn
  | PART_TOP_BAD_ARR
  | GRD_STAT
  | GRD_CHc
  | GRD_THRk
  | RST_ESC_CFG
  | RST_ESC_STAT
  | RST_ESC_LAST
  | RST_LEASE
  | RST_WOR_STATp
  | RST_SEC
  | EVT_STATUS
  | EVT_WIN
  | EVT_CODE_SEL
  | EVT_CODE_CFG
  | UPD_CTL
  | UPD_STAT
  | RST_PART_ID
  | RST_SERIAL_LO
  | RST_SERIAL_HI
  | HIF_RING_SQB_LOn
  | HIF_RING_SQB_HIn
  | HIF_RING_CQB_LOn
  | HIF_RING_CQB_HIn
  | MEM_CE_T1_c
  | MEM_CE_SR_p
  | MEM_VLT_WRITTEN_LO
  | MEM_VLT_WRITTEN_HI
  | FZ_BANK_CSUM
  | FZ_LAY_TIME_LO
  | FZ_LAY_TIME_HI
  | FZ_TIME_LO
  | FZ_TIME_HI
  | FZ_TIME_SET_LO
  | FZ_TIME_SET_HI
  | PWR_LIFE_N20
  | PWR_LIFE_N40
  | PWR_LIFE_N60
  | PWR_LIFE_DAMAGE
  | PWR_REGION
  | RST_QS_MISS
  | RST_QS_SRC_BASE
  | PART_TOP_COREg
  | PART_TOP_FUSE_ARR
  | PART_TOP_BAD_CORE_LO
  | PART_TOP_BAD_CORE_HI
  | PART_TOP_BAD_STR
  | PART_BRM_RPT
  | EVT_FIRST_SEQ
  | EVT_LAST_SEQ
  | EVT_CLEARS
  | EVT_FULL_DROP
  | EVT_STAGE_DROP
  | EVT_CODE_DROP
  | UPD_VER_RUN
  | UPD_VER_NEW
  | UPD_SVN
  | UPD_CONFIRM
  | MEM_ERRLOG
  | HIF_MSIX
  | HIF_PBA
  deriving DecidableEq, Repr

/-- The register maps (docstring comments name the chapter and rule). -/
def regRow : RegKind → RegRow
  -- 01_arrays_and_arithmetic R58
  | .PART_ARR_EXC => ⟨0x1080000, [(0x100000, 8), (0x100, 24)], [⟨31, 1, .rw1c, 0⟩, ⟨30, 1, .rw1c, 0⟩, ⟨6, 1, .rw1c, 0⟩, ⟨5, 1, .rw1c, 0⟩, ⟨4, 1, .rw1c, 0⟩, ⟨3, 1, .rw1c, 0⟩, ⟨2, 1, .rw1c, 0⟩, ⟨1, 1, .rw1c, 0⟩, ⟨0, 1, .rw1c, 0⟩]⟩
  -- 01_arrays_and_arithmetic R58
  | .PART_ARR_RESCNT => ⟨0x1080004, [(0x100000, 8), (0x100, 24)], [⟨0, 16, .ro, 0⟩]⟩
  -- 02_array_execution R451
  | .PART_Q_CFG => ⟨0x1040000, [(0x100000, 8), (0x10, 1024)], [⟨31, 1, .ro, 0⟩, ⟨30, 1, .ro, 0⟩, ⟨22, 5, .ro, 0⟩, ⟨0, 18, .ro, 0⟩]⟩
  -- 02_array_execution R451
  | .PART_Q_ENDS => ⟨0x1040004, [(0x100000, 8), (0x10, 1024)], [⟨16, 16, .ro, 0⟩, ⟨0, 16, .ro, 0⟩]⟩
  -- 02_array_execution R451
  | .PART_Q_OCC => ⟨0x1040008, [(0x100000, 8), (0x10, 1024)], [⟨31, 1, .rw1c, 0⟩, ⟨30, 1, .ro, 0⟩, ⟨0, 17, .ro, 0⟩]⟩
  -- 02_array_execution R451
  | .PART_Q_CREDIT => ⟨0x104000C, [(0x100000, 8), (0x10, 1024)], [⟨31, 1, .ro, 0⟩, ⟨0, 17, .ro, 0⟩]⟩
  -- 02_array_execution R77
  | .PART_ARR_STAT => ⟨0x1080008, [(0x100000, 8), (0x100, 24)], [⟨31, 1, .rw1c, 0⟩, ⟨30, 1, .rw1c, 0⟩, ⟨29, 1, .rw1c, 0⟩, ⟨20, 4, .ro, 0⟩, ⟨18, 2, .ro, 0⟩, ⟨0, 12, .ro, 0⟩]⟩
  -- 02_array_execution R86
  | .PART_STR_STAT => ⟨0x1090000, [(0x100000, 8), (0x100, 16)], [⟨31, 1, .rw1c, 0⟩, ⟨30, 1, .rw1c, 0⟩, ⟨29, 1, .rw1c, 0⟩, ⟨28, 1, .rw1c, 0⟩, ⟨20, 4, .ro, 0⟩, ⟨0, 16, .ro, 0⟩]⟩
  -- 02_array_execution R92
  | .PART_BRM_CTL => ⟨0x1098000, [(0x100000, 8)], [⟨31, 1, .rw, 1⟩, ⟨0, 16, .rw, 100⟩]⟩
  -- 02_array_execution R92
  | .PART_BRM_STAT => ⟨0x1098004, [(0x100000, 8)], [⟨31, 1, .rw1c, 0⟩, ⟨30, 1, .rw1c, 0⟩, ⟨0, 10, .ro, 0⟩]⟩
  -- 02_array_execution R95
  | .PART_ENG_RST => ⟨0x109C000, [(0x100000, 8)], [⟨31, 1, .wo, 0⟩, ⟨0, 16, .wo, 0⟩]⟩
  -- 02_array_execution R95
  | .PART_ENG_RST_STAT => ⟨0x109C004, [(0x100000, 8)], [⟨31, 1, .ro, 0⟩, ⟨30, 1, .rw1c, 0⟩, ⟨29, 1, .rw1c, 0⟩, ⟨0, 16, .ro, 0⟩]⟩
  -- 03_general_cores_and_interrupts R122
  | .PART_CORE_STAT => ⟨0x10A0000, [(0x100000, 8), (0x400, 48)], [⟨31, 1, .rw1c, 0⟩, ⟨30, 1, .rw1c, 0⟩, ⟨29, 1, .rw1c, 0⟩, ⟨28, 1, .rw1c, 0⟩, ⟨24, 4, .ro, 6⟩, ⟨23, 1, .ro, 0⟩, ⟨16, 7, .ro, 0⟩, ⟨0, 16, .ro, 0⟩]⟩
  -- 03_general_cores_and_interrupts R122
  | .PART_CORE_IPENDm => ⟨0x10A0010, [(0x100000, 8), (0x400, 48), (0x4, 4)], [⟨0, 32, .rw, 0⟩]⟩
  -- 03_general_cores_and_interrupts R122
  | .PART_CORE_IMASKm => ⟨0x10A0020, [(0x100000, 8), (0x400, 48), (0x4, 4)], [⟨0, 32, .rw, 4294967295⟩]⟩
  -- 03_general_cores_and_interrupts R122
  | .PART_CORE_ISTATm => ⟨0x10A0030, [(0x100000, 8), (0x400, 48), (0x4, 4)], [⟨0, 32, .ro, 0⟩]⟩
  -- 03_general_cores_and_interrupts R122
  | .PART_CORE_MBOXn => ⟨0x10A0040, [(0x100000, 8), (0x400, 48), (0x4, 4)], [⟨0, 32, .rw, 0⟩]⟩
  -- 03_general_cores_and_interrupts R122
  | .PART_CORE_MISC => ⟨0x10A0050, [(0x100000, 8), (0x400, 48)], [⟨31, 1, .rw1c, 0⟩, ⟨0, 16, .ro, 0⟩]⟩
  -- 04_memory_tiers R163
  | .MEM_STAT => ⟨0x800000, [], [⟨31, 1, .rw1c, 0⟩, ⟨30, 1, .rw1c, 0⟩, ⟨29, 1, .rw1c, 0⟩, ⟨28, 1, .rw1c, 0⟩]⟩
  -- 04_memory_tiers R163
  | .MEM_BAR4_WINw => ⟨0x800010, [(0x4, 4)], [⟨31, 1, .rw, 0⟩, ⟨0, 22, .rw, 0⟩]⟩
  -- 04_memory_tiers R163
  | .MEM_SCRUB_STATt => ⟨0x800100, [(0x10, 3)], [⟨31, 1, .rw1c, 0⟩, ⟨30, 1, .rw1c, 0⟩, ⟨10, 10, .ro, 0⟩, ⟨0, 10, .ro, 0⟩]⟩
  -- 04_memory_tiers R163
  | .MEM_CE_T0_c => ⟨0x801000, [(0x4, 128)], [⟨31, 1, .rw1c, 0⟩, ⟨0, 16, .ro, 0⟩]⟩
  -- 04_memory_tiers R163
  | .MEM_T1_RECAL_c => ⟨0x801300, [(0x4, 32)], [⟨31, 1, .ro, 0⟩, ⟨28, 3, .ro, 0⟩, ⟨0, 16, .ro, 0⟩]⟩
  -- 04_memory_tiers R163
  | .MEM_LM_THR => ⟨0x801400, [], [⟨0, 16, .rw, 16⟩]⟩
  -- 04_memory_tiers R163
  | .MEM_ERRLOG_STAT => ⟨0x802400, [], [⟨24, 8, .ro, 0⟩, ⟨16, 6, .ro, 0⟩, ⟨0, 16, .rw1c, 0⟩]⟩
  -- 04_memory_tiers R164
  | .MEM_VLT_STAT => ⟨0x804000, [], [⟨31, 1, .rw1c, 0⟩, ⟨30, 1, .rw1c, 0⟩, ⟨29, 1, .rw1c, 0⟩, ⟨28, 1, .ro, 0⟩, ⟨27, 1, .ro, 0⟩, ⟨0, 16, .ro, 0⟩]⟩
  -- 04_memory_tiers R164
  | .MEM_VLT_BUDGET => ⟨0x804004, [], [⟨0, 29, .ro, 0⟩]⟩
  -- 04_memory_tiers R164
  | .MEM_VLT_FUSE => ⟨0x804008, [], [⟨22, 10, .ro, 0⟩, ⟨0, 22, .ro, 0⟩]⟩
  -- 05_plans_and_host_rings R204
  | .HIF_CTL => ⟨0x100, [], [⟨31, 1, .rw, 0⟩, ⟨30, 1, .rw, 0⟩, ⟨29, 1, .rw, 0⟩, ⟨0, 9, .rw, 511⟩]⟩
  -- 05_plans_and_host_rings R204
  | .HIF_EG_STAT => ⟨0x104, [], [⟨31, 1, .ro, 0⟩, ⟨30, 1, .ro, 0⟩, ⟨29, 1, .ro, 0⟩, ⟨28, 1, .ro, 1⟩, ⟨0, 17, .ro, 0⟩]⟩
  -- 05_plans_and_host_rings R204
  | .HIF_EG_LEVEL => ⟨0x108, [], [⟨0, 32, .ro, 0⟩]⟩
  -- 05_plans_and_host_rings R204
  | .HIF_RING_CFGn => ⟨0x1000, [(0x40, 256)], [⟨31, 1, .rw, 0⟩, ⟨25, 5, .rw, 6⟩, ⟨20, 5, .rw, 6⟩, ⟨0, 9, .rw, 0⟩]⟩
  -- 05_plans_and_host_rings R204
  | .HIF_RING_IRQn => ⟨0x1004, [(0x40, 256)], [⟨31, 1, .rw, 0⟩, ⟨16, 8, .rw, 1⟩, ⟨0, 16, .rw, 0⟩]⟩
  -- 05_plans_and_host_rings R204
  | .HIF_RING_STATn => ⟨0x1018, [(0x40, 256)], [⟨31, 1, .rw1c, 0⟩, ⟨30, 1, .ro, 0⟩, ⟨27, 3, .ro, 0⟩, ⟨0, 17, .ro, 0⟩]⟩
  -- 05_plans_and_host_rings R204
  | .HIF_RING_POSn => ⟨0x101C, [(0x40, 256)], [⟨16, 16, .ro, 0⟩, ⟨0, 16, .ro, 0⟩]⟩
  -- 05_plans_and_host_rings R204
  | .HIF_CTX_STATc => ⟨0x6000, [(0x4, 64)], [⟨29, 3, .ro, 0⟩, ⟨28, 1, .ro, 0⟩, ⟨22, 6, .ro, 0⟩, ⟨20, 2, .ro, 0⟩, ⟨17, 3, .ro, 0⟩, ⟨0, 16, .ro, 0⟩]⟩
  -- 06_fazar_fabric R257
  | .FZ_PORT_CTL => ⟨0x500000, [(0x1000, 36)], [⟨31, 1, .rw, 0⟩, ⟨30, 1, .rw, 0⟩, ⟨29, 1, .wo, 0⟩]⟩
  -- 06_fazar_fabric R257
  | .FZ_PORT_STAT => ⟨0x500004, [(0x1000, 36)], [⟨28, 4, .ro, 0⟩, ⟨24, 4, .ro, 0⟩, ⟨23, 1, .ro, 0⟩, ⟨16, 6, .ro, 0⟩, ⟨0, 16, .ro, 0⟩]⟩
  -- 06_fazar_fabric R257
  | .FZ_PORT_MAP => ⟨0x500008, [(0x1000, 36)], [⟨31, 1, .rw, 0⟩, ⟨30, 1, .rw, 0⟩, ⟨24, 6, .rw, 0⟩, ⟨0, 19, .rw, 0⟩]⟩
  -- 06_fazar_fabric R257
  | .FZ_PORT_FAR => ⟨0x50000C, [(0x1000, 36)], [⟨31, 1, .ro, 0⟩, ⟨24, 6, .ro, 0⟩, ⟨0, 19, .ro, 0⟩]⟩
  -- 06_fazar_fabric R257
  | .FZ_PORT_CNTk => ⟨0x500020, [(0x1000, 36), (0x4, 5)], [⟨0, 32, .ro, 0⟩]⟩
  -- 06_fazar_fabric R257
  | .FZ_PORT_BER => ⟨0x500040, [(0x1000, 36)], [⟨31, 1, .ro, 0⟩, ⟨30, 1, .ro, 0⟩, ⟨0, 30, .ro, 0⟩]⟩
  -- 06_fazar_fabric R257
  | .FZ_PORT_ASYM => ⟨0x500044, [(0x1000, 36)], [⟨0, 16, .rw, 0⟩]⟩
  -- 06_fazar_fabric R257
  | .FZ_SELF => ⟨0x530000, [], [⟨31, 1, .ro, 0⟩, ⟨20, 8, .ro, 0⟩, ⟨0, 20, .ro, 0⟩]⟩
  -- 06_fazar_fabric R257
  | .FZ_RT_CFG => ⟨0x530004, [], [⟨31, 1, .rw, 1⟩, ⟨16, 8, .rw, 64⟩, ⟨0, 16, .rw, 2000⟩]⟩
  -- 06_fazar_fabric R257
  | .FZ_BANK_CTL => ⟨0x530008, [], [⟨31, 1, .wo, 0⟩, ⟨30, 1, .wo, 0⟩, ⟨29, 1, .wo, 0⟩, ⟨28, 1, .wo, 0⟩]⟩
  -- 06_fazar_fabric R257
  | .FZ_BANK_STAT => ⟨0x53000C, [], [⟨31, 1, .ro, 0⟩, ⟨30, 1, .ro, 0⟩, ⟨29, 1, .ro, 0⟩, ⟨28, 1, .ro, 0⟩, ⟨27, 1, .rw1c, 0⟩, ⟨26, 1, .rw1c, 0⟩]⟩
  -- 06_fazar_fabric R257
  | .FZ_DIR_WIN => ⟨0x530020, [], [⟨31, 1, .rw, 0⟩, ⟨0, 3, .rw, 0⟩]⟩
  -- 06_fazar_fabric R257
  | .FZ_MEMBER => ⟨0x530030, [], [⟨31, 1, .ro, 0⟩, ⟨30, 1, .ro, 0⟩, ⟨0, 16, .ro, 65535⟩]⟩
  -- 06_fazar_fabric R257
  | .FZ_TIME_CFG => ⟨0x530040, [], [⟨31, 1, .rw, 0⟩, ⟨28, 3, .rw, 0⟩]⟩
  -- 06_fazar_fabric R257
  | .FZ_TIME_STAT => ⟨0x530044, [], [⟨29, 3, .ro, 0⟩, ⟨28, 1, .rw1c, 0⟩, ⟨22, 6, .ro, 0⟩, ⟨19, 3, .ro, 0⟩, ⟨0, 16, .ro, 0⟩]⟩
  -- 06_fazar_fabric R257
  | .FZ_VERIFY_CFG => ⟨0x530060, [], [⟨31, 1, .rw, 0⟩, ⟨30, 1, .rw, 0⟩, ⟨16, 8, .rw, 5⟩, ⟨0, 16, .rw, 0⟩]⟩
  -- 06_fazar_fabric R257
  | .FZ_DROPk => ⟨0x530100, [(0x4, 11)], [⟨0, 32, .ro, 0⟩]⟩
  -- 06_fazar_fabric R257
  | .FZ_STREAMp => ⟨0x530200, [(0x4, 8)], [⟨16, 16, .ro, 0⟩, ⟨0, 14, .ro, 0⟩]⟩
  -- 07_power_and_heat R304
  | .PWR_STAT => ⟨0x200000, [], [⟨31, 1, .ro, 0⟩, ⟨30, 1, .ro, 0⟩, ⟨29, 1, .ro, 0⟩, ⟨28, 1, .ro, 0⟩, ⟨27, 1, .ro, 0⟩, ⟨26, 1, .ro, 0⟩, ⟨25, 1, .ro, 0⟩, ⟨24, 1, .ro, 0⟩, ⟨23, 1, .ro, 0⟩, ⟨22, 1, .ro, 0⟩, ⟨21, 1, .ro, 0⟩, ⟨20, 1, .ro, 0⟩, ⟨19, 1, .ro, 0⟩, ⟨16, 3, .ro, 7⟩, ⟨13, 3, .ro, 7⟩, ⟨10, 3, .ro, 0⟩]⟩
  -- 07_power_and_heat R304
  | .PWR_CLIP => ⟨0x200004, [], [⟨29, 3, .ro, 0⟩, ⟨0, 16, .ro, 0⟩]⟩
  -- 07_power_and_heat R304
  | .PWR_CLIP_IN => ⟨0x200008, [], [⟨16, 16, .ro, 0⟩, ⟨0, 16, .ro, 0⟩]⟩
  -- 07_power_and_heat R304
  | .PWR_CLIP_DER => ⟨0x20000C, [], [⟨16, 16, .ro, 65535⟩, ⟨0, 16, .ro, 65535⟩]⟩
  -- 07_power_and_heat R304
  | .PWR_INPUT => ⟨0x200010, [], [⟨16, 16, .ro, 0⟩, ⟨0, 10, .ro, 0⟩]⟩
  -- 07_power_and_heat R304
  | .PWR_OP => ⟨0x200014, [], [⟨29, 3, .ro, 0⟩, ⟨0, 16, .ro, 0⟩]⟩
  -- 07_power_and_heat R304
  | .PWR_COOL => ⟨0x200018, [], [⟨20, 12, .ro, 0⟩, ⟨8, 12, .ro, 0⟩, ⟨0, 8, .ro, 255⟩]⟩
  -- 07_power_and_heat R304
  | .PWR_RTH => ⟨0x20001C, [], [⟨31, 1, .ro, 0⟩, ⟨0, 16, .ro, 300⟩]⟩
  -- 07_power_and_heat R304
  | .PWR_EST => ⟨0x200020, [], [⟨31, 1, .ro, 0⟩, ⟨0, 16, .ro, 0⟩]⟩
  -- 07_power_and_heat R304
  | .PWR_DROOPd => ⟨0x200024, [(0x4, 2)], [⟨0, 32, .ro, 0⟩]⟩
  -- 07_power_and_heat R304
  | .PWR_OPVk => ⟨0x200040, [(0x4, 8)], [⟨0, 16, .ro, 0⟩]⟩
  -- 07_power_and_heat R304
  | .PWR_HSd_h => ⟨0x200100, [(0x60, 2), (0x4, 24)], [⟨31, 1, .ro, 0⟩, ⟨30, 1, .ro, 0⟩, ⟨29, 1, .ro, 0⟩, ⟨28, 1, .ro, 0⟩, ⟨0, 12, .ro, 0⟩]⟩
  -- 08_module_boundary R339
  | .RST_STRAP => ⟨0x100200, [], [⟨31, 1, .ro, 0⟩, ⟨30, 1, .ro, 0⟩, ⟨28, 2, .ro, 0⟩, ⟨26, 2, .ro, 0⟩, ⟨0, 19, .ro, 0⟩]⟩
  -- 08_module_boundary R339
  | .RST_LADDER => ⟨0x100204, [], [⟨31, 1, .ro, 0⟩, ⟨30, 1, .ro, 0⟩, ⟨24, 6, .ro, 0⟩, ⟨20, 4, .ro, 0⟩]⟩
  -- 08_module_boundary R339
  | .RST_PIN_STAT => ⟨0x100208, [], [⟨31, 1, .ro, 0⟩, ⟨30, 1, .ro, 0⟩, ⟨29, 1, .ro, 0⟩, ⟨28, 1, .ro, 0⟩, ⟨27, 1, .ro, 1⟩, ⟨26, 1, .ro, 0⟩, ⟨25, 1, .ro, 1⟩, ⟨24, 1, .ro, 0⟩, ⟨23, 1, .ro, 0⟩]⟩
  -- 08_module_boundary R339
  | .RST_FAULT => ⟨0x10020C, [], [⟨31, 1, .ro, 0⟩, ⟨30, 1, .ro, 0⟩, ⟨29, 1, .ro, 0⟩, ⟨28, 1, .ro, 0⟩, ⟨27, 1, .ro, 0⟩, ⟨26, 1, .ro, 0⟩, ⟨25, 1, .ro, 0⟩, ⟨24, 1, .ro, 0⟩, ⟨23, 1, .ro, 0⟩]⟩
  -- 08_module_boundary R339
  | .RST_LASTOFF => ⟨0x100210, [], [⟨31, 1, .ro, 0⟩, ⟨24, 4, .ro, 0⟩, ⟨16, 8, .ro, 0⟩, ⟨0, 8, .ro, 0⟩]⟩
  -- 08_module_boundary R339
  | .RST_REFCLK => ⟨0x100214, [], [⟨31, 1, .ro, 0⟩, ⟨29, 2, .ro, 0⟩, ⟨28, 1, .ro, 0⟩, ⟨0, 16, .ro, 0⟩]⟩
  -- 09_reset_and_bringup R373
  | .HIF_BOOT_STATUS => ⟨0x10, [], [⟨28, 4, .ro, 2⟩, ⟨27, 1, .ro, 0⟩, ⟨26, 1, .ro, 0⟩, ⟨24, 2, .ro, 0⟩, ⟨16, 8, .ro, 0⟩, ⟨12, 4, .ro, 0⟩, ⟨8, 4, .ro, 0⟩, ⟨7, 1, .ro, 0⟩, ⟨0, 2, .ro, 0⟩]⟩
  -- 09_reset_and_bringup R373
  | .RST_REQ => ⟨0x100010, [], [⟨31, 1, .wo, 0⟩, ⟨30, 1, .wo, 0⟩, ⟨29, 1, .wo, 0⟩, ⟨28, 1, .wo, 0⟩, ⟨27, 1, .wo, 0⟩, ⟨16, 8, .wo, 0⟩, ⟨8, 8, .wo, 0⟩, ⟨0, 6, .wo, 0⟩]⟩
  -- 09_reset_and_bringup R373
  | .RST_CFG => ⟨0x100014, [], [⟨0, 16, .rw, 100⟩]⟩
  -- 09_reset_and_bringup R373
  | .RST_CAUSE => ⟨0x100018, [], [⟨31, 1, .ro, 0⟩, ⟨24, 4, .ro, 0⟩, ⟨0, 16, .ro, 0⟩]⟩
  -- 09_reset_and_bringup R373
  | .RST_PART_AVAIL => ⟨0x100020, [], [⟨0, 8, .ro, 0⟩]⟩
  -- 09_reset_and_bringup R373
  | .RST_QS_SRC_CTL => ⟨0x100040, [], [⟨31, 1, .wo, 0⟩, ⟨30, 1, .wo, 0⟩, ⟨28, 2, .rw, 0⟩, ⟨27, 1, .rw, 0⟩, ⟨26, 1, .rw, 1⟩, ⟨21, 5, .rw, 10⟩, ⟨0, 20, .rw, 1048575⟩]⟩
  -- 09_reset_and_bringup R373
  | .RST_QS_STAT => ⟨0x100044, [], [⟨29, 3, .ro, 0⟩, ⟨27, 2, .ro, 0⟩, ⟨26, 1, .rw1c, 0⟩, ⟨25, 1, .rw1c, 0⟩, ⟨24, 1, .ro, 0⟩, ⟨16, 8, .ro, 0⟩, ⟨0, 16, .ro, 0⟩]⟩
  -- 09_reset_and_bringup R373
  | .PART_TOP_STAT => ⟨0x1010000, [(0x100000, 8)], [⟨31, 1, .ro, 0⟩, ⟨30, 1, .ro, 0⟩, ⟨26, 4, .ro, 0⟩, ⟨20, 6, .ro, 0⟩, ⟨15, 5, .ro, 0⟩, ⟨12, 3, .ro, 0⟩, ⟨2, 2, .ro, 0⟩, ⟨0, 2, .ro, 0⟩]⟩
  -- 09_reset_and_bringup R373
  | .PART_TOP_ARRn => ⟨0x1010100, [(0x100000, 8), (0x4, 24)], [⟨31, 1, .ro, 0⟩, ⟨30, 1, .ro, 0⟩, ⟨29, 1, .ro, 0⟩, ⟨0, 5, .ro, 0⟩]⟩
  -- 09_reset_and_bringup R373
  | .PART_TOP_BAD_ARR => ⟨0x1010300, [(0x100000, 8)], [⟨0, 26, .ro, 0⟩]⟩
  -- 10_faults_and_recovery R396
  | .GRD_STAT => ⟨0x300000, [], [⟨31, 1, .ro, 0⟩, ⟨30, 1, .ro, 0⟩, ⟨29, 1, .ro, 0⟩, ⟨28, 1, .ro, 0⟩, ⟨27, 1, .ro, 0⟩, ⟨0, 16, .ro, 0⟩]⟩
  -- 10_faults_and_recovery R396
  | .GRD_CHc => ⟨0x300010, [(0x4, 3)], [⟨31, 1, .ro, 0⟩, ⟨30, 1, .ro, 0⟩, ⟨29, 1, .ro, 0⟩, ⟨28, 1, .ro, 0⟩, ⟨27, 1, .ro, 0⟩, ⟨26, 1, .ro, 0⟩, ⟨0, 12, .ro, 0⟩]⟩
  -- 10_faults_and_recovery R396
  | .GRD_THRk => ⟨0x300040, [(0x4, 6)], [⟨24, 8, .ro, 0⟩, ⟨0, 16, .ro, 0⟩]⟩
  -- 10_faults_and_recovery R396
  | .RST_ESC_CFG => ⟨0x100080, [], [⟨31, 1, .rw, 1⟩, ⟨28, 3, .rw, 3⟩, ⟨25, 3, .rw, 3⟩, ⟨22, 3, .rw, 3⟩, ⟨8, 8, .rw, 60⟩, ⟨0, 8, .rw, 1⟩]⟩
  -- 10_faults_and_recovery R396
  | .RST_ESC_STAT => ⟨0x100084, [], [⟨31, 1, .ro, 0⟩, ⟨30, 1, .ro, 0⟩, ⟨22, 8, .ro, 0⟩, ⟨13, 3, .ro, 0⟩, ⟨0, 13, .ro, 0⟩]⟩
  -- 10_faults_and_recovery R396
  | .RST_ESC_LAST => ⟨0x100088, [], [⟨16, 16, .ro, 0⟩, ⟨8, 8, .ro, 0⟩, ⟨0, 8, .ro, 0⟩]⟩
  -- 11_management_and_firmware R440
  | .RST_LEASE => ⟨0x100300, [], [⟨30, 2, .ro, 0⟩, ⟨29, 1, .ro, 0⟩, ⟨28, 1, .ro, 0⟩, ⟨20, 8, .ro, 0⟩, ⟨0, 16, .ro, 65535⟩]⟩
  -- 11_management_and_firmware R440
  | .RST_WOR_STATp => ⟨0x100304, [(0x4, 2)], [⟨16, 16, .ro, 0⟩, ⟨0, 16, .ro, 0⟩]⟩
  -- 11_management_and_firmware R440
  | .RST_SEC => ⟨0x100310, [], [⟨24, 8, .ro, 0⟩, ⟨16, 8, .ro, 0⟩, ⟨2, 7, .ro, 0⟩, ⟨0, 1, .ro, 0⟩]⟩
  -- 11_management_and_firmware R440
  | .EVT_STATUS => ⟨0x400000, [], [⟨31, 1, .ro, 0⟩, ⟨30, 1, .rw1c, 0⟩, ⟨29, 1, .ro, 0⟩, ⟨0, 15, .ro, 0⟩]⟩
  -- 11_management_and_firmware R440
  | .EVT_WIN => ⟨0x400020, [], [⟨0, 7, .rw, 0⟩]⟩
  -- 11_management_and_firmware R440
  | .EVT_CODE_SEL => ⟨0x400030, [], [⟨0, 16, .rw, 0⟩]⟩
  -- 11_management_and_firmware R440
  | .EVT_CODE_CFG => ⟨0x400034, [], [⟨31, 1, .ro, 0⟩, ⟨8, 8, .rw, 64⟩, ⟨0, 8, .rw, 16⟩]⟩
  -- 11_management_and_firmware R440
  | .UPD_CTL => ⟨0x3000000, [], [⟨31, 1, .wo, 0⟩, ⟨30, 1, .wo, 0⟩, ⟨29, 1, .wo, 0⟩]⟩
  -- 11_management_and_firmware R440
  | .UPD_STAT => ⟨0x3000004, [], [⟨28, 4, .ro, 0⟩, ⟨24, 4, .rw1c, 0⟩, ⟨23, 1, .ro, 0⟩, ⟨0, 8, .ro, 0⟩]⟩
  -- 12_register_index R444
  | .RST_PART_ID => ⟨0x100000, [], [⟨16, 16, .ro, 57425⟩, ⟨8, 8, .ro, 0⟩, ⟨0, 2, .ro, 0⟩]⟩
  -- 12_register_index R444
  | .RST_SERIAL_LO => ⟨0x100004, [], [⟨0, 32, .ro, 0⟩]⟩
  -- 12_register_index R444
  | .RST_SERIAL_HI => ⟨0x100008, [], [⟨0, 32, .ro, 0⟩]⟩
  -- 05_plans_and_host_rings R173
  | .HIF_RING_SQB_LOn => ⟨0x1008, [(0x40, 256)], [⟨12, 20, .rw, 0⟩]⟩
  -- 05_plans_and_host_rings R173
  | .HIF_RING_SQB_HIn => ⟨0x100C, [(0x40, 256)], [⟨0, 32, .rw, 0⟩]⟩
  -- 05_plans_and_host_rings R173
  | .HIF_RING_CQB_LOn => ⟨0x1010, [(0x40, 256)], [⟨12, 20, .rw, 0⟩]⟩
  -- 05_plans_and_host_rings R173
  | .HIF_RING_CQB_HIn => ⟨0x1014, [(0x40, 256)], [⟨0, 32, .rw, 0⟩]⟩
  -- 04_memory_tiers R163
  | .MEM_CE_T1_c => ⟨0x801200, [(0x4, 32)], [⟨31, 1, .rw1c, 0⟩, ⟨0, 16, .ro, 0⟩]⟩
  -- 04_memory_tiers R163
  | .MEM_CE_SR_p => ⟨0x801280, [(0x4, 8)], [⟨31, 1, .rw1c, 0⟩, ⟨0, 16, .ro, 0⟩]⟩
  -- 04_memory_tiers R157
  | .MEM_VLT_WRITTEN_LO => ⟨0x804010, [], [⟨0, 32, .ro, 0⟩]⟩
  -- 04_memory_tiers R157
  | .MEM_VLT_WRITTEN_HI => ⟨0x804014, [], [⟨0, 32, .ro, 0⟩]⟩
  -- 06_fazar_fabric R237
  | .FZ_BANK_CSUM => ⟨0x530010, [], [⟨0, 32, .ro, 0⟩]⟩
  -- 06_fazar_fabric R238
  | .FZ_LAY_TIME_LO => ⟨0x530018, [], [⟨0, 32, .rw, 0⟩]⟩
  -- 06_fazar_fabric R238
  | .FZ_LAY_TIME_HI => ⟨0x53001C, [], [⟨0, 32, .rw, 0⟩]⟩
  -- 06_fazar_fabric R252
  | .FZ_TIME_LO => ⟨0x530048, [], [⟨0, 32, .ro, 0⟩]⟩
  -- 06_fazar_fabric R252
  | .FZ_TIME_HI => ⟨0x53004C, [], [⟨0, 32, .ro, 0⟩]⟩
  -- 06_fazar_fabric R252
  | .FZ_TIME_SET_LO => ⟨0x530050, [], [⟨0, 32, .rw, 0⟩]⟩
  -- 06_fazar_fabric R252
  | .FZ_TIME_SET_HI => ⟨0x530054, [], [⟨0, 32, .rw, 0⟩]⟩
  -- 07_power_and_heat R301
  | .PWR_LIFE_N20 => ⟨0x200200, [], [⟨0, 32, .ro, 0⟩]⟩
  -- 07_power_and_heat R301
  | .PWR_LIFE_N40 => ⟨0x200204, [], [⟨0, 32, .ro, 0⟩]⟩
  -- 07_power_and_heat R301
  | .PWR_LIFE_N60 => ⟨0x200208, [], [⟨0, 32, .ro, 0⟩]⟩
  -- 07_power_and_heat R302
  | .PWR_LIFE_DAMAGE => ⟨0x20020C, [], [⟨0, 32, .ro, 0⟩]⟩
  -- 07_power_and_heat R449
  | .PWR_REGION => ⟨0x200400, [(0x80, 8), (0x4, 32)], [⟨0, 32, .ro, 0⟩]⟩
  -- 09_reset_and_bringup R363
  | .RST_QS_MISS => ⟨0x100048, [], [⟨0, 32, .ro, 0⟩]⟩
  -- 09_reset_and_bringup R361
  | .RST_QS_SRC_BASE => ⟨0x10004C, [], [⟨0, 30, .rw, 0⟩]⟩
  -- 09_reset_and_bringup R357
  | .PART_TOP_COREg => ⟨0x1010200, [(0x100000, 8), (0x4, 48)], [⟨31, 1, .ro, 0⟩, ⟨30, 1, .ro, 0⟩, ⟨29, 1, .ro, 0⟩, ⟨0, 6, .ro, 0⟩]⟩
  -- 09_reset_and_bringup R355
  | .PART_TOP_FUSE_ARR => ⟨0x1010304, [(0x100000, 8)], [⟨0, 26, .ro, 0⟩]⟩
  -- 09_reset_and_bringup R355
  | .PART_TOP_BAD_CORE_LO => ⟨0x1010308, [(0x100000, 8)], [⟨0, 32, .ro, 0⟩]⟩
  -- 09_reset_and_bringup R355
  | .PART_TOP_BAD_CORE_HI => ⟨0x101030C, [(0x100000, 8)], [⟨0, 20, .ro, 0⟩]⟩
  -- 09_reset_and_bringup R355
  | .PART_TOP_BAD_STR => ⟨0x1010310, [(0x100000, 8)], [⟨0, 16, .ro, 0⟩]⟩
  -- 02_array_execution R92
  | .PART_BRM_RPT => ⟨0x1099000, [(0x100000, 8), (0x4, 721)], [⟨0, 32, .ro, 0⟩]⟩
  -- 11_management_and_firmware R433
  | .EVT_FIRST_SEQ => ⟨0x400004, [], [⟨0, 32, .ro, 0⟩]⟩
  -- 11_management_and_firmware R433
  | .EVT_LAST_SEQ => ⟨0x400008, [], [⟨0, 32, .ro, 0⟩]⟩
  -- 11_management_and_firmware R432
  | .EVT_CLEARS => ⟨0x40000C, [], [⟨0, 16, .ro, 0⟩]⟩
  -- 11_management_and_firmware R430
  | .EVT_FULL_DROP => ⟨0x400010, [], [⟨0, 32, .ro, 0⟩]⟩
  -- 11_management_and_firmware R429
  | .EVT_STAGE_DROP => ⟨0x400014, [], [⟨0, 32, .ro, 0⟩]⟩
  -- 11_management_and_firmware R428
  | .EVT_CODE_DROP => ⟨0x400038, [], [⟨0, 32, .ro, 0⟩]⟩
  -- 11_management_and_firmware R416
  | .UPD_VER_RUN => ⟨0x3000008, [], [⟨0, 32, .ro, 0⟩]⟩
  -- 11_management_and_firmware R416
  | .UPD_VER_NEW => ⟨0x300000C, [], [⟨0, 32, .ro, 0⟩]⟩
  -- 11_management_and_firmware R415
  | .UPD_SVN => ⟨0x3000010, [], [⟨16, 16, .ro, 0⟩, ⟨0, 7, .ro, 0⟩]⟩
  -- 11_management_and_firmware R421
  | .UPD_CONFIRM => ⟨0x3000014, [], [⟨0, 32, .ro, 0⟩]⟩
  -- 04_memory_tiers R164
  | .MEM_ERRLOG => ⟨0x802000, [(0x10, 64), (0x4, 4)], [⟨0, 32, .ro, 0⟩]⟩
  -- 05_plans_and_host_rings R172
  | .HIF_MSIX => ⟨0x8000, [(0x10, 512), (0x4, 4)], [⟨0, 32, .rw, 0⟩]⟩
  -- 05_plans_and_host_rings R172
  | .HIF_PBA => ⟨0xA000, [(0x4, 16)], [⟨0, 32, .ro, 0⟩]⟩

/-- Register kinds, part 0. -/
def regKinds0 : List RegKind :=
  [.PART_ARR_EXC, .PART_ARR_RESCNT, .PART_Q_CFG, .PART_Q_ENDS, .PART_Q_OCC, .PART_Q_CREDIT, .PART_ARR_STAT, .PART_STR_STAT, .PART_BRM_CTL, .PART_BRM_STAT, .PART_ENG_RST, .PART_ENG_RST_STAT, .PART_CORE_STAT, .PART_CORE_IPENDm, .PART_CORE_IMASKm, .PART_CORE_ISTATm, .PART_CORE_MBOXn, .PART_CORE_MISC, .MEM_STAT, .MEM_BAR4_WINw, .MEM_SCRUB_STATt, .MEM_CE_T0_c, .MEM_T1_RECAL_c, .MEM_LM_THR]

/-- Register kinds, part 1. -/
def regKinds1 : List RegKind :=
  [.MEM_ERRLOG_STAT, .MEM_VLT_STAT, .MEM_VLT_BUDGET, .MEM_VLT_FUSE, .HIF_CTL, .HIF_EG_STAT, .HIF_EG_LEVEL, .HIF_RING_CFGn, .HIF_RING_IRQn, .HIF_RING_STATn, .HIF_RING_POSn, .HIF_CTX_STATc, .FZ_PORT_CTL, .FZ_PORT_STAT, .FZ_PORT_MAP, .FZ_PORT_FAR, .FZ_PORT_CNTk, .FZ_PORT_BER, .FZ_PORT_ASYM, .FZ_SELF, .FZ_RT_CFG, .FZ_BANK_CTL, .FZ_BANK_STAT, .FZ_DIR_WIN]

/-- Register kinds, part 2. -/
def regKinds2 : List RegKind :=
  [.FZ_MEMBER, .FZ_TIME_CFG, .FZ_TIME_STAT, .FZ_VERIFY_CFG, .FZ_DROPk, .FZ_STREAMp, .PWR_STAT, .PWR_CLIP, .PWR_CLIP_IN, .PWR_CLIP_DER, .PWR_INPUT, .PWR_OP, .PWR_COOL, .PWR_RTH, .PWR_EST, .PWR_DROOPd, .PWR_OPVk, .PWR_HSd_h, .RST_STRAP, .RST_LADDER, .RST_PIN_STAT, .RST_FAULT, .RST_LASTOFF, .RST_REFCLK]

/-- Register kinds, part 3. -/
def regKinds3 : List RegKind :=
  [.HIF_BOOT_STATUS, .RST_REQ, .RST_CFG, .RST_CAUSE, .RST_PART_AVAIL, .RST_QS_SRC_CTL, .RST_QS_STAT, .PART_TOP_STAT, .PART_TOP_ARRn, .PART_TOP_BAD_ARR, .GRD_STAT, .GRD_CHc, .GRD_THRk, .RST_ESC_CFG, .RST_ESC_STAT, .RST_ESC_LAST, .RST_LEASE, .RST_WOR_STATp, .RST_SEC, .EVT_STATUS, .EVT_WIN, .EVT_CODE_SEL, .EVT_CODE_CFG, .UPD_CTL]

/-- Register kinds, part 4. -/
def regKinds4 : List RegKind :=
  [.UPD_STAT, .RST_PART_ID, .RST_SERIAL_LO, .RST_SERIAL_HI, .HIF_RING_SQB_LOn, .HIF_RING_SQB_HIn, .HIF_RING_CQB_LOn, .HIF_RING_CQB_HIn, .MEM_CE_T1_c, .MEM_CE_SR_p, .MEM_VLT_WRITTEN_LO, .MEM_VLT_WRITTEN_HI, .FZ_BANK_CSUM, .FZ_LAY_TIME_LO, .FZ_LAY_TIME_HI, .FZ_TIME_LO, .FZ_TIME_HI, .FZ_TIME_SET_LO, .FZ_TIME_SET_HI, .PWR_LIFE_N20, .PWR_LIFE_N40, .PWR_LIFE_N60, .PWR_LIFE_DAMAGE, .PWR_REGION]

/-- Register kinds, part 5. -/
def regKinds5 : List RegKind :=
  [.RST_QS_MISS, .RST_QS_SRC_BASE, .PART_TOP_COREg, .PART_TOP_FUSE_ARR, .PART_TOP_BAD_CORE_LO, .PART_TOP_BAD_CORE_HI, .PART_TOP_BAD_STR, .PART_BRM_RPT, .EVT_FIRST_SEQ, .EVT_LAST_SEQ, .EVT_CLEARS, .EVT_FULL_DROP, .EVT_STAGE_DROP, .EVT_CODE_DROP, .UPD_VER_RUN, .UPD_VER_NEW, .UPD_SVN, .UPD_CONFIRM, .MEM_ERRLOG, .HIF_MSIX, .HIF_PBA]

/-- Every register kind. -/
def regKinds : List RegKind := regKinds0 ++ regKinds1 ++ regKinds2 ++ regKinds3 ++ regKinds4 ++ regKinds5

/-- Offset of an index vector. -/
def dimOff : List (Nat × Nat) → List Nat → Nat
  | (st, _) :: ds, i :: is => st * i + dimOff ds is
  | _, _ => 0

/-- BAR0 offset of the register of kind `k` and indices `ix` (R441). -/
def regOff (k : RegKind) (ix : List Nat) : Nat := (regRow k).base + dimOff (regRow k).dims ix

/-- An index vector as one number; an index past its count counts modulo that (no command of a well-formed term has one). -/
def dimFlat : List (Nat × Nat) → List Nat → Nat
  | (_, n) :: ds, i :: is => i % n + n * dimFlat ds is
  | _, _ => 0

/-- The index vector of a number. -/
def dimUnflat : List (Nat × Nat) → Nat → List Nat
  | [], _ => []
  | (_, n) :: ds, x => x % n :: dimUnflat ds (x / n)

/-- Key of a register in State's table: its kind in the low eight bits, its indices above. -/
def regKey (k : RegKind) (ix : List Nat) : Nat := k.ctorIdx + 256 * dimFlat (regRow k).dims ix

/-- Kind and indices of a key. -/
def keyKind (x : Nat) : RegKind := RegKind.ofNat (x % 256)
def keyIx (x : Nat) : List Nat := dimUnflat (regRow (keyKind x)).dims (x / 256)

/-- Indices are in range. -/
def dimOk : List (Nat × Nat) → List Nat → Bool
  | [], [] => true
  | (_, n) :: ds, i :: is => decide (i < n) && dimOk ds is
  | _, _ => false

/-- Indices of an offset within a register array. -/
def dimAt : List (Nat × Nat) → Nat → Option (List Nat)
  | [], 0 => some []
  | [], _ + 1 => none
  | (st, n) :: ds, o => if o / st < n then (dimAt ds (o % st)).map (o / st :: ·) else none

/-- The register at a BAR0 offset, among the kinds listed. -/
def regFind : List RegKind → Nat → Option (RegKind × List Nat)
  | [], _ => none
  | k :: ks, o =>
    if (regRow k).base ≤ o then
      match dimAt (regRow k).dims (o - (regRow k).base) with
      | some ix => some (k, ix)
      | none => regFind ks o
    else regFind ks o

/-- The register at a BAR0 offset (R441). -/
def regAt (o : Nat) : Option (RegKind × List Nat) := regFind regKinds o

/-- A word made of the fields' reset values. -/
def resetFlds : List FldRow → Nat
  | [] => 0
  | f :: fs => f.reset * 2 ^ f.lo + resetFlds fs

/-- Reset word of a register (R10). MEM_BAR4_WINw.BASE is w x 4 (R163); the mask bit of an MSI-X vector control word is 1 (log entry 13). -/
def resetWord (k : RegKind) (ix : List Nat) : Nat :=
  match k with
  | .MEM_BAR4_WINw => 4 * (ix.headD 0 % 4)
  | .HIF_MSIX => if ix.getD 1 0 % 4 = 3 then 1 else 0
  | k => resetFlds (regRow k).flds

/-- Bits that some field occupies; every other bit is RSV and reads 0 (R9). -/
def maskFlds : List FldRow → Nat
  | [] => 0
  | f :: fs => (2 ^ f.w - 1) * 2 ^ f.lo + maskFlds fs

/-- Implemented bits of a register. -/
def regMask (k : RegKind) : Nat := maskFlds (regRow k).flds

/-- A field of a register. -/
structure Fld where
  k : RegKind
  ix : List Nat
  lo : Nat
  w : Nat
  deriving DecidableEq, Repr

namespace R

/-- [31:31] RW1C, R58 -/
abbrev PART_ARR_EXC.RES_FAIL (p n : Nat) : Fld := ⟨.PART_ARR_EXC, [p, n], 31, 1⟩
/-- [30:30] RW1C, R58 -/
abbrev PART_ARR_EXC.CB_HDR (p n : Nat) : Fld := ⟨.PART_ARR_EXC, [p, n], 30, 1⟩
/-- [6:6] RW1C, R58 -/
abbrev PART_ARR_EXC.NAN_BLOCK (p n : Nat) : Fld := ⟨.PART_ARR_EXC, [p, n], 6, 1⟩
/-- [5:5] RW1C, R58 -/
abbrev PART_ARR_EXC.NAN_OUT (p n : Nat) : Fld := ⟨.PART_ARR_EXC, [p, n], 5, 1⟩
/-- [4:4] RW1C, R58 -/
abbrev PART_ARR_EXC.INF_SAT (p n : Nat) : Fld := ⟨.PART_ARR_EXC, [p, n], 4, 1⟩
/-- [3:3] RW1C, R58 -/
abbrev PART_ARR_EXC.SAT (p n : Nat) : Fld := ⟨.PART_ARR_EXC, [p, n], 3, 1⟩
/-- [2:2] RW1C, R58 -/
abbrev PART_ARR_EXC.CLAMP (p n : Nat) : Fld := ⟨.PART_ARR_EXC, [p, n], 2, 1⟩
/-- [1:1] RW1C, R58 -/
abbrev PART_ARR_EXC.INEXACT_LOW (p n : Nat) : Fld := ⟨.PART_ARR_EXC, [p, n], 1, 1⟩
/-- [0:0] RW1C, R58 -/
abbrev PART_ARR_EXC.SPECIAL_IN (p n : Nat) : Fld := ⟨.PART_ARR_EXC, [p, n], 0, 1⟩
/-- [15:0] RO, R58 -/
abbrev PART_ARR_RESCNT.COUNT (p n : Nat) : Fld := ⟨.PART_ARR_RESCNT, [p, n], 0, 16⟩
/-- [31:31] RO, R451 -/
abbrev PART_Q_CFG.VALID (p q : Nat) : Fld := ⟨.PART_Q_CFG, [p, q], 31, 1⟩
/-- [30:30] RO, R451 -/
abbrev PART_Q_CFG.REMOTE (p q : Nat) : Fld := ⟨.PART_Q_CFG, [p, q], 30, 1⟩
/-- [26:22] RO, R451 -/
abbrev PART_Q_CFG.DEPTH_LOG2 (p q : Nat) : Fld := ⟨.PART_Q_CFG, [p, q], 22, 5⟩
/-- [17:0] RO, R451 -/
abbrev PART_Q_CFG.BASE (p q : Nat) : Fld := ⟨.PART_Q_CFG, [p, q], 0, 18⟩
/-- [31:16] RO, R451 -/
abbrev PART_Q_ENDS.PROD (p q : Nat) : Fld := ⟨.PART_Q_ENDS, [p, q], 16, 16⟩
/-- [15:0] RO, R451 -/
abbrev PART_Q_ENDS.CONS (p q : Nat) : Fld := ⟨.PART_Q_ENDS, [p, q], 0, 16⟩
/-- [31:31] RW1C, R451 -/
abbrev PART_Q_OCC.LEFTOVER (p q : Nat) : Fld := ⟨.PART_Q_OCC, [p, q], 31, 1⟩
/-- [30:30] RO, R451 -/
abbrev PART_Q_OCC.WAIT_C (p q : Nat) : Fld := ⟨.PART_Q_OCC, [p, q], 30, 1⟩
/-- [16:0] RO, R451 -/
abbrev PART_Q_OCC.OCC (p q : Nat) : Fld := ⟨.PART_Q_OCC, [p, q], 0, 17⟩
/-- [31:31] RO, R451 -/
abbrev PART_Q_CREDIT.WAIT_P (p q : Nat) : Fld := ⟨.PART_Q_CREDIT, [p, q], 31, 1⟩
/-- [16:0] RO, R451 -/
abbrev PART_Q_CREDIT.CREDIT (p q : Nat) : Fld := ⟨.PART_Q_CREDIT, [p, q], 0, 17⟩
/-- [31:31] RW1C, R77 -/
abbrev PART_ARR_STAT.ILLEGAL (p n : Nat) : Fld := ⟨.PART_ARR_STAT, [p, n], 31, 1⟩
/-- [30:30] RW1C, R77 -/
abbrev PART_ARR_STAT.SHADOW_MIS (p n : Nat) : Fld := ⟨.PART_ARR_STAT, [p, n], 30, 1⟩
/-- [29:29] RW1C, R77 -/
abbrev PART_ARR_STAT.DATA_LOSS (p n : Nat) : Fld := ⟨.PART_ARR_STAT, [p, n], 29, 1⟩
/-- [23:20] RO, R77 -/
abbrev PART_ARR_STAT.STATE (p n : Nat) : Fld := ⟨.PART_ARR_STAT, [p, n], 20, 4⟩
/-- [19:18] RO, R77 -/
abbrev PART_ARR_STAT.PAIR (p n : Nat) : Fld := ⟨.PART_ARR_STAT, [p, n], 18, 2⟩
/-- [11:0] RO, R77 -/
abbrev PART_ARR_STAT.PC (p n : Nat) : Fld := ⟨.PART_ARR_STAT, [p, n], 0, 12⟩
/-- [31:31] RW1C, R86 -/
abbrev PART_STR_STAT.ILLEGAL (p s : Nat) : Fld := ⟨.PART_STR_STAT, [p, s], 31, 1⟩
/-- [30:30] RW1C, R86 -/
abbrev PART_STR_STAT.IDX_OVF (p s : Nat) : Fld := ⟨.PART_STR_STAT, [p, s], 30, 1⟩
/-- [29:29] RW1C, R86 -/
abbrev PART_STR_STAT.IDX_RANGE (p s : Nat) : Fld := ⟨.PART_STR_STAT, [p, s], 29, 1⟩
/-- [28:28] RW1C, R86 -/
abbrev PART_STR_STAT.MEM_ERR (p s : Nat) : Fld := ⟨.PART_STR_STAT, [p, s], 28, 1⟩
/-- [23:20] RO, R86 -/
abbrev PART_STR_STAT.STATE (p s : Nat) : Fld := ⟨.PART_STR_STAT, [p, s], 20, 4⟩
/-- [15:0] RO, R86 -/
abbrev PART_STR_STAT.DESC (p s : Nat) : Fld := ⟨.PART_STR_STAT, [p, s], 0, 16⟩
/-- [31:31] RW, R92 -/
abbrev PART_BRM_CTL.EN (p : Nat) : Fld := ⟨.PART_BRM_CTL, [p], 31, 1⟩
/-- [15:0] RW, R92 -/
abbrev PART_BRM_CTL.T (p : Nat) : Fld := ⟨.PART_BRM_CTL, [p], 0, 16⟩
/-- [31:31] RW1C, R92 -/
abbrev PART_BRM_STAT.CYCLE (p : Nat) : Fld := ⟨.PART_BRM_STAT, [p], 31, 1⟩
/-- [30:30] RW1C, R92 -/
abbrev PART_BRM_STAT.LOST (p : Nat) : Fld := ⟨.PART_BRM_STAT, [p], 30, 1⟩
/-- [9:0] RO, R92 -/
abbrev PART_BRM_STAT.LEN (p : Nat) : Fld := ⟨.PART_BRM_STAT, [p], 0, 10⟩
/-- [31:31] WO, R95 -/
abbrev PART_ENG_RST.GO (p : Nat) : Fld := ⟨.PART_ENG_RST, [p], 31, 1⟩
/-- [15:0] WO, R95 -/
abbrev PART_ENG_RST.UNIT (p : Nat) : Fld := ⟨.PART_ENG_RST, [p], 0, 16⟩
/-- [31:31] RO, R95 -/
abbrev PART_ENG_RST_STAT.BUSY (p : Nat) : Fld := ⟨.PART_ENG_RST_STAT, [p], 31, 1⟩
/-- [30:30] RW1C, R95 -/
abbrev PART_ENG_RST_STAT.FORCED (p : Nat) : Fld := ⟨.PART_ENG_RST_STAT, [p], 30, 1⟩
/-- [29:29] RW1C, R95 -/
abbrev PART_ENG_RST_STAT.DONE (p : Nat) : Fld := ⟨.PART_ENG_RST_STAT, [p], 29, 1⟩
/-- [15:0] RO, R95 -/
abbrev PART_ENG_RST_STAT.UNIT (p : Nat) : Fld := ⟨.PART_ENG_RST_STAT, [p], 0, 16⟩
/-- [31:31] RW1C, R122 -/
abbrev PART_CORE_STAT.RES_FAIL (p g : Nat) : Fld := ⟨.PART_CORE_STAT, [p, g], 31, 1⟩
/-- [30:30] RW1C, R122 -/
abbrev PART_CORE_STAT.PARITY (p g : Nat) : Fld := ⟨.PART_CORE_STAT, [p, g], 30, 1⟩
/-- [29:29] RW1C, R122 -/
abbrev PART_CORE_STAT.ILLEGAL (p g : Nat) : Fld := ⟨.PART_CORE_STAT, [p, g], 29, 1⟩
/-- [28:28] RW1C, R122 -/
abbrev PART_CORE_STAT.DATA_LOSS (p g : Nat) : Fld := ⟨.PART_CORE_STAT, [p, g], 28, 1⟩
/-- [27:24] RO, R122 -/
abbrev PART_CORE_STAT.STATE (p g : Nat) : Fld := ⟨.PART_CORE_STAT, [p, g], 24, 4⟩
/-- [23:23] RO, R122 -/
abbrev PART_CORE_STAT.INH (p g : Nat) : Fld := ⟨.PART_CORE_STAT, [p, g], 23, 1⟩
/-- [22:16] RO, R122 -/
abbrev PART_CORE_STAT.ICAUSE (p g : Nat) : Fld := ⟨.PART_CORE_STAT, [p, g], 16, 7⟩
/-- [15:0] RO, R122 -/
abbrev PART_CORE_STAT.PC (p g : Nat) : Fld := ⟨.PART_CORE_STAT, [p, g], 0, 16⟩
/-- [31:0] RW, R122 -/
abbrev PART_CORE_IPENDm.PEND (p g m : Nat) : Fld := ⟨.PART_CORE_IPENDm, [p, g, m], 0, 32⟩
/-- [31:0] RW, R122 -/
abbrev PART_CORE_IMASKm.MASK (p g m : Nat) : Fld := ⟨.PART_CORE_IMASKm, [p, g, m], 0, 32⟩
/-- [31:0] RO, R122 -/
abbrev PART_CORE_ISTATm.STAT (p g m : Nat) : Fld := ⟨.PART_CORE_ISTATm, [p, g, m], 0, 32⟩
/-- [31:0] RW, R122 -/
abbrev PART_CORE_MBOXn.VALUE (p g n : Nat) : Fld := ⟨.PART_CORE_MBOXn, [p, g, n], 0, 32⟩
/-- [31:31] RW1C, R122 -/
abbrev PART_CORE_MISC.MBOX_OVR (p g : Nat) : Fld := ⟨.PART_CORE_MISC, [p, g], 31, 1⟩
/-- [15:0] RO, R122 -/
abbrev PART_CORE_MISC.LMCE (p g : Nat) : Fld := ⟨.PART_CORE_MISC, [p, g], 0, 16⟩
/-- [31:31] RW1C, R163 -/
abbrev MEM_STAT.T1_CH_FAIL : Fld := ⟨.MEM_STAT, [], 31, 1⟩
/-- [30:30] RW1C, R163 -/
abbrev MEM_STAT.BAR4_UE : Fld := ⟨.MEM_STAT, [], 30, 1⟩
/-- [29:29] RW1C, R163 -/
abbrev MEM_STAT.BAR4_MISS : Fld := ⟨.MEM_STAT, [], 29, 1⟩
/-- [28:28] RW1C, R163 -/
abbrev MEM_STAT.LOG_OVF : Fld := ⟨.MEM_STAT, [], 28, 1⟩
/-- [31:31] RW, R163 -/
abbrev MEM_BAR4_WINw.EN (w : Nat) : Fld := ⟨.MEM_BAR4_WINw, [w], 31, 1⟩
/-- [21:0] RW, R163 -/
abbrev MEM_BAR4_WINw.BASE (w : Nat) : Fld := ⟨.MEM_BAR4_WINw, [w], 0, 22⟩
/-- [31:31] RW1C, R163 -/
abbrev MEM_SCRUB_STATt.LATE (t : Nat) : Fld := ⟨.MEM_SCRUB_STATt, [t], 31, 1⟩
/-- [30:30] RW1C, R163 -/
abbrev MEM_SCRUB_STATt.UE_SEEN (t : Nat) : Fld := ⟨.MEM_SCRUB_STATt, [t], 30, 1⟩
/-- [19:10] RO, R163 -/
abbrev MEM_SCRUB_STATt.LAST_MIN (t : Nat) : Fld := ⟨.MEM_SCRUB_STATt, [t], 10, 10⟩
/-- [9:0] RO, R163 -/
abbrev MEM_SCRUB_STATt.PASSES (t : Nat) : Fld := ⟨.MEM_SCRUB_STATt, [t], 0, 10⟩
/-- [31:31] RW1C, R163 -/
abbrev MEM_CE_T0_c.HOT (c : Nat) : Fld := ⟨.MEM_CE_T0_c, [c], 31, 1⟩
/-- [15:0] RO, R163 -/
abbrev MEM_CE_T0_c.COUNT (c : Nat) : Fld := ⟨.MEM_CE_T0_c, [c], 0, 16⟩
/-- [31:31] RO, R163 -/
abbrev MEM_T1_RECAL_c.FAILED (c : Nat) : Fld := ⟨.MEM_T1_RECAL_c, [c], 31, 1⟩
/-- [30:28] RO, R163 -/
abbrev MEM_T1_RECAL_c.RETRY (c : Nat) : Fld := ⟨.MEM_T1_RECAL_c, [c], 28, 3⟩
/-- [15:0] RO, R163 -/
abbrev MEM_T1_RECAL_c.RETUNES (c : Nat) : Fld := ⟨.MEM_T1_RECAL_c, [c], 0, 16⟩
/-- [15:0] RW, R163 -/
abbrev MEM_LM_THR.THR : Fld := ⟨.MEM_LM_THR, [], 0, 16⟩
/-- [31:24] RO, R163 -/
abbrev MEM_ERRLOG_STAT.LAST_SEQ : Fld := ⟨.MEM_ERRLOG_STAT, [], 24, 8⟩
/-- [21:16] RO, R163 -/
abbrev MEM_ERRLOG_STAT.NEXT : Fld := ⟨.MEM_ERRLOG_STAT, [], 16, 6⟩
/-- [15:0] RW1C, R163 -/
abbrev MEM_ERRLOG_STAT.DROPPED : Fld := ⟨.MEM_ERRLOG_STAT, [], 0, 16⟩
/-- [31:31] RW1C, R164 -/
abbrev MEM_VLT_STAT.WEAR_REFUSED : Fld := ⟨.MEM_VLT_STAT, [], 31, 1⟩
/-- [30:30] RW1C, R164 -/
abbrev MEM_VLT_STAT.REGION_REFUSED : Fld := ⟨.MEM_VLT_STAT, [], 30, 1⟩
/-- [29:29] RW1C, R164 -/
abbrev MEM_VLT_STAT.READ_FAIL : Fld := ⟨.MEM_VLT_STAT, [], 29, 1⟩
/-- [28:28] RO, R164 -/
abbrev MEM_VLT_STAT.HOLDUP_DONE : Fld := ⟨.MEM_VLT_STAT, [], 28, 1⟩
/-- [27:27] RO, R164 -/
abbrev MEM_VLT_STAT.ACTIVE_SLOT : Fld := ⟨.MEM_VLT_STAT, [], 27, 1⟩
/-- [15:0] RO, R164 -/
abbrev MEM_VLT_STAT.EVT_REFUSED : Fld := ⟨.MEM_VLT_STAT, [], 0, 16⟩
/-- [28:0] RO, R164 -/
abbrev MEM_VLT_BUDGET.UNITS : Fld := ⟨.MEM_VLT_BUDGET, [], 0, 29⟩
/-- [31:22] RO, R164 -/
abbrev MEM_VLT_FUSE.REFILL : Fld := ⟨.MEM_VLT_FUSE, [], 22, 10⟩
/-- [21:0] RO, R164 -/
abbrev MEM_VLT_FUSE.RESERVE_K : Fld := ⟨.MEM_VLT_FUSE, [], 0, 22⟩
/-- [31:31] RW, R204 -/
abbrev HIF_CTL.SERVE : Fld := ⟨.HIF_CTL, [], 31, 1⟩
/-- [30:30] RW, R204 -/
abbrev HIF_CTL.GATE_STOP : Fld := ⟨.HIF_CTL, [], 30, 1⟩
/-- [29:29] RW, R204 -/
abbrev HIF_CTL.ALERT_EN : Fld := ⟨.HIF_CTL, [], 29, 1⟩
/-- [8:0] RW, R204 -/
abbrev HIF_CTL.ALERT_VEC : Fld := ⟨.HIF_CTL, [], 0, 9⟩
/-- [31:31] RO, R204 -/
abbrev HIF_EG_STAT.OPEN : Fld := ⟨.HIF_EG_STAT, [], 31, 1⟩
/-- [30:30] RO, R204 -/
abbrev HIF_EG_STAT.HOLD : Fld := ⟨.HIF_EG_STAT, [], 30, 1⟩
/-- [29:29] RO, R204 -/
abbrev HIF_EG_STAT.CLIP_LAG : Fld := ⟨.HIF_EG_STAT, [], 29, 1⟩
/-- [28:28] RO, R204 -/
abbrev HIF_EG_STAT.NOT_SERVING : Fld := ⟨.HIF_EG_STAT, [], 28, 1⟩
/-- [16:0] RO, R204 -/
abbrev HIF_EG_STAT.QUEUED : Fld := ⟨.HIF_EG_STAT, [], 0, 17⟩
/-- [31:0] RO, R204 -/
abbrev HIF_EG_LEVEL.LEVEL_MJ : Fld := ⟨.HIF_EG_LEVEL, [], 0, 32⟩
/-- [31:31] RW, R204 -/
abbrev HIF_RING_CFGn.EN (n : Nat) : Fld := ⟨.HIF_RING_CFGn, [n], 31, 1⟩
/-- [29:25] RW, R204 -/
abbrev HIF_RING_CFGn.SQ_LOG2 (n : Nat) : Fld := ⟨.HIF_RING_CFGn, [n], 25, 5⟩
/-- [24:20] RW, R204 -/
abbrev HIF_RING_CFGn.CQ_LOG2 (n : Nat) : Fld := ⟨.HIF_RING_CFGn, [n], 20, 5⟩
/-- [8:0] RW, R204 -/
abbrev HIF_RING_CFGn.VEC (n : Nat) : Fld := ⟨.HIF_RING_CFGn, [n], 0, 9⟩
/-- [31:31] RW, R204 -/
abbrev HIF_RING_IRQn.CE (n : Nat) : Fld := ⟨.HIF_RING_IRQn, [n], 31, 1⟩
/-- [23:16] RW, R204 -/
abbrev HIF_RING_IRQn.CNT (n : Nat) : Fld := ⟨.HIF_RING_IRQn, [n], 16, 8⟩
/-- [15:0] RW, R204 -/
abbrev HIF_RING_IRQn.TIME (n : Nat) : Fld := ⟨.HIF_RING_IRQn, [n], 0, 16⟩
/-- [31:31] RW1C, R204 -/
abbrev HIF_RING_STATn.ERR (n : Nat) : Fld := ⟨.HIF_RING_STATn, [n], 31, 1⟩
/-- [30:30] RO, R204 -/
abbrev HIF_RING_STATn.ACTIVE (n : Nat) : Fld := ⟨.HIF_RING_STATn, [n], 30, 1⟩
/-- [29:27] RO, R204 -/
abbrev HIF_RING_STATn.ERR_CODE (n : Nat) : Fld := ⟨.HIF_RING_STATn, [n], 27, 3⟩
/-- [16:0] RO, R204 -/
abbrev HIF_RING_STATn.OUTSTANDING (n : Nat) : Fld := ⟨.HIF_RING_STATn, [n], 0, 17⟩
/-- [31:16] RO, R204 -/
abbrev HIF_RING_POSn.CQ_TAIL (n : Nat) : Fld := ⟨.HIF_RING_POSn, [n], 16, 16⟩
/-- [15:0] RO, R204 -/
abbrev HIF_RING_POSn.SQ_HEAD (n : Nat) : Fld := ⟨.HIF_RING_POSn, [n], 0, 16⟩
/-- [31:29] RO, R204 -/
abbrev HIF_CTX_STATc.STATE (c : Nat) : Fld := ⟨.HIF_CTX_STATc, [c], 29, 3⟩
/-- [28:28] RO, R204 -/
abbrev HIF_CTX_STATc.LOST (c : Nat) : Fld := ⟨.HIF_CTX_STATc, [c], 28, 1⟩
/-- [27:22] RO, R204 -/
abbrev HIF_CTX_STATc.PLAN_CTX (c : Nat) : Fld := ⟨.HIF_CTX_STATc, [c], 22, 6⟩
/-- [21:20] RO, R204 -/
abbrev HIF_CTX_STATc.PREF_MODE (c : Nat) : Fld := ⟨.HIF_CTX_STATc, [c], 20, 2⟩
/-- [19:17] RO, R204 -/
abbrev HIF_CTX_STATc.PREF_OP (c : Nat) : Fld := ⟨.HIF_CTX_STATc, [c], 17, 3⟩
/-- [15:0] RO, R204 -/
abbrev HIF_CTX_STATc.PHNUM (c : Nat) : Fld := ⟨.HIF_CTX_STATc, [c], 0, 16⟩
/-- [31:31] RW, R257 -/
abbrev FZ_PORT_CTL.EN (n : Nat) : Fld := ⟨.FZ_PORT_CTL, [n], 31, 1⟩
/-- [30:30] RW, R257 -/
abbrev FZ_PORT_CTL.FORCE_HOLD (n : Nat) : Fld := ⟨.FZ_PORT_CTL, [n], 30, 1⟩
/-- [29:29] WO, R257 -/
abbrev FZ_PORT_CTL.BER_NOW (n : Nat) : Fld := ⟨.FZ_PORT_CTL, [n], 29, 1⟩
/-- [31:28] RO, R257 -/
abbrev FZ_PORT_STAT.STATE (n : Nat) : Fld := ⟨.FZ_PORT_STAT, [n], 28, 4⟩
/-- [27:24] RO, R257 -/
abbrev FZ_PORT_STAT.REASON (n : Nat) : Fld := ⟨.FZ_PORT_STAT, [n], 24, 4⟩
/-- [23:23] RO, R257 -/
abbrev FZ_PORT_STAT.SUBST (n : Nat) : Fld := ⟨.FZ_PORT_STAT, [n], 23, 1⟩
/-- [21:16] RO, R257 -/
abbrev FZ_PORT_STAT.FOR (n : Nat) : Fld := ⟨.FZ_PORT_STAT, [n], 16, 6⟩
/-- [15:0] RO, R257 -/
abbrev FZ_PORT_STAT.DOWNS (n : Nat) : Fld := ⟨.FZ_PORT_STAT, [n], 0, 16⟩
/-- [31:31] RW, R257 -/
abbrev FZ_PORT_MAP.USED (n : Nat) : Fld := ⟨.FZ_PORT_MAP, [n], 31, 1⟩
/-- [30:30] RW, R257 -/
abbrev FZ_PORT_MAP.SUBST (n : Nat) : Fld := ⟨.FZ_PORT_MAP, [n], 30, 1⟩
/-- [29:24] RW, R257 -/
abbrev FZ_PORT_MAP.FAR_PORT (n : Nat) : Fld := ⟨.FZ_PORT_MAP, [n], 24, 6⟩
/-- [18:0] RW, R257 -/
abbrev FZ_PORT_MAP.FAR_LOC (n : Nat) : Fld := ⟨.FZ_PORT_MAP, [n], 0, 19⟩
/-- [31:31] RO, R257 -/
abbrev FZ_PORT_FAR.VALID (n : Nat) : Fld := ⟨.FZ_PORT_FAR, [n], 31, 1⟩
/-- [29:24] RO, R257 -/
abbrev FZ_PORT_FAR.PORT (n : Nat) : Fld := ⟨.FZ_PORT_FAR, [n], 24, 6⟩
/-- [18:0] RO, R257 -/
abbrev FZ_PORT_FAR.LOC (n : Nat) : Fld := ⟨.FZ_PORT_FAR, [n], 0, 19⟩
/-- [31:0] RO, R257 -/
abbrev FZ_PORT_CNTk.COUNT (n k : Nat) : Fld := ⟨.FZ_PORT_CNTk, [n, k], 0, 32⟩
/-- [31:31] RO, R257 -/
abbrev FZ_PORT_BER.DONE (n : Nat) : Fld := ⟨.FZ_PORT_BER, [n], 31, 1⟩
/-- [30:30] RO, R257 -/
abbrev FZ_PORT_BER.PASS (n : Nat) : Fld := ⟨.FZ_PORT_BER, [n], 30, 1⟩
/-- [29:0] RO, R257 -/
abbrev FZ_PORT_BER.ERRORS (n : Nat) : Fld := ⟨.FZ_PORT_BER, [n], 0, 30⟩
/-- [15:0] RW, R257 -/
abbrev FZ_PORT_ASYM.ASYM (n : Nat) : Fld := ⟨.FZ_PORT_ASYM, [n], 0, 16⟩
/-- [31:31] RO, R257 -/
abbrev FZ_SELF.VALID : Fld := ⟨.FZ_SELF, [], 31, 1⟩
/-- [27:20] RO, R257 -/
abbrev FZ_SELF.GEN : Fld := ⟨.FZ_SELF, [], 20, 8⟩
/-- [19:0] RO, R257 -/
abbrev FZ_SELF.FA : Fld := ⟨.FZ_SELF, [], 0, 20⟩
/-- [31:31] RW, R257 -/
abbrev FZ_RT_CFG.NM_EN : Fld := ⟨.FZ_RT_CFG, [], 31, 1⟩
/-- [23:16] RW, R257 -/
abbrev FZ_RT_CFG.NM_BIAS : Fld := ⟨.FZ_RT_CFG, [], 16, 8⟩
/-- [15:0] RW, R257 -/
abbrev FZ_RT_CFG.EPOCH_HOLD_US : Fld := ⟨.FZ_RT_CFG, [], 0, 16⟩
/-- [31:31] WO, R257 -/
abbrev FZ_BANK_CTL.SEAL : Fld := ⟨.FZ_BANK_CTL, [], 31, 1⟩
/-- [30:30] WO, R257 -/
abbrev FZ_BANK_CTL.COPY : Fld := ⟨.FZ_BANK_CTL, [], 30, 1⟩
/-- [29:29] WO, R257 -/
abbrev FZ_BANK_CTL.ARM : Fld := ⟨.FZ_BANK_CTL, [], 29, 1⟩
/-- [28:28] WO, R257 -/
abbrev FZ_BANK_CTL.CANCEL : Fld := ⟨.FZ_BANK_CTL, [], 28, 1⟩
/-- [31:31] RO, R257 -/
abbrev FZ_BANK_STAT.ACTIVE : Fld := ⟨.FZ_BANK_STAT, [], 31, 1⟩
/-- [30:30] RO, R257 -/
abbrev FZ_BANK_STAT.READY : Fld := ⟨.FZ_BANK_STAT, [], 30, 1⟩
/-- [29:29] RO, R257 -/
abbrev FZ_BANK_STAT.HOLD : Fld := ⟨.FZ_BANK_STAT, [], 29, 1⟩
/-- [28:28] RO, R257 -/
abbrev FZ_BANK_STAT.ARMED : Fld := ⟨.FZ_BANK_STAT, [], 28, 1⟩
/-- [27:27] RW1C, R257 -/
abbrev FZ_BANK_STAT.LAY_MISS : Fld := ⟨.FZ_BANK_STAT, [], 27, 1⟩
/-- [26:26] RW1C, R257 -/
abbrev FZ_BANK_STAT.REFUSED : Fld := ⟨.FZ_BANK_STAT, [], 26, 1⟩
/-- [31:31] RW, R257 -/
abbrev FZ_DIR_WIN.RD_ACTIVE : Fld := ⟨.FZ_DIR_WIN, [], 31, 1⟩
/-- [2:0] RW, R257 -/
abbrev FZ_DIR_WIN.SEL : Fld := ⟨.FZ_DIR_WIN, [], 0, 3⟩
/-- [31:31] RO, R257 -/
abbrev FZ_MEMBER.LAPSED : Fld := ⟨.FZ_MEMBER, [], 31, 1⟩
/-- [30:30] RO, R257 -/
abbrev FZ_MEMBER.FENCED : Fld := ⟨.FZ_MEMBER, [], 30, 1⟩
/-- [15:0] RO, R257 -/
abbrev FZ_MEMBER.MS_SINCE : Fld := ⟨.FZ_MEMBER, [], 0, 16⟩
/-- [31:31] RW, R257 -/
abbrev FZ_TIME_CFG.ROOT : Fld := ⟨.FZ_TIME_CFG, [], 31, 1⟩
/-- [30:28] RW, R257 -/
abbrev FZ_TIME_CFG.BACKUP : Fld := ⟨.FZ_TIME_CFG, [], 28, 3⟩
/-- [31:29] RO, R257 -/
abbrev FZ_TIME_STAT.TSTATE : Fld := ⟨.FZ_TIME_STAT, [], 29, 3⟩
/-- [28:28] RW1C, R257 -/
abbrev FZ_TIME_STAT.ROOT_CONFLICT : Fld := ⟨.FZ_TIME_STAT, [], 28, 1⟩
/-- [27:22] RO, R257 -/
abbrev FZ_TIME_STAT.PARENT : Fld := ⟨.FZ_TIME_STAT, [], 22, 6⟩
/-- [21:19] RO, R257 -/
abbrev FZ_TIME_STAT.DIST : Fld := ⟨.FZ_TIME_STAT, [], 19, 3⟩
/-- [15:0] RO, R257 -/
abbrev FZ_TIME_STAT.OFFSET : Fld := ⟨.FZ_TIME_STAT, [], 0, 16⟩
/-- [31:31] RW, R257 -/
abbrev FZ_VERIFY_CFG.IDENT_EN : Fld := ⟨.FZ_VERIFY_CFG, [], 31, 1⟩
/-- [30:30] RW, R257 -/
abbrev FZ_VERIFY_CFG.BER_BOOT : Fld := ⟨.FZ_VERIFY_CFG, [], 30, 1⟩
/-- [23:16] RW, R257 -/
abbrev FZ_VERIFY_CFG.BER_SECONDS : Fld := ⟨.FZ_VERIFY_CFG, [], 16, 8⟩
/-- [15:0] RW, R257 -/
abbrev FZ_VERIFY_CFG.BER_INTERVAL_H : Fld := ⟨.FZ_VERIFY_CFG, [], 0, 16⟩
/-- [31:0] RO, R257 -/
abbrev FZ_DROPk.COUNT (k : Nat) : Fld := ⟨.FZ_DROPk, [k], 0, 32⟩
/-- [31:16] RO, R257 -/
abbrev FZ_STREAMp.BUSY (p : Nat) : Fld := ⟨.FZ_STREAMp, [p], 16, 16⟩
/-- [13:0] RO, R257 -/
abbrev FZ_STREAMp.IN_USE (p : Nat) : Fld := ⟨.FZ_STREAMp, [p], 0, 14⟩
/-- [31:31] RO, R304 -/
abbrev PWR_STAT.HOLD_BROWN : Fld := ⟨.PWR_STAT, [], 31, 1⟩
/-- [30:30] RO, R304 -/
abbrev PWR_STAT.HOLD_OPER : Fld := ⟨.PWR_STAT, [], 30, 1⟩
/-- [29:29] RO, R304 -/
abbrev PWR_STAT.CLIP_LAG : Fld := ⟨.PWR_STAT, [], 29, 1⟩
/-- [28:28] RO, R304 -/
abbrev PWR_STAT.F_ALERT : Fld := ⟨.PWR_STAT, [], 28, 1⟩
/-- [27:27] RO, R304 -/
abbrev PWR_STAT.F_RATE : Fld := ⟨.PWR_STAT, [], 27, 1⟩
/-- [26:26] RO, R304 -/
abbrev PWR_STAT.F_HOT : Fld := ⟨.PWR_STAT, [], 26, 1⟩
/-- [25:25] RO, R304 -/
abbrev PWR_STAT.DROOP0 : Fld := ⟨.PWR_STAT, [], 25, 1⟩
/-- [24:24] RO, R304 -/
abbrev PWR_STAT.DROOP1 : Fld := ⟨.PWR_STAT, [], 24, 1⟩
/-- [23:23] RO, R304 -/
abbrev PWR_STAT.THROTTLE : Fld := ⟨.PWR_STAT, [], 23, 1⟩
/-- [22:22] RO, R304 -/
abbrev PWR_STAT.SENSOR_FAULT : Fld := ⟨.PWR_STAT, [], 22, 1⟩
/-- [21:21] RO, R304 -/
abbrev PWR_STAT.COOL_LOW : Fld := ⟨.PWR_STAT, [], 21, 1⟩
/-- [20:20] RO, R304 -/
abbrev PWR_STAT.VIN_HIGH : Fld := ⟨.PWR_STAT, [], 20, 1⟩
/-- [19:19] RO, R304 -/
abbrev PWR_STAT.BLENDING : Fld := ⟨.PWR_STAT, [], 19, 1⟩
/-- [18:16] RO, R304 -/
abbrev PWR_STAT.OP_NOW : Fld := ⟨.PWR_STAT, [], 16, 3⟩
/-- [15:13] RO, R304 -/
abbrev PWR_STAT.OP_TARGET : Fld := ⟨.PWR_STAT, [], 13, 3⟩
/-- [12:10] RO, R304 -/
abbrev PWR_STAT.OP_CEIL : Fld := ⟨.PWR_STAT, [], 10, 3⟩
/-- [31:29] RO, R304 -/
abbrev PWR_CLIP.SRC : Fld := ⟨.PWR_CLIP, [], 29, 3⟩
/-- [15:0] RO, R304 -/
abbrev PWR_CLIP.EFF_W : Fld := ⟨.PWR_CLIP, [], 0, 16⟩
/-- [31:16] RO, R304 -/
abbrev PWR_CLIP_IN.RACK_W : Fld := ⟨.PWR_CLIP_IN, [], 16, 16⟩
/-- [15:0] RO, R304 -/
abbrev PWR_CLIP_IN.MGMT_W : Fld := ⟨.PWR_CLIP_IN, [], 0, 16⟩
/-- [31:16] RO, R304 -/
abbrev PWR_CLIP_DER.FLOW_W : Fld := ⟨.PWR_CLIP_DER, [], 16, 16⟩
/-- [15:0] RO, R304 -/
abbrev PWR_CLIP_DER.THERM_W : Fld := ⟨.PWR_CLIP_DER, [], 0, 16⟩
/-- [31:16] RO, R304 -/
abbrev PWR_INPUT.POWER_W : Fld := ⟨.PWR_INPUT, [], 16, 16⟩
/-- [9:0] RO, R304 -/
abbrev PWR_INPUT.VIN : Fld := ⟨.PWR_INPUT, [], 0, 10⟩
/-- [31:29] RO, R304 -/
abbrev PWR_OP.MGMT_CEIL : Fld := ⟨.PWR_OP, [], 29, 3⟩
/-- [15:0] RO, R304 -/
abbrev PWR_OP.MOVES : Fld := ⟨.PWR_OP, [], 0, 16⟩
/-- [31:20] RO, R304 -/
abbrev PWR_COOL.T_IN : Fld := ⟨.PWR_COOL, [], 20, 12⟩
/-- [19:8] RO, R304 -/
abbrev PWR_COOL.T_OUT : Fld := ⟨.PWR_COOL, [], 8, 12⟩
/-- [7:0] RO, R304 -/
abbrev PWR_COOL.FLOW : Fld := ⟨.PWR_COOL, [], 0, 8⟩
/-- [31:31] RO, R304 -/
abbrev PWR_RTH.VALID : Fld := ⟨.PWR_RTH, [], 31, 1⟩
/-- [15:0] RO, R304 -/
abbrev PWR_RTH.RTH : Fld := ⟨.PWR_RTH, [], 0, 16⟩
/-- [31:31] RO, R304 -/
abbrev PWR_EST.FIT_OK : Fld := ⟨.PWR_EST, [], 31, 1⟩
/-- [15:0] RO, R304 -/
abbrev PWR_EST.FIT_REJECT : Fld := ⟨.PWR_EST, [], 0, 16⟩
/-- [31:0] RO, R304 -/
abbrev PWR_DROOPd.COUNT (d : Nat) : Fld := ⟨.PWR_DROOPd, [d], 0, 32⟩
/-- [15:0] RO, R304 -/
abbrev PWR_OPVk.MV (k : Nat) : Fld := ⟨.PWR_OPVk, [k], 0, 16⟩
/-- [31:31] RO, R304 -/
abbrev PWR_HSd_h.FAULT (d h : Nat) : Fld := ⟨.PWR_HSd_h, [d, h], 31, 1⟩
/-- [30:30] RO, R304 -/
abbrev PWR_HSd_h.EXCL_C (d h : Nat) : Fld := ⟨.PWR_HSd_h, [d, h], 30, 1⟩
/-- [29:29] RO, R304 -/
abbrev PWR_HSd_h.EXCL_B (d h : Nat) : Fld := ⟨.PWR_HSd_h, [d, h], 29, 1⟩
/-- [28:28] RO, R304 -/
abbrev PWR_HSd_h.EXCL_A (d h : Nat) : Fld := ⟨.PWR_HSd_h, [d, h], 28, 1⟩
/-- [11:0] RO, R304 -/
abbrev PWR_HSd_h.TEMP (d h : Nat) : Fld := ⟨.PWR_HSd_h, [d, h], 0, 12⟩
/-- [31:31] RO, R339 -/
abbrev RST_STRAP.VALID : Fld := ⟨.RST_STRAP, [], 31, 1⟩
/-- [30:30] RO, R339 -/
abbrev RST_STRAP.UNSTABLE : Fld := ⟨.RST_STRAP, [], 30, 1⟩
/-- [29:28] RO, R339 -/
abbrev RST_STRAP.CLK_MODE : Fld := ⟨.RST_STRAP, [], 28, 2⟩
/-- [27:26] RO, R339 -/
abbrev RST_STRAP.BOOT_SRC : Fld := ⟨.RST_STRAP, [], 26, 2⟩
/-- [18:0] RO, R339 -/
abbrev RST_STRAP.LOC : Fld := ⟨.RST_STRAP, [], 0, 19⟩
/-- [31:31] RO, R339 -/
abbrev RST_LADDER.VALID : Fld := ⟨.RST_LADDER, [], 31, 1⟩
/-- [30:30] RO, R339 -/
abbrev RST_LADDER.UNSTABLE : Fld := ⟨.RST_LADDER, [], 30, 1⟩
/-- [29:24] RO, R339 -/
abbrev RST_LADDER.CODE : Fld := ⟨.RST_LADDER, [], 24, 6⟩
/-- [23:20] RO, R339 -/
abbrev RST_LADDER.BAND : Fld := ⟨.RST_LADDER, [], 20, 4⟩
/-- [31:31] RO, R339 -/
abbrev RST_PIN_STAT.PERST_N : Fld := ⟨.RST_PIN_STAT, [], 31, 1⟩
/-- [30:30] RO, R339 -/
abbrev RST_PIN_STAT.MRST_N : Fld := ⟨.RST_PIN_STAT, [], 30, 1⟩
/-- [29:29] RO, R339 -/
abbrev RST_PIN_STAT.EPO_N : Fld := ⟨.RST_PIN_STAT, [], 29, 1⟩
/-- [28:28] RO, R339 -/
abbrev RST_PIN_STAT.MATE : Fld := ⟨.RST_PIN_STAT, [], 28, 1⟩
/-- [27:27] RO, R339 -/
abbrev RST_PIN_STAT.FAULT_N : Fld := ⟨.RST_PIN_STAT, [], 27, 1⟩
/-- [26:26] RO, R339 -/
abbrev RST_PIN_STAT.READY : Fld := ⟨.RST_PIN_STAT, [], 26, 1⟩
/-- [25:25] RO, R339 -/
abbrev RST_PIN_STAT.VR_ALERT_N : Fld := ⟨.RST_PIN_STAT, [], 25, 1⟩
/-- [24:24] RO, R339 -/
abbrev RST_PIN_STAT.WOR_A_SD : Fld := ⟨.RST_PIN_STAT, [], 24, 1⟩
/-- [23:23] RO, R339 -/
abbrev RST_PIN_STAT.WOR_B_SD : Fld := ⟨.RST_PIN_STAT, [], 23, 1⟩
/-- [31:31] RO, R339 -/
abbrev RST_FAULT.MINIMAL : Fld := ⟨.RST_FAULT, [], 31, 1⟩
/-- [30:30] RO, R339 -/
abbrev RST_FAULT.FENCED : Fld := ⟨.RST_FAULT, [], 30, 1⟩
/-- [29:29] RO, R339 -/
abbrev RST_FAULT.SENSOR : Fld := ⟨.RST_FAULT, [], 29, 1⟩
/-- [28:28] RO, R339 -/
abbrev RST_FAULT.PART_UNAVAIL : Fld := ⟨.RST_FAULT, [], 28, 1⟩
/-- [27:27] RO, R339 -/
abbrev RST_FAULT.QUICKSET : Fld := ⟨.RST_FAULT, [], 27, 1⟩
/-- [26:26] RO, R339 -/
abbrev RST_FAULT.T1_CH : Fld := ⟨.RST_FAULT, [], 26, 1⟩
/-- [25:25] RO, R339 -/
abbrev RST_FAULT.PORT : Fld := ⟨.RST_FAULT, [], 25, 1⟩
/-- [24:24] RO, R339 -/
abbrev RST_FAULT.LAPSED : Fld := ⟨.RST_FAULT, [], 24, 1⟩
/-- [23:23] RO, R339 -/
abbrev RST_FAULT.READMIT : Fld := ⟨.RST_FAULT, [], 23, 1⟩
/-- [31:31] RO, R339 -/
abbrev RST_LASTOFF.VALID : Fld := ⟨.RST_LASTOFF, [], 31, 1⟩
/-- [27:24] RO, R339 -/
abbrev RST_LASTOFF.CAUSE : Fld := ⟨.RST_LASTOFF, [], 24, 4⟩
/-- [23:16] RO, R339 -/
abbrev RST_LASTOFF.DETAIL : Fld := ⟨.RST_LASTOFF, [], 16, 8⟩
/-- [7:0] RO, R339 -/
abbrev RST_LASTOFF.SEQ : Fld := ⟨.RST_LASTOFF, [], 0, 8⟩
/-- [31:31] RO, R339 -/
abbrev RST_REFCLK.LOCKED : Fld := ⟨.RST_REFCLK, [], 31, 1⟩
/-- [30:29] RO, R339 -/
abbrev RST_REFCLK.MODE_USED : Fld := ⟨.RST_REFCLK, [], 29, 2⟩
/-- [28:28] RO, R339 -/
abbrev RST_REFCLK.FALLBACK : Fld := ⟨.RST_REFCLK, [], 28, 1⟩
/-- [15:0] RO, R339 -/
abbrev RST_REFCLK.OFFSET : Fld := ⟨.RST_REFCLK, [], 0, 16⟩
/-- [31:28] RO, R373 -/
abbrev HIF_BOOT_STATUS.STAGE : Fld := ⟨.HIF_BOOT_STATUS, [], 28, 4⟩
/-- [27:27] RO, R373 -/
abbrev HIF_BOOT_STATUS.WAIT_EXT : Fld := ⟨.HIF_BOOT_STATUS, [], 27, 1⟩
/-- [26:26] RO, R373 -/
abbrev HIF_BOOT_STATUS.SAVED_USED : Fld := ⟨.HIF_BOOT_STATUS, [], 26, 1⟩
/-- [25:24] RO, R373 -/
abbrev HIF_BOOT_STATUS.FAILS : Fld := ⟨.HIF_BOOT_STATUS, [], 24, 2⟩
/-- [23:16] RO, R373 -/
abbrev HIF_BOOT_STATUS.REASON : Fld := ⟨.HIF_BOOT_STATUS, [], 16, 8⟩
/-- [15:12] RO, R373 -/
abbrev HIF_BOOT_STATUS.LAST_STEP : Fld := ⟨.HIF_BOOT_STATUS, [], 12, 4⟩
/-- [11:8] RO, R373 -/
abbrev HIF_BOOT_STATUS.BAND : Fld := ⟨.HIF_BOOT_STATUS, [], 8, 4⟩
/-- [7:7] RO, R373 -/
abbrev HIF_BOOT_STATUS.SETTINGS_RESET : Fld := ⟨.HIF_BOOT_STATUS, [], 7, 1⟩
/-- [1:0] RO, R373 -/
abbrev HIF_BOOT_STATUS.BOOT_SRC_USED : Fld := ⟨.HIF_BOOT_STATUS, [], 0, 2⟩
/-- [31:31] WO, R373 -/
abbrev RST_REQ.MOD : Fld := ⟨.RST_REQ, [], 31, 1⟩
/-- [30:30] WO, R373 -/
abbrev RST_REQ.PART : Fld := ⟨.RST_REQ, [], 30, 1⟩
/-- [29:29] WO, R373 -/
abbrev RST_REQ.CTX : Fld := ⟨.RST_REQ, [], 29, 1⟩
/-- [28:28] WO, R373 -/
abbrev RST_REQ.CLR_FAILS : Fld := ⟨.RST_REQ, [], 28, 1⟩
/-- [27:27] WO, R373 -/
abbrev RST_REQ.HOST_FW_GO : Fld := ⟨.RST_REQ, [], 27, 1⟩
/-- [23:16] WO, R373 -/
abbrev RST_REQ.KEY : Fld := ⟨.RST_REQ, [], 16, 8⟩
/-- [15:8] WO, R373 -/
abbrev RST_REQ.PMASK : Fld := ⟨.RST_REQ, [], 8, 8⟩
/-- [5:0] WO, R373 -/
abbrev RST_REQ.SLOT : Fld := ⟨.RST_REQ, [], 0, 6⟩
/-- [15:0] RW, R373 -/
abbrev RST_CFG.IDLE_T : Fld := ⟨.RST_CFG, [], 0, 16⟩
/-- [31:31] RO, R373 -/
abbrev RST_CAUSE.VALID : Fld := ⟨.RST_CAUSE, [], 31, 1⟩
/-- [27:24] RO, R373 -/
abbrev RST_CAUSE.SOURCE : Fld := ⟨.RST_CAUSE, [], 24, 4⟩
/-- [15:0] RO, R373 -/
abbrev RST_CAUSE.COUNT : Fld := ⟨.RST_CAUSE, [], 0, 16⟩
/-- [7:0] RO, R373 -/
abbrev RST_PART_AVAIL.AVAIL : Fld := ⟨.RST_PART_AVAIL, [], 0, 8⟩
/-- [31:31] WO, R373 -/
abbrev RST_QS_SRC_CTL.GO : Fld := ⟨.RST_QS_SRC_CTL, [], 31, 1⟩
/-- [30:30] WO, R373 -/
abbrev RST_QS_SRC_CTL.CANCEL : Fld := ⟨.RST_QS_SRC_CTL, [], 30, 1⟩
/-- [29:28] RW, R373 -/
abbrev RST_QS_SRC_CTL.KIND : Fld := ⟨.RST_QS_SRC_CTL, [], 28, 2⟩
/-- [27:27] RW, R373 -/
abbrev RST_QS_SRC_CTL.ON_BOOT : Fld := ⟨.RST_QS_SRC_CTL, [], 27, 1⟩
/-- [26:26] RW, R373 -/
abbrev RST_QS_SRC_CTL.SCOPE_H : Fld := ⟨.RST_QS_SRC_CTL, [], 26, 1⟩
/-- [25:21] RW, R373 -/
abbrev RST_QS_SRC_CTL.RATE_GBS : Fld := ⟨.RST_QS_SRC_CTL, [], 21, 5⟩
/-- [19:0] RW, R373 -/
abbrev RST_QS_SRC_CTL.DST_FA : Fld := ⟨.RST_QS_SRC_CTL, [], 0, 20⟩
/-- [31:29] RO, R373 -/
abbrev RST_QS_STAT.STATE : Fld := ⟨.RST_QS_STAT, [], 29, 3⟩
/-- [28:27] RO, R373 -/
abbrev RST_QS_STAT.ROUND : Fld := ⟨.RST_QS_STAT, [], 27, 2⟩
/-- [26:26] RW1C, R373 -/
abbrev RST_QS_STAT.INCOMPLETE : Fld := ⟨.RST_QS_STAT, [], 26, 1⟩
/-- [25:25] RW1C, R373 -/
abbrev RST_QS_STAT.SIG_FAIL : Fld := ⟨.RST_QS_STAT, [], 25, 1⟩
/-- [24:24] RO, R373 -/
abbrev RST_QS_STAT.DONE : Fld := ⟨.RST_QS_STAT, [], 24, 1⟩
/-- [23:16] RO, R373 -/
abbrev RST_QS_STAT.CRC_ERR : Fld := ⟨.RST_QS_STAT, [], 16, 8⟩
/-- [15:0] RO, R373 -/
abbrev RST_QS_STAT.SESSION : Fld := ⟨.RST_QS_STAT, [], 0, 16⟩
/-- [31:31] RO, R373 -/
abbrev PART_TOP_STAT.AVAIL (p : Nat) : Fld := ⟨.PART_TOP_STAT, [p], 31, 1⟩
/-- [30:30] RO, R373 -/
abbrev PART_TOP_STAT.UNAVAIL (p : Nat) : Fld := ⟨.PART_TOP_STAT, [p], 30, 1⟩
/-- [29:26] RO, R373 -/
abbrev PART_TOP_STAT.ARR_BAD (p : Nat) : Fld := ⟨.PART_TOP_STAT, [p], 26, 4⟩
/-- [25:20] RO, R373 -/
abbrev PART_TOP_STAT.CORE_BAD (p : Nat) : Fld := ⟨.PART_TOP_STAT, [p], 20, 6⟩
/-- [19:15] RO, R373 -/
abbrev PART_TOP_STAT.STR_BAD (p : Nat) : Fld := ⟨.PART_TOP_STAT, [p], 15, 5⟩
/-- [14:12] RO, R373 -/
abbrev PART_TOP_STAT.CAUSE (p : Nat) : Fld := ⟨.PART_TOP_STAT, [p], 12, 3⟩
/-- [3:2] RO, R373 -/
abbrev PART_TOP_STAT.ARR_SPARE (p : Nat) : Fld := ⟨.PART_TOP_STAT, [p], 2, 2⟩
/-- [1:0] RO, R373 -/
abbrev PART_TOP_STAT.CORE_SPARE (p : Nat) : Fld := ⟨.PART_TOP_STAT, [p], 0, 2⟩
/-- [31:31] RO, R373 -/
abbrev PART_TOP_ARRn.VALID (p n : Nat) : Fld := ⟨.PART_TOP_ARRn, [p, n], 31, 1⟩
/-- [30:30] RO, R373 -/
abbrev PART_TOP_ARRn.FUSE_BAD (p n : Nat) : Fld := ⟨.PART_TOP_ARRn, [p, n], 30, 1⟩
/-- [29:29] RO, R373 -/
abbrev PART_TOP_ARRn.TEST_BAD (p n : Nat) : Fld := ⟨.PART_TOP_ARRn, [p, n], 29, 1⟩
/-- [4:0] RO, R373 -/
abbrev PART_TOP_ARRn.PHYS (p n : Nat) : Fld := ⟨.PART_TOP_ARRn, [p, n], 0, 5⟩
/-- [25:0] RO, R373 -/
abbrev PART_TOP_BAD_ARR.BAD (p : Nat) : Fld := ⟨.PART_TOP_BAD_ARR, [p], 0, 26⟩
/-- [31:31] RO, R396 -/
abbrev GRD_STAT.SINGLE : Fld := ⟨.GRD_STAT, [], 31, 1⟩
/-- [30:30] RO, R396 -/
abbrev GRD_STAT.FORCE : Fld := ⟨.GRD_STAT, [], 30, 1⟩
/-- [29:29] RO, R396 -/
abbrev GRD_STAT.SUSPECT_C : Fld := ⟨.GRD_STAT, [], 29, 1⟩
/-- [28:28] RO, R396 -/
abbrev GRD_STAT.SUSPECT_B : Fld := ⟨.GRD_STAT, [], 28, 1⟩
/-- [27:27] RO, R396 -/
abbrev GRD_STAT.SUSPECT_A : Fld := ⟨.GRD_STAT, [], 27, 1⟩
/-- [15:0] RO, R396 -/
abbrev GRD_STAT.SINGLE_CNT : Fld := ⟨.GRD_STAT, [], 0, 16⟩
/-- [31:31] RO, R396 -/
abbrev GRD_CHc.OSC_OK (c : Nat) : Fld := ⟨.GRD_CHc, [c], 31, 1⟩
/-- [30:30] RO, R396 -/
abbrev GRD_CHc.TEST_PASS (c : Nat) : Fld := ⟨.GRD_CHc, [c], 30, 1⟩
/-- [29:29] RO, R396 -/
abbrev GRD_CHc.A_TEMP (c : Nat) : Fld := ⟨.GRD_CHc, [c], 29, 1⟩
/-- [28:28] RO, R396 -/
abbrev GRD_CHc.A_CURR (c : Nat) : Fld := ⟨.GRD_CHc, [c], 28, 1⟩
/-- [27:27] RO, R396 -/
abbrev GRD_CHc.A_VOLT (c : Nat) : Fld := ⟨.GRD_CHc, [c], 27, 1⟩
/-- [26:26] RO, R396 -/
abbrev GRD_CHc.A_CLK (c : Nat) : Fld := ⟨.GRD_CHc, [c], 26, 1⟩
/-- [11:0] RO, R396 -/
abbrev GRD_CHc.HOT (c : Nat) : Fld := ⟨.GRD_CHc, [c], 0, 12⟩
/-- [31:24] RO, R396 -/
abbrev GRD_THRk.FILTER_US (k : Nat) : Fld := ⟨.GRD_THRk, [k], 24, 8⟩
/-- [15:0] RO, R396 -/
abbrev GRD_THRk.VALUE (k : Nat) : Fld := ⟨.GRD_THRk, [k], 0, 16⟩
/-- [31:31] RW, R396 -/
abbrev RST_ESC_CFG.BRM_ACT : Fld := ⟨.RST_ESC_CFG, [], 31, 1⟩
/-- [30:28] RW, R396 -/
abbrev RST_ESC_CFG.ENG_LIMIT : Fld := ⟨.RST_ESC_CFG, [], 28, 3⟩
/-- [27:25] RW, R396 -/
abbrev RST_ESC_CFG.PART_LIMIT : Fld := ⟨.RST_ESC_CFG, [], 25, 3⟩
/-- [24:22] RW, R396 -/
abbrev RST_ESC_CFG.MOD_LIMIT : Fld := ⟨.RST_ESC_CFG, [], 22, 3⟩
/-- [15:8] RW, R396 -/
abbrev RST_ESC_CFG.WIN_MIN : Fld := ⟨.RST_ESC_CFG, [], 8, 8⟩
/-- [7:0] RW, R396 -/
abbrev RST_ESC_CFG.BRM_MS : Fld := ⟨.RST_ESC_CFG, [], 0, 8⟩
/-- [31:31] RO, R396 -/
abbrev RST_ESC_STAT.COPPICE_REQ : Fld := ⟨.RST_ESC_STAT, [], 31, 1⟩
/-- [30:30] RO, R396 -/
abbrev RST_ESC_STAT.READMIT_PEND : Fld := ⟨.RST_ESC_STAT, [], 30, 1⟩
/-- [29:22] RO, R396 -/
abbrev RST_ESC_STAT.PART_HELD : Fld := ⟨.RST_ESC_STAT, [], 22, 8⟩
/-- [15:13] RO, R396 -/
abbrev RST_ESC_STAT.LAST_RUNG : Fld := ⟨.RST_ESC_STAT, [], 13, 3⟩
/-- [12:0] RO, R396 -/
abbrev RST_ESC_STAT.RUNGS : Fld := ⟨.RST_ESC_STAT, [], 0, 13⟩
/-- [31:16] RO, R396 -/
abbrev RST_ESC_LAST.UNIT : Fld := ⟨.RST_ESC_LAST, [], 16, 16⟩
/-- [15:8] RO, R396 -/
abbrev RST_ESC_LAST.CODE : Fld := ⟨.RST_ESC_LAST, [], 8, 8⟩
/-- [7:0] RO, R396 -/
abbrev RST_ESC_LAST.IN_WIN : Fld := ⟨.RST_ESC_LAST, [], 0, 8⟩
/-- [31:30] RO, R440 -/
abbrev RST_LEASE.HOLDER : Fld := ⟨.RST_LEASE, [], 30, 2⟩
/-- [29:29] RO, R440 -/
abbrev RST_LEASE.GUARD : Fld := ⟨.RST_LEASE, [], 29, 1⟩
/-- [28:28] RO, R440 -/
abbrev RST_LEASE.LAST : Fld := ⟨.RST_LEASE, [], 28, 1⟩
/-- [27:20] RO, R440 -/
abbrev RST_LEASE.LGEN : Fld := ⟨.RST_LEASE, [], 20, 8⟩
/-- [15:0] RO, R440 -/
abbrev RST_LEASE.MS_SINCE : Fld := ⟨.RST_LEASE, [], 0, 16⟩
/-- [31:16] RO, R440 -/
abbrev RST_WOR_STATp.FRAME_ERR (p : Nat) : Fld := ⟨.RST_WOR_STATp, [p], 16, 16⟩
/-- [15:0] RO, R440 -/
abbrev RST_WOR_STATp.REQUESTS (p : Nat) : Fld := ⟨.RST_WOR_STATp, [p], 0, 16⟩
/-- [31:24] RO, R440 -/
abbrev RST_SEC.OWNER_VALID : Fld := ⟨.RST_SEC, [], 24, 8⟩
/-- [23:16] RO, R440 -/
abbrev RST_SEC.OWNER_REVOKED : Fld := ⟨.RST_SEC, [], 16, 8⟩
/-- [8:2] RO, R440 -/
abbrev RST_SEC.SVN : Fld := ⟨.RST_SEC, [], 2, 7⟩
/-- [0:0] RO, R440 -/
abbrev RST_SEC.IDE_REQ : Fld := ⟨.RST_SEC, [], 0, 1⟩
/-- [31:31] RO, R440 -/
abbrev EVT_STATUS.FULL : Fld := ⟨.EVT_STATUS, [], 31, 1⟩
/-- [30:30] RW1C, R440 -/
abbrev EVT_STATUS.STAGE_OVF : Fld := ⟨.EVT_STATUS, [], 30, 1⟩
/-- [29:29] RO, R440 -/
abbrev EVT_STATUS.HOLDUP_LOST : Fld := ⟨.EVT_STATUS, [], 29, 1⟩
/-- [14:0] RO, R440 -/
abbrev EVT_STATUS.PAGES_USED : Fld := ⟨.EVT_STATUS, [], 0, 15⟩
/-- [6:0] RW, R440 -/
abbrev EVT_WIN.SEL : Fld := ⟨.EVT_WIN, [], 0, 7⟩
/-- [15:0] RW, R440 -/
abbrev EVT_CODE_SEL.CODE : Fld := ⟨.EVT_CODE_SEL, [], 0, 16⟩
/-- [31:31] RO, R440 -/
abbrev EVT_CODE_CFG.EXEMPT : Fld := ⟨.EVT_CODE_CFG, [], 31, 1⟩
/-- [15:8] RW, R440 -/
abbrev EVT_CODE_CFG.BURST : Fld := ⟨.EVT_CODE_CFG, [], 8, 8⟩
/-- [7:0] RW, R440 -/
abbrev EVT_CODE_CFG.RATE : Fld := ⟨.EVT_CODE_CFG, [], 0, 8⟩
/-- [31:31] WO, R440 -/
abbrev UPD_CTL.CHECK : Fld := ⟨.UPD_CTL, [], 31, 1⟩
/-- [30:30] WO, R440 -/
abbrev UPD_CTL.PROGRAM : Fld := ⟨.UPD_CTL, [], 30, 1⟩
/-- [29:29] WO, R440 -/
abbrev UPD_CTL.CANCEL : Fld := ⟨.UPD_CTL, [], 29, 1⟩
/-- [31:28] RO, R440 -/
abbrev UPD_STAT.STATE : Fld := ⟨.UPD_STAT, [], 28, 4⟩
/-- [27:24] RW1C, R440 -/
abbrev UPD_STAT.ERR : Fld := ⟨.UPD_STAT, [], 24, 4⟩
/-- [23:23] RO, R440 -/
abbrev UPD_STAT.FALLBACK : Fld := ⟨.UPD_STAT, [], 23, 1⟩
/-- [7:0] RO, R440 -/
abbrev UPD_STAT.BLOCK : Fld := ⟨.UPD_STAT, [], 0, 8⟩
/-- [31:16] RO, R444 -/
abbrev RST_PART_ID.DEVICE : Fld := ⟨.RST_PART_ID, [], 16, 16⟩
/-- [15:8] RO, R444 -/
abbrev RST_PART_ID.STEP : Fld := ⟨.RST_PART_ID, [], 8, 8⟩
/-- [1:0] RO, R444 -/
abbrev RST_PART_ID.VARIANT : Fld := ⟨.RST_PART_ID, [], 0, 2⟩
/-- [31:0] RO, R444 -/
abbrev RST_SERIAL_LO.SERIAL : Fld := ⟨.RST_SERIAL_LO, [], 0, 32⟩
/-- [31:0] RO, R444 -/
abbrev RST_SERIAL_HI.SERIAL : Fld := ⟨.RST_SERIAL_HI, [], 0, 32⟩
/-- [31:12] RW, R173 -/
abbrev HIF_RING_SQB_LOn.ADDR (n : Nat) : Fld := ⟨.HIF_RING_SQB_LOn, [n], 12, 20⟩
/-- [31:0] RW, R173 -/
abbrev HIF_RING_SQB_HIn.ADDR (n : Nat) : Fld := ⟨.HIF_RING_SQB_HIn, [n], 0, 32⟩
/-- [31:12] RW, R173 -/
abbrev HIF_RING_CQB_LOn.ADDR (n : Nat) : Fld := ⟨.HIF_RING_CQB_LOn, [n], 12, 20⟩
/-- [31:0] RW, R173 -/
abbrev HIF_RING_CQB_HIn.ADDR (n : Nat) : Fld := ⟨.HIF_RING_CQB_HIn, [n], 0, 32⟩
/-- [31:31] RW1C, R163 -/
abbrev MEM_CE_T1_c.HOT (c : Nat) : Fld := ⟨.MEM_CE_T1_c, [c], 31, 1⟩
/-- [15:0] RO, R163 -/
abbrev MEM_CE_T1_c.COUNT (c : Nat) : Fld := ⟨.MEM_CE_T1_c, [c], 0, 16⟩
/-- [31:31] RW1C, R163 -/
abbrev MEM_CE_SR_p.HOT (p : Nat) : Fld := ⟨.MEM_CE_SR_p, [p], 31, 1⟩
/-- [15:0] RO, R163 -/
abbrev MEM_CE_SR_p.COUNT (p : Nat) : Fld := ⟨.MEM_CE_SR_p, [p], 0, 16⟩
/-- [31:0] RO, R157 -/
abbrev MEM_VLT_WRITTEN_LO.TOTAL : Fld := ⟨.MEM_VLT_WRITTEN_LO, [], 0, 32⟩
/-- [31:0] RO, R157 -/
abbrev MEM_VLT_WRITTEN_HI.TOTAL : Fld := ⟨.MEM_VLT_WRITTEN_HI, [], 0, 32⟩
/-- [31:0] RO, R237 -/
abbrev FZ_BANK_CSUM.CSUM : Fld := ⟨.FZ_BANK_CSUM, [], 0, 32⟩
/-- [31:0] RW, R238 -/
abbrev FZ_LAY_TIME_LO.TIME : Fld := ⟨.FZ_LAY_TIME_LO, [], 0, 32⟩
/-- [31:0] RW, R238 -/
abbrev FZ_LAY_TIME_HI.TIME : Fld := ⟨.FZ_LAY_TIME_HI, [], 0, 32⟩
/-- [31:0] RO, R252 -/
abbrev FZ_TIME_LO.TIME : Fld := ⟨.FZ_TIME_LO, [], 0, 32⟩
/-- [31:0] RO, R252 -/
abbrev FZ_TIME_HI.TIME : Fld := ⟨.FZ_TIME_HI, [], 0, 32⟩
/-- [31:0] RW, R252 -/
abbrev FZ_TIME_SET_LO.TIME : Fld := ⟨.FZ_TIME_SET_LO, [], 0, 32⟩
/-- [31:0] RW, R252 -/
abbrev FZ_TIME_SET_HI.TIME : Fld := ⟨.FZ_TIME_SET_HI, [], 0, 32⟩
/-- [31:0] RO, R301 -/
abbrev PWR_LIFE_N20.HALF : Fld := ⟨.PWR_LIFE_N20, [], 0, 32⟩
/-- [31:0] RO, R301 -/
abbrev PWR_LIFE_N40.HALF : Fld := ⟨.PWR_LIFE_N40, [], 0, 32⟩
/-- [31:0] RO, R301 -/
abbrev PWR_LIFE_N60.HALF : Fld := ⟨.PWR_LIFE_N60, [], 0, 32⟩
/-- [31:0] RO, R302 -/
abbrev PWR_LIFE_DAMAGE.D : Fld := ⟨.PWR_LIFE_DAMAGE, [], 0, 32⟩
/-- [31:0] RO, R449 -/
abbrev PWR_REGION.BYTES (p w : Nat) : Fld := ⟨.PWR_REGION, [p, w], 0, 32⟩
/-- [31:0] RO, R363 -/
abbrev RST_QS_MISS.MISS : Fld := ⟨.RST_QS_MISS, [], 0, 32⟩
/-- [29:0] RW, R361 -/
abbrev RST_QS_SRC_BASE.BASE : Fld := ⟨.RST_QS_SRC_BASE, [], 0, 30⟩
/-- [31:31] RO, R357 -/
abbrev PART_TOP_COREg.VALID (p g : Nat) : Fld := ⟨.PART_TOP_COREg, [p, g], 31, 1⟩
/-- [30:30] RO, R357 -/
abbrev PART_TOP_COREg.FUSE_BAD (p g : Nat) : Fld := ⟨.PART_TOP_COREg, [p, g], 30, 1⟩
/-- [29:29] RO, R357 -/
abbrev PART_TOP_COREg.TEST_BAD (p g : Nat) : Fld := ⟨.PART_TOP_COREg, [p, g], 29, 1⟩
/-- [5:0] RO, R357 -/
abbrev PART_TOP_COREg.PHYS (p g : Nat) : Fld := ⟨.PART_TOP_COREg, [p, g], 0, 6⟩
/-- [25:0] RO, R355 -/
abbrev PART_TOP_FUSE_ARR.BAD (p : Nat) : Fld := ⟨.PART_TOP_FUSE_ARR, [p], 0, 26⟩
/-- [31:0] RO, R355 -/
abbrev PART_TOP_BAD_CORE_LO.BAD (p : Nat) : Fld := ⟨.PART_TOP_BAD_CORE_LO, [p], 0, 32⟩
/-- [19:0] RO, R355 -/
abbrev PART_TOP_BAD_CORE_HI.BAD (p : Nat) : Fld := ⟨.PART_TOP_BAD_CORE_HI, [p], 0, 20⟩
/-- [15:0] RO, R355 -/
abbrev PART_TOP_BAD_STR.BAD (p : Nat) : Fld := ⟨.PART_TOP_BAD_STR, [p], 0, 16⟩
/-- [31:0] RO, R92 -/
abbrev PART_BRM_RPT.WORD (p w : Nat) : Fld := ⟨.PART_BRM_RPT, [p, w], 0, 32⟩
/-- [31:0] RO, R433 -/
abbrev EVT_FIRST_SEQ.SEQ : Fld := ⟨.EVT_FIRST_SEQ, [], 0, 32⟩
/-- [31:0] RO, R433 -/
abbrev EVT_LAST_SEQ.SEQ : Fld := ⟨.EVT_LAST_SEQ, [], 0, 32⟩
/-- [15:0] RO, R432 -/
abbrev EVT_CLEARS.CLEARS : Fld := ⟨.EVT_CLEARS, [], 0, 16⟩
/-- [31:0] RO, R430 -/
abbrev EVT_FULL_DROP.DROPS : Fld := ⟨.EVT_FULL_DROP, [], 0, 32⟩
/-- [31:0] RO, R429 -/
abbrev EVT_STAGE_DROP.DROPS : Fld := ⟨.EVT_STAGE_DROP, [], 0, 32⟩
/-- [31:0] RO, R428 -/
abbrev EVT_CODE_DROP.DROPS : Fld := ⟨.EVT_CODE_DROP, [], 0, 32⟩
/-- [31:0] RO, R416 -/
abbrev UPD_VER_RUN.VERSION : Fld := ⟨.UPD_VER_RUN, [], 0, 32⟩
/-- [31:0] RO, R416 -/
abbrev UPD_VER_NEW.VERSION : Fld := ⟨.UPD_VER_NEW, [], 0, 32⟩
/-- [31:16] RO, R415 -/
abbrev UPD_SVN.STAGED : Fld := ⟨.UPD_SVN, [], 16, 16⟩
/-- [6:0] RO, R415 -/
abbrev UPD_SVN.COUNTER : Fld := ⟨.UPD_SVN, [], 0, 7⟩
/-- [31:0] RO, R421 -/
abbrev UPD_CONFIRM.SECONDS : Fld := ⟨.UPD_CONFIRM, [], 0, 32⟩
/-- [31:0] RO, R164 -/
abbrev MEM_ERRLOG.WORD (e i : Nat) : Fld := ⟨.MEM_ERRLOG, [e, i], 0, 32⟩
/-- [31:0] RW, R172 -/
abbrev HIF_MSIX.WORD (v i : Nat) : Fld := ⟨.HIF_MSIX, [v, i], 0, 32⟩
/-- [31:0] RO, R172 -/
abbrev HIF_PBA.PEND (w : Nat) : Fld := ⟨.HIF_PBA, [w], 0, 32⟩

end R

end Sys2Proof.Machine
end

