-- ==== Sys2Proof/Machine/State.lean ====
section
/-!
DEFINITION. The state of the module: plain data that holds everything the spec gives it. A field's docstring reads
name | width | rule | reset value; a number after DESIGN CHOICE is a log entry.
-/

namespace Sys2Proof.Machine

/-- Operating states of the module (Table 00-6, R204, R370, R395, Table 09-9). -/
inductive Mode where
  | off | start | ready | run | drain | hold | minimal | fenced | recovery | mfgTest | inReset
  deriving DecidableEq, Repr

/-- Clocks: the timebase and fabric time (R252). -/
structure Clk where
  /-- mono | 64-bit ns | R266, R426 | 0 (DESIGN CHOICE 3): nanoseconds since power-on reset, the module's own timebase CK_T -/
  mono : Nat
  /-- TIME | 64 | R252 | 0 (DESIGN CHOICE 3): fabric time, a 64-bit count of nanoseconds -/
  time : BitVec 64
  /-- seen | list of ns | R192, R405 | empty (DESIGN CHOICE 3): last instant of each timed rule, by a rule key -/
  seen : Tbl Nat
  /-- free | counter | MODEL'S OWN | 0 (DESIGN CHOICE 4): counter that the free values of Config are applied to -/
  free : Nat
  deriving DecidableEq, Repr

/-- One owner key slot (R435). -/
structure OwnerSlot where
  /-- OWNER digest | 512 | R435 | empty (DESIGN CHOICE 5): fused SHA-512 digest of the slot's key -/
  digest : List Byte
  /-- OWNER VALID | 1 | R435 | false (DESIGN CHOICE 5) -/
  valid : Bool
  /-- OWNER REVOKED | 1 | R435 | false (DESIGN CHOICE 5) -/
  revoked : Bool
  deriving DecidableEq, Repr

/-- Fuses (R1, R267, R415, R435, R444, R355, R449). They survive everything. -/
structure Fuses where
  /-- VARIANT | 2 | R2 | 0 (DESIGN CHOICE 5): ordering code of Table 00-1 -/
  variant : Nat
  /-- STEP | 8 | R444 | 1, the first shipped stepping -/
  step : Nat
  /-- SERIAL | 64 | R444 | 1 (DESIGN CHOICE 5) -/
  serial : Nat
  /-- OPV | 8 x 16 | R267 | the upper end of each range of Table 07-4 (DESIGN CHOICE 5), in mV -/
  opv : List Nat
  /-- fused bad arrays | 8 x 26 | R355 | none (DESIGN CHOICE 5) -/
  badArr : List Nat
  /-- fused bad cores | 8 x 52 | R355 | none (DESIGN CHOICE 5) -/
  badCore : List Nat
  /-- fused bad streamers | 8 x 16 | R355 | none (DESIGN CHOICE 5) -/
  badStr : List Nat
  /-- region map | 8 x 128 bytes | R449 | all 0 (DESIGN CHOICE 5): hot spot of each physical unit -/
  region : Tbl Byte
  /-- owner key slots | 8 slots | R435 | none blown (DESIGN CHOICE 5) -/
  owner : Tbl OwnerSlot
  /-- SVN | 7 | R415 | 0 (DESIGN CHOICE 5): security version counter -/
  svn : Nat
  deriving DecidableEq, Repr

/-- A firmware image as a slot holds it (R413, R414). -/
structure FwImg where
  /-- image present and verified | 1 | R413 | true for slots R and F (DESIGN CHOICE 6) -/
  ok : Bool
  /-- VERSION | 32 | R413 | 1 (DESIGN CHOICE 6) -/
  version : Nat
  /-- SVN | 16 | R413 | 0 (DESIGN CHOICE 6) -/
  svn : Nat
  /-- SETTINGS_FMT | 16 | R413 | 1 (DESIGN CHOICE 6) -/
  fmt : Nat
  /-- KIND | 16 | R413 | 1 (DESIGN CHOICE 6) -/
  kind : Nat
  /-- image bytes | up to 15 MiB | R413 | empty (DESIGN CHOICE 6), as 32-bit words of the staging window -/
  words : Tbl (BitVec 32)
  deriving DecidableEq, Repr

/-- State word of slot R (R414). -/
inductive SlotWord where
  | valid | writing | new
  deriving DecidableEq, Repr

/-- A saved training record (R351 to R353, Table 09-6). Its items are the tier-1 channels, 0 to 31, and Fazar port n as 32 + n. -/
structure Training where
  /-- package serial | 64 | Table 09-6 | no record at reset -/
  serial : Nat
  /-- manufacturer and density mode registers of the LPDDR6 package of each tier-1 channel | 32 words | Table 09-6 | no record at reset -/
  devs : List Nat
  /-- operating seconds at which it was written | 40 | Table 09-6 | no record at reset -/
  written : Nat
  /-- per-item history: items that failed their check at the preceding start, and at the one before | lists | Table 09-6, R352 | no record at reset -/
  fail1 : List Nat
  fail2 : List Nat
  deriving DecidableEq, Repr

/-- The boot NOR (R341: kept by every reset and by power loss). -/
structure Nor where
  /-- failed-start count | 2 | R368 | 0 (DESIGN CHOICE 6) -/
  fails : Nat
  /-- failed-start PENDING | 1 | R368 | false (DESIGN CHOICE 6) -/
  pending : Bool
  /-- the previous start ended by a counted cause | 1 | R368, R414 | false (DESIGN CHOICE 6) -/
  counted : Bool
  /-- REASON | 8 | Table 09-13 | 0 (DESIGN CHOICE 6) -/
  reason : Nat
  /-- LAST_STEP | 4 | R369 | 0 (DESIGN CHOICE 6) -/
  lastStep : Nat
  /-- fence mark | 1 | R395 | false (DESIGN CHOICE 6) -/
  fenceMark : Bool
  /-- slot R state word | 3 values | R414 | valid (DESIGN CHOICE 6) -/
  slotWord : SlotWord
  /-- slot R, module firmware | image | R414 | version 1 (DESIGN CHOICE 6) -/
  slotR : FwImg
  /-- slot F, module firmware | image | R414 | version 1 (DESIGN CHOICE 6) -/
  slotF : FwImg
  /-- slots R, F of general-core firmware | images | R413, R358 | version 1 (DESIGN CHOICE 6) -/
  coreR : FwImg
  coreF : FwImg
  /-- saved training record | record | R351 | absent (DESIGN CHOICE 6) -/
  training : Option Training
  /-- update state kept in the boot NOR | 4 | UPD_STAT.STATE's reset column | IDLE (DESIGN CHOICE 6) -/
  updState : Nat
  /-- KIND of the image that an update programs: 1 module firmware, 2 general-core firmware | R413 | 1 (DESIGN CHOICE 6) -/
  updKind : Nat
  /-- state word of the general-core firmware's slot R | R414 | valid (DESIGN CHOICE 6) -/
  coreWord : SlotWord
  /-- rows that post-package repair or spare rows have replaced, by 256-byte unit (held in the DRAM itself) | list | R141 | none (DESIGN CHOICE 6) -/
  repaired : List Nat
  /-- CONFIRM_S of the last activation | R417, R421 | 600: what 0 acts as -/
  confirmS : Nat
  /-- FALLBACK | 1 | UPD_STAT.FALLBACK's reset column | false (DESIGN CHOICE 6) -/
  fallback : Bool
  deriving DecidableEq, Repr

/-- The vault superblock (R159, R301, R431, R432, Table 04-12). -/
structure Super where
  /-- superblock readable | 1 | R159 | true (DESIGN CHOICE 6) -/
  ok : Bool
  /-- active image slot | 1 | Table 04-12 | 0, IMAGE_A (DESIGN CHOICE 6) -/
  active : Nat
  /-- verified marks of IMAGE_A and IMAGE_B | 2 | R199 | false (DESIGN CHOICE 6) -/
  verA : Bool
  verB : Bool
  /-- saved wear counter | 29 | R159 | 305,000,000: the factory's full counter (R159) -/
  wear : Nat
  /-- saved total of units written | 64 | MEM_VLT_WRITTEN | 0 (DESIGN CHOICE 6) -/
  written : Nat
  /-- saved half-cycle counts | 3 x 32 | R301 | 0 (DESIGN CHOICE 6) -/
  life : List Nat
  /-- saved turning-point stack | 64 entries | R301 | empty (DESIGN CHOICE 6) -/
  stack : List Int
  /-- EVT_CLEARS | 16 | R432 | 0 (DESIGN CHOICE 6) -/
  clears : Nat
  /-- HOLDUP_DONE | 1 | R156, R431 | true (DESIGN CHOICE 6) -/
  holdupDone : Bool
  /-- highest SEQ written | 32 | R431 | none (DESIGN CHOICE 6) -/
  lastSeq : Option Nat
  /-- region pages used and first SEQ | 15, 32 | EVT_STATUS | 0, 0 (DESIGN CHOICE 6) -/
  pages : Nat
  firstSeq : Nat
  /-- operating seconds, power-cycle count | 40, 24 | Table 11-10 | 0, 0 (DESIGN CHOICE 6) -/
  opsec : Nat
  pcc : Nat
  /-- owner moduli in SUPER | 8 x 4096 | R435 | none (DESIGN CHOICE 6) -/
  moduli : Tbl (List Byte)
  deriving DecidableEq, Repr

/-- One directory bank with its gateway and child tables (R221, R224). -/
structure Bank where
  /-- directory | 2^20 x 64 | R221 | empty (Table 09-10) -/
  dir : Tbl (BitVec 64)
  /-- gateway table | 1,025 x 32 | R224 | empty (Table 09-10) -/
  gw : Tbl (BitVec 32)
  /-- gateway list | 1,024 x 32 | R224 | empty (Table 09-10) -/
  gl : Tbl (BitVec 32)
  /-- child table | 65,536 x 32 | R221 | empty (Table 09-10) -/
  ch : Tbl (BitVec 32)
  deriving DecidableEq, Repr

/-- The settings store (boot NOR subset and SETTINGS region; Table 09-10 after a settings reset). -/
structure Settings where
  /-- settings words | by register offset | R446, Table 09-10 | the values of Table 09-10 -/
  regs : Tbl (BitVec 32)
  /-- saved directory banks | 2 banks | Table 09-3 step 7 | empty (Table 09-10) -/
  bank0 : Bank
  bank1 : Bank
  /-- IDE_REQ | 1 | R440 | false (DESIGN CHOICE 6) -/
  ideReq : Bool
  /-- topiary history: bad sets of past starts | lists | R355 | empty (Table 09-10) -/
  history : List (List Nat)
  /-- copy of the saved training record | record | Table 09-6 | absent (Table 09-10) -/
  training : Option Training
  /-- formats in which the store is held: that of the running firmware, and a converted copy while an update is unconfirmed | list | R422 | [1] (DESIGN CHOICE 6) -/
  fmts : List Nat
  deriving DecidableEq, Repr

/-- The last-cause latch (R319, R320). -/
structure Latch where
  /-- CAUSE | 4 | Table 08-5 | 0 NONE: the latch has never recorded a switch-off -/
  cause : Nat
  /-- DETAIL | 8 | Table 08-5 | 0 -/
  detail : Nat
  /-- SEQ | 8 | R319 | 0 (DESIGN CHOICE 6) -/
  seq : Nat
  deriving DecidableEq, Repr

/-- Everything that survives loss of power. -/
structure NonVol where
  fuses : Fuses
  nor : Nor
  super : Super
  settings : Settings
  latch : Latch
  deriving DecidableEq, Repr

/-- The hot-swap controller and the input (R306, R314 to R320). -/
structure HotSwap where
  /-- mate loop closed | 1 | R306 | true (DESIGN CHOICE 7: the module is mated and powered at State.reset) -/
  mated : Bool
  /-- EPO_N low | 1 | R317 | false (DESIGN CHOICE 7) -/
  epo : Bool
  /-- output on | 1 | R314 | true (DESIGN CHOICE 7) -/
  on : Bool
  /-- latched off | 1 | R316 | false (DESIGN CHOICE 7) -/
  latched : Bool
  /-- inrush attempts made | 2 | R314 | 0 (DESIGN CHOICE 7) -/
  tries : Nat
  /-- rails up, in the order of R265 | 7 flags | R265 | VCTL up (DESIGN CHOICE 7) -/
  rails : List Nat
  /-- 100 us hold-end count runs | 1 | R261 | false -/
  holdCount : Bool
  /-- instant of brownout entry, ns, and lowest input seen | R261 | 0 (DESIGN CHOICE 7) -/
  brownAt : Nat
  vinMin : Nat
  /-- a POR crossing since the last start-up | 1 | R319 | false -/
  porSeen : Bool
  deriving DecidableEq, Repr

/-- A rung in progress (R343, Table 09-2). -/
structure Rung where
  /-- depth: 1 context, 2 engine, 3 partition, 4 module | R384 -/
  depth : Nat
  /-- partitions, one bit set: of a partition rung the partition, of an engine rung the unit's | 8 | R342 -/
  pmask : Nat
  /-- stage 1 to 3 of R343 -/
  stage : Nat
  /-- idle did not arrive | 1 | R343 -/
  forced : Bool
  /-- reset source code of RST_CAUSE.SOURCE | 4 | Table 09-1; 0 for an engine reset that a register write asked for -/
  source : Nat
  /-- SRCKIND of the requester | 3 | R340 -/
  kind : Nat
  deriving DecidableEq, Repr

/-- The module's operating state and start-up progress. -/
structure Ctl where
  /-- module state | Table 00-6 | start: a start begins at step 2 (HIF_BOOT_STATUS.STAGE resets to 0x2) -/
  mode : Mode
  /-- state that HOLD returns to, or that a reset in progress left | R204, R259, R371 | ready (DESIGN CHOICE 7; unused elsewhere) -/
  ret : Mode
  /-- rungs in progress, at most one per domain | R343 | none -/
  rungs : List Rung
  /-- MRST_N held low | 1 | R322 | false (DESIGN CHOICE 7) -/
  mrstLow : Bool
  /-- PCIe link up | 1 | R171, Table 09-5 | false -/
  link : Bool
  /-- start-up items done: training and vault mount, self-test, firmware, ready set | R347 | none -/
  doneTrain : Bool
  doneTest : Bool
  doneFw : Bool
  doneLoad : Bool
  /-- REFCLK tries made | R330 | 0 -/
  refTries : Nat
  /-- start fails and waits for START_RETRY | R369 | false -/
  failed : Bool
  /-- a settings reset, extended test, BER boot of this start | Table 09-9 | none -/
  band : Nat
  /-- general-core firmware in use | R434 | none -/
  coreFw : Option FwImg
  /-- module firmware running | R434 | version 1 (DESIGN CHOICE 6) -/
  fw : FwImg
  /-- waits of R348 in progress: 1 a bit-error test at boot, 2 host firmware or a quickset session | list | R348 | none -/
  waits : List Nat
  /-- mode registers that the LPDDR6 packages answered with at this start, by tier-1 channel | list | Table 09-6 | none -/
  devs : List Nat
  deriving DecidableEq, Repr

/-- A scrub pass in progress over one kind of memory (R146 to R148). -/
structure ScrubPass where
  /-- codewords visited, by address | R146 -/
  visited : List Nat
  /-- instant of the first visit, ns | MEM_SCRUB_STATt.LAST_MIN -/
  start : Nat
  /-- a stop has lengthened the pass; it is already told late | 1 each | R148 -/
  stopped : Bool
  late : Bool
  deriving DecidableEq, Repr

/-- Memory beyond its bytes (R126 to R164). -/
structure Mem where
  /-- symbol errors stored in a codeword, by codeword address: (position k, xor) | R136 | none -/
  errs : Tbl (List (Nat × Byte))
  /-- ranges left by an engine reset: base, length, epoch | R95, R122 | none -/
  stale : List (Nat × Nat × Nat)
  /-- instants of corrections per 256-byte unit, ns | R141 | none -/
  ceAt : Tbl (List Nat)
  /-- rows listed for repair, by 256-byte unit | R141 | none -/
  hotRows : List Nat
  /-- image-backed ranges that have landed: (module address, length) | R162 | none -/
  landed : List (Nat × Nat)
  /-- vault pages a failed read was seen on | R153 | none -/
  badPages : List Nat
  /-- scrub passes in progress: tier 0, tier 1, SRAM | R146 | none -/
  scrub : Tbl (Option ScrubPass)
  /-- codewords that a scrub visit found uncorrectable and that are not reloaded yet | R150 | none -/
  lostCw : List Nat
  /-- tier-1 channels whose drift calls for a retune | R133 | none -/
  due : List Nat
  deriving DecidableEq, Repr

/-- An installation in progress (R199). -/
structure Install where
  /-- block bitmap, as the list of present 64 KiB blocks | R199 -/
  blocks : List Nat
  /-- OPIDs of its LOAD_IMAGE operations in flight | R199 -/
  opids : List Nat
  deriving DecidableEq, Repr

/-- The vault controller (R155 to R159). -/
structure Vault where
  /-- wear counter | 29 bits of 64 KiB units | R157 | 305,000,000 -/
  wear : Nat
  /-- units written over life | 64 | MEM_VLT_WRITTEN | 0 (DESIGN CHOICE 6) -/
  written : Nat
  /-- journal entries pending, in bytes | R155 | 0 -/
  pend : Nat
  /-- what waits for the commit: operations by 3 x OPID, streamers by 3 x identifier + 1, quickset blocks by 3 x block + 2 | R155 | none -/
  waiting : List Nat
  /-- installation in progress | R199 | none -/
  inst : Option Install
  /-- page programs held back during brownout | 1 | R156 | false -/
  held : Bool
  /-- half-cycle counts and turning-point stack on their way through the journal | R301 | none -/
  life : Option (List Nat × List Int)
  deriving DecidableEq, Repr

/-- One entry of an accumulator bank: the exact lane of Table 01-7 with its 7-bit residue shadow (R53); a BF16/FP16 bank keeps the FP32 running sum of R48 in the low 32 bits. -/
structure Lane where
  /-- lane | 128 | R34 | zero lane (R38) -/
  v : BitVec 128
  /-- residue shadow | 7 | R53 | 0 -/
  sh : Nat
  deriving DecidableEq, Repr

/-- Status of an accumulator bank (R72, R73). -/
inductive BankSt where
  | free | filling | streamed | complete
  deriving DecidableEq, Repr

/-- An accumulator bank (R13, R72). -/
structure Acc where
  /-- status | R72 | free -/
  st : BankSt
  /-- 16,384 lanes, by 128 i + j | R13 | zero lanes -/
  lanes : Tbl Lane
  /-- BF16/FP16 pairing | 1 | R47 | false -/
  fp : Bool
  /-- L | 10 | R31 | 0 -/
  lsb : Int
  /-- PM of its tile | 2 | Table 02-6 | 0 -/
  pm : Nat
  /-- sum of KB | R72 | 0 -/
  kb : Nat
  /-- held by JOIN | 1 | R26 | false -/
  held : Bool
  /-- order of filling | R72 | 0 -/
  order : Nat
  deriving DecidableEq, Repr

/-- A TILE whose operands are streaming (R64, R71, R73). -/
structure TileRun where
  /-- the instruction | 128 | Table 02-6 -/
  ins : BitVec 128
  /-- accumulator bank it fills -/
  bank : Nat
  /-- effective store slots of X, W (BSEL applied) -/
  xs : Nat
  ws : Nat
  /-- reduction units done by the even (or single) array and by the odd array -/
  done : Nat
  doneO : Nat
  /-- operand bytes read and not yet used: X, W, and the odd array's X, W -/
  xb : List Byte
  wb : List Byte
  xbO : List Byte
  wbO : List Byte
  deriving DecidableEq, Repr

/-- Slope limiter state of an array (R87). -/
inductive Slope where
  | idle | wantStart | active | filler
  deriving DecidableEq, Repr

/-- A logical array's hidden state; PC, STATE, PAIR and flags live in PART_ARR_STAT and PART_ARR_EXC. -/
structure Arr where
  /-- B0, B1 | 13 each | R74 | 0 (R95) -/
  b0 : BitVec 13
  b1 : BitVec 13
  /-- L0, L1 | 16 each | R74 | 0 (R95) -/
  l0 : BitVec 16
  l1 : BitVec 16
  /-- SEED | 64 | R43 | 0 (R95) -/
  seed : BitVec 64
  /-- output codebook register: format code and entries | R452 | empty -/
  cbFmt : Option Nat
  cbEnt : List Byte
  /-- two accumulator banks | R13 | free -/
  bank0 : Acc
  bank1 : Acc
  /-- the odd array's banks of a pair (R79 to R80) | R13 | free -/
  obank0 : Acc
  obank1 : Acc
  /-- issued TILEs that still stream, oldest first | R71 | none -/
  tiles : List TileRun
  /-- output stage: slots not yet written, destination: queue -/
  outBuf : List (List Byte)
  outQ : Nat
  /-- start queue, end queue | 10 each | Table 05-3 | 0 -/
  startQ : Nat
  endQ : Nat
  /-- instructions in the loaded program | R75 | 0 -/
  len : Nat
  /-- context slot of the bound phase | R59 | none -/
  ctx : Option Nat
  /-- slope limiter state | R87 | idle -/
  slope : Slope
  /-- active cycles per throttle frame | 5 | R292 | 16 -/
  duty : Nat
  /-- rotation requested | 1 | R88 | false -/
  rotReq : Bool
  /-- instant of the last rotation, ns | R293 | none -/
  rotAt : Option Nat
  /-- fill order counter | R72 | 0 -/
  fills : Nat
  deriving DecidableEq, Repr

/-- A general core's hidden state (R96, Table 03-5); PC, STATE, INH, ICAUSE, IPEND, IMASK, ISTAT, MBOX and LMCE[15:0] live in the PART_CORE registers. -/
structure Core where
  /-- x0 to x31 | 64 each | R96 | 0 (R122); x0 reads 0 -/
  x : Tbl (BitVec 64)
  /-- v0 to v31 | 512 each | R96 | 0 (R122) -/
  v : Tbl (BitVec 512)
  /-- EPC | 64 | Table 03-5 | 0 (R122) -/
  epc : BitVec 64
  /-- IVBASE | 64 | Table 03-5 | 0 (DESIGN CHOICE 9) -/
  ivbase : BitVec 64
  /-- ICTL.IE | 1 | Table 03-5 | false (R122: ICTL 0) -/
  ie : Bool
  /-- TCMP0, TCMP1 | 64 each | Table 03-5 | 0 (R122: the timers cleared) -/
  tcmp0 : BitVec 64
  tcmp1 : BitVec 64
  /-- timer armed (written since it fired) | 1 each | Table 03-7 | false (DESIGN CHOICE 9) -/
  arm0 : Bool
  arm1 : Bool
  /-- timer FIRED state | 1 each | Table 03-5 | false -/
  fired0 : Bool
  fired1 : Bool
  /-- LMCE[31] | 1 | R142 | false -/
  lmce31 : Bool
  /-- queues with a popped, unreleased slot, and with an acquired, unpublished slot | R102 | none -/
  popped : List Nat
  acquired : List Nat
  /-- queue-event slots | 48 x 64 | R114 | 0 (VALID 0) -/
  qev : Tbl (BitVec 64)
  /-- rotation requested | 1 | R120 | false -/
  rotReq : Bool
  /-- one instruction commits after IRET before the next interrupt | 1 | R111 | false -/
  shield : Bool
  /-- start queue, end queue, context slot | Table 05-3 | 0, 0, none -/
  startQ : Nat
  endQ : Nat
  ctx : Option Nat
  /-- instant of the last rotation, ns | R293 | none -/
  rotAt : Option Nat
  deriving DecidableEq, Repr

/-- Progress of a streamer within a descriptor (R82, R454). -/
structure StrRun where
  /-- executions finished | R454 -/
  reps : Nat
  /-- PRE slot popped for this execution | R454 -/
  pre : Bool
  /-- the index stream's END was read, entries read | R83 -/
  idxEnd : Bool
  idx : List Nat
  /-- entries left in the slot being read -/
  idxRest : List Nat
  /-- rows (or panels) done -/
  row : Nat
  /-- bytes read from the source queue, bytes waiting for the destination queue -/
  inB : List Byte
  outB : List Byte
  /-- last write landed: POST is due | R454 -/
  moved : Bool
  deriving DecidableEq, Repr

/-- A streamer's hidden state; DESC, STATE and flags live in PART_STR_STAT. -/
structure Str where
  /-- list start, module address | 56 | R82 | 0 -/
  list : Nat
  /-- progress in the current descriptor -/
  run : StrRun
  /-- start queue, end queue, context slot | Table 05-3 | 0, 0, none -/
  startQ : Nat
  endQ : Nat
  ctx : Option Nat
  deriving DecidableEq, Repr

/-- A queue's hidden state; CFG, ENDS, OCC and CREDIT live in the PART_Q registers. -/
structure Que where
  /-- slots acquired, published, popped and released since binding | R61, R62 | 0 -/
  wr : Nat
  pub : Nat
  rd : Nat
  rel : Nat
  /-- INIT_CREDIT | 17 | R60 | 0 -/
  cr0 : Nat
  /-- far end of a REMOTE queue: module FA (0: this module), partition, queue | R451 | 0 -/
  farFa : Nat
  farP : Nat
  farQ : Nat
  /-- ordering channel of an off-module queue | 4 | Table 05-3 | 0 -/
  och : Nat
  /-- releases not yet returned as credits | R66 | 0 -/
  owed : Nat
  deriving DecidableEq, Repr

/-- A ring pair's hidden state; the registers of Table 12-2 hold the rest. -/
structure Ring where
  /-- SQ_TAIL last written | 16 | R174 | 0 -/
  tail : Nat
  /-- submission wraps | R182 | 0 -/
  wraps : Nat
  /-- expected phase bit | 1 | R177 | false -/
  phase : Bool
  /-- CQ_HEAD last written | 16 | R177 | 0 -/
  cqHead : Nat
  /-- completion entries written and not yet freed | R176 | 0 -/
  used : Nat
  /-- entries since the last message | R178 | 0 -/
  unsig : Nat
  /-- ABORTs fetched in the last 256 wraps: 65536 x wrap + slot | R200 | none -/
  aborts : List Nat
  deriving DecidableEq, Repr

/-- Progress of an operation (R175, R185). -/
inductive OpSt where
  | accepted | started | locked
  deriving DecidableEq, Repr

/-- An accepted operation (R175, R183). -/
structure Op where
  /-- OPID in its low 32 bits; above them a count of 256-wrap rounds, which keeps operations apart whose OPIDs are equal | 32 + MODEL'S OWN | R182 -/
  opid : Nat
  /-- ring pair | 8 | R182 -/
  ring : Nat
  /-- descriptor words | 8 x 64 | R181 -/
  words : List (BitVec 64)
  /-- progress | R185 -/
  st : OpSt
  /-- STATUS, DETAIL | 8, 16 | Table 05-11 -/
  status : Nat
  detail : Nat
  /-- UNIT, INFO0, INFO1, ENERGY_UJ | Table 05-10 -/
  unit : Nat
  info0 : Nat
  info1 : Nat
  energy : Nat
  /-- bytes moved so far, and source or chunk data read -/
  moved : Nat
  /-- writes landed, energy settled, units halted: the entry may be written | R186 -/
  ready : Bool
  /-- OPIDs whose entries must be written first | R202 -/
  after : List Nat
  deriving DecidableEq, Repr

/-- A Fazar operation timer (R234). -/
structure Timer where
  /-- FZ_TAB index, peer FA, local queue, ordering channel, timeout in us | Table 05-3 -/
  idx : Nat
  peer : Nat
  q : Nat
  och : Nat
  tmo : Nat
  /-- unit at the local end of the queue -/
  unit : Nat
  /-- stopped | R234 -/
  stopped : Bool
  deriving DecidableEq, Repr

/-- A phase bound or running in a context slot (R191, Table 05-3). -/
structure Phase where
  num : Nat
  opid : Nat
  /-- DECL_MJ | R192 -/
  decl : Nat
  fabric : Bool
  /-- PREF_OP | 3 -/
  pref : Nat
  /-- ARGS words -/
  args : List (BitVec 64)
  /-- ARG_Q | 16 -/
  argQ : Nat
  /-- units by identifier, and those that have ended or stopped -/
  units : List Nat
  ended : List Nat
  /-- wired queues: (partition, queue) -/
  queues : List (Nat × Nat)
  timers : List Timer
  /-- rotation entries: (unit, program counter) -/
  rot : List (Nat × Nat)
  /-- admitted; instants of entering and of leaving the gate queue (ns); preference in effect at admission (PREF_MODE, PREF_OP) | R197 -/
  admitted : Bool
  enterAt : Nat
  admitAt : Nat
  slotPref : Nat × Nat
  /-- point in effect at admission | R286 -/
  kAdmit : Nat
  /-- time spent in HOLD since admission, ns, which its timers leave out | R195, R260 -/
  held : Nat
  /-- measured energy, pJ | R285 -/
  meas : Nat
  /-- units are stopping: status locked | R77 -/
  stopping : Bool
  /-- locked outcome: STATUS, DETAIL, UNIT, INFO0 | R185 -/
  outcome : Option (Nat × Nat × Nat × Nat)
  deriving DecidableEq, Repr

/-- A context slot's hidden state; STATE, LOST, PLAN_CTX, PREF and PHNUM live in HIF_CTX_STATc. -/
structure Ctx where
  /-- bound plan context record's units, by identifier | R167 -/
  units : List Nat
  /-- PART_MASK | 8 | Table 05-2 -/
  pmask : Nat
  /-- pool slots: (partition, first, count) -/
  pool : List (Nat × Nat × Nat)
  /-- queues owned | R167 -/
  queues : List (Nat × Nat)
  /-- ranges: image offset, module address, length, flags | R169 -/
  ranges : List (Nat × Nat × Nat × Nat)
  /-- N_PHASE, PHASE_TAB x 64 | Table 05-2 -/
  nPhase : Nat
  phaseTab : Nat
  /-- running phase -/
  phase : Option Phase
  /-- energy since binding, uJ, and phases settled | R196 -/
  energy : Nat
  settled : Nat
  /-- BIND operation in progress -/
  bindOp : Option Nat
  /-- UNBIND operations that wait for the slot to drain | R189 -/
  unbinds : List Nat
  deriving DecidableEq, Repr

/-- One history entry of the power controller (R287). -/
structure Hist where
  slot : Nat
  phase : Nat
  k : Nat
  watts : Nat
  us : Nat
  deriving DecidableEq, Repr

/-- The host interface beyond its registers. -/
structure HostIf where
  /-- ring pairs | 256 | R173 | reset ring -/
  rings : Tbl Ring
  /-- accepted operations in fetch order | at most 16,384 | R176 | none -/
  ops : List Op
  /-- round-robin position: ring, descriptors taken this turn | R175 | 0, 0 -/
  rrRing : Nat
  rrCnt : Nat
  /-- context slots | 64 | R188 | unbound -/
  ctx : Tbl Ctx
  /-- gate queue of context slots, oldest first | R192 | empty -/
  gateQ : List Nat
  /-- bucket level, uJ, signed | R192 | 0 -/
  level : Int
  /-- input energy since READY and the part not charged to a phase, uJ | R196 | 0 -/
  moduleUj : Nat
  unattrUj : Nat
  /-- other_w, W | R192, R285 | 0: input power of the last millisecond less the running phases' estimate -/
  otherW : Nat
  deriving DecidableEq, Repr

/-- A Fazar port beyond its registers (R208 to R217). -/
structure PortSt where
  /-- instants of DOWN entries, ns | R214 | none -/
  downs : List Nat
  /-- this port starts its PRBS31 test; far end agreed | R215 | false -/
  starter : Bool
  agreed : Bool
  /-- a test is due at this bring-up | R215 | false -/
  testDue : Bool
  /-- far end's test outcome received | R215 | none -/
  farPass : Option Bool
  /-- this end's test has passed and waits for the far end's result | R215 | false -/
  passed : Bool
  /-- TIME state heard on the port: DIST, root FA, ROOT_EPOCH, ROOTSEQ | R255 | none -/
  dist : Nat
  rootFa : Nat
  repoch : Nat
  rseq : Nat
  /-- ROOTSEQ advances on this port | R255 | false -/
  alive : Bool
  /-- stamp of the last TIME frame received, 0.5 ns units, t2 of the reply to it | R253 | none -/
  rx : Option Nat
  deriving DecidableEq, Repr

/-- A stream at its source NI (R230, R231). -/
structure StrOut where
  dst : Nat
  och : Nat
  nonce : Nat
  /-- 0 opening, 1 granted, 2 busy -/
  st : Nat
  next : Nat
  acked : Nat
  waiting : List Pkt
  /-- instant of the last packet of the stream, ns | R231 -/
  last : Nat
  deriving DecidableEq, Repr

/-- A reorder context at its destination NI (R230 to R232). -/
structure StrIn where
  src : Nat
  och : Nat
  part : Nat
  nonce : Nat
  /-- next SEQ to publish -/
  next : Nat
  /-- received and not yet published: SEQ, queue, slots -/
  got : List (Nat × Nat × Nat)
  /-- publications not yet acknowledged, and the instant of the oldest, ns | R231 -/
  unack : Nat
  unackAt : Nat
  /-- instant of the last packet of the stream, ns | R231 -/
  last : Nat
  deriving DecidableEq, Repr

/-- A reduction context (R248). -/
structure RedCtx where
  grp : Nat
  rseq : Nat
  sg : Nat
  fmt : Nat
  kids : List Nat
  localDone : Bool
  acc : List Byte
  opened : Nat
  deriving DecidableEq, Repr

/-- The Fazar block beyond its registers. -/
structure Fab where
  ports : Tbl PortSt
  /-- two banks | R236 | empty -/
  bank0 : Bank
  bank1 : Bank
  /-- link-state map of the hedgerow: 36 m + port marked down | R213 | none known down -/
  down : List Nat
  /-- packets delivered to this module and not yet taken | R233 | none -/
  inbox : List Pkt
  /-- packets that NIs and service cores have ready for the router, oldest first | R227 | none -/
  toSend : List Pkt
  outs : List StrOut
  ins : List StrIn
  reds : List RedCtx
  /-- totals received: group, last segment | R247 | none -/
  totals : List (Nat × Nat)
  /-- group credits returned by members: (group and queue, member, credit) | R245 | none -/
  gcred : List (Nat × Nat × Nat)
  /-- armed laying time | R238 | none -/
  armed : Option Nat
  /-- last membership renewal since reset, ns | R242 | none -/
  renewed : Option Nat
  /-- root role values: root FA, ROOT_EPOCH, ROOTSEQ | R255 | 0 -/
  rootFa : Nat
  repoch : Nat
  rseq : Nat
  /-- newest ROOT_EPOCH seen | R256 | none -/
  newest : Option Nat
  /-- consecutive exchanges below 10 ns and above 40 ns | R254 | 0 -/
  okRun : Nat
  badRun : Nat
  /-- correction that a LOCKED follower still slews in, ns | R254 | 0 -/
  slew : Int
  /-- last rate, ns per exchange period, that HOLDOVER holds | R254 | 0 -/
  rate : Int
  /-- FZ_TIME_HI latch | 32 | R442 | 0 -/
  hiLatch : BitVec 32
  deriving DecidableEq, Repr

/-- A blend or move in progress (R269). -/
structure Move where
  src : Nat
  dst : Nat
  /-- 0 VCORE rising, 1 settled wait over, s = blend step 1 to 16 -/
  step : Nat
  /-- suspended by a droop stretch | R274 -/
  paused : Bool
  deriving DecidableEq, Repr

/-- The power controller beyond its registers. -/
structure Power where
  /-- last ten input samples, W | R279 | none -/
  samples : List Nat
  /-- move in progress | R269 | none -/
  move : Option Move
  /-- VCORE, mV | R269 | OP7's fused voltage, 550 mV -/
  vcore : Nat
  /-- active VR_ALERT conditions | R275 | none -/
  alerts : List Nat
  /-- a forced state since, ns | R271 | none -/
  forcedAt : Option Nat
  /-- forced states have cleared and the point is not yet restored | R272 | false -/
  restoring : Bool
  /-- stretches whose DROOP_LONG is recorded, by die | R273 | none -/
  droopTold : List Nat
  /-- estimator gains in ppm of the fused default | R284 | 1,000,000 each -/
  gains : Tbl Nat
  /-- rejections in a row | R284 | 0 -/
  rejects : Nat
  /-- estimated power of the module, of its two compute dies and of the running phases, W | R283, R280 | 0 -/
  est : Nat
  estDie : List Nat
  runW : Nat
  /-- this millisecond so far: the running phases' energy in pJ, and the events' energy at fused default gains by class, in pJ | R192, R284 | 0 -/
  runAcc : Nat
  acc : List Nat
  /-- last 1,000 milliseconds, newest first: measured W and the sums of `acc` | R284 | none -/
  rows : List (Nat × List Nat)
  /-- this millisecond's sums of the three channels' readings at each hot spot, and the number of samples | R290 | 0 -/
  chSum : Tbl (Int × Int × Int)
  chCnt : Nat
  /-- this second's sums and counts of the hottest control temperature and of the input power | R298 | 0 -/
  tjSum : Int
  tjCnt : Nat
  pwSum : Nat
  pwCnt : Nat
  /-- array that loses cycles in the present excursion of a hot spot, by hot spot | R292 | none -/
  victim : Tbl (Option Nat)
  /-- input power and coolant heat differ since, ns, and the event is recorded | R300 | none, false -/
  flowBad : Option Nat
  flowTold : Bool
  /-- phase history, most recent first | R287 | empty -/
  hist : List Hist
  /-- scheduled ceiling: fabric time, point | R278 | none -/
  ceilAt : Option (Nat × Nat)
  /-- control temperatures of the last 80 us per hot spot, newest first, 1/8 C | R294 | none -/
  trace : Tbl (List Int)
  /-- hottest hot spot and inlet, 1/8 C | R288, R298 | 0 -/
  tj : Int
  tin : Int
  /-- seconds of R_th samples | R298 | 0 -/
  rthSecs : Nat
  /-- rainflow stack and direction | R301 | empty -/
  stack : List Int
  /-- R_th, in 10^-9 C/W | R298 | 30,000,000: the fused 0.0300 C/W -/
  rth : Nat
  /-- units withheld from rotation by the sweep: partition, kind, physical | R390 | none -/
  withheld : List (Nat × Nat × Nat)
  /-- outstanding rotation requests: partition -> unit | R293 | none -/
  rotReq : List Nat
  /-- inlet outside its range now | Table 07-11 | false -/
  inletOut : Bool
  /-- CLIP_LAG began, ns | R281 | 0 -/
  lagAt : Nat
  /-- start grants and release grants waiting on each die: (array key, start) | R87 | none -/
  grant0 : List (Nat × Bool)
  grant1 : List (Nat × Bool)
  deriving DecidableEq, Repr

/-- Bramble detector (R91): one wait edge with its age. -/
structure Edge where
  src : Nat
  dst : Nat
  w : Bool
  qpart : Nat
  q : Nat
  age : Nat
  deriving DecidableEq, Repr

/-- Monitors and the ladder. -/
structure Watch where
  /-- wait edges with ages, us | R91 | none -/
  edges : List Edge
  /-- cycles reported and still standing | R91 | none -/
  told : List (List Nat)
  /-- bramble actions due: slot, OPID of its phase, instant of the report in ns | R386 | none -/
  due : List (Nat × Nat × Nat)
  /-- counted rungs: (rung, unit or partition key, instant in ns) | R385 | none -/
  counts : List (Nat × Nat × Nat)
  /-- faults whose first rung is still to be taken: code of Table 10-4 and unit identifier, or partition in [15:13] | R384, R391 | none -/
  faults : List (Nat × Nat)
  deriving DecidableEq, Repr

/-- A recorder page in staging (R429). -/
structure Page where
  idx : Nat
  bytes : List Byte
  closed : Bool
  /-- instant of the page's first record, ns -/
  at_ : Nat
  deriving DecidableEq, Repr

/-- An open WRITE record that merges (R404). -/
structure Merge where
  target : Nat
  first : Nat
  last : Nat
  count : Nat
  res : Nat
  at_ : Nat
  deriving DecidableEq, Repr

/-- The event recorder (R425 to R433). -/
structure Rec where
  /-- next SEQ | 32 | R431 | 0 (DESIGN CHOICE 6: the region is empty) -/
  seq : Nat
  /-- staging pages, oldest first | at most 256 | R429 | none -/
  stage : List Page
  /-- token buckets per code | R428 | full -/
  tokens : Tbl Nat
  /-- BURST, RATE per code | R428 | 64, 16 -/
  cfg : Tbl (Nat × Nat)
  /-- drop counters per code | R428 | 0 -/
  drops : Tbl Nat
  /-- open WRITE records by source kind | R404 | none -/
  merge : Tbl (Option Merge)
  deriving DecidableEq, Repr

/-- A Worisy port's hidden state (R399). -/
structure WorPort where
  /-- last four requests: SEQ, CRC, response status and payload | R399 | none -/
  kept : List (Nat × Nat × Nat × List Byte)
  /-- unanswered (IN_PROGRESS) commands: SEQ, CMD | R399, R400 | none -/
  open_ : List (Nat × Nat)
  /-- notice sequence count | R397 | 0 -/
  notices : Nat
  /-- owner nonce and its instant | R436 | none -/
  nonce : Option (List Byte × Nat)
  deriving DecidableEq, Repr

/-- Firmware update (R413 to R423). -/
structure Upd where
  /-- UPD staging window | 15 MiB of 32-bit words | R416 | 0 -/
  staging : Tbl (BitVec 32)
  /-- armed activation: T_A, GROUP, N_MEMBERS, CONFIRM_S | R417 | none -/
  armed : Option (Nat × Nat × Nat × Nat)
  /-- ready votes received, by FA | R418 | none -/
  votes : List Nat
  /-- votes were enough | R418 | false -/
  voted : Bool
  /-- armed plan activation: T_A, slot | R424 | none -/
  planAt : Option (Nat × Nat)
  deriving DecidableEq, Repr

/-- Quickset, both roles (R361 to R367). -/
structure Qs where
  /-- source session in progress | R361 | none -/
  src : Option QsAnn
  /-- blocks the source has sent (tables first) | R362 | 0 -/
  sent : Nat
  /-- session counter | 16 | QS_ANNOUNCE | 0 -/
  session : Nat
  /-- session joined by this receiver | R361 | none -/
  ann : Option QsAnn
  /-- block bitmap: (TABLE, index) | R363 | none -/
  have_ : List (Bool × Nat)
  /-- quarters in staging: (TABLE, block, quarter) with bytes | R363 | none -/
  parts : List (Bool × Nat × Nat × List Byte)
  /-- staged image bytes of firmware sessions | R363 | none -/
  img : Tbl (BitVec 32)
  /-- blocks requested and not yet answered | R364 | none -/
  asked : List (Bool × Nat)
  deriving DecidableEq, Repr

/-- Security beyond registers (R438 to R440). -/
structure Sec where
  /-- IDE selective streams with keys | 4 | R440 | none -/
  ide : Tbl (List Byte)
  /-- measurement digests by index | R439 | none -/
  meas : Tbl (List Byte)
  deriving DecidableEq, Repr

/-- Something the module sends across its boundary. -/
inductive Out where
  | regData (src : Src) (words : List (BitVec 32))
  | memData (bytes : List Byte)
  | allOnes (len : Nat)
  | completerAbort
  | unsupportedRequest
  | hostWrite (addr : Nat) (bytes : List Byte)
  | entry (ring slot : Nat) (words : List (BitVec 32))
  | msix (vec : Nat)
  | worisy (port seq cmd status lgen : Nat) (payload : List Byte)
  | notice (port count code : Nat) (payload : List Byte)
  | packet (port : Nat) (k : Pkt)
  | linkFrame (port code : Nat) (fields : List Nat)
  | timeFrame (port dist rootFa repoch rseq t1 : Nat) (reply : Option (Nat × Nat))
  | svc (dst scope code : Nat) (fields : List Nat)
  | portIdle (port : Nat)
  | prbs (port : Nat)
  | spdm (resp : List Byte)
  deriving DecidableEq, Repr

/-- The machine. -/
structure State where
  clk : Clk
  nv : NonVol
  hs : HotSwap
  ctl : Ctl
  /-- the BAR0 register file, by register key: kind and indices (the lines of the register list) -/
  regs : Tbl (BitVec 32)
  /-- memory bytes over the 56-bit module address map | R126, R151 | nothing listed; an unlisted byte reads 0 (R151's zeros; vault DESIGN CHOICE 8) -/
  bytes : Tbl Byte
  mem : Mem
  vlt : Vault
  /-- logical arrays by 24 p + n | 192 -/
  arrs : Tbl Arr
  /-- general cores by 48 p + g | 384 -/
  cores : Tbl Core
  /-- streamers by 16 p + s | 128 -/
  strs : Tbl Str
  /-- queues by 1024 p + q | 8,192 -/
  ques : Tbl Que
  host : HostIf
  fab : Fab
  pw : Power
  watch : Watch
  rcd : Rec
  worA : WorPort
  worB : WorPort
  upd : Upd
  qs : Qs
  sec : Sec
  /-- MODEL'S OWN: what crossed the boundary, oldest first | empty (DESIGN CHOICE 10) -/
  out : List Out
  /-- MODEL'S OWN: commands waiting, first in first out | empty -/
  pending : List Instr
  deriving DecidableEq, Repr

/-- Why a step stops with a fault. The block has no stuck state: every fault that the spec describes sets flags, locks a
status or resets a part, and the machine goes on, so this type has no constructor and no command raises one (safe). -/
inductive Fault where
  deriving DecidableEq, Repr

/-- Why a command is refused. -/
inductive Refusal where
  /-- raised by no arm of `exec` in the finished model: an instruction without a meaning yet (safe) -/
  | notModelled (mnemonic : String)
  /-- raised by every meaning whose operands name no unit, port, ring or window of the module (`Instr.wf` false): no agent
  can send such a command, and the spec gives it no effect (safe) -/
  | malformed
  deriving DecidableEq, Repr

/-- An owner slot with no key. -/
def OwnerSlot.empty : OwnerSlot := ⟨[], false, false⟩

/-- The fuses of the modelled module (log entry 5). -/
def Fuses.init : Fuses :=
  { variant := 0, step := 1, serial := 1, opv := [850, 800, 760, 720, 680, 630, 590, 550],
    badArr := List.replicate 8 0, badCore := List.replicate 8 0, badStr := List.replicate 8 0, region := [], owner := [], svn := 0 }

/-- A firmware image that verifies, version 1, with no bytes recorded (log entry 6). -/
def FwImg.init (kind : Nat) : FwImg := { ok := true, version := 1, svn := 0, fmt := if kind = 1 then 1 else 0, kind := kind, words := [] }

/-- Boot NOR of a module from the factory (log entry 6). -/
def Nor.init : Nor :=
  { fails := 0, pending := false, counted := false, reason := 0, lastStep := 0, fenceMark := false, slotWord := .valid,
    slotR := FwImg.init 1, slotF := FwImg.init 1, coreR := FwImg.init 2, coreF := FwImg.init 2, training := none,
    updState := 0, updKind := 1, coreWord := .valid, repaired := [], confirmS := 600, fallback := false }

/-- The superblock of a module from the factory (R159; log entry 6). -/
def Super.init : Super :=
  { ok := true, active := 0, verA := false, verB := false, wear := 305000000, written := 0, life := [0, 0, 0], stack := [],
    clears := 0, holdupDone := true, lastSeq := none, pages := 0, firstSeq := 0, opsec := 0, pcc := 0, moduli := [] }

/-- An empty directory bank (Table 09-10). -/
def Bank.empty : Bank := ⟨[], [], [], []⟩

/-- The settings of Table 09-10: IDENT_EN 1, every other item 0, banks and history empty. -/
def Settings.init : Settings :=
  { regs := [(0x530060, 0x80000000)], bank0 := Bank.empty, bank1 := Bank.empty, ideReq := false, history := [], training := none,
    fmts := [1] }

/-- The last-cause latch that has never recorded a switch-off (Table 08-5). -/
def Latch.init : Latch := ⟨0, 0, 0⟩

/-- What survives loss of power, from the factory. -/
def NonVol.init : NonVol := ⟨Fuses.init, Nor.init, Super.init, Settings.init, Latch.init⟩

/-- The hot-swap controller of a mated, powered module (log entry 7). -/
def HotSwap.init : HotSwap :=
  { mated := true, epo := false, on := true, latched := false, tries := 0, rails := [0], holdCount := false,
    brownAt := 0, vinMin := 480, porSeen := false }

/-- Control state at the beginning of a start (HIF_BOOT_STATUS.STAGE resets to step 2). -/
def Ctl.init : Ctl :=
  { mode := .start, ret := .ready, rungs := [], mrstLow := false, link := false, doneTrain := false,
    doneTest := false, doneFw := false, doneLoad := false, refTries := 0, failed := false, band := 15, coreFw := none,
    fw := FwImg.init 1, waits := [], devs := [] }

/-- Memory status after reset. -/
def Mem.init : Mem :=
  { errs := [], stale := [], ceAt := [], hotRows := [], landed := [], badPages := [], scrub := [], lostCw := [], due := [] }

/-- The vault controller after a start (wear restored by R159). -/
def Vault.init : Vault := { wear := 305000000, written := 0, pend := 0, waiting := [], inst := none, held := false, life := none }

/-- The zero lane (R38). -/
def Lane.zero : Lane := ⟨0, 0⟩

/-- A free accumulator bank. -/
def Acc.free : Acc := { st := .free, lanes := [], fp := false, lsb := 0, pm := 0, kb := 0, held := false, order := 0 }

/-- A logical array after a partition reset (R95). -/
def Arr.init : Arr :=
  { b0 := 0, b1 := 0, l0 := 0, l1 := 0, seed := 0, cbFmt := none, cbEnt := [], bank0 := Acc.free, bank1 := Acc.free, obank0 := Acc.free,
    obank1 := Acc.free, tiles := [], outBuf := [], outQ := 0, startQ := 0, endQ := 0, len := 0, ctx := none, slope := .idle, duty := 16,
    rotReq := false, rotAt := none, fills := 0 }

/-- A general core after a reset (R122). -/
def Core.init : Core :=
  { x := [], v := [], epc := 0, ivbase := 0, ie := false, tcmp0 := 0, tcmp1 := 0, arm0 := false, arm1 := false, fired0 := false,
    fired1 := false, lmce31 := false, popped := [], acquired := [], qev := [], rotReq := false, shield := false, startQ := 0, endQ := 0,
    ctx := none, rotAt := none }

/-- Streamer progress at the start of a descriptor. -/
def StrRun.init : StrRun :=
  { reps := 0, pre := false, idxEnd := false, idx := [], idxRest := [], row := 0, inB := [], outB := [], moved := false }

/-- A streamer with no list. -/
def Str.init : Str := { list := 0, run := StrRun.init, startQ := 0, endQ := 0, ctx := none }

/-- A queue that no phase wires. -/
def Que.init : Que := { wr := 0, pub := 0, rd := 0, rel := 0, cr0 := 0, farFa := 0, farP := 0, farQ := 0, och := 0, owed := 0 }

/-- A ring pair after reset. -/
def Ring.init : Ring := { tail := 0, wraps := 0, phase := false, cqHead := 0, used := 0, unsig := 0, aborts := [] }

/-- An unbound context slot. -/
def Ctx.init : Ctx :=
  { units := [], pmask := 0, pool := [], queues := [], ranges := [], nPhase := 0, phaseTab := 0, phase := none, energy := 0,
    settled := 0, bindOp := none, unbinds := [] }

/-- The host interface after reset. -/
def HostIf.init : HostIf :=
  { rings := [], ops := [], rrRing := 0, rrCnt := 0, ctx := [], gateQ := [], level := 0, moduleUj := 0, unattrUj := 0, otherW := 0 }

/-- A port after reset. -/
def PortSt.init : PortSt :=
  { downs := [], starter := false, agreed := false, testDue := false, farPass := none, dist := 0, rootFa := 0, repoch := 0, rseq := 0,
    alive := false, passed := false, rx := none }

/-- The fabric block after reset. -/
def Fab.init : Fab :=
  { ports := [], bank0 := Bank.empty, bank1 := Bank.empty, down := [], inbox := [], toSend := [], outs := [], ins := [], reds := [], totals := [],
    gcred := [], armed := none, renewed := none, rootFa := 0, repoch := 0, rseq := 0, newest := none, okRun := 0, badRun := 0, slew := 0, rate := 0,
    hiLatch := 0 }

/-- The power controller after reset (R304). -/
def Power.init : Power :=
  { samples := [], move := none, vcore := 550, alerts := [], forcedAt := none, restoring := false, droopTold := [], gains := [], rejects := 0, est := 0, estDie := [0, 0], runW := 0, runAcc := 0,
    acc := [], rows := [], chSum := [], chCnt := 0, tjSum := 0, tjCnt := 0, pwSum := 0, pwCnt := 0, victim := [], flowBad := none, flowTold := false,
    hist := [],
    ceilAt := none, trace := [], tj := 0, tin := 0, rthSecs := 0, stack := [], rth := 30000000, withheld := [], rotReq := [],
    inletOut := false, lagAt := 0, grant0 := [], grant1 := [] }

/-- The monitors after reset. -/
def Watch.init : Watch := { edges := [], told := [], due := [], counts := [], faults := [] }

/-- The event recorder after a start with an empty region. -/
def Rec.init : Rec := { seq := 0, stage := [], tokens := [], cfg := [], drops := [], merge := [] }

/-- A Worisy port after power-on. -/
def WorPort.init : WorPort := { kept := [], open_ := [], notices := 0, nonce := none }

/-- No update in progress. -/
def Upd.init : Upd := { staging := [], armed := none, votes := [], voted := false, planAt := none }

/-- No quickset session. -/
def Qs.init : Qs := { src := none, sent := 0, session := 0, ann := none, have_ := [], parts := [], img := [], asked := [] }

/-- No IDE stream and no measurement. -/
def Sec.init : Sec := { ide := [], meas := [] }

/-- The module's clocks at power-on. -/
def Clk.init : Clk := { mono := 0, time := 0, seen := [], free := 0 }

/-- The volatile state at power-on reset over what survives it (R262, R341). -/
def State.powerOn (nv : NonVol) (hs : HotSwap) (out : List Out) (pending : List Instr) : State :=
  { clk := Clk.init, nv := nv, hs := hs, ctl := Ctl.init, regs := [], bytes := [], mem := Mem.init, vlt := Vault.init, arrs := [],
    cores := [], strs := [], ques := [], host := HostIf.init, fab := Fab.init, pw := Power.init, watch := Watch.init, rcd := Rec.init,
    worA := WorPort.init, worB := WorPort.init, upd := Upd.init, qs := Qs.init, sec := Sec.init, out := out, pending := pending }

/-- The module right after power-on reset: every register at its reset value, no memory listed, no command waiting. -/
def State.reset : State := State.powerOn NonVol.init HotSwap.init [] []

end Sys2Proof.Machine
end

