-- ==== Sys2Proof/Machine/Flags.lean ====
section
/-!
DEFINITION. The arithmetic and every flag it sets: block sums and terms (R30 to R35), residues (R52 to R55), lane resolution
(Table 01-9), rounding (R42), stochastic rounding (R43), scales (R44 to R46), codebook encoding (R27) and the FP32 path (R47 to R50).
-/

namespace Sys2Proof.Machine

/-! Special lane flags (Table 01-7). -/
abbrev LF.Q := 1
abbrev LF.PI := 2
abbrev LF.NI := 4
abbrev LF.PC := 8
abbrev LF.NC := 16

/-- A special lane: bits [127:112] hold 0x8000 (R34). -/
def laneSpecial (v : BitVec 128) : Bool := decide (v.toNat / 2 ^ 112 = 0x8000)

/-- Flags that a lane contributes: a finite lane contributes none (R35). -/
def laneFlags (v : BitVec 128) : Nat := if laneSpecial v then v.toNat % 32 else 0

/-- The special lane with the given flags, bits [111:5] zero (R34). -/
def specialLane (fl : Nat) : BitVec 128 := BitVec.ofNat 128 (0x8000 * 2 ^ 112 + fl % 32)

/-- Combining two lanes: 128-bit addition, or the flags' bitwise OR when either is special (R34, R35). -/
def laneAdd (a b : BitVec 128) : BitVec 128 :=
  if laneSpecial a || laneSpecial b then specialLane (laneFlags a ||| laneFlags b) else a + b

/-- Residue modulo 127 of an integer, as its mathematical residue (R53). -/
def res127 (x : Int) : Nat := (x % 127).toNat

/-- Value of a finite lane in units of 2^L. -/
def laneInt (v : BitVec 128) : Int := sx 128 v.toNat

/-- The residue comparison of R54 and R55: special lanes are not compared, 0 and 127 are equal. -/
def laneResidueOk (l : Lane) : Bool := laneSpecial l.v || res127 (laneInt l.v) == l.sh % 127

/-- Combining two lanes with their shadows (R35, R53). -/
def Lane.add (a b : Lane) : Lane := ⟨laneAdd a.v b.v, (a.sh + b.sh) % 127⟩

/-- Flags of one special product (Table 01-8); 0 for a product of finite elements. -/
def productFlags (a b : Elem) : Nat :=
  match a, b with
  | .nan, _ => LF.Q
  | _, .nan => LF.Q
  | .inf x, .inf y => if x = y then LF.PI else LF.NI
  | .inf x, .fin n m => if m = 0 then LF.Q else if x = n then LF.PI else LF.NI
  | .fin n m, .inf y => if m = 0 then LF.Q else if n = y then LF.PI else LF.NI
  | .fin _ _, .fin _ _ => 0

/-- Block sum V in units of 2^-32 (R30): each product is an integer multiple of 2^(qa + qb). -/
def blockSum (sh : Nat) : List Elem → List Elem → Int
  | a :: as, b :: bs => a.sig * b.sig * (2 ^ sh : Nat) + blockSum sh as bs
  | _, _ => 0

/-- Special flags of a block's products (Table 01-8). -/
def blockFlags : List Elem → List Elem → Nat
  | a :: as, b :: bs => productFlags a b ||| blockFlags as bs
  | _, _ => 0

/-- Weight of a product in the block-sum register: qa + qb + 32 (R52). -/
def prodShift (fx fw : Nat) : Nat := (quantum fx + quantum fw + 32).toNat

/-- The block shadow that the residue lane computes from the significands (R52). -/
def blockShadow (sh : Nat) : List Elem → List Elem → Nat
  | a :: as, b :: bs => (res127 a.sig * res127 b.sig * 2 ^ (sh % 7) + blockShadow sh as bs) % 127
  | _, _ => 0

/-- The comparison at the end of a block (R52, R55): the block shadow against the register modulo 127. `up` is an upset bit of the
72-bit register or, from 72 on, of the shadow. -/
def blockOk (sh : Nat) (a b : List Elem) (up : Option Nat) : Bool :=
  let v := blockSum sh a b
  let w := blockShadow sh a b
  match up with
  | none => res127 v == w % 127
  | some k =>
    if k < 72 then res127 (sx 72 (ux 72 v ^^^ 2 ^ k)) == w % 127 else res127 v == (w ^^^ 2 ^ ((k - 72) % 7)) % 127

/-- The comparisons of one 32-element chunk: one for its block sum, or one for each product of a BF16 or FP16 pairing (R52, Table 01-11). -/
def chunkOk (sh : Nat) (fp : Bool) (a b : Blk) (up : Option Nat) : Bool :=
  if fp then
    ((List.zip a.es b.es).zipIdx).all fun e => blockOk 0 [e.1.1] [e.1.2] (up.bind fun k => if k / 128 = e.2 then some (k % 128) else none)
  else blockOk sh a.es b.es up

/-- Outcome of one term: the lane it adds with its shadow, and whether bits were discarded or the term clamped. -/
structure Term where
  add : Lane
  inexact : Bool
  clamp : Bool
  deriving DecidableEq, Repr

/-- The term T = V x 2^E in a lane of LSB 2^L (R31 to R33, R53). -/
def termOf (v : Int) (e l : Int) : Term :=
  let d := e - 32 - l
  if v = 0 then ⟨Lane.zero, false, false⟩
  else if 0 ≤ d then
    let k := d.toNat
    if 111 < k ∨ 2 ^ 111 ≤ v.natAbs * 2 ^ k then ⟨⟨specialLane (if v < 0 then LF.NC else LF.PC), 0⟩, false, true⟩
    else ⟨⟨BitVec.ofNat 128 (ux 128 (v * (2 ^ k : Nat))), res127 v * 2 ^ (k % 7) % 127⟩, false, false⟩
  else
    let k := (-d).toNat
    let t := v / (2 ^ k : Nat)
    let low := v - t * (2 ^ k : Nat)
    if 2 ^ 111 ≤ t.natAbs then ⟨⟨specialLane (if v < 0 then LF.NC else LF.PC), 0⟩, low ≠ 0, true⟩
    else ⟨⟨BitVec.ofNat 128 (ux 128 t), res127 (((res127 v : Nat) : Int) - (res127 low : Nat)) * 2 ^ ((7 - k % 7) % 7) % 127⟩, low ≠ 0, false⟩

/-- One block of one cell: special products set flags, else the exact block sum is placed (R31, Table 01-8). The spec gives a NaN or
infinite element and an element of a block of scale 0xFF no significand: here it is 0, in the sum and in the shadow (DESIGN CHOICE,
log entry 102). -/
def cellBlock (fx fw : Nat) (l : Int) (a b : Blk) : Term :=
  let fl := if a.sc = 255 ∨ b.sc = 255 then LF.Q else blockFlags a.es b.es
  let t := termOf (blockSum (prodShift fx fw) a.es b.es) ((a.sc : Int) + b.sc - 254) l
  if fl = 0 then t
  else if a.sc = 255 ∨ b.sc = 255 then ⟨⟨specialLane fl, 0⟩, false, false⟩
  else { t with add := ⟨laneAdd t.add.v (specialLane fl), t.add.sh⟩ }

/-- The blocks of one reduction unit added to a lane, in order; with the flags INEXACT_LOW and CLAMP. -/
def cellUnit (fx fw : Nat) (l : Int) : List Blk → List Blk → Lane × Bool × Bool → Lane × Bool × Bool
  | a :: as, b :: bs, (x, i, c) =>
    let t := cellBlock fx fw l a b
    cellUnit fx fw l as bs (x.add t.add, i || t.inexact, c || t.clamp)
  | _, _, r => r

/-! Rounding. -/

/-- Rounding modes (R42); SR carries its 16-bit random value. -/
inductive Rnd where
  | rne | rtz
  | sr (r : Nat)
  deriving DecidableEq, Repr

/-- Round m * 2^e, for m ≥ 0, to a multiple n of 2^u (R42). -/
def roundTo (md : Rnd) (m : Nat) (e u : Int) : Nat :=
  if u ≤ e then m * 2 ^ (e - u).toNat
  else
    let p := 2 ^ (u - e).toNat
    let n := m / p
    let r := m % p
    match md with
    | .rne => if p < 2 * r then n + 1 else if 2 * r < p then n else if n % 2 = 0 then n else n + 1
    | .rtz => n
    | .sr x => if 65536 ≤ r * 65536 / p + x then n + 1 else n

/-- floor(log2 m) for m > 0. -/
def ilog2 (m : Nat) : Nat := Nat.log2 m

/-- A magnitude rounded onto a floating-point grid: the significand n and quantum exponent u with n < 2^(mb+1) (R41, R42). -/
def roundFp (l : FpLayout) (md : Rnd) (m : Nat) (e : Int) : Nat × Int :=
  let qmin : Int := 1 - (l.bias : Int) - l.mb
  let u := max ((ilog2 m : Int) + e - l.mb) qmin
  let n := roundTo md m e u
  if n = 2 ^ (l.mb + 1) then (2 ^ l.mb, u + 1) else (n, u)

/-- Exponent field and mantissa of a rounded magnitude, as one number without the sign; it may exceed the format. -/
def packFp (l : FpLayout) (n : Nat) (u : Int) : Nat :=
  let qmin : Int := 1 - (l.bias : Int) - l.mb
  if n < 2 ^ l.mb then n else ((u - qmin).toNat + 1) * 2 ^ l.mb + (n - 2 ^ l.mb)

/-- Largest finite magnitude bits of a floating-point format (Table 01-1). -/
def maxFinite (f : Nat) : Nat :=
  let l := fpLayout f
  if f = F.E4M3 then 0x7E else if hasInf f then (2 ^ l.eb - 1) * 2 ^ l.mb - 1 else 2 ^ (l.eb + l.mb) - 1

/-- The sign bit's weight. -/
def signBit (f : Nat) : Nat := 2 ^ ((fpLayout f).eb + (fpLayout f).mb)

/-- NaN encoding with sign 0 and mantissa all ones (R46). -/
def nanBits (f : Nat) : Nat := signBit f - 1

/-- Infinity's bits without the sign. -/
def infBits (f : Nat) : Nat := (2 ^ (fpLayout f).eb - 1) * 2 ^ (fpLayout f).mb

/-- An exact value or a special, before encoding: (-1)^neg m 2^e, a zero being +0 unless `neg`. -/
inductive FV where
  | nan
  | inf (neg : Bool)
  | fin (neg : Bool) (m : Nat) (e : Int)
  deriving DecidableEq, Repr

/-- Value of an element of format `f`. -/
def Elem.val (f : Nat) : Elem → FV
  | .nan => .nan
  | .inf n => .inf n
  | .fin n m => .fin n m (quantum f)

/-- IEEE result in BF16, FP16 or FP32: rounding in RNE overflows to infinity, RTZ stops at the largest finite value; a zero keeps
its sign; a NaN is the format's NaN of R98. -/
def ieeeEncode (f : Nat) (md : Rnd) (x : FV) : Nat :=
  let l := fpLayout f
  match x with
  | .nan => nanBits f
  | .inf n => infBits f + (if n then signBit f else 0)
  | .fin n m e =>
    if m = 0 then (if n then signBit f else 0)
    else
      let r := roundFp l md m e
      let b := packFp l r.1 r.2
      (if infBits f ≤ b then (match md with | .rtz => infBits f - 1 | _ => infBits f) else b) + (if n then signBit f else 0)

/-- Value of IEEE bits. -/
def ieeeVal (f x : Nat) : FV := (decodeFp f x).val f

/-- Exact product. -/
def FV.mul : FV → FV → FV
  | .nan, _ => .nan
  | _, .nan => .nan
  | .inf a, .inf b => .inf (a != b)
  | .inf a, .fin b m _ => if m = 0 then .nan else .inf (a != b)
  | .fin a m _, .inf b => if m = 0 then .nan else .inf (a != b)
  | .fin a m e, .fin b n k => .fin (a != b) (m * n) (e + k)

/-- Exact sum; equal magnitudes of opposite sign give +0, and -0 + -0 gives -0. -/
def FV.add : FV → FV → FV
  | .nan, _ => .nan
  | _, .nan => .nan
  | .inf a, .inf b => if a = b then .inf a else .nan
  | .inf a, .fin _ _ _ => .inf a
  | .fin _ _ _, .inf b => .inf b
  | .fin a m e, .fin b n k =>
    let u := min e k
    let x : Int := (if a then -1 else 1) * ((m * 2 ^ (e - u).toNat : Nat) : Int) + (if b then -1 else 1) * ((n * 2 ^ (k - u).toNat : Nat) : Int)
    if x = 0 then .fin (a && b) 0 u else .fin (decide (x < 0)) x.natAbs u

/-- Negation. -/
def FV.neg : FV → FV
  | .nan => .nan
  | .inf a => .inf (!a)
  | .fin a m e => .fin (!a) m e

/-- FP32 addition in RNE (R48). -/
def f32add (a b : Nat) : Nat := ieeeEncode F.FP32 .rne ((ieeeVal F.FP32 a).add (ieeeVal F.FP32 b))

/-- One product of the BF16 and FP16 path, in FP32 (R47). -/
def f32prod (fx fw : Nat) (a b : Elem) : Nat := ieeeEncode F.FP32 .rne ((a.val fx).mul (b.val fw))

/-- One level of the fixed binary tree (R48, R99). -/
def treeLevel (add : Nat → Nat → Nat) : List Nat → List Nat
  | a :: b :: t => add a b :: treeLevel add t
  | l => l

/-- The fixed binary tree over at most 2^n values (R48, R99). -/
def treeSum (add : Nat → Nat → Nat) : Nat → List Nat → Nat
  | 0, l => l.headD 0
  | n + 1, l => treeSum add n (treeLevel add l)

/-- A 32-element chunk of K added to the FP32 running sum (R48). -/
def fpChunk (fx fw : Nat) (run : Nat) (a b : Blk) : Nat :=
  f32add run (treeSum f32add 5 (List.zipWith (f32prod fx fw) a.es b.es))

/-- The chunks of one reduction unit added to a running sum, in increasing k (R48). -/
def fpUnit (fx fw : Nat) : List Blk → List Blk → Nat → Nat
  | a :: as, b :: bs, r => fpUnit fx fw as bs (fpChunk fx fw r a b)
  | _, _, r => r

/-! Resolution of a lane (Table 01-9). -/

/-- Result before encoding; `val` is the exact value n in units of 2^L. -/
inductive Res where
  | nan
  | inf (neg : Bool)
  | sat (neg : Bool)
  | val (n : Int)
  deriving DecidableEq, Repr

/-- Table 01-9. -/
def resolve (v : BitVec 128) : Res :=
  if laneSpecial v then
    let fl := laneFlags v
    let b i := decide (fl / 2 ^ i % 2 = 1)
    if b 0 ∨ (b 1 ∧ b 2) ∨ (b 3 ∧ b 4) ∨ fl = 0 then .nan
    else if b 1 then .inf false
    else if b 2 then .inf true
    else .sat (b 4)
  else
    let n := laneInt v
    let top := v.toNat / 2 ^ 111
    if top = 0 ∨ top = 2 ^ 17 - 1 then .val n else .sat (decide (n < 0))

/-- Resolution of an FP32 running sum, in units of 2^-149 (R50). -/
def resolveFp (x : Nat) : Res :=
  match decodeFp F.FP32 x with
  | .nan => .nan
  | .inf n => .inf n
  | .fin n m => .val (if n then -(m : Int) else m)

/-- FP32 running sum that INIT load takes from a lane of LSB 2^L (R48). -/
def lane32 (v : BitVec 128) (l : Int) : Nat :=
  match resolve v with
  | .nan => nanBits F.FP32
  | .inf n => infBits F.FP32 + (if n then signBit F.FP32 else 0)
  | .sat n => infBits F.FP32 + (if n then signBit F.FP32 else 0)
  | .val n => ieeeEncode F.FP32 .rne (.fin (decide (n < 0)) n.natAbs l)

/-! Output encoding. -/

/-- PART_ARR_EXC flags that an encoding sets. -/
structure Exc where
  nanBlock : Bool
  nanOut : Bool
  infSat : Bool
  sat : Bool
  deriving DecidableEq, Repr

/-- No flag. -/
def Exc.none : Exc := ⟨false, false, false, false⟩

/-- Flags of two encodings together. -/
def Exc.or (a b : Exc) : Exc := ⟨a.nanBlock || b.nanBlock, a.nanOut || b.nanOut, a.infSat || b.infSat, a.sat || b.sat⟩

/-- Largest finite magnitude with a sign, as element bits (R41). -/
def satBits (f : Nat) (neg : Bool) : Nat :=
  if f = F.INT8 then (if neg then 128 else 127)
  else if f = F.INT4 then (if neg then 8 else 7)
  else maxFinite f + (if neg then signBit f else 0)

/-- Encode the exact value n 2^e into format `f` (R41, R42); true when it saturates. -/
def encodeVal (f : Nat) (md : Rnd) (n : Int) (e : Int) : Nat × Bool :=
  if n = 0 then (0, false)
  else if isInt f then
    let r := roundTo md n.natAbs e 0
    let top := if n < 0 then 2 ^ (elemBits f - 1) else 2 ^ (elemBits f - 1) - 1
    if top < r then (satBits f (decide (n < 0)), true)
    else (ux (elemBits f) (if n < 0 then -(r : Int) else r), false)
  else
    let r := roundFp (fpLayout f) md n.natAbs e
    let b := packFp (fpLayout f) r.1 r.2
    if maxFinite f < b then (satBits f (decide (n < 0)), true)
    else (b + (if n < 0 then signBit f else 0), false)

/-- Encode one result at block exponent X (R41, R44, R46): element bits and flags. -/
def encodeRes (f : Nat) (md : Rnd) (l x : Int) (r : Res) : Nat × Exc :=
  match r with
  | .nan => (nanBits f, { Exc.none with nanOut := true })
  | .inf n =>
    if hasInf f then (infBits f + (if n then signBit f else 0), Exc.none) else (satBits f n, { Exc.none with infSat := true })
  | .sat n => (satBits f n, { Exc.none with sat := true })
  | .val n => let p := encodeVal f md n (l - x); (p.1, { Exc.none with sat := p.2 })

/-- Largest |n| among the results of row 7; 0 when there is none (R44). -/
def maxVal : List Res → Nat
  | [] => 0
  | .val n :: t => max n.natAbs (maxVal t)
  | _ :: t => maxVal t

/-- Clamp to -127 .. 127. -/
def clampX (x : Int) : Int := max (-127) (min 127 x)

/-- Computed block exponent X for results in units of 2^L (R44). -/
def blockX (emax l : Int) (rs : List Res) : Int :=
  let m := maxVal rs
  if m = 0 then -127 else clampX ((ilog2 m : Int) + l - emax)

/-- A result is NaN. -/
def Res.isNan : Res → Bool
  | .nan => true
  | _ => false

/-- Encode a block of 32 results in a scaled format: element bits, scale byte, flags (R44 to R46). `fixX` is the fixed exponent. A
NaN block sets NAN_BLOCK alone: R46 does not say whether its saturated and infinite results, written as 0, set SAT or INF_SAT too (DESIGN
CHOICE, log entry 103). -/
def encodeBlock (f : Nat) (mds : List Rnd) (l : Int) (fixX : Option Int) (rs : List Res) : List Nat × Nat × Exc :=
  let x := match fixX with | some x => x | none => blockX (emaxOf f) l rs
  if rs.any Res.isNan ∧ !hasNan f then (List.replicate rs.length 0, 255, { Exc.none with nanBlock := true })
  else
    let es := List.zipWith (fun md r => encodeRes f md l x r) mds rs
    (es.map (·.1), (127 + x).toNat, es.foldl (fun a e => a.or e.2) Exc.none)

/-- Pack element bits into bytes (R19). -/
def packRun (w : Nat) (es : List Nat) : Nat := es.foldr (fun e a => e % 2 ^ w + 2 ^ w * a) 0

/-- Random value of element (i, j) (R43). -/
def srBits (seed tag i j : Nat) : Nat :=
  let m := 2 ^ 64
  let x := (seed ^^^ tag * 65536 ^^^ i * 256 ^^^ j) % m
  let x := x ^^^ (x / 2 ^ 33)
  let x := x * 0xFF51AFD7ED558CCD % m
  let x := x ^^^ (x / 2 ^ 33)
  let x := x * 0xC4CEB9FE1A85EC53 % m
  let x := x ^^^ (x / 2 ^ 33)
  x % 65536

/-- Rounding mode of element (i, j) for RND (Table 02-7). -/
def rndOf (rnd seed tag i j : Nat) : Rnd := if rnd = 0 then .rne else if rnd = 1 then .rtz else .sr (srBits seed tag i j)

/-! Codebook encoding (R27). -/

/-- Values of the entries: significands in units of 2^q. -/
def entryVals (f : Nat) (ents : List Byte) : List Int :=
  (List.range (2 ^ cbWidth f)).map fun i => (decodeElem (cbEntFmt f) (cbEntry f ents i)).sig

/-- Index of the entry nearest to n 2^a, entries in units of 2^q; the lower index wins a tie. -/
def nearestEnt (n : Int) (a q : Int) (es : List Int) : Nat :=
  let u := min a q
  let x := n * (2 ^ (a - u).toNat : Nat)
  let dist e := (x - e * (2 ^ (q - u).toNat : Nat)).natAbs
  ((List.range es.length).foldl (fun (best : Nat × Nat) i =>
    let d := dist (es.getD i 0)
    if i = 0 ∨ d < best.2 then (i, d) else best) (0, 0)).1

/-- Index of the entry of largest magnitude among those accepted by `ok`, the lower index on a tie; none when none is accepted. -/
def largestEnt (ok : Int → Bool) (es : List Int) : Option Nat :=
  (List.range es.length).foldl (fun best i =>
    if ok (es.getD i 0) then
      match best with
      | none => some i
      | some b => if (es.getD b 0).natAbs < (es.getD i 0).natAbs then some i else some b
    else best) none

/-- Index that one result takes among the entries `es`, some of them nonzero, in units of 2^q at block exponent x (R27); a NaN result takes 0. -/
def cbIndex (es : List Int) (q l x : Int) (r : Res) : Nat × Exc :=
  let top := (largestEnt (fun e => decide (e ≠ 0)) es).getD 0
  let big (neg : Bool) : Nat := (largestEnt (fun e => if neg then decide (e < 0) else decide (0 < e)) es).getD top
  match r with
  | .val n => (nearestEnt n (l - x) q es, Exc.none)
  | .inf n => (big n, { Exc.none with sat := true })
  | .sat n => (big n, { Exc.none with sat := true })
  | .nan => (0, Exc.none)

/-- Encode a record's 256 results (R27): indices, SCALE byte, flags. -/
def encodeRecord (f : Nat) (ents : List Byte) (l : Int) (rs : List Res) : List Nat × Nat × Exc :=
  let es := entryVals f ents
  let q := quantum (cbEntFmt f)
  if rs.any Res.isNan then (List.replicate rs.length 0, 255, { Exc.none with nanBlock := true })
  else match largestEnt (fun e => decide (e ≠ 0)) es with
    | none => (List.replicate rs.length 0, 0, Exc.none)
    | some b =>
      let emax : Int := (ilog2 (es.getD b 0).natAbs : Int) + q
      let x := blockX emax l rs
      let out := rs.map (cbIndex es q l x)
      (out.map (·.1), (127 + x).toNat, out.foldl (fun a e => a.or e.2) Exc.none)

/-- Bytes of one codebook record (Table 01-3). -/
def recordOf (f : Nat) (ents : List Byte) (sc : Nat) (idx : List Nat) : List Byte :=
  [BitVec.ofNat 8 (cbHeader f), BitVec.ofNat 8 sc] ++ ents.take (cbEntBytes f) ++ leBytes (32 * cbWidth f) (packRun (cbWidth f) idx)

/-- A zero codebook lane (R85). -/
def zeroRecord (f : Nat) : List Byte := padTo (cbRecBytes f) [BitVec.ofNat 8 (cbHeader f)]

end Sys2Proof.Machine
end

