-- ==== Sys2Proof/Machine/Codes.lean ====
section
/-!
DEFINITION. Check codes: the CRCs of R218 and R413, and the Reed-Solomon symbol code of R135 to R138.
-/

namespace Sys2Proof.Machine

/-- One left-shift step of the CRC-16 with polynomial 0x1021. -/
def crc16Step : Nat → Nat → Nat
  | 0, c => c
  | n + 1, c => crc16Step n (if c / 32768 % 2 = 1 then (c * 2 % 65536) ^^^ 0x1021 else c * 2 % 65536)

/-- CRC-16 of R218 over bytes, from register value `c`. -/
def crc16From : Nat → List Byte → Nat
  | c, [] => c
  | c, b :: bs => crc16From (crc16Step 8 (c ^^^ (b.toNat * 256))) bs

/-- CRC-16 of R218: initial value 0xFFFF, no reflection, no final exclusive-or. -/
def crc16 (bs : List Byte) : Nat := crc16From 0xFFFF bs

/-- One right-shift step of a reflected CRC-32 with polynomial `p`. -/
def crc32Step (p : Nat) : Nat → Nat → Nat
  | 0, c => c
  | n + 1, c => crc32Step p n (if c % 2 = 1 then (c / 2) ^^^ p else c / 2)

/-- Reflected CRC-32 over bytes from register value `c`. -/
def crc32From (p : Nat) : Nat → List Byte → Nat
  | c, [] => c
  | c, b :: bs => crc32From p (crc32Step p 8 (c ^^^ b.toNat)) bs

/-- Packet CRC-32 of R218: IEEE 802.3 polynomial 0x04C1_1DB7 reflected, initial and final all ones. -/
def crc32 (bs : List Byte) : Nat := crc32From 0xEDB88320 0xFFFFFFFF bs ^^^ 0xFFFFFFFF

/-- CRC-32C: Castagnoli polynomial reflected, initial and final all ones (log entry 18). -/
def crc32c (bs : List Byte) : Nat := crc32From 0x82F63B78 0xFFFFFFFF bs ^^^ 0xFFFFFFFF

/-- Multiplication by alpha in GF(2^8) with x^8 + x^4 + x^3 + x^2 + 1 (R135). -/
def gfAlpha (x : Nat) : Nat := if x * 2 < 256 then x * 2 else (x * 2 - 256) ^^^ 0x1D

/-- Multiplication by alpha^k. -/
def gfPow : Nat → Nat → Nat
  | 0, x => x
  | k + 1, x => gfPow k (gfAlpha x)

/-- Product in GF(2^8) (R135): the sum of a alpha^k over the bits of b. -/
def gfMul (a b : Nat) : Nat := (List.range 8).foldl (fun v k => if b / 2 ^ k % 2 = 1 then v ^^^ gfPow k a else v) 0

/-- Generator g(x) = (x + 1)(x + alpha) ... of `c` factors, highest coefficient first (Table 04-7). -/
def rsGen : Nat → List Nat
  | 0 => [1]
  | c + 1 => List.zipWith (· ^^^ ·) (rsGen c ++ [0]) (0 :: (rsGen c).map (gfMul (gfPow c 1)))

/-- Check bytes c0, c1, ... of a data block: the remainder of D(x) x^c divided by g(x) (Table 04-7); 4 of them in DRAM, 2 in SRAM. -/
def rsCheck (c : Nat) (data : List Byte) : List Byte :=
  let g := (rsGen c).drop 1
  (data.foldl (fun r d =>
    let f := r.headD 0 ^^^ d.toNat
    List.zipWith (· ^^^ ·) (r.drop 1 ++ [0]) (g.map (gfMul f))) (List.replicate c 0)).map (BitVec.ofNat 8)

/-- The codeword of a data block by positions: byte i at position n + c - 1 - i of its n data and c check bytes (Table 04-7). -/
def rsWord (c : Nat) (data : List Byte) : List (Nat × Byte) :=
  ((data ++ rsCheck c data).reverse.zipIdx).map fun e => (e.2, e.1)

/-- Syndrome S_j of an error pattern given as (position, value) pairs: the sum of e alpha^(j k) (R136). A stored codeword is
`rsWord` of its data plus its error pattern and the code is linear, so these are the syndromes of the stored codeword: State holds the pattern alone. -/
def syndrome (j : Nat) : List (Nat × Byte) → Nat
  | [] => 0
  | (k, e) :: t => gfPow (j * k) e.toNat ^^^ syndrome j t

/-- The position k below `n` with b = a alpha^k, searched from `k` on. -/
def gfFind (a b : Nat) : Nat → Nat → Option Nat
  | 0, _ => none
  | n + 1, k => if gfPow k a = b then some k else gfFind a b n (k + 1)

/-- What a decoder reports. -/
inductive Dec where
  | clean
  | fix (k e : Nat)
  | bad
  deriving DecidableEq, Repr

/-- The DRAM decoder of RS(68,64) (R137). -/
def decDram (e : List (Nat × Byte)) : Dec :=
  let s0 := syndrome 0 e
  let s1 := syndrome 1 e
  let s2 := syndrome 2 e
  let s3 := syndrome 3 e
  if s0 = 0 ∧ s1 = 0 ∧ s2 = 0 ∧ s3 = 0 then .clean
  else if s0 = 0 then .bad
  else match gfFind s0 s1 68 0 with
    | none => .bad
    | some k => if gfPow k s1 = s2 ∧ gfPow k s2 = s3 then .fix k s0 else .bad

/-- The SRAM decoder of RS(34,32) (R138). -/
def decSram (e : List (Nat × Byte)) : Dec :=
  let s0 := syndrome 0 e
  let s1 := syndrome 1 e
  if s0 = 0 ∧ s1 = 0 then .clean
  else if s0 = 0 then .bad
  else match gfFind s0 s1 34 0 with
    | none => .bad
    | some k => .fix k s0

/-- Add (exclusive-or) value `v` at position `k` of an error pattern. -/
def errAdd (k : Nat) (v : Byte) : List (Nat × Byte) → List (Nat × Byte)
  | [] => if v = 0 then [] else [(k, v)]
  | (j, w) :: t => if j = k then (if w ^^^ v = 0 then t else (j, w ^^^ v) :: t) else (j, w) :: errAdd k v t

end Sys2Proof.Machine
end

