-- ==== Sys2Proof/Machine/Ops.lean ====
section
/-!
DEFINITION. The primitive effects of the model, the only things that change a state; the action type `M`, whose results are by
their type states that primitive effects reach; and the named operations over registers, time and tables.
-/

namespace Sys2Proof.Machine

/-- Word of a register as State holds it. -/
def regWord (s : State) (k : RegKind) (ix : List Nat) : Word :=
  tget (BitVec.ofNat 32 (resetWord k ix)) s.regs (regKey k ix)

/-- Value of a register field. -/
def State.rd (s : State) (f : Fld) : Nat := fget (regWord s f.k f.ix).toNat f.lo f.w

/-- R3, R267, R412: hardware keeps the clip levels at or below the fused continuous ceiling and every operating point at or
below (numerically at or above) the fused highest point. -/
def clampWord (variant : Nat) (k : RegKind) (x : Nat) : Nat :=
  match k with
  | .PWR_CLIP_IN =>
    fset (fset x 16 16 (min (fget x 16 16) (Config.contCeiling variant))) 0 16 (min (fget x 0 16) (Config.contCeiling variant))
  | .PWR_CLIP => fset x 0 16 (min (fget x 0 16) (Config.contCeiling variant))
  | .PWR_STAT =>
    fset (fset x 16 3 (max (fget x 16 3) (Config.topPoint variant))) 13 3 (max (fget x 13 3) (Config.topPoint variant))
  | .PWR_OP => fset x 29 3 (max (fget x 29 3) (Config.topPoint variant))
  | _ => x

/-- The word that a write of field `f` leaves: other fields kept, RSV bits 0 (R9), fused ceilings kept (R3). -/
def regNew (variant : Nat) (old : Nat) (f : Fld) (v : Nat) : Nat :=
  (clampWord variant f.k (fset old f.lo f.w v)) &&& regMask f.k

/-- Take the interval [a, a + n) out of the stale ranges. -/
def staleSub (a n : Nat) : List (Nat × Nat × Nat) → List (Nat × Nat × Nat)
  | [] => []
  | (b, m, e) :: t =>
    if a + n ≤ b ∨ b + m ≤ a then (b, m, e) :: staleSub a n t
    else (if b < a then [(b, a - b, e)] else []) ++ (if a + n < b + m then [(a + n, b + m - (a + n), e)] else []) ++ staleSub a n t

/-- The primitive effects. Every command's effect is a run of these. -/
inductive Eff where
  /-- set a register field -/
  | reg (f : Fld) (v : Nat)
  /-- return the registers whose kind and indices satisfy the test to their reset values -/
  | regsReset (drop : RegKind → List Nat → Bool)
  /-- store bytes; they replace stale contents and stored symbol errors of whole codewords are the caller's concern -/
  | write (a : Nat) (bs : List Byte)
  /-- zero a range with valid check bytes (R151) -/
  | wipe (lo hi : Nat)
  | mem (f : Mem → Mem)
  /-- the vault controller; its wear counter never passes the ceiling (R157) -/
  | vlt (f : Vault → Vault)
  | arr (k : Nat) (f : Arr → Arr)
  | core (k : Nat) (f : Core → Core)
  | str (k : Nat) (f : Str → Str)
  | que (k : Nat) (f : Que → Que)
  /-- clear the units and queues of partition `p` -/
  | unitsReset (p : Nat)
  /-- let time pass, in ns -/
  | pass (ns : Nat)
  /-- set fabric time -/
  | setTime (t : BitVec 64)
  /-- note the instant of a timed rule -/
  | seen (key : Nat) (at_ : Nat)
  /-- draw from the free-value counter -/
  | draw
  | hs (f : HotSwap → HotSwap)
  | ctl (f : Ctl → Ctl)
  | host (f : HostIf → HostIf)
  | fab (f : Fab → Fab)
  | pw (f : Power → Power)
  | watch (f : Watch → Watch)
  | rcd (f : Rec → Rec)
  | wor (b : Bool) (f : WorPort → WorPort)
  | upd (f : Upd → Upd)
  | qs (f : Qs → Qs)
  | sec (f : Sec → Sec)
  | nor (f : Nor → Nor)
  | super (f : Super → Super)
  | settings (f : Settings → Settings)
  | latch (f : Latch → Latch)
  /-- blow an owner key slot (R435, R436): a blown slot is never written again -/
  | ownerBlow (slot : Nat) (digest : List Byte)
  /-- blow an owner slot's REVOKED bit (R437) -/
  | ownerRevoke (slot : Nat)
  /-- blow security version fuses up to `n` (R415) -/
  | svnBlow (n : Nat)
  /-- send something across the boundary -/
  | out (o : Out)
  /-- loss of every volatile part (R262, R341) -/
  | por

/-- One primitive effect on a state. The queue of waiting commands is in no effect's reach. -/
def apply (e : Eff) (s : State) : State :=
  match e with
  | .reg f v =>
    { s with
      regs := tset (BitVec.ofNat 32 (resetWord f.k f.ix)) s.regs (regKey f.k f.ix)
        (BitVec.ofNat 32 (regNew s.nv.fuses.variant (regWord s f.k f.ix).toNat f v)) }
  | .regsReset d => { s with regs := s.regs.filter (fun e => !d (keyKind e.1) (keyIx e.1)) }
  | .write a bs => { s with bytes := twrite s.bytes a bs, mem := { s.mem with stale := staleSub a bs.length s.mem.stale } }
  | .wipe lo hi =>
    { s with bytes := tclear lo hi s.bytes, mem := { s.mem with errs := tclear lo hi s.mem.errs, stale := staleSub lo (hi - lo) s.mem.stale } }
  | .mem f => { s with mem := f s.mem }
  | .vlt f => { s with vlt := { f s.vlt with wear := min (f s.vlt).wear Config.wearCeiling } }
  | .arr k f => { s with arrs := tset Arr.init s.arrs k (f (tget Arr.init s.arrs k)) }
  | .core k f => { s with cores := tset Core.init s.cores k (f (tget Core.init s.cores k)) }
  | .str k f => { s with strs := tset Str.init s.strs k (f (tget Str.init s.strs k)) }
  | .que k f => { s with ques := tset Que.init s.ques k (f (tget Que.init s.ques k)) }
  | .unitsReset p =>
    { s with arrs := tclear (24 * p) (24 * p + 24) s.arrs, cores := tclear (48 * p) (48 * p + 48) s.cores,
             strs := tclear (16 * p) (16 * p + 16) s.strs, ques := tclear (1024 * p) (1024 * p + 1024) s.ques }
  | .pass ns => { s with clk := { s.clk with mono := s.clk.mono + ns, time := s.clk.time + BitVec.ofNat 64 ns } }
  | .setTime t => { s with clk := { s.clk with time := t } }
  | .seen k a => { s with clk := { s.clk with seen := tset 0 s.clk.seen k a } }
  | .draw => { s with clk := { s.clk with free := s.clk.free + 1 } }
  | .hs f => { s with hs := f s.hs }
  | .ctl f => { s with ctl := f s.ctl }
  | .host f => { s with host := f s.host }
  | .fab f => { s with fab := f s.fab }
  | .pw f => { s with pw := f s.pw }
  | .watch f => { s with watch := f s.watch }
  | .rcd f => { s with rcd := f s.rcd }
  | .wor b f => if b then { s with worB := f s.worB } else { s with worA := f s.worA }
  | .upd f => { s with upd := f s.upd }
  | .qs f => { s with qs := f s.qs }
  | .sec f => { s with sec := f s.sec }
  | .nor f => { s with nv := { s.nv with nor := f s.nv.nor } }
  | .super f => { s with nv := { s.nv with super := f s.nv.super } }
  | .settings f => { s with nv := { s.nv with settings := f s.nv.settings } }
  | .latch f => { s with nv := { s.nv with latch := f s.nv.latch } }
  | .ownerBlow n d =>
    let old := tget OwnerSlot.empty s.nv.fuses.owner n
    if old.valid then s
    else { s with nv := { s.nv with fuses := { s.nv.fuses with owner := tset OwnerSlot.empty s.nv.fuses.owner n ⟨d, true, false⟩ } } }
  | .ownerRevoke n =>
    let old := tget OwnerSlot.empty s.nv.fuses.owner n
    { s with nv := { s.nv with fuses := { s.nv.fuses with owner := tset OwnerSlot.empty s.nv.fuses.owner n { old with revoked := true } } } }
  | .svnBlow n => { s with nv := { s.nv with fuses := { s.nv.fuses with svn := max s.nv.fuses.svn (min n 64) } } }
  | .out x => { s with out := s.out ++ [x] }
  | .por =>
    { State.powerOn s.nv s.hs s.out s.pending with
      ctl := { Ctl.init with mrstLow := s.ctl.mrstLow }, bytes := s.bytes.filter (fun e => decide (0x100000000000 ≤ e.1)), clk := { Clk.init with mono := s.clk.mono, free := s.clk.free } }

/-- `Reach s t`: primitive effects lead from `s` to `t`. -/
inductive Reach (s : State) : State → Prop where
  | refl : Reach s s
  | step {t : State} (h : Reach s t) (e : Eff) : Reach s (apply e t)

/-- A state reached from `o`. -/
abbrev Trace (o : State) := { t : State // Reach o t }

/-- An action: it reads the state and changes it by primitive effects only. -/
abbrev M (o : State) := StateM (Trace o)

variable {o : State}

/-- Carry out one primitive effect. -/
def eff (e : Eff) : M o Unit := fun t => ((), ⟨apply e t.1, Reach.step t.2 e⟩)

/-- The present state. -/
def st : M o State := fun t => (t.1, t)

/-- The state an action leaves. -/
def runFrom (s : State) (m : M s Unit) : State := (m ⟨s, Reach.refl⟩).2.1

/-- The meaning of a command: refused when its operands name nothing of the module, else the state its action leaves. -/
def act (ok : Bool) (s : State) (m : M s Unit) : Host.Outcome State Fault Refusal :=
  if ok then .next (runFrom s m) else .refused .malformed

/-- Do nothing. -/
def skip : M o Unit := pure ()

/-- Do `m` when the condition holds. -/
def when_ (c : Bool) (m : M o Unit) : M o Unit := if c then m else pure ()

/-- One action per list element, in order. -/
def each {α : Type} (l : List α) (f : α → M o Unit) : M o Unit :=
  match l with
  | [] => pure ()
  | a :: t => do f a; each t f

/-- Repeat an action that answers whether to go on, at most `fuel` times. -/
def loop (fuel : Nat) (f : M o Bool) : M o Unit :=
  match fuel with
  | 0 => pure ()
  | n + 1 => do if (← f) then loop n f else pure ()

/-- Read a register field. -/
def rd (f : Fld) : M o Nat := do return (← st).rd f

/-- Set a register field. -/
def wr (f : Fld) (v : Nat) : M o Unit := eff (.reg f v)

/-- Set a flag field. -/
def setF (f : Fld) : M o Unit := wr f 1

/-- Set a one-bit field from a Bool. -/
def wrB (f : Fld) (b : Bool) : M o Unit := wr f (if b then 1 else 0)

/-- Add to a counter that wraps at its width. -/
def incWrap (f : Fld) : M o Unit := do wr f ((← rd f) + 1)

/-- Add to a counter that stops at all ones. -/
def incSat (f : Fld) : M o Unit := do
  let v ← rd f
  if v + 1 < 2 ^ f.w then wr f (v + 1) else pure ()

/-- The module's own timebase, ns. -/
def now : M o Nat := do return (← st).clk.mono

/-- A free value of width `w`: the next value of the opaque stream (log entry 4). -/
def freeBits (w : Nat) : M o Nat := do
  let n := (← st).clk.free
  eff .draw
  return Config.freeValue n % 2 ^ w

/-- Let the clock reach instant `t`. -/
def advTo (t : Nat) : M o Unit := do
  let n ← now
  eff (.pass (t - n))

/-- The instant noted for a timed rule; 0 when never. -/
def seenAt (key : Nat) : M o Nat := do return tget 0 (← st).clk.seen key

/-- Note the present instant for a timed rule. -/
def mark (key : Nat) : M o Unit := do eff (.seen key (← now))

/-- A periodic rule fires: the clock reaches one period after its last instant, which is noted (log entry 3). -/
def periodic (key period : Nat) : M o Unit := do
  advTo ((← seenAt key) + period)
  mark key

/-- Keys of timed rules in `Clk.seen`. -/
abbrev K.gate := 1
abbrev K.bramble := 2
abbrev K.journal := 3
abbrev K.wear := 4
abbrev K.sample := 5
abbrev K.estTick := 6
abbrev K.refit := 7
abbrev K.hotspot := 8
abbrev K.compare := 9
abbrev K.throttle := 10
abbrev K.restore := 11
abbrev K.thermal := 12
abbrev K.cycle := 13
abbrev K.lifeSave := 14
abbrev K.timeSend := 15
abbrev K.lease := 16
abbrev K.leaseEnd := 17
abbrev K.member := 18
abbrev K.tokens := 19
abbrev K.page := 20
abbrev K.startAt := 21
abbrev K.waitAt := 22
abbrev K.hold := 23
abbrev K.laying := 24
abbrev K.rootAdv := 25
abbrev K.holdover := 26
abbrev K.firstUp := 27
abbrev K.forcedClr := 28
abbrev K.confirm := 29
abbrev K.qsData := 30
abbrev K.qsReq := 31
abbrev K.qsAnn := 32
abbrev K.clipLag := 33
abbrev K.hot := 34
abbrev K.rate := 35
abbrev K.qsNew := 36
abbrev K.forced := 37
abbrev K.droop (d : Nat) := 38 + d
abbrev K.droopOff := 60
abbrev K.mate := 61
abbrev K.move := 62
abbrev K.hsOff := 63
abbrev K.hsOn := 590
abbrev K.pages := 591
abbrev K.epo := 64
abbrev K.brown := 65
abbrev K.holdAt := 68
abbrev K.single (c k : Nat) := 70 + 4 * c + k
abbrev K.qsBlock := 66
abbrev K.grant (d : Nat) := 5000 + d
abbrev K.sweep := 69
abbrev K.reset := 67
abbrev K.warm (i : Nat) := 600 + i
abbrev K.thr (key : Nat) := 700 + key
abbrev K.step (i : Nat) := 900 + i
abbrev K.rest (i : Nat) := 950 + i
abbrev K.scrub (t : Nat) := 40 + t
abbrev K.impCal (c : Nat) := 100 + c
abbrev K.drift (c : Nat) := 200 + c
abbrev K.retune (c : Nat) := 300 + c
abbrev K.port (n : Nat) := 400 + n
abbrev K.portUp (n : Nat) := 500 + n
abbrev K.ring (n : Nat) := 1000 + n
abbrev K.gateWait (c : Nat) := 2000 + c
abbrev K.rung (d p : Nat) := 3000 + 8 * d + p
abbrev K.credit (p q : Nat) := 10000 + 1024 * p + q

/-- Update one register word field by field from a list. -/
def wrs : List (Fld × Nat) → M o Unit
  | [] => pure ()
  | (f, v) :: t => do wr f v; wrs t

/-- Array n of partition p. -/
def arr (p n : Nat) : M o Arr := do return tget Arr.init (← st).arrs (24 * p + n)

/-- Change array n of partition p. -/
def upArr (p n : Nat) (f : Arr → Arr) : M o Unit := eff (.arr (24 * p + n) f)

/-- General core g of partition p. -/
def core (p g : Nat) : M o Core := do return tget Core.init (← st).cores (48 * p + g)

/-- Change core g of partition p. -/
def upCore (p g : Nat) (f : Core → Core) : M o Unit := eff (.core (48 * p + g) f)

/-- Streamer k of partition p. -/
def strm (p k : Nat) : M o Str := do return tget Str.init (← st).strs (16 * p + k)

/-- Change streamer k of partition p. -/
def upStr (p k : Nat) (f : Str → Str) : M o Unit := eff (.str (16 * p + k) f)

/-- Queue q of partition p. -/
def que (p q : Nat) : M o Que := do return tget Que.init (← st).ques (1024 * p + q)

/-- Change queue q of partition p. -/
def upQue (p q : Nat) (f : Que → Que) : M o Unit := eff (.que (1024 * p + q) f)

/-- Context slot c. -/
def ctx (c : Nat) : M o Ctx := do return tget Ctx.init (← st).host.ctx c

/-- Change context slot c. -/
def upCtx (c : Nat) (f : Ctx → Ctx) : M o Unit :=
  eff (.host fun h => { h with ctx := tset Ctx.init h.ctx c (f (tget Ctx.init h.ctx c)) })

/-- Ring pair n. -/
def ring (n : Nat) : M o Ring := do return tget Ring.init (← st).host.rings n

/-- Change ring pair n. -/
def upRing (n : Nat) (f : Ring → Ring) : M o Unit :=
  eff (.host fun h => { h with rings := tset Ring.init h.rings n (f (tget Ring.init h.rings n)) })

/-- Port n. -/
def portSt (n : Nat) : M o PortSt := do return tget PortSt.init (← st).fab.ports n

/-- Change port n. -/
def upPort (n : Nat) (f : PortSt → PortSt) : M o Unit :=
  eff (.fab fun h => { h with ports := tset PortSt.init h.ports n (f (tget PortSt.init h.ports n)) })

/-- The module's operating state. -/
def mode : M o Mode := do return (← st).ctl.mode

/-- Change the module's operating state. -/
def setMode (m : Mode) : M o Unit := eff (.ctl fun c => { c with mode := m })

/-- Send something across the boundary. -/
def send (x : Out) : M o Unit := eff (.out x)

end Sys2Proof.Machine
end

