-- ==== Sys2Proof/Machine/Events.lean ====
section
/-!
DEFINITION. The event recorder's records (R425 to R433), the WRITE records of R404, the notices of R400 and the FAULT_N
conditions of R324.
-/

namespace Sys2Proof.Machine

variable {o : State}

/-! Event codes (Table 11-12, R427). -/
abbrev E.WRITE : Nat := 0x0001
abbrev E.RESET : Nat := 0x0002
abbrev E.POWER_OFF_CAUSE : Nat := 0x0003
abbrev E.RECORDER_START : Nat := 0x0004
abbrev E.EVT_CLEARED : Nat := 0x0005
abbrev E.MEM_UE : Nat := 0x0006
abbrev E.ESCALATE : Nat := 0x0007
abbrev E.START_FAIL : Nat := 0x0008
abbrev E.MINIMAL_ENTRY : Nat := 0x0009
abbrev E.MFG_ENTRY : Nat := 0x000A
abbrev E.GUARD_SINGLE : Nat := 0x000B
abbrev E.BROWNOUT : Nat := 0x000C
abbrev E.LEASE_CHANGE : Nat := 0x000D
abbrev E.FW_UPDATE : Nat := 0x000E
abbrev E.PLAN_ACTIVATE_FAIL : Nat := 0x000F
abbrev E.OWNER_KEY : Nat := 0x0010
abbrev E.FENCED : Nat := 0x0011
abbrev E.MEMBER_LAPSED : Nat := 0x0012
abbrev E.PART_UNAVAILABLE : Nat := 0x0013
abbrev E.QUICKSET_INCOMPLETE : Nat := 0x0014
abbrev E.BOUND_VIOLATION : Nat := 0x0015
abbrev E.CLAMPED : Nat := 0x0016
abbrev E.PLAN_ACTIVATED : Nat := 0x0017
abbrev E.MEM_CE : Nat := 0x1000
abbrev E.MEM_CE_HOT : Nat := 0x1001
abbrev E.MEM_RESTORED : Nat := 0x1002
abbrev E.MEM_CONTENT_LOST : Nat := 0x1003
abbrev E.SCRUB_LATE : Nat := 0x1004
abbrev E.ARR_CHECK : Nat := 0x2000
abbrev E.CORE_CHECK : Nat := 0x2001
abbrev E.STR_CHECK : Nat := 0x2002
abbrev E.BRAMBLE_CYCLE : Nat := 0x2003
abbrev E.ENGINE_RESET : Nat := 0x2004
abbrev E.PHASE_ENERGY_OVER : Nat := 0x2005
abbrev E.Q_LEFTOVER : Nat := 0x2006
abbrev E.SWEEP_FAIL : Nat := 0x2007
abbrev E.FZ_PORT_CHECK : Nat := 0x3000
abbrev E.FZ_DIR_UE : Nat := 0x3001
abbrev E.FZ_LAY_MISS : Nat := 0x3002
abbrev E.TIME_UNLOCKED : Nat := 0x3003
abbrev E.FZ_PORT_DOWN : Nat := 0x3004
abbrev E.UPD_VOTE_MISS : Nat := 0x3005
abbrev E.TIME_ROOT_CHANGE : Nat := 0x3006
abbrev E.VIN_HIGH : Nat := 0x4000
abbrev E.VR_ALERT : Nat := 0x4001
abbrev E.DROOP_LONG : Nat := 0x4002
abbrev E.CLIP_LAG_LONG : Nat := 0x4003
abbrev E.ESTIMATOR_FIT : Nat := 0x4004
abbrev E.SENSOR_EXCL : Nat := 0x4005
abbrev E.SENSOR_FAULT : Nat := 0x4006
abbrev E.COOL_LOW : Nat := 0x4007
abbrev E.INLET_RANGE : Nat := 0x4008
abbrev E.FLOW_MISMATCH : Nat := 0x4009
abbrev E.LIFE_50 : Nat := 0x400A
abbrev E.LIFE_80 : Nat := 0x400B
abbrev E.TRAIN_REJECT : Nat := 0x5000
abbrev E.TOPIARY_DISAGREE : Nat := 0x5001
abbrev E.LADDER_UNSTABLE : Nat := 0x5002
abbrev E.LADDER_RSV : Nat := 0x5003

/-- An 8-byte payload item: kind in [63:56], value in [55:0] (R426). -/
def item (kind value : Nat) : Nat := kind * 2 ^ 56 + value % 2 ^ 56

/-- item UNIT (Table 11-11) -/
def I.UNIT (v : Nat) : Nat := item 1 v
/-- item PHYS (Table 11-11) -/
def I.PHYS (v : Nat) : Nat := item 2 v
/-- item ADDR (Table 11-11) -/
def I.ADDR (v : Nat) : Nat := item 3 v
/-- item OPID (Table 11-11) -/
def I.OPID (v : Nat) : Nat := item 4 v
/-- item PHASE (Table 11-11) -/
def I.PHASE (v : Nat) : Nat := item 5 v
/-- item COUNT (Table 11-11) -/
def I.COUNT (v : Nat) : Nat := item 6 v
/-- item VALUE (Table 11-11) -/
def I.VALUE (v : Nat) : Nat := item 7 v
/-- item TARGET (Table 11-11) -/
def I.TARGET (v : Nat) : Nat := item 8 v
/-- item RESULT (Table 11-11) -/
def I.RESULT (v : Nat) : Nat := item 9 v
/-- item FA (Table 11-11) -/
def I.FA (v : Nat) : Nat := item 10 v
/-- item REASON (Table 11-11) -/
def I.REASON (v : Nat) : Nat := item 11 v
/-- item TEMP (Table 11-11) -/
def I.TEMP (v : Nat) : Nat := item 12 v
/-- item POWER (Table 11-11) -/
def I.POWER (v : Nat) : Nat := item 13 v
/-- item DURATION (Table 11-11) -/
def I.DURATION (v : Nat) : Nat := item 14 v
/-- item TIME (Table 11-11) -/
def I.TIME (v : Nat) : Nat := item 15 v
/-- item DIGEST (Table 11-11) -/
def I.DIGEST (v : Nat) : Nat := item 16 v

/-- SRCKIND values (Table 11-10). -/
abbrev SK.unit := 0
abbrev SK.fw := 4
abbrev SK.hw := 5
abbrev SK.peer := 6
abbrev SK.rom := 7

/-- SRCKIND of a writer (Table 11-10). -/
def Src.kind : Src → Nat
  | .bar0 => 1
  | .worA => 2
  | .worB => 3
  | .firmware => 4
  | .peer => 6

/-- Items as bytes. -/
def itemBytes : List Nat → List Byte
  | [] => []
  | i :: is => leBytes 8 i ++ itemBytes is

/-- A record: the header of Table 11-10 with its RCRC, then the payload (R425). -/
def recordBytes (seq code srck opsec pcc src ns : Nat) (items : List Nat) : List Byte :=
  let pay := itemBytes items
  let head := leBytes 4 seq ++ leBytes 2 code ++ leBytes 1 pay.length ++ leBytes 1 srck ++ leBytes 5 opsec ++ leBytes 3 pcc ++
    leBytes 2 src ++ leBytes 4 (ns % 2 ^ 30)
  head ++ leBytes 2 (crc16 (head ++ pay)) ++ pay

/-- Operating seconds over the module's life (Table 11-10). -/
def opsec (s : State) : Nat := s.nv.super.opsec + s.clk.mono / 1000000000

/-- SEQ after `n`: it never takes 0xFFFF_FFFF (R425). -/
def nextSeq (n : Nat) : Nat := if n + 1 < 0xFFFFFFFF then n + 1 else 0

/-- Send a notice on both Worisy ports (R400). -/
def notice (code : Nat) (pay : List Byte) : M o Unit := do
  let s ← st
  send (.notice 0 s.worA.notices code pay)
  send (.notice 1 s.worB.notices code pay)
  eff (.wor false fun w => { w with notices := (w.notices + 1) % 65536 })
  eff (.wor true fun w => { w with notices := (w.notices + 1) % 65536 })

/-- Send an MSI-X message: a masked vector's message pends instead (R172, R178). -/
def sendMsix (v : Nat) : M o Unit := do
  let s ← st
  if s.rd (R.HIF_MSIX.WORD v 3) % 2 = 1 then
    wr (R.HIF_PBA.PEND (v / 32)) (s.rd (R.HIF_PBA.PEND (v / 32)) ||| 2 ^ (v % 32))
  else send (.msix v)

/-- A module alert signals HIF_CTL.ALERT_VEC when ALERT_EN is 1 (R172). -/
def alert : M o Unit := do
  if (← rd R.HIF_CTL.ALERT_EN) = 1 then sendMsix (← rd R.HIF_CTL.ALERT_VEC) else pure ()

/-- The recorder stops for good: the region's last page takes no further record (R430). -/
def recorderFull : M o Unit := do
  if (← rd R.EVT_STATUS.FULL) = 1 then pure () else do
    setF R.EVT_STATUS.FULL
    notice 0x8005 []

/-- Close the open staging page to new records (R429). -/
def closePage : M o Unit := do
  let s ← st
  match s.rcd.stage.getLast? with
  | none => pure ()
  | some p =>
    if p.closed then pure () else do
      eff (.rcd fun r => { r with stage := r.stage.dropLast ++ [{ p with closed := true }] })
      if p.idx = 16383 then recorderFull else pure ()

/-- Put one record into staging (R425, R429 to R431, R433). -/
def evRaw (code srck src : Nat) (items : List Nat) : M o Unit := do
  if (← rd R.EVT_STATUS.FULL) = 1 then incSat R.EVT_FULL_DROP.DROPS
  else do
    let s ← st
    let bs := recordBytes s.rcd.seq code srck (opsec s) s.nv.super.pcc src (s.clk.mono % 1000000000) items
    let fits := match s.rcd.stage.getLast? with
      | some p => !p.closed && decide (p.bytes.length + bs.length ≤ 4096)
      | none => false
    when_ (!fits) closePage
    let used ← rd R.EVT_STATUS.PAGES_USED
    if fits then
      eff (.rcd fun r => { r with
        stage := r.stage.dropLast ++ (r.stage.getLast?.map (fun p => { p with bytes := p.bytes ++ bs })).toList
        seq := nextSeq r.seq })
      wr R.EVT_LAST_SEQ.SEQ s.rcd.seq
    else if used ≥ 16384 then do
      recorderFull
      incSat R.EVT_FULL_DROP.DROPS
    else if s.rcd.stage.length ≥ 256 then do
      incSat R.EVT_STAGE_DROP.DROPS
      setF R.EVT_STATUS.STAGE_OVF
    else do
      eff (.rcd fun r => { r with stage := r.stage ++ [⟨used, bs, false, s.clk.mono⟩], seq := nextSeq r.seq })
      wr R.EVT_STATUS.PAGES_USED (used + 1)
      when_ (used = 0) (wr R.EVT_FIRST_SEQ.SEQ s.rcd.seq)
      wr R.EVT_LAST_SEQ.SEQ s.rcd.seq

/-- BURST and RATE of a code (R428): 64 and 16 at reset; a BURST of 0 acts as 1. -/
def codeCfg (s : State) (code : Nat) : Nat × Nat := tget (64, 16) s.rcd.cfg code

/-- A code is exempt from the rate limit (R427). -/
def exempt (code : Nat) : Bool := decide (code ≤ 0x0FFF)

/-- Tokens present in a code's bucket; an untouched bucket is full (stored 0). -/
def tokensOf (s : State) (code : Nat) : Nat :=
  let b := max 1 (codeCfg s code).1
  let v := tget 0 s.rcd.tokens code
  if v = 0 then b else min (v - 1) b

/-- Take a token for each of `n` records of a code that are kept or dropped together, or count the drops (R428, R92). -/
def takeTokens (code n : Nat) : M o Bool := do
  if exempt code then return true
  else do
    let s ← st
    let t := tokensOf s code
    if n ≤ t ∧ (codeCfg s code).2 ≠ 0 then do
      eff (.rcd fun r => { r with tokens := tset 0 r.tokens code (t - n + 1) })
      return true
    else do
      eff (.rcd fun r => { r with drops := tset 0 r.drops code (min 0xFFFFFFFF (tget 0 r.drops code + n)) })
      return false

/-- Record an event under the rate limit of its code. -/
def ev (code srck src : Nat) (items : List Nat) : M o Unit := do
  if (← takeTokens code 1) then evRaw code srck src items else pure ()

/-- Write the open WRITE record of a source into staging and forget it (R404). -/
def flushMerge (k : Nat) : M o Unit := do
  match tget none (← st).rcd.merge k with
  | none => pure ()
  | some m => do
    evRaw E.WRITE k 0 [I.TARGET m.target, I.VALUE m.first, I.VALUE m.last, I.COUNT m.count, I.RESULT m.res]
    eff (.rcd fun r => { r with merge := tset none r.merge k none })

/-- Write every open WRITE record that is 10 ms old or more (R404). -/
def flushOld : M o Unit := do
  let s ← st
  each [1, 2, 3, 4, 6] fun k =>
    match tget none s.rcd.merge k with
    | none => pure ()
    | some m => if m.at_ + 10000000 ≤ s.clk.mono then flushMerge k else pure ()

/-- Record a write of value `v` to `target` (kind in [55:48]) with RESULT `res`, merged by R404: one register's record holds
the first and the last value, a window's the lowest and the highest offset. -/
def writeRec (k target v res : Nat) : M o Unit := do
  let s ← st
  match tget none s.rcd.merge k with
  | none => eff (.rcd fun r => { r with merge := tset none r.merge k (some ⟨target, v, v, 1, res, s.clk.mono⟩) })
  | some m =>
    if m.target = target ∧ m.res = res ∧ s.clk.mono < m.at_ + 10000000 then
      let win := decide (target / 2 ^ 48 = 1)
      eff (.rcd fun r => { r with
        merge := tset none r.merge k (some { m with
          first := if win then min m.first v else m.first, last := if win then max m.last v else v, count := m.count + 1 }) })
    else do
      flushMerge k
      eff (.rcd fun r => { r with merge := tset none r.merge k (some ⟨target, v, v, 1, res, s.clk.mono⟩) })

/-- Record an actuating Worisy command or a command-like request: never merged (R404). -/
def cmdRec (k cmd v res : Nat) : M o Unit := do
  flushMerge k
  evRaw E.WRITE k 0 [I.TARGET (2 * 2 ^ 48 + cmd), I.VALUE v, I.VALUE v, I.COUNT 1, I.RESULT res]

/-- Drive READY (R323). -/
def driveReady (b : Bool) : M o Unit := wrB R.RST_PIN_STAT.READY b

/-- FAULT_N follows the conditions of Table 08-6, all of which stand in RST_FAULT (R324); a change sends the FAULT notice
(Table 11-4) and a module alert. -/
def refreshFault : M o Unit := do
  let s ← st
  let any := decide ((regWord s .RST_FAULT []).toNat ≠ 0)
  let n := s.rd R.RST_PIN_STAT.FAULT_N
  if (any ∧ n = 1) ∨ (!any ∧ n = 0) then do
    wrB R.RST_PIN_STAT.FAULT_N (!any)
    notice 0x8003 []
    alert
  else pure ()

/-- A FAULT_N condition arises or clears. -/
def faultCond (f : Fld) (b : Bool) : M o Unit := do
  wrB f b
  refreshFault

end Sys2Proof.Machine
end

