-- ==== Sys2Proof/Machine/Sources.lean ====
section
/-!
DEFINITION. Unit identifiers (R59) and unit states, and the interrupt sources of general cores (R107, R113).
-/

namespace Sys2Proof.Machine

variable {o : State}

/-- A unit identifier (Table 02-2). -/
def uidOf (p kind i : Nat) : Nat := p * 8192 + kind * 1024 + i

/-- PART of a unit identifier. -/
def uPart (u : Nat) : Nat := u / 8192 % 8

/-- KIND of a unit identifier: 0 array, 1 general core, 2 streamer, 3 NI, 4 energy gate, 5 off-module peer. -/
def uKind (u : Nat) : Nat := u / 1024 % 8

/-- INDEX of a unit identifier. -/
def uIdx (u : Nat) : Nat := u % 1024

/-! Unit states (PART_ARR_STAT.STATE, PART_STR_STAT.STATE, PART_CORE_STAT.STATE). -/
abbrev US.IDLE := 0
abbrev US.RUN := 1
abbrev US.WAIT_Q := 2
abbrev US.WAIT_CREDIT := 3
abbrev US.ROTATE := 4
abbrev US.STOPPED := 5
abbrev US.INVALID := 6
abbrev US.WFI := 7

/-- STATE field of an array, core or streamer. -/
def stFld (u : Nat) : Fld :=
  if uKind u = 0 then R.PART_ARR_STAT.STATE (uPart u) (uIdx u)
  else if uKind u = 1 then R.PART_CORE_STAT.STATE (uPart u) (uIdx u)
  else R.PART_STR_STAT.STATE (uPart u) (uIdx u)

/-- Start queue of a unit. -/
def unitStartQ (s : State) (u : Nat) : Nat :=
  if uKind u = 0 then (tget Arr.init s.arrs (24 * uPart u + uIdx u)).startQ
  else if uKind u = 1 then (tget Core.init s.cores (48 * uPart u + uIdx u)).startQ
  else (tget Str.init s.strs (16 * uPart u + uIdx u)).startQ

/-- The phase of a context slot. -/
def phaseOf (s : State) (c : Nat) : Option Phase := (tget Ctx.init s.host.ctx c).phase

/-- Queue q of partition p. -/
def queOf (s : State) (p q : Nat) : Que := tget Que.init s.ques (1024 * p + q)

/-- A unit stands in IDLE after END, or in STOPPED (Table 03-7, STRn and ARRn): its start token is popped and it runs no more. -/
def unitOver (s : State) (u : Nat) : Bool :=
  decide (s.rd (stFld u) = US.STOPPED) ||
    (decide (s.rd (stFld u) = US.IDLE) && decide (0 < (queOf s (uPart u) (unitStartQ s u)).rd))

/-- A unit belongs to the phase bound in context slot `c`. -/
def unitIn (s : State) (c u : Nat) : Bool :=
  match phaseOf s c with
  | some ph => ph.units.contains u
  | none => false

/-! Interrupt sources (R113). -/

/-- Queue-event slot `i` meets its condition (R114, Table 03-7). -/
def qevOn (s : State) (p : Nat) (c : Core) (i : Nat) : Bool :=
  let v := (tget 0 c.qev i).toNat
  if v / 2 ^ 63 = 0 then false
  else if v / 2 ^ 16 % 2 = 0 then decide (v / 2 ^ 17 % 2 ^ 17 ≤ s.rd (R.PART_Q_OCC.OCC p (v % 1024)))
  else decide (v / 2 ^ 17 % 2 ^ 17 ≤ s.rd (R.PART_Q_CREDIT.CREDIT p (v % 1024)))

/-- A Bool as a bit at position `i`. -/
def bitAt (i : Nat) (b : Bool) : Nat := if b then 2 ^ i else 0

/-- Sum of `f i` for i below n. -/
def sumTo : Nat → (Nat → Nat) → Nat
  | 0, _ => 0
  | n + 1, f => sumTo n f + f n

/-- ISTAT of a core as a 128-bit number (Table 03-7). -/
def istat (s : State) (p g : Nat) : Nat :=
  let c := tget Core.init s.cores (48 * p + g)
  bitAt 0 c.rotReq + bitAt 1 c.fired0 + bitAt 2 c.fired1
    + sumTo 4 (fun n => bitAt (4 + n) (decide (s.rd (R.PART_CORE_MBOXn.VALUE p g n) ≠ 0)))
    + sumTo 48 (fun i => bitAt (16 + i) (qevOn s p c i))
    + (match c.ctx with
       | none => 0
       | some x => sumTo 16 (fun k => bitAt (64 + k) (unitIn s x (uidOf p 2 k) && unitOver s (uidOf p 2 k)))
           + sumTo 24 (fun n => bitAt (80 + n) (unitIn s x (uidOf p 0 n) && unitOver s (uidOf p 0 n))))
    + bitAt 104 c.lmce31

/-- One 32-bit word of ISTAT takes its new value; rises set pending bits whatever the mask (R107). -/
def istatWord (p g new m : Nat) : M o Unit := do
  let w := new / 2 ^ (32 * m) % 2 ^ 32
  let old ← rd (R.PART_CORE_ISTATm.STAT p g m)
  if w = old then pure () else do
    wr (R.PART_CORE_ISTATm.STAT p g m) w
    let rise := w &&& (old ^^^ 0xFFFFFFFF)
    wr (R.PART_CORE_IPENDm.PEND p g m) ((← rd (R.PART_CORE_IPENDm.PEND p g m)) ||| rise)

/-- The sources of a core drive ISTAT (R107, R113). -/
def refreshCore (p g : Nat) : M o Unit := do
  let n := istat (← st) p g
  each [0, 1, 2, 3] (istatWord p g n)

end Sys2Proof.Machine
end

