-- ==== Sys2Proof/Machine/Memory.lean ====
section
/-!
DEFINITION. The module address map (R126, Tables 04-2 and 04-12), the symbol code on every read and partial write (R127, R137 to
R145), the error log (R164) and memory accesses by units.
-/

namespace Sys2Proof.Machine

variable {o : State}

/-- What an address names (Table 04-2). -/
inductive Region where
  | tier0 (p : Nat) | tier1 (p : Nat) | pool (p : Nat) | store (p n : Nat) | loc (p g : Nat) | vault (off : Nat) | ctl | none
  deriving DecidableEq, Repr

/-- Private address of byte 0 of CTL SRAM, beyond the 56 bits of a module address (R125; log entry 106). -/
def ctlBase : Nat := 0x200000000000000

/-- CTL SRAM: 2 MiB of service-core memory, then 1 MiB of recorder staging (Table 04-1). -/
def ctlSize : Nat := 0x300000

/-- The row of Table 04-2 that an address falls in. -/
def regionRaw (a : Nat) : Region :=
  if a < 0xC00000000 then .tier0 (a / 0x180000000)
  else if a < 0x10000000000 then .none
  else if a < 0x20000000000 then .tier1 ((a - 0x10000000000) / 0x2000000000)
  else if a < 0x20020000000 then .pool ((a - 0x20000000000) / 0x4000000)
  else if a < 0x20100000000 then .none
  else if a < 0x20120000000 then
    let x := a - 0x20100000000
    if x % 0x4000000 / 0x200000 < 24 then .store (x / 0x4000000) (x % 0x4000000 / 0x200000) else .none
  else if a < 0x20200000000 then .none
  else if a < 0x20208000000 then
    let x := a - 0x20200000000
    if x % 0x1000000 / 0x40000 < 48 then .loc (x / 0x1000000) (x % 0x1000000 / 0x40000) else .none
  else if a < 0x100000000000 then .none
  else if a < 0x1574FBDE6000 then .vault (a - 0x100000000000)
  else if ctlBase ≤ a ∧ a < ctlBase + ctlSize then .ctl
  else .none

/-- The partition of a region, if it has one. -/
def Region.part : Region → Option Nat
  | .tier0 p | .tier1 p | .pool p | .store p _ | .loc p _ => some p
  | _ => Option.none

/-- A partition is marked unavailable (R357). -/
def unavail (s : State) (p : Nat) : Bool := decide (s.rd (R.PART_TOP_STAT.UNAVAIL p) = 1)

/-- The region of an address: the ranges of an unavailable partition are unmapped (R357). -/
def regionOf (s : State) (a : Nat) : Region :=
  match (regionRaw a).part with
  | some p => if unavail s p then .none else regionRaw a
  | Option.none => regionRaw a

/-- Base addresses of the ranges (Table 04-2). -/
def poolBase (p : Nat) : Nat := 0x20000000000 + p * 0x4000000
def storeBase (p n : Nat) : Nat := 0x20100000000 + p * 0x4000000 + n * 0x200000
def locBase (p g : Nat) : Nat := 0x20200000000 + p * 0x1000000 + g * 0x40000
def vaultBase : Nat := 0x100000000000

/-- Region number of a vault offset (Table 04-12): 0 SUPER, 1 SETTINGS, 2 EVTREC, 3 reserved, 4 IMAGE_A, 5 IMAGE_B, 6 SPILL;
7 beyond the vault. -/
def vaultRegion (off : Nat) : Nat :=
  if off < 0x40000000 then 0 else if off < 0x140000000 then 1 else if off < 0x144000000 then 2
  else if off < 0x180000000 then 3 else if off < 0x20180000000 then 4 else if off < 0x40180000000 then 5 else if off < 0x574FBDE6000 then 6 else 7

/-- Module address of byte 0 of image slot `k` (Table 04-12). -/
def slotBase (k : Nat) : Nat := vaultBase + (if k = 0 then 0x180000000 else 0x20180000000)

/-- Row of Table 04-2, or region of Table 04-12, of an address. -/
def Region.row : Region → Nat
  | .tier0 _ => 0
  | .tier1 _ => 1
  | .pool _ => 2
  | .store _ _ => 3
  | .loc _ _ => 4
  | .vault off => 5 + vaultRegion off
  | .ctl => 98
  | .none => 99

/-- Every byte of [a, a + len) is mapped and lies in the row or region in which the access starts (R86, R126). -/
def spanOk (s : State) (a len : Nat) : Bool :=
  let r := regionOf s a
  let e := regionOf s (a + len - 1)
  match r with
  | .none | .ctl => false
  | .store p _ => match e with | .store q _ => p == q | _ => false
  | .loc p _ => match e with | .loc q _ => p == q | _ => false
  | _ =>
    decide (r.row = e.row) && match r.part, e.part with
      | some p, some q => (List.range (q + 1 - p)).all fun i => !unavail s (p + i)
      | _, _ => true

/-- Codeword size at an address (R127); a vault page for the vault (R153). -/
def cwSize (r : Region) : Nat :=
  match r with
  | .tier0 _ | .tier1 _ => 64
  | .vault _ => 4096
  | _ => 32

/-- TIER code of the error log (Table 04-14). -/
def tierCode (r : Region) : Nat :=
  match r with
  | .tier0 _ => 0
  | .tier1 _ => 1
  | .vault _ => 3
  | _ => 2

/-- Channel within the partition and address within the channel for tier 0 (Table 04-4). -/
def chan0 (x : Nat) : Nat × Nat :=
  (fget x 8 4 ^^^ fget x 16 4 ^^^ fget x 24 4, fget x 12 21 * 256 + x % 256)

/-- Channel within the partition and address within the channel for tier 1 (Table 04-4). -/
def chan1 (x : Nat) : Nat × Nat :=
  (fget x 8 2 ^^^ fget x 16 2 ^^^ fget x 24 2 ^^^ fget x 32 2, fget x 10 27 * 256 + x % 256)

/-- Global tier-0 channel of an address in partition p's range (R130, R131). -/
def channel0 (a : Nat) : Nat := 16 * (a / 0x180000000) + (chan0 (a % 0x180000000)).1

/-- Global tier-1 channel of an address (R130, R131). -/
def channel1 (a : Nat) : Nat :=
  4 * ((a - 0x10000000000) / 0x2000000000) + (chan1 ((a - 0x10000000000) % 0x2000000000)).1

/-- The corrected-error counter of an address (R140, Table "Memory registers"). -/
def ceCount (r : Region) (a : Nat) : Fld :=
  match r with
  | .tier0 _ => R.MEM_CE_T0_c.COUNT (channel0 a)
  | .tier1 _ => R.MEM_CE_T1_c.COUNT (channel1 a)
  | r => R.MEM_CE_SR_p.COUNT (r.part.getD 0)

/-- The HOT flag of an address's counter (R141). -/
def ceHot (r : Region) (a : Nat) : Fld := { ceCount r a with lo := 31, w := 1 }

/-- READER codes (Table 04-14). -/
abbrev RC.array := 0
abbrev RC.streamer := 1
abbrev RC.core := 2
abbrev RC.ni := 3
abbrev RC.host := 4
abbrev RC.scrub := 5
abbrev RC.load := 6

/-- A byte as stored, stale contents included (R95, R122). -/
def staleAt (l : List (Nat × Nat × Nat)) (a : Nat) : Option Nat :=
  match l with
  | [] => none
  | (b, n, e) :: t => if b ≤ a ∧ a < b + n then some e else staleAt t a

/-- Free value: a byte of the SUPER and SETTINGS regions, in which the superblock copies and the settings store stand in layouts that the spec does
not give (R152; log entry 110). -/
opaque Config.superByte : Super → Settings → Nat → Byte

/-- The address lies in SUPER or SETTINGS (Table 04-12). -/
def inSuper (a : Nat) : Bool := decide (vaultBase ≤ a) && decide (a < vaultBase + 0x140000000)

/-- A byte as a read sees it. -/
def byteOf (s : State) (a : Nat) : Byte :=
  if inSuper a then Config.superByte s.nv.super s.nv.settings a
  else match staleAt s.mem.stale a with
    | some e => Config.staleByte e a
    | none => tget 0 s.bytes a

/-- The bytes stored at [a, a + len). -/
def peek (s : State) (a len : Nat) : List Byte :=
  if s.mem.stale.isEmpty && (decide (a + len ≤ vaultBase) || decide (vaultBase + 0x140000000 ≤ a)) then tread s.bytes a len
  else (List.range len).map fun i => byteOf s (a + i)

/-- Exclusive-or an error pattern into the data bytes of a codeword of `n` data bytes with `c` check bytes (R136). -/
def patBytes (n c cw : Nat) (s : State) : List (Nat × Byte) → List (Nat × Byte)
  | [] => []
  | (k, v) :: t =>
    let i := n + c - 1 - k
    if i < n then (cw + i, (peek s (cw + i) 1).headD 0 ^^^ v) :: patBytes n c cw s t else patBytes n c cw s t

/-- The four syndrome bytes of the error log's SYN word (Table 04-14). -/
def synWord (dram : Bool) (e : List (Nat × Byte)) : Nat :=
  syndrome 0 e + 256 * syndrome 1 e + (if dram then 65536 * syndrome 2 e + 16777216 * syndrome 3 e else 0)

/-- Age of a log entry after sequence number `last`: larger is older (R164). -/
def logAge (last seq : Nat) : Nat := (last + 256 - seq) % 256

/-- Index of the oldest corrected report among the 64 entries (R164). -/
def oldestCe (s : State) (last : Nat) : Option Nat :=
  (List.range 64).foldl (fun best e =>
    let w0 := (regWord s .MEM_ERRLOG [e, 0]).toNat
    let age i := logAge last (fget (regWord s .MEM_ERRLOG [i, 2]).toNat 24 8)
    if fget w0 31 1 = 1 ∧ fget w0 30 1 = 0 then
      match best with
      | none => some e
      | some b => if age b < age e then some e else some b
    else best) none

/-- Write one entry of the error log (Table 04-14). -/
def logPut (e w0 a seq syn : Nat) : M o Unit := do
  wr (R.MEM_ERRLOG.WORD e 0) w0
  wr (R.MEM_ERRLOG.WORD e 1) (a % 2 ^ 32)
  wr (R.MEM_ERRLOG.WORD e 2) (seq % 256 * 2 ^ 24 + a / 2 ^ 32 % 2 ^ 24)
  wr (R.MEM_ERRLOG.WORD e 3) syn
  wr R.MEM_ERRLOG_STAT.LAST_SEQ seq

/-- Add a report to the error log (R164). -/
def logErr (ue : Bool) (tier rdr pos unit a syn : Nat) : M o Unit := do
  let s ← st
  let next := s.rd R.MEM_ERRLOG_STAT.NEXT
  let last := s.rd R.MEM_ERRLOG_STAT.LAST_SEQ
  let w0 := 2 ^ 31 + (if ue then 2 ^ 30 else 0) + tier * 2 ^ 28 + rdr * 2 ^ 24 + pos * 2 ^ 16 + unit
  let n0 := (regWord s .MEM_ERRLOG [next, 0]).toNat
  if fget n0 31 1 = 1 ∧ fget n0 30 1 = 1 then
    match oldestCe s last with
    | some e => logPut e w0 a (last + 1) syn
    | none => do
      incSat R.MEM_ERRLOG_STAT.DROPPED
      setF R.MEM_STAT.LOG_OVF
  else do
    logPut next w0 a (last + 1) syn
    wr R.MEM_ERRLOG_STAT.NEXT ((next + 1) % 64)

/-- Key under which corrections of one row are counted: the 256-byte unit in DRAM, the codeword in SRAM (R141). -/
def rowKey (r : Region) (cw : Nat) : Nat := if cwSize r = 64 then cw / 256 * 256 else cw

/-- A core's local-memory correction: LMCE counts and, at the threshold, LMCE[31] (R142). -/
def lmce (p g : Nat) : M o Unit := do
  incSat (R.PART_CORE_MISC.LMCE p g)
  let n ← rd (R.PART_CORE_MISC.LMCE p g)
  let thr ← rd R.MEM_LM_THR.THR
  when_ (decide (n ≥ max 1 thr)) (upCore p g fun c => { c with lmce31 := true })
  refreshCore p g

/-- A corrected codeword: counter, log, event, HOT (R140 to R142). CTL SRAM has no counter (log entry 106). -/
def onCorrect (rdr unit cw k syn : Nat) : M o Unit := do
  let s ← st
  let r := regionOf s cw
  when_ (r ≠ .ctl) (incSat (ceCount r cw))
  logErr false (tierCode r) rdr k unit cw syn
  ev E.MEM_CE SK.hw 0 [I.ADDR cw, I.VALUE rdr]
  let key := rowKey r cw
  let l := (tget [] s.mem.ceAt key).filter (fun t => decide (s.clk.mono < t + 86400000000000)) ++ [s.clk.mono]
  eff (.mem fun m => { m with ceAt := tset [] m.ceAt key l })
  (if l.length ≥ 3 ∧ key ∉ s.mem.hotRows then do
    when_ (r ≠ .ctl) (setF (ceHot r cw))
    ev E.MEM_CE_HOT SK.hw 0 [I.ADDR cw]
    eff (.mem fun m => { m with hotRows := m.hotRows ++ [key] })
  else pure ())
  match r with
  | .loc p g => lmce p g
  | _ => pure ()

/-- A detected fault waits for its first rung: the code of Table 10-4, and the unit or partition (R384, R391). -/
def noteFault (code unit : Nat) : M o Unit :=
  eff (.watch fun w => { w with faults := w.faults.filter (· ≠ (code, unit)) ++ [(code, unit)] })

/-- An uncorrectable codeword: log and MEM_UE event (R143). An operation's read of an array store or of a core's local memory calls for a rung on
that unit (Table 10-4). -/
def onLost (rdr unit cw syn : Nat) : M o Unit := do
  let r := regionOf (← st) cw
  when_ (decide (rdr ≠ RC.scrub)) (match r with
    | .store p n => noteFault 3 (uidOf p 0 n)
    | .loc p g => noteFault 3 (uidOf p 1 g)
    | _ => pure ())
  logErr true (tierCode r) rdr 0xFF unit cw syn
  ev E.MEM_UE SK.hw 0 [I.ADDR cw, I.VALUE rdr]

/-- Store the bytes of an update list. -/
def pokes : List (Nat × Byte) → M o Unit
  | [] => pure ()
  | (a, b) :: t => do eff (.write a [b]); pokes t

/-- Decode one codeword: true when its data may be used; a correction is written back (R137, R138, R140), a miscorrection or an
undetected pattern changes the data. -/
def checkCw (rdr unit cw : Nat) : M o Bool := do
  let s ← st
  match tget [] s.mem.errs cw with
  | [] => return true
  | e => do
    let dram := decide (cwSize (regionOf s cw) = 64)
    let n := if dram then 64 else 32
    let c := if dram then 4 else 2
    match (if dram then decDram e else decSram e) with
    | .clean => do
      pokes (patBytes n c cw s e)
      eff (.mem fun m => { m with errs := tset [] m.errs cw [] })
      return true
    | .fix k v => do
      pokes (patBytes n c cw s (errAdd k (BitVec.ofNat 8 v) e))
      eff (.mem fun m => { m with errs := tset [] m.errs cw [] })
      onCorrect rdr unit cw k (synWord dram e)
      return true
    | .bad => do
      onLost rdr unit cw (synWord dram e)
      return false

/-- Decode the codewords listed until one is uncorrectable. -/
def checkCws (rdr unit : Nat) : List Nat → M o Bool
  | [] => return true
  | cw :: t => do if (← checkCw rdr unit cw) then checkCws rdr unit t else return false

/-- Codewords with stored errors that [a, a + len) touches. -/
def errCws (s : State) (a len : Nat) : List Nat :=
  let sz := cwSize (regionOf s a)
  (s.mem.errs.filter fun e => decide (a / sz * sz ≤ e.1) && decide (e.1 < a + len)).map (·.1)

/-- Upsets gather in memory: symbol errors in codewords; a vault page whose read fails (R153). -/
def applyUps : List Upset → M o Unit
  | [] => pure ()
  | u :: t => do
    let s ← st
    let r := regionOf s u.addr
    let cw := u.addr / cwSize r * cwSize r
    match r with
    | .vault _ => eff (.mem fun m => { m with badPages := m.badPages ++ [cw] })
    | .none => pure ()
    | _ => eff (.mem fun m => { m with errs := tset [] m.errs cw (errAdd u.pos u.val (tget [] m.errs cw)) })
    applyUps t

/-- A tier-1 channel is marked failed (R134). -/
def t1Failed (s : State) (c : Nat) : Bool := s.rd (R.MEM_T1_RECAL_c.FAILED c) == 1

/-- A 256-byte unit of [a, a + len) lies on a tier-1 channel that is marked failed (R131, R134). -/
def chanFailed (s : State) (a len : Nat) : Bool :=
  match regionOf s a with
  | .tier1 _ => (List.range 32).any (t1Failed s) && (List.range (len / 256 + 2)).any fun i =>
      decide (a / 256 * 256 + 256 * i < a + len) && t1Failed s (channel1 (a / 256 * 256 + 256 * i))
  | _ => false

/-- An access that meets a failed tier-1 channel calls for the rung of its partition (Table 10-4). -/
def noteChan (s : State) (a : Nat) : M o Unit :=
  match regionOf s a with
  | .tier1 p => noteFault 6 (p * 8192)
  | _ => pure ()

/-- Completion DETAIL of a failed read (Table 05-11). -/
abbrev D.MEMORY_UE := 0x0300
abbrev D.VAULT_READ := 0x0301
abbrev D.CHANNEL_FAILED := 0x0304

/-- A vault read: a page whose read fails sets READ_FAIL; each read is attempted afresh (R153). -/
def readVault (rdr unit a len : Nat) : M o (Except Nat (List Byte)) := do
  let s ← st
  match s.mem.badPages.find? fun pg => decide (a / 4096 * 4096 ≤ pg) && decide (pg < a + len) with
  | some pg => do
    setF R.MEM_VLT_STAT.READ_FAIL
    logErr true 3 rdr 0xFF unit pg 0
    ev E.MEM_UE SK.hw 0 [I.ADDR pg, I.VALUE rdr]
    eff (.mem fun m => { m with badPages := m.badPages.filter (· ≠ pg) })
    return .error D.VAULT_READ
  | none => return .ok (peek s a len)

/-- Read [a, a + len) as reader `rdr` for `unit`: the bytes, or the DETAIL of Table 05-11 (R143, R153, R134). -/
def readMem (rdr unit a len : Nat) : M o (Except Nat (List Byte)) := do
  let s ← st
  match regionOf s a with
  | .vault _ => readVault rdr unit a len
  | _ =>
    if chanFailed s a len then do
      noteChan s a
      return .error D.CHANNEL_FAILED
    else if (← checkCws rdr unit (errCws s a len)) then return .ok (peek (← st) a len)
    else return .error D.MEMORY_UE

/-- Codewords with stored errors that a write of [a, a + len) covers only in part (R127, R144). -/
def partCws (s : State) (a len : Nat) : List Nat :=
  let sz := cwSize (regionOf s a)
  (errCws s a len).filter fun cw => !(decide (a ≤ cw) && decide (cw + sz ≤ a + len))

/-- Write bytes at `a`: partial codewords are read first and may fail the write; whole codewords become clean (R127, R144). -/
def writeMem (rdr unit a : Nat) (bs : List Byte) : M o (Except Nat Unit) := do
  let s ← st
  if chanFailed s a bs.length then do
    noteChan s a
    return .error D.CHANNEL_FAILED
  else if (← checkCws rdr unit (partCws s a bs.length)) then do
    let full := (errCws (← st) a bs.length)
    eff (.write a bs)
    when_ (!full.isEmpty) (eff (.mem fun m => { m with errs := m.errs.filter (fun e => !full.contains e.1) }))
    return .ok ()
  else return .error D.MEMORY_UE

end Sys2Proof.Machine
end

