-- ==== Sys2Proof/Machine/Units.lean ====
section
/-!
DEFINITION. Units and their phases, hardware queues (R60 to R63, R450, R451), stalls and wait flags, the slope limiter's requests
(R87) and the failing of a phase (R77, R185).
-/

namespace Sys2Proof.Machine

variable {o : State}

/-! Status and detail codes (Table 05-11). -/
abbrev S.COMPLETE := 0
abbrev S.ABORTED := 1
abbrev S.TIMEOUT := 2
abbrev S.DATA_LOSS := 3
abbrev S.CHECK_FAIL := 4
abbrev S.ALREADY_DONE := 5
abbrev D.HOST_ABORT := 0x0100
abbrev D.CONTEXT_ABORT := 0x0101
abbrev D.RING_DISABLED := 0x0102
abbrev D.RESET := 0x0103
abbrev D.SUPERSEDED := 0x0104
abbrev D.FAZAR_OP := 0x0200
abbrev D.PACKAGE_PATH := 0x0302
abbrev D.HOST_READ := 0x0303
abbrev D.BAD_DESCRIPTOR := 0x0400
abbrev D.BAD_CONTEXT := 0x0401
abbrev D.PLAN_ERROR := 0x0402
abbrev D.UNIT_CONFLICT := 0x0403
abbrev D.BAD_TARGET := 0x0404
abbrev D.RESIDUE := 0x0405
abbrev D.SHADOW_MISMATCH := 0x0406
abbrev D.ILLEGAL := 0x0407
abbrev D.CB_HDR := 0x0408
abbrev D.INDEX := 0x0409
abbrev D.WEAR_REFUSED := 0x040A
abbrev D.REGION_REFUSED := 0x040B
abbrev D.BLOCK_CRC := 0x040C
abbrev D.SIG_FAIL := 0x040D
abbrev D.LOST_RANGE := 0x040E
abbrev D.IMAGE_INCOMPLETE := 0x040F
abbrev D.NO_INSTALLATION := 0x0410
abbrev D.ALREADY_DONE := 0x0500

/-- Context slot of the phase that a unit is bound to. -/
def unitCtx (s : State) (u : Nat) : Option Nat :=
  if uKind u = 0 then (tget Arr.init s.arrs (24 * uPart u + uIdx u)).ctx
  else if uKind u = 1 then (tget Core.init s.cores (48 * uPart u + uIdx u)).ctx
  else if uKind u = 2 then (tget Str.init s.strs (16 * uPart u + uIdx u)).ctx
  else none

/-- End queue of a unit. -/
def unitEndQ (s : State) (u : Nat) : Nat :=
  if uKind u = 0 then (tget Arr.init s.arrs (24 * uPart u + uIdx u)).endQ
  else if uKind u = 1 then (tget Core.init s.cores (48 * uPart u + uIdx u)).endQ
  else (tget Str.init s.strs (16 * uPart u + uIdx u)).endQ

/-- PHYS item of a unit: partition, kind and physical index (Table 11-11). -/
def physOf (s : State) (u : Nat) : Nat :=
  uidOf (uPart u) (uKind u)
    (if uKind u = 0 then s.rd (R.PART_TOP_ARRn.PHYS (uPart u) (uIdx u))
     else if uKind u = 1 then s.rd (R.PART_TOP_COREg.PHYS (uPart u) (uIdx u)) else uIdx u)

/-- Reader code of a unit (Table 04-14). -/
def rdrOf (u : Nat) : Nat := if uKind u = 0 then RC.array else if uKind u = 1 then RC.core else if uKind u = 2 then RC.streamer else RC.ni

/-- Change the phase of a context slot. -/
def upPhase (c : Nat) (f : Phase → Phase) : M o Unit := upCtx c fun x => { x with phase := x.phase.map f }

/-- The bound phase wires the queue and `u` is its consumer. -/
def isCons (s : State) (p q u : Nat) : Bool := decide (s.rd (R.PART_Q_CFG.VALID p q) = 1) && decide (s.rd (R.PART_Q_ENDS.CONS p q) = u)

/-- The bound phase wires the queue and `u` is its producer. -/
def isProd (s : State) (p q u : Nat) : Bool := decide (s.rd (R.PART_Q_CFG.VALID p q) = 1) && decide (s.rd (R.PART_Q_ENDS.PROD p q) = u)

/-- Published slots that the consumer has not popped. -/
def qAvail (s : State) (p q : Nat) : Nat := (queOf s p q).pub - (queOf s p q).rd

/-- Module address of the slot of count `i` (R60). -/
def qSlot (s : State) (p q i : Nat) : Nat :=
  poolBase p + (s.rd (R.PART_Q_CFG.BASE p q) + i % 2 ^ s.rd (R.PART_Q_CFG.DEPTH_LOG2 p q)) * 256

/-- Refresh the cores at the ends of a queue. -/
def refreshEnds (p q : Nat) : M o Unit := do
  let s ← st
  each [s.rd (R.PART_Q_ENDS.PROD p q), s.rd (R.PART_Q_ENDS.CONS p q)] fun u =>
    if uKind u = 1 ∧ uPart u = p ∧ uIdx u < 48 then refreshCore p (uIdx u) else pure ()

/-- Refresh every core of the phase bound in slot `c`. -/
def refreshPhase (c : Nat) : M o Unit := do
  match phaseOf (← st) c with
  | none => pure ()
  | some ph => each (ph.units.filter (fun u => uKind u = 1)) fun u => refreshCore (uPart u) (uIdx u)

/-! Slope limiter requests (R87). -/

/-- Keys of the arrays that a logical array or pair occupies: a pair counts as two (R81). -/
def arrKeys (s : State) (p n : Nat) : List Nat :=
  if s.rd (R.PART_ARR_STAT.PAIR p n) = 1 then [24 * p + n, 24 * p + n + 1] else [24 * p + n]

/-- Change the request queue of the die that holds array `key`. -/
def upGrant (key : Nat) (f : List (Nat × Bool) → List (Nat × Bool)) : M o Unit :=
  if key < 96 then eff (.pw fun w => { w with grant0 := f w.grant0 }) else eff (.pw fun w => { w with grant1 := f w.grant1 })

/-- An array leaves IDLE or a stall: it asks for a start grant, or goes on if its cells still run on filler (R87). -/
def slopeStart (key : Nat) : M o Unit := do
  match (tget Arr.init (← st).arrs key).slope with
  | .idle => do
    eff (.arr key fun a => { a with slope := .wantStart })
    upGrant key (· ++ [(key, true)])
  | .filler => do
    eff (.arr key fun a => { a with slope := .active })
    upGrant key (fun l => l.filter (· ≠ (key, false)))
  | _ => pure ()

/-- An array stops, stalls or ends: its cells run on filler until a release grant (R87). -/
def slopeStop (key : Nat) : M o Unit := do
  match (tget Arr.init (← st).arrs key).slope with
  | .active => do
    eff (.arr key fun a => { a with slope := .filler })
    upGrant key (· ++ [(key, false)])
  | .wantStart => do
    eff (.arr key fun a => { a with slope := .idle })
    upGrant key (fun l => l.filter (· ≠ (key, true)))
  | _ => pure ()

/-- A unit runs: an array also asks for its start grants. -/
def runUnit (u : Nat) : M o Unit := do
  wr (stFld u) US.RUN
  if uKind u = 0 then each (arrKeys (← st) (uPart u) (uIdx u)) slopeStart else pure ()

/-- An array's cells go to filler; other units are not slope-limited. -/
def restUnit (u : Nat) : M o Unit := do
  if uKind u = 0 then each (arrKeys (← st) (uPart u) (uIdx u)) slopeStop else pure ()

/-! Stalls (R63). -/

/-- A unit stalls as the consumer of a queue with no published slot. -/
def stallC (u p q : Nat) : M o Unit := do
  setF (R.PART_Q_OCC.WAIT_C p q)
  wr (stFld u) US.WAIT_Q
  restUnit u

/-- A unit stalls as the producer of a queue without credit. -/
def stallP (u p q : Nat) : M o Unit := do
  setF (R.PART_Q_CREDIT.WAIT_P p q)
  wr (stFld u) US.WAIT_CREDIT
  restUnit u

/-- The queue changed: a unit stalled on it goes on (R63). -/
def wakeQ (p q : Nat) : M o Unit := do
  let s ← st
  (if s.rd (R.PART_Q_OCC.WAIT_C p q) = 1 ∧ 0 < qAvail s p q then do
    wr (R.PART_Q_OCC.WAIT_C p q) 0
    let u := s.rd (R.PART_Q_ENDS.CONS p q)
    if uKind u ≤ 2 ∧ s.rd (stFld u) = US.WAIT_Q then runUnit u else pure ()
  else pure ())
  let s ← st
  if s.rd (R.PART_Q_CREDIT.WAIT_P p q) = 1 ∧ 0 < s.rd (R.PART_Q_CREDIT.CREDIT p q) then do
    wr (R.PART_Q_CREDIT.WAIT_P p q) 0
    let u := s.rd (R.PART_Q_ENDS.PROD p q)
    if uKind u ≤ 2 ∧ s.rd (stFld u) = US.WAIT_CREDIT then runUnit u else pure ()
  else pure ()

/-! Failing and ending (R77, R185). -/

/-- A unit stops: STATE STOPPED; an INVALID unit stays so. -/
def stopUnit (u : Nat) : M o Unit := do
  if (← rd (stFld u)) = US.INVALID then pure () else wr (stFld u) US.STOPPED
  restUnit u

/-- Every unit of the phase that has not ended stops (R77), and its stalls end. -/
def stopPhase (c : Nat) : M o Unit := do
  match phaseOf (← st) c with
  | none => pure ()
  | some ph => do
    each ph.units fun u => do
      if unitOver (← st) u then pure () else stopUnit u
    upPhase c fun x => { x with stopping := true, ended := x.units }
    each ph.queues fun pq => do
      wr (R.PART_Q_OCC.WAIT_C pq.1 pq.2) 0
      wr (R.PART_Q_CREDIT.WAIT_P pq.1 pq.2) 0
    refreshPhase c

/-- The outcome that stands when `x` comes: the first lock (R185). -/
def firstLock (old : Option (Nat × Nat × Nat × Nat)) (x : Nat × Nat × Nat × Nat) : Option (Nat × Nat × Nat × Nat) :=
  match old with
  | some y => some y
  | none => some x

/-- Every unit of the phase has ended or stopped (R191). -/
def Phase.over (ph : Phase) : Bool := ph.units.all (ph.ended.contains ·)

/-- Units of the phase may still run: it is not stopping, and it is not one that all its units have left with a locked outcome. -/
def Phase.live (ph : Phase) : Bool := !ph.stopping && (ph.outcome.isNone || !ph.over)

/-- Lock a phase's outcome: the first lock stands (R185); its units stop (R77) and, before admission, it leaves the gate queue (R201). A phase
that an engine reset has locked, and whose other units still run, stops too. -/
def lockPhase (c status detail unit info0 : Nat) : M o Unit := do
  match phaseOf (← st) c with
  | none => pure ()
  | some ph =>
    if !ph.live then pure () else do
      let t ← now
      upPhase c fun x => { x with
        outcome := firstLock x.outcome (status, detail, unit, info0), timers := x.timers.map fun t => { t with stopped := true }
        admitAt := if x.admitted then x.admitAt else t }
      eff (.host fun h => { h with gateQ := h.gateQ.filter (· ≠ c) })
      stopPhase c

/-- An engine reset ends the phase of its unit ABORTED, RESET (Table 05-11). The phase's other units go on until they stall, and their timers run
(R94, R344; log entry 107); a phase that waits in the gate queue ends at once. -/
def lockReset (c u : Nat) : M o Unit := do
  match phaseOf (← st) c with
  | none => pure ()
  | some ph =>
    if ph.admitted then upPhase c fun x => { x with outcome := firstLock x.outcome (S.ABORTED, D.RESET, u, 0) }
    else lockPhase c S.ABORTED D.RESET u 0

/-- A unit of the bound phase runs no more. -/
def noteEnded (c u : Nat) : M o Unit :=
  upPhase c fun x => { x with ended := if x.ended.contains u then x.ended else x.ended ++ [u] }

/-- A unit fails: it stops and its phase ends with its status (R77); a residue, parity or SHADOW failure calls for a rung (Table 10-4). -/
def unitFail (u status detail : Nat) : M o Unit := do
  wr (stFld u) US.STOPPED
  restUnit u
  when_ (decide (detail = D.RESIDUE)) (noteFault 1 u)
  when_ (decide (detail = D.SHADOW_MISMATCH)) (noteFault 2 u)
  match unitCtx (← st) u with
  | some c => do
    lockPhase c status detail u 0
    refreshPhase c
  | none => pure ()

/-- A phase none of whose units still runs locks COMPLETE, if nothing has locked it (R185, R191). -/
def lockDone (c : Nat) : M o Unit :=
  upPhase c fun x => if x.over then { x with outcome := firstLock x.outcome (S.COMPLETE, 0, 0, 0) } else x

/-- A unit's end token reached the energy gate: the phase's last unit ending normally locks COMPLETE (R185, R191). -/
def unitEnded (c u : Nat) : M o Unit := do
  noteEnded c u
  upPhase c fun x => { x with timers := x.timers.map fun t => if t.unit = u then { t with stopped := true } else t }
  lockDone c

/-! Queues. -/

/-- A producer's push takes one credit and writes the slot (R61); it is published when the write completes. -/
def pushSlot (p q unit : Nat) (bs : List Byte) : M o Unit := do
  let s ← st
  wr (R.PART_Q_CREDIT.CREDIT p q) (s.rd (R.PART_Q_CREDIT.CREDIT p q) - 1)
  let _ ← writeMem (rdrOf unit) unit (qSlot s p q (queOf s p q).wr) (padTo 256 (bs.take 256))
  upQue p q fun x => { x with wr := x.wr + 1 }
  refreshEnds p q

/-- The consumer releases its oldest slot (R62): a local producer's credit returns at once; credits for a producer in another
partition or module wait for the NI's batch (R66). -/
def releaseSlot (p q : Nat) : M o Unit := do
  let s ← st
  upQue p q fun x => { x with rel := x.rel + 1 }
  wr (R.PART_Q_OCC.OCC p q) (s.rd (R.PART_Q_OCC.OCC p q) - 1)
  (if s.rd (R.PART_Q_CFG.REMOTE p q) = 0 then
    wr (R.PART_Q_CREDIT.CREDIT p q) (s.rd (R.PART_Q_CREDIT.CREDIT p q) + 1)
  else do
    when_ (decide ((queOf s p q).owed = 0)) (mark (K.credit p q))
    upQue p q fun x => { x with owed := x.owed + 1 })
  wakeQ p q
  refreshEnds p q

/-- Read the oldest unpopped slot and pop it: none when no published slot is left. -/
def popSlot (unit p q : Nat) : M o (Option (Except Nat (List Byte))) := do
  let s ← st
  if qAvail s p q = 0 then return none
  else do
    let r ← readMem (rdrOf unit) unit (qSlot s p q (queOf s p q).rd) 256
    upQue p q fun x => { x with rd := x.rd + 1 }
    return some r

/-- The oldest slot being written is published (R61); the energy gate takes an end token at once. -/
def publishSlot (p q : Nat) : M o Unit := do
  let s ← st
  upQue p q fun x => { x with pub := x.pub + 1 }
  wr (R.PART_Q_OCC.OCC p q) (s.rd (R.PART_Q_OCC.OCC p q) + 1)
  wakeQ p q
  refreshEnds p q
  if uKind (s.rd (R.PART_Q_ENDS.CONS p q)) = 4 then do
    upQue p q fun x => { x with rd := x.rd + 1 }
    releaseSlot p q
    let u := s.rd (R.PART_Q_ENDS.PROD p q)
    match unitCtx s u with
    | some c => unitEnded c u
    | none => pure ()
  else pure ()

/-- Release every slot that a unit has finished reading on queue q. -/
def releaseRead (p q : Nat) : M o Unit := do
  let x := queOf (← st) p q
  loop (x.rd - x.rel) do
    releaseSlot p q
    return true

/-- A token slot: a 32-bit word, then zeros (R450). -/
def tokenBytes (w : Nat) : List Byte := padTo 256 (leBytes 4 w)

/-- A partition's units issue: its partition is available and no rung asks it to go idle (R343). -/
def issuing (s : State) (p : Nat) : Bool :=
  !unavail s p && !(s.ctl.rungs.any fun r => (r.depth = 4) || (r.depth = 3 && decide (r.pmask / 2 ^ p % 2 = 1)))

/-- A unit whose engine reset is in progress. -/
def inEngineReset (s : State) (u : Nat) : Bool :=
  decide (s.rd (R.PART_ENG_RST_STAT.BUSY (uPart u)) = 1) && decide (s.rd (R.PART_ENG_RST_STAT.UNIT (uPart u)) = u)

/-- A unit at an instruction boundary may run: its phase is bound, its start token is popped or is popped now (R450). -/
def unitTurn (u : Nat) : M o Bool := do
  let s ← st
  let p := uPart u
  if !issuing s p || inEngineReset s u || (unitCtx s u).isNone then return false
  else
    let v := s.rd (stFld u)
    if v = US.RUN ∨ v = US.WAIT_Q ∨ v = US.WAIT_CREDIT then return true
    else if v = US.IDLE then do
      let q := unitStartQ s u
      if qAvail s p q = 0 ∨ unitOver s u then return false
      else do
        upQue p q fun x => { x with rd := x.rd + 1 }
        releaseSlot p q
        runUnit u
        return true
    else return false

end Sys2Proof.Machine
end

