-- ==== Sys2Proof/Machine/ArrayOps.lean ====
section
/-!
DEFINITION. Operations of a matrix array: instruction fields and legality (R70 to R75, R452), operand streaming into banks (R64,
R72, R73, R78 to R80, R453), output conversion (R26, R39 to R46, R68, R69) and the failing of a tile (R23, R56, R76, R80).
-/

namespace Sys2Proof.Machine

variable {o : State}

/-! Instruction fields (Tables 02-5 to 02-7); an instruction is its 128-bit number. -/

def insOpc (x : Nat) : Nat := fget x 122 6
def tilePm (x : Nat) : Nat := fget x 120 2
def tileFx (x : Nat) : Nat := fget x 115 5
def tileFw (x : Nat) : Nat := fget x 110 5
def tileXk (x : Nat) : Bool := fget x 109 1 == 1
def tileX (x : Nat) : Nat := fget x 96 13
def tileWk (x : Nat) : Bool := fget x 95 1 == 1
def tileW (x : Nat) : Nat := fget x 82 13
def tileKb (x : Nat) : Nat := fget x 66 16
def tileLsb (x : Nat) : Int := sx 10 (fget x 56 10)
def tileInit (x : Nat) : Nat := fget x 54 2
def tileInitSrc (x : Nat) : Nat := fget x 41 13
def tileBsel (x : Nat) : Nat := fget x 39 2
def emitFmt (x : Nat) : Nat := fget x 117 5
def emitRnd (x : Nat) : Nat := fget x 115 2
def emitSmode (x : Nat) : Nat := fget x 114 1
def emitFixx (x : Nat) : Int := sx 8 (fget x 106 8)
def emitJoin (x : Nat) : Bool := fget x 105 1 == 1
def emitTagx (x : Nat) : Bool := fget x 104 1 == 1
def emitDk (x : Nat) : Bool := fget x 103 1 == 1
def emitDst (x : Nat) : Nat := fget x 90 13
def emitBsel (x : Nat) : Nat := fget x 88 2
def emitTag (x : Nat) : Nat := fget x 56 32
def ldcbFmt (x : Nat) : Nat := fget x 117 5
def ldcbSrc (x : Nat) : Nat := fget x 104 13
def ldcbBsel (x : Nat) : Nat := fget x 102 2
def insN (x : Nat) : Nat := fget x 121 1
def insQ (x : Nat) : Nat := fget x 112 10
def insTarget (x : Nat) : Nat := fget x 0 12

/-- The defined opcodes (Table 02-5). -/
def opcDefined (c : Nat) : Bool := [0, 1, 2, 4, 5, 6, 7, 8, 9, 10, 11, 12, 13, 14, 63].contains c

/-- Bits outside the opcode's fields are 0 (R75). -/
def rsvZero (x : Nat) : Bool :=
  match insOpc x with
  | 1 => fget x 0 39 == 0
  | 2 => fget x 0 56 == 0
  | 4 => fget x 0 102 == 0
  | 5 => fget x 64 58 == 0
  | 6 => fget x 13 108 == 0
  | 7 => fget x 13 108 == 0
  | 8 => fget x 16 105 == 0
  | 9 => fget x 12 109 == 0
  | 10 => fget x 0 112 == 0
  | 11 => fget x 64 48 == 0 && fget x 0 32 == 0
  | 12 => fget x 12 100 == 0
  | 13 => fget x 12 110 == 0
  | _ => fget x 0 122 == 0

/-- A store slot field with its base register added (BSEL, Table 02-6). -/
def effSlot (a : Arr) (bsel slot : Nat) : Nat := slot + (if bsel = 1 then a.b0.toNat else if bsel = 2 then a.b1.toNat else 0)

/-- `n` slots from `slot` lie in 0x0100 to 0x1FFF (R70). -/
def storeOk (slot n : Nat) : Bool := decide (0x100 ≤ slot) && decide (slot + n ≤ 0x2000)

/-- The pairing is exact (R28). -/
def tileExact (x : Nat) : Bool := isExactFmt (tileFx x) && isExactFmt (tileFw x)

/-- Either operand is a codebook format. -/
def tileCb (x : Nat) : Bool := isCb (tileFx x) || isCb (tileFw x)

/-- Reduction units of a TILE (R79): KB, or KB ÷ 8 with a codebook operand. -/
def tileUnits (x : Nat) : Nat := if tileCb x then tileKb x / 8 else tileKb x

/-- Units that the even (or single) array reads, and those that the odd array reads in DEEP mode (Table 02-8). -/
def evenUnits (x : Nat) : Nat := if tilePm x = 2 then (tileUnits x + 1) / 2 else tileUnits x
def oddUnits (x : Nat) : Nat := if tilePm x = 2 then tileUnits x / 2 else 0

/-- Panels of an operand of format `f` in one reduction unit. -/
def unitPanels (x f : Nat) : Nat := if tileCb x ∧ !isCb f then 8 else 1

/-- Slots of an operand in one reduction unit. -/
def unitSlots (x f : Nat) : Nat := unitPanels x f * panelSlots f

/-- A queue number field of 13 bits whose bits [12:10] must be 0 (R75). -/
def qField (v : Nat) : Bool := decide (v < 1024)

/-- The bank that was filled last and is neither emitted nor held (R72): 0, 1 or none. -/
def lastBank (a : Arr) : Option Nat :=
  let u0 := a.bank0.st ≠ .free ∧ !a.bank0.held
  let u1 := a.bank1.st ≠ .free ∧ !a.bank1.held
  if u0 ∧ u1 then (if a.bank1.order < a.bank0.order then some 0 else some 1)
  else if u0 then some 0 else if u1 then some 1 else none

/-- Bank b of an array. -/
def Arr.bank (a : Arr) (b : Nat) : Acc := if b = 0 then a.bank0 else a.bank1
def Arr.obank (a : Arr) (b : Nat) : Acc := if b = 0 then a.obank0 else a.obank1

/-- Set bank b of an array. -/
def Arr.setBank (a : Arr) (b : Nat) (x : Acc) : Arr := if b = 0 then { a with bank0 := x } else { a with bank1 := x }
def Arr.setObank (a : Arr) (b : Nat) (x : Acc) : Arr := if b = 0 then { a with obank0 := x } else { a with obank1 := x }

/-- The bank held by JOIN. -/
def heldBank (a : Arr) : Option Nat := if a.bank0.held then some 0 else if a.bank1.held then some 1 else none

/-- The bank with no tile, if any. -/
def freeBank (a : Arr) : Option Nat := if a.bank0.st = .free then some 0 else if a.bank1.st = .free then some 1 else none

/-- The bank most recently filled, when it has not been emitted (R72). -/
def newestBank (a : Arr) : Option Nat :=
  let is (x : Acc) : Bool := x.st != .free && !x.held && x.order == a.fills
  if is a.bank0 then some 0 else if is a.bank1 then some 1 else none

/-- INIT continue agrees with the tile that began the bank, and the bank keeps to the limit of one tile (R15, R72). -/
def continueOk (a : Arr) (x : Nat) : Bool :=
  match newestBank a with
  | none => false
  | some b =>
    (a.bank b).pm == tilePm x && ((a.bank b).fp == !tileExact x) && (a.bank b).lsb == tileLsb x &&
      decide ((a.bank b).kb + tileKb x ≤ 32768)

/-- A bank is held by JOIN and its second tile has begun: no further tile starts until both have been emitted (R26). -/
def joinFull (a : Arr) : Bool :=
  match heldBank a with
  | none => false
  | some h => decide ((a.bank h).order < a.fills)

/-- Sources of a TILE are legal on array n of partition p (R70, R75, R79). -/
def tileSourcesOk (s : State) (p n : Nat) (a : Arr) (x : Nat) : Bool :=
  let u := uidOf p 0 n
  let src (isStore : Bool) (v f : Nat) (partner : Bool) : Bool :=
    if isStore then storeOk (effSlot a (tileBsel x) v) (evenUnits x * unitSlots x f)
    else qField v && isCons s p v u && (!partner || isCons s p (v ^^^ 1) u)
  src (tileXk x) (tileX x) (tileFx x) (tilePm x == 2) && src (tileWk x) (tileW x) (tileFw x) (tilePm x == 1 || tilePm x == 2)

/-- TILE is legal (R75). -/
def tileLegal (s : State) (p n : Nat) (a : Arr) (x : Nat) : Bool :=
  let fx := tileFx x
  let fw := tileFw x
  let pair := s.rd (R.PART_ARR_STAT.PAIR p n)
  fmtOk fx && fmtOk fw && fx != F.FP32 && fx != F.LANE && fw != F.FP32 && fw != F.LANE
    && (tileExact x || (isWideFmt fx && isWideFmt fw))
    && decide (1 ≤ tileKb x) && decide (tileKb x ≤ 32768) && (!tileCb x || tileKb x % 8 == 0)
    && decide (-286 ≤ tileLsb x) && decide (tileLsb x ≤ 180)
    && tileInit x != 3 && tileBsel x != 3
    && (if pair = 0 then tilePm x == 0 else tilePm x != 0)
    && (tilePm x != 2 || decide (2 ≤ tileUnits x))
    && (tileInit x != 1 || storeOk (effSlot a (tileBsel x) (tileInitSrc x)) 1088)
    && (tileInit x != 2 || continueOk a x)
    && tileSourcesOk s p n a x

/-- Slots that an EMIT writes into one store, or in all into a queue. -/
def emitSlots (wide : Bool) (f : Nat) (toStore : Bool) : Nat :=
  if f = F.LANE then (if wide && !toStore then 2176 else 1088)
  else if isCb f then panelSlots f
  else (if wide then 8 else 4) * panelSlots f

/-- EMIT is legal (R75, R26, R452). -/
def emitLegal (s : State) (p n : Nat) (a : Arr) (x : Nat) : Bool :=
  let f := emitFmt x
  match lastBank a with
  | none => false
  | some b =>
    let wide := (a.bank b).pm == 1
    fmtOk f && emitRnd x != 3 && emitBsel x != 3 && fget x 106 8 != 0x80
      && (!emitJoin x || (isCb f && !wide && (heldBank a).isNone))
      && (!isCb f || emitJoin x || wide || (heldBank a).isSome)
      && (!isCb f || a.cbFmt == some f)
      && (f != F.LANE || !(a.bank b).fp)
      && (if emitDk x then storeOk (effSlot a (emitBsel x) (emitDst x)) (emitSlots wide f true)
          else qField (emitDst x) && isProd s p (emitDst x) (uidOf p 0 n))

/-- An entry of `f` in a run of entry bytes is NaN or infinite (R27). -/
def cbBadEntry (f : Nat) (ents : List Byte) : Bool :=
  (List.range (2 ^ cbWidth f)).any fun i =>
    match decodeElem (cbEntFmt f) (cbEntry f ents i) with
    | .fin _ _ => false
    | _ => true

/-- The instruction at PC is legal, but for what its own step checks of the store's contents (R75). -/
def insLegal (s : State) (p n : Nat) (a : Arr) (x : Nat) : Bool :=
  let u := uidOf p 0 n
  opcDefined (insOpc x) && rsvZero x &&
  match insOpc x with
  | 1 => tileLegal s p n a x
  | 2 => emitLegal s p n a x
  | 4 => isCb (ldcbFmt x) && ldcbBsel x != 3 && storeOk (effSlot a (ldcbBsel x) (ldcbSrc x)) 1
  | 8 => fget x 0 16 != 0
  | 9 => decide (insTarget x < a.len)
  | 10 => isCons s p (insQ x) u
  | 11 => isProd s p (insQ x) u
  | 12 => isCons s p (insQ x) u && decide (insTarget x < a.len)
  | 13 => decide (insTarget x < a.len)
  | 14 => a.bank0.st == .free && a.bank1.st == .free
  | _ => true

/-! Failing. -/

/-- Check points of ARR_CHECK's REASON item: which check failed (log entry 20). -/
def CP.block : Nat := Config.eventCode 0
def CP.sweep : Nat := Config.eventCode 1
def CP.output : Nat := Config.eventCode 2
def CP.header : Nat := Config.eventCode 3
def CP.decode : Nat := Config.eventCode 4

/-- A tile that unit n runs fails its residue check in array m, n itself or the odd array of its pair (R56; log entry 58). -/
def resFail (p n m point : Nat) : M o Unit := do
  let u := uidOf p 0 m
  let s ← st
  setF (R.PART_ARR_EXC.RES_FAIL p m)
  incSat (R.PART_ARR_RESCNT.COUNT p m)
  ev E.ARR_CHECK SK.unit u [I.UNIT u, I.PHYS (physOf s u), I.REASON point]
  unitFail (uidOf p 0 n) S.CHECK_FAIL D.RESIDUE

/-- An illegal instruction is not carried out (R76). -/
def arrIllegal (p n : Nat) : M o Unit := do
  let u := uidOf p 0 n
  setF (R.PART_ARR_STAT.ILLEGAL p n)
  ev E.ARR_CHECK SK.unit u [I.UNIT u, I.VALUE (← rd (R.PART_ARR_STAT.PC p n))]
  unitFail u S.CHECK_FAIL D.ILLEGAL

/-- An uncorrectable read of the store or of a queue slot fails the tile (PART_ARR_STAT.DATA_LOSS). -/
def arrDataLoss (p n detail : Nat) : M o Unit := do
  setF (R.PART_ARR_STAT.DATA_LOSS p n)
  unitFail (uidOf p 0 n) S.DATA_LOSS detail

/-- A SHADOW comparison fails the tile (R80). -/
def shadowFail (p n : Nat) : M o Unit := do
  let u := uidOf p 0 n
  let s ← st
  setF (R.PART_ARR_STAT.SHADOW_MIS p n)
  ev E.ARR_CHECK SK.unit u [I.UNIT u, I.PHYS (physOf s u), I.PHYS (physOf s (u + 1))]
  unitFail u S.CHECK_FAIL D.SHADOW_MISMATCH

/-- A codebook header fails its check in array m of unit n (R23; log entry 58). -/
def headerFail (p n m : Nat) : M o Unit := do
  let u := uidOf p 0 m
  setF (R.PART_ARR_EXC.CB_HDR p m)
  ev E.ARR_CHECK SK.unit u [I.UNIT u, I.PHYS (physOf (← st) u), I.REASON CP.header]
  unitFail (uidOf p 0 n) S.CHECK_FAIL D.CB_HDR

/-- A decode parity bit differs in array m of unit n (Table 01-11). -/
def parityFail (p n m : Nat) : M o Unit := do
  let u := uidOf p 0 m
  ev E.ARR_CHECK SK.unit u [I.UNIT u, I.PHYS (physOf (← st) u), I.REASON CP.decode]
  unitFail (uidOf p 0 n) S.CHECK_FAIL D.RESIDUE

/-! Banks. -/

/-- Walk the lanes of one row of a bank: lane j becomes f's value on column block j; entries equal to the zero lane are left out. -/
def rowStep (f : List Blk → Lane → Lane × Bool × Bool) :
    List (List Blk) → Nat → Tbl Lane → Tbl Lane × Tbl Lane × Bool × Bool
  | [], _, t => ([], t, false, false)
  | w :: ws, k, t =>
    let hd := match t with
      | (a, v) :: _ => if a = k then v else Lane.zero
      | [] => Lane.zero
    let rest := match t with
      | (a, _) :: r => if a = k then r else t
      | [] => []
    let r := f w hd
    let q := rowStep f ws (k + 1) rest
    (if r.1 = Lane.zero then q.1 else (k, r.1) :: q.1, q.2.1, r.2.1 || q.2.2.1, r.2.2 || q.2.2.2)

/-- One reduction unit into every lane of a bank, row by row (R13, R31). -/
def gridStep (f : List Blk → List Blk → Lane → Lane × Bool × Bool) (cols : List (List Blk)) :
    List (List Blk) → Nat → Tbl Lane → Tbl Lane × Bool × Bool
  | [], _, _ => ([], false, false)
  | x :: xs, k, t =>
    let r := rowStep (f x) cols k t
    let q := gridStep f cols xs (k + 128) r.2.1
    (r.1 ++ q.1, r.2.2.1 || q.2.1, r.2.2.2 || q.2.2)

/-- What one reduction unit does to one cell: the exact path, or the FP32 path in the low 32 bits (R31, R48). -/
def cellStep (fx fw : Nat) (fp : Bool) (l : Int) (a b : List Blk) (x : Lane) : Lane × Bool × Bool :=
  if fp then (⟨BitVec.ofNat 128 (fpUnit fx fw a b (x.v.toNat % 2 ^ 32)), 0⟩, false, false)
  else cellUnit (elemFmt fx) (elemFmt fw) l a b (x, false, false)

/-- The upset of array `odd` that hits block `k` of the cell in row i and column j. -/
def upsetAt (ups : List BlkUpset) (odd : Bool) (i j k : Nat) : Option Nat :=
  (ups.find? fun u => u.odd == odd && u.row == i && u.col == j && u.blk == k).map (·.bit)

/-- Every cell passes the block comparison on every block of a reduction unit (R52). -/
def gridOk (fx fw : Nat) (fp : Bool) (ups : List BlkUpset) (odd : Bool) (xs ws : List (List Blk)) : Bool :=
  xs.zipIdx.all fun x => ws.zipIdx.all fun w => (List.zip x.1 w.1).zipIdx.all fun e =>
    chunkOk (prodShift (elemFmt fx) (elemFmt fw)) fp e.1.1 e.1.2 (upsetAt ups odd x.2 w.2 e.2)

/-- The lane blocks of an operand's bytes in a reduction unit. -/
def operand (x f : Nat) (bytes : List Byte) : List (List Blk) :=
  (List.range 128).map fun l => unitBlocks f bytes (unitPanels x f) l

/-- Any block of the operand is special. -/
def operandSpecial (l : List (List Blk)) : Bool := l.any fun bs => bs.any Blk.special

/-- Flip one bit of a bank's lane or shadow (R54: an upset of a lane or shadow). -/
def flipCell (a : Acc) (lane bit : Nat) : Acc :=
  let l := tget Lane.zero a.lanes lane
  let y := if bit < 128 then { l with v := l.v ^^^ BitVec.ofNat 128 (2 ^ bit) } else { l with sh := l.sh ^^^ 2 ^ (bit % 128 % 7) }
  { a with lanes := tset Lane.zero a.lanes lane y }

/-- Upsets reach the banks of array n. -/
def applyCells (p n : Nat) : List CellUpset → M o Unit
  | [] => pure ()
  | u :: t => do
    let b := if u.bank then 1 else 0
    upArr p n fun a =>
      if u.odd then a.setObank b (flipCell (a.obank b) (u.lane % 16384) u.bit) else a.setBank b (flipCell (a.bank b) (u.lane % 16384) u.bit)
    applyCells p n t

/-- The lanes of a bank that are not zero, without their shadows. -/
def laneVals (a : Acc) : List (Nat × BitVec 128) := (a.lanes.map fun e => (e.1, e.2.v)).filter fun e => e.2 ≠ 0

/-- Every lane from `lo` below `hi` passes the residue comparison (R54). -/
def residueOk (a : Acc) (lo hi : Nat) : Bool :=
  a.fp || a.lanes.all fun e => e.1 < lo || hi ≤ e.1 || laneResidueOk e.2

/-- Read `n` slots of an array store (R70). -/
def readStore (p n slot cnt : Nat) : M o (Except Nat (List Byte)) :=
  readMem RC.array (uidOf p 0 n) (storeBase p n + slot * 256) (cnt * 256)

/-- Lanes of a lane image: 16,384 lanes, then their shadow bytes with bit 7 ignored (R69). -/
def imageLanes : Nat → Nat → List Byte → List Byte → Tbl Lane
  | 0, _, _, _ => []
  | n + 1, k, ls, ss =>
    let x : Lane := ⟨BitVec.ofNat 128 (leNat (ls.take 16)), (ss.headD 0).toNat % 128⟩
    let t := imageLanes n (k + 1) (ls.drop 16) (ss.drop 1)
    if x = Lane.zero then t else (k, x) :: t

/-- A lane image as starting lanes of a bank: exact lanes with their shadows, or FP32 running sums (R48, R53, R69). -/
def loadLanes (fp : Bool) (l : Int) (img : List Byte) : Tbl Lane :=
  let t := imageLanes 16384 0 img (img.drop 262144)
  if fp then
    (t.map fun e => (e.1, (⟨BitVec.ofNat 128 (lane32 e.2.v l), 0⟩ : Lane))).filter (fun e => e.2 ≠ Lane.zero)
  else t

/-! Streaming (R64, R71, R73). -/

/-- The slope limiter has granted every array of the unit (R87). -/
def slopeOn (s : State) (p n : Nat) : Bool := (arrKeys s p n).all fun k => (tget Arr.init s.arrs k).slope == .active

/-- Change the oldest streaming tile. -/
def upTile (p n : Nat) (f : TileRun → TileRun) : M o Unit :=
  upArr p n fun a => { a with tiles := match a.tiles with | [] => [] | t :: r => f t :: r }

/-- Set the arithmetic flags that the operands and terms of a unit raise (R58). -/
def unitFlags (p n : Nat) (special inexact clamp : Bool) : M o Unit := do
  when_ special (setF (R.PART_ARR_EXC.SPECIAL_IN p n))
  when_ inexact (setF (R.PART_ARR_EXC.INEXACT_LOW p n))
  when_ clamp (setF (R.PART_ARR_EXC.CLAMP p n))

/-- One reduction unit's bytes enter the cells of array `m` of the unit run by n: headers are checked, terms added, flags set, and the
block shadows compared (R23, R31, R52, R58). -/
def enterUnit (p n m x : Nat) (odd : Bool) (bank : Nat) (xb wb : List Byte) (f : Flt) : M o Bool := do
  let fx := tileFx x
  let fw := tileFw x
  if !unitHeadersOk fx xb (unitPanels x fx) || !unitHeadersOk fw wb (unitPanels x fw) then do
    headerFail p n m
    return false
  else if (if odd then f.parityO else f.parity) then do
    parityFail p n m
    return false
  else do
    let xs := operand x fx xb
    let ws := operand x fw wb
    let a ← arr p n
    let acc := if odd then a.obank bank else a.bank bank
    let r := gridStep (cellStep fx fw acc.fp acc.lsb) ws xs 0 acc.lanes
    unitFlags p m (operandSpecial xs || operandSpecial ws) r.2.1 r.2.2
    upArr p n fun a => if odd then a.setObank bank { acc with lanes := r.1 } else a.setBank bank { acc with lanes := r.1 }
    if gridOk fx fw acc.fp f.block odd xs ws then return true
    else do
      resFail p n m CP.block
      return false

/-- Sides of a tile's operands. -/
inductive Side where
  | x | w | xo | wo
  deriving DecidableEq, Repr

/-- Bytes gathered for a side. -/
def TileRun.bytes (t : TileRun) : Side → List Byte
  | .x => t.xb
  | .w => t.wb
  | .xo => t.xbO
  | .wo => t.wbO

/-- Set the bytes gathered for a side. -/
def TileRun.setBytes (t : TileRun) (d : Side) (b : List Byte) : TileRun :=
  match d with
  | .x => { t with xb := b }
  | .w => { t with wb := b }
  | .xo => { t with xbO := b }
  | .wo => { t with wbO := b }

/-- Queue of a side; the odd array reads the partner queue (R79). -/
def sideQueue (x : Nat) : Side → Nat
  | .x => tileX x
  | .w => tileW x
  | .xo => tileX x ^^^ 1
  | .wo => tileW x ^^^ 1

/-- The side is a store slot. -/
def sideStore (x : Nat) : Side → Bool
  | .x | .xo => tileXk x
  | .w | .wo => tileWk x

/-- Format of a side. -/
def sideFmt (x : Nat) : Side → Nat
  | .x | .xo => tileFx x
  | .w | .wo => tileFw x

/-- Gather one side's bytes for the next unit: `some true` when complete, `some false` when it stalls, `none` when a read failed. -/
def gatherSide (p n : Nat) (d : Side) : M o (Option Bool) := do
  let a ← arr p n
  match a.tiles with
  | [] => return some false
  | t :: _ => do
    let x := t.ins.toNat
    let need := 256 * unitSlots x (sideFmt x d)
    if need ≤ (t.bytes d).length then return some true
    else if sideStore x d then do
      let odd := d == .xo || d == .wo
      let done := if d == .xo || (d == .wo && tilePm x == 2) then t.doneO else t.done
      let slot := (if d == .x || d == .xo then t.xs else t.ws) + done * unitSlots x (sideFmt x d)
      match ← readStore p (if odd then n + 1 else n) slot (unitSlots x (sideFmt x d)) with
      | .error e => do
        arrDataLoss p n e
        return none
      | .ok b => do
        upTile p n fun t => t.setBytes d b
        return some true
    else do
      let u := uidOf p 0 n
      let q := sideQueue x d
      match ← popSlot u p q with
      | none => do
        stallC u p q
        return some false
      | some (.error e) => do
        arrDataLoss p n e
        return none
      | some (.ok b) => do
        upTile p n fun t => t.setBytes d (t.bytes d ++ b)
        return some (decide (need ≤ (t.bytes d).length + 256))

/-- Gather sides in order until one is not complete; `some true` when all are. A side that took one slot and needs more answers
through the next call. -/
def gatherAll (p n : Nat) : List Side → M o (Option Bool)
  | [] => return some true
  | d :: ds => do
    let before := ((← arr p n).tiles.head?.map fun t => (t.bytes d).length).getD 0
    match ← gatherSide p n d with
    | some true => gatherAll p n ds
    | some false => do
      let after := ((← arr p n).tiles.head?.map fun t => (t.bytes d).length).getD 0
      if before < after then return none else return some false
    | none => return none

/-- The sides that a unit of work needs: the even array's sources and those of the odd array (Table 02-8). A pair stalls when
either member lacks a slot (R81), so both members' next units enter together while the odd array has one left. -/
def stepSides (x doneO : Nat) : List Side :=
  if tilePm x = 1 then [.x, .w, .wo] else if doneO < oddUnits x then [.x, .w, .xo, .wo] else [.x, .w]

/-- The next unit of the tile enters the cells of the array or of both members. -/
def stepUnit (p n : Nat) (f : Flt) : M o Bool := do
  match (← arr p n).tiles with
  | [] => return false
  | t :: _ => do
    let x := t.ins.toNat
    let odd := decide (t.doneO < oddUnits x)
    upTile p n fun t => { t with xb := [], wb := [], xbO := [], wbO := [], done := t.done + 1, doneO := t.doneO + (if odd then 1 else 0) }
    if !(← enterUnit p n n x false t.bank t.xb t.wb f) then return false
    else if tilePm x = 1 then enterUnit p n (n + 1) x true t.bank t.xb t.wbO f
    else if tilePm x = 3 then enterUnit p n (n + 1) x true t.bank t.xb t.wb f
    else if odd then enterUnit p n (n + 1) x true t.bank t.xbO t.wbO f
    else return true

/-- Whether the unit's state lets its cells and output stage work. -/
def arrLive (s : State) (p n : Nat) : Bool :=
  let v := s.rd (R.PART_ARR_STAT.STATE p n)
  v == US.RUN || v == US.WAIT_Q || v == US.WAIT_CREDIT

/-- The oldest tile has consumed its operands: its bank is streamed, or fills on from the next tile (R72, R73). -/
def endTile (p n : Nat) : M o Unit :=
  upArr p n fun a =>
    match a.tiles with
    | [] => a
    | t :: r =>
      let a := { a with tiles := r }
      if r.any (·.bank = t.bank) then a else a.setBank t.bank { a.bank t.bank with st := .streamed }

/-- One piece of streaming work; answers whether more may follow. -/
def streamStep (p n : Nat) (f : Flt) : M o Bool := do
  let s ← st
  let a ← arr p n
  match a.tiles with
  | [] => return false
  | t :: _ => do
    let x := t.ins.toNat
    if !arrLive s p n || !slopeOn s p n then return false
    else if evenUnits x ≤ t.done then do
      endTile p n
      return true
    else
      match ← gatherAll p n (stepSides x t.doneO) with
      | some true => stepUnit p n f
      | some false => return false
      | none => return arrLive (← st) p n

/-- The output stage writes its slots into its queue as credits allow (R61, R73). -/
def drainStep (p n : Nat) : M o Bool := do
  let s ← st
  let a ← arr p n
  match a.outBuf with
  | [] => return false
  | b :: r => do
    if !arrLive s p n then return false
    else if s.rd (R.PART_Q_CREDIT.CREDIT p a.outQ) = 0 then do
      setF (R.PART_Q_CREDIT.WAIT_P p a.outQ)
      return false
    else do
      pushSlot p a.outQ (uidOf p 0 n) b
      upArr p n fun a => { a with outBuf := r }
      return true

/-- An array's cells and output stage go on as far as slots, credits and grants allow. -/
def arrWork (p n : Nat) (f : Flt) : M o Unit := do
  loop 200000 (streamStep p n f)
  loop 5000 (drainStep p n)

/-- The array that a unit identifier names works on, if it is one. -/
def kickUnit (u : Nat) : M o Unit := do
  if uKind u = 0 ∧ uIdx u < 24 then arrWork (uPart u) (uIdx u) Flt.none else pure ()

/-- The arrays at the ends of a queue work on after it changed. -/
def kickQ (p q : Nat) : M o Unit := do
  let s ← st
  kickUnit (s.rd (R.PART_Q_ENDS.CONS p q))
  kickUnit (s.rd (R.PART_Q_ENDS.PROD p q))

/-! Output conversion. -/

/-- Every entry of a table from key k on, n of them. -/
def tdense {α : Type} (d : α) : Nat → Nat → Tbl α → List α
  | 0, _, _ => []
  | n + 1, k, t =>
    match t with
    | [] => d :: tdense d n (k + 1) []
    | (a, v) :: r => if a = k then v :: tdense d n (k + 1) r else d :: tdense d n (k + 1) t

/-- The lanes of a bank, resolved, in units of 2^(its exponent) (R40, R50). -/
def bankRes (a : Acc) : List Res :=
  (tdense Lane.zero 16384 0 a.lanes).map fun l => if a.fp then resolveFp (l.v.toNat % 2 ^ 32) else resolve l.v

/-- Exponent of a bank's results. -/
def bankExp (a : Acc) : Int := if a.fp then -149 else a.lsb

/-- A result in units of 2^(l - k). -/
def Res.scale (k : Nat) : Res → Res
  | .val n => .val (n * (2 ^ k : Nat))
  | r => r

/-- How an EMIT converts. -/
structure Conv where
  fmt : Nat
  rnd : Nat
  seed : Nat
  tag : Nat
  fixX : Option Int
  deriving DecidableEq, Repr

/-- One panel row: 32 columns from column `j0` of row i (R44 to R46). -/
def convRow (c : Conv) (l : Int) (i j0 : Nat) (rs : List Res) : List Byte × Nat × Exc :=
  let mds := (List.range rs.length).map fun k => rndOf c.rnd c.seed c.tag i (j0 + k)
  if hasScale c.fmt then
    let e := encodeBlock c.fmt mds l c.fixX rs
    (leBytes (laneBytes c.fmt) (packRun (elemBits c.fmt) e.1), e.2.1, e.2.2)
  else
    let es := List.zipWith (fun md r => encodeRes c.fmt md l 0 r) mds rs
    (leBytes (laneBytes c.fmt) (packRun (elemBits c.fmt) (es.map (·.1))), 0, es.foldl (fun a e => a.or e.2) Exc.none)

/-- One output panel: columns j0 + 32 g of every row, scales, padding (R68). -/
def convPanel (c : Conv) (l : Int) (j0 g : Nat) (rows : List (List Res)) : List Byte × Exc :=
  let rs := (rows.zipIdx).map fun (r, i) => convRow c l i (j0 + 32 * g) ((r.drop (32 * g)).take 32)
  let body := rs.flatMap (·.1)
  let scales := if hasScale c.fmt then rs.map (fun r => BitVec.ofNat 8 r.2.1) else []
  (padTo (panelBytes c.fmt) (body ++ scales), rs.foldl (fun a r => a.or r.2.2) Exc.none)

/-- The four panels of a bank whose first column is j0. -/
def convBank (c : Conv) (j0 : Nat) (a : Acc) : List Byte × Exc :=
  let rows := chunks 128 128 (bankRes a)
  let ps := (List.range 4).map fun g => convPanel c (bankExp a) j0 g rows
  (ps.flatMap (·.1), ps.foldl (fun x p => x.or p.2) Exc.none)

/-- One codebook panel of a source 256 columns wide: the halves a (columns 0 to 127) and b (R26, R27). -/
def convCb (f : Nat) (ents : List Byte) (a b : Acc) : List Byte × Exc :=
  let l := min (bankExp a) (bankExp b)
  let ra := chunks 128 128 ((bankRes a).map (Res.scale (bankExp a - l).toNat))
  let rb := chunks 128 128 ((bankRes b).map (Res.scale (bankExp b - l).toNat))
  let rs := List.zipWith (fun x y => encodeRecord f ents l (x ++ y)) ra rb
  (rs.flatMap fun r => recordOf f ents r.2.1 r.1, rs.foldl (fun x r => x.or r.2.2) Exc.none)

/-- The lane image of a bank (R69). -/
def laneImage (a : Acc) : List Byte :=
  let ls := tdense Lane.zero 16384 0 a.lanes
  ls.flatMap (fun l => leBytes 16 l.v.toNat) ++ ls.map (fun l => BitVec.ofNat 8 (l.sh % 128))

/-- The odd bank of a DEEP pair chained into the even bank, lanes and shadows (Table 02-8, R35, R49). -/
def chainBanks (a b : Acc) : Acc :=
  let add (x y : Lane) : Lane :=
    if a.fp then ⟨BitVec.ofNat 128 (f32add (x.v.toNat % 2 ^ 32) (y.v.toNat % 2 ^ 32)), 0⟩ else x.add y
  let l := List.zipWith add (tdense Lane.zero 16384 0 a.lanes) (tdense Lane.zero 16384 0 b.lanes)
  { a with lanes := (l.zipIdx.map fun e => (e.2, e.1)).filter (fun e => e.2 ≠ Lane.zero) }

/-- The lanes that leave through the even array's output stage: of a DEEP pair the chained ones (Table 02-8). -/
def outBank (a b : Acc) : Acc := if a.pm = 2 then chainBanks a b else a

/-- Array of the unit, 0 or 1, whose lanes fail the comparison as the tile leaves (R54); a chained lane is the even array's. -/
def bankFail (a b : Acc) : Option Nat :=
  if !residueOk a 0 16384 then some 0
  else if a.pm ≠ 0 && !residueOk b 0 16384 then some 1
  else if !residueOk (outBank a b) 0 16384 then some 0 else none

/-- The conversion that an EMIT asks for (Table 02-7, R43, R45). -/
def convOf (a : Arr) (x : Nat) : Conv :=
  { fmt := emitFmt x, rnd := emitRnd x, seed := a.seed.toNat,
    tag := if emitTagx x then (emitTag x + a.l0.toNat) % 2 ^ 32 else emitTag x,
    fixX := if emitSmode x = 1 then some (emitFixx x) else none }

/-- Bytes and flags of a tile with the bank `e` and, in a pair, the odd array's bank `d`, after the tile `h` that JOIN holds (R26, R44 to
R46, R68, R69, Table 02-8). -/
def encodeTile (c : Conv) (ents : List Byte) (e d : Acc) (h : Option Acc) : List Byte × Exc :=
  let m := outBank e d
  let wide := e.pm = 1
  if c.fmt = F.LANE then (laneImage m ++ (if wide then laneImage d else []), Exc.none)
  else if isCb c.fmt then
    if wide then convCb c.fmt ents m d
    else match h with
      | some g => convCb c.fmt ents g m
      | none => ([], Exc.none)
  else if wide then
    let l := convBank c 0 m
    let r := convBank c 128 d
    (l.1 ++ r.1, l.2.or r.2)
  else convBank c 0 m

/-- Bytes that an EMIT of bank `b` produces, and its flags. -/
def emitBytes (a : Arr) (b x : Nat) : List Byte × Exc :=
  encodeTile (convOf a x) a.cbEnt (a.bank b) (a.obank b) ((heldBank a).map fun h => outBank (a.bank h) (a.obank h))

/-- Bytes that the odd array's output stage encodes in SHADOW mode, from its own banks, seed and codebook register `q` (R78, R80). -/
def shadowBytes (a q : Arr) (b x : Nat) : List Byte :=
  (encodeTile { convOf a x with seed := q.seed.toNat } q.cbEnt (a.obank b) (a.bank b) ((heldBank a).map fun h => a.obank h)).1

/-- Output-stage faults of one array of the unit. -/
def outFlip (ups : List OutUpset) (odd : Bool) (l : List Byte) : List Byte :=
  ups.foldl (fun l u => if u.odd = odd then l.set u.pos (l.getD u.pos 0 ^^^ u.val) else l) l

/-- Set the flags of an output conversion (R58). -/
def excFlags (p n : Nat) (e : Exc) : M o Unit := do
  when_ e.nanBlock (setF (R.PART_ARR_EXC.NAN_BLOCK p n))
  when_ e.nanOut (setF (R.PART_ARR_EXC.NAN_OUT p n))
  when_ e.infSat (setF (R.PART_ARR_EXC.INF_SAT p n))
  when_ e.sat (setF (R.PART_ARR_EXC.SAT p n))

/-! Program flow (R71). -/

/-- The instruction retires: the program counter moves on. -/
def retire (p n : Nat) : M o Unit := do
  wr (R.PART_ARR_STAT.PC p n) ((← rd (R.PART_ARR_STAT.PC p n)) + 1)
  runUnit (uidOf p 0 n)

/-- The instruction retires with a jump. -/
def jumpTo (p n t : Nat) : M o Unit := do
  wr (R.PART_ARR_STAT.PC p n) t
  runUnit (uidOf p 0 n)

/-- Array n of partition p carries out the instruction at its program counter when its opcode is `opc` (R71): the unit has its
turn, cells and output stage work on, an illegal instruction stops it (R76), else `body` runs on the instruction. An odd member of a pair
runs no program (R78). -/
def arrTurn (p n opc : Nat) (f : Flt) (body : Nat → M o Unit) : M o Unit := do
  applyUps f.ups
  applyCells p n f.cells
  let u := uidOf p 0 n
  if (← rd (R.PART_ARR_STAT.PAIR p n)) = 2 then pure ()
  else if !(← unitTurn u) then pure ()
  else do
    arrWork p n f
    let s ← st
    if !arrLive s p n then pure () else do
      let pc := s.rd (R.PART_ARR_STAT.PC p n)
      match ← readMem RC.array u (storeBase p n + 16 * pc) 16 with
      | .error e => arrDataLoss p n e
      | .ok b => do
        let x := leNat b
        if insOpc x ≠ opc ∧ opcDefined (insOpc x) then pure ()
        else if !insLegal (← st) p n (← arr p n) x then arrIllegal p n
        else body x

/-! Throttle. -/

/-- Active cycles per frame that an array runs (R292); a pair runs the larger of its two duties (R81). -/
def dutyOf (s : State) (key : Nat) : Nat :=
  let d (k : Nat) := (tget Arr.init s.arrs k).duty
  let p := key / 24
  let n := key % 24
  if s.rd (R.PART_ARR_STAT.PAIR p n) = 1 then max (d key) (d (key + 1))
  else if n % 2 = 1 ∧ s.rd (R.PART_ARR_STAT.PAIR p (n - 1)) = 1 then max (d key) (d (key - 1))
  else d key

/-- PWR_STAT.THROTTLE is 1 while any array is throttled (R292). -/
def refreshThrottle : M o Unit := do
  let s ← st
  wrB R.PWR_STAT.THROTTLE (s.arrs.any fun e => decide (dutyOf s e.1 < 16))

/-! Rotation targets. -/

/-- A bound context names the unit (R167). -/
def named (s : State) (u : Nat) : Bool := (List.range 64).any fun c => (tget Ctx.init s.host.ctx c).units.contains u

/-- A physical array or core is free: it is not bad, serves no logical unit that a bound context names, and is not withheld (R293, R390). -/
def physFree (s : State) (p kind phys : Nat) : Bool :=
  let bad := if kind = 0 then s.rd (R.PART_TOP_BAD_ARR.BAD p)
    else s.rd (R.PART_TOP_BAD_CORE_LO.BAD p) + 2 ^ 32 * s.rd (R.PART_TOP_BAD_CORE_HI.BAD p)
  let used (i : Nat) : Bool :=
    named s (uidOf p kind i) &&
      if kind = 0 then s.rd (R.PART_TOP_ARRn.VALID p i) == 1 && s.rd (R.PART_TOP_ARRn.PHYS p i) == phys
      else s.rd (R.PART_TOP_COREg.VALID p i) == 1 && s.rd (R.PART_TOP_COREg.PHYS p i) == phys
  decide (phys < (if kind = 0 then 26 else 52)) && fget bad phys 1 == 0 &&
    !(List.range (if kind = 0 then 24 else 48)).any used && !s.pw.withheld.contains (p, kind, phys)

/-- Two different physical arrays are adjacent: they share a column or lie in neighbouring columns (R356, Placement). -/
def physAdj (a b : Nat) : Bool := a != b && decide (a / 2 ≤ b / 2 + 1) && decide (b / 2 ≤ a / 2 + 1)

/-- The unit is a pleached pair. -/
def isPair (s : State) (u : Nat) : Bool := uKind u == 0 && s.rd (R.PART_ARR_STAT.PAIR (uPart u) (uIdx u)) == 1

/-- The physical units that a rotation of `u` to `phys`, and of its odd array to `phys2`, takes are free: two adjacent arrays for a
pair (R89). -/
def rotTarget (s : State) (u phys phys2 : Nat) : Bool :=
  physFree s (uPart u) (uKind u) phys && (!isPair s u || (physFree s (uPart u) 0 phys2 && physAdj phys phys2))

/-- Some free targets exist that meet a further condition (R89, R120). -/
def rotSome (s : State) (u : Nat) (ok : Nat → Bool) : Bool :=
  (List.range 52).any fun x => ok x && (if isPair s u then (List.range 26).any fun y => rotTarget s u x y && ok y else rotTarget s u x 0)

/-- Some free target exists (R89, R120). -/
def rotPossible (s : State) (u : Nat) : Bool := rotSome s u fun _ => true

/-- The phase lists a rotation point of the unit at this program counter (R168). -/
def rotListed (s : State) (u pc : Nat) : Bool :=
  match unitCtx s u with
  | none => false
  | some c => match phaseOf s c with
    | none => false
    | some ph => ph.rot.contains (u, pc)

end Sys2Proof.Machine
end

