-- ==== Sys2Proof/Machine/VaultOps.lean ====
section
/-!
DEFINITION. Vault writes: the wear budget (R157, R158), the regions (R152) and the journal (R155).
-/

namespace Sys2Proof.Machine

variable {o : State}

/-- Units of 64 KiB that a write takes, rounded up (R157). -/
def wearUnits (bytes : Nat) : Nat := (bytes + 65535) / 65536

/-- Take a write's units from the wear counter, or refuse it (R157, R158); a spill write keeps the reserve. Each page adds one byte of journal
entries: the spec gives an entry no size (log entry 108). -/
def wearTake (bytes : Nat) (spill : Bool) : M o Bool := do
  let u := wearUnits bytes
  let w := (← st).vlt.wear
  if w < u + (if spill then Config.spillReserve else 0) then return false
  else do
    eff (.vlt fun v => { v with wear := v.wear - u, written := v.written + u, pend := v.pend + bytes / 4096 })
    return true

/-- Program whole pages of the vault: a page whose read would fail is replaced (R153). -/
def pageWrite (a : Nat) (bs : List Byte) : M o Unit := do
  eff (.write a bs)
  eff (.mem fun m => { m with badPages := m.badPages.filter fun pg => pg < a || a + bs.length ≤ pg })

/-- Key under which operation `id` waits for the journal commit that covers its pages (R155). -/
def opKey (id : Nat) : Nat := 3 * id

/-- A streamer write into the vault: only into SPILL, within the budget (R152, R158). One row or panel is one write, which takes its size
in units, rounded up (log entry 108). -/
def spillWrite (a : Nat) (bs : List Byte) : M o (Except Nat Unit) := do
  let off := a - vaultBase
  if vaultRegion off ≠ 6 ∨ bs.length = 0 ∨ vaultRegion (off + bs.length - 1) ≠ 6 then do
    setF R.MEM_VLT_STAT.REGION_REFUSED
    return .error D.REGION_REFUSED
  else if !(← wearTake bs.length true) then do
    setF R.MEM_VLT_STAT.WEAR_REFUSED
    return .error D.WEAR_REFUSED
  else do
    pageWrite a bs
    return .ok ()

end Sys2Proof.Machine
end

