-- ==== Sys2Proof/Machine/TierOps.lean ====
section
/-!
DEFINITION. Memory upkeep: the journal commit (R155), image-backed pages (R150, R169), host accesses through BAR4 (R134, R144, R163) and the
IDE requirement on host requests (R440).
-/

namespace Sys2Proof.Machine

variable {o : State}

/-- Key under which plan block b of a quickset session waits for the journal commit (R155, R363). -/
def qsKey (b : Nat) : Nat := 3 * b + 2

/-- The journal commits (R155): what waited for it is complete, and the life counts reach the superblock (R301). -/
def commitJournal : M o Unit := do
  let w := (← st).vlt.waiting
  (match (← st).vlt.life with
  | some l => eff (.super fun x => { x with life := l.1, stack := l.2 })
  | none => pure ())
  let bs := (w.filter fun k => k % 3 == 2).map (· / 3)
  when_ (!bs.isEmpty) (do
    eff (.qs fun q => { q with have_ := q.have_ ++ (bs.map (false, ·)).filter (!q.have_.contains ·) })
    mark K.qsNew)
  eff (.host fun h => { h with ops := h.ops.map fun x => if w.contains (opKey x.opid) then { x with ready := true } else x })
  eff (.vlt fun v => { v with pend := 0, waiting := [], life := none })
  mark K.journal

/-- Module address of the image byte that a bound range loads to address `a`, if one does (R150, R169). -/
def imageByte (s : State) (a : Nat) : Option Nat :=
  let rs := (List.range 64).flatMap fun c => (tget Ctx.init s.host.ctx c).ranges
  (rs.find? fun r => decide (r.2.1 ≤ a) && decide (a < r.2.1 + r.2.2.1)).map fun r => slotBase s.nv.super.active + r.1 + (a - r.2.1)

/-- The module serves: READY, RUN, DRAIN or HOLD. -/
def serving (s : State) : Bool := s.ctl.mode == .ready || s.ctl.mode == .run || s.ctl.mode == .drain || s.ctl.mode == .hold

/-- The scrubber's status index of a region (MEM_SCRUB_STATt). -/
def scrubIdx (r : Region) : Nat := min 2 (tierCode r)

/-- Scrubbers run (R148). -/
def scrubs (s : State) (r : Region) : Bool :=
  serving s && !(s.ctl.rungs.any fun x => x.depth == 4 || (x.depth == 3 && match r.part with
      | some p => decide (x.pmask / 2 ^ p % 2 = 1)
      | none => false))

/-- The codeword lies in an INVALID array store or local memory (R149). -/
def invalidSram (s : State) (r : Region) : Bool :=
  match r with
  | .store p n => s.rd (R.PART_ARR_STAT.STATE p n) == US.INVALID
  | .loc p g => s.rd (R.PART_CORE_STAT.STATE p g) == US.INVALID
  | _ => false

/-- A codeword that no pass visits: of a failed channel, of an INVALID store or local memory, or unmapped (R134, R149, R357). -/
def scrubSkips (s : State) (cw : Nat) : Bool :=
  match regionOf s cw with
  | .none | .vault _ => true
  | r => invalidSram s r || chanFailed s cw 1

/-- What one kind of scrubber passes over: first addresses and codeword counts (Table 04-10, R125). -/
def scrubRanges (t : Nat) : List (Nat × Nat) :=
  match t with
  | 0 => [(0, 0xC00000000 / 64)]
  | 1 => [(0x10000000000, 2 ^ 40 / 64)]
  | _ => [(poolBase 0, 0x20000000 / 32), (storeBase 0 0, 0x20000000 / 32), (locBase 0 0, 0x8000000 / 32), (ctlBase, ctlSize / 32)]

/-- Interval of Table 04-1 within which a pass completes, ns (R146). -/
def scrubInterval (t : Nat) : Nat := 3600000000000 * (if t = 0 then 12 else if t = 1 then 24 else 1)

/-- Every number below n satisfies the test. -/
def allBelow : Nat → (Nat → Bool) → Bool
  | 0, _ => true
  | n + 1, f => f n && allBelow n f

/-- Every codeword that a pass has to visit has been visited (R146). -/
def passDone (s : State) (t : Nat) (visited : List Nat) : Bool :=
  (scrubRanges t).all fun r => allBelow r.2 fun i =>
    let cw := r.1 + (if t = 2 then 32 else 64) * i
    visited.contains cw || scrubSkips s cw

/-- The pass over memory t in progress; passes repeat continuously (R146). -/
def passOf (s : State) (t : Nat) : ScrubPass := (tget none s.mem.scrub t).getD ⟨[], s.clk.mono, false, false⟩

/-- Set the pass over memory t. -/
def setPass (t : Nat) (p : ScrubPass) : M o Unit := eff (.mem fun m => { m with scrub := tset none m.scrub t (some p) })

/-- A codeword is visited; the visit that completes the pass counts it, with its length in minutes, and the next pass begins (R146, R148). -/
def passVisit (t cw : Nat) : M o Unit := do
  let s ← st
  let p := passOf s t
  let v := if p.visited.contains cw then p.visited else p.visited ++ [cw]
  if passDone s t v then do
    wr (R.MEM_SCRUB_STATt.LAST_MIN t) (min 1023 ((s.clk.mono - p.start) / 60000000000))
    incWrap (R.MEM_SCRUB_STATt.PASSES t)
    setPass t ⟨[], s.clk.mono, false, false⟩
  else setPass t { p with visited := v }

/-- Something stops the scrubbers: the passes in progress take longer (R148). -/
def scrubStop : M o Unit := do
  let s ← st
  each (List.range 3) fun t => setPass t { passOf s t with stopped := true }

/-- A tier-1 channel is in use: the module serves and the channel has not failed (R133, R134). -/
def t1Live (s : State) (c : Nat) : Bool := serving s && !t1Failed s c

/-- Host requests outside a stream are refused: IDE is required and the request is in none (R440). -/
def ideRefuses (s : State) (ide : Bool) : Bool := s.nv.settings.ideReq && !ide

/-- A request on BAR0 or BAR2, whose command does not say its stream, is inside one when some stream has keys (log entry 35). -/
def ideBlocks (s : State) : Bool := ideRefuses s (!s.sec.ide.isEmpty)

/-- Module address of a BAR4 offset, if its window maps it (R163). -/
def bar4Addr (s : State) (off len : Nat) : Option Nat :=
  let w := off / 2 ^ 34
  let a := s.rd (R.MEM_BAR4_WINw.BASE w) * 2 ^ 34 + off % 2 ^ 34
  if w < 4 ∧ s.rd (R.MEM_BAR4_WINw.EN w) = 1 ∧ 0 < len ∧ off % 2 ^ 34 + len ≤ 2 ^ 34 ∧ spanOk s a len then
    match regionOf s a with
    | .vault _ => none
    | _ => some a
  else none

/-- The pieces of a run that each lie in one codeword: address and bytes. -/
def cwPieces (sz : Nat) : Nat → Nat → List Byte → List (Nat × List Byte)
  | 0, _, _ => []
  | n + 1, a, bs => if bs.isEmpty then [] else
      let k := sz - a % sz
      (a, bs.take k) :: cwPieces sz n (a + k) (bs.drop k)

/-- A posted host write: every codeword that can take its bytes does (R144). -/
def postedWrite : List (Nat × List Byte) → M o Unit
  | [] => pure ()
  | (a, b) :: t => do
    match ← writeMem RC.host 0 a b with
    | .ok _ => pure ()
    | .error _ => setF R.MEM_STAT.BAR4_UE
    postedWrite t

end Sys2Proof.Machine
end

