-- ==== Sys2Proof/Machine/FabricOps.lean ====
section
/-!
DEFINITION. Fazar packets (Table 06-6, R218), the tables of a bank (R220 to R224), ports and links as a router knows them (R206, R209, R228),
path choice and routing (R225 to R228), injection (R222, R242), delivery (R241) and fencing (R243).
-/

namespace Sys2Proof.Machine

variable {o : State}

/-! Header fields (Table 06-6). -/
def hTYPE (k : Pkt) : Nat := fget k.h0.toNat 60 4
def hVC (k : Pkt) : Nat := fget k.h0.toNat 57 3
def hEPOCH (k : Pkt) : Nat := fget k.h0.toNat 56 1
def hGEN (k : Pkt) : Nat := fget k.h0.toNat 48 8
def hDST (k : Pkt) : Nat := fget k.h0.toNat 28 20
def hSRC (k : Pkt) : Nat := fget k.h0.toNat 8 20
def hOCH (k : Pkt) : Nat := fget k.h0.toNat 4 4
def hDPART (k : Pkt) : Nat := fget k.h0.toNat 1 3
def hSEQ (k : Pkt) : Nat := fget k.h1.toNat 48 16
def hLEN (k : Pkt) : Nat := fget k.h1.toNat 42 6
def hNMIN (k : Pkt) : Nat := fget k.h1.toNat 41 1
def hINTER (k : Pkt) : Nat := fget k.h1.toNat 30 11
def hGWL (k : Pkt) : Nat := fget k.h1.toNat 20 10
def hLH (k : Pkt) : Nat := fget k.h1.toNat 17 3
def hGH (k : Pkt) : Nat := fget k.h1.toNat 15 2
def hBSTAGE (k : Pkt) : Nat := fget k.h1.toNat 13 2
def hBSCOPE (k : Pkt) : Nat := fget k.h1.toNat 12 1
def hDQ (k : Pkt) : Nat := fget k.h1.toNat 0 10
def hTSPEC (k : Pkt) (lo w : Nat) : Nat := fget k.h2.toNat lo w
def hHCRC (k : Pkt) : Nat := fget k.h3.toNat 0 16

/-- Set bits of header word H0. -/
def setH0 (lo w v : Nat) (k : Pkt) : Pkt := { k with h0 := BitVec.ofNat 64 (fset k.h0.toNat lo w v) }

/-- Set bits of header word H1. -/
def setH1 (lo w v : Nat) (k : Pkt) : Pkt := { k with h1 := BitVec.ofNat 64 (fset k.h1.toNat lo w v) }

/-- Set bits of header word H2. -/
def setH2 (lo w v : Nat) (k : Pkt) : Pkt := { k with h2 := BitVec.ofNat 64 (fset k.h2.toNat lo w v) }

/-- The 32 header bytes. -/
def hdrBytes (k : Pkt) : List Byte := leBytes 8 k.h0.toNat ++ leBytes 8 k.h1.toNat ++ leBytes 8 k.h2.toNat ++ leBytes 8 k.h3.toNat

/-- The correct HCRC: over header bytes 0 to 29, in which HCRC's own bits count as zero (R218; log entry 51). -/
def hcrcOf (k : Pkt) : Nat := crc16 ((hdrBytes { k with h3 := BitVec.ofNat 64 (fset k.h3.toNat 0 16 0) }).take 30)

/-- The header with every mutable field zero (R218). -/
def immutableHdr (k : Pkt) : Pkt :=
  let k := setH1 13 2 0 (setH1 15 2 0 (setH1 17 3 0 (setH1 20 10 0 (setH0 57 3 0 k))))
  { k with h3 := BitVec.ofNat 64 (fset k.h3.toNat 0 16 0) }

/-- The correct packet CRC-32 (R218). -/
def pktCrc (k : Pkt) : Nat := crc32 (hdrBytes (immutableHdr k) ++ k.pay)

/-- The packet with its HCRC recomputed. -/
def rehdr (k : Pkt) : Pkt := { k with h3 := BitVec.ofNat 64 (fset k.h3.toNat 0 16 (hcrcOf k)) }

/-- The packet with both checks right. -/
def sealPkt (k : Pkt) : Pkt :=
  let k := rehdr k
  { k with crc := BitVec.ofNat 32 (pktCrc k) }

/-- A packet to be injected: type, destination, channel, destination partition and queue, SEQ, TSPEC, payload. -/
def mkPkt (ty dst och dpart dq seq tspec : Nat) (pay : List Byte) : Pkt :=
  { h0 := BitVec.ofNat 64 (ty * 2 ^ 60 + dst % 2 ^ 20 * 2 ^ 28 + och % 16 * 16 + dpart % 8 * 2)
    h1 := BitVec.ofNat 64 (seq % 65536 * 2 ^ 48 + (pay.length / 32) * 2 ^ 42 + 3 * 2 ^ 13 + dq % 1024)
    h2 := BitVec.ofNat 64 tspec, h3 := 0, pay := pay, crc := 0 }

/-- Flits that a packet occupies (R217). -/
def flitsOf (k : Pkt) : Nat := (36 + 32 * hLEN k + 63) / 64

/-! FZ_DROPk counters. -/
abbrev DR.EPOCH_LATE := 0
abbrev DR.GEN_OLD := 1
abbrev DR.NOPATH := 2
abbrev DR.DIR_UE := 3
abbrev DR.ORDER := 4
abbrev DR.NONCE := 5
abbrev DR.RED_EXPIRED := 6
abbrev DR.RED_MISMATCH := 7
abbrev DR.TYPE_RSV := 8
abbrev DR.HOP_LIMIT := 9
abbrev DR.BCAST_DENIED := 10

/-- Count a discarded packet. -/
def dropPkt (k : Nat) : M o Unit := incSat (R.FZ_DROPk.COUNT k)

/-! Tables of a bank. -/

/-- Bank of an epoch bit. -/
def bankOf (s : State) (e : Nat) : Bank := if e = 0 then s.fab.bank0 else s.fab.bank1

/-- Epoch bit of the active bank. -/
def activeEpoch (s : State) : Nat := s.rd R.FZ_BANK_STAT.ACTIVE

/-- Change the bank of an epoch bit. -/
def upBank (e : Nat) (f : Bank → Bank) : M o Unit :=
  eff (.fab fun b => if e = 0 then { b with bank0 := f b.bank0 } else { b with bank1 := f b.bank1 })

/-- Directory entry of an address (Tables 06-9 and 06-10). Address 0 is never assigned (R220). -/
def dirEnt (s : State) (e fa : Nat) : Nat := if fa = 0 then 0 else (tget 0 (bankOf s e).dir fa).toNat

/-- A VALID unicast entry. -/
def entUni (x : Nat) : Bool := fget x 63 1 == 1 && fget x 62 1 == 0

/-- A VALID, ACTIVE unicast entry. -/
def entActive (x : Nat) : Bool := entUni x && fget x 60 2 == 0

/-- A VALID group entry. -/
def entGrp (x : Nat) : Bool := fget x 63 1 == 1 && fget x 62 1 == 1

/-- GEN of an entry. -/
def entGen (x : Nat) : Nat := fget x 52 8

/-- MGR of an entry. -/
def entMgr (x : Nat) : Bool := entUni x && fget x 51 1 == 1

/-- LOC of an entry. -/
def entLoc (x : Nat) : Nat := fget x 32 19

/-- The module's own location (R205). -/
def ownLoc (s : State) : Nat := s.rd R.RST_STRAP.LOC

/-- The module's own FA. -/
def ownFa (s : State) : Nat := s.rd R.FZ_SELF.FA

/-- Addresses whose ACTIVE entry names the module's location (R222). -/
def selfFas (s : State) (e : Nat) : List (Nat × Nat) :=
  ((bankOf s e).dir.filter fun x => x.1 != 0 && entActive x.2.toNat && entLoc x.2.toNat == ownLoc s).map fun x => (x.1, entGen x.2.toNat)

/-- FZ_SELF follows the active bank (R222). -/
def refreshSelf : M o Unit := do
  let s ← st
  match selfFas s (activeEpoch s) with
  | [(fa, g)] => wrs [(R.FZ_SELF.VALID, 1), (R.FZ_SELF.GEN, g), (R.FZ_SELF.FA, fa)]
  | _ => wrs [(R.FZ_SELF.VALID, 0), (R.FZ_SELF.GEN, 0), (R.FZ_SELF.FA, 0)]

/-- Hedgerow of a location. -/
def locH (l : Nat) : Nat := fget l 8 11

/-- Module index of a location: 16 y + x. -/
def locM (l : Nat) : Nat := l % 256

/-- Members of a group's tree next to this module: its parent and its children (R245). -/
def treeNext (s : State) (e x : Nat) : List Nat :=
  let parent := fget x 35 20
  let kids := (List.range (fget x 23 12)).filterMap fun i =>
    let c := (tget 0 (bankOf s e).ch (fget x 7 16 + i)).toNat
    if c / 2 ^ 31 = 1 then some (c % 2 ^ 20) else none
  (if parent = 0 then [] else [parent]) ++ kids

/-- Children of a group entry. -/
def treeKids (s : State) (e x : Nat) : List Nat := (treeNext s e x).drop (if fget x 35 20 = 0 then 0 else 1)

/-- Global links of the own hedgerow toward hedgerow h that the gateway list shows UP: (module, port) (R224). -/
def gateways (s : State) (e h : Nat) : List (Nat × Nat) :=
  let g := (tget 0 (bankOf s e).gw h).toNat
  (List.range (fget g 10 11)).filterMap fun i =>
    let x := (tget 0 (bankOf s e).gl (fget g 21 10 + i)).toNat
    if x / 2 ^ 31 = 1 then some (fget x 2 8, fget x 0 2) else none

/-! Links (R206, R209, R213, R228). -/

/-- Port states (FZ_PORT_STAT.STATE). -/
abbrev PS.DISABLED := 0
abbrev PS.TRAINING := 1
abbrev PS.IDENT := 2
abbrev PS.TEST := 3
abbrev PS.UP := 4
abbrev PS.HELD := 5
abbrev PS.EXCLUDED := 6
abbrev PS.DOWN := 7

/-- Port n is UP. -/
def portUp (s : State) (n : Nat) : Bool := s.rd (R.FZ_PORT_STAT.STATE n) == PS.UP

/-- The port that serves duty port n: a spare that stands in for it, else itself (R209). -/
def servingPort (s : State) (n : Nat) : Nat :=
  match [34, 35].find? fun r => s.rd (R.FZ_PORT_STAT.SUBST r) == 1 && s.rd (R.FZ_PORT_STAT.FOR r) == n && portUp s r with
  | some r => r
  | none => n

/-- Duty port from module m to module d of the same row or column (R206). -/
def localPort (m d : Nat) : Nat :=
  if m / 16 = d / 16 then (if d % 16 < m % 16 then d % 16 else d % 16 - 1)
  else 15 + (if d / 16 < m / 16 then d / 16 else d / 16 - 1)

/-- A port of the hedgerow is not known down. -/
def portKnown (s : State) (m port : Nat) : Bool :=
  if m = locM (ownLoc s) then portUp s (servingPort s port) else !s.fab.down.contains (36 * m + port)

/-- The local link between two modules of a row or column carries traffic as far as the router knows. -/
def hopUp (s : State) (m d : Nat) : Bool := portKnown s m (localPort m d) && portKnown s d (localPort d m)

/-- Local hops from m to d, row first. -/
def rowFirst (m d : Nat) : List (Nat × Nat) :=
  let c := 16 * (m / 16) + d % 16
  (if m = c then [] else [(m, c)]) ++ (if c = d then [] else [(c, d)])

/-- Local hops from m to d, column first. -/
def colFirst (m d : Nat) : List (Nat × Nat) :=
  let c := 16 * (d / 16) + m % 16
  (if m = c then [] else [(m, c)]) ++ (if c = d then [] else [(c, d)])

/-- Every hop of a local path is up. -/
def hopsUp (s : State) (l : List (Nat × Nat)) : Bool := l.all fun h => hopUp s h.1 h.2

/-- Some local path that a last segment may take is up: row first, else column first. -/
def reachable (s : State) (m d : Nat) : Bool := hopsUp s (rowFirst m d) || hopsUp s (colFirst m d)

/-- First output port of a local path that starts at this module, or the port `dflt` when it has no hop. -/
def firstOut (l : List (Nat × Nat)) (dflt : Nat) : Nat :=
  match l with
  | [] => dflt
  | h :: _ => localPort h.1 h.2

/-- Flits queued at an output. -/
def portLoad (e : RouteEnv) (port : Nat) : Nat := e.loads.getD port 0

/-- The first element of least cost. -/
def leastBy {α : Type} (cost : α → Nat) : List α → Option α
  | [] => none
  | a :: t => match leastBy cost t with
    | none => some a
    | some b => if cost b < cost a then some b else some a

/-- Global links toward hedgerow h that this router can reach, up and known up (R224, R226). -/
def usableLinks (s : State) (e h : Nat) : List (Nat × Nat) :=
  let m := locM (ownLoc s)
  (gateways s e h).filter fun g => portKnown s g.1 (30 + g.2) && hopsUp s (rowFirst m g.1)

/-- First output toward a global link. -/
def linkOut (s : State) (g : Nat × Nat) : Nat := servingPort s (firstOut (rowFirst (locM (ownLoc s)) g.1) (30 + g.2))

/-- The global link toward hedgerow h whose first output has the fewest flits queued (R226). -/
def bestLink (s : State) (e h : Nat) (r : RouteEnv) : Option (Nat × Nat) :=
  leastBy (fun g => portLoad r (linkOut s g)) (usableLinks s e h)

/-- A path candidate (R227). -/
structure Cand where
  nmin : Nat
  inter : Nat
  gwl : Nat
  hops : Nat
  out : Nat

/-- Link index from hedgerow h to g in a machine of 1,025 hedgerows (R207). -/
def linkIdx (h g : Nat) : Nat := (g + 1025 - h - 1) % 1025

/-- Module at which link index l arrives in a machine of 1,025 hedgerows (R207). -/
def linkLand (l : Nat) : Nat := (1023 - l) / 4

/-- The wiring that R207 gives a machine of 1,025 hedgerows. In a smaller machine the integrator chooses it. -/
def FullWiring : Prop :=
  (∀ h < 1025, ∀ g < 1025, h ≠ g → Config.linkTo h g = some (linkIdx h g)) ∧ ∀ h < 1025, ∀ l < 1024, Config.landing h l = linkLand l

/-- Minimal candidates to location d (R225, R227): one within the hedgerow; toward another, one over each link. -/
def minCands (s : State) (e d : Nat) : List Cand :=
  let m := locM (ownLoc s)
  if locH d = locH (ownLoc s) then
    let p := if hopsUp s (rowFirst m (locM d)) then rowFirst m (locM d) else colFirst m (locM d)
    if hopsUp s p then [⟨0, 0, 0, p.length, servingPort s (firstOut p 0)⟩] else []
  else (usableLinks s e (locH d)).map fun g =>
    let l := 4 * g.1 + g.2
    ⟨0, 0, l, (rowFirst m g.1).length + 1 + (rowFirst (Config.landing (locH (ownLoc s)) l) (locM d)).length, linkOut s g⟩

/-- The element of a list that a random value picks. -/
def pickFrom {α : Type} (l : List α) (v : Nat) : Option α := l[v % max 1 l.length]?

/-- Two non-minimal candidates, chosen by the random values (R227): an intermediate module, or an intermediate hedgerow with a link from here and a
link to the destination's. -/
def nmCands (s : State) (e d : Nat) (r : RouteEnv) : List Cand :=
  let m := locM (ownLoc s)
  let h := locH (ownLoc s)
  if locH d = h then
    let ok := (List.range 256).filter fun i => i != m && i != locM d && hopsUp s (rowFirst m i) && reachable s i (locM d)
    (r.picks.take 2).filterMap fun v => (pickFrom ok v).map fun i =>
      ⟨1, i, 0, (rowFirst m i).length + (rowFirst i (locM d)).length, servingPort s (firstOut (rowFirst m i) 0)⟩
  else
    let ok := (List.range 1025).filter fun i => i != h && i != locH d && !(usableLinks s e i).isEmpty && (Config.linkTo i (locH d)).isSome
    (r.picks.take 2).filterMap fun v => (pickFrom ok v).bind fun i => (bestLink s e i r).map fun g =>
      let l1 := 4 * g.1 + g.2
      let l2 := (Config.linkTo i (locH d)).getD 0
      ⟨1, i, l1, (rowFirst m g.1).length + 2 + (rowFirst (Config.landing h l1) (l2 / 4)).length +
        (rowFirst (Config.landing i l2) (locM d)).length, linkOut s g⟩

/-- The path choice of the source router (R227). The cost decides the kind; a minimal path to another hedgerow takes the global link whose
first output has the fewest flits queued (R226). -/
def choosePath (s : State) (k : Pkt) (r : RouteEnv) : Option Pkt :=
  let e := hEPOCH k
  let d := entLoc (dirEnt s e (hDST k))
  let cs := minCands s e d ++ (if s.rd R.FZ_RT_CFG.NM_EN = 1 then nmCands s e d r else [])
  let bias := s.rd R.FZ_RT_CFG.NM_BIAS
  (leastBy (fun c => portLoad r c.out * c.hops + (if c.nmin = 1 then bias else 0)) cs).map fun c =>
    let gwl := if c.nmin = 0 ∧ locH d ≠ locH (ownLoc s) then (bestLink s e (locH d) r).elim c.gwl (fun g => 4 * g.1 + g.2) else c.gwl
    setH1 15 2 0 (setH1 17 3 0 (setH1 20 10 gwl (setH1 30 11 c.inter (setH1 41 1 c.nmin (setH0 57 3 0 k)))))

/-- A local hop toward module d in class `cls`. -/
def localHop (s : State) (k : Pkt) (m d cls : Nat) (col : Bool) : Option (Option Nat × Pkt) :=
  match (if col then colFirst m d else rowFirst m d) with
  | [] => none
  | h :: _ =>
    if hopUp s h.1 h.2 then some (some (servingPort s (localPort h.1 h.2)), setH0 57 3 cls (setH1 17 3 (hLH k + 1) k)) else none

/-- A last local segment begins: row first in class `cls`, or column first in L3 when its row-first hops are down (R225, R228). -/
def lastSegment (s : State) (k : Pkt) (m d cls : Nat) : Option (Option Nat × Pkt) :=
  if hopsUp s (rowFirst m d) then localHop s k m d cls false
  else if hopsUp s (colFirst m d) then localHop s k m d 5 true
  else localHop s k m d cls false

/-- A global hop over link GWL of this module, in class `cls`. -/
def globalHop (s : State) (k : Pkt) (cls : Nat) : Option (Option Nat × Pkt) :=
  let p := servingPort s (30 + hGWL k % 4)
  if portUp s p then some (some p, setH0 57 3 cls (setH1 15 2 (hGH k + 1) k)) else none

/-- Toward the gateway that GWL names, or over its link when this module is the gateway. -/
def towardLink (s : State) (k : Pkt) (m cls gcls : Nat) : Option (Option Nat × Pkt) :=
  if hGWL k / 4 = m then globalHop s k gcls else localHop s k m (hGWL k / 4) cls false

/-- The next hop (R225, R226): an output port, or none of them at the destination; no answer where no path is left. -/
def route (s : State) (k : Pkt) (start : Bool) (r : RouteEnv) : Option (Option Nat × Pkt) :=
  let e := hEPOCH k
  let x := dirEnt s e (hDST k)
  let m := locM (ownLoc s)
  let d := locM (entLoc x)
  let h := locH (ownLoc s)
  let vc := hVC k
  if !entUni x then none
  else if entLoc x = ownLoc s then some (none, k)
  else if locH (entLoc x) = h then
    if vc = 0 ∧ hNMIN k = 1 ∧ hINTER k % 256 ≠ m then localHop s k m (hINTER k % 256) 0 false
    else if vc = 0 ∧ hNMIN k = 1 then lastSegment s k m d 2
    else if vc = 0 then (if start then lastSegment s k m d 0 else localHop s k m d 0 false)
    else if vc = 1 ∨ vc = 3 then lastSegment s k m d 4
    else localHop s k m d vc (vc == 5)
  else if vc = 0 then towardLink s k m 0 1
  else if vc = 1 then
    match bestLink s e (locH (entLoc x)) r with
    | some g => towardLink s (setH1 20 10 (4 * g.1 + g.2) k) m 2 3
    | none => none
  else if vc = 2 then towardLink s k m 2 3
  else none

/-! Delivery. -/

/-- GEN check of a delivered packet (R241): the sender's entry in the own active bank is ACTIVE and not newer. -/
def genOk (s : State) (fa gen : Nat) : Bool :=
  let x := dirEnt s (activeEpoch s) fa
  let d := (entGen x + 256 - gen % 256) % 256
  entActive x && !(decide (1 ≤ d) && decide (d ≤ 127))

/-- A packet reaches its module: the GEN check, then its own command takes it (log entry 26). -/
def deliverPkt (k : Pkt) : M o Unit := do
  if !genOk (← st) (hSRC k) (hGEN k) then dropPkt DR.GEN_OLD
  else if hTYPE k = 7 then pure ()
  else eff (.fab fun f => { f with inbox := f.inbox ++ [k] })

/-- Write slots at positions `i` onward of a queue's ring (R232). -/
def ringPut (p q i : Nat) : List (List Byte) → M o Unit
  | [] => pure ()
  | b :: t => do
    let _ ← writeMem RC.ni (uidOf p 3 0) (qSlot (← st) p q i) (padTo 256 b)
    ringPut p q (i + 1) t

/-- Publish `n` slots that stand in the ring. -/
def ringPublish (p q n : Nat) : M o Unit := do
  loop n do
    upQue p q fun x => { x with wr := x.wr + 1 }
    publishSlot p q
    return true
  kickQ p q

/-- Slots arrive at the consumer's end of a queue and are published at once. -/
def deliverSlots (p q : Nat) (bs : List Byte) : M o Unit := do
  let s ← st
  if s.rd (R.PART_Q_CFG.VALID p q) = 1 ∧ bs ≠ [] then do
    let l := chunks 256 (bs.length / 256 + 1) bs
    ringPut p q (queOf s p q).wr l
    ringPublish p q l.length
  else pure ()

/-! Injection. -/

/-- The module may inject at all: it has an FA and is neither fenced nor without ports (R216, R222). -/
def canInject (s : State) : Bool :=
  s.rd R.FZ_SELF.VALID == 1 && s.ctl.mode != .minimal && s.ctl.mode != .fenced && s.ctl.mode != .off && s.ctl.mode != .inReset

/-- A lapsed module injects only SVC messages to MGR sources, beside LINK and TIME frames (R242). -/
def lapseOk (s : State) (k : Pkt) : Bool :=
  s.rd R.FZ_MEMBER.LAPSED == 0 || (hTYPE k == 7 && entMgr (dirEnt s (activeEpoch s) (hDST k)))

/-- The header of an injected packet: the module's FA, GEN and active epoch (R236). -/
def ownHdr (s : State) (k : Pkt) : Pkt :=
  setH0 8 20 (ownFa s) (setH0 48 8 (s.rd R.FZ_SELF.GEN) (setH0 56 1 (activeEpoch s) k))

/-- Inject one unicast packet: a path is chosen and its first hop taken (R227), or it is discarded as NOPATH. -/
def injectUni (k : Pkt) (r : RouteEnv) : M o Unit := do
  let s ← st
  let k := ownHdr s k
  let x := dirEnt s (hEPOCH k) (hDST k)
  if !canInject s || !lapseOk s k then pure ()
  else if !entUni x then dropPkt DR.NOPATH
  else if entLoc x = ownLoc s then deliverPkt (sealPkt k)
  else match choosePath s k r with
    | none => dropPkt DR.NOPATH
    | some k => match route s k true r with
      | some (some port, k) => send (.packet port (sealPkt k))
      | some (none, k) => deliverPkt (sealPkt k)
      | none => dropPkt DR.NOPATH

/-- A packet is ready for the router; PACKET_INJECT takes it. -/
def queuePkt (k : Pkt) : M o Unit := eff (.fab fun f => { f with toSend := f.toSend ++ [k] })

/-- An MCAST packet for every tree neighbour but `skip` (R245), by the group entry of bank `e`. -/
def mcastCopies (e : Nat) (k : Pkt) (g skip : Nat) (r : RouteEnv) : M o Unit := do
  let s ← st
  each ((treeNext s e (dirEnt s e g)).filter (· ≠ skip)) fun fa => injectUni (setH0 28 20 fa k) r

/-- UP ports of a range. -/
def upPorts (s : State) (lo n : Nat) : List Nat := ((List.range n).map (lo + ·)).filter fun p => portUp s (servingPort s p)

/-- Copies of a broadcast packet on ports, in a stage and class. -/
def bcastSend (k : Pkt) (stage vc : Nat) (global : Bool) (ports : List Nat) : M o Unit := do
  let s ← st
  let k := setH1 13 2 stage (setH0 57 3 vc k)
  let k := if global then setH1 15 2 (hGH k + 1) k else setH1 17 3 (hLH k + 1) k
  each ports fun p => send (.packet (servingPort s p) (rehdr k))

/-- Spread a broadcast packet that this module holds (R246): as its source, or as it came in a stage. The source counts as a receiver of its
own row-stage copy (log entry 29); a module that it reaches by a global hop sends on its row ports. -/
def bcastSpread (k : Pkt) (source : Bool) : M o Unit := do
  let s ← st
  let home := hGH k = 0
  let vc := if home then 0 else 4
  let stage := hBSTAGE k
  when_ (source || stage == 2) (bcastSend k 0 vc false (upPorts s 0 15))
  when_ (source || stage == 0) (bcastSend k 1 vc false (upPorts s 15 15))
  when_ (decide home && hBSCOPE k == 0) (bcastSend k 2 1 true (upPorts s 30 4))

/-- A broadcast from this module. -/
def bcastSource (k : Pkt) : M o Unit := do
  let s ← st
  let k := ownHdr s (setH1 13 2 0 (setH1 15 2 0 (setH1 17 3 0 k)))
  if !canInject s || !lapseOk s k then pure ()
  else if hBSCOPE k = 0 ∧ !entMgr (dirEnt s (hEPOCH k) (hSRC k)) then dropPkt DR.BCAST_DENIED
  else do
    let k := sealPkt k
    deliverPkt k
    bcastSpread k true

/-- Inject a packet (R227, R245, R246). A REDUCE_UP addressed to the module itself is its local contribution. -/
def inject (k : Pkt) (r : RouteEnv) : M o Unit := do
  let d := hDST k
  if d = 0xFFFFF then bcastSource k
  else if 0xF0000 ≤ d then do
    let s ← st
    mcastCopies (activeEpoch s) (setH2 28 20 (ownFa s) (setH2 48 16 (d % 65536) k)) d 0 r
  else injectUni k r

/-! Service messages and notices to firmware-level peers: what the module sends is named by a tag of the model (log entry 26). -/
abbrev SV.PORT_STATE := 1
abbrev SV.DIR_UPDATE := 2
abbrev SV.UPD_VOTE := 3
abbrev SV.QS_ANNOUNCE := 4
abbrev SV.QS_END := 5
abbrev SV.QS_REQ := 6
abbrev SV.QS_DATA := 7
abbrev SV.QS_NAK := 8
abbrev LK.IDENT := 1
abbrev LK.KEEPALIVE := 2
abbrev LK.TEST_REQ := 3
abbrev LK.TEST_ACK := 4
abbrev LK.TEST_RESULT := 5

/-- Send a service message, when the module may inject it. `scope`: 1 keeps a broadcast within the own hedgerow (BSCOPE). -/
def svc (dst scope code : Nat) (fields : List Nat) : M o Unit := do
  let s ← st
  if canInject s ∧ (s.rd R.FZ_MEMBER.LAPSED = 0 ∨ entMgr (dirEnt s (activeEpoch s) dst)) then send (.svc dst scope code fields) else pure ()

/-- A service message of another module takes effect when its packet passes the GEN check of R241. -/
def fromPeer (fa gen : Nat) (a : M o Unit) : M o Unit := do
  if genOk (← st) fa gen then a else dropPkt DR.GEN_OLD

/-! Port state changes. -/

/-- RST_FAULT.PORT: a port HELD, other than by the operator, or EXCLUDED (Table 08-6). -/
def refreshPortFault : M o Unit := do
  let s ← st
  let bad := (List.range 36).any fun n =>
    let x := s.rd (R.FZ_PORT_STAT.STATE n)
    x == PS.EXCLUDED || (x == PS.HELD && s.rd (R.FZ_PORT_STAT.REASON n) != 6)
  faultCond R.RST_FAULT.PORT bad

/-! The waits of R348. -/

/-- A wait of R348 begins: 1 a bit-error test at boot, 2 host firmware or a quickset session. Its time does not count toward R349. -/
def beginWait (k : Nat) : M o Unit := do
  let s ← st
  when_ s.ctl.waits.isEmpty (mark K.waitAt)
  eff (.ctl fun c => { c with waits := k :: c.waits.filter (· ≠ k) })
  setF R.HIF_BOOT_STATUS.WAIT_EXT

/-- A wait of R348 ends; WAIT_EXT falls with the last one. -/
def endWait (k : Nat) : M o Unit := do
  let s ← st
  if s.ctl.waits.contains k then do
    eff (.ctl fun c => { c with waits := c.waits.filter (· ≠ k) })
    when_ (s.ctl.waits.filter (· ≠ k)).isEmpty (do
      wr R.HIF_BOOT_STATUS.WAIT_EXT 0
      eff (.seen K.startAt (tget 0 s.clk.seen K.startAt + (s.clk.mono - tget 0 s.clk.seen K.waitAt))))
  else pure ()

/-- A start has failed or has ended in MINIMAL: nothing waits. -/
def clearWaits : M o Unit := do
  eff (.ctl fun c => { c with waits := [] })
  wr R.HIF_BOOT_STATUS.WAIT_EXT 0

/-- A start waits while a bit-error test at boot runs on a port (R348). -/
def refreshTestWait : M o Unit := do
  let s ← st
  if s.ctl.mode != .start then pure ()
  else if (List.range 36).any fun n => s.rd (R.FZ_PORT_STAT.STATE n) == PS.TEST then beginWait 1
  else endWait 1

/-- Port n enters a state with a reason; on entering or leaving UP every router of the hedgerow is told (R213). -/
def setPort (n state reason : Nat) : M o Unit := do
  let s ← st
  let was := s.rd (R.FZ_PORT_STAT.STATE n)
  let m := locM (ownLoc s)
  wr (R.FZ_PORT_STAT.STATE n) state
  wr (R.FZ_PORT_STAT.REASON n) reason
  when_ (was != state) (mark (K.portUp n))
  (if was = PS.UP ∧ state ≠ PS.UP then do
    upPort n fun x => { x with alive := false, rootFa := 0, repoch := 0, rseq := 0, rx := none }
    svc 0xFFFFF 1 SV.PORT_STATE [m, n, 0]
  else if was ≠ PS.UP ∧ state = PS.UP then do
    when_ (decide (tget 0 s.clk.seen K.firstUp = 0)) (mark K.firstUp)
    svc 0xFFFFF 1 SV.PORT_STATE [m, n, 1]
  else pure ())
  when_ (decide (was = PS.TEST ∨ state = PS.TEST)) refreshTestWait
  refreshPortFault

/-- Reasons (FZ_PORT_STAT.REASON). -/
abbrev PR.NONE := 0
abbrev PR.MISMATCH := 1
abbrev PR.EXTRA := 2
abbrev PR.MISSING := 3
abbrev PR.BER_FAIL := 4
abbrev PR.FLAP := 5
abbrev PR.OPERATOR := 6
abbrev PR.LOS := 7
abbrev PR.FEC := 8
abbrev PR.KEEPALIVE := 9
abbrev PR.FENCED := 10

/-! Fencing. -/

/-- The module enters FENCED (R243, R395): its fence mark is written, its ports go idle, READY falls and FAULT_N is asserted. A module in MINIMAL
takes the mark and the fault and leaves MINIMAL only by a reset (R371; log entry 52). -/
def enterFenced (why : Nat) : M o Unit := do
  let m ← mode
  if m = .fenced then pure () else do
    setF R.FZ_MEMBER.FENCED
    ev E.FENCED SK.fw 0 [I.REASON (Config.eventCode (96 + why)), I.FA (ownFa (← st))]
    eff (.nor fun n => { n with fenceMark := true })
    if m = .minimal then faultCond R.RST_FAULT.FENCED true else do
    each (List.range 36) fun n => do
      setPort n PS.DISABLED PR.FENCED
      send (.portIdle n)
    setMode .fenced
    scrubStop
    driveReady false
    faultCond R.RST_FAULT.FENCED true

/-- Whether the module finds itself replaced (R243): its FA's entry names another location or a newer GEN, and no ACTIVE entry names its
own location. -/
def selfLost (s : State) (e fa gen : Nat) : Bool :=
  let x := dirEnt s e fa
  let d := (entGen x + 256 - gen % 256) % 256
  (selfFas s e).isEmpty && entUni x && (entLoc x != ownLoc s || (decide (1 ≤ d) && decide (d ≤ 127)))

/-- A table write or laying gives the module's FA a GEN newer than its own (R243). -/
def selfNewer (s : State) (e fa gen : Nat) : Bool :=
  let x := dirEnt s e fa
  let d := (entGen x + 256 - gen % 256) % 256
  entUni x && decide (1 ≤ d) && decide (d ≤ 127)

end Sys2Proof.Machine
end

