-- ==== Sys2Proof/Machine/BankOps.lean ====
section
/-!
DEFINITION. Writes of the inactive bank and the bank commands (R237 to R240, R248).
-/

namespace Sys2Proof.Machine

variable {o : State}

/-! RESULT of a write (R448). -/
abbrev WR.APPLIED := 0
abbrev WR.REFUSED := 1
abbrev WR.CLAMPED := 2
abbrev WR.RSV := 3

/-- A refused bank write, command or reservation (FZ_BANK_STAT.REFUSED). -/
def bankRefuse : M o Unit := setF R.FZ_BANK_STAT.REFUSED

/-- Contexts that a group entry reserves. -/
def entW (x : Nat) : Nat := if entGrp x then fget x 55 6 else 0

/-- Reduction contexts that the group entries of the two banks reserve, the group `fa` left out (R248). A group that stands in both banks reserves
the larger of its two windows (log entry 116). -/
def reserved (a b : Bank) (fa : Nat) : Nat :=
  let w (t : Bank) (g : Nat) : Nat := entW (tget 0 t.dir g).toNat
  (a.dir.filter fun x => x.1 != fa).foldl (fun n x => n + max (entW x.2.toNat) (w b x.1)) 0 +
    (b.dir.filter fun x => x.1 != fa && w a x.1 == 0).foldl (fun n x => n + entW x.2.toNat) 0

/-- One word of a 64-bit entry replaced. -/
def setWord (x : BitVec 64) (hi : Bool) (v : BitVec 32) : BitVec 64 :=
  BitVec.ofNat 64 (fset x.toNat (if hi then 32 else 0) 32 v.toNat)

/-- A directory entry with its reserved bits 0 (R221): those of the layout that VALID and GRP choose. An entry that is not VALID yet has no layout
until its upper word comes, and keeps its lower word (log entry 117). -/
def entClean (x : BitVec 64) : BitVec 64 :=
  if fget x.toNat 63 1 = 0 then x
  else if fget x.toNat 62 1 = 1 then x &&& ~~~0x7F#64
  else x &&& ~~~0xFFFFFFFF#64

/-- The bits of an entry of the child table, the gateway list and the gateway table that are not reserved (R221, R224), by window offset. -/
def tableMask (a : Nat) : BitVec 32 :=
  if 0x580000 ≤ a then 0x800FFFFF#32 else if 0x542000 ≤ a then 0x800003FF#32 else 0x7FFFFC00#32

/-- A word lands in a table of the inactive bank, without the reserved bits (R9); `a` is an offset in the directory window of all addresses, or in
another table's window. Answers the RESULT of the write (R237, R248, R448). -/
def tablePut (a : Nat) (v : BitVec 32) : M o Nat := do
  let s ← st
  let e := 1 - activeEpoch s
  if s.rd R.FZ_BANK_STAT.HOLD = 1 then do
    bankRefuse
    return WR.REFUSED
  else if 0x600000 ≤ a then do
    let fa := (a - 0x600000) / 8 % 2 ^ 20
    let y := setWord (tget 0 (bankOf s e).dir fa) (a % 8 == 4) v
    let x := entClean y
    if entGrp x.toNat ∧ 4096 < reserved (bankOf s e) (bankOf s (1 - e)) fa +
        max (fget x.toNat 55 6) (entW (tget 0 (bankOf s (1 - e)).dir fa).toNat) then do
      bankRefuse
      return WR.REFUSED
    else do
      upBank e fun b => { b with dir := tset 0 b.dir fa x }
      wr R.FZ_BANK_STAT.READY 0
      return if x = y then WR.APPLIED else WR.RSV
  else do
    let x := v &&& tableMask a
    (if 0x580000 ≤ a then upBank e fun b => { b with ch := tset 0 b.ch ((a - 0x580000) / 4) x }
     else if 0x542000 ≤ a then upBank e fun b => { b with gl := tset 0 b.gl ((a - 0x542000) / 4) x }
     else upBank e fun b => { b with gw := tset 0 b.gw ((a - 0x540000) / 4) x })
    wr R.FZ_BANK_STAT.READY 0
    return if x = v then WR.APPLIED else WR.RSV

/-- A BAR0 offset that lies in a window of the bank tables (R221, R224). -/
def inTables (off : Nat) : Bool :=
  (decide (0x540000 ≤ off) && decide (off < 0x540000 + 4 * 1025)) || (decide (0x542000 ≤ off) && decide (off < 0x543000)) ||
    (decide (0x580000 ≤ off) && decide (off < 0x5C0000)) || (decide (0x600000 ≤ off) && decide (off < 0x700000))

/-- The table offset of a window offset: the directory window shows one eighth, by FZ_DIR_WIN.SEL. -/
def tableOff (s : State) (off : Nat) : Nat := if 0x600000 ≤ off then off + s.rd R.FZ_DIR_WIN.SEL * 0x100000 else off

/-- A word of the bank tables as the windows show it. -/
def tableGet (s : State) (off : Nat) : BitVec 32 :=
  let b := bankOf s (if s.rd R.FZ_DIR_WIN.RD_ACTIVE = 1 then activeEpoch s else 1 - activeEpoch s)
  let a := tableOff s off
  if 0x600000 ≤ a then BitVec.ofNat 32 (fget (tget 0 b.dir ((a - 0x600000) / 8)).toNat (if a % 8 = 4 then 32 else 0) 32)
  else if 0x580000 ≤ a then tget 0 b.ch ((a - 0x580000) / 4)
  else if 0x542000 ≤ a then tget 0 b.gl ((a - 0x542000) / 4)
  else tget 0 b.gw ((a - 0x540000) / 4)

/-- FZ_BANK_CTL.COPY (R237): refused in HOLD. Answers whether it was carried out. -/
def bankCopy : M o Bool := do
  let s ← st
  if s.rd R.FZ_BANK_STAT.HOLD = 1 then do
    bankRefuse
    return false
  else do
    upBank (1 - activeEpoch s) fun _ => bankOf s (activeEpoch s)
    wr R.FZ_BANK_STAT.READY 0
    return true

/-- FZ_BANK_CTL.SEAL (R237). -/
def bankSeal : M o Unit := do
  let s ← st
  let b := bankOf s (1 - activeEpoch s)
  wr R.FZ_BANK_CSUM.CSUM (Config.bankCsum b.dir b.gw b.gl b.ch).toNat
  setF R.FZ_BANK_STAT.READY

/-- FZ_LAY_TIME. -/
def layTime (s : State) : Nat := s.rd R.FZ_LAY_TIME_LO.TIME + 2 ^ 32 * s.rd R.FZ_LAY_TIME_HI.TIME

/-- FZ_BANK_CTL.ARM (R238): refused without READY, in HOLD, or less than 1 ms ahead. Answers whether it was carried out. -/
def bankArm : M o Bool := do
  let s ← st
  if s.rd R.FZ_BANK_STAT.READY = 0 ∨ s.rd R.FZ_BANK_STAT.HOLD = 1 ∨ layTime s < s.clk.time.toNat + 1000000 then do
    bankRefuse
    return false
  else do
    eff (.fab fun f => { f with armed := some (layTime s) })
    setF R.FZ_BANK_STAT.ARMED
    return true

/-- FZ_BANK_CTL.CANCEL (R238). -/
def bankCancel : M o Unit := do
  eff (.fab fun f => { f with armed := none })
  wr R.FZ_BANK_STAT.ARMED 0

/-- A scheduled action fires while the module is not LOCKED (R257). -/
def noteUnlocked : M o Unit := do
  if (← rd R.FZ_TIME_STAT.TSTATE) = 2 then pure () else ev E.TIME_UNLOCKED SK.fw 0 [I.TIME (← st).clk.time.toNat]

/-- The inactive bank becomes active under the epoch bit `e`; FZ_SELF follows (R222, R238), and the settings store keeps both banks (log
entry 43). -/
def makeActive (e : Nat) : M o Unit := do
  let f := (← st).fab
  eff (.settings fun x => { x with bank0 := f.bank0, bank1 := f.bank1 })
  wr R.FZ_BANK_STAT.ACTIVE e
  wr R.FZ_BANK_STAT.READY 0
  refreshSelf

/-- The bank swap of a laying, and the fencing of a module that finds itself replaced (R238, R243; log entry 33). -/
def layNow : M o Unit := do
  let s ← st
  let e := 1 - activeEpoch s
  let fa := ownFa s
  let gen := s.rd R.FZ_SELF.GEN
  let valid := s.rd R.FZ_SELF.VALID = 1
  makeActive e
  setF R.FZ_BANK_STAT.HOLD
  mark K.hold
  noteUnlocked
  let s ← st
  if valid ∧ (selfLost s e fa gen ∨ selfNewer s e fa gen) then enterFenced 1 else pure ()

end Sys2Proof.Machine
end

