-- ==== Sys2Proof/WellFormed.lean ====
section
/-!
DEFINITION. Which commands an agent can send: every index names a unit, port, ring or slot that the module has. A command whose
index names nothing is refused by its meaning as malformed.
-/

namespace Sys2Proof

/-- The reset domain exists. -/
def Domain.wf : Domain → Bool
  | .module => true
  | .partition p => decide (p < 8)
  | .engine p => decide (p < 8)

/-- The register operands of an EWC instruction are among x0 to x31 and v0 to v31 (R96). -/
def EwcOp.wf : EwcOp → Bool
  | .alu _ d a b => decide (d < 32) && decide (a < 32) && decide (b < 32)
  | .li d _ => decide (d < 32)
  | .load d a _ _ => decide (d < 32) && decide (a < 32)
  | .store d a _ _ => decide (d < 32) && decide (a < 32)
  | .vload d a _ => decide (d < 32) && decide (a < 32)
  | .vstore d a _ => decide (d < 32) && decide (a < 32)
  | .vop _ _ _ d a b c => decide (d < 32) && decide (a < 32) && decide (b < 32) && decide (c < 32)
  | .vred _ _ d a => decide (d < 32) && decide (a < 32)
  | .vcvt _ _ _ d a => decide (d < 32) && decide (a < 32)
  | .vunpack _ _ d a b x => decide (d < 32) && decide (a < 32) && decide (b < 32) && decide (x < 32)
  | .vpack _ _ d a b x => decide (d < 32) && decide (a < 32) && decide (b < 32) && decide (x < 32)
  | .br _ a b _ => decide (a < 32) && decide (b < 32)
  | .illegal => true

/-- Register writes come from the host, the tray controllers or module firmware; a Fazar peer reaches the module by messages alone (R404). -/
def Src.wf (src : Src) : Bool := decide (src ≠ .peer)

/-- The command's operands name parts of the module. -/
def Instr.wf : Instr → Bool
  | .powerOnReset => true
  | .mate => true
  | .unmate => true
  | .hotSwapOn _ => true
  | .inputGood _ => true
  | .undervoltageOff => true
  | .overvoltageOff _ => true
  | .overcurrentOff _ => true
  | .inrushFault => true
  | .epo => true
  | .epoRelease => true
  | .latchClear => true
  | .vinHigh _ => true
  | .brownout _ => true
  | .inputRecover _ => true
  | .brownoutEnd => true
  | .mrst _ => true
  | .hostInterfaceReset _ => true
  | .startUp _ => true
  | .refclkQualify _ _ => true
  | .weightLoad _ => true
  | .readyEntry _ => true
  | .startTimeout => true
  | .startRetry => true
  | .hostFwTimeout => true
  | .hostFwGo src => src.wf
  | .moduleReset _ _ => true
  | .partitionReset _ _ _ => true
  | .contextReset _ slot => decide (slot < 64)
  | .clrFails src => src.wf
  | .blockIdle d => d.wf
  | .idleTExpiry d => d.wf
  | .partitionResetDone p _ => decide (p < 8)
  | .engineReset src p _ => src.wf && decide (p < 8)
  | .arrayNop p n => decide (p < 8) && decide (n < 24)
  | .tile p n _ => decide (p < 8) && decide (n < 24)
  | .residueSweep p n _ _ => decide (p < 8) && decide (n < 24)
  | .bankComplete p n _ => decide (p < 8) && decide (n < 24)
  | .emit p n _ => decide (p < 8) && decide (n < 24)
  | .ldcb p n _ => decide (p < 8) && decide (n < 24)
  | .setseed p n => decide (p < 8) && decide (n < 24)
  | .setb p n => decide (p < 8) && decide (n < 24)
  | .addb p n => decide (p < 8) && decide (n < 24)
  | .setlc p n => decide (p < 8) && decide (n < 24)
  | .loop p n => decide (p < 8) && decide (n < 24)
  | .waitq p n => decide (p < 8) && decide (n < 24)
  | .postq p n => decide (p < 8) && decide (n < 24)
  | .brq p n _ => decide (p < 8) && decide (n < 24)
  | .jump p n => decide (p < 8) && decide (n < 24)
  | .arrayRotpt p n => decide (p < 8) && decide (n < 24)
  | .arrayEnd p n => decide (p < 8) && decide (n < 24)
  | .rotationComplete _ _ _ => true
  | .slotPublish p q => decide (p < 8) && decide (q < 1024)
  | .slotRelease p q => decide (p < 8) && decide (q < 1024)
  | .creditBatchReturn p q => decide (p < 8) && decide (q < 1024)
  | .niSlotSend p q _ => decide (p < 8) && decide (q < 1024)
  | .streamerNop p k => decide (p < 8) && decide (k < 16)
  | .streamerCopy p k _ => decide (p < 8) && decide (k < 16)
  | .gather p k _ => decide (p < 8) && decide (k < 16)
  | .scatter p k _ => decide (p < 8) && decide (k < 16)
  | .pgather p k _ => decide (p < 8) && decide (k < 16)
  | .pscatter p k _ => decide (p < 8) && decide (k < 16)
  | .sync p k => decide (p < 8) && decide (k < 16)
  | .streamerEnd p k => decide (p < 8) && decide (k < 16)
  | .slopeGrant d => decide (d < 2)
  | .brambleSample => true
  | .brambleAction slot _ => decide (slot < 64)
  | .ewcInstruction p g op _ => decide (p < 8) && decide (g < 48) && op.wf
  | .csrr p g xd _ _ => decide (p < 8) && decide (g < 48) && decide (xd < 32)
  | .csrw p g _ xs _ => decide (p < 8) && decide (g < 48) && decide (xs < 32)
  | .ei p g _ => decide (p < 8) && decide (g < 48)
  | .di p g _ => decide (p < 8) && decide (g < 48)
  | .iret p g _ => decide (p < 8) && decide (g < 48)
  | .wfi p g _ => decide (p < 8) && decide (g < 48)
  | .qwait p g xd q _ => decide (p < 8) && decide (g < 48) && decide (xd < 32) && decide (q < 1024)
  | .qrel p g q _ => decide (p < 8) && decide (g < 48) && decide (q < 1024)
  | .qacq p g xd q _ => decide (p < 8) && decide (g < 48) && decide (xd < 32) && decide (q < 1024)
  | .qpub p g q _ => decide (p < 8) && decide (g < 48) && decide (q < 1024)
  | .qpoll p g xd q _ => decide (p < 8) && decide (g < 48) && decide (xd < 32) && decide (q < 1024)
  | .qtry p g xd q _ => decide (p < 8) && decide (g < 48) && decide (xd < 32) && decide (q < 1024)
  | .corePostq p g q xs _ => decide (p < 8) && decide (g < 48) && decide (q < 1024) && decide (xs < 32)
  | .mboxw p g tgt n xs _ => decide (p < 8) && decide (g < 48) && decide (tgt < 48) && decide (n < 4) && decide (xs < 32)
  | .mboxr p g xd n _ => decide (p < 8) && decide (g < 48) && decide (xd < 32) && decide (n < 4)
  | .coreRotpt p g _ => decide (p < 8) && decide (g < 48)
  | .coreEnd p g _ => decide (p < 8) && decide (g < 48)
  | .interruptEntry p g _ => decide (p < 8) && decide (g < 48)
  | .timerFire p g t => decide (p < 8) && decide (g < 48) && decide (t < 2)
  | .mboxWrite src p g n _ => src.wf && decide (p < 8) && decide (g < 48) && decide (n < 4)
  | .serviceCoreWatchdog pair => decide (pair < 2)
  | .lockstepMismatch pair => decide (pair < 2)
  | .impedanceCalibration c => decide (c < 32)
  | .driftCheck c _ => decide (c < 32)
  | .retune c _ => decide (c < 32)
  | .scrubVisit _ _ => true
  | .scrubLate t => decide (t < 3)
  | .memRestored _ => true
  | .patrolRead _ _ => true
  | .journalCommit => true
  | .wearRefill => true
  | .bar4Read _ _ _ _ => true
  | .bar4Write _ _ _ => true
  | .ringEnable src n => src.wf && decide (n < 256)
  | .ringDisable src n => src.wf && decide (n < 256)
  | .sqTail n _ => decide (n < 256)
  | .cqHead n _ => decide (n < 256)
  | .descriptorFetch _ => true
  | .completionWrite _ _ => true
  | .msixCoalesceTimer n => decide (n < 256)
  | .nop _ => true
  | .runPhase _ => true
  | .gateTick => true
  | .fabricAdmitDeadline slot => decide (slot < 64)
  | .phaseEnd slot => decide (slot < 64)
  | .copy _ _ _ => true
  | .loadImage _ _ => true
  | .imageVerify _ => true
  | .bindContext _ => true
  | .bindComplete slot _ => decide (slot < 64)
  | .unbindContext _ => true
  | .fence _ => true
  | .abort _ => true
  | .abortContext _ => true
  | .queryEnergy _ => true
  | .setOpPref _ => true
  | .serveStart src => src.wf
  | .serveStop src => src.wf
  | .gateStop src _ => src.wf
  | .portEnable src n => src.wf && decide (n < 36)
  | .portDisable src n => src.wf && decide (n < 36)
  | .forceHold src n _ => src.wf && decide (n < 36)
  | .berNow src n => src.wf && decide (n < 36)
  | .linkTrained n => decide (n < 36)
  | .ident n _ _ => decide (n < 36)
  | .identTimeout n => decide (n < 36)
  | .identRepeat n => decide (n < 36)
  | .testReq n => decide (n < 36)
  | .testAck n => decide (n < 36)
  | .testResult n _ => decide (n < 36)
  | .berTestDone n _ => decide (n < 36)
  | .berInterval n => decide (n < 36)
  | .keepaliveSend n => decide (n < 36)
  | .portDown n _ => decide (n < 36)
  | .fecErrorLimit n _ => decide (n < 36)
  | .flitTimeout n => decide (n < 36)
  | .retrain n => decide (n < 36)
  | .portState _ _ m port _ => decide (m < 256) && decide (port < 36)
  | .packetInject _ _ => true
  | .packetReceive port _ _ => decide (port < 36)
  | .qslot => true
  | .credit => true
  | .streamOpen => true
  | .streamOpenRetry _ _ => true
  | .streamGrant => true
  | .streamBusy => true
  | .streamAck => true
  | .streamAckTimer _ _ => true
  | .streamClose => true
  | .streamIdleClose _ _ => true
  | .streamContextExpiry _ _ => true
  | .fazarOpTimeout slot _ => decide (slot < 64)
  | .directoryWrite src _ _ => src.wf
  | .dirUpdate _ _ _ => true
  | .bankCopy src => src.wf
  | .sealBank src => src.wf
  | .arm src => src.wf
  | .cancel src => src.wf
  | .laying => true
  | .epochHoldEnd => true
  | .membershipLapse => true
  | .mcast _ => true
  | .broadcast _ _ => true
  | .reduceUp _ _ => true
  | .reduceDown _ => true
  | .redContextExpiry _ _ _ => true
  | .timeFrameSend => true
  | .timeFrame port _ => decide (port < 36)
  | .rootLoss => true
  | .rootPromotion => true
  | .rootStartWait => true
  | .timeRootSet src => src.wf
  | .timeSet src _ => src.wf
  | .timeLoRead => true
  | .opMove => true
  | .vcoreSettled => true
  | .blendStep => true
  | .forcedVcoreFall => true
  | .forcedRelease => true
  | .droopDetect d => decide (d < 2)
  | .droopRelease d => decide (d < 2)
  | .droopLong d => decide (d < 2)
  | .blendResume => true
  | .vrAlert cond => decide (cond < 6)
  | .vrAlertRelease => true
  | .powerSample _ _ => true
  | .clipLagStep => true
  | .clipLagLong => true
  | .estimatorTick _ => true
  | .gainRefit => true
  | .opCeilApply => true
  | .hotspotSample r => decide (r.length = 48)
  | .sensorCompare => true
  | .rotationRequest _ => true
  | .throttleStep d h _ => decide (d < 2) && decide (h < 24)
  | .throttleRestore d h => decide (d < 2) && decide (h < 24)
  | .hotRelease => true
  | .rateRelease => true
  | .thermalUpdate _ _ => true
  | .flowMismatch => true
  | .cycleSample => true
  | .lifeSave => true
  | .guardTrip kind channels => decide (1 ≤ kind) && decide (kind ≤ 4) && decide (channels < 8)
  | .guardSingle ch kind => decide (ch < 3) && decide (1 ≤ kind) && decide (kind ≤ 4)
  | .guardSuspect ch kind => decide (ch < 3) && decide (1 ≤ kind) && decide (kind ≤ 4)
  | .guardSingleRelease ch kind => decide (ch < 3) && decide (1 ≤ kind) && decide (kind ≤ 4)
  | .escalate code unit => decide (1 ≤ code) && decide (code ≤ 7) && decide (unit < 65536)
  | .sweepFail p kind phys => decide (p < 8) && decide (kind < 2) && decide (phys < if kind = 0 then 26 else 52)
  | .worisySignalDetect port => decide (port < 2)
  | .worisySignalLoss port => decide (port < 2)
  | .worisyFrameError port => decide (port < 2)
  | .ping w => decide (w.port < 2)
  | .info w => decide (w.port < 2)
  | .regRead w _ _ => decide (w.port < 2)
  | .regWrite w _ _ => decide (w.port < 2)
  | .evtRead w _ _ => decide (w.port < 2)
  | .measRead w _ => decide (w.port < 2)
  | .leaseClaim w => decide (w.port < 2)
  | .leaseRenew w => decide (w.port < 2)
  | .leaseRelease w => decide (w.port < 2)
  | .leaseStatus w => decide (w.port < 2)
  | .leaseExpiry => true
  | .leaseGuardEnd => true
  | .setClip w _ => decide (w.port < 2)
  | .setRackClip w _ => decide (w.port < 2)
  | .setOpCeil w _ _ => decide (w.port < 2)
  | .flowReport w _ => decide (w.port < 2)
  | .operatorHold w => decide (w.port < 2)
  | .operatorHoldRelease w => decide (w.port < 2)
  | .reset w _ _ _ _ => decide (w.port < 2)
  | .memberRenew w => decide (w.port < 2)
  | .fenceCommand w => decide (w.port < 2)
  | .readmit w _ => decide (w.port < 2)
  | .worisyClrFails w => decide (w.port < 2)
  | .activate w _ _ _ _ => decide (w.port < 2)
  | .updVoteSend => true
  | .updVote _ _ _ => true
  | .voteCount => true
  | .firmwareActivation => true
  | .confirm w => decide (w.port < 2)
  | .rollback w => decide (w.port < 2)
  | .confirmDeadline => true
  | .activatePlan w _ _ => decide (w.port < 2)
  | .planActivation => true
  | .evtClear w => decide (w.port < 2)
  | .ownerChallenge w => decide (w.port < 2)
  | .ownerEnroll w _ _ _ => decide (w.port < 2)
  | .ownerRevoke w _ _ => decide (w.port < 2)
  | .setSecurity w _ => decide (w.port < 2)
  | .updateCheck src => src.wf
  | .updateProgram src => src.wf
  | .programDone _ => true
  | .updateCancel src => src.wf
  | .stagingWrite src _ _ => src.wf
  | .recorderPageWrite => true
  | .spdmRequest _ => true
  | .ideKeyProg _ _ => true
  | .quicksetGo src => src.wf
  | .quicksetCancel src => src.wf
  | .qsSend => true
  | .qsAnnounceSend => true
  | .qsAnnounce _ _ => true
  | .qsBlock _ _ _ _ => true
  | .qsEnd _ _ _ => true
  | .qsRepairTimeout => true
  | .qsReq _ _ _ _ => true
  | .qsData _ _ _ _ => true
  | .qsNak _ _ _ => true
  | .qsRoundEnd => true
  | .qsFetchEnd => true
  | .qsVerify => true
  | .evtTokenRefill => true
  | .registerWrite src off len _ => src.wf && decide (off < 0x4000000) && decide (0 < len)
  | .mrstRelease => true
  | .commandDone port _ => decide (port < 2)

end Sys2Proof
end

