-- ==== Sys2Proof/Machine/Clock.lean ====
section
/-!
DEFINITION. Fabric time (R252 to R256): TIME frames, the states of a follower, root loss, promotion and the setting of TIME.
-/

namespace Sys2Proof.Machine

variable {o : State}

/-! FZ_TIME_STAT.TSTATE. -/
abbrev TS.FREE := 0
abbrev TS.ACQUIRE := 1
abbrev TS.LOCKED := 2
abbrev TS.HOLDOVER := 3
abbrev TS.ROOT := 4

/-- Epoch a is newer than b (R256). -/
def epochNewer (a b : Nat) : Bool :=
  let d := (a + 256 - b % 256) % 256
  decide (1 ≤ d) && decide (d ≤ 127)

/-- Root (fa, epoch) is to be followed rather than root (fa', epoch') (R256). -/
def rootBefore (fa ep fa' ep' : Nat) : Bool := epochNewer ep ep' || (ep == ep' && decide (fa < fa'))

/-- The parent: among UP ports whose frames advance, the best root, then the least DIST, then the lowest port (R253, R255, R256). -/
def timeParent (s : State) : Option Nat :=
  let ok := (List.range 36).filter fun n =>
    let x := tget PortSt.init s.fab.ports n
    portUp s n && x.alive && decide (x.dist < 7)
  ok.foldl (fun best n =>
    let x := tget PortSt.init s.fab.ports n
    match best with
    | none => some n
    | some b =>
      let y := tget PortSt.init s.fab.ports b
      if rootBefore x.rootFa x.repoch y.rootFa y.repoch then some n
      else if x.rootFa = y.rootFa ∧ x.repoch = y.repoch ∧ x.dist < y.dist then some n else some b) none

/-- ROOT_EPOCH of a promotion: one more than the newest seen, which counts as 0 where none has been seen (R256). -/
def nextEpoch (s : State) : Nat := (s.fab.newest.getD 0 + 1) % 256

/-- A frame's epoch is seen (R256). -/
def seeEpoch (ep : Nat) : M o Unit :=
  eff (.fab fun f => { f with newest := match f.newest with
    | none => some ep
    | some m => if epochNewer ep m then some ep else some m })

/-- Become root (R256). -/
def becomeRoot (epoch : Nat) : M o Unit := do
  let s ← st
  wr R.FZ_TIME_STAT.TSTATE TS.ROOT
  wr R.FZ_TIME_STAT.DIST 0
  eff (.fab fun f => { f with rootFa := ownFa s, repoch := epoch % 256, newest := some (epoch % 256), okRun := 0, badRun := 0, slew := 0 })

/-- Signed saturation to 16 bits. -/
def sat16 (x : Int) : Nat := ux 16 (max (-32768) (min 32767 x))

/-- One exchange with the parent (R253, R254): the offset in units of 1/8 ns, from stamps of 0.5 ns and ASYM of 0.25 ns; the count steps in ACQUIRE
and slews in LOCKED. -/
def exchange (port : Nat) (t : TimeFrame) : M o Unit := do
  let s ← st
  let asym := sx 16 (s.rd (R.FZ_PORT_ASYM.ASYM port))
  let theta8 : Int := 2 * (((t.t2 : Int) - t.t1) - ((t.t4 : Int) - t.t3)) - asym
  let ns := theta8.tdiv 8
  wr R.FZ_TIME_STAT.OFFSET (sat16 ns)
  let ok := decide (theta8.natAbs < 80)
  let far := decide (320 < theta8.natAbs)
  eff (.fab fun f => { f with okRun := if ok then f.okRun + 1 else 0, badRun := if far then f.badRun + 1 else 0 })
  let v := s.rd R.FZ_TIME_STAT.TSTATE
  let f := (← st).fab
  if v = TS.LOCKED then
    (if 4 ≤ f.badRun then do
      wr R.FZ_TIME_STAT.TSTATE TS.ACQUIRE
      eff (.fab fun f => { f with okRun := 0, badRun := 0, slew := 0 })
    else eff (.fab fun f => { f with slew := ns }))
  else do
    eff (.setTime (BitVec.ofInt 64 ((s.clk.time.toNat : Int) + ns)))
    if 16 ≤ f.okRun then do
      wr R.FZ_TIME_STAT.TSTATE TS.LOCKED
      eff (.fab fun f => { f with badRun := 0, slew := 0 })
    else pure ()

/-- Follow a parent port (R253, R255): the module copies its root and takes DIST one above it. It enters ACQUIRE when it had no parent or was root;
another parent port leaves the state as it is (R254). -/
def follow (n : Nat) : M o Unit := do
  let s ← st
  let x := tget PortSt.init s.fab.ports n
  let v := s.rd R.FZ_TIME_STAT.TSTATE
  let moved := v = TS.FREE ∨ v = TS.HOLDOVER ∨ v = TS.ROOT
  wr R.FZ_TIME_STAT.PARENT n
  wr R.FZ_TIME_STAT.DIST (min 7 (x.dist + 1))
  (if moved then do
    wr R.FZ_TIME_STAT.TSTATE TS.ACQUIRE
    eff (.fab fun f => { f with okRun := 0, badRun := 0, slew := 0 })
  else pure ())
  eff (.fab fun f => { f with rootFa := x.rootFa, repoch := x.repoch, rseq := x.rseq })

/-- What the count is corrected by in an exchange period (R254): a LOCKED follower slews by at most 100 ppm, in HOLDOVER it holds its last rate. -/
def timeRate (s : State) : Int :=
  if s.rd R.FZ_TIME_STAT.TSTATE = TS.LOCKED then max (-100) (min 100 s.fab.slew)
  else if s.rd R.FZ_TIME_STAT.TSTATE = TS.HOLDOVER then s.fab.rate
  else 0

/-- TIME_FRAME_SEND (R253 to R255): every 1 ms, on every UP port; the root advances ROOTSEQ. A frame carries its own sending stamp and, in reply to
the last frame of that port, the stamps t2 and t3 in units of 0.5 ns (log entry 114). -/
def execTimeFrameSend (s : State) : Host.Outcome State Fault Refusal :=
  act (Instr.wf .timeFrameSend) s do
    let t0 := (← st).clk.time.toNat
    periodic K.timeSend 1000000
    let s ← st
    let v := s.rd R.FZ_TIME_STAT.TSTATE
    let d := timeRate s
    (if (v = TS.LOCKED ∨ v = TS.HOLDOVER) ∧ (0 ≤ d ∨ t0 + 100 ≤ s.clk.time.toNat) then do
      eff (.setTime (BitVec.ofInt 64 ((s.clk.time.toNat : Int) + d)))
      when_ (decide (v = TS.LOCKED)) (eff (.fab fun f => { f with slew := f.slew - d, rate := d }))
    else pure ())
    when_ (decide (s.rd R.FZ_TIME_STAT.TSTATE = TS.ROOT)) (eff (.fab fun f => { f with rseq := (f.rseq + 1) % 65536 }))
    let s ← st
    each ((List.range 36).filter (portUp s)) fun n =>
      send (.timeFrame n (s.rd R.FZ_TIME_STAT.DIST) s.fab.rootFa s.fab.repoch s.fab.rseq (2 * s.clk.time.toNat)
        ((tget PortSt.init s.fab.ports n).rx.map fun t2 => (t2, 2 * s.clk.time.toNat)))

/-- Whether a frame makes its port fit to be the parent (R255, R256): its ROOTSEQ advances on the port's last frame of the same root, or the module
serves or is a root that this one is to be followed before. A frame that names no root counts for nothing. -/
def frameCounts (s : State) (x : PortSt) (t : TimeFrame) : Bool :=
  let d := (t.rseq + 65536 - x.rseq % 65536) % 65536
  let same := x.rootFa == t.rootFa && x.repoch == t.repoch
  let v := s.rd R.FZ_TIME_STAT.TSTATE
  let cur := if v = TS.ROOT then ownFa s else s.fab.rootFa
  t.rootFa != 0 && decide (t.dist < 7) && ((same && decide (1 ≤ d) && decide (d < 32768)) ||
    ((v == TS.ROOT || v == TS.ACQUIRE || v == TS.LOCKED) && rootBefore t.rootFa t.repoch cur s.fab.repoch))

/-- TIME_FRAME (R253 to R256). -/
def execTimeFrame (port : Nat) (t : TimeFrame) (s : State) : Host.Outcome State Fault Refusal :=
  act (Instr.wf (.timeFrame port t)) s do
    let s ← st
    if !portUp s port then pure ()
    else do
      let x := tget PortSt.init s.fab.ports port
      let same := x.rootFa == t.rootFa && x.repoch == t.repoch
      let adv := frameCounts s x t
      upPort port fun x => { x with
        dist := t.dist, rootFa := t.rootFa, repoch := t.repoch, rseq := t.rseq, alive := (x.alive && same) || adv, rx := some t.t4 }
      when_ (t.rootFa != 0) (seeEpoch t.repoch)
      let s ← st
      let v := s.rd R.FZ_TIME_STAT.TSTATE
      match timeParent s with
      | none => pure ()
      | some n =>
        let y := tget PortSt.init s.fab.ports n
        if v = TS.ROOT then
          (if y.rootFa ≠ ownFa s ∧ rootBefore y.rootFa y.repoch (ownFa s) s.fab.repoch then do
            setF R.FZ_TIME_STAT.ROOT_CONFLICT
            mark K.rootAdv
            follow n
          else pure ())
        else do
          when_ (decide (v = TS.FREE) && s.rd R.FZ_TIME_CFG.ROOT == 1) (setF R.FZ_TIME_STAT.ROOT_CONFLICT)
          when_ (decide (n = port) && adv) (mark K.rootAdv)
          follow n
          if n = port ∧ t.reply then exchange port t else pure ()

/-- ROOT_LOSS (R255): no advance of ROOTSEQ at the parent for 5 ms. -/
def execRootLoss (s : State) : Host.Outcome State Fault Refusal :=
  act (Instr.wf .rootLoss) s do
    let v ← rd R.FZ_TIME_STAT.TSTATE
    if v = TS.ACQUIRE ∨ v = TS.LOCKED then do
      advTo ((← seenAt K.rootAdv) + 5000000)
      wr R.FZ_TIME_STAT.TSTATE TS.HOLDOVER
      wr R.FZ_TIME_STAT.DIST 7
      mark K.holdover
      each (List.range 36) fun n => upPort n fun x => { x with alive := false }
    else pure ()

/-- ROOT_PROMOTION (R256): a backup of rank r, r x 10 ms into HOLDOVER. -/
def execRootPromotion (s : State) : Host.Outcome State Fault Refusal :=
  act (Instr.wf .rootPromotion) s do
    let s ← st
    let r := s.rd R.FZ_TIME_CFG.BACKUP
    if s.rd R.FZ_TIME_STAT.TSTATE = TS.HOLDOVER ∧ r ≠ 0 then do
      advTo ((← seenAt K.holdover) + r * 10000000)
      becomeRoot (nextEpoch s)
      ev E.TIME_ROOT_CHANGE SK.fw 0 [I.FA (ownFa s), I.VALUE (nextEpoch s)]
    else pure ()

/-- ROOT_START_WAIT (R256): 10 ms after the first port came UP without an advancing ROOTSEQ. -/
def execRootStartWait (s : State) : Host.Outcome State Fault Refusal :=
  act (Instr.wf .rootStartWait) s do
    let s ← st
    if s.rd R.FZ_TIME_CFG.ROOT = 1 ∧ s.rd R.FZ_TIME_STAT.TSTATE = TS.FREE ∧ (List.range 36).any (portUp s) ∧ timeParent s = none then do
      advTo ((← seenAt K.firstUp) + 10000000)
      becomeRoot (s.fab.newest.getD 0)
    else pure ()

/-- TIME_LO_READ (R442): a read of FZ_TIME_LO latches FZ_TIME_HI. -/
def execTimeLoRead (s : State) : Host.Outcome State Fault Refusal :=
  act (Instr.wf .timeLoRead) s do
    let t := (← st).clk.time
    eff (.fab fun f => { f with hiLatch := BitVec.ofNat 32 (t.toNat / 2 ^ 32) })
    send (.regData .bar0 [BitVec.ofNat 32 t.toNat])

end Sys2Proof.Machine
end

