-- ==== Sys2Proof/Machine/CoreOps.lean ====
section
/-!
DEFINITION. Operations of a general core: registers (R96), checks at commit (R104, Table 03-4), integer and vector arithmetic (R98, R99),
local and pool accesses (Table 03-1), CSRs (Table 03-5), queue use (R101, R102) and interrupt entry and return (R110, R111).
-/

namespace Sys2Proof.Machine

variable {o : State}

/-- Integer register i; x0 reads zero (R96). -/
def Core.getX (c : Core) (i : Nat) : BitVec 64 := if i = 0 then 0 else tget 0 c.x i

/-- Write integer register i; a write of x0 is lost (R96). -/
def Core.setX (c : Core) (i : Nat) (v : BitVec 64) : Core := if i = 0 then c else { c with x := tset 0 c.x i v }

/-- Vector register i. -/
def Core.getV (c : Core) (i : Nat) : BitVec 512 := tget 0 c.v i

/-- Write vector register i. -/
def Core.setV (c : Core) (i : Nat) (v : BitVec 512) : Core := { c with v := tset 0 c.v i v }

/-! Checks of CORE_CHECK's REASON item (log entry 20). -/
def CK.RES : Nat := Config.eventCode 16
def CK.PARITY : Nat := Config.eventCode 17
def CK.ILLEGAL : Nat := Config.eventCode 18
def CK.DATA : Nat := Config.eventCode 19

/-- A check fails: no commit, the core stops with its flag, the phase fails (R104). -/
def coreFail (p g : Nat) (flag : Fld) (why status detail : Nat) : M o Unit := do
  let u := uidOf p 1 g
  let s ← st
  setF flag
  ev E.CORE_CHECK SK.unit u [I.UNIT u, I.PHYS (physOf s u), I.VALUE (s.rd (R.PART_CORE_STAT.PC p g)), I.REASON why]
  unitFail u status detail

/-- An illegal instruction, address or queue use (R102, R105). -/
def coreIllegal (p g : Nat) : M o Unit := coreFail p g (R.PART_CORE_STAT.ILLEGAL p g) CK.ILLEGAL S.CHECK_FAIL D.ILLEGAL

/-- An uncorrectable memory read. -/
def coreDataLoss (p g detail : Nat) : M o Unit := coreFail p g (R.PART_CORE_STAT.DATA_LOSS p g) CK.DATA S.DATA_LOSS detail

/-- The next instruction, as a word index in local memory; an address beyond it stops the core (R105). -/
def coreJump (p g pc : Nat) : M o Unit := do
  wr (R.PART_CORE_STAT.PC p g) pc
  upCore p g fun c => { c with shield := false }
  if pc < 65536 then wr (stFld (uidOf p 1 g)) US.RUN else coreIllegal p g

/-- An instruction commits: the next one follows, and one that follows IRET ends its shield (R111). -/
def coreNext (p g : Nat) : M o Unit := do coreJump p g ((← rd (R.PART_CORE_STAT.PC p g)) + 1)

/-- Core g of partition p carries out an instruction: it has its turn, its fetch reads local memory, and its commit-time checks
pass (R104). The instruction itself is the command's operand (log entry 12). -/
def coreTurn (p g : Nat) (f : Flt) (body : M o Unit) : M o Unit := do
  applyUps f.ups
  if !(← unitTurn (uidOf p 1 g)) then pure ()
  else if f.parity then coreFail p g (R.PART_CORE_STAT.PARITY p g) CK.PARITY S.CHECK_FAIL D.RESIDUE
  else match ← readMem RC.core (uidOf p 1 g) (locBase p g + 4 * (← rd (R.PART_CORE_STAT.PC p g))) 4 with
    | .error e => coreDataLoss p g e
    | .ok _ => if f.res then coreFail p g (R.PART_CORE_STAT.RES_FAIL p g) CK.RES S.CHECK_FAIL D.RESIDUE else body

/-- Module address of a core's access: an address below 256 KiB is in its own local memory, else it must lie in its partition's pool
(Table 03-1; log entry 22). A misaligned or out-of-range address gives none (R105). -/
def coreAddr (p g a len : Nat) : Option Nat :=
  if a % len ≠ 0 then none
  else if a + len ≤ 0x40000 then some (locBase p g + a)
  else if poolBase p ≤ a ∧ a + len ≤ poolBase p + 0x4000000 then some a else none

/-- Effective address of an access: register plus offset, modulo 2^64. -/
def effAddr (c : Core) (xa : Nat) (off : Int) : Nat := ux 64 ((c.getX xa).toNat + off)

/-- A load of `len` bytes; none when the core stopped. -/
def coreLoad (p g a len : Nat) : M o (Option (List Byte)) := do
  match coreAddr p g a len with
  | none => do
    coreIllegal p g
    return none
  | some m => match ← readMem RC.core (uidOf p 1 g) m len with
    | .ok b => return some b
    | .error e => do
      coreDataLoss p g e
      return none

/-- A store; false when the core stopped. -/
def coreStore (p g a : Nat) (bs : List Byte) : M o Bool := do
  match coreAddr p g a bs.length with
  | none => do
    coreIllegal p g
    return false
  | some m => match ← writeMem RC.core (uidOf p 1 g) m bs with
    | .ok _ => return true
    | .error e => do
      coreDataLoss p g e
      return false

/-! Integer arithmetic (R98). -/

/-- An integer operation; a shift by 64 or more has no stated result: `free` (log entry 12). -/
def aluOp (op : AluOp) (a b free : BitVec 64) : BitVec 64 :=
  match op with
  | .add => a + b
  | .sub => a - b
  | .mul => a * b
  | .and => a &&& b
  | .andn => a &&& ~~~b
  | .or => a ||| b
  | .xor => a ^^^ b
  | .sll => if b.toNat < 64 then a <<< b.toNat else free
  | .srl => if b.toNat < 64 then a >>> b.toNat else free
  | .sra => if b.toNat < 64 then a.sshiftRight b.toNat else free
  | .slt => if a.slt b then 1 else 0
  | .sltu => if a.ult b then 1 else 0

/-- A shift whose result the spec does not state. -/
def aluOpen (op : AluOp) (b : BitVec 64) : Bool := (op == .sll || op == .srl || op == .sra) && decide (64 ≤ b.toNat)

/-- A branch condition. -/
def brTaken (op : BrOp) (a b : BitVec 64) : Bool :=
  match op with
  | .eq => a == b
  | .ne => a != b
  | .lt => a.slt b
  | .ge => b.sle a
  | .ltu => a.ult b
  | .geu => b.ule a
  | .always => true

/-! Vector arithmetic (R97 to R99). -/

/-- Lane width of an element type. -/
def vBits : VTy → Nat
  | .i64 => 64
  | .i32 | .fp32 => 32
  | _ => 16

/-- Format code of a floating-point element type. -/
def vFmt : VTy → Nat
  | .fp32 => F.FP32
  | .bf16 => F.BF16
  | _ => F.FP16

/-- An integer element type. -/
def vIsInt : VTy → Bool
  | .i64 | .i32 | .i16 => true
  | _ => false

/-- Lanes of a register. -/
def vLanes (t : VTy) : Nat := 512 / vBits t

/-- RNE or RTZ (R98). -/
def rndMode (rtz : Bool) : Rnd := if rtz then .rtz else .rne

/-- Addition in an element type. -/
def vAdd (t : VTy) (md : Rnd) (a b : Nat) : Nat :=
  if (vIsInt t) then (a + b) % 2 ^ (vBits t) else ieeeEncode (vFmt t) md ((ieeeVal (vFmt t) a).add (ieeeVal (vFmt t) b))

/-- One lane of a vector operation; fused multiply-add rounds once (R99). -/
def vLane (op : VOp) (t : VTy) (md : Rnd) (a b c : Nat) : Nat :=
  let m := 2 ^ (vBits t)
  match op with
  | .add => vAdd t md a b
  | .sub => if (vIsInt t) then (a + (m - b)) % m else ieeeEncode (vFmt t) md ((ieeeVal (vFmt t) a).add (ieeeVal (vFmt t) b).neg)
  | .mul => if (vIsInt t) then a * b % m else ieeeEncode (vFmt t) md ((ieeeVal (vFmt t) a).mul (ieeeVal (vFmt t) b))
  | .fma => if (vIsInt t) then (a * b + c) % m else ieeeEncode (vFmt t) md (((ieeeVal (vFmt t) a).mul (ieeeVal (vFmt t) b)).add (ieeeVal (vFmt t) c))

/-- Lane k of a register. -/
def laneOf (t : VTy) (v : BitVec 512) (k : Nat) : Nat := packedAt (vBits t) v.toNat k

/-- A register from its lanes. -/
def ofLanes (w : Nat) (l : List Nat) : BitVec 512 := BitVec.ofNat 512 (packRun w l)

/-- A vector operation, lane by lane. -/
def vOp (op : VOp) (t : VTy) (md : Rnd) (a b c : BitVec 512) : BitVec 512 :=
  ofLanes (vBits t) ((List.range (vLanes t)).map fun k => vLane op t md (laneOf t a k) (laneOf t b k) (laneOf t c k))

/-- A vector reduction in the fixed binary tree, in lane 0 with zeros above (R99; log entry 12). -/
def vRed (t : VTy) (md : Rnd) (a : BitVec 512) : BitVec 512 :=
  BitVec.ofNat 512 (treeSum (vAdd t md) 6 ((List.range (vLanes t)).map (laneOf t a)))

/-- One lane of a conversion; none where the spec states no result: a value outside an integer type, an infinity or a NaN. -/
def vCvtLane (src dst : VTy) (md : Rnd) (a : Nat) : Option Nat :=
  if (vIsInt src) then
    let v := sx (vBits src) a
    if (vIsInt dst) then some (ux (vBits dst) v) else some (ieeeEncode (vFmt dst) md (.fin (decide (v < 0)) v.natAbs 0))
  else match ieeeVal (vFmt src) a with
    | .fin n m e =>
      if (vIsInt dst) then
        let r : Int := (if n then -1 else 1) * (roundTo md m e 0 : Nat)
        if -(2 ^ ((vBits dst) - 1) : Nat) ≤ r ∧ r < (2 ^ ((vBits dst) - 1) : Nat) then some (ux (vBits dst) r) else none
      else some (ieeeEncode (vFmt dst) md (.fin n m e))
    | x => if (vIsInt dst) then none else some (ieeeEncode (vFmt dst) md x)

/-- The lanes of a conversion; a lane without a stated result is drawn free. -/
def vCvtLanes (src dst : VTy) (md : Rnd) (a : BitVec 512) : List Nat → M o (List Nat)
  | [] => return []
  | k :: t => do
    let x ← (match vCvtLane src dst md (laneOf src a k) with
      | some x => pure x
      | none => freeBits (vBits dst))
    return x :: (← vCvtLanes src dst md a t)

/-- A format that a conversion between packings takes: any element format with at most 32 bits, or a codebook format (Table 02-4). -/
def packFmt (f : Nat) : Bool := decide (f ≤ 9) || isCb f

/-- The packing carries an E8M0 scale (R20, R22). -/
def packScaled (f : Nat) : Bool := hasScale f || isCb f

/-- Bits of one packed element: an index of a codebook format (R24). -/
def packBits (f : Nat) : Nat := if isCb f then cbWidth f else elemBits f

/-- Element k of packed operands; of a codebook format, the entry that index k selects (R24, R25). -/
def packElem (f : Nat) (a b : BitVec 512) (k : Nat) : Elem :=
  let x := packedAt (packBits f) a.toNat k
  if isCb f then decodeElem (cbEntFmt f) (cbEntry f (leBytes 16 b.toNat) x) else decodeElem f x

/-- Decode 16 packed elements with an E8M0 scale into FP32 lanes (R97, R20, R25). -/
def vUnpack (f : Nat) (md : Rnd) (a b : BitVec 512) (sc : Nat) : BitVec 512 :=
  ofLanes 32 ((List.range 16).map fun k =>
    let v := if packScaled f ∧ sc % 256 = 255 then FV.nan else
      match (packElem f a b k).val (elemFmt f) with
      | .fin n m e => if packScaled f then .fin n m (e + (sc % 256 : Nat) - 127) else .fin n m e
      | x => x
    ieeeEncode F.FP32 md v)

/-- Encode 16 FP32 lanes into a format at the scale 2^(sc - 127), packed; a codebook format takes the nearest entries (R97, R41, R27). -/
def vPack (f : Nat) (md : Rnd) (a b : BitVec 512) (sc : Nat) : BitVec 512 :=
  let x : Int := if packScaled f then (sc % 256 : Nat) - 127 else 0
  ofLanes (packBits f) ((List.range 16).map fun k =>
    let r := resolveFp (packedAt 32 a.toNat k)
    if isCb f then (cbIndex (entryVals f (leBytes 16 b.toNat)) (quantum (cbEntFmt f)) (-149) x r).1 else (encodeRes f md (-149) x r).1)

/-- An ordinary EWC instruction's effect (R97, R98, Table 03-1). Not in the spec, and chosen in log entry 12: the widths of scalar accesses (1, 2, 4
and 8 bytes) with loads zero-extended to 64 bits, the lanes of a conversion between types of different width (the lower lanes, the others zero), and
the place of a codebook's entries. A scale byte 0xFF of an encoding has no stated result: those lanes are free. -/
def ewcBody (p g : Nat) (op : EwcOp) : M o Unit := do
  let c ← core p g
  match op with
  | .alu op xd xa xb => do
    let v ← (if aluOpen op (c.getX xb) then freeBits 64 else pure 0)
    upCore p g fun c => c.setX xd (aluOp op (c.getX xa) (c.getX xb) (BitVec.ofNat 64 v))
    coreNext p g
  | .li xd v => do
    upCore p g fun c => c.setX xd v
    coreNext p g
  | .load xd xa off len =>
    if len = 1 ∨ len = 2 ∨ len = 4 ∨ len = 8 then
      match ← coreLoad p g (effAddr c xa off) len with
      | some b => do
        upCore p g fun c => c.setX xd (BitVec.ofNat 64 (leNat b))
        coreNext p g
      | none => pure ()
    else coreIllegal p g
  | .store xs xa off len =>
    if len = 1 ∨ len = 2 ∨ len = 4 ∨ len = 8 then do
      if (← coreStore p g (effAddr c xa off) (leBytes len (c.getX xs).toNat)) then coreNext p g else pure ()
    else coreIllegal p g
  | .vload vd xa off => do
    match ← coreLoad p g (effAddr c xa off) 64 with
    | some b => do
      upCore p g fun c => c.setV vd (BitVec.ofNat 512 (leNat b))
      coreNext p g
    | none => pure ()
  | .vstore vs xa off => do
    if (← coreStore p g (effAddr c xa off) (leBytes 64 (c.getV vs).toNat)) then coreNext p g else pure ()
  | .vop op ty rtz vd va vb vc => do
    upCore p g fun c => c.setV vd (vOp op ty (rndMode rtz) (c.getV va) (c.getV vb) (c.getV vc))
    coreNext p g
  | .vred ty rtz vd va => do
    upCore p g fun c => c.setV vd (vRed ty (rndMode rtz) (c.getV va))
    coreNext p g
  | .vcvt src dst rtz vd va => do
    let l ← vCvtLanes src dst (rndMode rtz) (c.getV va) (List.range (min (vLanes src) (vLanes dst)))
    upCore p g fun c => c.setV vd (ofLanes (vBits dst) l)
    coreNext p g
  | .vunpack f rtz vd va vb xs =>
    if packFmt f then do
      upCore p g fun c => c.setV vd (vUnpack f (rndMode rtz) (c.getV va) (c.getV vb) (c.getX xs).toNat)
      coreNext p g
    else coreIllegal p g
  | .vpack f rtz vd va vb xs =>
    if !packFmt f then coreIllegal p g
    else do
      let sc := (c.getX xs).toNat
      let open_ := packScaled f && decide (sc % 256 = 255)
      let v ← (if open_ then freeBits (16 * packBits f) else pure 0)
      upCore p g fun c => c.setV vd (if open_ then BitVec.ofNat 512 v else vPack f (rndMode rtz) (c.getV va) (c.getV vb) sc)
      coreNext p g
  | .br op xa xb t => if brTaken op (c.getX xa) (c.getX xb) then coreJump p g t else coreNext p g
  | .illegal => coreIllegal p g

/-! CSRs (Table 03-5). -/

/-- Two BAR0 words as one 64-bit CSR. -/
def pairOf (lo hi : Nat) : BitVec 64 := BitVec.ofNat 64 (lo + 2 ^ 32 * hi)

/-- Value of a CSR; none for a number that Table 03-5 does not list. -/
def csrVal (s : State) (p g n : Nat) : Option (BitVec 64) :=
  let c := tget Core.init s.cores (48 * p + g)
  let pend m := s.rd (R.PART_CORE_IPENDm.PEND p g m)
  let mask m := s.rd (R.PART_CORE_IMASKm.MASK p g m)
  let stat m := s.rd (R.PART_CORE_ISTATm.STAT p g m)
  match n with
  | 0x010 => some (pairOf (pend 0) (pend 1))
  | 0x011 => some (pairOf (pend 2) (pend 3))
  | 0x012 => some (pairOf (mask 0) (mask 1))
  | 0x013 => some (pairOf (mask 2) (mask 3))
  | 0x014 => some (pairOf (stat 0) (stat 1))
  | 0x015 => some (pairOf (stat 2) (stat 3))
  | 0x016 => some c.ivbase
  | 0x017 => some (BitVec.ofNat 64 (2 * s.rd (R.PART_CORE_STAT.INH p g) + (if c.ie then 1 else 0)))
  | 0x018 => some c.epc
  | 0x019 => some (BitVec.ofNat 64 (s.rd (R.PART_CORE_STAT.ICAUSE p g)))
  | 0x020 => some s.clk.time
  | 0x021 => some c.tcmp0
  | 0x022 => some c.tcmp1
  | 0x023 => some (BitVec.ofNat 64 (s.rd (R.PART_CORE_MISC.LMCE p g) + (if c.lmce31 then 2 ^ 31 else 0)))
  | 0x024 => some (BitVec.ofNat 64 (uidOf p 1 g))
  | _ => none

/-- Replace both words of a 64-bit interrupt register (R108). -/
def csrPair (f : Nat → Fld) (m : Nat) (v : BitVec 64) : M o Unit := do
  wr (f (2 * m)) (v.toNat % 2 ^ 32)
  wr (f (2 * m + 1)) (v.toNat / 2 ^ 32)

/-- Write a CSR (R108, Table 03-5, Table 03-7); a read-only CSR keeps its value (log entry 23). -/
def csrPut (p g n : Nat) (v : BitVec 64) : M o Unit := do
  match n with
  | 0x010 => csrPair (R.PART_CORE_IPENDm.PEND p g) 0 v
  | 0x011 => csrPair (R.PART_CORE_IPENDm.PEND p g) 1 v
  | 0x012 => csrPair (R.PART_CORE_IMASKm.MASK p g) 0 v
  | 0x013 => csrPair (R.PART_CORE_IMASKm.MASK p g) 1 v
  | 0x016 => upCore p g fun c => { c with ivbase := BitVec.ofNat 64 (v.toNat / 4096 * 4096) }
  | 0x018 => upCore p g fun c => { c with epc := v }
  | 0x021 => do
    upCore p g fun c => { c with tcmp0 := v, fired0 := false, arm0 := true }
    refreshCore p g
  | 0x022 => do
    upCore p g fun c => { c with tcmp1 := v, fired1 := false, arm1 := true }
    refreshCore p g
  | 0x023 => do
    wr (R.PART_CORE_MISC.LMCE p g) ((← rd (R.PART_CORE_MISC.LMCE p g)) &&& (v.toNat ^^^ 0xFFFF) % 65536)
    (if fget v.toNat 31 1 = 1 then upCore p g fun c => { c with lmce31 := false } else pure ())
    refreshCore p g
  | _ => pure ()

/-! Queue use (R101, R102). -/

/-- The core takes a published slot: its pool address, held until released. -/
def coreTake (p g xd q : Nat) : M o Unit := do
  let s ← st
  let a := qSlot s p q (queOf s p q).rd
  upQue p q fun x => { x with rd := x.rd + 1 }
  upCore p g fun c => { c.setX xd (BitVec.ofNat 64 a) with popped := c.popped ++ [q] }
  coreNext p g

/-- The core takes a credit: the pool address of the slot to write, held until published. -/
def coreAcquire (p g xd q : Nat) : M o Unit := do
  let s ← st
  let a := qSlot s p q (queOf s p q).wr
  wr (R.PART_Q_CREDIT.CREDIT p q) (s.rd (R.PART_Q_CREDIT.CREDIT p q) - 1)
  upQue p q fun x => { x with wr := x.wr + 1 }
  upCore p g fun c => { c.setX xd (BitVec.ofNat 64 a) with acquired := c.acquired ++ [q] }
  refreshEnds p q
  coreNext p g

/-! Interrupts (R110, R111). -/

/-- Lowest set bit of a number among n bits. -/
def lowBit (x : Nat) : Nat → Nat → Option Nat
  | 0, _ => none
  | n + 1, i => if fget x i 1 = 1 then some i else lowBit x n (i + 1)

/-- Pending and unmasked sources of a core as a 128-bit number (R110). -/
def irqOpen (s : State) (p g : Nat) : Nat :=
  sumTo 4 fun m => (s.rd (R.PART_CORE_IPENDm.PEND p g m) &&& (s.rd (R.PART_CORE_IMASKm.MASK p g m) ^^^ 0xFFFFFFFF)) * 2 ^ (32 * m)

/-- The stall of a core on its queues ends: its wait edges disappear (R103). -/
def coreUnwait (p g : Nat) : M o Unit := do
  let s ← st
  let u := uidOf p 1 g
  match unitCtx s u with
  | none => pure ()
  | some c => match phaseOf s c with
    | none => pure ()
    | some ph => each (ph.queues.filter (fun pq => pq.1 = p)) fun pq => do
      let s ← st
      when_ (isCons s p pq.2 u) (wr (R.PART_Q_OCC.WAIT_C p pq.2) 0)
      when_ (isProd s p pq.2 u) (wr (R.PART_Q_CREDIT.WAIT_P p pq.2) 0)

/-- A write of mailbox n of core g (R115): it replaces the value; one that lands on a nonzero mailbox sets MBOX_OVR, which R115 puts into
PART_CORE_STAT and the register table into PART_CORE_MISC: the table's place is taken (DEDUCED, log entry 112). -/
def mboxPut (p g n v : Nat) : M o Unit := do
  let old ← rd (R.PART_CORE_MBOXn.VALUE p g n)
  when_ (decide (old ≠ 0)) (setF (R.PART_CORE_MISC.MBOX_OVR p g))
  wr (R.PART_CORE_MBOXn.VALUE p g n) v
  refreshCore p g

end Sys2Proof.Machine
end

