-- ==== Sys2Proof/Machine/PowerOps.lean ====
section
/-!
DEFINITION. Operating points and their choice (R266 to R274, R286 to R288), the effective clip level and CLIP_LAG (R276, R279), and the forced
states (R271, R272). Powers are whole watts, times whole microseconds and temperatures millionths of a degree; every quotient rounds down and
the exponential of R288 is a sum of ten terms (log entry 36).
-/

namespace Sys2Proof.Machine

variable {o : State}

/-- CK_A divider of an operating point (Table 07-4). -/
def opDiv (k : Nat) : Nat := [4, 5, 6, 7, 8, 10, 12, 16].getD k 16

/-- Stretch divider of an operating point (Table 07-4). -/
def stretchDiv (k : Nat) : Nat := [5, 6, 7, 8, 10, 12, 16, 32].getD k 32

/-- Fused VCORE of a point, mV (R267). -/
def opMv (s : State) (k : Nat) : Nat := s.nv.fuses.opv.getD k 550

/-- RS[k] in parts per thousand million (R268). -/
def opRs (s : State) (k : Nat) : Nat :=
  150000000 + 850000000 * (opMv s k ^ 2 * 4) / max 1 (opMv s 0 ^ 2 * opDiv k)

/-- Contexts with an admitted phase that has not ended. -/
def running (s : State) : List Nat :=
  (List.range 64).filter fun c => match phaseOf s c with
    | some ph => ph.admitted
    | none => false

/-- A FABRIC phase is admitted. -/
def fabricRunning (s : State) : Bool := (running s).any fun c => match phaseOf s c with
  | some ph => ph.fabric
  | none => false

/-- PREF_MODE and PREF_OP that act on a context's phase: those that stood at its admission, or before it the slot's (R197). -/
def slotPref (s : State) (c : Nat) : Nat × Nat :=
  match phaseOf s c with
  | some ph => if ph.admitted then ph.slotPref else (s.rd (R.HIF_CTX_STATc.PREF_MODE c), s.rd (R.HIF_CTX_STATc.PREF_OP c))
  | none => (0, 0)

/-- k_pref of a context's phase (R197). -/
def kPref (s : State) (c : Nat) : Nat :=
  let pref := match phaseOf s c with
    | some ph => ph.pref
    | none => 7
  let x := slotPref s c
  match x.1 with
  | 0 => pref
  | 1 => x.2
  | _ => min 7 (pref + x.2)

/-- Bits set in a mask of n bits. -/
def popCount : Nat → Nat → Nat
  | 0, _ => 0
  | n + 1, m => popCount n m + m / 2 ^ n % 2

/-- What the history or R287's default says of a context's phase: point, average power in W, duration in us. -/
def histOf (s : State) (c : Nat) : Nat × Nat × Nat :=
  match phaseOf s c with
  | none => (7, 0, 0)
  | some ph =>
    match s.pw.hist.find? fun h => h.slot == c && h.phase == ph.num with
    | some h => (h.k, h.watts, h.us)
    | none =>
      let w := Config.contCeiling s.nv.fuses.variant * popCount 8 (tget Ctx.init s.host.ctx c).pmask / 8
      (Config.topPoint s.nv.fuses.variant, w, ph.decl * 1000 / max 1 w)

/-- p_pred of a context's phase at point k, in W (R287). -/
def pPred (s : State) (c k : Nat) : Nat := (histOf s c).2.1 * opRs s k / max 1 (opRs s (histOf s c).1)

/-- Predicted duration at point k, in us (R287). -/
def tPred (s : State) (c k : Nat) : Nat := (histOf s c).2.2 * opDiv k / opDiv (histOf s c).1

/-- p_total(k) in W (R287). -/
def pTotal (s : State) (k : Nat) : Nat := s.host.otherW + ((running s).map (pPred s · k)).sum

/-- e^-x in parts of 2^40, for x = num / den. -/
def expNeg (num den : Nat) : Nat :=
  let one := 2 ^ 40
  if num ≥ 32 * den then 0 else
    let t := num * one / (64 * max 1 den)
    let term := (List.range 10).foldl (fun (acc : Int × Int) i =>
      (acc.1 + acc.2, - acc.2 * t / (one * (i + 1)))) ((0 : Int), (one : Int))
    (List.range 6).foldl (fun v _ => v * v / one) term.1.toNat

/-- One interval of the model of R288: temperature after `us` microseconds toward `goal`, in millionths of a degree; the time constant is
40 ms. -/
def heatStep (t goal : Int) (us : Nat) : Int := goal + (t - goal) * (expNeg us 40000 : Int) / 2 ^ 40

/-- The forecast of R288: phases running as (power, time left) and phases to come; the highest temperature met. -/
def forecast (inlet rth other : Int) : Nat → Int → List (Nat × Nat) → List (Nat × Nat) → Int
  | 0, t, _, _ => t
  | n + 1, t, run, next =>
    match run with
    | [] => t
    | r :: rs =>
      let d := rs.foldl (fun m x => min m x.2) r.2
      let p : Int := other + ((run.map (·.1)).sum : Nat)
      let t' := heatStep t (inlet + rth * p) d
      let left := (run.map fun x => (x.1, x.2 - d)).filter fun x => x.2 ≠ 0
      max t (max t' (forecast inlet rth other n t' (left ++ next.take 1) (next.drop 1)))

/-- forecast_peak(k) in millionths of a degree (R288). -/
def forecastPeak (s : State) (k : Nat) : Int :=
  let run := (running s).map fun c => match phaseOf s c with
    | some ph => (pPred s c k, tPred s c k - (s.clk.mono - ph.admitAt) / 1000)
    | none => (0, 0)
  let next := (s.host.gateQ.take 8).map fun c => (pPred s c k, tPred s c k)
  forecast (s.pw.tin * 125000) ((s.pw.rth / 1000 : Nat) : Int) s.host.otherW (run.length + 9) (s.pw.tj * 125000) run next

/-- The slower search of R286: it stops at OP6. -/
def slower (ok : Nat → Bool) : Nat → Nat → Nat
  | 0, k => k
  | n + 1, k => if k < 6 ∧ !ok k then slower ok n (k + 1) else k

/-- choose_point of R286 for the phases admitted in `s`: the floor is the fastest of the points in effect when the running FABRIC phases were
admitted. -/
def choosePoint (s : State) : Nat :=
  let q := running s
  if q.isEmpty then 7 else
    let top := max (Config.topPoint s.nv.fuses.variant) (s.rd R.PWR_OP.MGMT_CEIL)
    let k0 := max (q.foldl (fun m c => min m (kPref s c)) 7) top
    let clip := s.rd R.PWR_CLIP.EFF_W
    let k1 := slower (fun k => decide (forecastPeak s k ≤ 95000000) && decide (pTotal s k ≤ clip)) 8 k0
    let cur := max (s.rd R.PWR_STAT.OP_NOW) (s.rd R.PWR_STAT.OP_TARGET)
    let k2 := if s.rd R.PWR_STAT.CLIP_LAG = 1 then max k1 cur else k1
    q.foldl (fun m c => match phaseOf s c with
      | some ph => if ph.fabric then min m ph.kAdmit else m
      | none => m) k2

/-- The chosen point becomes the target (R286); OP_MOVE moves to it. -/
def retarget : M o Unit := do wr R.PWR_STAT.OP_TARGET (choosePoint (← st))

/-! Clip levels. -/

/-- The clip sources in the order of Table 07-7. -/
def clipSources (s : State) : List Nat :=
  [Config.contCeiling s.nv.fuses.variant, s.rd R.PWR_CLIP_IN.MGMT_W, s.rd R.PWR_CLIP_IN.RACK_W, s.rd R.PWR_CLIP_DER.THERM_W,
    s.rd R.PWR_CLIP_DER.FLOW_W]

/-- 100 times the average input power of the last 10 ms is above `pct` percent of `w`. -/
def avgAbove (s : State) (w pct : Nat) : Bool := decide (w * pct * s.pw.samples.length < s.pw.samples.sum * 100)

/-- The effective clip level is formed anew; a fall that leaves the input more than 5 % above it sets CLIP_LAG (R276, R279). -/
def refreshClip : M o Unit := do
  let s ← st
  let l := clipSources s
  let w := l.foldl min 0xFFFF
  let old := s.rd R.PWR_CLIP.EFF_W
  wr R.PWR_CLIP.EFF_W w
  wr R.PWR_CLIP.SRC (l.findIdx (· = w))
  let s ← st
  if w < old ∧ avgAbove s w 105 then do
    when_ (decide (s.rd R.PWR_STAT.CLIP_LAG = 0)) (do
      setF R.PWR_STAT.CLIP_LAG
      mark K.clipLag
      eff (.pw fun p => { p with lagAt := s.clk.mono }))
    eff (.host fun h => { h with level := min h.level ((w * 5000 : Nat) : Int) })
  else pure ()

/-- Heat that the coolant carries, in W (R300). -/
def coolantW (s : State) : Nat :=
  Config.coolant * (s.rd R.PWR_COOL.FLOW * (sx 12 (s.rd R.PWR_COOL.T_OUT) - sx 12 (s.rd R.PWR_COOL.T_IN)).toNat) / 1000000

/-- Input power and coolant heat differ by more than 25 % of the input power, where a flow has been reported (R300; log entry 121). -/
def flowDiffers (s : State) : Bool :=
  let p := s.rd R.PWR_INPUT.POWER_W
  s.rd R.PWR_COOL.FLOW != 0xFF && decide (p < 4 * ((p : Int) - (coolantW s : Int)).natAbs)

/-- The instant since which they differ is kept (R300). -/
def refreshFlow : M o Unit := do
  let s ← st
  if flowDiffers s then eff (.pw fun p => { p with flowBad := some (p.flowBad.getD s.clk.mono) })
  else eff (.pw fun p => { p with flowBad := none, flowTold := false })

/-! Forced states. -/

/-- A forced state holds (R271). -/
def forced (s : State) : Bool :=
  s.rd R.PWR_STAT.F_ALERT == 1 || s.rd R.PWR_STAT.F_RATE == 1 || s.rd R.PWR_STAT.F_HOT == 1 || s.rd R.PWR_STAT.HOLD_BROWN == 1
    || s.rd R.PWR_STAT.HOLD_OPER == 1 || s.rd R.GRD_STAT.FORCE == 1

/-- A forced drop (R271, R274, Table 07-14): CK_A jumps to OP7; a blend or move is abandoned. -/
def forceDrop : M o Unit := do
  let s ← st
  wr R.PWR_STAT.OP_NOW 7
  wr R.PWR_STAT.BLENDING 0
  eff (.pw fun p => { p with move := none, restoring := true, forcedAt := some (p.forcedAt.getD s.clk.mono) })

/-! HOLD (R259 to R263). -/

/-- The module enters HOLD from RUN, READY or DRAIN for the reason whose flag is `f` (R204, R259, R263); OP7 is forced. -/
def enterHold (f : Fld) : M o Unit := do
  let m ← mode
  (if m = .run ∨ m = .ready ∨ m = .drain then do
    eff (.ctl fun c => { c with mode := .hold, ret := m })
    mark K.holdAt
  else pure ())
  setF f
  forceDrop

/-- A forced state may have ended: the 100 us of R272 start when none holds. -/
def forcedOff : M o Unit := do
  if forced (← st) then pure () else do
    eff (.pw fun p => { p with forcedAt := none })
    mark K.forcedClr

end Sys2Proof.Machine
end

