-- ==== Sys2Proof/Machine/HeatOps.lean ====
section
/-!
DEFINITION. Hot spots and their sensors (R290, R449), rotation requests (R293) and rainflow counting (R301). Temperatures are in units of 0.125 °C,
the unit of the registers (log entry 40); hot spot h of compute die d has index 24 d + h.
-/

namespace Sys2Proof.Machine

variable {o : State}

/-- Control temperature of hot spot i (PWR_HSd_h.TEMP). -/
def hsTemp (s : State) (i : Nat) : Int := sx 12 (s.rd (R.PWR_HSd_h.TEMP (i / 24) (i % 24)))

/-- Channels excluded at hot spot i: A, B, C. -/
def hsExcl (s : State) (i : Nat) : List Bool :=
  [s.rd (R.PWR_HSd_h.EXCL_A (i / 24) (i % 24)) == 1, s.rd (R.PWR_HSd_h.EXCL_B (i / 24) (i % 24)) == 1,
    s.rd (R.PWR_HSd_h.EXCL_C (i / 24) (i % 24)) == 1]

/-- Median of three. -/
def median (a b c : Int) : Int := max (min a b) (min (max a b) c)

/-- Control temperature from the three channels' readings (R290): the median; with FAULT the highest; with a channel excluded the higher of the
other two. -/
def control (fault : Bool) (ex : List Bool) (r : Int × Int × Int) : Int :=
  if fault then max r.1 (max r.2.1 r.2.2)
  else if ex.getD 0 false then max r.2.1 r.2.2
  else if ex.getD 1 false then max r.1 r.2.2
  else if ex.getD 2 false then max r.1 r.2.1
  else median r.1 r.2.1 r.2.2

/-- Hot spot of a physical array or core (R449): 24 d + h. -/
def regionIdx (s : State) (p kind phys : Nat) : Nat :=
  24 * (p / 4) + (tget 0 s.nv.fuses.region (128 * p + (if kind = 0 then 0 else 0x20) + phys)).toNat % 32

/-- Physical unit that serves a logical array or core. -/
def physIdx (s : State) (u : Nat) : Nat :=
  if uKind u = 0 then s.rd (R.PART_TOP_ARRn.PHYS (uPart u) (uIdx u)) else s.rd (R.PART_TOP_COREg.PHYS (uPart u) (uIdx u))

/-- Hot spot of a logical array or core. -/
def unitSpot (s : State) (u : Nat) : Nat := regionIdx s (uPart u) (uKind u) (physIdx s u)

/-- Logical arrays whose physical array lies in the region of hot spot i. -/
def spotArrays (s : State) (i : Nat) : List Nat :=
  (List.range 192).filter fun k => s.rd (R.PART_TOP_ARRn.VALID (k / 24) (k % 24)) == 1 && unitSpot s (uidOf (k / 24) 0 (k % 24)) == i

/-- Arrays of a unit: a pair has two. -/
def unitArrays (s : State) (u : Nat) : List Nat := if uKind u = 0 then arrKeys s (uPart u) (uIdx u) else []

/-- A hot spot of the unit has been at 97 °C or above for 5 ms, or the array has been throttled for 2 ms (R293). -/
def rotHot (s : State) (u : Nat) : Bool :=
  let hot (i : Nat) : Bool := decide (776 ≤ hsTemp s i) && decide (tget 0 s.clk.seen (K.warm i) + 5000000 ≤ s.clk.mono)
  if uKind u = 0 then
    (unitArrays s u).any fun k => hot (unitSpot s (uidOf (k / 24) 0 (k % 24))) ||
      (decide (dutyOf s k < 16) && decide (tget 0 s.clk.seen (K.thr k) + 2000000 ≤ s.clk.mono))
  else hot (unitSpot s u)

/-- A free physical unit of the partition, or two adjacent free arrays for a pair, lies in a region at least 8 °C cooler (R293). -/
def rotCooler (s : State) (u : Nat) : Bool :=
  rotSome s u fun x => decide (hsTemp s (regionIdx s (uPart u) (uKind u) x) + 64 ≤ hsTemp s (unitSpot s u))

/-- The conditions of R293 hold for a unit. -/
def rotWanted (s : State) (u : Nat) : Bool := rotHot s u && rotCooler s u

/-- Set or withdraw the rotation request of a unit (R88, R120, R293). -/
def setRot (u : Nat) (b : Bool) : M o Unit := do
  eff (.pw fun w => { w with rotReq := if b then w.rotReq ++ [u] else w.rotReq.filter (· ≠ u) })
  if uKind u = 0 then upArr (uPart u) (uIdx u) fun a => { a with rotReq := b }
  else do
    upCore (uPart u) (uIdx u) fun c => { c with rotReq := b }
    refreshCore (uPart u) (uIdx u)

/-- Requests whose condition has cleared are withdrawn (R293). -/
def withdraw : M o Unit := do
  let s ← st
  each (s.pw.rotReq.filter fun u => !rotWanted s u) fun u => setRot u false

/-- FAULT_N and PWR_STAT follow the sensors (R290, R324). -/
def refreshSensors : M o Unit := do
  let s ← st
  let fault := (List.range 48).any fun i => s.rd (R.PWR_HSd_h.FAULT (i / 24) (i % 24)) == 1
  wrB R.PWR_STAT.SENSOR_FAULT fault
  faultCond R.RST_FAULT.SENSOR (fault || (List.range 48).any fun i => (hsExcl s i).contains true)

/-! Rainflow (R301). -/

/-- Add `n` half-cycles of a range to its bin; ranges below 20 °C are not counted. -/
def countHalf (range : Int) (n : Nat) : M o Unit := do
  let add (f : Fld) : M o Unit := do wr f (min 0xFFFFFFFF ((← rd f) + n))
  if range < 160 then pure ()
  else if range < 320 then add R.PWR_LIFE_N20.HALF
  else if range < 480 then add R.PWR_LIFE_N40.HALF
  else add R.PWR_LIFE_N60.HALF

/-- The stack of turning points, newest first, after a sample: a point in the same direction moves the newest one, a reversal of 2 °C or more
adds one. -/
def turn (t : Int) : List Int → List Int
  | [] => [t]
  | [a] => if (t - a).natAbs ≥ 16 then [t, a] else [a]
  | b :: a :: r =>
    if (a < b ∧ b < t) ∨ (b < a ∧ t < b) then t :: a :: r
    else if (t - b).natAbs ≥ 16 then t :: b :: a :: r
    else b :: a :: r

/-- The inner cycle of the four newest points, if the four-point rule closes one: its range and the stack without it. -/
def fourPoint : List Int → Option (Int × List Int)
  | d :: c :: b :: a :: r =>
    if (b - c).natAbs ≤ (a - b).natAbs ∧ (b - c).natAbs ≤ (c - d).natAbs then some (((b - c).natAbs : Int), d :: a :: r) else none
  | _ => none

/-- Close full cycles (R301): each counts as two half-cycles. -/
def closeCycles : M o Unit :=
  loop 64 do
    match fourPoint (← st).pw.stack with
    | none => return false
    | some (x, r) => do
      countHalf x 2
      eff (.pw fun p => { p with stack := r })
      return true

/-- A full stack gives its oldest range as a half-cycle (R301). -/
def trimStack : M o Unit := do
  let l := (← st).pw.stack
  if l.length ≤ 64 then pure () else do
    countHalf ((l.getD (l.length - 1) 0 - l.getD (l.length - 2) 0).natAbs : Int) 1
    eff (.pw fun p => { p with stack := l.dropLast })

/-- D of R302 in units of 10^-6. -/
def damage (n20 n40 n60 : Nat) : Nat := (3 * n20 + 40 * n40 + 400 * n60) / 12

/-- PWR_LIFE_DAMAGE follows the counts; crossing 0.5 and 0.8 each records one event (R302). -/
def refreshLife : M o Unit := do
  let s ← st
  let old := s.rd R.PWR_LIFE_DAMAGE.D
  let new := min 0xFFFFFFFF (damage (s.rd R.PWR_LIFE_N20.HALF) (s.rd R.PWR_LIFE_N40.HALF) (s.rd R.PWR_LIFE_N60.HALF))
  wr R.PWR_LIFE_DAMAGE.D new
  when_ (decide (old < 500000 ∧ 500000 ≤ new)) (ev E.LIFE_50 SK.fw 0 [I.VALUE new])
  when_ (decide (old < 800000 ∧ 800000 ≤ new)) (ev E.LIFE_80 SK.fw 0 [I.VALUE new])

end Sys2Proof.Machine
end

