-- ==== Sys2Proof/Machine/HostOps.lean ====
section
/-!
DEFINITION. Operations of the host work path: ring pairs (R173 to R180), descriptors and their legality (R181), when an operation may start
(R187), the locking of a status (R185), the ending of an aborted operation (R201) and the completion entry (R183).
-/

namespace Sys2Proof.Machine

variable {o : State}

/-! Opcodes (Table 05-9). -/
abbrev OPC.NOP := 0
abbrev OPC.RUN := 1
abbrev OPC.COPY := 2
abbrev OPC.LOAD := 3
abbrev OPC.BIND := 4
abbrev OPC.FENCE := 5
abbrev OPC.ABORT := 6
abbrev OPC.QUERY := 7
abbrev OPC.PREF := 8

/-! Context slot states (HIF_CTX_STATc.STATE). -/
abbrev CS.UNBOUND := 0
abbrev CS.BINDING := 1
abbrev CS.IDLE := 2
abbrev CS.RUN := 3
abbrev CS.DRAIN := 4

/-- Bits [lo + w - 1 : lo] of descriptor word i. -/
def dWord (ws : List (BitVec 64)) (i lo w : Nat) : Nat := fget (ws.getD i 0).toNat lo w

/-- A field of an operation's descriptor. -/
def Op.f (x : Op) (i lo w : Nat) : Nat := dWord x.words i lo w

/-- Fields of word 0 (Table 05-8). -/
def Op.opc (x : Op) : Nat := x.f 0 0 8
def Op.irq (x : Op) : Bool := x.f 0 8 1 == 1
def Op.ordered (x : Op) : Bool := x.f 0 9 1 == 1
def Op.slot (x : Op) : Nat := x.f 0 16 6
def Op.tag (x : Op) : Nat := x.f 0 32 32

/-- BIND_CONTEXT with UNBIND. -/
def Op.unbind (x : Op) : Bool := x.opc == OPC.BIND && x.f 1 8 1 == 1

/-- LOAD_IMAGE flags FIRST and LAST. -/
def Op.first (x : Op) : Bool := x.opc == OPC.LOAD && x.f 4 0 1 == 1
def Op.last (x : Op) : Bool := x.opc == OPC.LOAD && x.f 4 1 1 == 1

/-- The descriptor names a context (Table 05-8). -/
def takesCtx (ws : List (BitVec 64)) : Bool :=
  let c := dWord ws 0 0 8
  c == OPC.RUN || c == OPC.BIND || c == OPC.PREF || (c == OPC.FENCE && dWord ws 1 0 2 == 1) || (c == OPC.ABORT && dWord ws 1 32 1 == 1)

/-- Bits of words 1 to 7 that Table 05-9 defines, by opcode. -/
def usedBits (c : Nat) : List Nat :=
  let all := 2 ^ 64 - 1
  match c with
  | 0 => [0, 0, 0, 0, 0, 0, 0]
  | 1 => [0xFFFF, all, all, all, all, all, 0]
  | 2 => [all, all, 2 ^ 34 - 1, 0, 0, 0, 0]
  | 3 => [all, all, all, 3, 0, 0, 0]
  | 4 => [0x13F, 0, 0, 0, 0, 0, 0]
  | 5 => [3, 0, 0, 0, 0, 0, 0]
  | 6 => [2 ^ 33 - 1, 0, 0, 0, 0, 0, 0]
  | 7 => [all, all, 0, 0, 0, 0, 0]
  | _ => [0x1F, 0, 0, 0, 0, 0, 0]

/-- One end of a COPY: a module address that is mapped and does not run past its range (R126, R181). -/
def copyEnd (s : State) (isMod : Bool) (a len : Nat) : Bool := !isMod || (decide (a < 2 ^ 56) && spanOk s a len)

/-- Fields of word 1 that the operation's mode leaves unused are 0: TARGET with MODE 1, OP with MODE 0, PLAN_CTX with UNBIND (Table 05-9). -/
def modeOk (ws : List (BitVec 64)) : Bool :=
  match dWord ws 0 0 8 with
  | 4 => dWord ws 1 8 1 == 0 || dWord ws 1 0 6 == 0
  | 6 => dWord ws 1 32 1 == 0 || dWord ws 1 0 32 == 0
  | 8 => dWord ws 1 0 2 != 0 || dWord ws 1 2 3 == 0
  | _ => true

/-- A descriptor is legal (R181). -/
def opLegal (s : State) (ws : List (BitVec 64)) : Bool :=
  let c := dWord ws 0 0 8
  decide (c ≤ 8) && dWord ws 0 10 6 == 0 && dWord ws 0 22 10 == 0 && (takesCtx ws || dWord ws 0 16 6 == 0)
    && (List.zipWith (fun (w : BitVec 64) m => (w &&& ~~~ BitVec.ofNat 64 m) == 0) (ws.drop 1) (usedBits c)).all id
    && modeOk ws && match c with
      | 2 => let n := dWord ws 3 0 32
        let sm := dWord ws 3 32 1 == 1
        let dm := dWord ws 3 33 1 == 1
        n != 0 && n % 64 == 0 && (sm || dm) && copyEnd s sm (dWord ws 1 0 64) n && copyEnd s dm (dWord ws 2 0 64) n
      | 3 => let n := dWord ws 3 0 32
        let off := dWord ws 2 0 64
        off % 65536 == 0 && n != 0 && decide (n ≤ 0x4000000) && n % 65536 == 0 && decide (off + n ≤ 0x20000000000)
      | 5 => dWord ws 1 0 2 != 3
      | 7 => dWord ws 1 0 64 % 64 == 0
      | 8 => dWord ws 1 0 2 != 3
      | _ => true

/-- The OPID of the descriptor in `slot` of ring pair n, fetched in wrap w (R182), under the count of its 256-wrap rounds. -/
def opKeyOf (n w slot : Nat) : Nat := 2 ^ 32 * (w / 256) + n * 2 ^ 24 + w % 256 * 65536 + slot

/-- The accepted operation of an OPID. -/
def opOf (s : State) (opid : Nat) : Option Op := s.host.ops.find? fun x => x.opid == opid

/-- Change an operation. -/
def upOp (opid : Nat) (f : Op → Op) : M o Unit :=
  eff (.host fun h => { h with ops := h.ops.map fun x => if x.opid = opid then f x else x })

/-- Operations fetched before one (R175). -/
def earlier (s : State) (opid : Nat) : List Op := s.host.ops.takeWhile fun x => x.opid != opid

/-- The slot in which an operation's phase is bound. -/
def phaseSlot (s : State) (opid : Nat) : Option Nat :=
  (List.range 64).find? fun c => match phaseOf s c with
    | some ph => ph.opid == opid
    | none => false

/-- An operation's status is locked, its bound phase's outcome included (R185). -/
def isLocked (s : State) (x : Op) : Bool :=
  decide (x.st = .locked) || match phaseSlot s x.opid with
    | some c => match phaseOf s c with
      | some ph => ph.outcome.isSome
      | none => false
    | none => false

/-- An operation on a context slot has taken effect for a later one of opcode `c` (R187): a binding that is not done yet has for a RUN_PHASE, which
R190 turns away from a BINDING slot, and has not for the others (log entry 86). -/
def tookEffect (x : Op) (c : Nat) : Bool :=
  decide (x.st = .locked) || (decide (x.st = .started) && (x.opc != OPC.BIND || x.unbind || c == OPC.RUN))

/-- Opcodes that take effect in fetch order over all ring pairs (R187). -/
def ctxOrdered (x : Op) : Bool := x.opc == OPC.RUN || x.opc == OPC.BIND || x.opc == OPC.PREF

/-- An operation was accepted, its status is open and the ordering rules let it start (R187). -/
def mayStart (s : State) (x : Op) : Bool :=
  let es := earlier s x.opid
  let mine := es.filter fun e => e.ring == x.ring
  decide (x.st = .accepted)
    && mine.all (fun e => decide (e.st ≠ .accepted) && (e.opc != OPC.FENCE || e.detail == D.BAD_DESCRIPTOR))
    && (!x.ordered || mine.isEmpty)
    && (!ctxOrdered x || es.all fun e => !ctxOrdered e || e.slot != x.slot || e.detail == D.BAD_DESCRIPTOR ||
        (tookEffect e x.opc && (x.opc != OPC.RUN || e.opc != OPC.RUN)))
    && (!x.last || x.first || es.all fun e => e.opc != OPC.LOAD)

/-- Take an operation of a kind if it may start now. -/
def startOp (opid : Nat) (kind : Op → Bool) : M o (Option Op) := do
  let s ← st
  match opOf s opid with
  | none => return none
  | some x =>
    if kind x && mayStart s x then do
      upOp opid fun x => { x with st := .started }
      return some x
    else return none

/-- Lock an operation's status (R185): the first lock stands. `ready`: nothing holds its entry back (R186). -/
def lockOp (opid status detail unit info0 : Nat) (ready : Bool) : M o Unit :=
  upOp opid fun x => if x.st = .locked then x else
    { x with st := .locked, status := status, detail := detail, unit := unit, info0 := info0, ready := ready }

/-- An operation completes COMPLETE. -/
def doneOp (opid info0 : Nat) : M o Unit := lockOp opid S.COMPLETE 0 0 info0 true

/-- An operation fails. -/
def failOp (opid status detail info0 : Nat) : M o Unit := lockOp opid status detail 0 info0 true

/-- A slot is unbound: its units, pool slots and queues are free (R189, Table 05-13). -/
def freeSlot (c : Nat) : M o Unit := do
  wrs [(R.HIF_CTX_STATc.STATE c, CS.UNBOUND), (R.HIF_CTX_STATc.LOST c, 0)]
  upCtx c fun _ => Ctx.init

/-- End an operation from outside it: by an ABORT, a ring's disabling or a rung. A status already locked stays (R185); the operation stops as
Table 05-13 gives. -/
def endOp (x : Op) (detail : Nat) : M o Unit := do
  let s ← st
  match phaseSlot s x.opid with
  | some c => lockPhase c S.ABORTED detail 0 0
  | none => if x.st = .locked then pure () else do
      (if x.opc = OPC.BIND ∧ x.st = .started then
        if x.unbind then upCtx x.slot fun c => { c with unbinds := c.unbinds.filter (· ≠ x.opid) } else freeSlot x.slot
      else pure ())
      (if x.opc = OPC.LOAD then eff (.vlt fun v => { v with inst := v.inst.map fun i => { i with opids := i.opids.filter (· ≠ x.opid) } })
      else pure ())
      lockOp x.opid S.ABORTED detail 0 (if x.opc = OPC.COPY ∨ x.opc = OPC.LOAD then x.moved else 0) true

/-! Ring pairs. -/

/-- Entries of a ring by its LOG2 field (HIF_RING_CFGn). -/
def ringSize (l : Nat) : Nat := if 6 ≤ l ∧ l ≤ 16 then 2 ^ l else 64

def sqSize (s : State) (n : Nat) : Nat := ringSize (s.rd (R.HIF_RING_CFGn.SQ_LOG2 n))
def cqSize (s : State) (n : Nat) : Nat := ringSize (s.rd (R.HIF_RING_CFGn.CQ_LOG2 n))

/-- Ring pair n in State. -/
def ringOf (s : State) (n : Nat) : Ring := tget Ring.init s.host.rings n

/-- A ring error stops fetching (R179): ERR is set with its code. While ERR is set the first code stands, but a refused entry write, after which
entries are held, always shows. -/
def ringError (n code : Nat) : M o Unit := do
  if (← rd (R.HIF_RING_STATn.ERR n)) = 0 ∨ code = 3 then
    wrs [(R.HIF_RING_STATn.ERR n, 1), (R.HIF_RING_STATn.ERR_CODE n, code)]
  else pure ()

/-- The module may fetch from ring pair n (R174, R176, R179, R370). -/
def fetchable (s : State) (n : Nat) : Bool :=
  s.rd (R.HIF_RING_CFGn.EN n) == 1 && s.rd (R.HIF_RING_STATn.ERR_CODE n) == 0 && s.ctl.mode != .minimal
    && s.rd (R.HIF_RING_POSn.SQ_HEAD n) != (ringOf s n).tail
    && decide ((ringOf s n).used + s.rd (R.HIF_RING_STATn.OUTSTANDING n) < cqSize s n - 1) && decide (s.host.ops.length < 16384)

/-- The ring pair whose turn it is: the present one for at most 8 descriptors, else the next in ring order (R175). -/
def nextRing (s : State) : Option Nat :=
  if s.host.rrCnt < 8 && fetchable s s.host.rrRing then some s.host.rrRing
  else ((List.range 256).map fun i => (s.host.rrRing + 1 + i) % 256).find? (fetchable s)

/-- The ring's message is sent; what it covers is signalled (R172, R178). -/
def ringMessage (n : Nat) : M o Unit := do
  upRing n fun r => { r with unsig := 0 }
  sendMsix (← rd (R.HIF_RING_CFGn.VEC n))

/-- The eight words of an operation's completion entry (Table 05-10). -/
def entryWords (s : State) (x : Op) : List (BitVec 32) :=
  let n := x.ring
  let run := x.opc = OPC.RUN ∧ x.detail ≠ D.BAD_DESCRIPTOR
  [x.opid % 2 ^ 32, x.tag, x.detail * 65536 + x.opc * 256 + x.status,
    (if (ringOf s n).phase then 2 ^ 31 else 0) + (if takesCtx x.words then x.slot * 65536 else 0) + s.rd (R.HIF_RING_POSn.SQ_HEAD n),
    if run then min x.energy 0xFFFFFFFF else 0, x.unit * 65536 + (if x.opc = OPC.RUN then x.f 1 0 16 else 0), min x.info0 0xFFFFFFFF,
    if run then min x.info1 0xFFFFFFFF else 0].map (BitVec.ofNat 32)

/-- A ring pair without accepted operations and with EN 0 is no longer ACTIVE (R180). -/
def refreshActive (n : Nat) : M o Unit := do
  let s ← st
  wrB (R.HIF_RING_STATn.ACTIVE n) (s.rd (R.HIF_RING_CFGn.EN n) == 1 || s.rd (R.HIF_RING_STATn.OUTSTANDING n) != 0)

/-- An operation leaves the module: its reservation is given back. -/
def dropOp (x : Op) : M o Unit := do
  eff (.host fun h => { h with ops := h.ops.filter (·.opid ≠ x.opid) })
  wr (R.HIF_RING_STATn.OUTSTANDING x.ring) ((← rd (R.HIF_RING_STATn.OUTSTANDING x.ring)) - 1)
  refreshActive x.ring

/-- A completion that cannot be written is discarded with an event, whose code no rule names (R179; log entry 28). -/
def discardOp (x : Op) : M o Unit := do
  let c ← freeBits 5
  evRaw (1 + c % 23) SK.hw 0 [I.OPID (x.slot * 2 ^ 32 + x.opid % 2 ^ 32)]
  dropOp x

/-- R180: a write of EN = 0. -/
def disableRing (n : Nat) : M o Unit := do
  wr (R.HIF_RING_CFGn.EN n) 0
  let s ← st
  each (s.host.ops.filter fun x => x.ring == n && x.opc != OPC.ABORT) fun x => endOp x D.RING_DISABLED
  (if s.rd (R.HIF_RING_STATn.ERR_CODE n) = 3 then do
    let s ← st
    each (s.host.ops.filter fun x => x.ring == n && decide (x.st = .locked) && x.ready) discardOp
  else pure ())
  refreshActive n

/-- R173: a write of EN = 1. -/
def enableRing (n : Nat) : M o Unit := do
  wrs [(R.HIF_RING_CFGn.EN n, 1), (R.HIF_RING_POSn.SQ_HEAD n, 0), (R.HIF_RING_POSn.CQ_TAIL n, 0), (R.HIF_RING_STATn.ERR n, 0),
    (R.HIF_RING_STATn.ERR_CODE n, 0), (R.HIF_RING_STATn.OUTSTANDING n, 0), (R.HIF_RING_STATn.ACTIVE n, 1)]
  upRing n fun _ => { Ring.init with phase := true }

/-! Serving (R193, R203, R204). -/

/-- gate_closed() of R193: the gate is open in RUN alone (log entry 38). -/
def gateClosed (s : State) : Bool :=
  decide (s.ctl.mode ≠ .run) || s.rd R.PWR_STAT.CLIP_LAG == 1 || s.rd R.HIF_CTL.GATE_STOP == 1

/-- A module in DRAIN with no admitted phase moves to READY (R204). -/
def drainDone : M o Unit := do
  let s ← st
  if s.ctl.mode = .drain ∧ running s = [] then setMode .ready else pure ()

/-- A write of SERVE (R204). FENCED ignores it (R395). -/
def setServe (v : Bool) : M o Unit := do
  let s ← st
  if s.ctl.mode = .fenced then pure () else do
    wrB R.HIF_CTL.SERVE v
    match s.ctl.mode with
    | .ready => if v then setMode .run else pure ()
    | .drain => if v then setMode .run else pure ()
    | .run => if v then pure () else do
        setMode .drain
        drainDone
    | .hold => eff (.ctl fun c => { c with ret :=
        if v then .run else if c.ret = .run then .drain else c.ret })
    | _ => pure ()

end Sys2Proof.Machine
end

