-- ==== Sys2Proof/Machine/PlanOps.lean ====
section
/-!
DEFINITION. The plan image as the module reads it from the active slot (R165 to R169, Tables 05-1 to 05-3; the layouts that no table gives are log
entry 100), its verification (R166), the plan checks (R170), unit conflicts (R188), the loading of ranges (R162) and the binding of a phase (R60, R191).
-/

namespace Sys2Proof.Machine

variable {o : State}

/-- Module address of byte 0 of the active image. -/
def imgBase (s : State) : Nat := slotBase s.nv.super.active

/-- `len` bytes of the active image as a number. -/
def img (s : State) (off len : Nat) : Nat := leNat (peek s (imgBase s + off) len)

/-- A plan context record (Table 05-2). -/
structure PCtx where
  nPhase : Nat
  pmask : Nat
  phaseTab : Nat
  unitTab : Nat
  firstRange : Nat
  nRanges : Nat

/-- Image offset of a context record. -/
def ctxOff (s : State) (c : Nat) : Nat := img s 0x28 8 + 64 * c

/-- The record of plan context c. -/
def planCtx (s : State) (c : Nat) : PCtx :=
  let b := ctxOff s c
  ⟨img s b 2, img s (b + 2) 1, img s (b + 4) 4, img s (b + 8) 8, img s (b + 16) 4, img s (b + 20) 4⟩

/-- Set bits of an n-bit mask, in increasing order. -/
def bitList (n m : Nat) : List Nat := (List.range n).filter fun i => m / 2 ^ i % 2 = 1

/-- The units that a context owns (R167). -/
def ctxUnits (s : State) (x : PCtx) : List Nat :=
  (bitList 8 x.pmask).flatMap fun p =>
    let b := x.unitTab + 16 * p
    (bitList 24 (img s b 3)).map (uidOf p 0) ++ (bitList 48 (img s (b + 3) 6)).map (uidOf p 1) ++ (bitList 16 (img s (b + 9) 2)).map (uidOf p 2)

/-- The pool slots that a context owns: partition, first, count (R167). -/
def ctxPool (s : State) (x : PCtx) : List (Nat × Nat × Nat) :=
  (bitList 8 x.pmask).map fun p =>
    let v := img s (x.unitTab + 16 * p + 11) 5
    (p, fget v 0 18, fget v 18 19)

/-- Image offset of phase record n. -/
def phOff (tab n : Nat) : Nat := 64 * tab + 128 * n

/-- A wiring entry: partition, queue, PART_Q_CFG, PART_Q_ENDS, INIT_CREDIT. -/
structure Wire where
  p : Nat
  q : Nat
  cfg : Nat
  ends : Nat
  cr0 : Nat
  deriving DecidableEq

/-- The wiring entries of the phase record at `b`. -/
def wires (s : State) (b : Nat) : List Wire :=
  (List.range (img s (b + 0x30) 4)).map fun i =>
    let e := img s (b + 8) 8 + 16 * i
    let w := img s (e + 12) 4
    ⟨fget w 13 3, fget w 0 10, img s e 4, img s (e + 4) 4, fget (img s (e + 8) 4) 0 17⟩

/-- A program entry: unit, start and end queue, pleached, blob offset and length, list start. -/
structure Prog where
  unit : Nat
  startQ : Nat
  endQ : Nat
  pair : Bool
  off : Nat
  len : Nat
  list : Nat
  deriving DecidableEq

/-- The program entries of the phase record at `b`. -/
def progs (s : State) (b : Nat) : List Prog :=
  (List.range (img s (b + 0x34) 4)).map fun i =>
    let e := img s (b + 0x10) 8 + 32 * i
    ⟨img s e 2, img s (e + 2) 2, img s (e + 4) 2, img s (e + 6) 2 % 2 == 1, img s (e + 8) 8, img s (e + 16) 8, img s (e + 24) 8⟩

/-- The queue-event slot values of the i-th general core of the phase record at `b` (R114). -/
def qevs (s : State) (b i : Nat) : List Nat := (List.range 48).map fun j => img s (img s (b + 0x18) 8 + 384 * i + 8 * j) 8

/-- Rotation entries: unit, program counter (Table 05-3). -/
def rots (s : State) (b : Nat) : List (Nat × Nat) :=
  (List.range (img s (b + 0x38) 4)).map fun i =>
    let v := img s (img s (b + 0x20) 8 + 4 * i) 4
    (v / 65536, v % 65536)

/-- A Fazar operation entry: peer FA, local partition and queue, ordering channel, timeout in us, far partition and queue. -/
structure FzEnt where
  fa : Nat
  p : Nat
  q : Nat
  och : Nat
  tmo : Nat
  fp : Nat
  fq : Nat
  deriving DecidableEq

/-- The Fazar operation entries of the phase record at `b`. -/
def fzEnts (s : State) (b : Nat) : List FzEnt :=
  (List.range (img s (b + 0x3C) 4)).map fun i =>
    let e := img s (b + 0x28) 8 + 16 * i
    let l := img s (e + 4) 2
    let f := img s (e + 12) 2
    ⟨img s e 4 % 2 ^ 20, fget l 13 3, fget l 0 10, img s (e + 6) 2 % 16, img s (e + 8) 4, fget f 13 3, fget f 0 10⟩

/-- Range entries of a context: image offset, module address, length, flags (R169). -/
def ctxRanges (s : State) (first n : Nat) : List (Nat × Nat × Nat × Nat) :=
  (List.range n).map fun i =>
    let e := img s 0x30 8 + 32 * (first + i)
    (img s e 8, img s (e + 8) 8, img s (e + 16) 8, img s (e + 24) 1)

/-- STORE flag of a range. -/
def isStore (r : Nat × Nat × Nat × Nat) : Bool := fget r.2.2.2 1 1 == 1

/-! Verification. -/

/-- The key slot that may verify an image with this OWNER_KEY_HASH (R166, R435): VALID, not REVOKED, its stored modulus matching its fuses. -/
def ownerModulus (s : State) (hash : List Byte) : Option (List Byte) :=
  ((List.range 8).find? fun k =>
    let x := tget OwnerSlot.empty s.nv.fuses.owner k
    x.valid && !x.revoked && x.digest == hash && Config.sha512 (tget [] s.nv.super.moduli k) == x.digest).map fun k =>
      tget [] s.nv.super.moduli k

/-- The image in slot k verifies (R165, R166). -/
def imageVerifies (s : State) (k : Nat) : Bool :=
  let b := slotBase k
  let len := leNat (peek s (b + 0x10) 8)
  let sig := peek s (b + len - 65536) 65536
  decide (peek s b 8 = ([0x45, 0x57, 0x4E, 0x50, 0x4C, 0x41, 0x4E, 0x31].map (BitVec.ofNat 8)))
    && leNat (peek s (b + 8) 2) == 1 && len % 65536 == 0 && decide (65536 ≤ len) && decide (len ≤ 0x20000000000)
    && match ownerModulus s (peek s (b + 0x40) 64) with
      | none => false
      | some m => Config.rsaVerify m (Config.sha512 (peek s b (len - 65536))) (sig.take 512) && (sig.drop 512).all (· == 0)

/-- Mark an image slot verified or not in the superblock (R199). -/
def markSlot (k : Nat) (v : Bool) : M o Unit :=
  eff (.super fun x => if k = 0 then { x with verA := v } else { x with verB := v })

/-- The active slot holds a verified image. -/
def activeVerified (s : State) : Bool := if s.nv.super.active = 0 then s.nv.super.verA else s.nv.super.verB

/-! Plan checks (R170). -/

/-- The phase record at `b` has a fault of Table 05-4's codes 0x06: a queue-event slot whose core is not the matching endpoint. -/
def bad06 (s : State) (b : Nat) : Bool :=
  let ws := wires s b
  let cs := (progs s b).filter fun g => uKind g.unit = 1
  (List.range cs.length).any fun i =>
    let u := (cs.getD i ⟨0, 0, 0, false, 0, 0, 0⟩).unit
    (qevs s b i).any fun v => fget v 63 1 == 1 && !(ws.any fun w =>
      w.p == uPart u && w.q == fget v 0 10 && (if fget v 16 1 = 0 then w.ends % 65536 == u else w.ends / 65536 == u))

/-- A wiring entry keeps R60 and its ring lies in the context's pool slots. -/
def wireOk (pool : List (Nat × Nat × Nat)) (w : Wire) : Bool :=
  let d := fget w.cfg 22 5
  let base := fget w.cfg 0 18
  decide (1 ≤ d) && decide (d ≤ 16) && decide (1 ≤ w.cr0) && decide (w.cr0 ≤ 2 ^ d)
    && pool.any fun x => x.1 == w.p && decide (x.2.1 ≤ base) && decide (base + 2 ^ d ≤ x.2.1 + x.2.2)

/-- The queue is wired with the energy gate as its producer (R450). -/
def gateMade (ws : List Wire) (p q : Nat) : Bool := ws.any fun w => w.p == p && w.q == q && uKind (w.ends / 65536) == 4

/-- The phase record at `b` has a fault of code 0x07. -/
def bad07 (s : State) (pool : List (Nat × Nat × Nat)) (b : Nat) : Bool :=
  let ws := wires s b
  let a := img s (b + 0x40) 2
  !ws.all (wireOk pool) || !(progs s b).all (fun g => gateMade ws (uPart g.unit) g.startQ)
    || (a != 0xFFFF && !gateMade ws (fget a 13 3) (fget a 0 10))

/-- The phase record at `b` has a fault of code 0x09: a rotation entry's program counter does not hold ROTPT. -/
def bad09 (s : State) (b : Nat) : Bool :=
  (rots s b).any fun r => match (progs s b).find? fun g => g.unit == r.1 with
    | none => true
    | some g =>
      if uKind r.1 = 0 then !(decide (16 * r.2 + 16 ≤ g.len) && insOpc (img s (g.off + 16 * r.2) 16) == 14)
      else !Config.coreRotpt (peek s (imgBase s + g.off) g.len) r.2

/-- The phase record at `b` of phase n has a fault of code 0x0B. -/
def bad0B (s : State) (b n len : Nat) : Bool :=
  let nq := img s (b + 0x30) 4
  let np := img s (b + 0x34) 4
  let cores := ((progs s b).filter fun g => uKind g.unit = 1).length
  img s b 2 != n || fget (img s (b + 2) 1) 3 5 != 0 || fget (img s (b + 3) 1) 3 5 != 0 || img s (b + 0x42) 62 != 0
    || decide (len < b + 128) || decide (len < img s (b + 8) 8 + 16 * nq) || decide (len < img s (b + 0x10) 8 + 32 * np)
    || decide (len < img s (b + 0x18) 8 + 384 * cores) || decide (len < img s (b + 0x20) 8 + 4 * img s (b + 0x38) 4)
    || decide (len < img s (b + 0x28) 8 + 16 * img s (b + 0x3C) 4)
    || (List.range nq).any (fun i =>
      let e := img s (b + 8) 8 + 16 * i
      fget (img s e 4) 27 3 != 0 || fget (img s e 4) 18 4 != 0 || fget (img s (e + 8) 4) 17 15 != 0 || fget (img s (e + 12) 4) 10 3 != 0
        || fget (img s (e + 12) 4) 16 16 != 0)
    || (List.range np).any (fun i =>
      let e := img s (b + 0x10) 8 + 32 * i
      decide (1 < img s (e + 6) 2) || decide (len < img s (e + 8) 8 + img s (e + 16) 8))
    || (List.range cores).any (fun i => (qevs s b i).any fun v => fget v 10 6 != 0 || fget v 34 29 != 0)
    || (List.range (img s (b + 0x3C) 4)).any fun i => img s (img s (b + 0x28) 8 + 16 * i + 14) 2 != 0

/-- Header, context record, unit entries and ranges have a fault of code 0x0B. -/
def ctxBad0B (s : State) (c : Nat) (x : PCtx) : Bool :=
  let len := img s 0x10 8
  let b := ctxOff s c
  img s 0x3C 4 != 0 || img s 0x80 3968 != 0 || img s (b + 3) 1 != 0 || img s (b + 0x18) 40 != 0
    || decide (len < img s 0x28 8 + 64 * img s 0xA 2) || decide (len < x.unitTab + 128)
    || decide (len < img s 0x30 8 + 32 * img s 0x38 4) || decide (img s 0x38 4 < x.firstRange + x.nRanges)
    || (List.range 8).any (fun p => fget (img s (x.unitTab + 16 * p + 11) 5) 37 3 != 0)
    || (List.range x.nRanges).any fun i =>
      let e := img s 0x30 8 + 32 * (x.firstRange + i)
      img s e 8 % 4096 != 0 || img s (e + 8) 8 % 4096 != 0 || img s (e + 16) 8 % 4096 != 0 || decide (3 < img s (e + 24) 1)
        || img s (e + 25) 7 != 0 || decide (len < img s e 8 + img s (e + 16) 8)

/-- The first failed check of Table 05-4 for plan context c, or 0 (R170). -/
def planCheck (s : State) (c : Nat) : Nat :=
  let x := planCtx s c
  let len := img s 0x10 8
  let bs := (List.range x.nPhase).map fun n => phOff x.phaseTab n
  if !activeVerified s then 1
  else if s.ctl.fw.version < img s 0xC 4 then 2
  else if img s 0xA 2 ≤ c then 3
  else if 1990000000000 < img s 0x20 8 then 4
  else if bs.any (fun b => img s (b + 4) 4 == 0 || decide (32000 < img s (b + 4) 4)) then 5
  else if bs.any (bad06 s) then 6
  else if bs.any (bad07 s (ctxPool s x)) then 7
  else if (bitList 8 x.pmask).any (unavail s) then 8
  else if bs.any (bad09 s) then 9
  else if bs.any (fun b => (fzEnts s b).any fun f => f.tmo == 0) then 10
  else if ctxBad0B s c x || (List.range x.nPhase).any (fun n => bad0B s (phOff x.phaseTab n) n len) then 11
  else 0

/-- Queues that a context's phases wire (R167). -/
def ctxQueues (s : State) (x : PCtx) : List (Nat × Nat) :=
  ((List.range x.nPhase).flatMap fun n => (wires s (phOff x.phaseTab n)).map fun w => (w.p, w.q)).dedup

/-- A unit, pool slot or queue belongs to another bound slot (R188). -/
def planConflict (s : State) (slot : Nat) (x : PCtx) : Bool :=
  let us := ctxUnits s x
  let qs := ctxQueues s x
  let ps := ctxPool s x
  (List.range 64).any fun c => c != slot && s.rd (R.HIF_CTX_STATc.STATE c) != CS.UNBOUND &&
    let y := tget Ctx.init s.host.ctx c
    us.any (y.units.contains ·) || qs.any (y.queues.contains ·)
      || ps.any fun a => y.pool.any fun b => a.1 == b.1 && decide (a.2.1 < b.2.1 + b.2.2) && decide (b.2.1 < a.2.1 + a.2.2)

/-! Loading. -/

/-- How the loading of ranges ends: they have landed, some wait because nothing is mapped there, or a read or write failed with a DETAIL. -/
inductive Load where
  | landed | waits
  | lost (detail : Nat)
  deriving DecidableEq, Repr

/-- Load bytes of the active image to a module address: a vault page that cannot be read (R153) or a failed channel (R134) fails it; an unmapped
span stays not loaded. -/
def loadRange (r : Nat × Nat × Nat × Nat) : M o Load := do
  let s ← st
  if !spanOk s r.2.1 r.2.2.1 then return .waits
  else match ← readVault RC.load 0 (imgBase s + r.1) r.2.2.1 with
    | .error e => return .lost e
    | .ok b => match ← writeMem RC.load 0 r.2.1 b with
      | .error e => return .lost e
      | .ok _ => do
        eff (.mem fun m => { m with landed := if m.landed.contains (r.2.1, r.2.2.1) then m.landed else m.landed ++ [(r.2.1, r.2.2.1)] })
        return .landed

/-- Load ranges until one fails; one that waits keeps the others from no load. -/
def loadRanges : List (Nat × Nat × Nat × Nat) → M o Load
  | [] => return .landed
  | r :: t => do
    match ← loadRange r with
    | .lost e => return .lost e
    | .landed => loadRanges t
    | .waits => match ← loadRanges t with
      | .lost e => return .lost e
      | _ => return .waits

/-- A range has landed (R162). -/
def hasLanded (s : State) (r : Nat × Nat × Nat × Nat) : Bool := s.mem.landed.contains (r.2.1, r.2.2.1)

/-- Array store or local memory of a unit: base and size (Table 04-2). -/
def unitMem (u : Nat) : Nat × Nat :=
  if uKind u = 0 then (storeBase (uPart u) (uIdx u), 0x200000) else (locBase (uPart u) (uIdx u), 0x40000)

/-- The part of a range that lies in [b, b + n). -/
def cutRange (b n : Nat) (r : Nat × Nat × Nat × Nat) : Nat × Nat × Nat × Nat :=
  let lo := max r.2.1 b
  (r.1 + (lo - r.2.1), lo, min (r.2.1 + r.2.2.1) (b + n) - lo, r.2.2.2)

/-- STORE ranges of INVALID units are loaded again, each as far as it lies in the unit's memory (R95, R122, R169, R191); the DETAIL of what
failed. -/
def reloadStores (rs : List (Nat × Nat × Nat × Nat)) : List Nat → M o (Option Nat)
  | [] => return none
  | u :: t => do
    let m := unitMem u
    if uKind u ≤ 1 ∧ (← rd (stFld u)) = US.INVALID then
      match ← loadRanges ((rs.filter isStore).map (cutRange m.1 m.2) |>.filter fun r => decide (0 < r.2.2.1)) with
      | .lost e => return some e
      | _ => reloadStores rs t
    else reloadStores rs t

/-- Read spans of the active image, given by offset and length; the DETAIL of a page that cannot be read (R153). -/
def readSpans : List (Nat × Nat) → M o (Option Nat)
  | [] => return none
  | x :: t => do
    match ← readVault RC.load 0 (imgBase (← st) + x.1) x.2 with
    | .error e => return some e
    | .ok _ => readSpans t

/-- Spans of the image that the phase record at `b` takes: the record and its tables (Table 05-3). -/
def phaseSpans (s : State) (b : Nat) : List (Nat × Nat) :=
  let cores := ((progs s b).filter fun g => uKind g.unit = 1).length
  [(b, 128), (img s (b + 8) 8, 16 * img s (b + 0x30) 4), (img s (b + 0x10) 8, 32 * img s (b + 0x34) 4), (img s (b + 0x18) 8, 384 * cores),
    (img s (b + 0x20) 8, 4 * img s (b + 0x38) 4), (img s (b + 0x28) 8, 16 * img s (b + 0x3C) 4)]

/-- Spans of the image that the binding of plan context c takes: header, record, unit entries, ranges and phase records (R170). -/
def ctxSpans (s : State) (c : Nat) : List (Nat × Nat) :=
  let x := planCtx s c
  [(0, 4096), (ctxOff s c, 64), (x.unitTab, 128), (img s 0x30 8 + 32 * x.firstRange, 32 * x.nRanges)]
    ++ (List.range x.nPhase).flatMap fun n => phaseSpans s (phOff x.phaseTab n)

/-- Load the program blob of a program entry into its unit's memory (R191); the DETAIL of what failed. -/
def loadBlob (g : Prog) : M o (Option Nat) := do
  if 2 ≤ uKind g.unit then return none
  else match ← readVault RC.load 0 (imgBase (← st) + g.off) g.len with
    | .error e => return some e
    | .ok b => match ← writeMem RC.load 0 (unitMem g.unit).1 (b.take (if uKind g.unit = 0 then 65536 else 0x40000)) with
      | .error e => return some e
      | .ok _ => return none

/-- Load program blobs until one fails. -/
def loadBlobs : List Prog → M o (Option Nat)
  | [] => return none
  | g :: t => do
    match ← loadBlob g with
    | some e => return some e
    | none => loadBlobs t

/-! Binding of a phase (R60, R191). -/

/-- Fields of the k-th remote end opposite to a wiring entry on the package: equal ENDS, another partition, in order (log entry 27). -/
def farWire (ws : List Wire) (w : Wire) : Option Wire :=
  let same := ws.filter fun x => x.ends == w.ends && x.p == w.p && fget x.cfg 30 1 == 1
  let far := ws.filter fun x => x.ends == w.ends && x.p != w.p && fget x.cfg 30 1 == 1
  far[same.findIdx (· = w)]?

/-- Write a wired queue's registers and map (R60, R451). -/
def wireQueue (ws : List Wire) (fz : List FzEnt) (w : Wire) : M o Unit := do
  wrs [(R.PART_Q_CFG.VALID w.p w.q, 1), (R.PART_Q_CFG.REMOTE w.p w.q, fget w.cfg 30 1), (R.PART_Q_CFG.DEPTH_LOG2 w.p w.q, fget w.cfg 22 5),
    (R.PART_Q_CFG.BASE w.p w.q, fget w.cfg 0 18), (R.PART_Q_ENDS.PROD w.p w.q, w.ends / 65536), (R.PART_Q_ENDS.CONS w.p w.q, w.ends % 65536),
    (R.PART_Q_OCC.OCC w.p w.q, 0), (R.PART_Q_OCC.WAIT_C w.p w.q, 0), (R.PART_Q_CREDIT.CREDIT w.p w.q, w.cr0),
    (R.PART_Q_CREDIT.WAIT_P w.p w.q, 0)]
  let far := match fz.find? fun f => f.p == w.p && f.q == w.q with
    | some f => (f.fa, f.fp, f.fq, f.och)
    | none => match (if fget w.cfg 30 1 = 1 then farWire ws w else none) with
      | some x => (0, x.p, x.q, 0)
      | none => (0, 0, 0, 0)
  upQue w.p w.q fun _ => { Que.init with cr0 := w.cr0, farFa := far.1, farP := far.2.1, farQ := far.2.2.1, och := far.2.2.2 }

/-- Make the unit of a program entry, whose program is loaded, ready to start; `i`: its position among the entries that name general cores (R114,
R191, R452). A core that was not reset keeps x, v, IE, INH, IPEND, IMASK and IVBASE: no rule clears them at a binding (log entry 109). -/
def loadProg (c b : Nat) (g : Prog) (i : Nat) : M o Unit := do
  let s ← st
  let p := uPart g.unit
  let n := uIdx g.unit
  wr (stFld g.unit) US.IDLE
  if uKind g.unit = 0 then do
    wrs [(R.PART_ARR_STAT.PC p n, 0), (R.PART_ARR_STAT.PAIR p n, if g.pair then 1 else 0)]
    upArr p n fun a => { a with
      cbFmt := none, cbEnt := [], bank0 := Acc.free, bank1 := Acc.free, obank0 := Acc.free, obank1 := Acc.free, tiles := [], outBuf := [],
      startQ := g.startQ, endQ := g.endQ, len := min 4096 (g.len / 16), ctx := some c, fills := 0 }
    when_ g.pair (do
      wrs [(R.PART_ARR_STAT.PAIR p (n + 1), 2), (R.PART_ARR_STAT.STATE p (n + 1), US.IDLE)]
      upArr p (n + 1) fun a => { a with ctx := some c, len := 0 })
  else if uKind g.unit = 1 then do
    wr (R.PART_CORE_STAT.PC p n) 0
    let vs := (qevs s b i).map (BitVec.ofNat 64)
    upCore p n fun x => { x with
      startQ := g.startQ, endQ := g.endQ, ctx := some c, popped := [], acquired := [], shield := false
      qev := (List.range 48).foldl (fun t j => tset 0 t j (vs.getD j 0)) [] }
  else
    upStr p n fun x => { x with list := g.list, run := StrRun.init, startQ := g.startQ, endQ := g.endQ, ctx := some c }
  when_ (uKind g.unit == 2) (wr (R.PART_STR_STAT.DESC p n) 0)

/-- Write the wiring of the phase at record `b`, make its units ready and place the phase in the gate queue (R60, R191). -/
def placePhase (c n opid : Nat) (args : List (BitVec 64)) : M o Unit := do
  let s ← st
  let x := tget Ctx.init s.host.ctx c
  let b := phOff x.phaseTab n
  let ws := wires s b
  let gs := progs s b
  let fz := fzEnts s b
  each x.queues fun pq => wr (R.PART_Q_CFG.VALID pq.1 pq.2) 0
  each ws (wireQueue ws fz)
  each (List.range gs.length) fun i =>
    match gs[i]? with
    | none => pure ()
    | some g => loadProg c b g ((gs.take i).filter fun y => uKind y.unit = 1).length
  let endOf (f : FzEnt) : Nat :=
    let s := ws.find? fun w => w.p == f.p && w.q == f.q
    match s with
    | none => 0
    | some w => if uKind (w.ends / 65536) ≤ 2 ∧ uPart (w.ends / 65536) = f.p then w.ends / 65536 else w.ends % 65536
  let ts := (List.range fz.length).filterMap fun i => fz[i]?.map fun f =>
    ({ idx := i, peer := f.fa, q := 1024 * f.p + f.q, och := f.och, tmo := f.tmo, unit := endOf f, stopped := false } : Timer)
  let ph : Phase := { num := n, opid := opid, decl := img s (b + 4) 4, fabric := fget (img s (b + 3) 1) 0 1 == 1, pref := fget (img s (b + 2) 1) 0 3,
                      args := args, argQ := img s (b + 0x40) 2, units := gs.map (·.unit), ended := [], queues := ws.map fun w => (w.p, w.q), timers := ts,
                      rot := if fget (img s (b + 3) 1) 2 1 = 1 then rots s b else [], admitted := false, enterAt := s.clk.mono, admitAt := 0,
                      slotPref := (0, 0), kAdmit := 7, held := 0, meas := 0, stopping := false, outcome := none }
  upCtx c fun x => { x with phase := some ph }
  wrs [(R.HIF_CTX_STATc.PHNUM c, n), (R.HIF_CTX_STATc.STATE c, CS.RUN)]
  eff (.host fun h => { h with gateQ := h.gateQ ++ [c] })
  refreshPhase c

/-- Bind phase n of the context in slot c for operation `opid` (R60, R191). What it reads from the vault or writes may fail: the operation then ends
DATA_LOSS (R134, R144, R153) before anything is wired (log entry 109). -/
def bindPhase (c n opid : Nat) (args : List (BitVec 64)) : M o Unit := do
  let s ← st
  let x := tget Ctx.init s.host.ctx c
  let b := phOff x.phaseTab n
  let gs := progs s b
  let fail (e : Nat) : M o Unit := failOp opid S.DATA_LOSS e 0
  match ← readSpans (phaseSpans s b) with
  | some e => fail e
  | none => match ← reloadStores x.ranges (gs.map (·.unit) ++ (gs.filter (·.pair)).map fun g => g.unit + 1) with
    | some e => fail e
    | none => match ← loadBlobs gs with
      | some e => fail e
      | none => placePhase c n opid args

end Sys2Proof.Machine
end

