-- ==== Sys2Proof/Machine/PortOps.lean ====
section
/-!
DEFINITION. Bring-up and loss of Fazar ports (R209 to R215).
-/

namespace Sys2Proof.Machine

variable {o : State}

/-- Ports may train: not in MINIMAL, not FENCED, not while re-admission is pending, and the module powered and out of reset (R216, R395). -/
def portsLive (s : State) : Bool :=
  s.ctl.mode != .minimal && s.ctl.mode != .fenced && s.ctl.mode != .off && s.ctl.mode != .inReset && s.rd R.RST_ESC_STAT.READMIT_PEND == 0

/-- The duty port that a spare stands in for: the one whose map entry names the same far location (R209). -/
def substFor (s : State) (r : Nat) : Option Nat :=
  (List.range 34).find? fun n => s.rd (R.FZ_PORT_MAP.USED n) == 1 && s.rd (R.FZ_PORT_MAP.FAR_LOC n) == s.rd (R.FZ_PORT_MAP.FAR_LOC r)

/-- A spare already stands in for the port. -/
def replaced (s : State) (n : Nat) : Bool :=
  [34, 35].any fun r => s.rd (R.FZ_PORT_STAT.SUBST r) == 1 && s.rd (R.FZ_PORT_STAT.FOR r) == n

/-- Report a port check (R211). -/
def portCheck (n reason : Nat) : M o Unit := ev E.FZ_PORT_CHECK SK.fw 0 [I.VALUE n, I.REASON reason]

/-- Send the port's identity frame (R211). -/
def sendIdent (n : Nat) : M o Unit := do
  let s ← st
  send (.linkFrame n LK.IDENT [ownLoc s, n, ownFa s, s.rd R.FZ_SELF.GEN])

/-- A spare port that may carry no traffic: the map does not mark it USED and SUBST (R209). -/
def idleSpare (s : State) (n : Nat) : Bool := decide (34 ≤ n) && !(s.rd (R.FZ_PORT_MAP.USED n) == 1 && s.rd (R.FZ_PORT_MAP.SUBST n) == 1)

/-- Training starts (Table 06-4 step 1). -/
def startTraining (n : Nat) : M o Unit := do
  wr (R.FZ_PORT_FAR.VALID n) 0
  upPort n fun x => { x with starter := false, agreed := false, farPass := none, passed := false }
  setPort n PS.TRAINING PR.NONE

/-- Bring-up of an enabled port (R209, R210). -/
def bringUp (n : Nat) : M o Unit := do
  let s ← st
  if !portsLive s then pure ()
  else if s.rd (R.FZ_PORT_CTL.FORCE_HOLD n) = 1 then setPort n PS.HELD PR.OPERATOR
  else if n < 34 ∧ replaced s n then setPort n PS.DISABLED PR.NONE
  else if 34 ≤ n ∧ s.rd (R.FZ_PORT_MAP.SUBST n) = 1 then
    match substFor s n with
    | none => do
      portCheck n PR.EXTRA
      setPort n PS.HELD PR.EXTRA
    | some d => if s.rd (R.FZ_PORT_MAP.USED n) = 0 then startTraining n else do
      wr (R.FZ_PORT_STAT.SUBST n) 1
      wr (R.FZ_PORT_STAT.FOR n) d
      setPort d PS.DISABLED PR.NONE
      startTraining n
  else startTraining n

/-- A write of EN = 0: the port is DISABLED and a hold ends (R211). A port that a spare stood in for is brought up again when it is enabled
(R209). -/
def disablePort (n : Nat) : M o Unit := do
  let s ← st
  let stood := s.rd (R.FZ_PORT_STAT.SUBST n) = 1
  let d := s.rd (R.FZ_PORT_STAT.FOR n)
  wr (R.FZ_PORT_STAT.SUBST n) 0
  wr (R.FZ_PORT_STAT.FOR n) 0
  wr (R.FZ_PORT_FAR.VALID n) 0
  upPort n fun x => { x with starter := false, agreed := false, farPass := none, passed := false, testDue := false }
  setPort n PS.DISABLED PR.NONE
  when_ (decide (stood ∧ s.rd (R.FZ_PORT_CTL.EN d) = 1)) (bringUp d)

/-- The operator holds or releases the port (FZ_PORT_CTL.FORCE_HOLD). A port that a check or flapping holds keeps that hold, and one that a spare
stands in for stays DISABLED (R209, R211, R214). -/
def holdPort (n : Nat) (v : Bool) : M o Unit := do
  let s ← st
  if v then
    (if !portsLive s || replaced s n || s.rd (R.FZ_PORT_STAT.STATE n) == PS.HELD then pure () else setPort n PS.HELD PR.OPERATOR)
  else if s.rd (R.FZ_PORT_STAT.STATE n) = PS.HELD ∧ s.rd (R.FZ_PORT_STAT.REASON n) = PR.OPERATOR then
    (if s.rd (R.FZ_PORT_CTL.EN n) = 1 then bringUp n else disablePort n)
  else pure ()

/-- The PRBS31 test runs (R215). -/
def runPrbs (n : Nat) : M o Unit := do
  upPort n fun x => { x with agreed := true, farPass := none, passed := false, testDue := false }
  send (.prbs n)

/-- The port enters TEST: the end of the smaller location asks, the other waits or agrees (R215). -/
def enterTest (n : Nat) : M o Unit := do
  let s ← st
  let asked := (tget PortSt.init s.fab.ports n).agreed
  let first := decide (ownLoc s < s.rd (R.FZ_PORT_FAR.LOC n))
  setPort n PS.TEST PR.NONE
  upPort n fun x => { x with starter := first, agreed := false }
  if first then send (.linkFrame n LK.TEST_REQ [])
  else if asked then do
    send (.linkFrame n LK.TEST_ACK [])
    runPrbs n
  else pure ()

/-- A bit-error test is due at this bring-up (Table 06-4 step 5). -/
def testWanted (s : State) (n : Nat) : Bool :=
  let x := tget PortSt.init s.fab.ports n
  s.rd R.FZ_VERIFY_CFG.BER_BOOT == 1 || x.testDue || x.agreed

/-- The identity checks have passed: a due test, else UP (Table 06-4). A test waits for the far end's location, which decides who starts it (R215),
and a spare that carries no traffic stays in IDENT (R209; log entry 113). -/
def afterIdent (n : Nat) : M o Unit := do
  let s ← st
  if idleSpare s n then pure ()
  else if testWanted s n then (if s.rd (R.FZ_PORT_FAR.VALID n) = 1 then enterTest n else pure ())
  else setPort n PS.UP PR.NONE

/-- A test is asked for on a port in service (R215): the end of the smaller location starts it, the other asks it to (log entry 32). -/
def askTest (n : Nat) : M o Unit := do
  let s ← st
  if s.rd (R.FZ_PORT_STAT.STATE n) ≠ PS.UP then pure ()
  else if ownLoc s < s.rd (R.FZ_PORT_FAR.LOC n) then enterTest n
  else do
    upPort n fun x => { x with testDue := true }
    send (.linkFrame n LK.TEST_REQ [])

/-- The test's outcome is known at both ends (R215): UP when both passed; either failure holds the port. -/
def testOutcome (n : Nat) (pass : Bool) : M o Unit := do
  if pass then setPort n PS.UP PR.NONE else do
    portCheck n PR.BER_FAIL
    setPort n PS.HELD PR.BER_FAIL

/-- A loss of the port now is the third within 60 s: it flaps (R214). -/
def thirdDown (s : State) (n : Nat) : Bool :=
  decide (2 ≤ ((tget PortSt.init s.fab.ports n).downs.filter fun t => decide (s.clk.mono < t + 60000000000)).length)

/-- Loss of a port (R212): it goes DOWN with a reason; the third time within 60 s it is HELD as flapping (R214). -/
def losePort (n reason : Nat) : M o Unit := do
  let s ← st
  let v := s.rd (R.FZ_PORT_STAT.STATE n)
  if v = PS.UP ∨ v = PS.TEST then do
    incSat (R.FZ_PORT_STAT.DOWNS n)
    upPort n fun x => { x with downs := (x.downs.filter fun t => decide (s.clk.mono < t + 60000000000)) ++ [s.clk.mono] }
    ev E.FZ_PORT_DOWN SK.hw 0 [I.VALUE n, I.REASON reason]
    setPort n PS.DOWN reason
    when_ (thirdDown s n) (setPort n PS.HELD PR.FLAP)
  else if v = PS.IDENT then startTraining n
  else pure ()

/-- Add to a port counter that stops at all ones. -/
def addSat (f : Fld) (n : Nat) : M o Unit := do wr f (min (2 ^ f.w - 1) ((← rd f) + n))

/-- Errors that a lane may show in a test: 1e-6 of the bits checked at 212.5 Gb/s (R215). -/
def berLimit (s : State) : Nat := 212500 * max 1 (s.rd R.FZ_VERIFY_CFG.BER_SECONDS)

end Sys2Proof.Machine
end

