-- ==== Sys2Proof/Machine/RecOps.lean ====
section
/-!
DEFINITION. Recorder pages (R429, R431, R432), what the superblock keeps (R156, R159), the loss of power (R156, R262, R341) and the hot-swap
controller's switch-off and last-cause latch (R314, R319).
-/

namespace Sys2Proof.Machine

variable {o : State}

/-- Module address of byte 0 of EVTREC (Table 04-12). -/
def evtBase : Nat := vaultBase + 0x140000000

/-- A page as it stands: its records and a tail of 0xFF (R425). -/
def pageImage (b : List Byte) : List Byte := b ++ List.replicate (4096 - b.length) 0xFF

/-- SEQ of the last record of a page. -/
def pageLast : Nat → List Byte → Nat → Nat
  | 0, _, d => d
  | n + 1, b, d => if b.length < 24 then d else pageLast n (b.drop (24 + (b.getD 6 0).toNat)) (leNat (b.take 4))

/-- The oldest staging page is written into the region, charged to the wear budget, or refused (R429, R157, R158); in a
brownout hold it waits (R156). -/
def writePage : M o Bool := do
  let s ← st
  match s.rcd.stage with
  | [] => return false
  | p :: rest =>
    if !s.ctl.doneTrain then return false
    else if s.vlt.held then return false
    else if !(← wearTake 4096 false) then do
      incSat R.MEM_VLT_STAT.EVT_REFUSED
      return false
    else do
      pageWrite (evtBase + 4096 * p.idx) (pageImage p.bytes)
      eff (.super fun x => { x with
        pages := max x.pages (p.idx + 1), firstSeq := if p.idx = 0 then leNat (p.bytes.take 4) else x.firstSeq
        lastSeq := some (pageLast 170 p.bytes 0) })
      eff (.rcd fun r => { r with stage := rest })
      return true

/-- The wear counter and the units written of a mounted vault go into the superblock (R159). -/
def saveSuper : M o Unit := do
  let s ← st
  when_ s.ctl.doneTrain (eff (.super fun x => { x with wear := s.vlt.wear, written := s.vlt.written }))

/-- The hold-up commit (R156): the journal tail is written, then recorder staging pages while energy remains; how many fit is open. HOLDUP_DONE tells
that no staged record was lost (R431). -/
def holdUp : M o Unit := do
  eff (.vlt fun v => { v with held := false })
  commitJournal
  let n ← freeBits 9
  closePage
  loop n writePage
  saveSuper
  let left := (← st).rcd.stage
  eff (.super fun x => { x with holdupDone := left.isEmpty })

/-- Every volatile part is lost; the module is unpowered, or without VCTL, until its input is good (R262, R341). -/
def losePower : M o Unit := do
  when_ (!(← st).hs.rails.isEmpty) holdUp
  eff .por
  eff (.ctl fun c => { c with mode := .off })
  eff (.hs fun h => { h with rails := [] })

/-! The last-cause latch. -/

/-- Place of a cause in the order of R319. -/
def causeRank (c : Nat) : Nat := [4, 3, 5, 6, 2, 1, 7].findIdx (· = c)

/-- Write the latch with a new sequence number. -/
def latchWrite (cause detail : Nat) : M o Unit :=
  eff (.latch fun l => ⟨cause, detail % 256, (l.seq + 1) % 256⟩)

/-- The hot-swap controller switches off (Table 08-4, R319): the latch is written and the hold-up commit follows. Of two causes within 1 us the first
in R319's order stands. -/
def switchOff (cause detail : Nat) (latched : Bool) : M o Unit := do
  let s ← st
  if s.hs.on then do
    (if cause = 1 ∧ s.hs.porSeen ∧ s.nv.latch.cause = 1 then eff (.latch fun l => { l with detail := 0 }) else latchWrite cause detail)
    losePower
    eff (.hs fun h => { h with on := false, latched := h.latched || latched, porSeen := false })
    mark K.hsOff
  else if s.clk.mono ≤ tget 0 s.clk.seen K.hsOff + 1000 ∧ causeRank cause < causeRank s.nv.latch.cause then do
    eff (.latch fun l => { l with cause := cause, detail := detail % 256 })
    eff (.hs fun h => { h with latched := h.latched || latched })
  else pure ()

/-- The module leaves HOLD when neither hold flag is set, to the state it left (R204, R259, R263); the timers of its phases resume (R195). -/
def leaveHold : M o Unit := do
  let s ← st
  (if s.ctl.mode = .hold ∧ s.rd R.PWR_STAT.HOLD_BROWN = 0 ∧ s.rd R.PWR_STAT.HOLD_OPER = 0 then do
    setMode s.ctl.ret
    each (running s) fun c => upPhase c fun x => { x with held := x.held + (s.clk.mono - max x.admitAt (tget 0 s.clk.seen K.holdAt)) }
    drainDone
  else pure ())
  forcedOff

end Sys2Proof.Machine
end

