-- ==== Sys2Proof/Machine/StreamOps.lean ====
section
/-!
DEFINITION. Streams at the source and the destination NI (R230 to R232), slots on their way to another partition or module (R66, R451) and
the credits that come back (R66, R233, R245).
-/

namespace Sys2Proof.Machine

variable {o : State}

/-! STREAM subtypes (Table 06-7). -/
abbrev SB.OPEN := 0
abbrev SB.GRANT := 1
abbrev SB.BUSY := 2
abbrev SB.CLOSE := 3
abbrev SB.ACK := 4

/-- A STREAM packet (R231). -/
def streamPkt (dst och dpart nonce sub ack : Nat) : Pkt := mkPkt 8 dst och dpart 0 0 (nonce * 2 ^ 48 + sub * 2 ^ 44 + ack % 65536) []

/-! Source. -/

/-- The stream toward a module on a channel. -/
def findOut (s : State) (dst och : Nat) : Option StrOut := s.fab.outs.find? fun x => x.dst == dst && x.och == och

/-- Change a source stream. -/
def upOut (dst och : Nat) (f : StrOut → StrOut) : M o Unit :=
  eff (.fab fun b => { b with outs := b.outs.map fun x => if x.dst = dst ∧ x.och = och then f x else x })

/-- Send the stream's waiting packets while it is granted and fewer than 256 are unacknowledged (R230, R231). -/
def pumpStream (dst och : Nat) : M o Unit := do
  loop 65536 do
    let s ← st
    match findOut s dst och with
    | none => return false
    | some x => match x.waiting with
      | [] => return false
      | k :: r =>
        if x.st = 1 ∧ x.next < x.acked + 256 then do
          queuePkt (setH1 48 16 x.next (setH2 48 16 x.nonce k))
          upOut dst och fun x => { x with waiting := r, next := x.next + 1, last := s.clk.mono }
          return true
        else return false

/-- A QSLOT packet for a stream: the stream is opened first (R231). -/
def streamSend (dst och dpart : Nat) (k : Pkt) : M o Unit := do
  let s ← st
  match findOut s dst och with
  | some _ => do
    upOut dst och fun x => { x with waiting := x.waiting ++ [k] }
    pumpStream dst och
  | none => do
    let n ← freeBits 16
    eff (.fab fun b => { b with outs := b.outs ++ [⟨dst, och, n, 0, 0, 0, [k], s.clk.mono⟩] })
    queuePkt (streamPkt dst och dpart n SB.OPEN 0)

/-- Close a source stream. -/
def closeOut (dst och : Nat) : M o Unit := do
  match findOut (← st) dst och with
  | none => pure ()
  | some x => do
    queuePkt (streamPkt dst och 0 x.nonce SB.CLOSE 0)
    eff (.fab fun b => { b with outs := b.outs.filter fun y => !(y.dst == dst && y.och == och) })

/-! Destination. -/

/-- The reorder context of a stream from a module on a channel. -/
def findIn (s : State) (src och : Nat) : Option StrIn := s.fab.ins.find? fun x => x.src == src && x.och == och

/-- Change a reorder context. -/
def upIn (src och : Nat) (f : StrIn → StrIn) : M o Unit :=
  eff (.fab fun b => { b with ins := b.ins.map fun x => if x.src = src ∧ x.och = och then f x else x })

/-- Contexts that an NI holds. -/
def inUse (s : State) (p : Nat) : Nat := (s.fab.ins.filter fun x => x.part == p).length

/-- FZ_STREAMp.IN_USE follows. -/
def refreshInUse : M o Unit := do
  let s ← st
  each (List.range 8) fun p => wr (R.FZ_STREAMp.IN_USE p) (inUse s p)

/-- Free a reorder context. -/
def freeIn (src och : Nat) : M o Unit := do
  eff (.fab fun b => { b with ins := b.ins.filter fun x => !(x.src == src && x.och == och) })
  refreshInUse

/-- Answer a stream's source with an ACK of the highest SEQ published. -/
def sendAck (x : StrIn) : M o Unit := do
  queuePkt (streamPkt x.src x.och 0 x.nonce SB.ACK (x.next + 65535))
  upIn x.src x.och fun x => { x with unack := 0 }

/-- Publish every packet whose predecessors have been published (R232), and acknowledge after 64 (R231). -/
def publishStream (src och : Nat) : M o Unit := do
  loop 257 do
    match findIn (← st) src och with
    | none => return false
    | some x => match x.got.find? fun g => g.1 == x.next with
      | none => return false
      | some g => do
        let t ← now
        upIn src och fun x => { x with
          got := x.got.filter fun h => h.1 != g.1
          next := (x.next + 1) % 65536
          unackAt := if x.unack = 0 then t else x.unackAt
          unack := x.unack + 1 }
        ringPublish x.part g.2.1 g.2.2
        return true
  match findIn (← st) src och with
  | none => pure ()
  | some x => if 64 ≤ x.unack then sendAck x else pure ()

/-! Credits. -/

/-- Credits come back to a producer's end. -/
def addCredit (p q n : Nat) : M o Unit := do
  if (← rd (R.PART_Q_CFG.VALID p q)) = 1 then do
    wr (R.PART_Q_CREDIT.CREDIT p q) ((← rd (R.PART_Q_CREDIT.CREDIT p q)) + n)
    wakeQ p q
    refreshEnds p q
    kickQ p q
  else pure ()

/-- Credits that a member of a group has returned in all. -/
def gcredOf (s : State) (g m : Nat) : Nat := (s.fab.gcred.find? fun x => x.1 == g && x.2.1 == m).elim 0 (·.2.2)

/-- Set a member's total. -/
def setGcred (g m v : Nat) : M o Unit :=
  eff (.fab fun f => { f with gcred := (f.gcred.filter fun x => !(x.1 == g && x.2.1 == m)) ++ [(g, m, v)] })

/-- Least of a list; 0 for none. -/
def leastOf : List Nat → Nat
  | [] => 0
  | [a] => a
  | a :: t => min a (leastOf t)

/-- Key of the queue of a group that the producer's partition and queue name. -/
def grpQueue (g fp fq : Nat) : Nat := g * 8192 + fp * 1024 + fq

/-- Credits of a group's queue rise through the tree (R245), by the group entry of bank `e`: the least total of this member, when LOCAL, and of its children goes on to
the parent, or at the root to the producer (fp, fq). Address 0 keeps the total passed on. -/
def groupCredit (e g fp fq m n : Nat) : M o Unit := do
  let key := grpQueue g fp fq
  setGcred key m (gcredOf (← st) key m + n)
  let s ← st
  let x := dirEnt s e g
  let parts := (if fget x 61 1 = 1 then [ownFa s] else []) ++ treeKids s e x
  let least := leastOf (parts.map (gcredOf s key))
  let passed := gcredOf s key 0
  if passed < least then do
    setGcred key 0 least
    if fget x 35 20 = 0 then addCredit fp fq (least - passed)
    else queuePkt (mkPkt 2 (fget x 35 20) 0 0 0 0 (fp * 2 ^ 26 + fq * 2 ^ 16 + (least - passed)) [])
  else pure ()

/-- The producer's end of a queue that leaves the partition (R451): its producer is a unit here and its consumer is not. -/
def isStaging (s : State) (p q : Nat) : Bool :=
  let pr := s.rd (R.PART_Q_ENDS.PROD p q)
  let co := s.rd (R.PART_Q_ENDS.CONS p q)
  s.rd (R.PART_Q_CFG.VALID p q) == 1 && s.rd (R.PART_Q_CFG.REMOTE p q) == 1 && uPart pr == p && decide (uKind pr ≤ 2) &&
    !(uPart co == p && decide (uKind co ≤ 2))

end Sys2Proof.Machine
end

