-- ==== Sys2Proof/Machine/RungOps.lean ====
section
/-!
DEFINITION. The recovery rungs: what each asks to go idle and what it resets (R340 to R346, R372, R373, R93 to R95, R122, R151), the topiary map
(R355 to R357) and the counting of the escalation ladder (R384, R385).
-/

namespace Sys2Proof.Machine

variable {o : State}

/-- Code of RST_CAUSE.SOURCE. -/
def whyCode : ResetWhy → Nat
  | .mrst => 1
  | .watchdog => 2
  | .lockstep => 3
  | .host => 4
  | .worA | .worB => 5
  | .escalation => 6
  | .failedStart => 7

/-- SRCKIND of the requester (Table 11-10). -/
def whyKind : ResetWhy → Nat
  | .mrst | .watchdog | .lockstep => SK.hw
  | .host => 1
  | .worA => 2
  | .worB => 3
  | .escalation | .failedStart => SK.fw

/-- The RESET event (R340): source, depth, domain, and whether it was idle, FORCED or merged (log entries 20 and 30). -/
def resetEvent (depth dom src kind res : Nat) : M o Unit := ev E.RESET kind 0 [I.REASON src, I.VALUE depth, I.VALUE dom, I.REASON (Config.eventCode (64 + res))]

/-! Rungs in progress (R343, R346). -/

def moduleBusy (s : State) : Bool := s.ctl.rungs.any fun r => r.depth == 4
def partBusy (s : State) (p : Nat) : Bool := s.ctl.rungs.any fun r => r.depth == 3 && r.pmask == 2 ^ p
def engBusy (s : State) (p : Nat) : Bool := s.ctl.rungs.any fun r => r.depth == 2 && r.pmask == 2 ^ p

/-- The rung in progress of a depth in partition p (the module rung has mask 0). -/
def rungOf (s : State) (depth mask : Nat) : Option Rung := s.ctl.rungs.find? fun r => r.depth == depth && r.pmask == mask

/-- A rung begins: stage 1 of R343. -/
def addRung (depth mask src kind p : Nat) : M o Unit := do
  eff (.ctl fun c => { c with rungs := c.rungs ++ [⟨depth, mask, 1, false, src, kind⟩] })
  when_ (decide (3 ≤ depth)) scrubStop
  mark (K.rung depth p)

/-- A rung ends. -/
def endRung (depth mask : Nat) : M o Unit :=
  eff (.ctl fun c => { c with rungs := c.rungs.filter fun r => !(r.depth == depth && r.pmask == mask) })

/-- IDLE_T in ns: values below 10 us act as 10, above 10,000 as 10,000 (R343). -/
def idleT (s : State) : Nat := 1000 * min 10000 (max 10 (s.rd R.RST_CFG.IDLE_T))

/-! The context rung (Table 09-14). -/

/-- The context rung acts on a slot: its running phase stops and ends ABORTED, RESET. A deeper rung in progress over it takes it in (R346). -/
def contextRung (slot src kind : Nat) : M o Unit := do
  let s ← st
  let m := (tget Ctx.init s.host.ctx slot).pmask
  if moduleBusy s ∨ (List.range 8).any fun p => partBusy s p && decide (fget m p 1 = 1) then resetEvent 1 slot src kind 2
  else if serving s then do
    resetEvent 1 slot src kind 0
    lockPhase slot S.ABORTED D.RESET 0 0
  else pure ()

/-! The engine rung (R93 to R95, R122). -/

/-- A unit that an engine reset takes: an array of the 24, a core of the 48 or a streamer of the 16. -/
def engUnit (u : Nat) : Bool :=
  decide (uIdx u < (if uKind u = 0 then 24 else if uKind u = 1 then 48 else if uKind u = 2 then 16 else 0))

/-- The name of a unit: a pair has its even array's (R59). -/
def evenOf (s : State) (u : Nat) : Nat :=
  if uKind u = 0 ∧ s.rd (R.PART_ARR_STAT.PAIR (uPart u) (uIdx u)) = 2 then u - 1 else u

/-- An engine reset asks its unit to go idle (R93): BUSY is set and an operation that runs on the unit ends ABORTED, RESET. Answers whether the
request was taken: not while one is BUSY, nor inside a deeper rung (R346). -/
def askEngine (u0 src kind : Nat) : M o Bool := do
  let s ← st
  let u := evenOf s u0
  let p := uPart u
  if !engUnit u || s.rd (R.PART_ENG_RST_STAT.BUSY p) == 1 || partBusy s p || moduleBusy s then return false
  else do
    wrs [(R.PART_ENG_RST_STAT.BUSY p, 1), (R.PART_ENG_RST_STAT.UNIT p, u)]
    addRung 2 (2 ^ p) src kind p
    match unitCtx s u with
    | some c => lockReset c u
    | none => pure ()
    return true

/-- A range is left invalid: what its bytes read as is open until they are written (log entry 14). -/
def makeStale (a n : Nat) : M o Unit := do
  let e := (← st).clk.free
  eff .draw
  eff (.mem fun m => { m with stale := staleSub a n m.stale ++ [(a, n, e)] })

/-- The state of one array is cleared (R95). -/
def clearArr (p n : Nat) : M o Unit := do
  slopeStop (24 * p + n)
  upArr p n fun a => { a with
    b0 := 0, b1 := 0, l0 := 0, l1 := 0, seed := 0, cbFmt := none, cbEnt := [], bank0 := Acc.free, bank1 := Acc.free, obank0 := Acc.free,
    obank1 := Acc.free, tiles := [], outBuf := [], fills := 0 }
  wrs [(R.PART_ARR_STAT.PC p n, 0), (R.PART_ARR_STAT.STATE p n, US.INVALID)]
  makeStale (storeBase p n) 0x200000

/-- The state of a general core is cleared (R122). -/
def clearCore (p g : Nat) : M o Unit := do
  wrs [(R.PART_CORE_STAT.PC p g, 0), (R.PART_CORE_STAT.INH p g, 0), (R.PART_CORE_STAT.ICAUSE p g, 0), (R.PART_CORE_STAT.STATE p g, US.INVALID)]
  each (List.range 4) fun m =>
    wrs [(R.PART_CORE_IPENDm.PEND p g m, 0), (R.PART_CORE_IMASKm.MASK p g m, 0xFFFFFFFF), (R.PART_CORE_MBOXn.VALUE p g m, 0)]
  upCore p g fun c => { c with
    x := [], v := [], epc := 0, ie := false, tcmp0 := 0, tcmp1 := 0, arm0 := false, arm1 := false, fired0 := false, fired1 := false,
    popped := [], acquired := [], qev := [], shield := false }
  makeStale (locBase p g) 0x40000
  refreshCore p g

/-- Stage 3 of an engine reset (R93 to R95, Table 02-13). -/
def engineStage3 (p : Nat) (forced : Bool) : M o Unit := do
  let s ← st
  let u := s.rd (R.PART_ENG_RST_STAT.UNIT p)
  let i := uIdx u
  let f := if forced then 1 else 0
  (if uKind u = 0 then do
    clearArr p i
    when_ (decide (s.rd (R.PART_ARR_STAT.PAIR p i) = 1)) (clearArr p (i + 1))
  else if uKind u = 1 then clearCore p i
  else do
    upStr p i fun x => { x with run := StrRun.init }
    wr (R.PART_STR_STAT.STATE p i) US.INVALID)
  wrs [(R.PART_ENG_RST_STAT.BUSY p, 0), (R.PART_ENG_RST_STAT.FORCED p, f), (R.PART_ENG_RST_STAT.DONE p, 1)]
  ev E.ENGINE_RESET SK.unit u [I.UNIT u, I.PHYS (physOf s u), I.VALUE f]
  when_ forced (noteFault 5 (p * 8192))
  (match unitCtx s u with
  | some c => do
    noteEnded c u
    refreshPhase c
  | none => pure ())
  match rungOf s 2 (2 ^ p) with
  | some r => when_ (decide (r.source ≠ 0)) (resetEvent 2 u r.source r.kind f)
  | none => pure ()
  endRung 2 (2 ^ p)
  refreshThrottle

/-! The topiary map (R355 to R357). -/

/-- Numbers below n that the list does not hold. -/
def goodOf (n : Nat) (bad : List Nat) : List Nat := (List.range n).filter fun i => !bad.contains i

/-- A list of numbers as a bit mask. -/
def maskOf (l : List Nat) : Nat := l.foldl (fun m i => m ||| 2 ^ i) 0

/-- The members of a list that belong to partition p, n units to a partition. -/
def ofPart (n p : Nat) (l : List Nat) : List Nat := (goodOf n []).filter fun i => l.contains (n * p + i)

/-- Disagreements of fuses and self-test over the units of one kind, one event each: FUSE_ONLY or TEST_ONLY (R355; log entries 20 and 30). -/
def disagree (p kind n : Nat) (fuse : Nat) (bad : List Nat) : M o Unit :=
  each (List.range n) fun i =>
    let f := fget fuse i 1 == 1
    if f = bad.contains i then pure ()
    else ev E.TOPIARY_DISAGREE SK.fw 0 [I.VALUE p, I.PHYS (uidOf p kind i), I.REASON (Config.eventCode (if f then 81 else 82))]

/-- First cause for which a partition is unavailable (R357): PART_TOP_STAT.CAUSE, 0 for none. -/
def topCause (nArr nCore nStr : Nat) (pool chan : Bool) : Nat :=
  if 2 < nArr then 1 else if 4 < nCore then 2 else if 0 < nStr then 3 else if pool then 4 else if chan then 5 else 0

/-- A memory channel of the partition has failed (R357). -/
def chanBad (s : State) (p : Nat) (t : TestEnv) : Bool :=
  t.t0.any (fun c => c / 16 == p) || t.t1.any (fun c => c / 4 == p) || (List.range 4).any fun c => s.rd (R.MEM_T1_RECAL_c.FAILED (4 * p + c)) == 1

/-- Bit p of RST_PART_AVAIL. -/
def setAvail (p : Nat) (b : Bool) : M o Unit := do
  let a ← rd R.RST_PART_AVAIL.AVAIL
  wr R.RST_PART_AVAIL.AVAIL (fset a p 1 (if b then 1 else 0))

/-- FAULT_N's condition of a partition unavailable or withheld (R4, R324). -/
def refreshPartFault : M o Unit := do
  let s ← st
  faultCond R.RST_FAULT.PART_UNAVAIL ((List.range 8).any (unavail s))

/-- The self-test's outcome and the map of partition p (R354 to R357); `keep`: the partition stays unavailable whatever the outcome (R373, R385).
Answers whether it is presented. -/
def buildTopiary (p : Nat) (t : TestEnv) (keep : Bool) : M o Bool := do
  let s ← st
  let z := s.nv.fuses
  let tA := ofPart 26 p t.arr
  let tC := ofPart 52 p t.core
  let tS := ofPart 16 p t.str
  let badA := (List.range 26).filter fun i => fget (z.badArr.getD p 0) i 1 == 1 || tA.contains i
  let badC := (List.range 52).filter fun i => fget (z.badCore.getD p 0) i 1 == 1 || tC.contains i
  let badS := (List.range 16).filter fun i => fget (z.badStr.getD p 0) i 1 == 1 || tS.contains i
  disagree p 0 26 (z.badArr.getD p 0) tA
  disagree p 1 52 (z.badCore.getD p 0) tC
  disagree p 2 16 (z.badStr.getD p 0) tS
  let ga := goodOf 26 badA
  let gc := goodOf 52 badC
  let cause := topCause badA.length badC.length badS.length (t.pool.contains p) (chanBad s p t)
  let ok := decide (cause = 0) && !keep
  wrs [(R.PART_TOP_BAD_ARR.BAD p, maskOf badA), (R.PART_TOP_FUSE_ARR.BAD p, z.badArr.getD p 0),
    (R.PART_TOP_BAD_CORE_LO.BAD p, maskOf badC % 2 ^ 32), (R.PART_TOP_BAD_CORE_HI.BAD p, maskOf badC / 2 ^ 32),
    (R.PART_TOP_BAD_STR.BAD p, maskOf badS), (R.PART_TOP_STAT.ARR_BAD p, min 15 badA.length),
    (R.PART_TOP_STAT.CORE_BAD p, min 63 badC.length), (R.PART_TOP_STAT.STR_BAD p, badS.length),
    (R.PART_TOP_STAT.AVAIL p, if ok then 1 else 0), (R.PART_TOP_STAT.UNAVAIL p, if ok then 0 else 1)]
  (if ok then do
    wrs [(R.PART_TOP_STAT.CAUSE p, 0), (R.PART_TOP_STAT.ARR_SPARE p, ga.length - 24), (R.PART_TOP_STAT.CORE_SPARE p, min 3 (gc.length - 48))]
    each (List.range 24) fun n => wrs [(R.PART_TOP_ARRn.VALID p n, 1), (R.PART_TOP_ARRn.PHYS p n, ga.getD n 0)]
    each (List.range 48) fun g => wrs [(R.PART_TOP_COREg.VALID p g, 1), (R.PART_TOP_COREg.PHYS p g, gc.getD g 0)]
  else when_ (decide (cause ≠ 0 ∧ s.rd (R.PART_TOP_STAT.UNAVAIL p) = 0)) (do
    wr (R.PART_TOP_STAT.CAUSE p) cause
    ev E.PART_UNAVAILABLE SK.fw 0 [I.VALUE p, I.REASON cause]))
  setAvail p ok
  refreshPartFault
  return ok

/-- Tier-1 channels that fail their training or check are failed (Table 09-5). -/
def failChannels (l : List Nat) : M o Unit :=
  each (l.filter (· < 32)) fun c => do
    setF (R.MEM_T1_RECAL_c.FAILED c)
    setF R.MEM_STAT.T1_CH_FAIL
    faultCond R.RST_FAULT.T1_CH true

/-- One TRAIN_REJECT event for each item whose saved values failed their check (R352). -/
def trainRejects (l : List Nat) : M o Unit := each l fun _ => ev E.TRAIN_REJECT SK.fw 0 []

/-- Change the saved training record and its copy (R353, Table 09-6). -/
def upTraining (f : Option Training → Option Training) : M o Unit := do
  eff (.nor fun n => { n with training := f n.training })
  eff (.settings fun x => { x with training := f x.training })

/-- Items that are trained at a start: the tier-1 channels, and the Fazar ports that are enabled (Table 09-5). -/
def trainItems (s : State) : List Nat :=
  List.range 32 ++ ((List.range 36).filter fun n => s.rd (R.FZ_PORT_CTL.EN n) == 1).map (32 + ·)

/-- The saved value of an item is valid (Table 09-6): the record is this package's, in a format that the running firmware reads and younger than
180 days of operating time; a tier-1 channel's package is the one it was trained on; the item did not fail at either of the two preceding starts. -/
def savedValid (s : State) (devs : List Nat) (t : Training) (i : Nat) : Bool :=
  t.serial == s.nv.fuses.serial && s.nv.settings.fmts.contains s.ctl.fw.fmt && decide (opsec s < t.written + 15552000)
    && (decide (32 ≤ i) || t.devs.getD i 0 == devs.getD i 0) && !t.fail1.contains i && !t.fail2.contains i

/-! The partition rung (Table 09-15). -/

/-- BAR0 offset of the window of partition p. -/
def partWin (p : Nat) : Nat := 0x1000000 + 0x100000 * p

/-- Stage 3 of a partition reset: its logic, its units and its SRAM; tier 0 and tier 1 too when forced (R343, R151, Table 04-11). Contexts that
use it are marked LOST (R151, R188). A partition that is unavailable stays so (R373). -/
def partitionStage3 (p src kind : Nat) (forced : Bool) : M o Unit := do
  let s ← st
  let stays := unavail s p
  resetEvent 3 (2 ^ p) src kind (if forced then 1 else 0)
  eff (.ctl fun c => { c with rungs := (c.rungs.filter fun r => !(r.pmask == 2 ^ p)) ++ [⟨3, 2 ^ p, 3, forced, src, kind⟩] })
  setAvail p false
  eff (.regsReset fun k ix =>
    decide (partWin p ≤ regOff k ix) && decide (regOff k ix < partWin p + 0x100000) && !(stays && decide (k = .PART_TOP_STAT)))
  eff (.unitsReset p)
  eff (.pw fun w => { w with
    withheld := w.withheld.filter (·.1 ≠ p), rotReq := w.rotReq.filter (uPart · ≠ p)
    grant0 := w.grant0.filter (·.1 / 24 ≠ p), grant1 := w.grant1.filter (·.1 / 24 ≠ p) })
  eff (.fab fun f => { f with ins := f.ins.filter (·.part ≠ p) })
  refreshInUse
  eff (.wipe (poolBase p) (poolBase p + 0x4000000))
  eff (.wipe (storeBase p 0) (storeBase p 0 + 0x4000000))
  eff (.wipe (locBase p 0) (locBase p 0 + 0x1000000))
  when_ forced (do
    eff (.wipe (p * 0x180000000) ((p + 1) * 0x180000000))
    eff (.wipe (0x10000000000 + p * 0x2000000000) (0x10000000000 + (p + 1) * 0x2000000000)))
  eff (.watch fun w => { w with faults := w.faults.filter fun x => uPart x.2 ≠ p })
  ev E.MEM_CONTENT_LOST SK.fw 0 [I.VALUE p]
  each (List.range 64) fun c =>
    if s.rd (R.HIF_CTX_STATc.STATE c) ≠ CS.UNBOUND ∧ fget (tget Ctx.init s.host.ctx c).pmask p 1 = 1 then setF (R.HIF_CTX_STATc.LOST c)
    else pure ()
  refreshThrottle

/-- A partition rung is asked for (Table 09-15 step 1): operations of its contexts lock ABORTED, RESET. A rung in progress takes it in; over an
engine rung it starts from stage 3, without idle (R346). -/
def askPartition (p src kind : Nat) : M o Unit := do
  let s ← st
  if moduleBusy s || partBusy s p then resetEvent 3 (2 ^ p) src kind 2
  else if serving s || s.ctl.mode == .fenced then do
    each (s.host.ops.filter fun x => ctxOrdered x && decide (fget (tget Ctx.init s.host.ctx x.slot).pmask p 1 = 1)) fun x => endOp x D.RESET
    if engBusy s p then partitionStage3 p src kind true
    else addRung 3 (2 ^ p) src kind p
  else pure ()

/-- A partition rung on each partition of a mask. -/
def askPartitions (pmask src kind : Nat) : M o Unit := each ((List.range 8).filter fun p => fget pmask p 1 == 1) fun p => askPartition p src kind

/-- Ranges of the plan image in the active slot: every range entry of its table (R169). -/
def planRanges (s : State) : List (Nat × Nat × Nat × Nat) := if activeVerified s then ctxRanges s 0 (img s 0x38 4) else []

/-- A range [a, a + n) meets what a reset of partition p has lost: its SRAM, and with `dram` its tier 0 and tier 1 (Table 04-11). -/
def meetsPart (p : Nat) (dram : Bool) (a n : Nat) : Bool :=
  let hit (lo len : Nat) : Bool := decide (a < lo + len) && decide (lo < a + n)
  hit (poolBase p) 0x4000000 || hit (storeBase p 0) 0x4000000 || hit (locBase p 0) 0x1000000
    || (dram && (hit (p * 0x180000000) 0x180000000 || hit (0x10000000000 + p * 0x2000000000) 0x2000000000))

/-- Image-backed ranges that a partition's reset lost have not landed any more; they are loaded again (R151), and one whose load fails is left to the
next binding that needs it (R162). STORE ranges wait for their binding. -/
def reloadPart (p : Nat) (dram : Bool) : M o Unit := do
  let s ← st
  eff (.mem fun m => { m with landed := m.landed.filter fun r => !meetsPart p dram r.1 r.2 })
  each ((planRanges s).filter fun r => meetsPart p dram r.2.1 r.2.2.1 && !isStore r && hasLanded s r) fun r => do
    let _ ← loadRange r

/-- Every partition withheld or unavailable asks for a coppice (R385). -/
def coppiceCheck : M o Unit := do
  let s ← st
  when_ ((List.range 8).all fun p => unavail s p || fget (s.rd R.RST_ESC_STAT.PART_HELD) p 1 == 1) (setF R.RST_ESC_STAT.COPPICE_REQ)

/-- Steps 4 to 6 of Table 09-15: the partition is tested, mapped and presented, or left unavailable (R372, R373, R385). -/
def partitionDone (p : Nat) (t : TestEnv) (forced : Bool) : M o Unit := do
  let s ← st
  let keep := unavail s p || fget (s.rd R.RST_ESC_STAT.PART_HELD) p 1 == 1
  let bad := t.rejects.filter fun c => decide (c < 32) && c / 4 == p
  trainRejects bad
  upTraining fun x => x.map fun r => { r with fail1 := r.fail1 ++ bad.filter fun i => !r.fail1.contains i }
  failChannels (t.t1.filter fun c => c / 4 == p)
  let ok ← buildTopiary p t keep
  endRung 3 (2 ^ p)
  when_ ok (reloadPart p forced)
  coppiceCheck

/-! The module rung (Table 09-4). -/

/-- Registers that a module reset keeps: those of Table 12-7, the latch's and the region's, which it leaves as they are, the pins, and the
reference to which the PLL stays locked (R341, R447). -/
def keptRegs : List RegKind :=
  [.RST_CAUSE, .RST_ESC_STAT, .RST_ESC_LAST, .RST_LEASE, .RST_LASTOFF, .RST_PIN_STAT, .RST_REFCLK, .EVT_STATUS, .EVT_FIRST_SEQ, .EVT_LAST_SEQ,
    .EVT_CLEARS]

/-- HIF_BOOT_STATUS shows the failed-start record (R368, R369). -/
def showRecord : M o Unit := do
  let n := (← st).nv.nor
  wrs [(R.HIF_BOOT_STATUS.FAILS, n.fails), (R.HIF_BOOT_STATUS.REASON, n.reason), (R.HIF_BOOT_STATUS.LAST_STEP, n.lastStep)]

/-- The module was in MINIMAL when its reset was asked for; its failed-start record is left unchanged (R371). -/
def fromMinimal (s : State) : Bool := s.ctl.mode == .minimal || (s.ctl.mode == .inReset && s.ctl.ret == .minimal)

/-- The part whose spare rows replace the row of a 256-byte unit: a tier-0 stack or a tier-1 channel; SRAM has none (R141). -/
def sparePart (s : State) (key : Nat) : Option Nat :=
  match regionOf s key with
  | .tier0 p => some p
  | .tier1 _ => some (64 + channel1 key)
  | _ => none

/-- A module reset repairs the listed rows while spares remain; a list that exceeds them is recorded and its rows stay in use (R141; log
entry 119). -/
def repairRows : M o Unit := do
  let s ← st
  let want := s.mem.hotRows.filter fun k => (sparePart s k).isSome && !s.nv.nor.repaired.contains k
  let done := want.foldl (fun l k =>
    let c := sparePart s k
    if (l.filter fun j => sparePart s j == c).length < Config.spareRows (c.getD 0) then l ++ [k] else l) s.nv.nor.repaired
  eff (.nor fun n => { n with repaired := done })
  let left := want.filter fun k => !done.contains k
  when_ (!left.isEmpty) (ev E.MEM_CE_HOT SK.fw 0 [I.ADDR (left.headD 0), I.COUNT left.length])

/-- Stage 3 of a module reset (R341, R345, R447): the journal commits and everything but what R341 names clears. The start that follows stands at
step 2, or at option loading when that was interrupted (R346); a module whose MRST_N is low stays in reset (R322). -/
def moduleStage3 (src kind : Nat) (forced : Bool) : M o Unit := do
  let s ← st
  let loading := s.ctl.mode == .start && s.rd R.HIF_BOOT_STATUS.STAGE == 6 && !s.ctl.failed
  let pend := s.rd R.RST_ESC_STAT.READMIT_PEND
  let clkMode := s.rd R.RST_STRAP.CLK_MODE
  saveSuper
  commitJournal
  repairRows
  each [1, 2, 3, 4, 6] flushMerge
  resetEvent 4 0xFF src kind (if forced then 1 else 0)
  wrs [(R.RST_CAUSE.VALID, 1), (R.RST_CAUSE.SOURCE, src)]
  incSat R.RST_CAUSE.COUNT
  eff (.nor fun n => { n with counted := !fromMinimal s && (src == 2 || src == 3 || (src == 7 && n.counted)) })
  eff (.regsReset fun k _ => !keptRegs.contains k)
  eff (.wipe 0 vaultBase)
  each (List.range 8) fun p => eff (.unitsReset p)
  each (List.range 36) fun n => send (.portIdle n)
  eff (.mem fun m => { Mem.init with badPages := m.badPages })
  eff (.vlt fun v => { Vault.init with wear := v.wear, written := v.written })
  eff (.host fun _ => HostIf.init)
  eff (.fab fun _ => Fab.init)
  eff (.pw fun _ => Power.init)
  eff (.watch fun w => { Watch.init with counts := w.counts })
  eff (.rcd fun r => { r with tokens := [], cfg := [], drops := [], merge := [] })
  eff (.upd fun _ => Upd.init)
  eff (.qs fun _ => Qs.init)
  eff (.sec fun _ => Sec.init)
  eff (.setTime 0)
  wrs [(R.RST_ESC_STAT.PART_HELD, 0), (R.EVT_STATUS.STAGE_OVF, 0), (R.RST_PIN_STAT.VR_ALERT_N, 1), (R.RST_PIN_STAT.READY, 0),
    (R.RST_REFCLK.FALLBACK, 0), (R.RST_STRAP.CLK_MODE, clkMode), (R.HIF_BOOT_STATUS.STAGE, if loading then 6 else 2), (R.RST_FAULT.READMIT, pend)]
  showRecord
  eff (.ctl fun c => { Ctl.init with
    mode := if c.mrstLow then .inReset else .start, mrstLow := c.mrstLow, fw := c.fw })
  refreshFault
  mark K.reset

/-- A module reset is asked for (R341, R346): READY falls and the blocks are asked to go idle. During a start it restarts at once; over a
shallower rung it starts from stage 3, without idle. Manufacturing test leaves only by POR (Table 09-9). -/
def askModule (src kind : Nat) : M o Unit := do
  let s ← st
  match s.ctl.mode with
  | .off | .mfgTest => pure ()
  | .inReset => resetEvent 4 0xFF src kind 2
  | .start => moduleStage3 src kind false
  | _ => do
    let deep := !s.ctl.rungs.isEmpty
    driveReady false
    eff (.ctl fun c => { c with mode := .inReset, ret := c.mode })
    if deep then moduleStage3 src kind true
    else addRung 4 0 src kind 0

/-! The ladder (R384, R385). -/

/-- A rung is taken: one ESCALATE event and the ladder's registers (R384). -/
def rungTaken (depth unit code inWin : Nat) : M o Unit := do
  ev E.ESCALATE SK.fw 0 [I.REASON code, I.VALUE depth, I.UNIT unit]
  wr R.RST_ESC_STAT.LAST_RUNG depth
  incSat R.RST_ESC_STAT.RUNGS
  wrs [(R.RST_ESC_LAST.UNIT, unit), (R.RST_ESC_LAST.CODE, code), (R.RST_ESC_LAST.IN_WIN, min 255 inWin)]

/-- Rungs of a depth counted for a unit or partition within the window of WIN_MIN minutes, 0 acting as 1 (R385). -/
def inWindow (s : State) (depth key : Nat) : Nat :=
  (s.watch.counts.filter fun x => x.1 == depth && x.2.1 == key &&
    decide (s.clk.mono < x.2.2 + 60000000000 * max 1 (s.rd R.RST_ESC_CFG.WIN_MIN))).length

/-- Count one more rung; answers the count within the window. -/
def countRung (depth key : Nat) : M o Nat := do
  let t ← now
  eff (.watch fun w => { w with counts := w.counts ++ [(depth, key, t)] })
  return inWindow (← st) depth key

/-- A limit field; 0 acts as 1. -/
def limitOf (s : State) (f : Fld) : Nat := max 1 (s.rd f)

/-- The first rung of a noted fault is taken, or a rung in progress takes it in (R384, R391). -/
def rungDue (code unit : Nat) : M o Unit := eff (.watch fun w => { w with faults := w.faults.filter (· ≠ (code, unit)) })

/-- The ladder takes a partition rung: counted, and the partition that reaches PART_LIMIT is withheld (R385). -/
def climbPartition (p code : Nat) : M o Unit := do
  rungDue code (p * 8192)
  let s ← st
  if partBusy s p || moduleBusy s then resetEvent 3 (2 ^ p) 6 SK.fw 2
  else do
    let n ← countRung 3 p
    rungTaken 3 (p * 8192) code n
    when_ (decide (limitOf s R.RST_ESC_CFG.PART_LIMIT ≤ n))
      (wr R.RST_ESC_STAT.PART_HELD (s.rd R.RST_ESC_STAT.PART_HELD ||| 2 ^ p))
    askPartition p 6 SK.fw

/-- The physical units that a unit stands on, as ladder keys: a pair has two (Table 10-7). -/
def physKeys (s : State) (u : Nat) : List Nat :=
  if uKind u = 0 then
    (arrKeys s (uPart u) (uIdx u)).map fun k => uidOf (k / 24) 0 (s.rd (R.PART_TOP_ARRn.PHYS (k / 24) (k % 24)))
  else [physOf s u]

/-- Count a rung for each physical unit; answers the highest count. -/
def countPhys : List Nat → M o Nat
  | [] => return 0
  | k :: t => do
    let n ← countRung 2 k
    let m ← countPhys t
    return max n m

/-- The ladder takes an engine rung on a unit; at ENG_LIMIT of one of its physical units a partition rung replaces it (R385). While another engine
reset runs in the partition, the rung waits for its end (R391). -/
def climbEngine (u0 code : Nat) : M o Unit := do
  let s ← st
  let u := evenOf s u0
  let p := uPart u
  if partBusy s p || moduleBusy s then do
    rungDue code u0
    resetEvent 2 u 6 SK.fw 2
  else if s.rd (R.PART_ENG_RST_STAT.BUSY p) == 1 || !engUnit u then pure ()
  else do
    rungDue code u0
    let n ← countPhys (physKeys s u)
    if limitOf s R.RST_ESC_CFG.ENG_LIMIT ≤ n then climbPartition p 8
    else do
      rungTaken 2 u code n
      let _ ← askEngine u 6 SK.fw

/-- The module rung of the ladder, for a watchdog or a lockstep mismatch: counted, and MOD_LIMIT asks for a coppice (R385). -/
def climbModule (src : Nat) : M o Unit := do
  let s ← st
  if s.ctl.mode = .off ∨ s.ctl.mode = .mfgTest ∨ moduleBusy s then askModule src SK.hw
  else do
    let n ← countRung 4 0
    rungTaken 4 0 9 n
    when_ (decide (limitOf s R.RST_ESC_CFG.MOD_LIMIT ≤ n)) (setF R.RST_ESC_STAT.COPPICE_REQ)
    askModule src SK.hw

end Sys2Proof.Machine
end

