-- ==== Sys2Proof/Machine/UpdOps.lean ====
section
/-!
DEFINITION. Firmware images and their slots: the image check (R413, R415, R416, R422), the slots of the boot NOR (R414, R420, R421) and the
update's state with its notice (Table 11-4).
-/

namespace Sys2Proof.Machine

variable {o : State}

/-! UPD_STAT.STATE and UPD_STAT.ERR. -/
abbrev UP.IDLE := 0
abbrev UP.CHECKED := 2
abbrev UP.REJECTED := 3
abbrev UP.PROGRAMMING := 4
abbrev UP.PROGRAMMED := 5
abbrev UP.ACTIVATING := 6
abbrev UP.UNCONFIRMED := 7
abbrev UP.REVERTING := 8
abbrev UE.NONE := 0
abbrev UE.BLOCK_CRC := 1
abbrev UE.SIG_FAIL := 2
abbrev UE.SVN_LOW := 3
abbrev UE.KIND_LEN := 4
abbrev UE.SETTINGS_FMT := 5
abbrev UE.NOR_VERIFY := 6
abbrev UE.VOTE_FAIL := 7
abbrev UE.STATE := 8
abbrev UE.TIME_PAST := 9

/-- REASON values of FW_UPDATE events (log entry 20). -/
def FU.ACT_ABORTED : Nat := Config.eventCode 49
def FU.ACTIVATED : Nat := Config.eventCode 50
def FU.REVERTED : Nat := Config.eventCode 51

/-- The state of the update moves, in the boot NOR and in UPD_STAT; a change sends the UPDATE notice. -/
def setUpd (v : Nat) : M o Unit := do
  let s ← st
  eff (.nor fun n => { n with updState := v })
  wr R.UPD_STAT.STATE v
  when_ (decide (s.rd R.UPD_STAT.STATE ≠ v)) (notice 0x8004 [])

/-- Record an FW_UPDATE event. -/
def updEvent (reason version : Nat) : M o Unit := ev E.FW_UPDATE SK.fw 0 [I.REASON reason, I.VALUE version]

/-- Bytes of a run of 32-bit words from index `i`. -/
def wordBytes (t : Tbl (BitVec 32)) (i n : Nat) : List Byte := (List.range n).flatMap fun k => leBytes 4 (tget 0 t (i + k)).toNat

/-- A field of an image's header. -/
def hdr (t : Tbl (BitVec 32)) (off len : Nat) : Nat := leNat (((wordBytes t (off / 4) ((len + 7) / 4)).drop (off % 4)).take len)

/-- Bytes of block b as its CRC reads them: BLK_CRC[0] reads zero in block 0 (R413). -/
def blockBytes (t : Tbl (BitVec 32)) (b : Nat) : List Byte :=
  let x := wordBytes t (16384 * b) 16384
  if b = 0 then x.take 0x40 ++ zeros 4 ++ x.drop 0x44 else x

/-- First block whose CRC-32C differs from its entry. -/
def badBlock (t : Tbl (BitVec 32)) (n : Nat) : Option Nat :=
  (List.range n).find? fun b => crc32c (blockBytes t b) != hdr t (0x40 + 4 * b) 4

/-- "EWNMFW01" as a little-endian number. -/
def fwMagic : Nat := leNat ([0x45, 0x57, 0x4E, 0x4D, 0x46, 0x57, 0x30, 0x31].map (BitVec.ofNat 8))

/-- The image of a word table, taken from its header (Table 11-7). -/
def imageOf (t : Tbl (BitVec 32)) : FwImg :=
  { ok := true, version := hdr t 8 4, svn := hdr t 0xC 2, fmt := hdr t 0xE 2, kind := hdr t 0x14 2, words := t }

/-- The signed part of an image and its signature block verify under the firmware key (R413). -/
def sigOk (t : Tbl (BitVec 32)) (len : Nat) : Bool :=
  let sig := wordBytes t ((len - 65536) / 4) 16384
  Config.rsaVerify Config.firmwareKey (Config.sha512 (wordBytes t 0 ((len - 65536) / 4))) (sig.take 512) && (sig.drop 512).all (· == 0)

/-- Kind and length of an image are among those of Table 11-7. -/
def kindLenOk (t : Tbl (BitVec 32)) : Bool :=
  let len := hdr t 0x10 4
  let kind := hdr t 0x14 2
  hdr t 0 8 == fwMagic && len % 65536 == 0 && len != 0 && hdr t 0x16 2 * 65536 == len
    && ((kind == 1 && decide (len ≤ 1572864)) || (kind == 2 && decide (len ≤ 15728640)))

/-- SETTINGS_FMT of an image against the running firmware's: equal or one more; 0 for general-core firmware (R422, Table 11-7). -/
def imgFmtOk (s : State) (t : Tbl (BitVec 32)) : Bool :=
  if hdr t 0x14 2 = 2 then hdr t 0xE 2 == 0 else hdr t 0xE 2 == s.ctl.fw.fmt || hdr t 0xE 2 == s.ctl.fw.fmt + 1

/-- CHECK of an image: ERR and BLOCK, ERR 0 for an image that passes (R413, R415, R422). -/
def checkImage (s : State) (t : Tbl (BitVec 32)) : Nat × Nat :=
  if !kindLenOk t then (UE.KIND_LEN, 0)
  else match badBlock t (hdr t 0x16 2) with
    | some b => (UE.BLOCK_CRC, b)
    | none =>
      if !sigOk t (hdr t 0x10 4) then (UE.SIG_FAIL, 0)
      else if hdr t 0xC 2 < s.nv.fuses.svn then (UE.SVN_LOW, 0)
      else if !imgFmtOk s t then (UE.SETTINGS_FMT, 0)
      else (UE.NONE, 0)

/-- An image in a slot verifies at a boot (R414, R415). -/
def slotOk (s : State) (x : FwImg) : Bool := x.ok && decide (s.nv.fuses.svn ≤ x.svn)

/-- Slot F is copied into slot R, which is VALID again, for the kind that was written (R421, Table 11-9). -/
def copyBack (kind : Nat) : M o Unit :=
  eff (.nor fun n => if kind = 2 then { n with coreR := n.coreF, coreWord := .valid } else { n with slotR := n.slotF, slotWord := .valid })

/-- FALLBACK in the boot NOR and in UPD_STAT. -/
def setFallback (b : Bool) : M o Unit := do
  eff (.nor fun n => { n with fallback := b })
  wrB R.UPD_STAT.FALLBACK b

/-- New module firmware converts the settings store: a copy in its format stands beside the old one (R422). -/
def convertSettings : M o Unit := do
  let n := (← st).nv.nor
  when_ (decide (n.updKind ≠ 2)) (eff (.settings fun x => { x with fmts := x.fmts.filter (· ≠ n.slotR.fmt) ++ [n.slotR.fmt] }))

/-- The settings store is held in one format alone: the old one is deleted at CONFIRM, the new one when an update reverts (R420, R421). -/
def keepFormat (fmt : Nat) : M o Unit := eff (.settings fun x => { x with fmts := [fmt] })

/-- An update reverts: slot F goes back into slot R, its settings format alone is kept, and FW_UPDATE records it (R421). -/
def revertUpd (kind : Nat) : M o Unit := do
  copyBack kind
  when_ (decide (kind ≠ 2)) (keepFormat (← st).nv.nor.slotF.fmt)
  setFallback true
  setUpd UP.IDLE
  updEvent FU.REVERTED (← st).nv.nor.slotF.version

/-- A new image runs unconfirmed, with its settings converted, and its deadline starts in full (R417, R421, R422). -/
def startDeadline : M o Unit := do
  convertSettings
  setUpd UP.UNCONFIRMED
  mark K.confirm

/-- What a start does with the state word of one kind's slot R (R414, R421, Table 11-9); `counted`: the previous start ended by a counted cause. -/
def settleSlot (kind : Nat) (word : SlotWord) (counted : Bool) : M o Unit :=
  match word with
  | .valid => pure ()
  | .writing => do
    copyBack kind
    setFallback true
    setUpd UP.IDLE
  | .new => if counted then revertUpd kind else startDeadline

end Sys2Proof.Machine
end

