-- ==== Sys2Proof/Machine/StartOps.lean ====
section
/-!
DEFINITION. The steps of a start (Tables 09-3 and 09-4, R347 to R359), failed starts (R368, R369) and MINIMAL (R370).
-/

namespace Sys2Proof.Machine

variable {o : State}

/-! Reasons of Table 09-13. -/
abbrev SR.REFCLK := 0x01
abbrev SR.PLL := 0x02
abbrev SR.RAIL := 0x03
abbrev SR.STRAP := 0x04
abbrev SR.STRAP_BAD := 0x05
abbrev SR.FUSE := 0x06
abbrev SR.NOR := 0x07
abbrev SR.PART := 0x08
abbrev SR.FW := 0x09
abbrev SR.HOST := 0x0A
abbrev SR.WEIGHT := 0x0B
abbrev SR.TIMEOUT := 0x0C
abbrev SR.FORCED := 0x0F
abbrev SR.FAILS := 0x10
abbrev SR.RECOVERY := 0x11

/-- Reasons of failed starts that count (Table 09-13). -/
def counts (r : Nat) : Bool := r != SR.HOST

/-- STAGE of HIF_BOOT_STATUS. -/
def setStage (n : Nat) : M o Unit := wr R.HIF_BOOT_STATUS.STAGE n

/-- A start fails with a reason at a step; it stays until START_RETRY (R369). Rails go down when they failed to come up (Table 09-13). -/
def failStart (reason step : Nat) : M o Unit := do
  eff (.nor fun n => { n with reason := reason, lastStep := step, counted := counts reason })
  eff (.ctl fun c => { c with failed := true })
  clearWaits
  showRecord
  mark K.reset
  when_ (reason == SR.RAIL) (eff (.hs fun h => { h with rails := [0] }))
  when_ (counts reason) (ev E.START_FAIL SK.fw 0 [I.REASON reason, I.VALUE step, I.COUNT (← st).nv.nor.fails])

/-- CTL restores the wear counter from the superblock at every start, before module firmware runs; without a readable copy it starts at 0
(R159). -/
def restoreWear (ok : Bool) : M o Unit := do
  let w := (← st).nv.super.wear
  eff (.vlt fun v => { v with wear := if ok then w else 0 })

/-- The vault mounts (R159, R446): the units written and the life counts come from the superblock. -/
def mountVault (ok : Bool) : M o Unit := do
  eff (.super fun x => if ok then { x with ok := true } else
    { x with ok := false, wear := 0, written := 0, life := [0, 0, 0], stack := [], verA := false, verB := false, active := 0, holdupDone := false })
  let x := (← st).nv.super
  eff (.vlt fun v => { v with written := x.written })
  eff (.pw fun p => { p with stack := x.stack })
  let n20 := x.life.getD 0 0
  let n40 := x.life.getD 1 0
  let n60 := x.life.getD 2 0
  wrs [(R.PWR_LIFE_N20.HALF, n20), (R.PWR_LIFE_N40.HALF, n40), (R.PWR_LIFE_N60.HALF, n60),
    (R.PWR_LIFE_DAMAGE.D, min 0xFFFFFFFF (damage n20 n40 n60)), (R.MEM_VLT_STAT.HOLDUP_DONE, if x.holdupDone then 1 else 0),
    (R.MEM_VLT_STAT.ACTIVE_SLOT, x.active)]
  eff (.ctl fun c => { c with doneTrain := true })

/-- The module enters MINIMAL (R370): the compute dies and VDRAM are off, the Fazar ports DISABLED, PCIe runs from the on-module oscillator. -/
def enterMinimal (reason step : Nat) : M o Unit := do
  eff (.nor fun n => { n with reason := reason, lastStep := step, counted := false })
  mountVault (← st).nv.super.ok
  setMode .minimal
  eff (.hs fun h => { h with rails := [0, 1, 2, 3] })
  eff (.ctl fun c => { c with link := true })
  setStage 0xC
  clearWaits
  wr R.RST_REFCLK.FALLBACK 1
  showRecord
  each (List.range 36) fun n => setPort n PS.DISABLED PR.NONE
  driveReady false
  ev E.MINIMAL_ENTRY SK.fw 0 [I.REASON reason]
  faultCond R.RST_FAULT.MINIMAL true

/-! Step 2. -/

/-- The recorder resumes (R431): SEQ after the highest that the region or the superblock holds; the region's fields show. -/
def resumeRecorder : M o Unit := do
  let x := (← st).nv.super
  eff (.rcd fun r => { r with seq := match x.lastSeq with
    | some n => nextSeq n
    | none => 0 })
  wrs [(R.EVT_STATUS.PAGES_USED, x.pages), (R.EVT_STATUS.FULL, if 16384 ≤ x.pages then 1 else 0),
    (R.EVT_STATUS.HOLDUP_LOST, if x.holdupDone then 0 else 1), (R.EVT_FIRST_SEQ.SEQ, x.firstSeq), (R.EVT_LAST_SEQ.SEQ, x.lastSeq.getD 0),
    (R.EVT_CLEARS.CLEARS, x.clears)]

/-- The last-cause latch is read, recorded and armed with UNKNOWN (R320); the cause tells whether the previous start counts (Table 09-12). -/
def readLatch : M o Unit := do
  let l := (← st).nv.latch
  wrs [(R.RST_LASTOFF.VALID, 1), (R.RST_LASTOFF.CAUSE, l.cause), (R.RST_LASTOFF.DETAIL, l.detail), (R.RST_LASTOFF.SEQ, l.seq)]
  ev E.POWER_OFF_CAUSE SK.rom 0 [I.REASON l.cause, I.VALUE l.detail, I.COUNT l.seq]
  eff (.latch fun x => { x with cause := 15, detail := 0 })
  eff (.hs fun h => { h with porSeen := false })
  eff (.nor fun n => { n with counted := l.cause == 4 || l.cause == 15 })

/-- Step 2 (R320, R329, R431): `cold`: power was removed since the last start. Answers whether the start goes on. -/
def startStep2 (cold : Bool) (clkMode : Nat) : M o Bool := do
  mark K.startAt
  showRecord
  when_ cold resumeRecorder
  ev E.RECORDER_START SK.rom 0 [I.VALUE (if (← st).nv.super.holdupDone then 1 else 0)]
  when_ cold (do
    readLatch
    wrs [(R.RST_STRAP.CLK_MODE, clkMode % 4), (R.RST_REFCLK.MODE_USED, if clkMode % 4 = 3 then 2 else clkMode % 4)])
  if (← rd R.RST_STRAP.CLK_MODE) = 3 then do
    enterMinimal SR.STRAP_BAD 2
    return false
  else return true

/-! Steps 3 to 5. -/

/-- Step 3 (R265): the other rails come up in order. -/
def startStep3 (ok : Bool) : M o Bool := do
  setStage 3
  if ok then do
    eff (.hs fun h => { h with rails := [0, 1, 2, 3, 4, 5, 6] })
    return true
  else do
    failStart SR.RAIL 3
    return false

/-- Step 4 (R329, R330): the on-module oscillator needs no qualification; a REFCLK waits for REFCLK_QUALIFY. Answers whether the PLL is locked
to a reference already. -/
def startStep4 : M o Bool := do
  setStage 4
  if (← rd R.RST_REFCLK.LOCKED) = 1 then return true
  else if (← rd R.RST_REFCLK.MODE_USED) = 2 then do
    setF R.RST_REFCLK.LOCKED
    return true
  else do
    mark K.waitAt
    return false

/-- Step 5 (R332): up to three pairs of reads; the first pair that agrees counts. Answers whether the start goes on. -/
def startStep5 (cold : Bool) (straps : List (Nat × Nat)) : M o Bool := do
  setStage 5
  match (straps.take 3).find? fun x => x.1 == x.2 with
  | none => do
    wrs [(R.RST_STRAP.VALID, 0), (R.RST_STRAP.UNSTABLE, 1)]
    failStart SR.STRAP 5
    return false
  | some x => do
    let loc := fget x.1 0 19
    let bad := decide (1024 < loc / 256)
    wrs [(R.RST_STRAP.VALID, if bad then 0 else 1), (R.RST_STRAP.UNSTABLE, 0), (R.RST_STRAP.BOOT_SRC, fget x.1 19 2), (R.RST_STRAP.LOC, loc)]
    if bad then do
      enterMinimal SR.STRAP_BAD 5
      return false
    else if (← st).nv.nor.fenceMark ∧ !cold then do
      setF R.FZ_MEMBER.FENCED
      setMode .fenced
      faultCond R.RST_FAULT.FENCED true
      return false
    else return true

/-! Step 6: option loading. -/

/-- Fields that come from the fuses (R446, Table 10-3). -/
def loadFuses : M o Unit := do
  let z := (← st).nv.fuses
  let w := Config.contCeiling z.variant
  let k := Config.topPoint z.variant
  wrs [(R.RST_PART_ID.STEP, z.step), (R.RST_PART_ID.VARIANT, z.variant), (R.RST_SERIAL_LO.SERIAL, z.serial), (R.RST_SERIAL_HI.SERIAL, z.serial / 2 ^ 32),
    (R.PWR_STAT.OP_CEIL, k), (R.PWR_OP.MGMT_CEIL, k), (R.PWR_CLIP_IN.MGMT_W, w), (R.PWR_CLIP_IN.RACK_W, w),
    (R.MEM_VLT_FUSE.REFILL, Config.wearRefill), (R.MEM_VLT_FUSE.RESERVE_K, Config.spillReserve / 1000)]
  refreshClip
  each (List.range 8) fun i => wr (R.PWR_OPVk.MV i) (z.opv.getD i 0)
  each (List.range 6) fun i =>
    wrs [(R.GRD_THRk.FILTER_US i, [5, 10, 10, 10, 10, 0].getD i 0), (R.GRD_THRk.VALUE i, [880, 900, 1150, 115, 630, 2000].getD i 0)]
  each (List.range 256) fun i => wr (R.PWR_REGION.BYTES (i / 32) (i % 32)) (leNat ((List.range 4).map fun j => tget 0 z.region (4 * i + j)))
  wrs [(R.RST_SEC.OWNER_VALID, maskOf ((List.range 8).filter fun i => (tget OwnerSlot.empty z.owner i).valid)),
    (R.RST_SEC.OWNER_REVOKED, maskOf ((List.range 8).filter fun i => (tget OwnerSlot.empty z.owner i).revoked)), (R.RST_SEC.SVN, z.svn)]

/-- Band of one measurement: all sixteen codes in one band of four codes each (R334, Table 08-10). -/
def bandOf (l : List Nat) : Option Nat :=
  let b := l.headD 63 / 4
  if l.all fun c => min 63 c / 4 == b then some b else none

/-- The ladder is measured, up to three times (R334): the band, and the last code. -/
def ladderOf (l : List (List Nat)) : Option Nat × Nat :=
  match (l.take 3).find? fun m => (bandOf m).isSome with
  | some m => (bandOf m, min 63 (m.getLastD 63))
  | none => (none, min 63 (((l.take 3).getLastD []).getLastD 63))

/-- The band in effect with its record (R334, R336). -/
def measureLadder (l : List (List Nat)) : M o Nat := do
  let m := ladderOf l
  let b := m.1.getD 8
  wrs [(R.RST_LADDER.VALID, 1), (R.RST_LADDER.UNSTABLE, if m.1.isNone then 1 else 0), (R.RST_LADDER.CODE, m.2), (R.RST_LADDER.BAND, b),
    (R.HIF_BOOT_STATUS.BAND, b)]
  when_ m.1.isNone (ev E.LADDER_UNSTABLE SK.rom 0 [I.VALUE m.2])
  when_ (decide (11 ≤ b ∧ b ≤ 14)) (ev E.LADDER_RSV SK.rom 0 [I.VALUE b])
  eff (.ctl fun c => { c with band := b })
  return b

/-- The measurement at the entry to manufacturing test and at a recovery entry (R335) shows in RST_LADDER; the band in effect stays that of step 6
(R359). -/
def measureAgain (l : List (List Nat)) : M o Unit := do
  let m := ladderOf l
  wrs [(R.RST_LADDER.VALID, 1), (R.RST_LADDER.UNSTABLE, if m.1.isNone then 1 else 0), (R.RST_LADDER.CODE, m.2), (R.RST_LADDER.BAND, m.1.getD 8)]
  when_ m.1.isNone (ev E.LADDER_UNSTABLE SK.rom 0 [I.VALUE m.2])

/-- Bits of a register that the settings store holds (R446, FZ_PORT_CTL.EN by its meaning). -/
def settingsMask : RegKind → Nat
  | .FZ_PORT_CTL => 2 ^ 31
  | .FZ_PORT_MAP => 2 ^ 31 + 2 ^ 30 + 0x3F * 2 ^ 24 + 0x7FFFF
  | .FZ_PORT_ASYM => 0xFFFF
  | .FZ_TIME_CFG => 2 ^ 31 + 7 * 2 ^ 28
  | .FZ_VERIFY_CFG => 2 ^ 31 + 2 ^ 30
  | _ => 0

/-- Registers that the settings store holds take their stored bits (R446, Table 12-6). -/
def loadSettings : Tbl (BitVec 32) → M o Unit
  | [] => pure ()
  | (a, v) :: t => do
    match regAt a with
    | some (k, ix) => do
      let w := (regWord (← st) k ix).toNat
      wr ⟨k, ix, 0, 32⟩ (w - (w &&& settingsMask k) + (v.toNat &&& settingsMask k))
    | none => pure ()
    loadSettings t

/-- A settings reset (R360, Table 09-10). -/
def resetSettings : M o Unit := do
  eff (.settings fun x => { Settings.init with fmts := x.fmts })
  eff (.nor fun n => { n with training := none })
  setF R.HIF_BOOT_STATUS.SETTINGS_RESET

/-- The failed-start record (R368): counted, then PENDING. Answers whether the count has reached 3. -/
def failedRecord : M o Bool := do
  eff (.nor fun n => { n with fails := if n.pending ∧ n.counted then min 3 (n.fails + 1) else n.fails, pending := true })
  showRecord
  return decide (3 ≤ (← st).nv.nor.fails)

/-- Module firmware is taken from slot R or F and verified (R414, R415, Table 09-13). Answers whether the start goes on. -/
def bootFirmware : M o Bool := do
  let n := (← st).nv.nor
  settleSlot 1 n.slotWord n.counted
  settleSlot 2 n.coreWord n.counted
  let s ← st
  let useF := n.slotWord == .writing || (n.slotWord == .new && n.counted) || (n.counted && n.reason == SR.NOR)
  let img := if useF then s.nv.nor.slotF else s.nv.nor.slotR
  wrs [(R.UPD_STAT.STATE, s.nv.nor.updState), (R.UPD_STAT.FALLBACK, if s.nv.nor.fallback then 1 else 0)]
  if slotOk s img then do
    eff (.ctl fun c => { c with fw := img })
    wrs [(R.UPD_VER_RUN.VERSION, img.version), (R.UPD_SVN.COUNTER, s.nv.fuses.svn)]
    eff (.sec fun x => { x with meas := tset [] x.meas 2 (Config.sha512 (wordBytes img.words 0 (16384 * 24))) })
    return true
  else if useF then do
    enterMinimal SR.NOR 6
    return false
  else do
    failStart SR.NOR 6
    return false

/-- Step 6 (R347, R359, R368, R414). Answers whether the start goes on to step 7. -/
def startStep6 (e : StartEnv) : M o Bool := do
  setStage 6
  if !e.fuseOk then do
    failStart SR.FUSE 6
    return false
  else do
    loadFuses
    let b ← measureLadder e.ladder
    when_ (b == 3 || b == 4) resetSettings
    when_ (b == 10) (do
      eff (.nor fun n => { n with fails := 0, pending := false })
      showRecord)
    loadSettings (← st).nv.settings.regs
    wrB R.RST_SEC.IDE_REQ (← st).nv.settings.ideReq
    when_ (b == 6 || b == 7) (setF R.FZ_VERIFY_CFG.BER_BOOT)
    if b = 0 then do
      setMode .mfgTest
      measureAgain e.ladder2
      setStage 0xE
      ev E.MFG_ENTRY SK.fw 0 []
      return false
    else do
      let three ← failedRecord
      if !(← bootFirmware) then return false
      else if three then do
        enterMinimal SR.FAILS 6
        return false
      else if b = 1 ∨ b = 3 then do
        measureAgain e.ladder2
        enterMinimal SR.RECOVERY 6
        return false
      else if b = 8 ∨ (11 ≤ b ∧ b ≤ 14) then do
        enterMinimal SR.FORCED 6
        return false
      else if b = 2 then do
        setMode .recovery
        measureAgain e.ladder2
        setStage 0xD
        eff (.hs fun h => { h with rails := [0, 1, 2] })
        each (List.range 36) fun n => do if (← rd (R.FZ_PORT_CTL.EN n)) = 1 then bringUp n else pure ()
        wr R.RST_QS_STAT.STATE 1
        return false
      else return true

/-! Steps 7 to 9. -/

/-- The active image's key is checked against the usable slots (R437): without one the active slot is left unverified. -/
def checkOwner : M o Unit := do
  let s ← st
  when_ (activeVerified s && (ownerModulus s (peek s (imgBase s + 0x40) 64)).isNone) (markSlot s.nv.super.active false)

/-- Saved values at a start (R351, R352): after a module reset those that CTL SRAM holds, else the valid ones of the record, or of its copy where the
boot NOR's fails; bands 5 and 7 leave every item invalid. An item that fails its check is trained from the start, and its history says so. -/
def trainStart (cold : Bool) (e : StartEnv) : M o Unit := do
  let s ← st
  let r := if e.trainNor then s.nv.nor.training else if e.trainVault then s.nv.settings.training else none
  let use := (trainItems s).filter fun i =>
    s.ctl.band != 5 && s.ctl.band != 7 && (!cold || r.any fun t => savedValid s e.devs t i)
  let bad := use.filter e.test.rejects.contains
  wrB R.HIF_BOOT_STATUS.SAVED_USED (use.any fun i => !bad.contains i)
  trainRejects bad
  upTraining fun x => x.map fun t => { t with fail1 := bad, fail2 := t.fail1 }
  eff (.ctl fun c => { c with devs := e.devs })

/-- Step 7 (R351, R352, R159, Table 09-5): training, the vault mount, the directory banks and the ports that are enabled; after a cold start with
the fence mark the banks are discarded and every port stays DISABLED (R395). -/
def startStep7 (cold : Bool) (e : StartEnv) : M o Unit := do
  setStage 7
  let s ← st
  mountVault e.superOk
  checkOwner
  trainStart cold e
  failChannels e.test.t1
  eff (.ctl fun c => { c with link := e.link })
  if cold && s.nv.nor.fenceMark then do
    eff (.settings fun x => { x with bank0 := Bank.empty, bank1 := Bank.empty })
    setF R.RST_ESC_STAT.READMIT_PEND
    faultCond R.RST_FAULT.READMIT true
  else if s.rd R.RST_ESC_STAT.READMIT_PEND = 1 then pure ()
  else do
    eff (.fab fun f => { f with bank0 := s.nv.settings.bank0, bank1 := s.nv.settings.bank1 })
    refreshSelf
    each (List.range 36) fun n => do if (← rd (R.FZ_PORT_CTL.EN n)) = 1 then bringUp n else pure ()

/-- The guard's channels are tested (R354): a channel that fails stays out of control at every hot spot, and with two no reading is trusted. -/
def testGuard (bad : List Nat) : M o Unit := do
  each (List.range 3) fun c => wrs [(R.GRD_CHc.OSC_OK c, 1), (R.GRD_CHc.TEST_PASS c, if bad.contains c then 0 else 1)]
  when_ (bad.any (· < 3)) (do
    let two := decide (2 ≤ ((List.range 3).filter bad.contains).length)
    each (List.range 48) fun i =>
      let d := i / 24
      let h := i % 24
      if two then setF (R.PWR_HSd_h.FAULT d h)
      else wrs [(R.PWR_HSd_h.EXCL_A d h, if bad.contains 0 then 1 else 0), (R.PWR_HSd_h.EXCL_B d h, if bad.contains 1 then 1 else 0),
        (R.PWR_HSd_h.EXCL_C d h, if bad.contains 2 then 1 else 0)]
    refreshSensors)

/-- Physical units of a partition that are bad at this start, by unit identifier (R355). -/
def badUnits (s : State) (p : Nat) : List Nat :=
  (bitList 26 (s.rd (R.PART_TOP_BAD_ARR.BAD p))).map (uidOf p 0) ++
    (bitList 52 (s.rd (R.PART_TOP_BAD_CORE_LO.BAD p) + 2 ^ 32 * s.rd (R.PART_TOP_BAD_CORE_HI.BAD p))).map (uidOf p 1) ++
    (bitList 16 (s.rd (R.PART_TOP_BAD_STR.BAD p))).map (uidOf p 2)

/-- Step 8 (R151, R354 to R357): self-test and topiary map; the contents that the reset lost are zeros. Answers whether the start goes on. -/
def startStep8 (e : StartEnv) : M o Bool := do
  setStage 8
  testGuard e.guardBad
  each (List.range 8) fun p => do
    when_ (← buildTopiary p e.test false) (ev E.MEM_CONTENT_LOST SK.fw 0 [I.VALUE p])
  let s ← st
  eff (.settings fun x => { x with history := x.history ++ [(List.range 8).flatMap (badUnits s)] })
  eff (.ctl fun c => { c with doneTest := true })
  if s.rd R.RST_PART_AVAIL.AVAIL = 0 then do
    failStart SR.PART 8
    return false
  else return true

/-- General-core firmware is in use and measured (R434, R439). -/
def useCoreFw (x : FwImg) : M o Unit := do
  eff (.ctl fun c => { c with coreFw := some x, doneFw := true })
  eff (.sec fun y => { y with meas := tset [] y.meas 3 (Config.sha512 (wordBytes x.words 0 (hdr x.words 0x10 4 / 4 - 16384))) })
  setStage 0xA

/-- Step 9 (R358, Table 09-8): general-core firmware from its source, or the wait for it. -/
def startStep9 (e : StartEnv) : M o Unit := do
  setStage 9
  let s ← st
  let src := s.rd R.RST_STRAP.BOOT_SRC
  let nor := s.nv.nor.coreR
  let used := if src = 3 ∧ !e.fwVault then 0 else src
  wr R.HIF_BOOT_STATUS.BOOT_SRC_USED used
  if used = 1 then do
    setUpd UP.IDLE
    beginWait 2
  else if used = 2 then do
    wr R.RST_QS_STAT.STATE 1
    beginWait 2
  else
    let img := if used = 3 then FwImg.init 2 else nor
    if e.fwOk && (used == 3 || slotOk s img) then useCoreFw img else failStart SR.FW 9

/-- Steps 5 to 9 of a start whose reference is locked. -/
def startRest (cold : Bool) (e : StartEnv) : M o Unit := do
  if !e.pll then do
    wr R.RST_REFCLK.LOCKED 0
    failStart SR.PLL 4
  else if !(← startStep5 cold e.straps) then pure ()
  else if !(← startStep6 e) then pure ()
  else do
    startStep7 cold e
    if !(← startStep8 e) then pure () else startStep9 e

/-- Ranges of the ready set (R162): tier-0 and SRAM ranges, and tier-1 ranges marked READY_REQUIRED. -/
def readyRange (r : Nat × Nat × Nat × Nat) : Bool :=
  match regionRaw r.2.1 with
  | .tier1 _ => fget r.2.2.2 0 1 == 1
  | _ => true

/-- READY (R347, R192, R323, R368): the record clears, READY is driven and its notice sent; a hold in force is entered at once. -/
def enterReady : M o Unit := do
  setMode .ready
  setStage 0xB
  endWait 1
  endWait 2
  eff (.nor fun n => { n with fails := 0, pending := false, counted := false })
  wr R.HIF_BOOT_STATUS.FAILS 0
  eff (.host fun h => { h with level := 0, moduleUj := 0, unattrUj := 0 })
  driveReady true
  notice 0x8002 []
  let s ← st
  when_ (s.rd R.PWR_STAT.HOLD_BROWN == 1 || s.rd R.PWR_STAT.HOLD_OPER == 1) (eff (.ctl fun c => { c with mode := .hold, ret := .ready }))

end Sys2Proof.Machine
end

