-- ==== Sys2Proof/Machine/QuickOps.lean ====
section
/-!
DEFINITION. Quickset (R361 to R367, Table 09-11): the source's session and its blocks, and a receiver's bitmap, repair, source fetch and
verification.
-/

namespace Sys2Proof.Machine

variable {o : State}

/-! RST_QS_STAT.STATE. -/
abbrev QX.IDLE := 0
abbrev QX.LISTEN := 1
abbrev QX.RECEIVE := 2
abbrev QX.REPAIR := 3
abbrev QX.FETCH := 4
abbrev QX.VERIFY := 5
abbrev QX.DONE := 6

/-- Table blocks of a session: one for 1,023 data blocks (Table 09-11). -/
def qsTables (nData : Nat) : Nat := (nData + 1022) / 1023

/-- Blocks of a session, tables and data together. -/
def qsTotal (a : QsAnn) : Nat := a.nTable + a.nData

/-! The source (R361, R362). -/

/-- Image words that a session of a firmware kind carries: 0 general-core firmware in use, 2 the running module firmware. -/
def qsWords (s : State) (kind : Nat) : Option (Tbl (BitVec 32)) :=
  if kind = 0 then s.ctl.coreFw.map (·.words) else some s.ctl.fw.words

/-- IMAGE_LEN of what a session of a kind carries: none when the source holds no such image. -/
def qsLen (s : State) (kind : Nat) : Option Nat :=
  if kind = 1 then (if activeVerified s then some (img s 0x10 8) else none)
  else if kind = 3 then none
  else (qsWords s kind).map fun t => hdr t 0x10 4

/-- Bytes of data block b of the source's session. -/
def qsData (s : State) (a : QsAnn) (b : Nat) : List Byte :=
  if a.kind = 1 then peek s (imgBase s + a.base + 4096 * b) 4096 else wordBytes ((qsWords s a.kind).getD []) (1024 * b) 1024

/-- Bytes of table block j: the CRC-32C of its data blocks, then its own (Table 09-11). Places beyond the last data block hold 0 (log entry 41). -/
def qsTable (s : State) (a : QsAnn) (j : Nat) : List Byte :=
  let l := (List.range 1023).flatMap fun i =>
    let b := 1023 * j + i
    if b < a.nData then leBytes 4 (crc32c (qsData s a b)) else zeros 4
  l ++ leBytes 4 (crc32c l)

/-- A session of the source is in progress: its blocks and its three QS_END messages are not all sent. -/
def qsBusy (s : State) : Bool := s.qs.src.any fun a => decide (s.qs.sent < qsTotal a + 3)

/-- RST_QS_SRC_CTL.GO (R361). Answers whether a session began: not while one is in progress, for the reserved KIND, or without the image. -/
def qsStart : M o Bool := do
  let s ← st
  let kind := s.rd R.RST_QS_SRC_CTL.KIND
  match qsLen s kind with
  | none => return false
  | some len =>
    if qsBusy s then return false
    else do
      let base := if kind = 1 then 4096 * s.rd R.RST_QS_SRC_BASE.BASE else 0
      let n := min (2 ^ 25) ((len - base + 4095) / 4096)
      let id ← if kind = 1 then pure (img s 0x18 8) else freeBits 32
      let a : QsAnn :=
        { src := ownFa s, dst := s.rd R.RST_QS_SRC_CTL.DST_FA, session := (s.qs.session + 1) % 65536, kind := kind,
          onBoot := s.rd R.RST_QS_SRC_CTL.ON_BOOT == 1, imageId := id, imageLen := len, base := base, nData := n, nTable := qsTables n }
      eff (.qs fun q => { q with src := some a, sent := 0, session := a.session })
      mark K.qsAnn
      mark K.qsBlock
      return true

/-- RST_QS_SRC_CTL.CANCEL (R361): the source's session ends. -/
def qsCancel : M o Unit := eff (.qs fun q => { q with src := none, sent := 0 })

/-- A service message to a session's destination: a broadcast in machine scope needs an MGR source (R246). -/
def qsSvc (dst code : Nat) (fields : List Nat) : M o Unit := do
  let s ← st
  if dst = 0xFFFFF ∧ s.rd R.RST_QS_SRC_CTL.SCOPE_H = 0 ∧ !entMgr (dirEnt s (activeEpoch s) (ownFa s)) then dropPkt DR.BCAST_DENIED
  else svc dst (s.rd R.RST_QS_SRC_CTL.SCOPE_H) code fields

/-- QS_ANNOUNCE fields (Table 09-11). -/
def qsAnnFields (a : QsAnn) : List Nat :=
  [a.session, a.kind, if a.onBoot then 1 else 0, a.imageId, a.imageLen, a.base, a.nData, a.nTable]

/-- The USER word of a quarter (R362). -/
def qsUser (table : Bool) (quarter b : Nat) : Nat := (if table then 2 ^ 27 else 0) + quarter % 4 * 2 ^ 25 + b % 2 ^ 25

/-- One block as four MCAST or broadcast packets (R362). -/
def qsSendBlock (a : QsAnn) (table : Bool) (b : Nat) (bytes : List Byte) : M o Unit := do
  let scope ← rd R.RST_QS_SRC_CTL.SCOPE_H
  each (List.range 4) fun i => queuePkt (setH1 12 1 scope (mkPkt 3 a.dst 0 0 0 0 (qsUser table i b) ((bytes.drop (1024 * i)).take 1024)))

/-! A receiver (R363). -/

/-- A module is in a start that waits for its quickset session (Table 09-8). -/
def qsWaiting (s : State) : Bool :=
  s.ctl.mode == .start && !s.ctl.failed && s.rd R.HIF_BOOT_STATUS.STAGE == 9 && s.rd R.HIF_BOOT_STATUS.BOOT_SRC_USED == 2

/-- The session names the module: broadcast, or a group that it belongs to. -/
def qsNamed (s : State) (a : QsAnn) : Bool :=
  let x := dirEnt s (activeEpoch s) a.dst
  a.src != ownFa s && (a.dst == 0xFFFFF || (entGrp x && fget x 61 1 == 1))

/-- The module takes part in sessions of a kind: firmware at a start that waits for it, module firmware in RECOVERY, plan data at such a start or
in service (DEDUCED; log entry 42). -/
def qsTakes (s : State) (kind : Nat) : Bool :=
  if kind = 0 then qsWaiting s else if kind = 1 then qsWaiting s || serving s else if kind = 2 then s.ctl.mode == .recovery else false

/-- The slot that is not active. -/
def inactiveSlot (s : State) : Nat := 1 - s.nv.super.active

/-- Blocks still missing, tables first. -/
def qsMissing (s : State) : List (Bool × Nat) :=
  match s.qs.ann with
  | none => []
  | some a => (((List.range a.nTable).map (true, ·)) ++ ((List.range a.nData).map (false, ·))).filter fun b => !s.qs.have_.contains b

/-- RST_QS_MISS follows the bitmap; a full bitmap goes to verification. -/
def qsRefresh : M o Unit := do
  let s ← st
  let n := (qsMissing s).length
  wr R.RST_QS_MISS.MISS n
  when_ (decide (n = 0) && s.qs.ann.isSome) (wrs [(R.RST_QS_STAT.STATE, QX.VERIFY), (R.RST_QS_STAT.ROUND, 0)])

/-- Blocks that wait for the journal's commit no longer belong to a session. -/
def qsDrop : M o Unit := eff (.vlt fun v => { v with waiting := v.waiting.filter fun k => k % 3 ≠ 2 })

/-- A receiver joins a session (R361, R367). -/
def qsJoin (a : QsAnn) : M o Unit := do
  eff (.qs fun q => { q with ann := some a, have_ := [], parts := [], img := [], asked := [] })
  qsDrop
  wrs [(R.RST_QS_STAT.STATE, QX.RECEIVE), (R.RST_QS_STAT.ROUND, 0), (R.RST_QS_STAT.DONE, 0), (R.RST_QS_STAT.CRC_ERR, 0),
    (R.RST_QS_STAT.SESSION, a.session)]
  let s ← st
  when_ (decide (a.kind = 1)) (markSlot (inactiveSlot s) false)
  mark K.qsData
  qsRefresh

/-- Quarter i of a block as received. -/
def qsPart (s : State) (table : Bool) (b i : Nat) : Option (List Byte) :=
  (s.qs.parts.find? fun x => x.1 == table && x.2.1 == b && x.2.2.1 == i).map fun x => x.2.2.2

/-- The bytes of a block whose four quarters have arrived. -/
def qsWhole (s : State) (table : Bool) (b : Nat) : Option (List Byte) :=
  match qsPart s table b 0, qsPart s table b 1, qsPart s table b 2, qsPart s table b 3 with
  | some w, some x, some y, some z => some (w ++ x ++ y ++ z)
  | _, _, _, _ => none

/-- Forget the quarters of a block. -/
def qsForget (table : Bool) (b : Nat) : M o Unit :=
  eff (.qs fun q => { q with parts := q.parts.filter fun x => !(x.1 == table && x.2.1 == b) })

/-- A block's bit is set; blocks that come in a source fetch keep it going (R364). -/
def qsHave (table : Bool) (b : Nat) : M o Unit := do
  eff (.qs fun q => { q with have_ := q.have_ ++ [(table, b)] })
  mark K.qsNew

/-- A block whose CRC fails is discarded and counted (R363). -/
def qsBad (table : Bool) (b : Nat) : M o Unit := do
  qsForget table b
  incSat R.RST_QS_STAT.CRC_ERR

/-- Store a data block and set its bit: plan data goes into the inactive slot as an installation write (R157), whose bit waits for the journal's
commit (R155), firmware into staging. -/
def qsStore (a : QsAnn) (b : Nat) (bytes : List Byte) : M o Unit := do
  if a.kind = 1 then
    let s ← st
    if (← wearTake 4096 false) then do
      pageWrite (slotBase (inactiveSlot s) + a.base + 4096 * b) bytes
      eff (.vlt fun v => { v with waiting := v.waiting ++ [qsKey b] })
    else setF R.MEM_VLT_STAT.WEAR_REFUSED
  else do
    let ws := (chunks 4 1024 bytes).map fun c => BitVec.ofNat 32 (leNat c)
    eff (.qs fun q => { q with img := (ws.zipIdx).foldl (fun t x => tset 0 t (1024 * b + x.2) x.1) q.img })
    qsHave false b

/-- The CRC-32C of data block b in its table block, once that has arrived. -/
def qsRef (s : State) (b : Nat) : Option Nat :=
  if s.qs.have_.contains (true, b / 1023) then
    (qsWhole s true (b / 1023)).map fun t => leNat ((t.drop (4 * (b % 1023))).take 4)
  else none

/-- A data block whose quarters have all arrived is checked against its table block, or held until that arrives (R363), or until a brownout hold ends
(R156). -/
def qsCheckData (a : QsAnn) (b : Nat) : M o Unit := do
  let s ← st
  if s.qs.have_.contains (false, b) ∨ s.vlt.waiting.contains (qsKey b) ∨ (a.kind = 1 ∧ s.vlt.held) then pure ()
  else match qsWhole s false b, qsRef s b with
    | some bytes, some c =>
      if crc32c bytes = c then do
        qsForget false b
        qsStore a b bytes
      else qsBad false b
    | _, _ => pure ()

/-- The journal commits while the module serves; a session whose last block waited for it goes to verification (R155, R363). -/
def commitServing : M o Unit := do
  let qs := (← st).vlt.waiting.any fun k => k % 3 == 2
  commitJournal
  when_ qs qsRefresh

/-- The brownout hold is over: plan blocks that have arrived in it are stored (R156). -/
def qsResume : M o Unit := do
  let s ← st
  match s.qs.ann with
  | none => pure ()
  | some a => each ((s.qs.parts.filter fun x => !x.1 && x.2.2.1 == 0).map (·.2.1)) (qsCheckData a)

/-- A table block whose quarters have all arrived is checked; the data blocks held for it follow (R363). -/
def qsCheckTable (a : QsAnn) (j : Nat) : M o Unit := do
  let s ← st
  if s.qs.have_.contains (true, j) then pure ()
  else match qsWhole s true j with
    | none => pure ()
    | some t =>
      if crc32c (t.take 4092) = leNat (t.drop 4092) then do
        qsHave true j
        each ((List.range 1023).map (1023 * j + ·)) fun b => if b < a.nData then qsCheckData a b else pure ()
      else qsBad true j

/-- A quarter of a block arrives (R362, R363); the wait of a start ends with the first (Table 09-8). -/
def qsTake (user : Nat) (data : List Byte) : M o Unit := do
  let s ← st
  match s.qs.ann with
  | none => pure ()
  | some a =>
    let x := s.rd R.RST_QS_STAT.STATE
    let table := fget user 27 1 == 1
    let b := fget user 0 25
    let i := fget user 25 2
    if x < QX.RECEIVE ∨ QX.FETCH < x ∨ (if table then a.nTable else a.nData) ≤ b ∨ data.length ≠ 1024 ∨ s.qs.have_.contains (table, b) then pure ()
    else do
      when_ (qsWaiting s) (endWait 2)
      eff (.qs fun q => { q with parts := (q.parts.filter fun x => !(x.1 == table && x.2.1 == b && x.2.2.1 == i)) ++ [(table, b, i, data)] })
      if table then qsCheckTable a b else qsCheckData a b
      qsRefresh

/-! Repair (R364). -/

/-- FA of the module at a location, by the active bank. -/
def faAt (s : State) (loc : Nat) : Option Nat :=
  ((bankOf s (activeEpoch s)).dir.find? fun x => entActive x.2.toNat && entLoc x.2.toNat == loc).map (·.1)

/-- FAs of the neighbours whose ports are UP: row neighbours in round 1, column neighbours in round 2, all in round 3. -/
def qsNeighbours (s : State) (round : Nat) : List Nat :=
  let l := if round = 1 then upPorts s 0 15 else if round = 2 then upPorts s 15 15 else upPorts s 0 30
  l.filterMap fun p =>
    let q := servingPort s p
    if s.rd (R.FZ_PORT_FAR.VALID q) = 1 then faAt s (s.rd (R.FZ_PORT_FAR.LOC q)) else none

/-- Ask a holder for blocks, in QS_REQ messages of up to 240. -/
def qsAsk (fa session : Nat) (bs : List (Bool × Nat)) : M o Unit :=
  each (chunks 240 (bs.length / 240 + 1) bs) fun c => do
    svc fa 0 SV.QS_REQ (session :: c.map fun b => qsUser b.1 0 b.2)
    eff (.qs fun q => { q with asked := q.asked ++ c })

/-- Deal a list round-robin: the k-th of n hands. -/
def dealt {α : Type} (l : List α) (n k : Nat) : List α := (l.zipIdx.filter fun x => x.2 % n == k).map (·.1)

/-- The source fetch begins: what is still missing is requested from the source (R364). -/
def qsFetch (a : QsAnn) : M o Unit := do
  wrs [(R.RST_QS_STAT.STATE, QX.FETCH), (R.RST_QS_STAT.ROUND, 0)]
  qsAsk a.src a.session (qsMissing (← st))
  mark K.qsNew

/-- Repair round n begins; one without neighbours to ask is over at once, and after the third comes the source fetch (R364). -/
def qsRound (a : QsAnn) (n : Nat) : M o Unit := do
  let s ← st
  let ns := qsNeighbours s n
  eff (.qs fun q => { q with asked := [] })
  wrs [(R.RST_QS_STAT.STATE, QX.REPAIR), (R.RST_QS_STAT.ROUND, n)]
  mark K.qsReq
  each (ns.zipIdx) fun x => qsAsk x.1 a.session (dealt (qsMissing s) ns.length x.2)

/-- The next round that has someone to ask, from round n on, else the source fetch. -/
def qsRoundFrom (a : QsAnn) (n : Nat) : M o Unit := do
  let s ← st
  match [1, 2, 3].find? fun r => decide (n ≤ r) && !(qsNeighbours s r).isEmpty with
  | some r => qsRound a r
  | none => qsFetch a

/-- A round whose requests have all been answered ends (R364). -/
def qsAnswered : M o Unit := do
  let s ← st
  match s.qs.ann with
  | none => pure ()
  | some a =>
    if s.rd R.RST_QS_STAT.STATE = QX.REPAIR ∧ s.qs.asked = [] then qsRoundFrom a (s.rd R.RST_QS_STAT.ROUND + 1) else pure ()

/-- Blocks of a request were answered. -/
def qsUnask (bs : List (Bool × Nat)) : M o Unit := eff (.qs fun q => { q with asked := q.asked.filter fun b => !bs.contains b })

/-- Bytes of a block that this module holds for a session, as its source or in its bitmap (R365). -/
def qsHeld (s : State) (session : Nat) (b : Bool × Nat) : Option (List Byte) :=
  match s.qs.src with
  | some a =>
    if a.session = session ∧ b.2 < (if b.1 then a.nTable else a.nData) then some (if b.1 then qsTable s a b.2 else qsData s a b.2)
    else none
  | none => match s.qs.ann with
    | some a =>
      if a.session = session ∧ s.qs.have_.contains b then
        (if b.1 then qsWhole s true b.2
         else if a.kind = 1 then some (peek s (slotBase (inactiveSlot s) + a.base + 4096 * b.2) 4096)
         else some (wordBytes s.qs.img (1024 * b.2) 1024))
      else none
    | none => none

/-! The end of a session (R366, R367). -/

/-- INCOMPLETE: the receiver waits for the next session that names it, with FAULT_N asserted; at a start it stays at step 9 (R367). -/
def qsIncomplete : M o Unit := do
  let s ← st
  let n := (qsMissing s).length
  setF R.RST_QS_STAT.INCOMPLETE
  wrs [(R.RST_QS_STAT.STATE, QX.LISTEN), (R.RST_QS_STAT.ROUND, 0)]
  ev E.QUICKSET_INCOMPLETE SK.fw 0 [I.COUNT n]
  faultCond R.RST_FAULT.QUICKSET true
  when_ (qsWaiting s) (do
    eff (.nor fun x => { x with reason := 0x12, lastStep := 9, counted := false })
    showRecord
    beginWait 2)

/-- A firmware image in staging verifies: layout, kind, signature and security version (R366, R413, R415). -/
def qsImageOk (s : State) (kind : Nat) : Bool :=
  let t := s.qs.img
  kindLenOk t && hdr t 0x14 2 == kind && sigOk t (hdr t 0x10 4) && decide (s.nv.fuses.svn ≤ hdr t 0xC 2)

/-- A session that passed: its image is released, stored or marked (R366, Table 11-9). -/
def qsPass (a : QsAnn) : M o Unit := do
  let s ← st
  wrs [(R.RST_QS_STAT.STATE, QX.DONE), (R.RST_QS_STAT.DONE, 1)]
  faultCond R.RST_FAULT.QUICKSET false
  if a.kind = 0 then useCoreFw (imageOf s.qs.img)
  else if a.kind = 2 then do
    let x := imageOf s.qs.img
    eff (.nor fun n => { n with slotR := x, slotF := x, slotWord := .valid })
    let src ← freeBits 3
    moduleStage3 (1 + src % 7) SK.fw false
    eff (.nor fun n => { n with counted := false })
  else when_ (decide (a.imageLen ≤ a.base + 4096 * a.nData)) (do
    markSlot (inactiveSlot s) true
    when_ (a.onBoot && qsWaiting s) (do
      let k := inactiveSlot s
      eff (.super fun x => { x with active := k })
      wr R.MEM_VLT_STAT.ACTIVE_SLOT k
      commitJournal
      eff (.mem fun m => { m with landed := [] })
      ev E.PLAN_ACTIVATED SK.fw 0 [I.VALUE k]
      checkOwner)
    when_ (qsWaiting s) (beginWait 2))

/-- A session whose signature check failed: the image is discarded (R366). -/
def qsFail (a : QsAnn) : M o Unit := do
  setF R.RST_QS_STAT.SIG_FAIL
  eff (.qs fun q => { q with img := [], have_ := [], parts := [] })
  qsDrop
  when_ (decide (a.kind = 1)) (markSlot (inactiveSlot (← st)) false)
  qsIncomplete

end Sys2Proof.Machine
end

