-- ==== Sys2Proof/Machine/ReadOps.lean ====
section
/-!
DEFINITION. BAR0 as a reader sees it (R8, R441, R445): the registers whose value stands elsewhere in State, the windows, and the hidden PART
windows.
-/

namespace Sys2Proof.Machine

variable {o : State}

/-- Whole milliseconds since an instant, at most 0xFFFF; the instant is kept as one more than its ns, 0 for never. -/
def msSince (s : State) (t : Nat) : Nat := if t = 0 then 0xFFFF else min 0xFFFF ((s.clk.mono + 1 - t) / 1000000)

/-- Seconds before the confirmation deadline, a part of a second counted whole; 0 when none runs (UPD_CONFIRM, R417, R421; log entry 44). -/
def confirmLeft (s : State) : Nat :=
  if s.nv.nor.updState = UP.UNCONFIRMED then (tget 0 s.clk.seen K.confirm + s.nv.nor.confirmS * 1000000000 - s.clk.mono + 999999999) / 1000000000
  else 0

/-- VERSION in slot R of the kind that was programmed, while PROGRAMMED or UNCONFIRMED (UPD_VER_NEW). -/
def versionNew (s : State) : Nat :=
  let n := s.nv.nor
  if n.updState = UP.PROGRAMMED ∨ n.updState = UP.UNCONFIRMED then (if n.updKind = 2 then n.coreR.version else n.slotR.version) else 0

/-- A register word with some fields replaced by their live values. -/
def live : Nat → List (Fld × Nat) → Nat
  | w, [] => w
  | w, (f, v) :: t => live (fset w f.lo f.w v) t

/-- One for true. -/
def bit (b : Bool) : Nat := if b then 1 else 0

/-- The word of a register as it reads now. -/
def regShown (s : State) (k : RegKind) (ix : List Nat) : Nat :=
  let w := (regWord s k ix).toNat
  match k with
  | .HIF_EG_STAT => live 0 [(R.HIF_EG_STAT.OPEN, bit (!gateClosed s)), (R.HIF_EG_STAT.HOLD, bit (s.ctl.mode == .hold)),
      (R.HIF_EG_STAT.CLIP_LAG, s.rd R.PWR_STAT.CLIP_LAG), (R.HIF_EG_STAT.NOT_SERVING, bit (s.ctl.mode != .run && s.ctl.mode != .hold)),
      (R.HIF_EG_STAT.QUEUED, s.host.gateQ.length)]
  | .HIF_EG_LEVEL => ux 32 (s.host.level / 1000)
  | .MEM_VLT_BUDGET => if s.ctl.doneTrain then s.vlt.wear else 0
  | .MEM_VLT_WRITTEN_LO => if s.ctl.doneTrain then s.vlt.written % 2 ^ 32 else 0
  | .MEM_VLT_WRITTEN_HI => if s.ctl.doneTrain then s.vlt.written / 2 ^ 32 % 2 ^ 32 else 0
  | .EVT_CODE_CFG =>
    let c := s.rd R.EVT_CODE_SEL.CODE
    live 0 [(R.EVT_CODE_CFG.EXEMPT, bit (exempt c)), (R.EVT_CODE_CFG.BURST, (codeCfg s c).1), (R.EVT_CODE_CFG.RATE, (codeCfg s c).2)]
  | .EVT_CODE_DROP => tget 0 s.rcd.drops (s.rd R.EVT_CODE_SEL.CODE)
  | .RST_PIN_STAT => live w [(R.RST_PIN_STAT.PERST_N, 1), (R.RST_PIN_STAT.MRST_N, bit (!s.ctl.mrstLow)), (R.RST_PIN_STAT.EPO_N, bit (!s.hs.epo)),
      (R.RST_PIN_STAT.MATE, bit s.hs.mated)]
  | .RST_LEASE => live w [(R.RST_LEASE.MS_SINCE, msSince s (tget 0 s.clk.seen K.lease))]
  | .FZ_MEMBER => live w [(R.FZ_MEMBER.MS_SINCE, msSince s (match s.fab.renewed with
      | some t => t + 1
      | none => 0))]
  | .FZ_TIME_LO => s.clk.time.toNat % 2 ^ 32
  | .FZ_TIME_HI => s.fab.hiLatch.toNat
  | .UPD_CONFIRM => confirmLeft s
  | .UPD_SVN => live 0 [(R.UPD_SVN.STAGED, hdr s.upd.staging 0xC 2), (R.UPD_SVN.COUNTER, s.nv.fuses.svn)]
  | .UPD_VER_NEW => versionNew s
  | _ => w

/-! Windows (Tables 12-2 and 12-4). -/

/-- The UPD staging window. -/
def inStaging (off : Nat) : Bool := decide (0x3100000 ≤ off) && decide (off < 0x4000000)

/-- The recorder window. -/
def inEvtWin (off : Nat) : Bool := decide (0x480000 ≤ off) && decide (off < 0x500000)

/-- The PWR block. -/
def inPwr (off : Nat) : Bool := decide (0x200000 ≤ off) && decide (off < 0x300000)

/-- The GRD block. -/
def inGrd (off : Nat) : Bool := decide (0x300000 ≤ off) && decide (off < 0x400000)

/-- The PART windows. -/
def inParts (off : Nat) : Bool := decide (0x1000000 ≤ off) && decide (off < 0x1800000)

/-- A PART offset that reads 0 and ignores writes (R445). -/
def partHidden (s : State) (off : Nat) : Bool :=
  inParts off && (s.ctl.mode == .minimal || s.ctl.mode == .mfgTest ||
    (unavail s ((off - 0x1000000) / 0x100000) && !(decide (0x10000 ≤ off % 0x100000) && decide (off % 0x100000 < 0x10400))))

/-- Page `i` of the recorder region as it stands: in staging, else in the vault (R433). -/
def evtPage (s : State) (i : Nat) : List Byte :=
  match s.rcd.stage.find? fun p => p.idx == i with
  | some p => pageImage p.bytes
  | none => if i < s.nv.super.pages then peek s (evtBase + 4096 * i) 4096 else List.replicate 4096 0xFF

/-- `n` bytes of the recorder region from offset `a`. -/
def evtBytes (s : State) (a n : Nat) : List Byte :=
  (((List.range ((a % 4096 + n + 4095) / 4096)).flatMap fun i => evtPage s (a / 4096 + i)).drop (a % 4096)).take n

/-- The word at an aligned BAR0 offset (R441). -/
def readWord (s : State) (off : Nat) : BitVec 32 :=
  if partHidden s off then 0
  else if inStaging off then tget 0 s.upd.staging ((off - 0x3100000) / 4)
  else if inEvtWin off then BitVec.ofNat 32 (leNat (evtBytes s (524288 * s.rd R.EVT_WIN.SEL + (off - 0x480000)) 4))
  else if inTables off then tableGet s off
  else match regAt off with
    | some (k, ix) => BitVec.ofNat 32 (regShown s k ix)
    | none => 0

/-- Read one word: a read of FZ_TIME_LO latches FZ_TIME_HI (R442). -/
def fetchWord (off : Nat) : M o (BitVec 32) := do
  let s ← st
  when_ (decide (off = regOff .FZ_TIME_LO [])) (eff (.fab fun f => { f with hiLatch := BitVec.ofNat 32 (s.clk.time.toNat / 2 ^ 32) }))
  return readWord s off

/-- Read `n` words from an offset, the lowest first. -/
def fetchWords : Nat → Nat → M o (List (BitVec 32))
  | 0, _ => return []
  | n + 1, off => do
    let w ← fetchWord off
    let t ← fetchWords n (off + 4)
    return w :: t

end Sys2Proof.Machine
end

