-- ==== Sys2Proof/Machine/UpdateOps.lean ====
section
/-!
DEFINITION. The update at work: staging writes, CHECK, PROGRAM and CANCEL (R416), activation and its votes (R417 to R419), confirmation and
revert (R420, R421), and the switch of the plan slot (R424, R437).
-/

namespace Sys2Proof.Machine

variable {o : State}

/-! UPD_CTL. -/

/-- A word lands in the staging window; CHECKED falls back to IDLE (R416). -/
def stagingPut (off : Nat) (v : BitVec 32) : M o Unit := do
  eff (.upd fun u => { u with staging := tset 0 u.staging ((off - 0x3100000) / 4) v })
  when_ (decide ((← rd R.UPD_STAT.STATE) = UP.CHECKED)) (setUpd UP.IDLE)

/-- A request refused with ERR STATE (R416). -/
def updRefuse : M o Bool := do
  wr R.UPD_STAT.ERR UE.STATE
  return false

/-- UPD_CTL.CHECK: the staged image is checked (R413, R415, R416, R422). Answers whether it was accepted. -/
def updCheck : M o Bool := do
  let s ← st
  let x := s.rd R.UPD_STAT.STATE
  if x = UP.PROGRAMMING ∨ x = UP.ACTIVATING ∨ x = UP.UNCONFIRMED ∨ x = UP.REVERTING then updRefuse
  else do
    let r := checkImage s s.upd.staging
    (if r.1 = UE.NONE then setUpd UP.CHECKED
    else do
      wrs [(R.UPD_STAT.ERR, r.1), (R.UPD_STAT.BLOCK, r.2)]
      setUpd UP.REJECTED)
    return true

/-- UPD_CTL.PROGRAM: accepted in CHECKED alone; slot R of the image's kind is WRITING until PROGRAM_DONE (R414, R416). -/
def updProgram : M o Bool := do
  let s ← st
  if s.rd R.UPD_STAT.STATE ≠ UP.CHECKED then updRefuse
  else do
    let x := { imageOf s.upd.staging with ok := false }
    eff (.nor fun n =>
      if x.kind = 2 then { n with coreR := x, coreWord := .writing, updKind := 2 } else { n with slotR := x, slotWord := .writing, updKind := 1 })
    setUpd UP.PROGRAMMING
    return true

/-- UPD_CTL.CANCEL: CHECKED and REJECTED return to IDLE (R416). -/
def updCancel : M o Unit := do
  let x ← rd R.UPD_STAT.STATE
  when_ (decide (x = UP.CHECKED ∨ x = UP.REJECTED)) (setUpd UP.IDLE)

/-! Activation. -/

/-- The module is ready to change its firmware (R417): READY with SERVE 0 and no admitted phase, or MINIMAL. -/
def updReady (s : State) : Bool :=
  s.ctl.mode == .minimal || (s.ctl.mode == .ready && s.rd R.HIF_CTL.SERVE == 0 && (running s).isEmpty)

/-- Module firmware runs from an image (Table 11-8): it is measured and its version shows. -/
def runFw (x : FwImg) : M o Unit := do
  eff (.ctl fun c => { c with fw := x })
  wr R.UPD_VER_RUN.VERSION x.version
  eff (.sec fun y => { y with meas := tset [] y.meas 2 (Config.sha512 (wordBytes x.words 0 (16384 * 24))) })

/-- An update reverts in service (R421): firmware from slot F is in use, and slot F goes back into slot R. -/
def revertNow : M o Unit := do
  let n := (← st).nv.nor
  setUpd UP.REVERTING
  (if n.updKind = 2 then eff (.ctl fun c => { c with coreFw := some n.coreF }) else runFw n.slotF)
  revertUpd n.updKind

/-- An armed activation does not happen (R417, R418): STATE stays PROGRAMMED. -/
def abortAct (err : Nat) : M o Unit := do
  wr R.UPD_STAT.ERR err
  updEvent FU.ACT_ABORTED (versionNew (← st))

/-- Module firmware is activated, not by a module reset (Table 11-8). -/
def activateFw : M o Unit := do
  setUpd UP.ACTIVATING
  let s ← st
  if slotOk s s.nv.nor.slotR then do
    runFw s.nv.nor.slotR
    setFallback false
    startDeadline
    updEvent FU.ACTIVATED s.nv.nor.slotR.version
  else revertNow

/-- The armed activation fires at T_A (R417 to R419, R257). -/
def activationFires (grp secs : Nat) : M o Unit := do
  noteUnlocked
  let s ← st
  if s.rd R.UPD_STAT.STATE ≠ UP.PROGRAMMED ∨ !updReady s then abortAct UE.STATE
  else if grp ≠ 0 ∧ !s.upd.voted then abortAct UE.VOTE_FAIL
  else do
    eff (.nor fun n => { n with confirmS := secs })
    if s.nv.nor.updKind = 2 ∨ s.ctl.mode = .minimal then askModule 5 SK.fw else activateFw

/-! Plan slots (R424). -/

/-- The named slot may become active: verified, and every context slot UNBOUND. -/
def planReady (s : State) (slot : Nat) : Bool :=
  (if slot = 0 then s.nv.super.verA else s.nv.super.verB) && (List.range 64).all fun c => s.rd (R.HIF_CTX_STATc.STATE c) == CS.UNBOUND

/-- The active plan slot changes, by one journal commit; the new image's ranges are still to load, and its key is checked (R424, R437, R162). -/
def planSwitch (slot : Nat) : M o Unit := do
  eff (.super fun x => { x with active := slot })
  wr R.MEM_VLT_STAT.ACTIVE_SLOT slot
  commitJournal
  eff (.mem fun m => { m with landed := [] })
  ev E.PLAN_ACTIVATED SK.fw 0 [I.VALUE slot]
  checkOwner

end Sys2Proof.Machine
end

