-- ==== Sys2Proof/Machine/AccessOps.lean ====
section
/-!
DEFINITION. BAR0 as a writer sees it (R8, R9, R403, R441, R442, R445, R448): the access codes of Table 00-9, what a write of each register
does beyond them, the windows, and the WRITE records.
-/

namespace Sys2Proof.Machine

variable {o : State}


/-- Some field of a register can be written. -/
def writable (k : RegKind) : Bool := (regRow k).flds.any fun f => decide (f.acc ≠ .ro)

/-- Fields take a written word by their access codes (Table 00-9): RW sets, RW1C clears the bits written 1. -/
def putFlds (k : RegKind) (ix : List Nat) (v : Nat) : List FldRow → M o Unit
  | [] => pure ()
  | f :: t => do
    let x := fget v f.lo f.w
    (match f.acc with
    | .rw => wr ⟨k, ix, f.lo, f.w⟩ x
    | .rw1c => do
      let cur ← rd ⟨k, ix, f.lo, f.w⟩
      wr ⟨k, ix, f.lo, f.w⟩ (cur - (cur &&& x))
    | _ => pure ())
    putFlds k ix v t

/-- A register takes a written word. -/
def putReg (k : RegKind) (ix : List Nat) (v : Nat) : M o Unit := putFlds k ix v (regRow k).flds

/-- A register whose bits the settings store holds takes a word there too (log entry 46). -/
def putSetting (k : RegKind) (ix : List Nat) : M o Unit := do
  let w := (regWord (← st) k ix).toNat
  eff (.settings fun x => { x with regs := tset 0 x.regs (regOff k ix) (BitVec.ofNat 32 (w &&& settingsMask k)) })

/-! Ring pairs (R173, R180, R370). -/

/-- EN or ACTIVE is 1. -/
def ringLive (s : State) (n : Nat) : Bool := s.rd (R.HIF_RING_CFGn.EN n) == 1 || s.rd (R.HIF_RING_STATn.ACTIVE n) == 1

/-- The RW fields of a written word differ from what the register holds. -/
def changes (s : State) (k : RegKind) (ix : List Nat) (v mask : Nat) : Bool := (v &&& mask) != ((regWord s k ix).toNat &&& mask)

/-- A base of ring pair n: fixed while EN or ACTIVE is 1 (R173). -/
def putBase (k : RegKind) (n v : Nat) : M o Bool := do
  let s ← st
  if ringLive s n && changes s k [n] v (regMask k) then return false
  else do
    putReg k [n] v
    return true

/-- HIF_RING_CFGn: a write that changes a size or VEC of a live pair, or that enables one still ACTIVE or in MINIMAL, is ignored (R173, R370). -/
def putRingCfg (n v : Nat) : M o Bool := do
  let s ← st
  let en := fget v 31 1 == 1
  if ringLive s n && changes s .HIF_RING_CFGn [n] v (2 ^ 31 - 1 &&& regMask .HIF_RING_CFGn) then return false
  else if en && s.ctl.mode == .minimal then return false
  else if en && s.rd (R.HIF_RING_CFGn.EN n) == 0 && s.rd (R.HIF_RING_STATn.ACTIVE n) == 1 then return false
  else do
    when_ (!ringLive s n) (putReg .HIF_RING_CFGn [n] (v % 2 ^ 31))
    (if en && s.rd (R.HIF_RING_CFGn.EN n) == 0 then enableRing n
    else when_ (!en && s.rd (R.HIF_RING_CFGn.EN n) == 1) (disableRing n))
    return true

/-- HIF_CTL: SERVE is ignored in FENCED and while re-admission is pending (R204, R395). -/
def putHifCtl (v : Nat) : M o Bool := do
  let s ← st
  putReg .HIF_CTL [] (fset v 31 1 (s.rd R.HIF_CTL.SERVE))
  when_ (decide (s.rd R.RST_ESC_STAT.READMIT_PEND = 0)) (setServe (fget v 31 1 == 1))
  return true

/-- A word of the MSI-X table: unmasking a vector sends its pending message (R172). -/
def putMsix (v4 i v : Nat) : M o Unit := do
  putReg .HIF_MSIX [v4, i] v
  let p ← rd (R.HIF_PBA.PEND (v4 / 32))
  when_ (decide (i = 3 ∧ v % 2 = 0 ∧ fget p (v4 % 32) 1 = 1)) (do
    wr (R.HIF_PBA.PEND (v4 / 32)) (fset p (v4 % 32) 1 0)
    send (.msix v4))

/-! The fabric's registers. -/

/-- FZ_PORT_CTL (R209, R211, R215): EN brings the port up or disables it, FORCE_HOLD holds or releases it, BER_NOW asks for a test. -/
def putPortCtl (n v : Nat) : M o Bool := do
  let s ← st
  let en := s.rd (R.FZ_PORT_CTL.EN n)
  let hold := s.rd (R.FZ_PORT_CTL.FORCE_HOLD n)
  putReg .FZ_PORT_CTL [n] v
  putSetting .FZ_PORT_CTL [n]
  when_ (decide (hold ≠ fget v 30 1)) (holdPort n (fget v 30 1 == 1))
  (if en = 0 ∧ fget v 31 1 = 1 then bringUp n else when_ (decide (en = 1 ∧ fget v 31 1 = 0)) (disablePort n))
  when_ (fget v 29 1 == 1) (askTest n)
  return true

/-- FZ_BANK_CTL (R237, R238): its actions, COPY before SEAL before CANCEL before ARM (log entry 47). Answers whether none was refused. -/
def putBankCtl (v : Nat) : M o Bool := do
  let copied ← if fget v 30 1 = 1 then bankCopy else pure true
  when_ (fget v 31 1 == 1) bankSeal
  when_ (fget v 28 1 == 1) bankCancel
  let armed ← if fget v 29 1 = 1 then bankArm else pure true
  return copied && armed

/-- FZ_TIME_CFG: ROOT written 1 in service makes the module root at once (R256). -/
def putTimeCfg (v : Nat) : M o Bool := do
  putReg .FZ_TIME_CFG [] v
  putSetting .FZ_TIME_CFG []
  let s ← st
  when_ (fget v 31 1 == 1 && serving s && s.rd R.FZ_TIME_STAT.TSTATE != TS.ROOT) (becomeRoot (nextEpoch s))
  return true

/-- FZ_TIME_SET_HI: at the root it sets TIME (R252). -/
def putTimeHi (v : Nat) : M o Bool := do
  putReg .FZ_TIME_SET_HI [] v
  let s ← st
  when_ (s.rd R.FZ_TIME_STAT.TSTATE == TS.ROOT)
    (eff (.setTime (BitVec.ofNat 64 (s.rd R.FZ_TIME_SET_LO.TIME + 2 ^ 32 * s.rd R.FZ_TIME_SET_HI.TIME))))
  return true

/-! Resets, firmware and records. -/

/-- HOST_FW_GO (R358, Table 09-8): a start that waits for it takes the staged image when that is general-core firmware that verifies, and
refuses any other so that the host can send another. Answers whether a start was waiting. -/
def hostFw : M o Bool := do
  let s ← st
  if s.ctl.mode == .start && !s.ctl.failed && s.ctl.waits.contains 2 && s.rd R.HIF_BOOT_STATUS.BOOT_SRC_USED == 1 then do
    when_ (decide ((checkImage s s.upd.staging).1 = UE.NONE) && hdr s.upd.staging 0x14 2 == 2) (do
      endWait 2
      useCoreFw (imageOf s.upd.staging))
    return true
  else return false

/-- The failed-start count clears (R371). -/
def clearFails : M o Unit := do
  eff (.nor fun n => { n with fails := 0 })
  showRecord

/-- A deeper rung is in progress over a context slot (R346). -/
def slotTaken (s : State) (c : Nat) : Bool :=
  moduleBusy s || (List.range 8).any fun p => partBusy s p && decide (fget (tget Ctx.init s.host.ctx c).pmask p 1 = 1)

/-- A rung that was asked for from outside, with its ESCALATE event (R342, R384; code 0x0A RST_REQ, 0x0B Worisy reset command): depth 4 the
module, 3 the partitions of a mask, else the slot's context. A rung in progress that takes it in records no event of the ladder. -/
def askRung (depth pmask slot code src kind : Nat) : M o Unit := do
  let s ← st
  if depth = 4 then do
    when_ (!moduleBusy s && s.ctl.mode != .mfgTest) (rungTaken 4 0 code 0)
    askModule src kind
  else if depth = 3 then
    each ((List.range 8).filter fun p => fget pmask p 1 == 1) fun p => do
      let s ← st
      when_ (!moduleBusy s && !partBusy s p && (serving s || s.ctl.mode == .fenced)) (rungTaken 3 (p * 8192) code 0)
      askPartition p src kind
  else do
    when_ (serving s && !slotTaken s slot) (rungTaken 1 0 code 0)
    contextRung slot src kind

/-- RST_REQ (R342, R371, R358): the deepest of MOD, PART and CTX acts, the first two by KEY. Answers whether the write acted. -/
def putRstReq (v src kind : Nat) : M o Bool := do
  let s ← st
  let key := decide (fget v 16 8 = 0x5A)
  let clr := fget v 28 1 == 1 && s.ctl.mode == .minimal
  when_ clr clearFails
  let go ← if fget v 27 1 = 1 then hostFw else pure false
  let depth := if fget v 31 1 = 1 then 4 else if fget v 30 1 = 1 then 3 else if fget v 29 1 = 1 then 1 else 0
  if depth = 0 then return clr || go || fget v 27 2 == 0
  else if depth ≠ 1 ∧ !key then return clr || go
  else do
    askRung depth (fget v 8 8) (fget v 0 6) 0xA src kind
    return true

/-- RST_QS_SRC_CTL: its settings, then CANCEL, then GO (R361). -/
def putQsCtl (v : Nat) : M o Bool := do
  putReg .RST_QS_SRC_CTL [] v
  when_ (fget v 30 1 == 1) qsCancel
  (when_ (fget v 31 1 == 1) (do
    let _ ← qsStart
    pure ()))
  return true

/-- RST_QS_STAT: clearing INCOMPLETE ends its FAULT_N condition (R324). -/
def putQsStat (v : Nat) : M o Unit := do
  putReg .RST_QS_STAT [] v
  when_ (decide ((← rd R.RST_QS_STAT.INCOMPLETE) = 0)) (faultCond R.RST_FAULT.QUICKSET false)

/-- PART_ENG_RST with GO asks for an engine reset (R93): ignored while one is BUSY, or for a unit that the partition does not have. -/
def putEngRst (p v : Nat) : M o Bool := do
  if fget v 31 1 = 0 then return true
  else if uPart (fget v 0 16) = p then askEngine (fget v 0 16) 0 SK.hw
  else return false

/-- EVT_CODE_CFG of the selected code: an exempt code keeps its own (R428). -/
def putCodeCfg (v : Nat) : M o Bool := do
  let s ← st
  let c := s.rd R.EVT_CODE_SEL.CODE
  if exempt c then return false
  else do
    let t := tokensOf s c
    eff (.rcd fun r => { r with cfg := tset (64, 16) r.cfg c (fget v 8 8, fget v 0 8), tokens := tset 0 r.tokens c (t + 1) })
    return true

/-- UPD_CTL: CHECK, then PROGRAM, then CANCEL (R416). Answers whether none was refused. -/
def putUpdCtl (v : Nat) : M o Bool := do
  let a ← if fget v 31 1 = 1 then updCheck else pure true
  let b ← if fget v 30 1 = 1 then updProgram else pure true
  when_ (fget v 29 1 == 1) updCancel
  return a && b

/-- DROPPED of the error log: each 1 written clears its bit (Table 00-9), so that all ones clear the count. -/
def putErrLog (v : Nat) : M o Unit := do
  let d ← rd R.MEM_ERRLOG_STAT.DROPPED
  wr R.MEM_ERRLOG_STAT.DROPPED (d - (d &&& fget v 0 16))

/-- A mailbox word of core g (R115). -/
def putMbox (p g n v : Nat) : M o Bool := do
  mboxPut p g n v
  return true

/-- A register takes a written word, with what the write does beyond its access codes. Answers whether the governing rules let it act. -/
def regPut (k : RegKind) (ix : List Nat) (v src kind : Nat) : M o Bool :=
  let i := ix.headD 0
  let j := ix.getD 1 0
  match k with
  | .HIF_RING_CFGn => putRingCfg i v
  | .HIF_RING_SQB_LOn | .HIF_RING_SQB_HIn | .HIF_RING_CQB_LOn | .HIF_RING_CQB_HIn => putBase k i v
  | .FZ_BANK_CTL => putBankCtl v
  | .RST_REQ => putRstReq v src kind
  | .RST_QS_SRC_CTL => putQsCtl v
  | .PART_ENG_RST => putEngRst i v
  | .EVT_CODE_CFG => putCodeCfg v
  | .UPD_CTL => putUpdCtl v
  | .HIF_CTL => putHifCtl v
  | .FZ_PORT_CTL => putPortCtl i v
  | .FZ_TIME_CFG => putTimeCfg v
  | .FZ_TIME_SET_HI => putTimeHi v
  | .PART_CORE_MBOXn => putMbox i j (ix.getD 2 0) v
  | _ => do
    (match k with
    | .HIF_MSIX => putMsix i j v
    | .FZ_PORT_MAP | .FZ_PORT_ASYM | .FZ_VERIFY_CFG => do
      putReg k ix v
      putSetting k ix
    | .RST_QS_STAT => putQsStat v
    | .MEM_ERRLOG_STAT => putErrLog v
    | .PART_CORE_IPENDm | .PART_CORE_IMASKm => do
      putReg k ix v
      refreshCore i j
    | _ => putReg k ix v)
    return true

/-- What a written word does to a register of kind `k`, by `put`, and its RESULT (R448). -/
def regResult (k : RegKind) (v : Nat) (put : M o Bool) : M o Nat := do
  if !writable k then return WR.REFUSED
  else if !(← put) then return WR.REFUSED
  else return if v &&& regMask k = v then WR.APPLIED else WR.RSV

/-- A word of the staging window. -/
def putStaging (off v : Nat) : M o Nat := do
  stagingPut off (BitVec.ofNat 32 v)
  return WR.APPLIED

/-- A word of a table window. -/
def putTable (off v : Nat) : M o Nat := do
  tablePut (tableOff (← st) off) (BitVec.ofNat 32 v)

/-- A write of one word to an aligned offset: what it does and its RESULT (R448). -/
def putWord (off v src kind : Nat) : M o Nat := do
  if partHidden (← st) off || inEvtWin off then return WR.REFUSED
  else if inStaging off then putStaging off v
  else if inTables off then putTable off v
  else match regAt off with
    | none => return WR.REFUSED
    | some (k, ix) => regResult k v (regPut k ix v src kind)

/-- The window that an offset lies in, for a merged record (R404): the staging, recorder, directory, gateway and child windows. -/
def windowOf (off : Nat) : Option Nat :=
  if inStaging off then some 0x3100000
  else if inEvtWin off then some 0x480000
  else if inTables off then some (if 0x600000 ≤ off then 0x600000 else if 0x580000 ≤ off then 0x580000 else if 0x542000 ≤ off then 0x542000 else 0x540000)
  else none

/-- Registers that show a bound of Table 11-6: the ceilings and the highest point, the guard's thresholds, the wear counter and its fuses, the
security version counter and the owner key slots (log entry 131). -/
def boundRegs : List RegKind :=
  [.PWR_STAT, .PWR_CLIP, .PWR_CLIP_IN, .PWR_OP, .PWR_OPVk, .GRD_STAT, .GRD_CHc, .GRD_THRk, .MEM_VLT_BUDGET, .MEM_VLT_FUSE, .UPD_SVN, .RST_SEC]

/-- A write by module firmware that would cross a bound of Table 11-6 (R412). -/
def crossesBound (src : Src) (off res : Nat) : Bool :=
  decide (src = .firmware) && res == WR.REFUSED && (regAt off).any fun x => boundRegs.contains x.1

/-- The WRITE record of one word (R404), and the BOUND_VIOLATION event that names the bound, by its register's offset, and the attempted value
(R412). -/
def wordRec (src : Src) (off v res : Nat) : M o Unit := do
  (match windowOf off with
  | some w => writeRec (Src.kind src) (2 ^ 48 + w) off res
  | none => writeRec (Src.kind src) off v res)
  when_ (crossesBound src off res) (evRaw E.BOUND_VIOLATION SK.hw 0 [I.VALUE off, I.VALUE v])

/-- Reset source of a register request (Table 09-1). -/
def srcCode : Src → Nat
  | .worA | .worB => 5
  | _ => 4

/-- A REG_WRITE may not reach RST_REQ or the PWR block (R403). -/
def commandOnly (off : Nat) : Bool := decide (off = regOff .RST_REQ []) || inPwr off

/-- One recorded word write from a source. -/
def barWord (src : Src) (off v : Nat) : M o Unit := do
  let res ← if (decide (src = .worA) || decide (src = .worB)) && commandOnly off then pure WR.REFUSED
    else putWord off v (srcCode src) (Src.kind src)
  wordRec src off v res

/-- A register write reaches the module: it is powered and out of reset, not in manufacturing test over Worisy, and a host request passes the
IDE rule (R440, Table 09-9). An access that IDE refuses answers Unsupported Request and is recorded. -/
def barAccess (src : Src) (off v : Nat) (m : M o Unit) : M o Unit := do
  let s ← st
  if s.ctl.mode = .off ∨ (s.ctl.mode = .mfgTest ∧ src ≠ .bar0) then pure ()
  else if src = .bar0 ∧ ideBlocks s then do
    wordRec src off v WR.REFUSED
    send .unsupportedRequest
  else m

/-- A recorded word write whose offset's meaning is known. -/
def recorded (src : Src) (off v : Nat) (put : M o Nat) : M o Unit :=
  barAccess src off v (do
    let res ← if (decide (src = .worA) || decide (src = .worB)) && commandOnly off then pure WR.REFUSED else put
    wordRec src off v res)

/-- One word written to the register of kind `k` and indices `ix`, which `put` takes. -/
def barReg (src : Src) (k : RegKind) (ix : List Nat) (v : Nat) (put : M o Bool) : M o Unit :=
  recorded src (regOff k ix) v (do
    if partHidden (← st) (regOff k ix) then return WR.REFUSED
    else regResult k v put)

/-- The bits of a register's RW fields. -/
def rwMask (k : RegKind) : Nat := (regRow k).flds.foldl (fun m f => if f.acc = .rw then m ||| (2 ^ f.w - 1) * 2 ^ f.lo else m) 0

/-- One field of a register written, its other RW fields as they stand; `put` takes the word. -/
def barField (src : Src) (f : Fld) (v : Nat) (put : Nat → M o Bool) : M o Unit := do
  let w := fset ((regWord (← st) f.k f.ix).toNat &&& rwMask f.k) f.lo f.w v
  barReg src f.k f.ix w (put w)

/-- A BAR0 write of `len` bytes (R442): aligned 32-bit and 64-bit accesses act, the lower word first; any other is refused. -/
def barBytes (src : Src) (off len v : Nat) : M o Unit :=
  barAccess src off v
    (if off % 4 = 0 ∧ len = 4 then barWord src off (v % 2 ^ 32)
    else if off % 8 = 0 ∧ len = 8 then do
      barWord src off (v % 2 ^ 32)
      barWord src (off + 4) (v / 2 ^ 32)
    else wordRec src off v WR.REFUSED)

end Sys2Proof.Machine
end

