-- ==== Sys2Proof/Machine/Access.lean ====
section
/-!
DEFINITION. Register writes: REGISTER_WRITE and the rows that name the write of one register or window, and the rungs asked for through RST_REQ
or otherwise (R342, R372).
-/

namespace Sys2Proof.Machine

/-- REGISTER_WRITE (R8, R9, R441, R442): a BAR0 write of `len` bytes of `v`. -/
def execRegisterWrite (src : Src) (off len : Nat) (v : BitVec 64) (s : State) : Host.Outcome State Fault Refusal :=
  act (Instr.wf (.registerWrite src off len v)) s (barBytes src off len v.toNat)

/-- A write of RST_REQ. -/
def rstReq {o : State} (src : Src) (v : Nat) : M o Unit := barReg src .RST_REQ [] v (putRstReq v (srcCode src) (Src.kind src))

/-- HOST_FW_GO (R358): RST_REQ.HOST_FW_GO. -/
def execHostFwGo (src : Src) (s : State) : Host.Outcome State Fault Refusal :=
  act (Instr.wf (.hostFwGo src)) s (rstReq src (2 ^ 27))

/-- A reset that another agent than host software asks for: a Worisy command with its ESCALATE event, or a source of Table 09-1 that asks at once. -/
def otherRung {o : State} (why : ResetWhy) (depth pmask slot : Nat) : M o Unit :=
  if why = .worA ∨ why = .worB then askRung depth pmask slot 0xB (whyCode why) (whyKind why)
  else if depth = 4 then askModule (whyCode why) (whyKind why)
  else if depth = 3 then askPartitions pmask (whyCode why) (whyKind why)
  else contextRung slot (whyCode why) (whyKind why)

/-- MODULE_RESET (R341, R342): the module rung, by RST_REQ.MOD with its KEY when host software asks. -/
def execModuleReset (why : ResetWhy) (key : Nat) (s : State) : Host.Outcome State Fault Refusal :=
  act (Instr.wf (.moduleReset why key)) s
    (if why = .host then rstReq .bar0 (2 ^ 31 + key % 256 * 2 ^ 16) else otherRung why 4 0 0)

/-- PARTITION_RESET (R342, R372, R373). -/
def execPartitionReset (why : ResetWhy) (key : Nat) (pmask : Nat) (s : State) : Host.Outcome State Fault Refusal :=
  act (Instr.wf (.partitionReset why key pmask)) s
    (if why = .host then rstReq .bar0 (2 ^ 30 + key % 256 * 2 ^ 16 + pmask % 256 * 256) else otherRung why 3 pmask 0)

/-- CONTEXT_RESET (R342, R372). -/
def execContextReset (why : ResetWhy) (slot : Nat) (s : State) : Host.Outcome State Fault Refusal :=
  act (Instr.wf (.contextReset why slot)) s
    (if why = .host then rstReq .bar0 (2 ^ 29 + slot % 64) else otherRung why 1 0 slot)

/-- CLR_FAILS (R371): RST_REQ.CLR_FAILS. -/
def execClrFails (src : Src) (s : State) : Host.Outcome State Fault Refusal :=
  act (Instr.wf (.clrFails src)) s (rstReq src (2 ^ 28))

/-- ENGINE_RESET (R93): PART_ENG_RST with GO. -/
def execEngineReset (src : Src) (p unit : Nat) (s : State) : Host.Outcome State Fault Refusal :=
  act (Instr.wf (.engineReset src p unit)) s (barReg src .PART_ENG_RST [p] (2 ^ 31 + unit % 65536) (putEngRst p (2 ^ 31 + unit % 65536)))

/-- MBOX_WRITE (R115). -/
def execMboxWrite (src : Src) (p g n : Nat) (v : BitVec 32) (s : State) : Host.Outcome State Fault Refusal :=
  act (Instr.wf (.mboxWrite src p g n v)) s (barReg src .PART_CORE_MBOXn [p, g, n] v.toNat (putMbox p g n v.toNat))

/-- RING_ENABLE (R173). -/
def execRingEnable (src : Src) (n : Nat) (s : State) : Host.Outcome State Fault Refusal :=
  act (Instr.wf (.ringEnable src n)) s (barField src (R.HIF_RING_CFGn.EN n) 1 (putRingCfg n))

/-- RING_DISABLE (R180). -/
def execRingDisable (src : Src) (n : Nat) (s : State) : Host.Outcome State Fault Refusal :=
  act (Instr.wf (.ringDisable src n)) s (barField src (R.HIF_RING_CFGn.EN n) 0 (putRingCfg n))

/-- SERVE_START (R204). -/
def execServeStart (src : Src) (s : State) : Host.Outcome State Fault Refusal :=
  act (Instr.wf (.serveStart src)) s (barField src R.HIF_CTL.SERVE 1 putHifCtl)

/-- SERVE_STOP (R204). -/
def execServeStop (src : Src) (s : State) : Host.Outcome State Fault Refusal :=
  act (Instr.wf (.serveStop src)) s (barField src R.HIF_CTL.SERVE 0 putHifCtl)

/-- GATE_STOP (R193). -/
def execGateStop (src : Src) (v : Bool) (s : State) : Host.Outcome State Fault Refusal :=
  act (Instr.wf (.gateStop src v)) s (barField src R.HIF_CTL.GATE_STOP (bit v) putHifCtl)

/-- PORT_ENABLE (R209, R210). -/
def execPortEnable (src : Src) (n : Nat) (s : State) : Host.Outcome State Fault Refusal :=
  act (Instr.wf (.portEnable src n)) s (barField src (R.FZ_PORT_CTL.EN n) 1 (putPortCtl n))

/-- PORT_DISABLE (R211). -/
def execPortDisable (src : Src) (n : Nat) (s : State) : Host.Outcome State Fault Refusal :=
  act (Instr.wf (.portDisable src n)) s (barField src (R.FZ_PORT_CTL.EN n) 0 (putPortCtl n))

/-- FORCE_HOLD (FZ_PORT_CTL). -/
def execForceHold (src : Src) (n : Nat) (v : Bool) (s : State) : Host.Outcome State Fault Refusal :=
  act (Instr.wf (.forceHold src n v)) s (barField src (R.FZ_PORT_CTL.FORCE_HOLD n) (bit v) (putPortCtl n))

/-- BER_NOW (R215). -/
def execBerNow (src : Src) (n : Nat) (s : State) : Host.Outcome State Fault Refusal :=
  act (Instr.wf (.berNow src n)) s (barField src (R.FZ_PORT_CTL.BER_NOW n) 1 (putPortCtl n))

/-- DIRECTORY_WRITE (R221, R224, R237): a word of a table window at BAR0 offset `off`; any other offset is refused. -/
def execDirectoryWrite (src : Src) (off : Nat) (v : BitVec 32) (s : State) : Host.Outcome State Fault Refusal :=
  act (Instr.wf (.directoryWrite src off v)) s
    (recorded src off v.toNat (if off % 4 = 0 ∧ inTables off then putTable off v.toNat else pure WR.REFUSED))

/-- BANK_COPY (R237). -/
def execBankCopy (src : Src) (s : State) : Host.Outcome State Fault Refusal :=
  act (Instr.wf (.bankCopy src)) s (barField src R.FZ_BANK_CTL.COPY 1 putBankCtl)

/-- SEAL (R237). -/
def execSealBank (src : Src) (s : State) : Host.Outcome State Fault Refusal :=
  act (Instr.wf (.sealBank src)) s (barField src R.FZ_BANK_CTL.SEAL 1 putBankCtl)

/-- ARM (R238). -/
def execArm (src : Src) (s : State) : Host.Outcome State Fault Refusal :=
  act (Instr.wf (.arm src)) s (barField src R.FZ_BANK_CTL.ARM 1 putBankCtl)

/-- CANCEL (R238). -/
def execCancel (src : Src) (s : State) : Host.Outcome State Fault Refusal :=
  act (Instr.wf (.cancel src)) s (barField src R.FZ_BANK_CTL.CANCEL 1 putBankCtl)

/-- TIME_ROOT_SET (R256). -/
def execTimeRootSet (src : Src) (s : State) : Host.Outcome State Fault Refusal :=
  act (Instr.wf (.timeRootSet src)) s (barField src R.FZ_TIME_CFG.ROOT 1 putTimeCfg)

/-- TIME_SET (R252): a write of FZ_TIME_SET_HI. -/
def execTimeSet (src : Src) (hi : BitVec 32) (s : State) : Host.Outcome State Fault Refusal :=
  act (Instr.wf (.timeSet src hi)) s (barReg src .FZ_TIME_SET_HI [] hi.toNat (putTimeHi hi.toNat))

/-- UPDATE_CHECK (R416). -/
def execUpdateCheck (src : Src) (s : State) : Host.Outcome State Fault Refusal :=
  act (Instr.wf (.updateCheck src)) s (barField src R.UPD_CTL.CHECK 1 putUpdCtl)

/-- UPDATE_PROGRAM (R416). -/
def execUpdateProgram (src : Src) (s : State) : Host.Outcome State Fault Refusal :=
  act (Instr.wf (.updateProgram src)) s (barField src R.UPD_CTL.PROGRAM 1 putUpdCtl)

/-- UPDATE_CANCEL (R416). -/
def execUpdateCancel (src : Src) (s : State) : Host.Outcome State Fault Refusal :=
  act (Instr.wf (.updateCancel src)) s (barField src R.UPD_CTL.CANCEL 1 putUpdCtl)

/-- STAGING_WRITE (R416): a word of the staging window at BAR0 offset `off`; any other offset is refused. -/
def execStagingWrite (src : Src) (off : Nat) (v : BitVec 32) (s : State) : Host.Outcome State Fault Refusal :=
  act (Instr.wf (.stagingWrite src off v)) s
    (recorded src off v.toNat (if off % 4 = 0 ∧ inStaging off then putStaging off v.toNat else pure WR.REFUSED))

/-- QUICKSET_GO (R361). -/
def execQuicksetGo (src : Src) (s : State) : Host.Outcome State Fault Refusal :=
  act (Instr.wf (.quicksetGo src)) s (barField src R.RST_QS_SRC_CTL.GO 1 putQsCtl)

/-- QUICKSET_CANCEL (R361). -/
def execQuicksetCancel (src : Src) (s : State) : Host.Outcome State Fault Refusal :=
  act (Instr.wf (.quicksetCancel src)) s (barField src R.RST_QS_SRC_CTL.CANCEL 1 putQsCtl)

end Sys2Proof.Machine
end

