-- ==== Sys2Proof/Machine/Arrays.lean ====
section
/-!
DEFINITION. The array commands: the instructions of Table 02-5, the residue sweep (R54), bank completion (R73, R80) and the completion
of a rotation (R89, R120). An instruction's command carries out the instruction at the array's program counter; where the program holds
another instruction there, or the unit has no turn, it changes nothing (log entry 21).
-/

namespace Sys2Proof.Machine

/-- ARRAY_NOP (R74): nothing but the next instruction. -/
def execArrayNop (p n : Nat) (s : State) : Host.Outcome State Fault Refusal :=
  act (Instr.wf (.arrayNop p n)) s (arrTurn p n 0x00 Flt.none fun _ => retire p n)

/-- A TILE begins or goes on in bank `b`, its lanes at their start values, and retires (R71, R72). -/
def issueTile {o : State} (p n b x : Nat) (start ostart : Tbl Lane) : M o Unit := do
  upArr p n fun a =>
    let a := if tileInit x = 2 then a.setBank b { a.bank b with st := .filling, kb := (a.bank b).kb + tileKb x } else
      let acc := { Acc.free with
                    st := .filling, lanes := start, fp := !tileExact x, lsb := tileLsb x, pm := tilePm x, kb := tileKb x,
                    order := a.fills + 1 }
      { (a.setBank b acc).setObank b { acc with lanes := ostart } with fills := a.fills + 1 }
    let run : TileRun := ⟨BitVec.ofNat 128 x, b, effSlot a (tileBsel x) (tileX x), effSlot a (tileBsel x) (tileW x), 0, 0, [], [], [], []⟩
    { a with tiles := a.tiles ++ [run] }
  retire p n

/-- The starting lanes of a TILE with INIT load: each bank's image (R48, R53, R453). -/
def initLanes {o : State} (p n x : Nat) : M o (Except Nat (Tbl Lane × Tbl Lane)) := do
  let a ← arr p n
  let slot := effSlot a (tileBsel x) (tileInitSrc x)
  let conv := loadLanes (!tileExact x) (tileLsb x)
  match ← readStore p n slot 1088 with
  | .error e => return .error e
  | .ok b =>
    if tilePm x = 3 then return .ok (conv b, conv b)
    else if tilePm x = 1 then
      match ← readStore p (n + 1) slot 1088 with
      | .error e => return .error e
      | .ok c => return .ok (conv b, conv c)
    else return .ok (conv b, [])

/-- TILE (R72): streams one tile's operands into a bank; it waits for a free bank, and while two joined tiles are not emitted (R26). -/
def execTile (p n : Nat) (f : Flt) (s : State) : Host.Outcome State Fault Refusal :=
  act (Instr.wf (.tile p n f)) s do
    arrTurn p n 0x01 f fun x => do
      let a ← arr p n
      if tileInit x = 2 then
        match newestBank a with
        | some b => issueTile p n b x [] []
        | none => pure ()
      else if joinFull a then pure ()
      else match freeBank a with
        | none => pure ()
        | some b =>
          if tileInit x = 1 then
            match ← initLanes p n x with
            | .error e => arrDataLoss p n e
            | .ok l => issueTile p n b x l.1 l.2
          else issueTile p n b x [] []
    arrWork p n f

/-- RESIDUE_SWEEP (R54): 16 finite lanes of each filling bank are compared with their shadows. -/
def execResidueSweep (p n : Nat) (lane0 : Nat) (f : Flt) (s : State) : Host.Outcome State Fault Refusal :=
  act (Instr.wf (.residueSweep p n lane0 f)) s do
    applyCells p n f.cells
    let a ← arr p n
    let bad (x : Acc) : Bool := x.st == .filling && !residueOk x lane0 (lane0 + 16)
    if !arrLive (← st) p n then pure ()
    else if bad a.bank0 || bad a.bank1 then resFail p n n CP.sweep
    else if bad a.obank0 || bad a.obank1 then resFail p n (n + 1) CP.sweep
    else pure ()

/-- BANK_COMPLETE (R73): the lanes of the oldest streamed bank are complete; a SHADOW pair compares them (R80). -/
def execBankComplete (p n : Nat) (f : Flt) (s : State) : Host.Outcome State Fault Refusal :=
  act (Instr.wf (.bankComplete p n f)) s do
    applyCells p n f.cells
    let a ← arr p n
    let pick : Option Nat :=
      if a.bank0.st = .streamed ∧ (a.bank1.st ≠ .streamed ∨ a.bank0.order ≤ a.bank1.order) then some 0
      else if a.bank1.st = .streamed then some 1 else none
    match pick with
    | none => pure ()
    | some b =>
      if !arrLive (← st) p n then pure ()
      else if (a.bank b).pm = 3 ∧ laneVals (a.bank b) ≠ laneVals (a.obank b) then shadowFail p n
      else upArr p n fun a => a.setBank b { a.bank b with st := .complete }

/-- Write an EMIT's bytes into store slots: a WIDE lane image into each array's own store, everything else into the even array's (R69). -/
def emitStore {o : State} (p n slot : Nat) (split : Bool) (bs : List Byte) : M o Unit := do
  let put (m : Nat) (b : List Byte) : M o Unit := do
    let _ ← writeMem RC.array (uidOf p 0 n) (storeBase p m + slot * 256) b
    pure ()
  if split then do
    put n (bs.take 278528)
    put (n + 1) (bs.drop 278528)
  else put n bs

/-- The tile of bank `b` leaves: its banks are free again, and with a codebook panel those of the joined tile (R26). -/
def emitFree (a : Arr) (b x : Nat) : Arr :=
  let clear (a : Arr) (i : Nat) : Arr := (a.setBank i Acc.free).setObank i Acc.free
  match (if isCb (emitFmt x) ∧ (a.bank b).pm ≠ 1 then heldBank a else none) with
  | some h => clear (clear a b) h
  | none => clear a b

/-- Array, 0 or 1, of the unit whose lanes fail as bank `b` leaves, with the joined bank where the EMIT encodes it (R54). -/
def emitFail (a : Arr) (b x : Nat) : Option Nat :=
  match bankFail (a.bank b) (a.obank b) with
  | some i => some i
  | none =>
    if isCb (emitFmt x) ∧ (a.bank b).pm ≠ 1 then
      match heldBank a with
      | some h => bankFail (a.bank h) (a.obank h)
      | none => none
    else none

/-- EMIT (R72): it waits for its bank's lanes and the output stage; the output stage compares every finite lane once more as the tile
leaves (R54), and the two stages of a SHADOW pair compare their bytes (R80). -/
def execEmit (p n : Nat) (f : Flt) (s : State) : Host.Outcome State Fault Refusal :=
  act (Instr.wf (.emit p n f)) s do
    arrTurn p n 0x02 f fun x => do
      let a ← arr p n
      match lastBank a with
      | none => pure ()
      | some b =>
        let acc := a.bank b
        if acc.st ≠ .complete ∨ a.outBuf ≠ [] then pure ()
        else if emitJoin x then do
          upArr p n fun a => a.setBank b { a.bank b with held := true }
          retire p n
        else match emitFail a b x with
          | some i => resFail p n (n + i) CP.output
          | none => do
            let r := emitBytes a b x
            let bytes := outFlip f.outUps false r.1
            if acc.pm = 3 ∧ bytes ≠ outFlip f.outUps true (shadowBytes a (← arr p (n + 1)) b x) then shadowFail p n
            else do
              excFlags p n r.2
              (if emitDk x then emitStore p n (effSlot a (emitBsel x) (emitDst x)) (emitFmt x = F.LANE ∧ acc.pm = 1) bytes
               else upArr p n fun a => { a with outBuf := chunks 256 (bytes.length / 256 + 1) bytes, outQ := emitDst x })
              upArr p n fun a => emitFree a b x
              retire p n
    arrWork p n Flt.none

/-- Change the registers of array n and, in a pair, of its odd array too (R78). -/
def upPair {o : State} (p n : Nat) (f : Arr → Arr) : M o Unit := do
  upArr p n f
  if (← rd (R.PART_ARR_STAT.PAIR p n)) = 1 then upArr p (n + 1) f else pure ()

/-- LDCB (R452): loads codebook entries into the output codebook register, in a pair into both arrays' (R78), from the even array's store
(log entry 104); an entry that is NaN or infinite is illegal (R27). -/
def execLdcb (p n : Nat) (f : Flt) (s : State) : Host.Outcome State Fault Refusal :=
  act (Instr.wf (.ldcb p n f)) s do
    arrTurn p n 0x04 f fun x => do
      let a ← arr p n
      if a.outBuf ≠ [] then pure () else do
        match ← readStore p n (effSlot a (ldcbBsel x) (ldcbSrc x)) 1 with
        | .error e => arrDataLoss p n e
        | .ok b =>
          let ents := b.take (cbEntBytes (ldcbFmt x))
          if cbBadEntry (ldcbFmt x) ents then arrIllegal p n
          else do
            upPair p n fun a => { a with cbFmt := some (ldcbFmt x), cbEnt := ents }
            retire p n

/-- SETSEED (R43), in a pair for both arrays (R78). -/
def execSetseed (p n : Nat) (s : State) : Host.Outcome State Fault Refusal :=
  act (Instr.wf (.setseed p n)) s do
    arrTurn p n 0x05 Flt.none fun x => do
      if (← arr p n).outBuf ≠ [] then pure () else do
        upPair p n fun a => { a with seed := BitVec.ofNat 64 x }
        retire p n

/-- Set base register B0 or B1. -/
def Arr.setB (a : Arr) (i : Nat) (f : BitVec 13 → BitVec 13) : Arr := if i = 0 then { a with b0 := f a.b0 } else { a with b1 := f a.b1 }

/-- Set loop counter L0 or L1. -/
def Arr.setL (a : Arr) (i : Nat) (f : BitVec 16 → BitVec 16) : Arr := if i = 0 then { a with l0 := f a.l0 } else { a with l1 := f a.l1 }

/-- SETB (R74), in a pair for both arrays (R78). -/
def execSetb (p n : Nat) (s : State) : Host.Outcome State Fault Refusal :=
  act (Instr.wf (.setb p n)) s do
    arrTurn p n 0x06 Flt.none fun x => do
      upPair p n fun a => a.setB (insN x) fun _ => BitVec.ofNat 13 x
      retire p n

/-- ADDB (R74): modulo 8,192. -/
def execAddb (p n : Nat) (s : State) : Host.Outcome State Fault Refusal :=
  act (Instr.wf (.addb p n)) s do
    arrTurn p n 0x07 Flt.none fun x => do
      upArr p n fun a => a.setB (insN x) fun b => b + BitVec.ofNat 13 x
      retire p n

/-- SETLC (R74), in a pair for both arrays (R78). -/
def execSetlc (p n : Nat) (s : State) : Host.Outcome State Fault Refusal :=
  act (Instr.wf (.setlc p n)) s do
    arrTurn p n 0x08 Flt.none fun x => do
      upPair p n fun a => a.setL (insN x) fun _ => BitVec.ofNat 16 x
      retire p n

/-- LOOP (R74): the counter falls by one, and while it is nonzero the program jumps. The counter has the 16 bits of SETLC's COUNT, so that
one that holds 0, which no SETLC has set, becomes 65,535 and the program jumps (DESIGN CHOICE, log entry 105). -/
def execLoop (p n : Nat) (s : State) : Host.Outcome State Fault Refusal :=
  act (Instr.wf (.loop p n)) s do
    arrTurn p n 0x09 Flt.none fun x => do
      upArr p n fun a => a.setL (insN x) fun c => c - 1
      let a ← arr p n
      if (if insN x = 0 then a.l0 else a.l1) ≠ 0 then jumpTo p n (insTarget x) else retire p n

/-- WAITQ (R74): pops and releases one published slot, or stalls. -/
def execWaitq (p n : Nat) (s : State) : Host.Outcome State Fault Refusal :=
  act (Instr.wf (.waitq p n)) s do
    arrTurn p n 0x0A Flt.none fun x => do
      if qAvail (← st) p (insQ x) = 0 then stallC (uidOf p 0 n) p (insQ x)
      else do
        upQue p (insQ x) fun q => { q with rd := q.rd + 1 }
        releaseSlot p (insQ x)
        retire p n
        kickQ p (insQ x)

/-- POSTQ (R74, R450): pushes a token that carries WORD, or stalls for credit. -/
def execPostq (p n : Nat) (s : State) : Host.Outcome State Fault Refusal :=
  act (Instr.wf (.postq p n)) s do
    arrTurn p n 0x0B Flt.none fun x => do
      if (← rd (R.PART_Q_CREDIT.CREDIT p (insQ x))) = 0 then stallP (uidOf p 0 n) p (insQ x)
      else do
        pushSlot p (insQ x) (uidOf p 0 n) (tokenBytes (fget x 32 32))
        retire p n

/-- BRQ (R74): pops one slot, jumps when bytes 0 to 3 read 0, releases the slot; an uncorrectable slot loses data. -/
def execBrq (p n : Nat) (f : Flt) (s : State) : Host.Outcome State Fault Refusal :=
  act (Instr.wf (.brq p n f)) s do
    arrTurn p n 0x0C f fun x => do
      match ← popSlot (uidOf p 0 n) p (insQ x) with
      | none => stallC (uidOf p 0 n) p (insQ x)
      | some (.error e) => arrDataLoss p n e
      | some (.ok b) => do
        releaseSlot p (insQ x)
        (if leNat (b.take 4) = 0 then jumpTo p n (insTarget x) else retire p n)
        kickQ p (insQ x)

/-- JUMP (R74). -/
def execJump (p n : Nat) (s : State) : Host.Outcome State Fault Refusal :=
  act (Instr.wf (.jump p n)) s (arrTurn p n 0x0D Flt.none fun x => jumpTo p n (insTarget x))

/-! Rotation. -/

/-- ARRAY_ROTPT (R88): waits until the output stage is idle, then enters the requested rotation or retires. -/
def execArrayRotpt (p n : Nat) (s : State) : Host.Outcome State Fault Refusal :=
  act (Instr.wf (.arrayRotpt p n)) s do
    arrTurn p n 0x0E Flt.none fun _ => do
      let u := uidOf p 0 n
      let s ← st
      let a ← arr p n
      if a.outBuf ≠ [] then pure ()
      else if a.rotReq ∧ rotListed s u (s.rd (R.PART_ARR_STAT.PC p n)) ∧ rotPossible s u then do
        wr (R.PART_ARR_STAT.STATE p n) US.ROTATE
        restUnit u
      else retire p n

/-- ARRAY_END (R72): waits until every TILE has streamed and the output stage is idle; pushes the end token and discards unemitted banks. -/
def execArrayEnd (p n : Nat) (s : State) : Host.Outcome State Fault Refusal :=
  act (Instr.wf (.arrayEnd p n)) s do
    arrTurn p n 0x3F Flt.none fun _ => do
      let u := uidOf p 0 n
      let a ← arr p n
      if a.tiles ≠ [] ∨ a.outBuf ≠ [] then pure ()
      else if (← rd (R.PART_Q_CREDIT.CREDIT p a.endQ)) = 0 then stallP u p a.endQ
      else do
        upArr p n fun a => { a with bank0 := Acc.free, bank1 := Acc.free, obank0 := Acc.free, obank1 := Acc.free }
        wr (R.PART_ARR_STAT.STATE p n) US.IDLE
        restUnit u
        pushSlot p a.endQ u (tokenBytes u)
        match a.ctx with
        | some c => refreshPhase c
        | none => pure ()

/-- Logical array n takes physical array `phys`; a logical array that no bound context names and that `phys` served takes the one left, so that the
map stays one to one (log entry 39). -/
def mapArr {o : State} (p n phys : Nat) : M o Unit := do
  let s ← st
  each ((List.range 24).filter fun m => m != n && s.rd (R.PART_TOP_ARRn.VALID p m) == 1 && s.rd (R.PART_TOP_ARRn.PHYS p m) == phys) fun m =>
    wr (R.PART_TOP_ARRn.PHYS p m) (s.rd (R.PART_TOP_ARRn.PHYS p n))
  wr (R.PART_TOP_ARRn.PHYS p n) phys

/-- Logical core g takes physical core `phys`, as mapArr does for arrays. -/
def mapCore {o : State} (p g phys : Nat) : M o Unit := do
  let s ← st
  each ((List.range 48).filter fun m => m != g && s.rd (R.PART_TOP_COREg.VALID p m) == 1 && s.rd (R.PART_TOP_COREg.PHYS p m) == phys) fun m =>
    wr (R.PART_TOP_COREg.PHYS p m) (s.rd (R.PART_TOP_COREg.PHYS p g))
  wr (R.PART_TOP_COREg.PHYS p g) phys

/-- An array on its new physical array asks for a start grant; the release that its old one waits for stays in the sequence (R87, R89). -/
def slopeFresh {o : State} (key : Nat) : M o Unit := do
  match (tget Arr.init (← st).arrs key).slope with
  | .idle | .filler => do
    eff (.arr key fun a => { a with slope := .wantStart })
    upGrant key (· ++ [(key, true)])
  | _ => pure ()

/-- The rotation of an array or pair completes: the map names its new physical arrays, each starts at full duty (R293), and it goes on after a
start grant (R89). -/
def rotateArr {o : State} (u phys phys2 : Nat) : M o Unit := do
  let p := uPart u
  let n := uIdx u
  let s ← st
  let t := s.clk.mono
  mapArr p n phys
  when_ (s.rd (R.PART_ARR_STAT.PAIR p n) = 1) (do
    mapArr p (n + 1) phys2
    upArr p (n + 1) fun a => { a with duty := 16 })
  upArr p n fun a => { a with rotReq := false, rotAt := some t, duty := 16 }
  eff (.pw fun w => { w with rotReq := w.rotReq.filter (· ≠ u) })
  refreshThrottle
  each (arrKeys s p n) slopeFresh
  retire p n

/-- The rotation of a core completes (R120, R121). -/
def rotateCore {o : State} (u phys : Nat) : M o Unit := do
  let p := uPart u
  let g := uIdx u
  let t ← now
  mapCore p g phys
  upCore p g fun c => { c with rotReq := false, rotAt := some t }
  eff (.pw fun w => { w with rotReq := w.rotReq.filter (· ≠ u) })
  coreNext p g
  refreshCore p g

/-- ROTATION_COMPLETE (R89): the unit that rotates resumes on the free physical unit `phys`, the odd array of a pair on the adjacent
`phys2`. -/
def execRotationComplete (unit phys phys2 : Nat) (s : State) : Host.Outcome State Fault Refusal :=
  act (Instr.wf (.rotationComplete unit phys phys2)) s do
    let s ← st
    if unit < 65536 ∧ (uKind unit = 0 ∧ uIdx unit < 24 ∨ uKind unit = 1 ∧ uIdx unit < 48) ∧ s.rd (stFld unit) = US.ROTATE
        ∧ rotTarget s unit phys phys2 then
      if uKind unit = 0 then rotateArr unit phys phys2 else rotateCore unit phys
    else pure ()

end Sys2Proof.Machine
end

