-- ==== Sys2Proof/Machine/Banks.lean ====
section
/-!
DEFINITION. Table versions and membership: directory updates (R237), laying (R238, R240), the end of a hold (R239), lapse (R242).
The bank commands that BAR0 writes give are with the other register writes.
-/

namespace Sys2Proof.Machine

/-- A run of words of one RESULT as its WRITE record: RESULT, lowest and highest offset, count (R404). -/
def dirRun {o : State} (fa : Nat) (c : Nat × Nat × Nat × Nat) : M o Unit :=
  evRaw E.WRITE SK.peer 0 [I.TARGET (2 ^ 48 + 0x600000), I.VALUE c.2.1, I.VALUE c.2.2.1, I.COUNT c.2.2.2, I.RESULT c.1, I.FA fa]

/-- The words of a DIR_UPDATE land one after the other; each run of one RESULT is one WRITE record (R404). -/
def dirWords {o : State} (fa : Nat) : List (Nat × BitVec 32) → Option (Nat × Nat × Nat × Nat) → M o Unit
  | [], none => pure ()
  | [], some c => dirRun fa c
  | w :: t, cur => do
    let r ← tablePut w.1 w.2
    match cur with
    | none => dirWords fa t (some (r, w.1, w.1, 1))
    | some c =>
      if c.1 = r then dirWords fa t (some (r, min c.2.1 w.1, max c.2.2.1 w.1, c.2.2.2 + 1))
      else do
        dirRun fa c
        dirWords fa t (some (r, w.1, w.1, 1))

/-- DIR_UPDATE (R237): a message of an MGR source writes the inactive bank; a GEN newer than its own fences the module (R243). The
message's words name the directory at 0x60_0000 + 8 FA and the other tables at their windows (log entry 26). -/
def execDirUpdate (fa gen : Nat) (ws : List (Nat × BitVec 32)) (s : State) : Host.Outcome State Fault Refusal :=
  act (Instr.wf (.dirUpdate fa gen ws)) s do
    let s ← st
    if !genOk s fa gen then dropPkt DR.GEN_OLD
    else if !entMgr (dirEnt s (activeEpoch s) fa) then pure ()
    else do
      dirWords fa ws none
      let s ← st
      let e := 1 - activeEpoch s
      if s.rd R.FZ_SELF.VALID = 1 ∧ selfNewer s e (ownFa s) (s.rd R.FZ_SELF.GEN) then enterFenced 2 else pure ()

/-- LAYING (R238, R240): at the armed time the banks swap, or the laying is missed. -/
def execLaying (s : State) : Host.Outcome State Fault Refusal :=
  act (Instr.wf .laying) s do
    let s ← st
    match s.fab.armed with
    | none => pure ()
    | some t => do
      eff (.pass (t - s.clk.time.toNat))
      bankCancel
      if s.rd R.FZ_BANK_STAT.READY = 0 then do
        setF R.FZ_BANK_STAT.LAY_MISS
        ev E.FZ_LAY_MISS SK.fw 0 [I.TIME t]
      else layNow

/-- EPOCH_HOLD_END (R239). -/
def execEpochHoldEnd (s : State) : Host.Outcome State Fault Refusal :=
  act (Instr.wf .epochHoldEnd) s do
    let s ← st
    if s.rd R.FZ_BANK_STAT.HOLD = 0 then pure ()
    else do
      advTo ((← seenAt K.hold) + 1000 * max 1000 (s.rd R.FZ_RT_CFG.EPOCH_HOLD_US))
      wr R.FZ_BANK_STAT.HOLD 0

/-- MEMBERSHIP_LAPSE (R242): 1,000 ms after the last renewal. -/
def execMembershipLapse (s : State) : Host.Outcome State Fault Refusal :=
  act (Instr.wf .membershipLapse) s do
    match (← st).fab.renewed with
    | none => pure ()
    | some t =>
      if (← rd R.FZ_MEMBER.LAPSED) = 1 then pure ()
      else do
        advTo (t + 1000000000)
        setF R.FZ_MEMBER.LAPSED
        ev E.MEMBER_LAPSED SK.fw 0 [I.FA (ownFa (← st))]
        faultCond R.RST_FAULT.LAPSED true

end Sys2Proof.Machine
end

