-- ==== Sys2Proof/Machine/MoveOps.lean ====
section
/-!
DEFINITION. One-point moves (R269, R270, R272) and the end of HOLD (R204, R261, R263).
-/

namespace Sys2Proof.Machine

variable {o : State}

/-- A die is stretched (R273). -/
def stretched (s : State) : Bool := s.rd R.PWR_STAT.DROOP0 == 1 || s.rd R.PWR_STAT.DROOP1 == 1

/-- Nothing forbids a requested move now: no forced state, none still to be restored from, no stretch, no move in progress (R271 to R274). -/
def mayMove (s : State) : Bool := !forced s && !s.pw.restoring && !stretched s && s.pw.move.isNone

/-- Divider of a die's CK_A (R274): the largest of its stretch divider while stretched, 16 while forced, and the divider of the point in effect or of
the blend step, whose pattern gives each cycle the new divider (`fresh`) or the old. -/
def dieDivider (s : State) (d : Nat) (fresh : Bool) : Nat :=
  let now := s.rd R.PWR_STAT.OP_NOW
  let pair := match s.pw.move with
    | some m => if 1 ≤ m.step then (m.src, m.dst) else (now, now)
    | none => (now, now)
  let droop := if d = 0 then s.rd R.PWR_STAT.DROOP0 else s.rd R.PWR_STAT.DROOP1
  max (if droop = 1 then stretchDiv (max pair.1 pair.2) else 0) (max (if forced s then 16 else 0) (opDiv (if fresh then pair.2 else pair.1)))

/-- A requested move waits for the microsecond after the last stretch (R274). -/
def afterDroop : M o Unit := do
  let t := tget 0 (← st).clk.seen K.droopOff
  when_ (decide (t ≠ 0)) (advTo (t + 1000))

/-- The divider blend of a move begins (R269). -/
def startBlend (m : Move) : M o Unit := do
  setF R.PWR_STAT.BLENDING
  eff (.pw fun p => { p with move := some { m with step := 1 } })
  mark K.move

/-- A one-point move from the present point to `dst` begins (R269): VCORE rises first for a faster point whose voltage it does not hold (R272), else
the divider blends. -/
def beginMove (dst : Nat) : M o Unit := do
  let s ← st
  let m : Move := ⟨s.rd R.PWR_STAT.OP_NOW, dst, 0, false⟩
  if s.pw.vcore < opMv s dst then do
    eff (.pw fun p => { p with move := some m })
    mark K.move
  else startBlend m

/-- A move completes (R269): the point is in effect, and after a move to a slower point VCORE is lowered. -/
def endMove (m : Move) : M o Unit := do
  let s ← st
  wr R.PWR_STAT.OP_NOW m.dst
  wr R.PWR_STAT.BLENDING 0
  incWrap R.PWR_OP.MOVES
  eff (.pw fun p => { p with move := none, vcore := if m.src < m.dst then opMv s m.dst else p.vcore })

end Sys2Proof.Machine
end

