-- ==== Sys2Proof/Machine/Clips.lean ====
section
/-!
DEFINITION. Clip levels in service (R279 to R282), the activity estimator (R283 to R285) and the scheduled management ceiling (R278).
-/

namespace Sys2Proof.Machine

/-- POWER_SAMPLE (R282, R279, R258): the sample of the last millisecond; CLIP_LAG clears when the 10 ms average complies. other_w is the sample less
the running phases' estimate over the same millisecond (R192; log entry 120), the estimator's sums join the sample for the fit (R284), and a
sample in brownout hold counts for its lowest input (R261). -/
def execPowerSample (watts decivolts : Nat) (s : State) : Host.Outcome State Fault Refusal :=
  act (Instr.wf (.powerSample watts decivolts)) s do
    periodic K.sample 1000000
    let s0 ← st
    wrs [(R.PWR_INPUT.POWER_W, min watts 0xFFFF), (R.PWR_INPUT.VIN, min decivolts 0x3FF)]
    when_ (decide (decivolts ≤ 600)) (wr R.PWR_STAT.VIN_HIGH 0)
    let h := s0.pw.runAcc / 1000000000
    eff (.host fun x => { x with otherW := watts - h })
    eff (.pw fun p => { p with
      samples := (watts :: p.samples).take 10, rows := ((watts, p.acc) :: p.rows).take 1000, acc := [], runAcc := 0
      pwSum := p.pwSum + watts, pwCnt := p.pwCnt + 1 })
    when_ (decide (s0.rd R.PWR_STAT.HOLD_BROWN = 1)) (eff (.hs fun x => { x with vinMin := min decivolts x.vinMin }))
    refreshFlow
    let s ← st
    if s.rd R.PWR_STAT.CLIP_LAG = 1 ∧ !avgAbove s (s.rd R.PWR_CLIP.EFF_W) 100 then wr R.PWR_STAT.CLIP_LAG 0 else pure ()

/-- CLIP_LAG_STEP (R280, R286): with no FABRIC phase running and the running phases' estimate plus other_w above the clip level, the point moves one
step slower, not beyond OP6. -/
def execClipLagStep (s : State) : Host.Outcome State Fault Refusal :=
  act (Instr.wf .clipLagStep) s do
    let s ← st
    let now := s.rd R.PWR_STAT.OP_NOW
    if s.rd R.PWR_STAT.CLIP_LAG == 1 && !fabricRunning s && mayMove s && decide (s.rd R.PWR_STAT.OP_TARGET ≤ now) && decide (now < 6)
        && decide (s.rd R.PWR_CLIP.EFF_W < s.pw.runW + s.host.otherW) then do
      afterDroop
      wr R.PWR_STAT.OP_TARGET (now + 1)
      beginMove (now + 1)
    else pure ()

/-- CLIP_LAG_LONG (R281): a CLIP_LAG that lasts 100 ms records one event. -/
def execClipLagLong (s : State) : Host.Outcome State Fault Refusal :=
  act (Instr.wf .clipLagLong) s do
    let s ← st
    if s.rd R.PWR_STAT.CLIP_LAG = 1 ∧ tget 0 s.clk.seen K.clipLag = s.pw.lagAt then do
      advTo (s.pw.lagAt + 100000000)
      eff (.seen K.clipLag (s.pw.lagAt + 1))
      ev E.CLIP_LAG_LONG SK.hw 0 [I.VALUE (s.rd R.PWR_CLIP.EFF_W)]
    else pure ()

/-- Energy of a list of event counts by class, from class `c` on, in pJ: gain times count, the gain in uJ per 1,000,000 events (R283). -/
def classPj (s : State) : Nat → List Nat → Nat
  | _, [] => 0
  | c, n :: t => Config.gainDefault c * tget 1000000 s.pw.gains c / 1000000 * n + classPj s (c + 1) t

/-- Compute die of a class of Table 07-9; 2 for a class of neither. -/
def classDie (c : Nat) : Nat := [0, 0, 0, 1, 1, 1, 0, 1, 0, 0, 1, 1, 0, 1].getD c 2

/-- The static term of a die in pJ over 1 us, by VCORE and the hottest hot spot, at the fused default (R283). -/
def leakPj (s : State) (d : Nat) : Nat := Config.leakUw d s.pw.vcore s.pw.tj

/-- The static term of a die times its scale factor, classes 17 and 18 of R283. -/
def staticPj (s : State) (d : Nat) : Nat := leakPj s d * tget 1000000 s.pw.gains (17 + d) / 1000000

/-- Counts by class of several lists. -/
def sumCounts (l : List (List Nat)) : List Nat := (List.range 17).map fun c => (l.map (·.getD c 0)).sum

/-- Counts of one die's classes alone. -/
def dieCounts (d : Nat) (l : List Nat) : List Nat := (List.range 17).map fun c => if classDie c = d then l.getD c 0 else 0

/-- ESTIMATOR_TICK (R283, R285): the microsecond's energy by phase, of each die and of the module, and what the fit of R284 and other_w sum. -/
def execEstimatorTick (a : Activity) (s : State) : Host.Outcome State Fault Refusal :=
  act (Instr.wf (.estimatorTick a)) s do
    periodic K.estTick 1000
    let s ← st
    let mine := a.slots.filter fun x => (running s).contains x.1
    each mine fun x => upPhase x.1 fun ph => { ph with meas := ph.meas + classPj s 0 x.2 }
    let run := (mine.map fun x => classPj s 0 x.2).sum
    let all := sumCounts (a.other :: a.slots.map (·.2))
    let die (d : Nat) : Nat := classPj s 0 (dieCounts d all) + staticPj s d
    let base := (List.range 17).map (fun c => Config.gainDefault c * all.getD c 0) ++ [leakPj s 0, leakPj s 1]
    eff (.pw fun p => { p with
      est := (classPj s 0 all + staticPj s 0 + staticPj s 1) / 1000000, estDie := [die 0 / 1000000, die 1 / 1000000], runW := run / 1000000
      runAcc := p.runAcc + run, acc := (List.range 19).map fun c => p.acc.getD c 0 + base.getD c 0 })

/-- A fitted gain within its bounds, in ppm of the fused default (R284). -/
def boundGain (g : Nat) : Nat := min 1250000 (max 750000 g)

/-- What the gains estimate for one millisecond, in uW. -/
def rowUw (g : List Nat) (row : List Nat) : Nat := ((List.range 19).map fun c => row.getD c 0 * g.getD c 1000000 / 1000000).sum / 1000

/-- The RMS residual of a fit is above 3 % of the mean input power: the sum of squares times n above 0.0009 of the squared sum (R284). -/
def fitRejected (rows : List (Nat × List Nat)) (g : List Nat) : Bool :=
  let sq := (rows.map fun r => ((r.1 * 1000000 : Nat) - (rowUw g r.2 : Int)).natAbs ^ 2).sum
  let tot := (rows.map fun r => r.1 * 1000000).sum
  decide (9 * tot ^ 2 < 10000 * (rows.length * sq))

/-- GAIN_REFIT (R284): the fit of the last 1,000 samples, each gain within its bounds; a residual above 3 % of mean input power rejects it. -/
def execGainRefit (s : State) : Host.Outcome State Fault Refusal :=
  act (Instr.wf .gainRefit) s do
    periodic K.refit 1000000000
    let rows := (← st).pw.rows
    let g := (Config.fitGains rows).map boundGain
    if fitRejected rows g then do
      wr R.PWR_EST.FIT_OK 0
      incSat R.PWR_EST.FIT_REJECT
      let n := (← st).pw.rejects + 1
      eff (.pw fun p => { p with rejects := n })
      when_ (decide (n = 10)) (ev E.ESTIMATOR_FIT SK.fw 0 [I.COUNT n])
    else do
      wr R.PWR_EST.FIT_OK 1
      eff (.pw fun p => { p with
        rejects := 0, gains := (List.range 19).foldl (fun t c => tset 1000000 t c (g.getD c 1000000)) p.gains })

/-- OP_CEIL_APPLY (R278, R257): the ceiling takes effect at its fabric time; it is used at the next choice of R286. -/
def execOpCeilApply (s : State) : Host.Outcome State Fault Refusal :=
  act (Instr.wf .opCeilApply) s do
    let s ← st
    match s.pw.ceilAt with
    | none => pure ()
    | some (t, k) => do
      eff (.pass (t - s.clk.time.toNat))
      eff (.pw fun p => { p with ceilAt := none })
      wr R.PWR_OP.MGMT_CEIL k
      noteUnlocked

end Sys2Proof.Machine
end

