-- ==== Sys2Proof/Machine/Router.lean ====
section
/-!
DEFINITION. The router (R218, R219, R226 to R228, R239, R241) and the packets that carry queue slots and credits (R232, R233).
-/

namespace Sys2Proof.Machine

/-- PACKET_INJECT (R227): an NI or a service core hands the packet over; one that waits for the router is taken from there. -/
def execPacketInject (k : Pkt) (e : RouteEnv) (s : State) : Host.Outcome State Fault Refusal :=
  act (Instr.wf (.packetInject k e)) s do
    eff (.fab fun f => { f with toSend := f.toSend.erase k })
    if e.dirUe then do
      dropPkt DR.DIR_UE
      ev E.FZ_DIR_UE SK.hw 0 [I.FA (hDST k)]
    else inject k e

/-- A reserved TYPE, a LEN32 above 32 or a nonzero reserved bit (Table 06-8). -/
def badType (k : Pkt) : Bool :=
  hTYPE k == 0 || decide (9 < hTYPE k) || decide (32 < hLEN k) || fget k.h0.toNat 0 1 == 1 || fget k.h1.toNat 10 2 != 0

/-- A packet of the retired epoch after its hold, or of a bank that is not sealed (R236, R239; log entry 25). -/
def epochLate (s : State) (k : Pkt) : Bool :=
  hEPOCH k != activeEpoch s && s.rd R.FZ_BANK_STAT.HOLD == 0 && s.rd R.FZ_BANK_STAT.READY == 0

/-- A received packet that the checks of its header let through: forwarded, or delivered when its CRC holds. -/
def receiveGood {o : State} (port : Nat) (k : Pkt) (good : Bool) (e : RouteEnv) : M o Unit := do
  let s ← st
  if hTYPE k = 6 ∨ hTYPE k = 9 then pure ()
  else if epochLate s k then dropPkt DR.EPOCH_LATE
  else if e.dirUe then do
    dropPkt DR.DIR_UE
    ev E.FZ_DIR_UE SK.hw 0 [I.FA (hDST k), I.VALUE port]
  else if hDST k = 0xFFFFF then
    if hBSCOPE k = 0 ∧ !entMgr (dirEnt s (hEPOCH k) (hSRC k)) then dropPkt DR.BCAST_DENIED
    else do
      when_ good (deliverPkt k)
      bcastSpread k false
  else match route s k false e with
    | none => dropPkt DR.NOPATH
    | some (none, k) => when_ good (deliverPkt k)
    | some (some p, k) => send (.packet p (rehdr k))

/-- A packet arrives on an UP port and passes the checks of Table 06-8 (R219): one with a wrong CRC-32 goes on with the complement. -/
def receivePkt {o : State} (port : Nat) (k : Pkt) (e : RouteEnv) : M o Unit := do
  if !portUp (← st) port then pure ()
  else do
    wr (R.FZ_PORT_CNTk.COUNT port 4) ((← rd (R.FZ_PORT_CNTk.COUNT port 4)) + flitsOf k)
    let c := BitVec.ofNat 32 (pktCrc k)
    if hHCRC k ≠ hcrcOf k then incSat (R.FZ_PORT_CNTk.COUNT port 2)
    else if badType k then dropPkt DR.TYPE_RSV
    else if 6 < hLH k ∨ 2 < hGH k then dropPkt DR.HOP_LIMIT
    else if k.crc = c then receiveGood port k true e
    else do
      incSat (R.FZ_PORT_CNTk.COUNT port (if k.crc = ~~~c then 1 else 0))
      receiveGood port { k with crc := ~~~c } false e

/-- PACKET_RECEIVE (R219, Table 06-8). -/
def execPacketReceive (port : Nat) (k : Pkt) (e : RouteEnv) (s : State) : Host.Outcome State Fault Refusal :=
  act (Instr.wf (.packetReceive port k e)) s (receivePkt port k e)

/-- The oldest delivered packet that satisfies the test leaves the inbox. -/
def takeInbox {o : State} (f : Pkt → Bool) : M o (Option Pkt) := do
  match (← st).fab.inbox.find? f with
  | none => return none
  | some k => do
    eff (.fab fun b => { b with inbox := b.inbox.erase k })
    return some k

/-- A packet's slots join its stream (R232): written at their ring positions and published in SEQ order. -/
def takeQslot {o : State} (k : Pkt) : M o Unit := do
  let s ← st
  match findIn s (hSRC k) (hOCH k) with
  | none => dropPkt DR.NONCE
  | some x =>
    let ahead := (hSEQ k + 65536 - x.next) % 65536
    if hTSPEC k 48 16 ≠ x.nonce then dropPkt DR.NONCE
    else if hDPART k ≠ x.part ∨ 256 ≤ ahead ∨ x.got.any (fun g => g.1 == hSEQ k) then dropPkt DR.ORDER
    else do
      let l := chunks 256 5 k.pay
      upIn (hSRC k) (hOCH k) fun x => { x with
        last := s.clk.mono
        got := x.got ++ [(hSEQ k, hDQ k, if s.rd (R.PART_Q_CFG.VALID x.part (hDQ k)) = 1 then l.length else 0)] }
      when_ (decide (s.rd (R.PART_Q_CFG.VALID x.part (hDQ k)) = 1)) (ringPut x.part (hDQ k) (hTSPEC k 0 16) l)
      publishStream (hSRC k) (hOCH k)

/-- QSLOT (R232). -/
def execQslot (s : State) : Host.Outcome State Fault Refusal :=
  act (Instr.wf .qslot) s do
    match ← takeInbox fun k => hTYPE k == 1 with
    | none => pure ()
    | some k => takeQslot k

/-- The group whose queue a CREDIT of a child is for (R245). The packet names the producer's partition and queue: a queue of this module that
leads to a group, or from it, tells the group; a queue that leads to the sender itself is no group's; else it is the group of lowest address in
which the sender is a child (log entry 115). -/
def creditGroup (s : State) (e p q src : Nat) : Option Nat :=
  let kid (g : Nat) : Bool := entGrp (dirEnt s e g) && (treeKids s e (dirEnt s e g)).contains src
  let far := (queOf s p q).farFa
  if kid far then some far
  else match s.ques.find? fun x => kid x.2.farFa && x.2.farP == p && x.2.farQ == q with
    | some x => some x.2.farFa
    | none => if far = src then none else ((bankOf s e).dir.find? fun x => kid x.1).map (·.1)

/-- CREDIT (R233): added on arrival; a group's queue takes the least of its members (R245). -/
def execCredit (s : State) : Host.Outcome State Fault Refusal :=
  act (Instr.wf .credit) s do
    match ← takeInbox fun k => hTYPE k == 2 with
    | none => pure ()
    | some k => do
      let s ← st
      let p := hTSPEC k 26 3
      let q := hTSPEC k 16 10
      let n := hTSPEC k 0 16
      match creditGroup s (hEPOCH k) p q (hSRC k) with
      | some g => groupCredit (hEPOCH k) g p q (hSRC k) n
      | none => addCredit p q n

end Sys2Proof.Machine
end

