-- ==== Sys2Proof/Machine/Collect.lean ====
section
/-!
DEFINITION. Collectives: multicast (R245), broadcast (R246) and reductions (R247 to R250, Table 06-15).
-/

namespace Sys2Proof.Machine

/-- The group entry that the packet needs reads uncorrectable (R223): it is discarded, and the entry comes back from another I/O die's copy. -/
def dropUe (k : Pkt) {o : State} : M o Unit := do
  dropPkt DR.DIR_UE
  ev E.FZ_DIR_UE SK.hw 0 [I.FA (0xF0000 + hTSPEC k 48 16)]

/-- MCAST (R245, R236): copies to the other tree neighbours, and delivery when LOCAL. One that came as a broadcast goes to its queue (R246). -/
def execMcast (e : RouteEnv) (s : State) : Host.Outcome State Fault Refusal :=
  act (Instr.wf (.mcast e)) s do
    match ← takeInbox fun k => hTYPE k == 3 with
    | none => pure ()
    | some k => do
      let s ← st
      let g := 0xF0000 + hTSPEC k 48 16
      let x := dirEnt s (hEPOCH k) g
      if hDST k = 0xFFFFF then deliverSlots (hDPART k) (hDQ k) k.pay
      else if e.dirUe then dropUe k
      else if !entGrp x then pure ()
      else do
        mcastCopies (hEPOCH k) k g (hSRC k) e
        when_ (fget x 61 1 == 1) (deliverSlots (hDPART k) (hDQ k) k.pay)

/-- BROADCAST (R246): from this module, or as received on a port, with the checks of every packet (R219). -/
def execBroadcast (k : Pkt) (port : Option Nat) (s : State) : Host.Outcome State Fault Refusal :=
  act (Instr.wf (.broadcast k port)) s do
    match port with
    | none => bcastSource (setH0 28 20 0xFFFFF k)
    | some n => when_ (hDST k == 0xFFFFF) (receivePkt n k ⟨[], [], false⟩)

/-! Reductions. -/

/-- Split bytes into little-endian words of `n` bytes. -/
def leWords (n : Nat) (b : List Byte) : List Nat := (chunks n (b.length / n + 1) b).map leNat

/-- A contribution as a context accumulates it: BF16 elements as FP32 (Table 06-15). -/
def redIn (fmt : Nat) (b : List Byte) : List Nat :=
  if fmt = 0 then leWords 16 b else if fmt = 1 then leWords 4 b else (leWords 2 b).map (· * 65536)

/-- Combine one element (Table 06-15, R35). -/
def redAdd (fmt : Nat) (a b : Nat) : Nat :=
  if fmt = 0 then (laneAdd (BitVec.ofNat 128 a) (BitVec.ofNat 128 b)).toNat else f32add a b

/-- The sum as a packet carries it: BF16 rounded at each send. -/
def redOut (fmt : Nat) (l : List Nat) : List Byte :=
  (l.map fun x =>
    if fmt = 0 then leBytes 16 x else if fmt = 1 then leBytes 4 x
    else leBytes 2 (ieeeEncode F.BF16 .rne (ieeeVal F.FP32 x))).flatten

/-- Accumulated elements as bytes. -/
def redStore (fmt : Nat) (l : List Nat) : List Byte := (l.map fun x => leBytes (if fmt = 0 then 16 else 4) x).flatten

/-- Accumulated elements. -/
def redLoad (fmt : Nat) (b : List Byte) : List Nat := leWords (if fmt = 0 then 16 else 4) b

/-- A context's key. -/
def isRed (g rs sg : Nat) (c : RedCtx) : Bool := c.grp == g && c.rseq == rs && c.sg == sg

/-- Change a context. -/
def upRed {o : State} (g rs sg : Nat) (f : RedCtx → RedCtx) : M o Unit :=
  eff (.fab fun b => { b with reds := b.reds.map fun c => if isRed g rs sg c then f c else c })

/-- Free a context. -/
def freeRed {o : State} (g rs sg : Nat) : M o Unit := eff (.fab fun b => { b with reds := b.reds.filter fun c => !isRed g rs sg c })

/-- TSPEC of a reduction packet (Table 06-7). -/
def redSpec (g rs sg fmt : Nat) : Nat := g % 65536 * 2 ^ 48 + rs * 2 ^ 32 + sg * 2 ^ 16 + fmt * 2 ^ 14

/-- The total of a segment goes down to the children and is delivered when LOCAL (R247), by the group entry of bank `ep` (R236). -/
def redTotal {o : State} (ep g rs sg fmt dp dq : Nat) (pay : List Byte) (e : RouteEnv) : M o Unit := do
  let s ← st
  let x := dirEnt s ep g
  each (treeKids s ep x) fun fa => injectUni (mkPkt 5 fa 0 dp dq 0 (redSpec g rs sg fmt) pay) e
  when_ (fget x 61 1 == 1) (deliverSlots dp dq pay)
  eff (.fab fun b => { b with totals := (g * 2 ^ 32 + rs * 65536 + sg, sg) :: b.totals.filter fun t => t.1 != g * 2 ^ 32 + rs * 65536 + sg })

/-- A context holds every contribution: its member's own when LOCAL, and each child's. -/
def redFull (s : State) (ep g : Nat) (c : RedCtx) : Bool :=
  let x := dirEnt s ep g
  (fget x 61 1 == 0 || c.localDone) && (treeKids s ep x).all (c.kids.contains ·)

/-- A complete context sends its sum up, or at the root its total down, once the total of segment s - W is known (R247). -/
def redTry {o : State} (ep g rs sg dp dq : Nat) (e : RouteEnv) : M o Unit := do
  let s ← st
  let x := dirEnt s ep g
  match s.fab.reds.find? (isRed g rs sg) with
  | none => pure ()
  | some c =>
    let full := redFull s ep g c
    let w := fget x 55 6
    let open_ := decide (sg < w) || s.fab.totals.any fun t => t.1 == g * 2 ^ 32 + rs * 65536 + (sg - w)
    if !full || !open_ then pure ()
    else do
      freeRed g rs sg
      let pay := redOut c.fmt (redLoad c.fmt c.acc)
      if fget x 35 20 = 0 then redTotal ep g rs sg c.fmt dp dq pay e
      else injectUni (mkPkt 4 (fget x 35 20) 0 dp dq 0 (redSpec g rs sg c.fmt) pay) e

/-- A context may be opened for the group: fewer than W of its own are open, and fewer than 4,096 in all (R247, R248; log entry 116). -/
def redRoom (s : State) (g w : Nat) : Bool :=
  decide ((s.fab.reds.filter fun c => c.grp == g).length < w) && decide (s.fab.reds.length < 4096)

/-- REDUCE_UP (R247 to R249): a contribution of a child, or of this member itself, enters its context; `mismatch`: the two adders differ. -/
def execReduceUp (mismatch : Bool) (e : RouteEnv) (s : State) : Host.Outcome State Fault Refusal :=
  act (Instr.wf (.reduceUp mismatch e)) s do
    match ← takeInbox fun k => hTYPE k == 4 with
    | none => pure ()
    | some k => do
      let s ← st
      let g := 0xF0000 + hTSPEC k 48 16
      let rs := hTSPEC k 32 16
      let sg := hTSPEC k 16 16
      let fmt := hTSPEC k 14 2
      let ep := hEPOCH k
      let x := dirEnt s ep g
      let own := hSRC k = ownFa s
      let member := if own then fget x 61 1 == 1 else (treeKids s ep x).contains (hSRC k)
      if fmt = 3 then dropPkt DR.TYPE_RSV
      else if e.dirUe then dropUe k
      else if !entGrp x || fget x 55 6 == 0 || !member then pure ()
      else do
        let old := s.fab.reds.find? (isRed g rs sg)
        let twice := match old with
          | some c => if own then c.localDone else c.kids.contains (hSRC k)
          | none => false
        if twice then dropPkt DR.RED_MISMATCH
        else if old.isNone && !redRoom s g (fget x 55 6) then pure ()
        else if mismatch then do
          freeRed g rs sg
          dropPkt DR.RED_MISMATCH
          let c ← freeBits 3
          ev (0x3000 + c % 7) SK.hw 0 [I.FA g, I.VALUE sg]
        else do
          let v := redIn fmt k.pay
          let kid := if own then [] else [hSRC k]
          (match old with
           | none => eff (.fab fun b => { b with reds := b.reds ++ [⟨g, rs, sg, fmt, kid, decide own, redStore fmt v, s.clk.mono⟩] })
           | some _ => upRed g rs sg fun c => { c with
               kids := c.kids ++ kid, localDone := c.localDone || decide own
               acc := redStore fmt (List.zipWith (redAdd fmt) (redLoad fmt c.acc) v) })
          redTry ep g rs sg (hDPART k) (hDQ k) e

/-- REDUCE_DOWN (R247): the total goes on down the tree and is delivered; segments that waited for it go up. -/
def execReduceDown (e : RouteEnv) (s : State) : Host.Outcome State Fault Refusal :=
  act (Instr.wf (.reduceDown e)) s do
    match ← takeInbox fun k => hTYPE k == 5 with
    | none => pure ()
    | some k => do
      let s ← st
      let g := 0xF0000 + hTSPEC k 48 16
      let rs := hTSPEC k 32 16
      let sg := hTSPEC k 16 16
      let ep := hEPOCH k
      let x := dirEnt s ep g
      if hTSPEC k 14 2 = 3 then dropPkt DR.TYPE_RSV
      else if e.dirUe then dropUe k
      else if !entGrp x || fget x 35 20 != hSRC k then pure ()
      else do
        redTotal ep g rs sg (hTSPEC k 14 2) (hDPART k) (hDQ k) k.pay e
        redTry ep g rs (sg + fget x 55 6) (hDPART k) (hDQ k) e

/-- RED_CONTEXT_EXPIRY (R250): 50 ms after a context opened that still lacks a contribution. -/
def execRedContextExpiry (grp rseq sg : Nat) (s : State) : Host.Outcome State Fault Refusal :=
  act (Instr.wf (.redContextExpiry grp rseq sg)) s do
    let s ← st
    match s.fab.reds.find? (isRed grp rseq sg) with
    | none => pure ()
    | some c => if redFull s (activeEpoch s) grp c then pure () else do
      advTo (c.opened + 50000000)
      freeRed grp rseq sg
      dropPkt DR.RED_EXPIRED

end Sys2Proof.Machine
end

