-- ==== Sys2Proof/Machine/Cores.lean ====
section
/-!
DEFINITION. The general-core commands: the instructions of Tables 03-1 and 03-3, CSR access, interrupt control, entry and return, mailboxes,
timers and the rotation point.
-/

namespace Sys2Proof.Machine

/-- EWC_INSTRUCTION (R97 to R99, Table 03-1). -/
def execEwcInstruction (p g : Nat) (op : EwcOp) (f : Flt) (s : State) : Host.Outcome State Fault Refusal :=
  act (Instr.wf (.ewcInstruction p g op f)) s (coreTurn p g f (ewcBody p g op))

/-- CSRR (R109): a number that Table 03-5 does not list is illegal. -/
def execCsrr (p g xd csr : Nat) (f : Flt) (s : State) : Host.Outcome State Fault Refusal :=
  act (Instr.wf (.csrr p g xd csr f)) s (coreTurn p g f do
    match csrVal (← st) p g csr with
    | none => coreIllegal p g
    | some v => do
      upCore p g fun c => c.setX xd v
      coreNext p g)

/-- CSRW (R108). -/
def execCsrw (p g csr xs : Nat) (f : Flt) (s : State) : Host.Outcome State Fault Refusal :=
  act (Instr.wf (.csrw p g csr xs f)) s (coreTurn p g f do
    if (csrVal (← st) p g csr).isNone then coreIllegal p g
    else do
      csrPut p g csr ((← core p g).getX xs)
      coreNext p g)

/-- EI (R111). -/
def execEi (p g : Nat) (f : Flt) (s : State) : Host.Outcome State Fault Refusal :=
  act (Instr.wf (.ei p g f)) s (coreTurn p g f do
    upCore p g fun c => { c with ie := true }
    coreNext p g)

/-- DI (R111). -/
def execDi (p g : Nat) (f : Flt) (s : State) : Host.Outcome State Fault Refusal :=
  act (Instr.wf (.di p g f)) s (coreTurn p g f do
    upCore p g fun c => { c with ie := false }
    coreNext p g)

/-- IRET (R111): the program counter comes from EPC and INH clears; one instruction commits before the next entry. A misaligned or out-of-range
address fails the check, and nothing commits (R104, R105). -/
def execIret (p g : Nat) (f : Flt) (s : State) : Host.Outcome State Fault Refusal :=
  act (Instr.wf (.iret p g f)) s (coreTurn p g f do
    let a := (← core p g).epc.toNat
    if a % 4 = 0 ∧ a < 0x40000 then do
      wr (R.PART_CORE_STAT.INH p g) 0
      coreJump p g (a / 4)
      upCore p g fun c => { c with shield := true }
    else coreIllegal p g)

/-- WFI (R101): the core waits until an interrupt is taken; the handler returns behind it (log entry 24). -/
def execWfi (p g : Nat) (f : Flt) (s : State) : Host.Outcome State Fault Refusal :=
  act (Instr.wf (.wfi p g f)) s (coreTurn p g f do
    coreNext p g
    when_ (decide ((← rd (R.PART_CORE_STAT.STATE p g)) = US.RUN)) (wr (R.PART_CORE_STAT.STATE p g) US.WFI))

/-- QWAIT (R101, R102): the oldest published slot, or a stall. -/
def execQwait (p g xd q : Nat) (f : Flt) (s : State) : Host.Outcome State Fault Refusal :=
  act (Instr.wf (.qwait p g xd q f)) s (coreTurn p g f do
    let s ← st
    let u := uidOf p 1 g
    if !isCons s p q u || (← core p g).popped.contains q then coreIllegal p g
    else if qAvail s p q = 0 then stallC u p q
    else coreTake p g xd q)

/-- QREL (R101, R62). -/
def execQrel (p g q : Nat) (f : Flt) (s : State) : Host.Outcome State Fault Refusal :=
  act (Instr.wf (.qrel p g q f)) s (coreTurn p g f do
    if !isCons (← st) p q (uidOf p 1 g) || !(← core p g).popped.contains q then coreIllegal p g
    else do
      upCore p g fun c => { c with popped := c.popped.filter (· ≠ q) }
      releaseSlot p q
      coreNext p g
      kickQ p q)

/-- QACQ (R101, R102): a credit and the slot to write, or a stall. -/
def execQacq (p g xd q : Nat) (f : Flt) (s : State) : Host.Outcome State Fault Refusal :=
  act (Instr.wf (.qacq p g xd q f)) s (coreTurn p g f do
    let s ← st
    let u := uidOf p 1 g
    if !isProd s p q u || (← core p g).acquired.contains q then coreIllegal p g
    else if s.rd (R.PART_Q_CREDIT.CREDIT p q) = 0 then stallP u p q
    else coreAcquire p g xd q)

/-- QPUB (R101, R61): the acquired slot is published. -/
def execQpub (p g q : Nat) (f : Flt) (s : State) : Host.Outcome State Fault Refusal :=
  act (Instr.wf (.qpub p g q f)) s (coreTurn p g f do
    if !isProd (← st) p q (uidOf p 1 g) || !(← core p g).acquired.contains q then coreIllegal p g
    else do
      upCore p g fun c => { c with acquired := c.acquired.filter (· ≠ q) }
      publishSlot p q
      coreNext p g
      kickQ p q)

/-- QPOLL (R101): as QWAIT without stalling; 0 when no slot is published. -/
def execQpoll (p g xd q : Nat) (f : Flt) (s : State) : Host.Outcome State Fault Refusal :=
  act (Instr.wf (.qpoll p g xd q f)) s (coreTurn p g f do
    let s ← st
    if !isCons s p q (uidOf p 1 g) || (← core p g).popped.contains q then coreIllegal p g
    else if qAvail s p q = 0 then do
      upCore p g fun c => c.setX xd 0
      coreNext p g
    else coreTake p g xd q)

/-- QTRY (R101): as QACQ without stalling; 0 when no credit is held. -/
def execQtry (p g xd q : Nat) (f : Flt) (s : State) : Host.Outcome State Fault Refusal :=
  act (Instr.wf (.qtry p g xd q f)) s (coreTurn p g f do
    let s ← st
    if !isProd s p q (uidOf p 1 g) || (← core p g).acquired.contains q then coreIllegal p g
    else if s.rd (R.PART_Q_CREDIT.CREDIT p q) = 0 then do
      upCore p g fun c => c.setX xd 0
      coreNext p g
    else coreAcquire p g xd q)

/-- CORE_POSTQ (R101, R450): acquires a slot, writes a token of the low 32 bits of xs and publishes it. -/
def execCorePostq (p g q xs : Nat) (f : Flt) (s : State) : Host.Outcome State Fault Refusal :=
  act (Instr.wf (.corePostq p g q xs f)) s (coreTurn p g f do
    let s ← st
    let u := uidOf p 1 g
    let c ← core p g
    if !isProd s p q u || c.acquired.contains q then coreIllegal p g
    else if s.rd (R.PART_Q_CREDIT.CREDIT p q) = 0 then stallP u p q
    else do
      pushSlot p q u (tokenBytes ((c.getX xs).toNat % 2 ^ 32))
      publishSlot p q
      coreNext p g
      kickQ p q)

/-- MBOXW (R115): writes mailbox n of core `tgt` of the same partition. -/
def execMboxw (p g tgt n xs : Nat) (f : Flt) (s : State) : Host.Outcome State Fault Refusal :=
  act (Instr.wf (.mboxw p g tgt n xs f)) s (coreTurn p g f do
    mboxPut p tgt n (((← core p g).getX xs).toNat % 2 ^ 32)
    coreNext p g)

/-- MBOXR (R113): returns the mailbox and writes 0. -/
def execMboxr (p g xd n : Nat) (f : Flt) (s : State) : Host.Outcome State Fault Refusal :=
  act (Instr.wf (.mboxr p g xd n f)) s (coreTurn p g f do
    let v ← rd (R.PART_CORE_MBOXn.VALUE p g n)
    upCore p g fun c => c.setX xd (BitVec.ofNat 64 v)
    wr (R.PART_CORE_MBOXn.VALUE p g n) 0
    refreshCore p g
    coreNext p g)

/-- CORE_ROTPT (R120): enters the requested rotation outside handlers, else retires; it also retires when no physical core is free (log entry
111). -/
def execCoreRotpt (p g : Nat) (f : Flt) (s : State) : Host.Outcome State Fault Refusal :=
  act (Instr.wf (.coreRotpt p g f)) s (coreTurn p g f do
    let s ← st
    let u := uidOf p 1 g
    if (← core p g).rotReq ∧ s.rd (R.PART_CORE_STAT.INH p g) = 0 ∧ rotListed s u (s.rd (R.PART_CORE_STAT.PC p g)) ∧ rotPossible s u then
      wr (stFld u) US.ROTATE
    else coreNext p g)

/-- CORE_END (R101, R102, R450): the program ends and the end token is pushed; the program counter stays at END (log entry 24). -/
def execCoreEnd (p g : Nat) (f : Flt) (s : State) : Host.Outcome State Fault Refusal :=
  act (Instr.wf (.coreEnd p g f)) s (coreTurn p g f do
    let u := uidOf p 1 g
    let c ← core p g
    if !isProd (← st) p c.endQ u || c.acquired.contains c.endQ then coreIllegal p g
    else if (← rd (R.PART_Q_CREDIT.CREDIT p c.endQ)) = 0 then stallP u p c.endQ
    else do
      upCore p g fun c => { c with shield := false }
      wr (stFld u) US.IDLE
      pushSlot p c.endQ u (tokenBytes u)
      publishSlot p c.endQ
      match c.ctx with
      | some x => refreshPhase x
      | none => pure ())

/-- INTERRUPT_ENTRY (R110): the lowest-numbered pending, unmasked source c; EPC, ICAUSE and INH are written and the core goes to
IVBASE + 32 c. A stall ends while the handler runs (R103). Parity of the interrupt controller's state is checked (Table 03-4). -/
def execInterruptEntry (p g : Nat) (f : Flt) (s : State) : Host.Outcome State Fault Refusal :=
  act (Instr.wf (.interruptEntry p g f)) s do
    let s ← st
    let u := uidOf p 1 g
    let c ← core p g
    let v := s.rd (stFld u)
    let live := v == US.RUN || v == US.WAIT_Q || v == US.WAIT_CREDIT || v == US.WFI
    match lowBit (irqOpen s p g) 128 0 with
    | none => pure ()
    | some i =>
      if live ∧ issuing s p ∧ !inEngineReset s u ∧ c.ie ∧ s.rd (R.PART_CORE_STAT.INH p g) = 0 ∧ !c.shield then
        if f.parity then coreFail p g (R.PART_CORE_STAT.PARITY p g) CK.PARITY S.CHECK_FAIL D.RESIDUE else do
        coreUnwait p g
        upCore p g fun c => { c with epc := BitVec.ofNat 64 (4 * s.rd (R.PART_CORE_STAT.PC p g)) }
        wr (R.PART_CORE_STAT.ICAUSE p g) i
        setF (R.PART_CORE_STAT.INH p g)
        coreJump p g ((c.ivbase.toNat + 32 * i) / 4)
      else pure ()

/-- TIMER_FIRE (R113): TIME reaches the compare value, which has not been written since it last fired. -/
def execTimerFire (p g t : Nat) (s : State) : Host.Outcome State Fault Refusal :=
  act (Instr.wf (.timerFire p g t)) s do
    let s ← st
    let c ← core p g
    let cmp := if t = 0 then c.tcmp0 else c.tcmp1
    if (if t = 0 then c.arm0 else c.arm1) then do
      eff (.pass (cmp.toNat - s.clk.time.toNat))
      upCore p g fun c => if t = 0 then { c with arm0 := false, fired0 := true } else { c with arm1 := false, fired1 := true }
      refreshCore p g
    else pure ()

end Sys2Proof.Machine
end

