-- ==== Sys2Proof/Machine/Descriptors.lean ====
section
/-!
DEFINITION. The operations of host descriptors (R181, R187 to R202). Each starts the accepted operation that it names when R187 lets it start;
otherwise it changes nothing.
-/

namespace Sys2Proof.Machine

variable {o : State}

/-- The operation is of opcode c. -/
def isOpc (c : Nat) (x : Op) : Bool := x.opc == c

/-- Start an operation of a kind and carry it out. -/
def withOp (opid : Nat) (kind : Op → Bool) (f : Op → M o Unit) : M o Unit := do
  match ← startOp opid kind with
  | none => pure ()
  | some x => f x

/-- NOP (Table 05-9). -/
def execNop (opid : Nat) (s : State) : Host.Outcome State Fault Refusal :=
  act (Instr.wf (.nop opid)) s do
    withOp opid (isOpc OPC.NOP) fun _ => doneOp opid 0

/-- RUN_PHASE (R190, R191): the phase is bound and waits in the gate queue, or the operation fails. -/
def execRunPhase (opid : Nat) (s : State) : Host.Outcome State Fault Refusal :=
  act (Instr.wf (.runPhase opid)) s do
    withOp opid (isOpc OPC.RUN) fun x => do
      let s ← st
      let c := x.slot
      if s.rd (R.HIF_CTX_STATc.STATE c) ≠ CS.IDLE then failOp opid S.CHECK_FAIL D.BAD_CONTEXT 0
      else if (tget Ctx.init s.host.ctx c).nPhase ≤ x.f 1 0 16 then failOp opid S.CHECK_FAIL D.BAD_DESCRIPTOR 0
      else if s.rd (R.HIF_CTX_STATc.LOST c) = 1 then failOp opid S.CHECK_FAIL D.LOST_RANGE 0
      else bindPhase c (x.f 1 0 16) opid ((x.words.drop 2).take 5)

/-- COPY (R198): LENGTH bytes move between host and module memory; `d` is what the host answers to the read. -/
def execCopy (opid : Nat) (d : HostData) (f : Flt) (s : State) : Host.Outcome State Fault Refusal :=
  act (Instr.wf (.copy opid d f)) s do
    withOp opid (isOpc OPC.COPY) fun x => do
      applyUps f.ups
      let n := x.f 3 0 32
      let dst := x.f 2 0 64
      let toMod := x.f 3 33 1 = 1
      if toMod ∧ vaultBase ≤ dst then do
        setF R.MEM_VLT_STAT.REGION_REFUSED
        failOp opid S.CHECK_FAIL D.REGION_REFUSED 0
      else do
        let r ← (if x.f 3 32 1 = 1 then readMem RC.host 0 (x.f 1 0 64) n
          else match d with
            | .error => pure (.error D.HOST_READ)
            | .data b => pure (.ok (padTo n (b.take n))))
        match r with
        | .error e => failOp opid S.DATA_LOSS e 0
        | .ok b =>
          if toMod then
            match ← writeMem RC.host 0 dst b with
            | .error e => failOp opid S.DATA_LOSS e 0
            | .ok _ => doneOp opid n
          else do
            send (.hostWrite dst b)
            doneOp opid n

/-- FIRST (R199): the installation in progress and its LOAD_IMAGE operations in flight end, a new one starts, and the inactive slot is
unverified. -/
def beginInstall (x : Op) : M o Unit := do
  let s ← st
  each ((earlier s x.opid).filter fun e => e.opc == OPC.LOAD && !isLocked s e) fun e => lockOp e.opid S.ABORTED D.SUPERSEDED 0 e.moved true
  eff (.vlt fun v => { v with inst := some ⟨[], []⟩ })
  markSlot (1 - s.nv.super.active) false

/-- LOAD_IMAGE (R199): one CRC-checked chunk goes into the inactive slot; its entry waits for the journal commit (R155), or for the verification
that LAST asks for. No page is programmed in a brownout hold (R156): the operation starts when it ends. -/
def execLoadImage (opid : Nat) (d : HostData) (s : State) : Host.Outcome State Fault Refusal :=
  act (Instr.wf (.loadImage opid d)) s do
    if (← st).vlt.held then pure () else withOp opid (isOpc OPC.LOAD) fun x => do
      when_ x.first (beginInstall x)
      let s ← st
      let n := x.f 3 0 32
      let off := x.f 2 0 64
      match s.vlt.inst, d with
      | none, _ => failOp opid S.CHECK_FAIL D.NO_INSTALLATION 0
      | some _, .error => failOp opid S.DATA_LOSS D.HOST_READ 0
      | some _, .data b0 =>
        let b := padTo n (b0.take n)
        if crc32c b ≠ x.f 3 32 32 then failOp opid S.CHECK_FAIL D.BLOCK_CRC 0
        else if !(← wearTake n false) then do
          setF R.MEM_VLT_STAT.WEAR_REFUSED
          failOp opid S.CHECK_FAIL D.WEAR_REFUSED 0
        else do
          let a := slotBase (1 - s.nv.super.active) + off
          pageWrite a b
          let bl := (List.range (n / 65536)).map (off / 65536 + ·)
          eff (.vlt fun v => { v with
            inst := v.inst.map fun i => { i with blocks := i.blocks ++ bl.filter (!i.blocks.contains ·), opids := i.opids ++ [opid] }
            waiting := v.waiting ++ [opKey opid] })
          upOp opid fun x => { x with moved := n, ready := false }
          if x.last then pure () else lockOp opid S.COMPLETE 0 0 n false

/-- IMAGE_VERIFY (R199): a LAST operation checks that every block is present, reads the slot and verifies it (R166). -/
def execImageVerify (opid : Nat) (s : State) : Host.Outcome State Fault Refusal :=
  act (Instr.wf (.imageVerify opid)) s do
    let s ← st
    match opOf s opid, s.vlt.inst with
    | some x, some i =>
      if x.last && decide (x.st = .started) && !s.vlt.waiting.contains (opKey opid) then do
        let k := 1 - s.nv.super.active
        let len := leNat (peek s (slotBase k + 0x10) 8)
        if !(i.blocks.contains 0) || !((List.range ((len + 65535) / 65536)).all (i.blocks.contains ·)) then
          failOp opid S.CHECK_FAIL D.IMAGE_INCOMPLETE x.moved
        else match ← readVault RC.load 0 (slotBase k) len with
          | .error e => failOp opid S.DATA_LOSS e x.moved
          | .ok _ => do
            let ok := imageVerifies s k
            markSlot k ok
            eff (.vlt fun v => { v with inst := none })
            if ok then doneOp opid x.moved else failOp opid S.CHECK_FAIL D.SIG_FAIL x.moved
      else pure ()
    | _, _ => pure ()

/-- BIND_CONTEXT (R170, R188): checks, then the slot is BINDING. A page of the plan image that cannot be read ends it DATA_LOSS (R153). -/
def execBindContext (opid : Nat) (s : State) : Host.Outcome State Fault Refusal :=
  act (Instr.wf (.bindContext opid)) s do
    withOp opid (fun x => x.opc == OPC.BIND && !x.unbind) fun x => do
      let s ← st
      let c := x.slot
      let pc := x.f 1 0 6
      let r := planCtx s pc
      if s.rd (R.HIF_CTX_STATc.STATE c) ≠ CS.UNBOUND then failOp opid S.CHECK_FAIL D.BAD_CONTEXT 0
      else match ← readSpans (if activeVerified s then ctxSpans s pc else []) with
        | some e => failOp opid S.DATA_LOSS e 0
        | none =>
          if planCheck s pc ≠ 0 then failOp opid S.CHECK_FAIL D.PLAN_ERROR (planCheck s pc)
          else if planConflict s c r then failOp opid S.CHECK_FAIL D.UNIT_CONFLICT 0
          else do
            wrs [(R.HIF_CTX_STATc.STATE c, CS.BINDING), (R.HIF_CTX_STATc.PLAN_CTX c, pc)]
            let us := ctxUnits s r
            let ps := ctxPool s r
            let qs := ctxQueues s r
            let rs := ctxRanges s r.firstRange r.nRanges
            upCtx c fun _ => { Ctx.init with
              units := us, pmask := r.pmask, pool := ps, queues := qs, ranges := rs, nPhase := r.nPhase, phaseTab := r.phaseTab, bindOp := some opid }
            eff (.pw fun p => { p with hist := p.hist.filter fun e => e.slot ≠ c })

/-- BIND_COMPLETE (R162, R188, R197): ranges not yet landed load, STORE ranges load, and the slot is IDLE; a range that cannot land yet keeps the
slot BINDING. `bad`: vault pages whose read fails (R153). -/
def execBindComplete (slot : Nat) (bad : List Nat) (s : State) : Host.Outcome State Fault Refusal :=
  act (Instr.wf (.bindComplete slot bad)) s do
    let s ← st
    let x := tget Ctx.init s.host.ctx slot
    match s.rd (R.HIF_CTX_STATc.STATE slot) == CS.BINDING, x.bindOp with
    | true, some id => do
      eff (.mem fun m => { m with badPages := m.badPages ++ bad.map fun a => a / 4096 * 4096 })
      match ← loadRanges (x.ranges.filter fun r => isStore r || !hasLanded s r) with
      | .waits => pure ()
      | .lost e => do
        freeSlot slot
        failOp id S.DATA_LOSS e 0
      | .landed => do
        wrs [(R.HIF_CTX_STATc.STATE slot, CS.IDLE), (R.HIF_CTX_STATc.LOST slot, 0), (R.HIF_CTX_STATc.PREF_MODE slot, 0),
          (R.HIF_CTX_STATc.PREF_OP slot, 0)]
        upCtx slot fun c => { c with energy := 0, settled := 0, bindOp := none }
        doneOp id 0
    | _, _ => pure ()

/-- UNBIND_CONTEXT (R189): the slot drains, and is freed at once when it has no phase. -/
def execUnbindContext (opid : Nat) (s : State) : Host.Outcome State Fault Refusal :=
  act (Instr.wf (.unbindContext opid)) s do
    withOp opid (fun x => x.unbind) fun x => do
      let s ← st
      let c := x.slot
      if s.rd (R.HIF_CTX_STATc.STATE c) = CS.UNBOUND then failOp opid S.CHECK_FAIL D.BAD_CONTEXT 0
      else if (phaseOf s c).isNone then do
        freeSlot c
        doneOp opid 0
      else do
        wr (R.HIF_CTX_STATc.STATE c) CS.DRAIN
        upCtx c fun y => { y with unbinds := y.unbinds ++ [opid] }

/-- Operations that a FENCE waits for (R187). -/
def fenceScope (s : State) (x : Op) : List Op :=
  (earlier s x.opid).filter fun e => match x.f 1 0 2 with
    | 0 => e.ring == x.ring
    | 1 => takesCtx e.words && e.slot == x.slot
    | _ => true

/-- FENCE (R187): completes when every earlier-fetched operation of its scope has completed. -/
def execFence (opid : Nat) (s : State) : Host.Outcome State Fault Refusal :=
  act (Instr.wf (.fence opid)) s do
    let s ← st
    withOp opid (fun x => x.opc == OPC.FENCE && (fenceScope s x).isEmpty) fun _ => doneOp opid 0

/-- Wrap of the submission ring in which an OPID's slot was fetched, if it was fetched fewer than 256 wraps before (R182, R200). -/
def fetchedWrap (s : State) (id : Nat) : Option Nat :=
  let n := id / 2 ^ 24
  let slot := id % 65536
  let w := (ringOf s n).wraps
  let d := (w + 256 - id / 65536 % 256) % 256
  if d = 0 ∧ slot < s.rd (R.HIF_RING_POSn.SQ_HEAD n) then some w
  else if 0 < d ∧ d ≤ w ∧ slot < sqSize s n then some (w - d)
  else none

/-- ABORT of one operation (R200, R202). Units that an engine reset has left running in an operation already locked stop with it (R344; log entry
107). -/
def execAbort (opid : Nat) (s : State) : Host.Outcome State Fault Refusal :=
  act (Instr.wf (.abort opid)) s do
    withOp opid (fun x => x.opc == OPC.ABORT && x.f 1 32 1 == 0) fun x => do
      let s ← st
      let t := x.f 1 0 32
      match fetchedWrap s t with
      | none => failOp opid S.CHECK_FAIL D.BAD_TARGET 0
      | some w =>
        if (ringOf s (t / 2 ^ 24)).aborts.contains (w * 65536 + t % 65536) then failOp opid S.CHECK_FAIL D.BAD_TARGET 0
        else do
          let id := opKeyOf (t / 2 ^ 24) w (t % 65536)
          upOp opid fun y => { y with after := [id] }
          match opOf s id with
          | none => failOp opid S.ALREADY_DONE D.ALREADY_DONE 0
          | some y => do
            endOp y D.HOST_ABORT
            if isLocked s y then failOp opid S.ALREADY_DONE D.ALREADY_DONE 0 else doneOp opid 0

/-- ABORT of a context's operations (R200, R202). -/
def execAbortContext (opid : Nat) (s : State) : Host.Outcome State Fault Refusal :=
  act (Instr.wf (.abortContext opid)) s do
    withOp opid (fun x => x.opc == OPC.ABORT && x.f 1 32 1 == 1) fun x => do
      let s ← st
      let l := s.host.ops.filter fun y => y.opc != OPC.ABORT && takesCtx y.words && y.slot == x.slot && !isLocked s y
      upOp opid fun y => { y with after := l.map (·.opid) }
      each l fun y => endOp y D.CONTEXT_ABORT
      lockPhase x.slot S.ABORTED D.CONTEXT_ABORT 0 0
      doneOp opid 0

/-- A signed number as n little-endian bytes. -/
def leInt (n : Nat) (v : Int) : List Byte := leBytes n (v % 2 ^ (8 * n)).toNat

/-- The energy report of Table 05-12. -/
def energyReport (s : State) (mask : Nat) : List Byte :=
  let cs := bitList 64 mask
  let h := s.host
  leBytes 8 s.clk.time.toNat ++ leBytes 8 h.moduleUj ++ leBytes 8 h.unattrUj ++ leInt 4 (h.level / 1000) ++ leBytes 4 cs.length ++ zeros 32 ++
    cs.flatMap fun c =>
      let x := tget Ctx.init h.ctx c
      leBytes 1 c ++ leBytes 1 (s.rd (R.HIF_CTX_STATc.STATE c)) ++ leBytes 2 (s.rd (R.HIF_CTX_STATc.PLAN_CTX c)) ++ leBytes 4 x.settled
        ++ leBytes 8 x.energy

/-- QUERY_ENERGY (R196). -/
def execQueryEnergy (opid : Nat) (s : State) : Host.Outcome State Fault Refusal :=
  act (Instr.wf (.queryEnergy opid)) s do
    withOp opid (isOpc OPC.QUERY) fun x => do
      send (.hostWrite (x.f 1 0 64) (energyReport (← st) (x.f 2 0 64)))
      doneOp opid 0

/-- SET_OP_PREF (R197): a point above the fused ceiling is clamped and recorded (R3). -/
def execSetOpPref (opid : Nat) (s : State) : Host.Outcome State Fault Refusal :=
  act (Instr.wf (.setOpPref opid)) s do
    withOp opid (isOpc OPC.PREF) fun x => do
      let s ← st
      let c := x.slot
      let m := x.f 1 0 2
      let v := x.f 1 2 3
      if s.rd (R.HIF_CTX_STATc.STATE c) = CS.UNBOUND then failOp opid S.CHECK_FAIL D.BAD_CONTEXT 0
      else do
        let top := Config.topPoint s.nv.fuses.variant
        let v' := if m = 1 then max v top else v
        wrs [(R.HIF_CTX_STATc.PREF_MODE c, m), (R.HIF_CTX_STATc.PREF_OP c, v')]
        when_ (v' != v) (evRaw E.CLAMPED SK.hw 0 [I.VALUE v, I.VALUE v'])
        doneOp opid 0

end Sys2Proof.Machine
end

