-- ==== Sys2Proof/Machine/Gate.lean ====
section
/-!
DEFINITION. The energy gate (R191 to R195): its tick, admissions, and the end of a phase with leftovers (R65) and settlement (R192). SERVE_START,
SERVE_STOP and GATE_STOP are register writes and stand in Access.lean.
-/

namespace Sys2Proof.Machine

variable {o : State}

/-- CAP of R192, uJ. -/
def gateCap : Int := 64000000

/-- The energy gate pushes one slot, published at once (R191, R450). -/
def gatePush (p q : Nat) (b : List Byte) : M o Unit := do
  if (← rd (R.PART_Q_CREDIT.CREDIT p q)) = 0 then pure () else do
    pushSlot p q (uidOf p 4 0) b
    publishSlot p q
    kickQ p q

/-- Admission of the phase in slot c (R191, R192, R286): debit, argument slot, start tokens, and its operation timers start (R195). -/
def admitPhase (c : Nat) : M o Unit := do
  let s ← st
  match phaseOf s c with
  | none => eff (.host fun h => { h with gateQ := h.gateQ.filter (· ≠ c) })
  | some ph => do
    eff (.host fun h => { h with level := max (-gateCap) (h.level - (1000 * ph.decl : Nat)), gateQ := h.gateQ.filter (· ≠ c) })
    upPhase c fun x => { x with
      admitted := true, admitAt := s.clk.mono, kAdmit := s.rd R.PWR_STAT.OP_NOW
      slotPref := (s.rd (R.HIF_CTX_STATc.PREF_MODE c), s.rd (R.HIF_CTX_STATc.PREF_OP c)) }
    upOp ph.opid fun x => { x with info0 := (s.clk.mono - ph.enterAt) / 1000 }
    retarget
    when_ (ph.argQ != 0xFFFF)
      (gatePush (fget ph.argQ 13 3) (fget ph.argQ 0 10) (padTo 256 (ph.args.flatMap fun w => leBytes 8 w.toNat)))
    each ph.units fun u => do
      gatePush (uPart u) (unitStartQ (← st) u) (tokenBytes (c * 65536 + ph.num))
    lockDone c
    refreshPhase c

/-- The phase that the gate may admitPhase now (R192): the oldest FABRIC phase that has waited 20 ms, else the head if the level covers it. -/
def gatePick (s : State) : Option Nat :=
  match s.host.gateQ.find? fun c => match phaseOf s c with
    | some ph => ph.fabric && decide (ph.enterAt + 20000000 ≤ s.clk.mono)
    | none => false with
  | some c => some c
  | none => match s.host.gateQ with
    | [] => none
    | c :: _ => match phaseOf s c with
      | some ph => if ((1000 * ph.decl : Nat) : Int) ≤ s.host.level then some c else none
      | none => some c

/-- GATE_TICK (R192): 1 us passes, the bucket fills, and while the gate is open phases are admitted. -/
def execGateTick (s : State) : Host.Outcome State Fault Refusal :=
  act (Instr.wf .gateTick) s do
    periodic K.gate 1000
    let s ← st
    if s.ctl.mode = .ready ∨ s.ctl.mode = .run ∨ s.ctl.mode = .drain ∨ s.ctl.mode = .hold then do
      let p := s.rd R.PWR_INPUT.POWER_W
      eff (.host fun h => { h with
        level := min gateCap (h.level + ((s.rd R.PWR_CLIP.EFF_W - h.otherW : Nat) : Int))
        moduleUj := h.moduleUj + p, unattrUj := h.unattrUj + p })
      loop 65 do
        let s ← st
        if gateClosed s then return false
        else match gatePick s with
          | none => return false
          | some c => do
            admitPhase c
            return true
    else pure ()

/-- FABRIC_ADMIT_DEADLINE (R194): a FABRIC phase that has waited 20 ms is admitted unless the gate is closed. -/
def execFabricAdmitDeadline (slot : Nat) (s : State) : Host.Outcome State Fault Refusal :=
  act (Instr.wf (.fabricAdmitDeadline slot)) s do
    let s ← st
    match phaseOf s slot with
    | none => pure ()
    | some ph =>
      if ph.fabric && s.host.gateQ.contains slot && !gateClosed s then do
        advTo (ph.enterAt + 20000000)
        admitPhase slot
      else pure ()

/-- Slots that a queue still holds: written and not read to their release (R65). -/
def heldSlots (s : State) (p q : Nat) : Nat :=
  let x := queOf s p q
  if uKind (s.rd (R.PART_Q_ENDS.CONS p q)) = 1 then x.wr - x.rel else x.wr - x.rd

/-- A queue of an ended phase: held slots set LEFTOVER with an event; they are discarded and the queue is wired no more (R65), but `keep`, after any
other end than COMPLETE, leaves them and the queue as they are until the next binding (R77, Table 05-13; log entry 87). -/
def dropQueue (p q : Nat) (keep : Bool) : M o Unit := do
  let s ← st
  let n := heldSlots s p q
  when_ (decide (0 < n)) (do
    setF (R.PART_Q_OCC.LEFTOVER p q)
    ev E.Q_LEFTOVER SK.hw 0 [I.VALUE (p * 8192 + q), I.COUNT n])
  when_ (!keep) (do
    wrs [(R.PART_Q_OCC.OCC p q, 0), (R.PART_Q_CFG.VALID p q, 0)]
    upQue p q fun x => { x with pub := x.wr, rd := x.wr, rel := x.wr, owed := 0 }
    refreshEnds p q)

/-- A unit belongs to no phase any more. -/
def unbindUnit (u : Nat) : M o Unit := do
  if uKind u = 0 then do
    upArr (uPart u) (uIdx u) fun a => { a with ctx := none }
    when_ (decide ((← rd (R.PART_ARR_STAT.PAIR (uPart u) (uIdx u))) = 1)) (upArr (uPart u) (uIdx u + 1) fun a => { a with ctx := none })
  else if uKind u = 1 then upCore (uPart u) (uIdx u) fun a => { a with ctx := none }
  else upStr (uPart u) (uIdx u) fun a => { a with ctx := none }

/-- Settlement of an admitted phase (R192, R287). -/
def settle (c : Nat) (ph : Phase) : M o Unit := do
  let s ← st
  let m := ph.meas / 1000000
  let us := (s.clk.mono - ph.admitAt) / 1000
  eff (.host fun h => { h with
    level := max (-gateCap) (min gateCap (h.level + (1000 * ph.decl : Nat) - (m : Nat))), unattrUj := h.unattrUj - m })
  upCtx c fun x => { x with energy := x.energy + m, settled := (x.settled + 1) % 2 ^ 32 }
  upOp ph.opid fun x => { x with energy := min m 0xFFFFFFFF, info1 := us }
  when_ (decide (2000 * ph.decl < m)) (ev E.PHASE_ENERGY_OVER SK.hw 0 [I.PHASE (c * 2 ^ 32 + ph.num), I.VALUE ph.decl, I.VALUE m])
  let h : Hist := ⟨c, ph.num, s.rd R.PWR_STAT.OP_NOW, m / max 1 us, us⟩
  eff (.pw fun p => { p with hist := (h :: p.hist.filter fun e => !(e.slot == c && e.phase == ph.num)).take 4096 })

/-- The context slot after its phase: IDLE, or a draining slot that an UNBIND frees (R189, R191). -/
def slotAfter (c : Nat) : M o Unit := do
  let s ← st
  if s.rd (R.HIF_CTX_STATc.STATE c) = CS.DRAIN then
    let ids := (tget Ctx.init s.host.ctx c).unbinds
    when_ (!ids.isEmpty) (freeSlot c)
    each ids fun id => doneOp id 0
  else wr (R.HIF_CTX_STATc.STATE c) CS.IDLE

/-- PHASE_END (R191): every unit has ended or stopped; leftovers go, energy settles, the point is chosen anew (R286), the slot returns to
IDLE and a draining module may reach READY (R204). -/
def execPhaseEnd (slot : Nat) (s : State) : Host.Outcome State Fault Refusal :=
  act (Instr.wf (.phaseEnd slot)) s do
    let s ← st
    match phaseOf s slot with
    | none => pure ()
    | some ph => match ph.outcome with
      | none => pure ()
      | some (status, detail, unit, info0) =>
        if !ph.over then pure () else do
          each ph.queues fun pq => dropQueue pq.1 pq.2 (decide (status ≠ S.COMPLETE))
          each ph.units unbindUnit
          when_ ph.admitted (settle slot ph)
          let wait := (ph.admitAt - ph.enterAt) / 1000
          lockOp ph.opid status detail unit (if status = S.TIMEOUT then info0 else wait) true
          upCtx slot fun x => { x with phase := none }
          slotAfter slot
          when_ ph.admitted (do
            retarget
            drainDone)

end Sys2Proof.Machine
end

