-- ==== Sys2Proof/Machine/Guards.lean ====
section
/-!
DEFINITION. The guard supervisor's outputs (R381, R382), the first rung of a fault (R384, Table 10-4) and the in-service sweep (R390).
-/

namespace Sys2Proof.Machine

variable {o : State}

/-- The asserted bit of a trip kind in a channel's register. -/
def assertFld (ch kind : Nat) : Fld :=
  match kind with
  | 1 => R.GRD_CHc.A_TEMP ch
  | 2 => R.GRD_CHc.A_CURR ch
  | 3 => R.GRD_CHc.A_VOLT ch
  | _ => R.GRD_CHc.A_CLK ch

/-- SUSPECT flag of a channel. -/
def suspectFld (ch : Nat) : Fld := if ch = 0 then R.GRD_STAT.SUSPECT_A else if ch = 1 then R.GRD_STAT.SUSPECT_B else R.GRD_STAT.SUSPECT_C

/-- Channels whose comparator of a kind is asserted. -/
def asserted (s : State) (kind : Nat) : List Nat := (List.range 3).filter fun c => s.rd (assertFld c kind) == 1

/-- A lone comparator forces OP7: from its 100 us until it releases or its channel is SUSPECT for it (R382). -/
def guardForcing (s : State) : Bool :=
  [1, 2, 3, 4].any fun k => (asserted s k).any fun c => decide (tget 0 s.clk.seen (K.single c k) ≠ 0)

/-- GRD_STAT follows the comparators; OP7 is forced or the forced state may end (R382). -/
def refreshGuard : M o Unit := do
  let s ← st
  wrB R.GRD_STAT.SINGLE ([1, 2, 3, 4].any fun k => (asserted s k).length == 1)
  let f := guardForcing s
  wrB R.GRD_STAT.FORCE f
  if f then forceDrop else forcedOff

/-- Two channels vote: the hot-swap controller switches off with cause GUARD, the trip kind and the voting channels in DETAIL (R381). -/
def guardTripOff (kind channels : Nat) : M o Unit := switchOff 4 (kind * 16 + channels) true

/-- GUARD_TRIP (R381). -/
def execGuardTrip (kind channels : Nat) (s : State) : Host.Outcome State Fault Refusal :=
  act (Instr.wf (.guardTrip kind channels)) s
    (when_ (decide (2 ≤ popCount 3 channels)) (guardTripOff kind channels))

/-- GUARD_SINGLE (R382): an assertion of the kind that another channel shows already is a vote of two. -/
def execGuardSingle (ch kind : Nat) (s : State) : Host.Outcome State Fault Refusal :=
  act (Instr.wf (.guardSingle ch kind)) s do
    let s ← st
    let l := asserted s kind
    if s.hs.rails.isEmpty || l.contains ch then pure ()
    else if !l.isEmpty then guardTripOff kind (maskOf (ch :: l))
    else do
      setF (assertFld ch kind)
      eff (.seen (K.single ch kind) (s.clk.mono + 1))
      incSat R.GRD_STAT.SINGLE_CNT
      ev E.GUARD_SINGLE SK.hw 0 [I.VALUE kind, I.VALUE ch]
      refreshGuard

/-- GUARD_SUSPECT (R382): 1 ms alone, 900 us after GUARD_SINGLE. -/
def execGuardSuspect (ch kind : Nat) (s : State) : Host.Outcome State Fault Refusal :=
  act (Instr.wf (.guardSuspect ch kind)) s do
    let s ← st
    let t := tget 0 s.clk.seen (K.single ch kind)
    if asserted s kind = [ch] ∧ t ≠ 0 then do
      advTo (t + 900000)
      setF (suspectFld ch)
      eff (.seen (K.single ch kind) 0)
      refreshGuard
    else pure ()

/-- GUARD_SINGLE_RELEASE (R382). -/
def execGuardSingleRelease (ch kind : Nat) (s : State) : Host.Outcome State Fault Refusal :=
  act (Instr.wf (.guardSingleRelease ch kind)) s do
    if (asserted (← st) kind).contains ch then do
      wr (assertFld ch kind) 0
      eff (.seen (K.single ch kind) 0)
      refreshGuard
    else pure ()

/-- DETAIL with which the operation that met a fault of Table 10-4 ends. -/
def faultDetail (code : Nat) : Option Nat :=
  match code with
  | 1 => some D.RESIDUE
  | 2 => some D.SHADOW_MISMATCH
  | 3 => some D.MEMORY_UE
  | 6 => some D.CHANNEL_FAILED
  | 7 => some D.PACKAGE_PATH
  | _ => none

/-- DETAIL and UNIT of an operation whose status is locked, its bound phase's outcome included. -/
def lockedAs (s : State) (x : Op) : Option (Nat × Nat) :=
  if x.st = .locked then some (x.detail, x.unit)
  else ((phaseSlot s x.opid).bind (phaseOf s ·)).bind fun ph => ph.outcome.map fun r => (r.2.1, r.2.2.1)

/-- The operation that met the fault still waits for its completion entry (R384): one locked with the fault's DETAIL, and for a unit's fault by that
unit. -/
def entryWaits (s : State) (code unit : Nat) : Bool :=
  s.host.ops.any fun x => (lockedAs s x).any fun r => some r.1 == faultDetail code && (decide (6 ≤ code) || evenOf s r.2 == evenOf s unit)

/-- ESCALATE (R384, R385, R391): the first rung of Table 10-4 for a noted fault: its code and the unit, or the partition in [15:13], that it names,
once the failed operation's completion entry is written; a unit's rung waits until its phase has ended, and for the end of another engine reset. -/
def execEscalate (code unit : Nat) (s : State) : Host.Outcome State Fault Refusal :=
  act (Instr.wf (.escalate code unit)) s do
    let s ← st
    let p := uPart unit
    let free := engUnit unit && decide (uKind unit ≤ 1) && (unitCtx s (evenOf s unit)).isNone
    if !serving s || unavail s p || !s.watch.faults.contains (code, unit) || entryWaits s code unit then pure ()
    else match code with
      | 1 => when_ free (climbEngine unit 1)
      | 2 => when_ (free && s.rd (R.PART_ARR_STAT.PAIR p (uIdx (evenOf s unit))) == 1) (climbEngine unit 2)
      | 3 => when_ free (climbEngine unit 3)
      | 5 => climbPartition p 5
      | 6 => climbPartition p 6
      | 7 => climbPartition p 7
      | _ => pure ()

/-- SWEEP_FAIL (R390): a free unit that fails the sweep, which runs every 24 h, is withheld from rotation. Failures of one sweep come one after the
other. -/
def execSweepFail (p kind phys : Nat) (s : State) : Host.Outcome State Fault Refusal :=
  act (Instr.wf (.sweepFail p kind phys)) s do
    let s ← st
    if serving s && !unavail s p && physFree s p kind phys then do
      when_ (decide (tget 0 s.clk.seen K.sweep = 0 ∨ tget 0 s.clk.seen K.sweep < s.clk.mono)) (periodic K.sweep 86400000000000)
      eff (.pw fun w => { w with withheld := w.withheld ++ [(p, kind, phys)] })
      ev E.SWEEP_FAIL SK.fw 0 [I.VALUE p, I.PHYS (uidOf p kind phys)]
    else pure ()

end Sys2Proof.Machine
end

