-- ==== Sys2Proof/Machine/Heat.lean ====
section
/-!
DEFINITION. Junction temperature (R290 to R295), coolant (R297 to R300) and thermal cycles (R301, R302).
-/

namespace Sys2Proof.Machine

variable {o : State}

/-- One hot spot's sample: the control temperature, its last 80 us, what the averages of R290 sum, and the rises that R291 and R294 watch. Below 100 °C
an excursion of R292 has ended. -/
def sampleSpot (i : Nat) (r : Int × Int × Int) : M o Unit := do
  let s ← st
  let t := control (s.rd (R.PWR_HSd_h.FAULT (i / 24) (i % 24)) == 1) (hsExcl s i) r
  wr (R.PWR_HSd_h.TEMP (i / 24) (i % 24)) (ux 12 t)
  let old := tget [] s.pw.trace i
  eff (.pw fun p => { p with trace := tset [] p.trace i ((t :: old).take 9) })
  let rise := t - (old.getD 7 (old.getLastD t))
  eff (.pw fun p =>
    let x := tget (0, 0, 0) p.chSum i
    { p with chSum := tset (0, 0, 0) p.chSum i (x.1 + r.1, x.2.1 + r.2.1, x.2.2 + r.2.2) })
  when_ (decide (t < 800)) (eff (.pw fun p => { p with victim := tset none p.victim i none }))
  when_ (decide (t < 776)) (mark (K.warm i))
  when_ (decide (800 < t)) (mark K.hot)
  when_ (decide (64 < rise * 100)) (mark K.rate)
  when_ (decide (840 ≤ t)) (setF R.PWR_STAT.F_HOT)
  when_ (decide (32 < rise * 10)) (setF R.PWR_STAT.F_RATE)

/-- HOTSPOT_SAMPLE (R290, R294, R295): the three channels' readings at every hot spot; OP7 is forced at 105 °C or on a rise above 0.4 °C in 80 us. -/
def execHotspotSample (r : List (Int × Int × Int)) (s : State) : Host.Outcome State Fault Refusal :=
  act (Instr.wf (.hotspotSample r)) s do
    periodic K.hotspot 10000
    let s ← st
    let before := s.rd R.PWR_STAT.F_HOT + s.rd R.PWR_STAT.F_RATE
    each (List.range 48) fun i => sampleSpot i (r.getD i (0, 0, 0))
    each [0, 1, 2] fun c =>
      wr (R.GRD_CHc.HOT c) (ux 12 (r.foldl (fun m x => max m (if c = 0 then x.1 else if c = 1 then x.2.1 else x.2.2)) (-2048)))
    let s ← st
    let tj := (List.range 48).foldl (fun m i => max m (hsTemp s i)) (-2048)
    eff (.pw fun p => { p with tj := tj, tjSum := p.tjSum + tj, tjCnt := p.tjCnt + 1, chCnt := p.chCnt + 1 })
    when_ (decide (before < s.rd R.PWR_STAT.F_HOT + s.rd R.PWR_STAT.F_RATE)) forceDrop
    withdraw

/-- The averages of two sums of `n` readings agree within 5 °C. -/
def agree (n : Nat) (a b : Int) : Bool := decide ((a - b).natAbs ≤ 40 * n)

/-- One hot spot's comparison of 1 ms averages, from the sums of the channels' readings (R290). -/
def compareSpot (i : Nat) : M o Unit := do
  let s ← st
  let n := s.pw.chCnt
  let r := tget (0, 0, 0) s.pw.chSum i
  let d := i / 24
  let h := i % 24
  let ex := hsExcl s i
  let ab := agree n r.1 r.2.1
  let ac := agree n r.1 r.2.2
  let bc := agree n r.2.1 r.2.2
  let fault : M o Unit := do
    if (← rd (R.PWR_HSd_h.FAULT d h)) = 1 then pure () else do
      setF (R.PWR_HSd_h.FAULT d h)
      ev E.SENSOR_FAULT SK.fw 0 [I.VALUE i]
  let out (f : Fld) (c : Nat) : M o Unit := do
    setF f
    ev E.SENSOR_EXCL SK.fw 0 [I.VALUE i, I.VALUE c]
  if ex.contains true then
    when_ ((ex.getD 0 false && !bc) || (ex.getD 1 false && !ac) || (ex.getD 2 false && !ab)) fault
  else if !ab && !ac && !bc then fault
  else if bc && !ab && !ac then out (R.PWR_HSd_h.EXCL_A d h) 0
  else if ac && !ab && !bc then out (R.PWR_HSd_h.EXCL_B d h) 1
  else if ab && !ac && !bc then out (R.PWR_HSd_h.EXCL_C d h) 2
  else pure ()

/-- SENSOR_COMPARE (R290): the averages of the millisecond's samples; a channel is excluded or SENSOR_FAULT raised. -/
def execSensorCompare (s : State) : Host.Outcome State Fault Refusal :=
  act (Instr.wf .sensorCompare) s do
    periodic K.compare 1000000
    each (List.range 48) compareSpot
    eff (.pw fun p => { p with chSum := [], chCnt := 0 })
    refreshSensors

/-- ROTATION_REQUEST (R293): one request per partition at a time, none within 50 ms of the unit's last rotation. -/
def execRotationRequest (unit : Nat) (s : State) : Host.Outcome State Fault Refusal :=
  act (Instr.wf (.rotationRequest unit)) s do
    let s ← st
    let last := if uKind unit = 0 then (tget Arr.init s.arrs (24 * uPart unit + uIdx unit)).rotAt
      else (tget Core.init s.cores (48 * uPart unit + uIdx unit)).rotAt
    let ok := decide (unit < 65536) && (uKind unit == 0 && decide (uIdx unit < 24) || uKind unit == 1 && decide (uIdx unit < 48))
    if ok && named s unit && rotWanted s unit && !(s.pw.rotReq.any fun u => uPart u == uPart unit)
        && (match last with
          | some t => decide (t + 50000000 ≤ s.clk.mono)
          | none => true) then setRot unit true
    else pure ()

/-- THROTTLE_STEP (R292): every 20 us at 100 °C or above, an array of the region loses one active cycle per frame: the one that this excursion
throttles while it is above 4, else `unit`, the hottest of the others by its digital sensor. -/
def execThrottleStep (d h : Nat) (unit : Nat) (s : State) : Host.Outcome State Fault Refusal :=
  act (Instr.wf (.throttleStep d h unit)) s do
    let s ← st
    let i := 24 * d + h
    let l := spotArrays s i
    let next := 24 * uPart unit + uIdx unit
    let key := match tget none s.pw.victim i with
      | some k => if l.contains k ∧ 4 < (tget Arr.init s.arrs k).duty then k else next
      | none => next
    if decide (800 ≤ hsTemp s i) && l.contains key && decide (4 < (tget Arr.init s.arrs key).duty) then do
      periodic (K.step i) 20000
      when_ (decide ((tget Arr.init s.arrs key).duty = 16)) (mark (K.thr key))
      eff (.arr key fun a => { a with duty := a.duty - 1 })
      eff (.pw fun p => { p with victim := tset none p.victim i (some key) })
      refreshThrottle
    else pure ()

/-- THROTTLE_RESTORE (R292): every 200 us at 98 °C or less, each throttled array of the region regains one cycle. -/
def execThrottleRestore (d h : Nat) (s : State) : Host.Outcome State Fault Refusal :=
  act (Instr.wf (.throttleRestore d h)) s do
    let s ← st
    let i := 24 * d + h
    if hsTemp s i ≤ 784 then do
      periodic (K.rest i) 200000
      each (spotArrays s i) fun k => when_ (decide ((tget Arr.init s.arrs k).duty < 16)) (eff (.arr k fun a => { a with duty := a.duty + 1 }))
      refreshThrottle
      withdraw
    else pure ()

/-- HOT_RELEASE (R291): every hot spot has been at 100 °C or less for 1 ms. -/
def execHotRelease (s : State) : Host.Outcome State Fault Refusal :=
  act (Instr.wf .hotRelease) s do
    let s ← st
    if s.rd R.PWR_STAT.F_HOT = 1 ∧ s.pw.tj ≤ 800 then do
      advTo (tget 0 s.clk.seen K.hot + 1000000)
      wr R.PWR_STAT.F_HOT 0
      forcedOff
    else pure ()

/-- RATE_RELEASE (R291): every hot spot has risen at 1 °C/ms or less for 10 ms and is at 95 °C or less. -/
def execRateRelease (s : State) : Host.Outcome State Fault Refusal :=
  act (Instr.wf .rateRelease) s do
    let s ← st
    if s.rd R.PWR_STAT.F_RATE = 1 ∧ s.pw.tj ≤ 760 then do
      advTo (tget 0 s.clk.seen K.rate + 10000000)
      wr R.PWR_STAT.F_RATE 0
      forcedOff
    else pure ()

/-- R_th after one second's filtering toward `r` (R298): time constants 10 s up and 60 s down. -/
def rthStep (rth r : Int) : Int :=
  rth + (r - rth) * (2 ^ 40 - (expNeg 1 (if rth < r then 10 else 60) : Int)) / 2 ^ 40

/-- THERM_W in W (R298). -/
def thermW (tin : Int) (rth : Nat) : Nat :=
  if 760 ≤ tin then 0 else min 0xFFFE ((760 - tin).toNat * 1000000000 / (8 * max 1 rth))

/-- The power controller runs: the module is powered, out of reset, and has reached step 4 of its start (R298). -/
def controlUp (s : State) : Bool := s.ctl.mode != .off && s.ctl.mode != .inReset && decide (4 ≤ s.rd R.HIF_BOOT_STATUS.STAGE)

/-- THERMAL_UPDATE (R298, R297): the second's averages of the hottest control temperature and the input power from their samples, with the 1 s averages
of the inlet and outlet sensors. -/
def execThermalUpdate (tin tout : Int) (s : State) : Host.Outcome State Fault Refusal :=
  act (Instr.wf (.thermalUpdate tin tout)) s do
    if !controlUp s then pure () else do
    periodic K.thermal 1000000000
    wrs [(R.PWR_COOL.T_IN, ux 12 tin), (R.PWR_COOL.T_OUT, ux 12 tout)]
    let s ← st
    let out := decide (tin < 160) || decide (360 < tin)
    when_ (out && !s.pw.inletOut) (ev E.INLET_RANGE SK.fw 0 [I.TEMP (ux 56 tin)])
    let n : Int := max 1 s.pw.tjCnt
    let watts : Int := s.pw.pwSum / max 1 s.pw.pwCnt
    when_ (decide (400 ≤ watts) && decide (0 < s.pw.tjCnt)) (do
      let r := (s.pw.tjSum - tin * n) * 125000000 / (n * watts)
      eff (.pw fun p => { p with rth := (rthStep p.rth r).toNat, rthSecs := p.rthSecs + 1 }))
    eff (.pw fun p => { p with inletOut := out, tin := tin, tjSum := 0, tjCnt := 0, pwSum := 0, pwCnt := 0 })
    let s ← st
    wr R.PWR_RTH.RTH (min 0xFFFF (s.pw.rth / 100000))
    when_ (decide (10 ≤ s.pw.rthSecs)) (setF R.PWR_RTH.VALID)
    wr R.PWR_CLIP_DER.THERM_W (thermW tin (if 10 ≤ s.pw.rthSecs then s.pw.rth else 30000000))
    refreshClip
    refreshFlow

/-- FLOW_MISMATCH (R300): input power and coolant heat have differed by more than 25 % for 10 s; one event. -/
def execFlowMismatch (s : State) : Host.Outcome State Fault Refusal :=
  act (Instr.wf .flowMismatch) s do
    let s ← st
    match s.pw.flowBad with
    | none => pure ()
    | some t =>
      if s.pw.flowTold then pure () else do
        advTo (t + 10000000000)
        eff (.pw fun p => { p with flowTold := true })
        ev E.FLOW_MISMATCH SK.fw 0 [I.VALUE (s.rd R.PWR_INPUT.POWER_W), I.VALUE (coolantW s)]

/-- CYCLE_SAMPLE (R301, R302): the hottest control temperature enters the rainflow count. -/
def execCycleSample (s : State) : Host.Outcome State Fault Refusal :=
  act (Instr.wf .cycleSample) s do
    periodic K.cycle 10000000
    eff (.pw fun p => { p with stack := turn p.tj p.stack })
    closeCycles
    trimStack
    refreshLife

/-- LIFE_SAVE (R301): every hour the counts and the stack go into the superblock through the journal, once the vault has mounted. -/
def execLifeSave (s : State) : Host.Outcome State Fault Refusal :=
  act (Instr.wf .lifeSave) s do
    periodic K.lifeSave 3600000000000
    let s ← st
    when_ s.ctl.doneTrain (eff (.vlt fun v => { v with
      life := some ([s.rd R.PWR_LIFE_N20.HALF, s.rd R.PWR_LIFE_N40.HALF, s.rd R.PWR_LIFE_N60.HALF], s.pw.stack) }))

end Sys2Proof.Machine
end

