-- ==== Sys2Proof/Machine/WorOps.lean ====
section
/-!
DEFINITION. Worisy requests (R397 to R404): the header checks, the kept responses, the lease check of an actuating command, the response and
the records; the lease itself (R405 to R408).
-/

namespace Sys2Proof.Machine

variable {o : State}

/-! Status codes (Table 11-2). OVERRUN does not arise: a request is answered in the step that takes it (log entry 49). -/
abbrev WS.OK := 0x00
abbrev WS.IN_PROGRESS := 0x01
abbrev WS.NOT_HOLDER := 0x02
abbrev WS.STALE_LEASE := 0x03
abbrev WS.LEASE_HELD := 0x04
abbrev WS.GUARD_TIME := 0x05
abbrev WS.BAD_CMD := 0x06
abbrev WS.BAD_ARG := 0x07
abbrev WS.BUSY := 0x08
abbrev WS.CLAMPED := 0x0A
abbrev WS.USE_COMMAND := 0x0B
abbrev WS.STATE := 0x0C
abbrev WS.AUTH_FAIL := 0x0D

/-! Commands (Table 11-3). -/
abbrev WC.PING := 0x0001
abbrev WC.INFO := 0x0002
abbrev WC.REG_READ := 0x0003
abbrev WC.REG_WRITE := 0x0004
abbrev WC.EVT_READ := 0x0005
abbrev WC.MEAS_READ := 0x0006
abbrev WC.LEASE_CLAIM := 0x0010
abbrev WC.LEASE_RENEW := 0x0011
abbrev WC.LEASE_RELEASE := 0x0012
abbrev WC.LEASE_STATUS := 0x0013
abbrev WC.SET_CLIP := 0x0020
abbrev WC.SET_RACK_CLIP := 0x0021
abbrev WC.SET_OP_CEIL := 0x0022
abbrev WC.FLOW_REPORT := 0x0023
abbrev WC.HOLD := 0x0024
abbrev WC.RESET := 0x0030
abbrev WC.MEMBER_RENEW := 0x0031
abbrev WC.FENCE := 0x0032
abbrev WC.READMIT := 0x0033
abbrev WC.CLR_FAILS := 0x0034
abbrev WC.ACTIVATE := 0x0040
abbrev WC.CONFIRM := 0x0041
abbrev WC.ROLLBACK := 0x0042
abbrev WC.ACTIVATE_PLAN := 0x0043
abbrev WC.EVT_CLEAR := 0x0044
abbrev WC.OWNER_CHALLENGE := 0x0050
abbrev WC.OWNER_ENROLL := 0x0051
abbrev WC.OWNER_REVOKE := 0x0052
abbrev WC.SET_SECURITY := 0x0053

/-- An answer: STATUS and payload. -/
abbrev Ans := Nat × List Byte

/-- An answer without payload. -/
def plain (status : Nat) : Ans := (status, [])

/-- Commands that CTL hardware serves while firmware is being activated (R419). -/
def servedBusy (cmd : Nat) : Bool :=
  [WC.LEASE_CLAIM, WC.LEASE_RENEW, WC.LEASE_RELEASE, WC.LEASE_STATUS, WC.MEMBER_RENEW, WC.PING].contains cmd

/-- The module answers BUSY to the command (R419). -/
def worBusy (s : State) (cmd : Nat) : Bool := s.rd R.UPD_STAT.STATE == UP.ACTIVATING && !servedBusy cmd

/-- Port p's state. -/
def worPort (s : State) (p : Nat) : WorPort := if p = 1 then s.worB else s.worA

/-- Change port p. -/
def upWor (p : Nat) (f : WorPort → WorPort) : M o Unit := eff (.wor (p == 1) f)

/-- A source's port as SRCKIND (Table 11-10). -/
def portKind (p : Nat) : Nat := 2 + p % 2

/-- A source's port as a writer. -/
def portSrc (p : Nat) : Src := if p = 1 then .worB else .worA

/-- A request was carried out or accepted. -/
def carried (status : Nat) : Bool := status == WS.OK || status == WS.IN_PROGRESS || status == WS.CLAMPED

/-- RESULT of a command's WRITE record (R448). -/
def cmdResult (status : Nat) : Nat := if status = WS.CLAMPED then WR.CLAMPED else if carried status then WR.APPLIED else WR.REFUSED

/-- Send the response, keep it with its request, and count a request carried out (R399, RST_WOR_STATp). -/
def answer (w : WReq) (cmd : Nat) (a : Ans) : M o Unit := do
  send (.worisy w.port w.seq cmd a.1 0 a.2)
  upWor w.port fun x => { x with
    kept := ((w.seq, w.crc, a.1, a.2) :: x.kept).take 4, open_ := if a.1 = WS.IN_PROGRESS then x.open_ ++ [(w.seq, cmd)] else x.open_ }
  when_ (carried a.1) (incWrap (R.RST_WOR_STATp.REQUESTS w.port))

/-- The kept response of a repeated request (R399). -/
def keptAnswer (s : State) (w : WReq) : Option Ans :=
  ((worPort s w.port).kept.find? fun x => x.1 == w.seq && x.2.1 == w.crc).map fun x => x.2.2

/-- A Worisy request: a repeated one gets its kept response and nothing else happens; any other is carried out and answered. A module without
power, or in manufacturing test, answers none of these commands (R328, Table 09-9). -/
def request (w : WReq) (cmd : Nat) (m : M o Ans) : M o Unit := do
  let s ← st
  if s.ctl.mode = .off ∨ s.ctl.mode = .mfgTest then pure ()
  else match keptAnswer s w with
    | some a => send (.worisy w.port w.seq cmd a.1 0 a.2)
    | none => do
      let a ← m
      answer w cmd a

/-- A command that needs no lease (R398, R401, R419): header checks, then its meaning. LGEN is 0 in its frame (log entry 50). -/
def freeCmd (w : WReq) (cmd : Nat) (m : M o Ans) : M o Unit :=
  request w cmd do
    let s ← st
    if w.rsv || w.lgen != 0 then return plain WS.BAD_CMD
    else if worBusy s cmd then return plain WS.BUSY
    else if w.badLen then return plain WS.BAD_ARG
    else m

/-- Which refusal an actuating command meets before its meaning, if any (R398, R402, R419). -/
def actRefusal (s : State) (w : WReq) (cmd : Nat) : Option Nat :=
  if w.rsv then some WS.BAD_CMD
  else if worBusy s cmd then some WS.BUSY
  else if s.rd R.RST_LEASE.HOLDER ≠ w.port + 1 then some WS.NOT_HOLDER
  else if s.rd R.RST_LEASE.LGEN ≠ w.lgen then some WS.STALE_LEASE
  else if w.badLen then some WS.BAD_ARG
  else none

/-- An actuating command (R402, R404): carried out for the lease's holder alone, and recorded with argument `v`, refused or not. -/
def actCmd (w : WReq) (cmd v : Nat) (m : M o Ans) : M o Unit :=
  request w cmd do
    let a ← match actRefusal (← st) w cmd with
      | some x => pure (plain x)
      | none => m
    cmdRec (portKind w.port) cmd v (cmdResult a.1)
    return a

/-- A 4-byte payload. -/
def word4 (n : Nat) : List Byte := leBytes 4 n

/-! The lease (R405 to R408). -/

/-- LEASE_CHANGE records the holder and the generation (log entry 45). -/
def leaseEvent : M o Unit := do
  let s ← st
  ev E.LEASE_CHANGE SK.hw 0 [I.VALUE (s.rd R.RST_LEASE.HOLDER), I.VALUE (s.rd R.RST_LEASE.LGEN)]

/-- Note an accepted claim or renewal. -/
def leaseTouch : M o Unit := do eff (.seen K.lease ((← now) + 1))

/-- LEASE_CLAIM (R405, R406). -/
def leaseClaim (port : Nat) : M o Ans := do
  let s ← st
  if s.rd R.RST_LEASE.HOLDER ≠ 0 then return plain WS.LEASE_HELD
  else if s.rd R.RST_LEASE.GUARD = 1 ∧ s.rd R.RST_LEASE.LAST ≠ port then return plain WS.GUARD_TIME
  else do
    let g := (s.rd R.RST_LEASE.LGEN + 1) % 256
    wrs [(R.RST_LEASE.HOLDER, port + 1), (R.RST_LEASE.GUARD, 0), (R.RST_LEASE.LAST, port), (R.RST_LEASE.LGEN, g)]
    leaseTouch
    leaseEvent
    return (WS.OK, word4 g)

/-- The lease ends, by expiry or release (R405 to R407): the guard time runs, and LEASE_LOST goes out. -/
def leaseEnds : M o Unit := do
  wrs [(R.RST_LEASE.HOLDER, 0), (R.RST_LEASE.GUARD, 1)]
  mark K.leaseEnd
  leaseEvent
  notice 0x8001 []

/-! Settings of the holder. -/

/-- SET_CLIP and SET_RACK_CLIP (R276, R3): the level, clamped to the fused ceiling, and the effective value. -/
def setLevel (f : Fld) (watts : Nat) : M o Ans := do
  let c := Config.contCeiling (← st).nv.fuses.variant
  wr f (min watts c)
  when_ (decide (c < watts)) (ev E.CLAMPED SK.fw 0 [I.VALUE watts, I.VALUE c])
  refreshClip
  return (if c < watts then WS.CLAMPED else WS.OK, word4 (← rd f))

/-- SET_OP_CEIL (R278, R3, R257): at once with time 0, else at its fabric time; a time already past is refused. -/
def setCeil (point time : Nat) : M o Ans := do
  let s ← st
  let top := Config.topPoint s.nv.fuses.variant
  let k := max point top
  if 7 < point ∨ (time ≠ 0 ∧ time ≤ s.clk.time.toNat) then return plain WS.BAD_ARG
  else do
    (if time = 0 then wr R.PWR_OP.MGMT_CEIL k else eff (.pw fun p => { p with ceilAt := some (time, k) }))
    when_ (decide (point < top)) (ev E.CLAMPED SK.fw 0 [I.VALUE point, I.VALUE top])
    return plain (if point < top then WS.CLAMPED else WS.OK)

/-- FLOW_REPORT (R299): below 60, which is 1.2 L/min, FLOW_W follows the flow and COOL_LOW is set; 100 is 2.0 L/min. -/
def flowPut (flow : Nat) : M o Ans := do
  if 254 < flow then return plain WS.BAD_ARG
  else do
    let s ← st
    wr R.PWR_COOL.FLOW flow
    (if flow < 60 then do
      wr R.PWR_CLIP_DER.FLOW_W (Config.contCeiling s.nv.fuses.variant * flow / 100)
      when_ (decide (s.rd R.PWR_STAT.COOL_LOW = 0)) (do
        setF R.PWR_STAT.COOL_LOW
        ev E.COOL_LOW SK.fw 0 [I.VALUE flow])
    else wrs [(R.PWR_CLIP_DER.FLOW_W, 0xFFFF), (R.PWR_STAT.COOL_LOW, 0)])
    refreshClip
    refreshFlow
    return plain WS.OK

/-- Arguments of a RESET command (Table 11-3): rung 1, 3 or 4 with its slot or partitions. -/
def resetArgs (rung pmask slot rsv0 : Nat) : Bool :=
  rsv0 == 0 && (rung == 4 || (rung == 3 && pmask != 0 && decide (pmask < 256)) || (rung == 1 && decide (slot < 64)))

/-! Membership and re-admission. -/

/-- MEMBER_RENEW (R242): the lapse ends. -/
def renewMember : M o Ans := do
  let t ← now
  eff (.fab fun f => { f with renewed := some t })
  wr R.FZ_MEMBER.LAPSED 0
  faultCond R.RST_FAULT.LAPSED false
  return plain WS.OK

/-- READMIT (R396): with re-admission pending, a sealed bank and a membership lease that runs, the sealed bank becomes active under the epoch bit,
the marks clear and the ports come up. -/
def readmitNow (epoch : Nat) : M o Ans := do
  let s ← st
  if 1 < epoch then return plain WS.BAD_ARG
  else if s.rd R.RST_ESC_STAT.READMIT_PEND = 0 ∨ s.rd R.FZ_BANK_STAT.READY = 0 ∨ s.fab.renewed.isNone ∨ s.rd R.FZ_MEMBER.LAPSED = 1 then
    return plain WS.STATE
  else do
    upBank epoch fun _ => bankOf s (1 - activeEpoch s)
    makeActive epoch
    eff (.nor fun n => { n with fenceMark := false })
    wr R.RST_ESC_STAT.READMIT_PEND 0
    faultCond R.RST_FAULT.READMIT false
    each (List.range 36) fun n => do if (← rd (R.FZ_PORT_CTL.EN n)) = 1 then bringUp n else pure ()
    return plain WS.OK

/-! Reading. -/

/-- REG_READ's and REG_WRITE's range (Table 11-3): 1 to 256 words, aligned, inside BAR0. -/
def regRange (off n : Nat) : Bool := decide (1 ≤ n) && decide (n ≤ 256) && off % 4 == 0 && decide (off + 4 * n ≤ 0x4000000)

/-- Words as payload. -/
def wordsBytes (l : List (BitVec 32)) : List Byte := l.flatMap fun w => leBytes 4 w.toNat

/-- INFO's payload (Table 11-3). -/
def infoBytes (s : State) : List Byte :=
  wordsBytes ([regOff .RST_PART_ID [], regOff .RST_SERIAL_LO [], regOff .RST_SERIAL_HI [], regOff .RST_STRAP [], regOff .FZ_SELF [],
    regOff .HIF_BOOT_STATUS [], regOff .UPD_VER_RUN [], regOff .UPD_STAT [], regOff .RST_LEASE []].map (readWord s))

end Sys2Proof.Machine
end

