-- ==== Sys2Proof/Machine/Links.lean ====
section
/-!
DEFINITION. What happens on the Worisy ports besides requests: signal detect (R328), discarded frames (R398), the lease's timers (R405, R406) and the
end of long commands (R399, R400).
-/

namespace Sys2Proof.Machine

/-- Signal detect of a port. -/
def sdFld (port : Nat) : Fld := if port = 0 then R.RST_PIN_STAT.WOR_A_SD else R.RST_PIN_STAT.WOR_B_SD

/-- What a receiver reports while VCTL is up; an unpowered module receives nothing (R328). -/
def received {o : State} (m : M o Unit) : M o Unit := do when_ ((← mode) != .off) m

/-- WORISY_SIGNAL_DETECT (R328): 16 valid commas. -/
def execWorisySignalDetect (port : Nat) (s : State) : Host.Outcome State Fault Refusal :=
  act (Instr.wf (.worisySignalDetect port)) s (received (setF (sdFld port)))

/-- WORISY_SIGNAL_LOSS (R328): 100 us without a valid character. -/
def execWorisySignalLoss (port : Nat) (s : State) : Host.Outcome State Fault Refusal :=
  act (Instr.wf (.worisySignalLoss port)) s (received (wr (sdFld port) 0))

/-- WORISY_FRAME_ERROR (R398): a discarded frame is counted and not answered. -/
def execWorisyFrameError (port : Nat) (s : State) : Host.Outcome State Fault Refusal :=
  act (Instr.wf (.worisyFrameError port)) s (received (incSat (R.RST_WOR_STATp.FRAME_ERR port)))

/-- LEASE_EXPIRY (R405): 500 ms after the last accepted claim or renewal. -/
def execLeaseExpiry (s : State) : Host.Outcome State Fault Refusal :=
  act (Instr.wf .leaseExpiry) s do
    let s ← st
    if s.rd R.RST_LEASE.HOLDER = 0 then pure ()
    else do
      advTo (tget 0 s.clk.seen K.lease - 1 + 500000000)
      leaseEnds

/-- LEASE_GUARD_END (R406, R407): 100 ms after the lease's end. -/
def execLeaseGuardEnd (s : State) : Host.Outcome State Fault Refusal :=
  act (Instr.wf .leaseGuardEnd) s do
    let s ← st
    if s.rd R.RST_LEASE.GUARD = 0 then pure ()
    else do
      advTo (tget 0 s.clk.seen K.leaseEnd + 100000000)
      wr R.RST_LEASE.GUARD 0

/-- COMMAND_DONE (R399, R400): the long work of a command answered IN_PROGRESS ends; DONE carries CMD, SEQ and STATUS. -/
def execCommandDone (port seq : Nat) (s : State) : Host.Outcome State Fault Refusal :=
  act (Instr.wf (.commandDone port seq)) s do
    let s ← st
    match (worPort s port).open_.find? fun x => x.1 == seq with
    | none => pure ()
    | some x => do
      upWor port fun p => { p with open_ := p.open_.filter (· ≠ x) }
      notice 0x8006 (leBytes 2 x.2 ++ leBytes 2 x.1 ++ leBytes 4 WS.OK)

end Sys2Proof.Machine
end

