-- ==== Sys2Proof/Machine/Monitor.lean ====
section
/-!
DEFINITION. The bramble detectors (R90 to R92) and the context rung that a report leads to (R386).
-/

namespace Sys2Proof.Machine

variable {o : State}

/-- A wait edge as its report word (Table 02-12): unit that waits, W, partition and number of the queue. -/
def Edge.word (e : Edge) : Nat := e.src * 65536 + (if e.w then 32768 else 0) + e.qpart * 4096 + e.q

/-- Wired queues of the bound phases. -/
def wiredQueues (s : State) : List (Nat × Nat) :=
  (List.range 64).flatMap fun c => match phaseOf s c with
    | some ph => ph.queues
    | none => []

/-- The wait edges that stand now, a pleached pair as one node (R90). -/
def edgesNow (s : State) : List Edge :=
  (wiredQueues s).flatMap fun x =>
    let c := evenOf s (s.rd (R.PART_Q_ENDS.CONS x.1 x.2))
    let p := evenOf s (s.rd (R.PART_Q_ENDS.PROD x.1 x.2))
    (if s.rd (R.PART_Q_OCC.WAIT_C x.1 x.2) = 1 then [⟨c, p, false, x.1, x.2, 0⟩] else []) ++
      if s.rd (R.PART_Q_CREDIT.WAIT_P x.1 x.2) = 1 then [⟨p, c, true, x.1, x.2, 0⟩] else []

/-- Edges with their ages after one more microsecond: an edge that was there before is older, a new one has age 0 (R91). -/
def ageEdges (old new : List Edge) : List Edge :=
  new.map fun e => match old.find? fun x => x.word == e.word && x.dst == e.dst with
    | some x => { e with age := x.age + 1 }
    | none => e

/-- Simple cycles that return to `start` over nodes above it, as edge lists in order; `path`: the edges so far, newest first. -/
def cyclesFrom (es : List Edge) (start : Nat) : Nat → Nat → List Edge → List (List Edge)
  | 0, _, _ => []
  | n + 1, at_, path =>
    (es.filter fun e => e.src == at_).flatMap fun e =>
      if e.dst = start then [(e :: path).reverse]
      else if start < e.dst ∧ !(path.any fun x => x.src == e.dst) then cyclesFrom es start n e.dst (e :: path)
      else []

/-- BRAMBLE_T of partition p in us: T times 10, values below 10 acting as 10 (PART_BRM_CTL). -/
def brambleT (s : State) (p : Nat) : Nat := 10 * max 10 (s.rd (R.PART_BRM_CTL.T p))

/-- Cycles that partition p's detector sees: its edges old enough, its smallest unit in the partition (R91). -/
def cyclesOf (s : State) (p : Nat) : List (List Edge) :=
  if s.rd (R.PART_BRM_CTL.EN p) = 0 then [] else
    let es := s.watch.edges.filter fun e => decide (brambleT s p ≤ e.age)
    ((es.map (·.src)).eraseDups.filter fun u => decide (u / 8192 = p)).flatMap fun u => cyclesFrom es u 721 u []

/-- Report words of a cycle: the header, then one word per unit (R92, Table 02-12). -/
def reportWords (s : State) (c : List Edge) : List Nat :=
  let slot := match c with
    | e :: _ => (unitCtx s e.src).getD 0
    | [] => 0
  let ph := match phaseOf s slot with
    | some x => x.num
    | none => 0
  (slot * 2 ^ 26 + c.length * 65536 + ph % 65536) :: c.map Edge.word

/-- A cycle is reported (R92, R386): the window when it is free, else LOST; the event records; and the context rung falls due. -/
def reportCycle (p : Nat) (c : List Edge) : M o Unit := do
  let s ← st
  let ws := reportWords s c
  (if s.rd (R.PART_BRM_STAT.CYCLE p) = 1 then setF (R.PART_BRM_STAT.LOST p)
  else do
    wrs [(R.PART_BRM_STAT.CYCLE p, 1), (R.PART_BRM_STAT.LEN p, c.length)]
    each (List.range ws.length) fun i => wr (R.PART_BRM_RPT.WORD p i) (ws.getD i 0))
  eff (.watch fun w => { w with told := w.told ++ [c.map Edge.word] })
  let two := decide (28 < c.length)
  (if (← takeTokens E.BRAMBLE_CYCLE (if two then 2 else 1)) then do
    evRaw E.BRAMBLE_CYCLE SK.hw 0 ((ws.take 29).map I.VALUE)
    when_ two (evRaw E.BRAMBLE_CYCLE SK.hw 0 (((ws.drop 29).take 29).map I.VALUE))
  else pure ())
  let slot := ws.headD 0 / 2 ^ 26
  match phaseOf s slot with
  | some x => when_ (decide (s.rd R.RST_ESC_CFG.BRM_ACT = 1)) (eff (.watch fun w => { w with due := w.due ++ [(slot, x.opid, s.clk.mono)] }))
  | none => pure ()

/-- BRAMBLE_SAMPLE (R91): every microsecond the detectors sample the wait edges; each cycle is reported once until one of its edges
disappears. -/
def execBrambleSample (s : State) : Host.Outcome State Fault Refusal :=
  act (Instr.wf .brambleSample) s do
    periodic K.bramble 1000
    let s ← st
    let es := ageEdges s.watch.edges (edgesNow s)
    let ws := es.map Edge.word
    eff (.watch fun w => { w with edges := es, told := w.told.filter fun c => c.all ws.contains })
    each (List.range 8) fun p => do
      let s ← st
      each ((cyclesOf s p).filter fun c => !s.watch.told.contains (c.map Edge.word)) fun c => reportCycle p c

/-- BRAMBLE_ACTION (R386): BRM_MS after the report, the context rung on the reported context, unless its phase has ended by then. -/
def execBrambleAction (slot opid : Nat) (s : State) : Host.Outcome State Fault Refusal :=
  act (Instr.wf (.brambleAction slot opid)) s do
    let s ← st
    match s.watch.due.find? fun x => x.1 == slot && x.2.1 == opid with
    | none => pure ()
    | some x => do
      advTo (x.2.2 + 1000000 * s.rd R.RST_ESC_CFG.BRM_MS)
      eff (.watch fun w => { w with due := w.due.filter (· ≠ x) })
      match phaseOf s slot with
      | some ph =>
        if ph.opid = opid ∧ ph.live then do
          rungTaken 1 0 4 0
          contextRung slot 6 SK.fw
        else pure ()
      | none => pure ()

end Sys2Proof.Machine
end

