-- ==== Sys2Proof/Machine/Points.lean ====
section
/-!
DEFINITION. Operating points: moves and blends (R269, R270), forced states and the return from them (R271, R272), droop stretch (R273, R274) and
VR_ALERT_N (R275, R325).
-/

namespace Sys2Proof.Machine

/-- OP_MOVE (R269, R274): a requested one-point move starts, not within 1 us of a stretch. -/
def execOpMove (s : State) : Host.Outcome State Fault Refusal :=
  act (Instr.wf .opMove) s do
    let s ← st
    let now := s.rd R.PWR_STAT.OP_NOW
    let goal := s.rd R.PWR_STAT.OP_TARGET
    if mayMove s ∧ goal ≠ now then do
      afterDroop
      (if goal < now then beginMove (now - 1) else beginMove (now + 1))
    else pure ()

/-- VCORE_SETTLED (R269): VCORE has risen at 10 mV/us and 5 us have passed; the blend starts. -/
def execVcoreSettled (s : State) : Host.Outcome State Fault Refusal :=
  act (Instr.wf .vcoreSettled) s do
    let s ← st
    match s.pw.move with
    | none => pure ()
    | some m =>
      if m.step = 0 ∧ !m.paused then do
        advTo (tget 0 s.clk.seen K.move + (opMv s m.dst - s.pw.vcore) * 100 + 5000)
        eff (.pw fun p => { p with vcore := opMv s m.dst })
        startBlend m
      else pure ()

/-- BLEND_STEP (R269): 64 ns or more after the last, the next step begins; the end of the sixteenth ends the move. -/
def execBlendStep (s : State) : Host.Outcome State Fault Refusal :=
  act (Instr.wf .blendStep) s do
    let s ← st
    match s.pw.move with
    | none => pure ()
    | some m =>
      if 1 ≤ m.step ∧ !m.paused then do
        advTo (tget 0 s.clk.seen K.move + 64)
        mark K.move
        if m.step < 16 then eff (.pw fun p => { p with move := some { m with step := m.step + 1 } }) else endMove m
      else pure ()

/-- FORCED_VCORE_FALL (R271): a forced state has lasted more than 1 ms; VCORE falls to the OP7 voltage. -/
def execForcedVcoreFall (s : State) : Host.Outcome State Fault Refusal :=
  act (Instr.wf .forcedVcoreFall) s do
    let s ← st
    match s.pw.forcedAt with
    | none => pure ()
    | some t => do
      advTo (t + 1000001)
      eff (.pw fun p => { p with vcore := opMv s 7 })

/-- FORCED_RELEASE (R272): every forced state has been clear for 100 us; the point of R286 is chosen and moved to. -/
def execForcedRelease (s : State) : Host.Outcome State Fault Refusal :=
  act (Instr.wf .forcedRelease) s do
    let s ← st
    if s.pw.restoring && !forced s then do
      advTo (tget 0 s.clk.seen K.forcedClr + 100000)
      eff (.pw fun p => { p with restoring := false })
      retarget
    else pure ()

/-- PWR_STAT.DROOPd. -/
def droopFld (d : Nat) : Fld := if d = 0 then R.PWR_STAT.DROOP0 else R.PWR_STAT.DROOP1

/-- DROOP_DETECT (R273, R274): the die stretches; a blend or move is suspended. -/
def execDroopDetect (d : Nat) (s : State) : Host.Outcome State Fault Refusal :=
  act (Instr.wf (.droopDetect d)) s do
    if (← rd (droopFld d)) = 1 then pure () else do
      setF (droopFld d)
      incWrap (R.PWR_DROOPd.COUNT d)
      mark (K.droop d)
      eff (.pw fun p => { p with move := p.move.map fun m => { m with paused := true } })

/-- DROOP_RELEASE (R273): every detector of the die has been released for 64 CK_A cycles. -/
def execDroopRelease (d : Nat) (s : State) : Host.Outcome State Fault Refusal :=
  act (Instr.wf (.droopRelease d)) s do
    if (← rd (droopFld d)) = 0 then pure () else do
      wr (droopFld d) 0
      eff (.pw fun p => { p with droopTold := p.droopTold.filter (· ≠ d) })
      mark K.droopOff

/-- DROOP_LONG (R273): a stretch longer than 100 us records one event. -/
def execDroopLong (d : Nat) (s : State) : Host.Outcome State Fault Refusal :=
  act (Instr.wf (.droopLong d)) s do
    let s ← st
    if s.rd (droopFld d) == 1 && !s.pw.droopTold.contains d then do
      advTo (tget 0 s.clk.seen (K.droop d) + 100001)
      eff (.pw fun p => { p with droopTold := p.droopTold ++ [d] })
      ev E.DROOP_LONG SK.hw 0 [I.VALUE d]
    else pure ()

/-- BLEND_RESUME (R274): 1 us after the stretch clears, the suspended blend or move goes on and restarts the interrupted step. -/
def execBlendResume (s : State) : Host.Outcome State Fault Refusal :=
  act (Instr.wf .blendResume) s do
    let s ← st
    match s.pw.move with
    | none => pure ()
    | some m =>
      if m.paused && !stretched s then do
        advTo (tget 0 s.clk.seen K.droopOff + 1000)
        eff (.pw fun p => { p with move := some { m with paused := false } })
        mark K.move
      else pure ()

/-- VR_ALERT (R275, R325): VR_ALERT_N asserts, OP7 is forced, F_ALERT is set and one event names the condition. -/
def execVrAlert (cond : Nat) (s : State) : Host.Outcome State Fault Refusal :=
  act (Instr.wf (.vrAlert cond)) s do
    let s ← st
    eff (.pw fun p => { p with alerts := if p.alerts.contains cond then p.alerts else p.alerts ++ [cond] })
    if s.pw.alerts ≠ [] then pure () else do
      wr R.RST_PIN_STAT.VR_ALERT_N 0
      setF R.PWR_STAT.F_ALERT
      forceDrop
      ev E.VR_ALERT SK.hw 0 [I.REASON (Config.eventCode (112 + cond))]

/-- VR_ALERT_RELEASE (R275, R325): no condition holds. -/
def execVrAlertRelease (s : State) : Host.Outcome State Fault Refusal :=
  act (Instr.wf .vrAlertRelease) s do
    if (← st).pw.alerts = [] then pure () else do
      eff (.pw fun p => { p with alerts := [] })
      wr R.RST_PIN_STAT.VR_ALERT_N 1
      wr R.PWR_STAT.F_ALERT 0
      forcedOff

end Sys2Proof.Machine
end

