-- ==== Sys2Proof/Machine/Ports.lean ====
section
/-!
DEFINITION. The port events: training, identity, bit-error tests, keepalive, loss and retraining (R210 to R215), and the link-state map (R213).
-/

namespace Sys2Proof.Machine

/-- LINK_TRAINED (R210): the port enters IDENT and sends its identity; without identity comparison the bring-up goes on (R211). -/
def execLinkTrained (n : Nat) (s : State) : Host.Outcome State Fault Refusal :=
  act (Instr.wf (.linkTrained n)) s do
    let s ← st
    if s.rd (R.FZ_PORT_STAT.STATE n) = PS.TRAINING ∧ portsLive s then do
      setPort n PS.IDENT PR.NONE
      sendIdent n
      when_ (decide (s.rd R.FZ_VERIFY_CFG.IDENT_EN = 0)) (afterIdent n)
    else pure ()

/-- IDENT (R211, Table 06-5). -/
def execIdent (n loc port : Nat) (s : State) : Host.Outcome State Fault Refusal :=
  act (Instr.wf (.ident n loc port)) s do
    let s ← st
    let v := s.rd (R.FZ_PORT_STAT.STATE n)
    if v = PS.DISABLED ∨ v = PS.TRAINING ∨ v = PS.DOWN then pure ()
    else do
      wrs [(R.FZ_PORT_FAR.VALID n, 1), (R.FZ_PORT_FAR.PORT n, port), (R.FZ_PORT_FAR.LOC n, loc)]
      if v = PS.IDENT ∧ s.rd R.FZ_VERIFY_CFG.IDENT_EN = 0 then afterIdent n
      else if v = PS.IDENT then
        if s.rd (R.FZ_PORT_MAP.USED n) = 0 then do
          portCheck n PR.EXTRA
          setPort n PS.HELD PR.EXTRA
        else if s.rd (R.FZ_PORT_MAP.FAR_LOC n) = loc ∧ s.rd (R.FZ_PORT_MAP.FAR_PORT n) = port ∧ loc ≠ ownLoc s then afterIdent n
        else do
          portCheck n PR.MISMATCH
          setPort n PS.HELD PR.MISMATCH
      else pure ()

/-- IDENT_TIMEOUT (R211, Table 06-5): no signal, or no identity frame within 10 ms of FEC lock. -/
def execIdentTimeout (n : Nat) (s : State) : Host.Outcome State Fault Refusal :=
  act (Instr.wf (.identTimeout n)) s do
    let s ← st
    let v := s.rd (R.FZ_PORT_STAT.STATE n)
    if v = PS.TRAINING ∨ (v = PS.IDENT ∧ s.rd R.FZ_VERIFY_CFG.IDENT_EN = 1 ∧ s.rd (R.FZ_PORT_FAR.VALID n) = 0) then do
      (if v = PS.IDENT then do advTo ((← seenAt (K.portUp n)) + 10000000) else pure ())
      if s.rd (R.FZ_PORT_MAP.USED n) = 1 then do
        portCheck n PR.MISSING
        setPort n PS.EXCLUDED PR.MISSING
      else setPort n PS.DISABLED PR.NONE
    else pure ()

/-- IDENT_REPEAT (R211): the identity frame again, 1 ms after the last, until the far end's frame has come. -/
def execIdentRepeat (n : Nat) (s : State) : Host.Outcome State Fault Refusal :=
  act (Instr.wf (.identRepeat n)) s do
    let s ← st
    if (s.rd (R.FZ_PORT_STAT.STATE n) = PS.IDENT ∨ s.rd (R.FZ_PORT_STAT.STATE n) = PS.UP) ∧ s.rd (R.FZ_PORT_FAR.VALID n) = 0 then do
      eff (.pass 1000000)
      sendIdent n
    else pure ()

/-- TEST_REQ (R215): this end agrees; a port still in IDENT agrees once its identity has matched. At the end of the smaller location the frame asks
it to start a test (log entry 32). -/
def execTestReq (n : Nat) (s : State) : Host.Outcome State Fault Refusal :=
  act (Instr.wf (.testReq n)) s do
    let s ← st
    let v := s.rd (R.FZ_PORT_STAT.STATE n)
    let x ← portSt n
    if v = PS.IDENT then upPort n fun x => { x with agreed := true }
    else if v = PS.UP ∧ ownLoc s < s.rd (R.FZ_PORT_FAR.LOC n) then enterTest n
    else if v = PS.UP ∨ (v = PS.TEST ∧ !x.agreed) then do
      setPort n PS.TEST PR.NONE
      send (.linkFrame n LK.TEST_ACK [])
      runPrbs n
    else pure ()

/-- TEST_ACK (R215): the starting end begins the test. -/
def execTestAck (n : Nat) (s : State) : Host.Outcome State Fault Refusal :=
  act (Instr.wf (.testAck n)) s do
    let x ← portSt n
    if (← rd (R.FZ_PORT_STAT.STATE n)) = PS.TEST ∧ x.starter ∧ !x.agreed then runPrbs n else pure ()

/-- TEST_RESULT (R215): either end's failure holds both. -/
def execTestResult (n : Nat) (pass : Bool) (s : State) : Host.Outcome State Fault Refusal :=
  act (Instr.wf (.testResult n pass)) s do
    let v ← rd (R.FZ_PORT_STAT.STATE n)
    let x ← portSt n
    upPort n fun x => { x with farPass := some pass }
    if !pass ∧ (v = PS.TEST ∨ v = PS.UP) then testOutcome n false
    else if v = PS.TEST ∧ x.passed then testOutcome n true
    else pure ()

/-- BER_TEST_DONE (R215): BER_SECONDS have passed with `errs` errors on the worst lane; a pass waits for the far end's result. -/
def execBerTestDone (n errs : Nat) (s : State) : Host.Outcome State Fault Refusal :=
  act (Instr.wf (.berTestDone n errs)) s do
    let s ← st
    let x ← portSt n
    if s.rd (R.FZ_PORT_STAT.STATE n) = PS.TEST ∧ x.agreed then do
      let pass := decide (errs ≤ berLimit s)
      eff (.pass (1000000000 * max 1 (s.rd R.FZ_VERIFY_CFG.BER_SECONDS)))
      setF (R.FZ_PORT_BER.DONE n)
      wrB (R.FZ_PORT_BER.PASS n) pass
      wr (R.FZ_PORT_BER.ERRORS n) (min (2 ^ 30 - 1) errs)
      send (.linkFrame n LK.TEST_RESULT [if pass then 1 else 0])
      upPort n fun x => { x with starter := false, agreed := false, passed := pass }
      if pass ∧ x.farPass = none then pure () else testOutcome n (pass && x.farPass == some true)
    else pure ()

/-- BER_INTERVAL (R215): a periodic test, one port at a time. -/
def execBerInterval (n : Nat) (s : State) : Host.Outcome State Fault Refusal :=
  act (Instr.wf (.berInterval n)) s do
    let s ← st
    let h := s.rd R.FZ_VERIFY_CFG.BER_INTERVAL_H
    if h = 0 ∨ (List.range 36).any (fun m => s.rd (R.FZ_PORT_STAT.STATE m) == PS.TEST) then pure ()
    else do
      periodic (K.port n) (h * 3600000000000)
      askTest n

/-- KEEPALIVE_SEND (R212): no flit for 2 us. -/
def execKeepaliveSend (n : Nat) (s : State) : Host.Outcome State Fault Refusal :=
  act (Instr.wf (.keepaliveSend n)) s do
    let v ← rd (R.FZ_PORT_STAT.STATE n)
    if v = PS.UP ∨ v = PS.IDENT ∨ v = PS.HELD then do
      eff (.pass 2000)
      send (.linkFrame n LK.KEEPALIVE [])
    else pure ()

/-- PORT_DOWN (R212): loss of signal, light (`why` 7) or FEC lock (`why` 8). -/
def execPortDown (n why : Nat) (s : State) : Host.Outcome State Fault Refusal :=
  act (Instr.wf (.portDown n why)) s (losePort n (if why = PR.FEC then PR.FEC else PR.LOS))

/-- FEC_ERROR_LIMIT (R212): `cnt` uncorrectable codewords within 1 ms; more than 1,000 take the port DOWN. -/
def execFecErrorLimit (n cnt : Nat) (s : State) : Host.Outcome State Fault Refusal :=
  act (Instr.wf (.fecErrorLimit n cnt)) s do
    addSat (R.FZ_PORT_CNTk.COUNT n 3) cnt
    if 1000 < cnt then losePort n PR.FEC else pure ()

/-- FLIT_TIMEOUT (R212): no valid flit for 8 us. -/
def execFlitTimeout (n : Nat) (s : State) : Host.Outcome State Fault Refusal :=
  act (Instr.wf (.flitTimeout n)) s (losePort n PR.KEEPALIVE)

/-- RETRAIN (R214): 100 ms after DOWN the port trains again. -/
def execRetrain (n : Nat) (s : State) : Host.Outcome State Fault Refusal :=
  act (Instr.wf (.retrain n)) s do
    if (← rd (R.FZ_PORT_STAT.STATE n)) ≠ PS.DOWN then pure ()
    else do
      advTo ((← seenAt (K.portUp n)) + 100000000)
      startTraining n

/-- PORT_STATE (R213, R241): a module of the hedgerow reports a port that entered or left UP. -/
def execPortState (fa gen m port : Nat) (up : Bool) (s : State) : Host.Outcome State Fault Refusal :=
  act (Instr.wf (.portState fa gen m port up)) s
    (fromPeer fa gen <| eff (.fab fun f => { f with down :=
      let l := f.down.filter (· ≠ 36 * m + port)
      if up then l else l ++ [36 * m + port] }))

end Sys2Proof.Machine
end

