-- ==== Sys2Proof/Machine/Queues.lean ====
section
/-!
DEFINITION. The queue commands: a written slot is published (R61), a read slot is released (R62), credits return in batches (R66), and an NI
carries a slot to another partition or module (R66, R451).
-/

namespace Sys2Proof.Machine

/-- SLOT_PUBLISH (R61): the oldest slot that an array or streamer has written is published; an INVALID producer's never is (R94). General
cores publish by QPUB and the NI and the energy gate on arrival (log entry 19). -/
def execSlotPublish (p q : Nat) (s : State) : Host.Outcome State Fault Refusal :=
  act (Instr.wf (.slotPublish p q)) s do
    let s ← st
    let u := s.rd (R.PART_Q_ENDS.PROD p q)
    let x := queOf s p q
    if s.rd (R.PART_Q_CFG.VALID p q) = 1 ∧ uPart u = p ∧ (uKind u = 0 ∨ uKind u = 2) ∧ s.rd (stFld u) ≠ US.INVALID ∧ x.pub < x.wr then do
      publishSlot p q
      kickQ p q
    else pure ()

/-- SLOT_RELEASE (R62): an array or streamer releases the oldest slot that it has read. -/
def execSlotRelease (p q : Nat) (s : State) : Host.Outcome State Fault Refusal :=
  act (Instr.wf (.slotRelease p q)) s do
    let s ← st
    let u := s.rd (R.PART_Q_ENDS.CONS p q)
    let x := queOf s p q
    if s.rd (R.PART_Q_CFG.VALID p q) = 1 ∧ uPart u = p ∧ (uKind u = 0 ∨ uKind u = 2) ∧ s.rd (stFld u) ≠ US.INVALID ∧ x.rel < x.rd then do
      releaseSlot p q
      kickQ p q
    else pure ()

/-- CREDIT_BATCH_RETURN (R66): 8 releases, or 2 us after the oldest, return to the producer's end, in the package or by CREDIT packet. -/
def execCreditBatchReturn (p q : Nat) (s : State) : Host.Outcome State Fault Refusal :=
  act (Instr.wf (.creditBatchReturn p q)) s do
    let x ← que p q
    if x.owed = 0 then pure ()
    else do
      (if x.owed < 8 then do advTo ((← seenAt (K.credit p q)) + 2000) else pure ())
      upQue p q fun x => { x with owed := 0 }
      if x.farFa = 0 then addCredit x.farP x.farQ x.owed
      else if 0xF0000 ≤ x.farFa then do
        let s ← st
        groupCredit (activeEpoch s) x.farFa x.farP x.farQ (ownFa s) x.owed
      else queuePkt (mkPkt 2 x.farFa x.och 0 0 0 (x.farP * 2 ^ 26 + x.farQ * 2 ^ 16 + x.owed % 65536) [])

/-- NI_SLOT_SEND (R451): the oldest published staging slot is sent on-package, as QSLOT or as MCAST, and freed; an uncorrectable slot or
an uncorrectable on-package path loses the phase's data (R67, Table 04-9). -/
def execNiSlotSend (p q : Nat) (f : Flt) (s : State) : Host.Outcome State Fault Refusal :=
  act (Instr.wf (.niSlotSend p q f)) s do
    applyUps f.ups
    let s ← st
    let x := queOf s p q
    let lose (d : Nat) : M _ Unit := match unitCtx s (s.rd (R.PART_Q_ENDS.PROD p q)) with
      | some c => lockPhase c S.DATA_LOSS d (uidOf p 3 0) 0
      | none => pure ()
    if !isStaging s p q || qAvail s p q = 0 then pure ()
    else match ← readMem RC.ni (uidOf p 3 0) (qSlot s p q x.rd) 256 with
      | .error e => lose e
      | .ok b => do
        upQue p q fun x => { x with rd := x.rd + 1, rel := x.rel + 1 }
        wr (R.PART_Q_OCC.OCC p q) (s.rd (R.PART_Q_OCC.OCC p q) - 1)
        refreshEnds p q
        if x.farFa = 0 then (if f.pkg then do
          lose D.PACKAGE_PATH
          noteFault 7 (x.farP * 8192)
        else deliverSlots x.farP x.farQ b)
        else if 0xF0000 ≤ x.farFa then queuePkt (mkPkt 3 x.farFa x.och x.farP x.farQ 0 0 b)
        else streamSend x.farFa x.och x.farP (mkPkt 1 x.farFa x.och x.farP x.farQ 0 (x.rd % 65536) b)

end Sys2Proof.Machine
end

