-- ==== Sys2Proof/Machine/Quickset.lean ====
section
/-!
DEFINITION. The quickset commands (R361 to R367). QUICKSET_GO and QUICKSET_CANCEL are register writes and stand in Access.lean.
-/

namespace Sys2Proof.Machine

/-- QS_SEND (R362): the next table or data block leaves as four packets at the session's RATE; after the last block QS_END, three times, 1 ms
apart. -/
def execQsSend (s : State) : Host.Outcome State Fault Refusal :=
  act (Instr.wf .qsSend) s do
    let s ← st
    match s.qs.src with
    | none => pure ()
    | some a =>
      let n := s.qs.sent
      if !qsBusy s then pure ()
      else do
        let rate := max 1 (min 20 (s.rd R.RST_QS_SRC_CTL.RATE_GBS))
        advTo (tget 0 s.clk.seen K.qsBlock + if n ≤ qsTotal a then (4096 + rate - 1) / rate else 1000000)
        mark K.qsBlock
        (if n < a.nTable then qsSendBlock a true n (qsTable s a n)
        else if n < qsTotal a then qsSendBlock a false (n - a.nTable) (qsData s a (n - a.nTable))
        else qsSvc a.dst SV.QS_END [a.session, a.nData])
        eff (.qs fun q => { q with sent := q.sent + 1 })

/-- QS_ANNOUNCE_SEND (R362, Table 09-11): every 10 ms until the first data block and every 1 s after. -/
def execQsAnnounceSend (s : State) : Host.Outcome State Fault Refusal :=
  act (Instr.wf .qsAnnounceSend) s do
    let s ← st
    match s.qs.src with
    | none => pure ()
    | some a =>
      if !qsBusy s then pure ()
      else do
        advTo (tget 0 s.clk.seen K.qsAnn + if s.qs.sent ≤ a.nTable then 10000000 else 1000000000)
        mark K.qsAnn
        qsSvc a.dst SV.QS_ANNOUNCE (qsAnnFields a)

/-- QS_ANNOUNCE (R361, R367, R241): a receiver without a session, or whose session has ended, joins one that names it; a repeat changes nothing. -/
def execQsAnnounce (gen : Nat) (a : QsAnn) (s : State) : Host.Outcome State Fault Refusal :=
  act (Instr.wf (.qsAnnounce gen a)) s <| fromPeer a.src gen do
    let s ← st
    let x := s.rd R.RST_QS_STAT.STATE
    let same := match s.qs.ann with
      | some b => b.src == a.src && b.dst == a.dst
      | none => false
    if !qsNamed s a || !qsTakes s a.kind then pure ()
    else if same && decide (s.qs.ann.map (·.session) = some a.session ∧ x ≠ QX.LISTEN) then pure ()
    else if same || decide (x = QX.IDLE ∨ x = QX.LISTEN ∨ x = QX.DONE) then qsJoin a
    else pure ()

/-- QS_BLOCK (R362, R363): one quarter of a table or data block. -/
def execQsBlock (fa gen user : Nat) (data : List Byte) (s : State) : Host.Outcome State Fault Refusal :=
  act (Instr.wf (.qsBlock fa gen user data)) s <| fromPeer fa gen do
    mark K.qsData
    qsTake user data

/-- QS_END (R364): the first one starts repair. -/
def execQsEnd (fa gen session : Nat) (s : State) : Host.Outcome State Fault Refusal :=
  act (Instr.wf (.qsEnd fa gen session)) s <| fromPeer fa gen do
    let s ← st
    match s.qs.ann with
    | none => pure ()
    | some a => if a.session = session ∧ s.rd R.RST_QS_STAT.STATE = QX.RECEIVE then qsRoundFrom a 1 else pure ()

/-- QS_REPAIR_TIMEOUT (R364): 100 ms after the last data packet without QS_END. -/
def execQsRepairTimeout (s : State) : Host.Outcome State Fault Refusal :=
  act (Instr.wf .qsRepairTimeout) s do
    let s ← st
    match s.qs.ann with
    | none => pure ()
    | some a =>
      if s.rd R.RST_QS_STAT.STATE = QX.RECEIVE then do
        advTo (tget 0 s.clk.seen K.qsData + 100000000)
        qsRoundFrom a 1
      else pure ()

/-- QS_REQ (R365): a holder sends each block that it holds as four QS_DATA quarters and names the others in QS_NAK. -/
def execQsReq (fa gen session : Nat) (blocks : List (Bool × Nat)) (s : State) : Host.Outcome State Fault Refusal :=
  act (Instr.wf (.qsReq fa gen session blocks)) s <| fromPeer fa gen do
    let s ← st
    each blocks fun b => match qsHeld s session b with
      | none => pure ()
      | some bytes => each (List.range 4) fun i =>
          svc fa 0 SV.QS_DATA (qsUser b.1 i b.2 :: ((bytes.drop (1024 * i)).take 1024).map (·.toNat))
    let no := blocks.filter fun b => (qsHeld s session b).isNone
    when_ (!no.isEmpty) (svc fa 0 SV.QS_NAK (no.map fun b => qsUser b.1 0 b.2))

/-- QS_DATA (R364): a quarter of a requested block. The request is answered with the block's last quarter. -/
def execQsData (fa gen user : Nat) (data : List Byte) (s : State) : Host.Outcome State Fault Refusal :=
  act (Instr.wf (.qsData fa gen user data)) s <| fromPeer fa gen do
    qsTake user data
    when_ (decide (fget user 25 2 = 3)) (qsUnask [(fget user 27 1 == 1, fget user 0 25)])
    qsAnswered

/-- QS_NAK (R364): blocks that a holder lacks. -/
def execQsNak (fa gen : Nat) (blocks : List (Bool × Nat)) (s : State) : Host.Outcome State Fault Refusal :=
  act (Instr.wf (.qsNak fa gen blocks)) s <| fromPeer fa gen do
    qsUnask blocks
    qsAnswered

/-- QS_ROUND_END (R364): 20 ms after the last request the round ends. -/
def execQsRoundEnd (s : State) : Host.Outcome State Fault Refusal :=
  act (Instr.wf .qsRoundEnd) s do
    let s ← st
    match s.qs.ann with
    | none => pure ()
    | some a =>
      if s.rd R.RST_QS_STAT.STATE = QX.REPAIR then do
        advTo (tget 0 s.clk.seen K.qsReq + 20000000)
        qsRoundFrom a (s.rd R.RST_QS_STAT.ROUND + 1)
      else pure ()

/-- QS_FETCH_END (R364, R367): 1 s without a new block ends the source fetch, and the receiver is INCOMPLETE. -/
def execQsFetchEnd (s : State) : Host.Outcome State Fault Refusal :=
  act (Instr.wf .qsFetchEnd) s do
    let s ← st
    if s.rd R.RST_QS_STAT.STATE = QX.FETCH then do
      advTo (tget 0 s.clk.seen K.qsNew + 1000000000)
      qsIncomplete
    else pure ()

/-- QS_VERIFY (R366): with a full bitmap the signature is verified; a part of a plan image that is not its last has no signature to check. -/
def execQsVerify (s : State) : Host.Outcome State Fault Refusal :=
  act (Instr.wf .qsVerify) s do
    let s ← st
    match s.qs.ann with
    | none => pure ()
    | some a =>
      if s.rd R.RST_QS_STAT.STATE ≠ QX.VERIFY then pure ()
      else
        let ok := if a.kind = 1 then decide (a.base + 4096 * a.nData < a.imageLen) || imageVerifies s (inactiveSlot s)
          else qsImageOk s (if a.kind = 0 then 2 else 1)
        if ok then qsPass a else qsFail a

end Sys2Proof.Machine
end

