-- ==== Sys2Proof/Machine/Rings.lean ====
section
/-!
DEFINITION. The ring pairs at work: doorbells (R174, R177), descriptor fetch (R175, R176), completion entries (R177, R183) and their messages
(R178). RING_ENABLE and RING_DISABLE are register writes and stand in Access.lean.
-/

namespace Sys2Proof.Machine

/-- A doorbell of ring pair n acts: the function takes the request and the ring pair is enabled; otherwise it is refused and recorded with its
BAR2 offset (R174, R404, R440). -/
def doorbell {o : State} (n off : Nat) (v : BitVec 32) (m : M o Unit) : M o Unit := do
  let s ← st
  if ideBlocks s then do
    send .unsupportedRequest
    writeRec 1 (4096 * n + off) v.toNat 1
  else if s.rd (R.HIF_RING_CFGn.EN n) = 0 then writeRec 1 (4096 * n + off) v.toNat 1
  else m

/-- SQ_TAIL (R174): the tail moves, or a value of the ring's size or more is error 0b001 (Table 05-7). -/
def execSqTail (n : Nat) (v : BitVec 32) (s : State) : Host.Outcome State Fault Refusal :=
  act (Instr.wf (.sqTail n v)) s do
    doorbell n 0 v do
      let s ← st
      if sqSize s n ≤ v.toNat then ringError n 1
      else upRing n fun r => { r with tail := v.toNat }

/-- CQ_HEAD (R177): entries before it are free, or it names a slot beyond the entries written, error 0b100 (Table 05-7). -/
def execCqHead (n : Nat) (v : BitVec 32) (s : State) : Host.Outcome State Fault Refusal :=
  act (Instr.wf (.cqHead n v)) s do
    doorbell n 4 v do
      let s ← st
      let r := ringOf s n
      let k := (v.toNat + cqSize s n - r.cqHead) % cqSize s n
      if cqSize s n ≤ v.toNat ∨ r.used < k then ringError n 4
      else upRing n fun r => { r with cqHead := v.toNat, used := r.used - k }

/-- Eight little-endian words of 64 descriptor bytes (R181). -/
def descWords (b : List Byte) : List (BitVec 64) :=
  (chunks 8 8 (padTo 64 (b.take 64))).map fun c => BitVec.ofNat 64 (leNat c)

/-- DESCRIPTOR_FETCH (R175, R176, R182): the ring pair whose turn it is gives its next descriptor; an illegal one is locked at once
(R181); a failed read is error 0b010. -/
def execDescriptorFetch (d : HostData) (s : State) : Host.Outcome State Fault Refusal :=
  act (Instr.wf (.descriptorFetch d)) s do
    let s ← st
    match nextRing s with
    | none => pure ()
    | some n => match d with
      | .error => ringError n 2
      | .data b => do
        let ws := descWords b
        let r := ringOf s n
        let slot := s.rd (R.HIF_RING_POSn.SQ_HEAD n)
        let id := opKeyOf n r.wraps slot
        let last := decide (slot + 1 = sqSize s n)
        eff (.host fun h => { h with rrRing := n, rrCnt := if h.rrRing = n ∧ h.rrCnt < 8 then h.rrCnt + 1 else 1 })
        let ab := if dWord ws 0 0 8 = OPC.ABORT then [r.wraps * 65536 + slot] else []
        upRing n fun r => { r with
          wraps := if last then r.wraps + 1 else r.wraps
          aborts := (r.aborts ++ ab).filter fun a => decide (r.wraps ≤ a / 65536 + 255) }
        wr (R.HIF_RING_POSn.SQ_HEAD n) (if last then 0 else slot + 1)
        wr (R.HIF_RING_STATn.OUTSTANDING n) (s.rd (R.HIF_RING_STATn.OUTSTANDING n) + 1)
        let x : Op := { opid := id, ring := n, words := ws, st := .accepted, status := 0, detail := 0, unit := 0, info0 := 0, info1 := 0,
                        energy := 0, moved := 0, ready := false, after := [] }
        eff (.host fun h => { h with ops := h.ops ++ [x] })
        when_ (!opLegal s ws) (failOp id S.CHECK_FAIL D.BAD_DESCRIPTOR 0)

/-- The message of an entry: at once for CE 0 or IRQ, else at the CNT-th since the last (R178). -/
def entryIrq {o : State} (n : Nat) (irq : Bool) : M o Unit := do
  let s ← st
  let k := (ringOf s n).unsig + 1
  upRing n fun r => { r with unsig := k }
  if s.rd (R.HIF_RING_IRQn.CE n) = 0 || irq || decide (max 1 (s.rd (R.HIF_RING_IRQn.CNT n)) ≤ k) then ringMessage n
  else when_ (decide (k = 1)) (mark (K.ring n))

/-- COMPLETION_WRITE (R177, R183, R186, R202): the entry of an ended operation is written and its message follows; an entry that cannot be
written is held until the ring pair is disabled (R179). -/
def execCompletionWrite (opid : Nat) (refused : Bool) (s : State) : Host.Outcome State Fault Refusal :=
  act (Instr.wf (.completionWrite opid refused)) s do
    let s ← st
    match opOf s opid with
    | none => pure ()
    | some x =>
      let n := x.ring
      if x.st ≠ .locked || !x.ready || s.host.ops.any (fun y => x.after.contains y.opid) then pure ()
      else if s.rd (R.HIF_RING_STATn.ERR_CODE n) = 3 then
        if s.rd (R.HIF_RING_CFGn.EN n) = 0 then discardOp x else pure ()
      else if refused then do
        ringError n 3
        when_ (decide (s.rd (R.HIF_RING_CFGn.EN n) = 0)) (discardOp x)
      else do
        let t := s.rd (R.HIF_RING_POSn.CQ_TAIL n)
        let last := decide (t + 1 = cqSize s n)
        send (.entry n t (entryWords s x))
        wr (R.HIF_RING_POSn.CQ_TAIL n) (if last then 0 else t + 1)
        upRing n fun r => { r with phase := if last then !r.phase else r.phase, used := r.used + 1 }
        dropOp x
        entryIrq n x.irq

/-- MSIX_COALESCE_TIMER (R178): TIME after the oldest unsignalled entry. -/
def execMsixCoalesceTimer (n : Nat) (s : State) : Host.Outcome State Fault Refusal :=
  act (Instr.wf (.msixCoalesceTimer n)) s do
    let s ← st
    if 0 < (ringOf s n).unsig ∧ s.rd (R.HIF_RING_IRQn.CE n) = 1 then do
      advTo ((← seenAt (K.ring n)) + 1000 * max 1 (s.rd (R.HIF_RING_IRQn.TIME n)))
      ringMessage n
    else pure ()

end Sys2Proof.Machine
end

