-- ==== Sys2Proof/Machine/Rungs.lean ====
section
/-!
DEFINITION. Resets at work: MRST_N (R321, R322), the host-interface reset (R203), the service cores' watchdog and lockstep (R124), a block's idle
or the end of its wait (R343, R455), and the end of a partition reset (Table 09-15). Requests through RST_REQ and PART_ENG_RST are register writes
and stand in Access.lean.
-/

namespace Sys2Proof.Machine

/-- MRST (R321, R322): a low pulse of 200 ns or longer starts the module rung; the pin stays low until MRST_RELEASE. -/
def execMrst (ns : Nat) (s : State) : Host.Outcome State Fault Refusal :=
  act (Instr.wf (.mrst ns)) s do
    if ns < 200 then pure () else do
      eff (.ctl fun c => { c with mrstLow := true })
      askModule 1 SK.hw

/-- MRST_RELEASE (R322): MRST_N is high again; a module that was held in reset starts up. -/
def execMrstRelease (s : State) : Host.Outcome State Fault Refusal :=
  act (Instr.wf .mrstRelease) s do
    eff (.ctl fun c => { c with mrstLow := false })
    let s ← st
    when_ (s.ctl.mode == .inReset && !moduleBusy s) (setMode .start)

/-- Registers that a host-interface reset resets (Table 12-7): HIF_CTL, every HIF_RING register, the MSI-X table and its pending bits. -/
def hostReg (k : RegKind) : Bool :=
  [RegKind.HIF_CTL, .HIF_RING_CFGn, .HIF_RING_IRQn, .HIF_RING_SQB_LOn, .HIF_RING_SQB_HIn, .HIF_RING_CQB_LOn, .HIF_RING_CQB_HIn, .HIF_RING_STATn,
    .HIF_RING_POSn, .HIF_MSIX, .HIF_PBA].contains k

/-- HOST_INTERFACE_RESET (R203, R340, R440): every ring pair is disabled and its operations end without entries; phases stop and settle, SERVE
drops, a hold returns to READY, and the IDE keys are erased. `flr`: a function level reset, else PERST_N. -/
def execHostInterfaceReset (flr : Bool) (s : State) : Host.Outcome State Fault Refusal :=
  act (Instr.wf (.hostInterfaceReset flr)) s do
    let s ← st
    if s.ctl.mode = .off then pure () else do
      resetEvent 0 0 0 (if flr then 1 else SK.hw) 0
      each s.host.ops fun x => endOp x D.RESET
      eff (.host fun h => { h with rings := [], ops := [], rrRing := 0, rrCnt := 0 })
      eff (.ctl fun c => { c with ret := .ready })
      setServe false
      eff (.regsReset fun k _ => hostReg k)
      eff (.sec fun x => { x with ide := [] })

/-- A watchdog or a lockstep mismatch of a service-core pair (R124, Table 09-12, R369): the module rung, recorded; before READY it is also the
reason of a failed start. -/
def servicePair {o : State} (src reason : Nat) : M o Unit := do
  let s ← st
  when_ (s.ctl.mode == .start && !s.ctl.failed) (do
    let step := s.rd R.HIF_BOOT_STATUS.STAGE
    eff (.nor fun n => { n with reason := reason, lastStep := step })
    ev E.START_FAIL SK.fw 0 [I.REASON reason, I.VALUE step, I.COUNT s.nv.nor.fails])
  climbModule src

/-- SERVICE_CORE_WATCHDOG (R124). -/
def execServiceCoreWatchdog (pair : Nat) (s : State) : Host.Outcome State Fault Refusal :=
  act (Instr.wf (.serviceCoreWatchdog pair)) s (servicePair 2 0x0D)

/-- LOCKSTEP_MISMATCH (R124). -/
def execLockstepMismatch (pair : Nat) (s : State) : Host.Outcome State Fault Refusal :=
  act (Instr.wf (.lockstepMismatch pair)) s (servicePair 3 0x0E)

/-- Stage 3 of the rung that waits for a block's idle (R343). -/
def stage3 {o : State} (d : Domain) (forced : Bool) : M o Unit := do
  let s ← st
  match d with
  | .module => match rungOf s 4 0 with
    | some r => if r.stage = 1 then moduleStage3 r.source r.kind forced else pure ()
    | none => pure ()
  | .partition p => match rungOf s 3 (2 ^ p) with
    | some r => if r.stage = 1 then partitionStage3 p r.source r.kind forced else pure ()
    | none => pure ()
  | .engine p => match rungOf s 2 (2 ^ p) with
    | some _ => engineStage3 p forced
    | none => pure ()

/-- BLOCK_IDLE (R343, R455): the block reports idle and is reset without FORCED. -/
def execBlockIdle (d : Domain) (s : State) : Host.Outcome State Fault Refusal :=
  act (Instr.wf (.blockIdle d)) s (stage3 d false)

/-- Rule key of the rung of a block. -/
def rungKey : Domain → Nat
  | .module => K.rung 4 0
  | .partition p => K.rung 3 p
  | .engine p => K.rung 2 p

/-- A rung of the block waits for its idle. -/
def waitsIdle (s : State) : Domain → Bool
  | .module => (rungOf s 4 0).any (·.stage == 1)
  | .partition p => (rungOf s 3 (2 ^ p)).any (·.stage == 1)
  | .engine p => (rungOf s 2 (2 ^ p)).isSome

/-- The engine that waits for its reset has nothing in flight: it does not run, or stalls, which never makes a reset FORCED (R93). -/
def engStalled (s : State) (d : Domain) : Bool :=
  match d with
  | .engine p =>
    let v := s.rd (stFld (s.rd (R.PART_ENG_RST_STAT.UNIT p)))
    v != US.RUN && v != US.ROTATE
  | _ => false

/-- IDLE_T_EXPIRY (R343): IDLE_T after the request the block is reset whether or not it is idle, and FORCED is set. -/
def execIdleTExpiry (d : Domain) (s : State) : Host.Outcome State Fault Refusal :=
  act (Instr.wf (.idleTExpiry d)) s do
    let s ← st
    if waitsIdle s d then do
      advTo (tget 0 s.clk.seen (rungKey d) + idleT s)
      stage3 d (!engStalled s d)
    else pure ()

/-- PARTITION_RESET_DONE (Table 09-15 steps 4 to 6): training checks, self-test, topiary map, and the partition is presented or left unavailable. -/
def execPartitionResetDone (p : Nat) (t : TestEnv) (s : State) : Host.Outcome State Fault Refusal :=
  act (Instr.wf (.partitionResetDone p t)) s do
    match rungOf (← st) 3 (2 ^ p) with
    | some r => if r.stage = 3 then partitionDone p t r.forced else pure ()
    | none => pure ()

end Sys2Proof.Machine
end

