-- ==== Sys2Proof/Machine/SecOps.lean ====
section
/-!
DEFINITION. Owner keys (R435 to R437), measurements (R439) and the recorder's clearing (R432).
-/

namespace Sys2Proof.Machine

variable {o : State}

/-! Measurements (Table 11-13; log entry 48 for the layout of a block). -/

/-- A digest, or zeros for an image that is not present. -/
def digest64 (d : List Byte) : List Byte := (padTo 64 d).take 64

/-- Bits of a list of flags. -/
def ownerBits (s : State) (f : OwnerSlot → Bool) : Nat := maskOf ((List.range 8).filter fun k => f (tget OwnerSlot.empty s.nv.fuses.owner k))

/-- Fused state as bytes: VARIANT, the security version counter, the owner slots' bits and digests. -/
def fusedBytes (s : State) : List Byte :=
  [s.nv.fuses.variant, s.nv.fuses.svn, ownerBits s (·.valid), ownerBits s (·.revoked)].flatMap (leBytes 1)
    ++ (List.range 8).flatMap fun k => digest64 (tget OwnerSlot.empty s.nv.fuses.owner k).digest

/-- Security settings as bytes: RST_SEC and UPD_STAT.STATE. -/
def secBytes (s : State) : List Byte := leBytes 4 (readWord s (regOff .RST_SEC [])).toNat ++ leBytes 4 (s.rd R.UPD_STAT.STATE)

/-- The measurement block of an index 1 to 6. -/
def measBlock (s : State) (i : Nat) : List Byte :=
  match i with
  | 1 => digest64 Config.bootDigest
  | 2 => digest64 (tget [] s.sec.meas 2) ++ leBytes 4 s.ctl.fw.version ++ leBytes 4 s.ctl.fw.svn
  | 3 => digest64 (tget [] s.sec.meas 3)
  | 4 => if activeVerified s then digest64 (Config.sha512 (peek s (imgBase s) (img s 0x10 8 - 65536))) ++ peek s (imgBase s + 0x18) 8 else zeros 72
  | 5 => digest64 (Config.sha512 (fusedBytes s))
  | _ => digest64 (Config.sha512 (secBytes s))

/-! Owner keys. -/

/-- RST_SEC shows the owner fuses. -/
def showOwner : M o Unit := do
  let s ← st
  wrs [(R.RST_SEC.OWNER_VALID, ownerBits s (·.valid)), (R.RST_SEC.OWNER_REVOKED, ownerBits s (·.revoked)), (R.RST_SEC.SVN, s.nv.fuses.svn)]

/-- Slots that are VALID and not REVOKED. -/
def usableSlots (s : State) : List Nat :=
  (List.range 8).filter fun k => let x := tget OwnerSlot.empty s.nv.fuses.owner k; x.valid && !x.revoked

/-- The next unused slot. -/
def nextSlot (s : State) : Option Nat := (List.range 8).find? fun k => !(tget OwnerSlot.empty s.nv.fuses.owner k).valid

/-- A nonce of the port is used: at most 60 s old, and once only (R436). -/
def takeNonce (port : Nat) : M o (Option (List Byte)) := do
  let s ← st
  upWor port fun x => { x with nonce := none }
  return match (worPort s port).nonce with
    | some (n, t) => if s.clk.mono ≤ t + 60000000000 then some n else none
    | none => none

/-- What an authorisation signs: serial, slot number, key digest and nonce (R436). -/
def authBytes (s : State) (slot : Nat) (key nonce : List Byte) : List Byte :=
  leBytes 8 s.nv.fuses.serial ++ leBytes 4 slot ++ digest64 key ++ nonce

/-- An authorisation by the key of one of the slots verifies (R435, R436). -/
def authOk (s : State) (slots : List Nat) (slot : Nat) (key nonce auth : List Byte) : Bool :=
  slots.any fun k =>
    let m := tget [] s.nv.super.moduli k
    Config.sha512 m == (tget OwnerSlot.empty s.nv.fuses.owner k).digest && Config.rsaVerify m (Config.sha512 (authBytes s slot key nonce)) auth

/-- First seven bytes of a digest as a DIGEST item's value. -/
def digestItem (d : List Byte) : Nat := leNat (d.take 7)

/-- OWNER_ENROLL (R436): the next unused slot alone. -/
def enroll (port slot : Nat) (modulus auth : List Byte) : M o Ans := do
  let s ← st
  let d := Config.sha512 modulus
  if some slot ≠ nextSlot s ∨ modulus.length ≠ 512 ∨ auth.length ≠ 512 then return plain WS.BAD_ARG
  else match ← takeNonce port with
    | none => return plain WS.AUTH_FAIL
    | some n =>
      if !(usableSlots s).isEmpty && !authOk s (usableSlots s) slot d n auth then return plain WS.AUTH_FAIL
      else do
        eff (.ownerBlow slot d)
        eff (.super fun x => { x with moduli := tset [] x.moduli slot modulus })
        showOwner
        ev E.OWNER_KEY SK.fw 0 [I.VALUE slot, I.DIGEST (digestItem d)]
        return plain WS.IN_PROGRESS

/-- OWNER_REVOKE (R437): authorised by another slot, and never the last usable one. -/
def revoke (port slot : Nat) (auth : List Byte) : M o Ans := do
  let s ← st
  let d := (tget OwnerSlot.empty s.nv.fuses.owner slot).digest
  if 8 ≤ slot ∨ auth.length ≠ 512 then return plain WS.BAD_ARG
  else if usableSlots s = [slot] ∨ !(usableSlots s).contains slot then return plain WS.STATE
  else match ← takeNonce port with
    | none => return plain WS.AUTH_FAIL
    | some n =>
      if !authOk s ((usableSlots s).filter (· ≠ slot)) slot d n auth then return plain WS.AUTH_FAIL
      else do
        eff (.ownerRevoke slot)
        showOwner
        ev E.OWNER_KEY SK.fw 0 [I.VALUE slot, I.DIGEST (digestItem d)]
        return plain WS.IN_PROGRESS

/-- OWNER_CHALLENGE (R436): a fresh nonce for the port. -/
def challenge (port : Nat) : M o Ans := do
  let s ← st
  let n := (padTo 32 (Config.nonce s.clk.free)).take 32
  eff .draw
  upWor port fun x => { x with nonce := some (n, s.clk.mono) }
  return (WS.OK, n)

/-! The recorder. -/

/-- EVT_CLEAR (R432): region and staging are erased, and EVT_CLEARED is the first record. -/
def clearRecorder (port : Nat) : M o Ans := do
  let s ← st
  let a := s.rd R.EVT_FIRST_SEQ.SEQ
  let b := s.rd R.EVT_LAST_SEQ.SEQ
  eff (.wipe evtBase (evtBase + 16384 * 4096))
  eff (.super fun x => { x with pages := 0, firstSeq := 0, clears := (x.clears + 1) % 65536 })
  eff (.rcd fun r => { r with stage := [], merge := [] })
  wrs [(R.EVT_STATUS.FULL, 0), (R.EVT_STATUS.PAGES_USED, 0), (R.EVT_CLEARS.CLEARS, (s.nv.super.clears + 1) % 65536)]
  ev E.EVT_CLEARED SK.fw 0 [I.VALUE a, I.VALUE b, I.VALUE port]
  return plain WS.IN_PROGRESS

/-- Closed pages in staging. -/
def closedPages (s : State) : Nat := (s.rcd.stage.filter (·.closed)).length

/-- A page is due that the last attempt did not find closed; a refused one alone is tried again once per second (R429). -/
def newDue (s : State) : Bool := decide (tget 0 s.clk.seen K.pages < closedPages s)

/-- A staging page is due: an open one at 1 s closes; waiting pages are written, the oldest first, until one is refused (R429). -/
def pagesDue : M o Unit := do
  let s ← st
  match s.rcd.stage.getLast? with
  | none => pure ()
  | some p => do
    (if !p.closed && (s.rcd.stage.length == 1 || decide (p.at_ + 1000000000 ≤ s.clk.mono)) then do
      advTo (p.at_ + 1000000000)
      closePage
    else pure ())
    when_ (!newDue (← st)) (advTo (tget 0 s.clk.seen K.page + 1000000000))
    loop 256 do
      match (← st).rcd.stage with
      | [] => return false
      | q :: _ => if q.closed then writePage else return false
    mark K.page
    eff (.seen K.pages (closedPages (← st)))

/-- Every touched token bucket takes RATE tokens, up to BURST (R428). -/
def refillTokens (s : State) : Tbl Nat → Tbl Nat
  | [] => []
  | (c, v) :: t =>
    let b := max 1 (codeCfg s c).1
    (if b ≤ v - 1 + (codeCfg s c).2 then [] else [(c, v + (codeCfg s c).2)]) ++ refillTokens s t

end Sys2Proof.Machine
end

