-- ==== Sys2Proof/Machine/Security.lean ====
section
/-!
DEFINITION. Owner keys, attestation and IDE (R435 to R440), and the recorder's pages, tokens and clearing (R428, R429, R432).
-/

namespace Sys2Proof.Machine

/-- MEAS_READ (R439). -/
def execMeasRead (w : WReq) (idx : Nat) (s : State) : Host.Outcome State Fault Refusal :=
  act (Instr.wf (.measRead w idx)) s (freeCmd w WC.MEAS_READ do
    if 1 ≤ idx ∧ idx ≤ 6 then return (WS.OK, measBlock (← st) idx) else return plain WS.BAD_ARG)

/-- EVT_CLEAR (R432). -/
def execEvtClear (w : WReq) (s : State) : Host.Outcome State Fault Refusal :=
  act (Instr.wf (.evtClear w)) s (actCmd w WC.EVT_CLEAR 0 (clearRecorder w.port))

/-- OWNER_CHALLENGE (R436). -/
def execOwnerChallenge (w : WReq) (s : State) : Host.Outcome State Fault Refusal :=
  act (Instr.wf (.ownerChallenge w)) s (freeCmd w WC.OWNER_CHALLENGE (challenge w.port))

/-- OWNER_ENROLL (R436). -/
def execOwnerEnroll (w : WReq) (slot : Nat) (modulus auth : List Byte) (s : State) : Host.Outcome State Fault Refusal :=
  act (Instr.wf (.ownerEnroll w slot modulus auth)) s (actCmd w WC.OWNER_ENROLL slot (enroll w.port slot modulus auth))

/-- OWNER_REVOKE (R437). -/
def execOwnerRevoke (w : WReq) (slot : Nat) (auth : List Byte) (s : State) : Host.Outcome State Fault Refusal :=
  act (Instr.wf (.ownerRevoke w slot auth)) s (actCmd w WC.OWNER_REVOKE slot (revoke w.port slot auth))

/-- SET_SECURITY (R440): IDE_REQ, kept in the settings store. -/
def execSetSecurity (w : WReq) (ideReq : Nat) (s : State) : Host.Outcome State Fault Refusal :=
  act (Instr.wf (.setSecurity w ideReq)) s (actCmd w WC.SET_SECURITY ideReq do
    if 1 < ideReq then return plain WS.BAD_ARG
    else do
      eff (.settings fun x => { x with ideReq := ideReq == 1 })
      wr R.RST_SEC.IDE_REQ ideReq
      return plain WS.OK)

/-- RECORDER_PAGE_WRITE (R429). -/
def execRecorderPageWrite (s : State) : Host.Outcome State Fault Refusal :=
  act (Instr.wf .recorderPageWrite) s pagesDue

/-- SPDM_REQUEST (R438): the responder's answer is SPDM's (log entry 17). -/
def execSpdmRequest (req : List Byte) (s : State) : Host.Outcome State Fault Refusal :=
  act (Instr.wf (.spdmRequest req)) s do
    if (← mode) = .off then pure () else send (.spdm (Config.spdmAnswer req))

/-- IDE_KEY_PROG (R440): the keys of a selective stream. -/
def execIdeKeyProg (stream : Nat) (key : List Byte) (s : State) : Host.Outcome State Fault Refusal :=
  act (Instr.wf (.ideKeyProg stream key)) s (eff (.sec fun x => { x with ide := tset [] x.ide stream key }))

/-- EVT_TOKEN_REFILL (R428): one second passes, and each bucket refills. -/
def execEvtTokenRefill (s : State) : Host.Outcome State Fault Refusal :=
  act (Instr.wf .evtTokenRefill) s do
    periodic K.tokens 1000000000
    let s ← st
    eff (.rcd fun r => { r with tokens := refillTokens s r.tokens })

end Sys2Proof.Machine
end

