-- ==== Sys2Proof/Machine/Start.lean ====
section
/-!
DEFINITION. The commands of a start (R330, R347 to R349, R358, R368, R369). HOST_FW_GO is a register write and stands in Access.lean.
-/

namespace Sys2Proof.Machine

/-- START_UP (R347): steps 2 to 9. A start whose REFCLK is not qualified yet stands at step 4 and goes on from there when START_UP comes again; an
interrupted option loading starts again at its first item (R346). -/
def execStartUp (e : StartEnv) (s : State) : Host.Outcome State Fault Refusal :=
  act (Instr.wf (.startUp e)) s do
    let s ← st
    let cold := decide (s.rd R.RST_CAUSE.VALID = 0)
    let stage := s.rd R.HIF_BOOT_STATUS.STAGE
    if s.ctl.mode ≠ .start ∨ s.ctl.failed ∨ s.ctl.mrstLow ∨ !s.hs.rails.contains 0 then pure ()
    else match stage with
      | 2 => do
        restoreWear e.superOk
        if !(← startStep2 cold e.clkMode) then pure ()
        else if !(← startStep3 e.rails) then pure ()
        else if !(← startStep4) then pure ()
        else startRest cold e
      | 4 => if s.rd R.RST_REFCLK.LOCKED = 1 then startRest cold e else pure ()
      | 6 => do
        if !(← startStep6 e) then pure ()
        else do
          startStep7 cold e
          if !(← startStep8 e) then pure () else startStep9 e
      | _ => pure ()

/-- REFCLK_QUALIFY (R330): one count of REFCLK, 10 ms after the last; within 500 ppm it is qualified, and a reference still unqualified after
100 ms fails the start. -/
def execRefclkQualify (ok : Bool) (offset : Int) (s : State) : Host.Outcome State Fault Refusal :=
  act (Instr.wf (.refclkQualify ok offset)) s do
    let s ← st
    if s.ctl.mode ≠ .start ∨ s.ctl.failed ∨ s.rd R.HIF_BOOT_STATUS.STAGE ≠ 4 ∨ s.rd R.RST_REFCLK.LOCKED = 1 then pure ()
    else do
      advTo (tget 0 s.clk.seen K.waitAt + 10000000 * s.ctl.refTries)
      if ok && decide (offset.natAbs ≤ 5000) then
        wrs [(R.RST_REFCLK.LOCKED, 1), (R.RST_REFCLK.OFFSET, ux 16 offset)]
      else do
        eff (.ctl fun c => { c with refTries := c.refTries + 1 })
        when_ (decide (10 ≤ s.ctl.refTries)) (failStart SR.REFCLK 4)

/-- WEIGHT_LOAD (R162, R153): in a start the ready set loads from the active slot; in service, what of the image has not landed yet. `bad`: vault
pages whose read fails. -/
def execWeightLoad (bad : List Nat) (s : State) : Host.Outcome State Fault Refusal :=
  act (Instr.wf (.weightLoad bad)) s do
    let s ← st
    let c := s.ctl
    if c.mode == .start && c.doneTrain && c.doneTest && !c.doneLoad && !c.failed then do
      eff (.mem fun m => { m with badPages := m.badPages ++ bad.map fun a => a / 4096 * 4096 })
      match ← loadRanges ((planRanges s).filter readyRange) with
      | .lost _ => failStart SR.WEIGHT 10
      | _ => eff (.ctl fun c => { c with doneLoad := true })
    else if serving s then do
      eff (.mem fun m => { m with badPages := m.badPages ++ bad.map fun a => a / 4096 * 4096 })
      let _ ← loadRanges ((planRanges s).filter (!hasLanded s ·))
    else pure ()

/-- The new training record (R353): this package's, with the history that the old one held. -/
def newTraining (s : State) (x : Option Training) : Option Training :=
  some { serial := s.nv.fuses.serial, devs := s.ctl.devs, written := opsec s, fail1 := (x.map (·.fail1)).getD [], fail2 := (x.map (·.fail2)).getD [] }

/-- READY_ENTRY (R347, R353, R298): every step and every bit-error test at boot has ended and THERM_W has been computed; `moved`: a training value
has moved by more than a step, and a new record is written, in the boot NOR and in the vault, in the format that the running firmware writes. -/
def execReadyEntry (moved : Bool) (s : State) : Host.Outcome State Fault Refusal :=
  act (Instr.wf (.readyEntry moved)) s do
    let c := (← st).ctl
    if c.mode == .start && !c.failed && c.doneTrain && c.doneTest && c.doneFw && c.doneLoad && !c.waits.contains 1
        && (← st).rd R.PWR_CLIP_DER.THERM_W != 0xFFFF then do
      enterReady
      when_ moved (do
        let s ← st
        upTraining (newTraining s)
        eff (.settings fun x => { x with fmts := if x.fmts.contains c.fw.fmt then x.fmts else [c.fw.fmt] }))
    else pure ()

/-- START_TIMEOUT (R349): 20 s after step 2, waits left out. -/
def execStartTimeout (s : State) : Host.Outcome State Fault Refusal :=
  act (Instr.wf .startTimeout) s do
    let s ← st
    if s.ctl.mode == .start && !s.ctl.failed && s.rd R.HIF_BOOT_STATUS.WAIT_EXT == 0 then do
      advTo (tget 0 s.clk.seen K.startAt + 20000000000)
      failStart SR.TIMEOUT (s.rd R.HIF_BOOT_STATUS.STAGE)
    else pure ()

/-- START_RETRY (R369): 1 s after a failure the module starts again from step 2, with cause 7. -/
def execStartRetry (s : State) : Host.Outcome State Fault Refusal :=
  act (Instr.wf .startRetry) s do
    let s ← st
    if s.ctl.mode == .start && s.ctl.failed then do
      advTo (tget 0 s.clk.seen K.reset + 1000000000)
      moduleStage3 7 SK.fw false
    else pure ()

/-- HOST_FW_TIMEOUT (R358): 30 s without HOST_FW_GO. -/
def execHostFwTimeout (s : State) : Host.Outcome State Fault Refusal :=
  act (Instr.wf .hostFwTimeout) s do
    let s ← st
    if s.ctl.mode == .start && !s.ctl.failed && s.ctl.waits.contains 2 && s.rd R.HIF_BOOT_STATUS.BOOT_SRC_USED == 1 then do
      advTo (tget 0 s.clk.seen K.waitAt + 30000000000)
      failStart SR.HOST 9
    else pure ()

end Sys2Proof.Machine
end

