-- ==== Sys2Proof/Machine/StreamerOps.lean ====
section
/-!
DEFINITION. Operations of a streamer: descriptor fields and legality (R82, R86, R454), index streams (R83, R84), row and panel moves
(R82, R85), and the failing of a descriptor (R86).
-/

namespace Sys2Proof.Machine

variable {o : State}

/-- A streamer descriptor: its eight 64-bit words (Table 02-9). -/
structure SDesc where
  w0 : Nat
  w1 : Nat
  w2 : Nat
  w3 : Nat
  w4 : Nat
  w5 : Nat
  w6 : Nat
  w7 : Nat
  deriving DecidableEq, Repr

/-- Cut 64 bytes into a descriptor's words. -/
def SDesc.of (b : List Byte) : SDesc :=
  let w i := leNat ((b.drop (8 * i)).take 8)
  ⟨w 0, w 1, w 2, w 3, w 4, w 5, w 6, w 7⟩

def SDesc.opc (d : SDesc) : Nat := fget d.w0 58 6
def SDesc.preEn (d : SDesc) : Bool := fget d.w0 57 1 == 1
def SDesc.postEn (d : SDesc) : Bool := fget d.w0 56 1 == 1
def SDesc.preQ (d : SDesc) : Nat := fget d.w0 46 10
def SDesc.postQ (d : SDesc) : Nat := fget d.w0 36 10
def SDesc.srcKind (d : SDesc) : Nat := fget d.w0 34 2
def SDesc.dstKind (d : SDesc) : Nat := fget d.w0 32 2
def SDesc.reps (d : SDesc) : Nat := max 1 (fget d.w0 16 16)
def SDesc.src (d : SDesc) : Nat := fget d.w1 0 56
def SDesc.dst (d : SDesc) : Nat := fget d.w2 0 56
def SDesc.rows (d : SDesc) : Nat := fget d.w3 32 32
def SDesc.rowBytes (d : SDesc) : Nat := fget d.w3 0 32
def SDesc.srcStride (d : SDesc) : Int := sx 64 d.w4
def SDesc.dstStride (d : SDesc) : Int := sx 64 d.w5
def SDesc.idxLimit (d : SDesc) : Nat := fget d.w6 40 24
def SDesc.kb (d : SDesc) : Nat := fget d.w6 21 16
def SDesc.fmt (d : SDesc) : Nat := fget d.w6 16 5
def SDesc.idxQ (d : SDesc) : Nat := fget d.w6 0 10

/-- The opcode moves rows (Table 02-10). -/
def SDesc.isRow (d : SDesc) : Bool := d.opc == 1 || d.opc == 2 || d.opc == 3

/-- The opcode moves panels (R85). -/
def SDesc.isPanel (d : SDesc) : Bool := d.opc == 4 || d.opc == 5

/-- The opcode reads an index stream (R83). -/
def SDesc.indexed (d : SDesc) : Bool := d.opc == 2 || d.opc == 3 || d.opc == 4 || d.opc == 5

/-- Panels that an execution moves (R85). -/
def SDesc.np (d : SDesc) : Nat := if isCb d.fmt then d.kb / 8 else d.kb

/-- The address lies in the vault. -/
def isVault (a : Nat) : Bool := match regionRaw a with | .vault _ => true | _ => false

/-- Alignment of a row move: multiples of 32 bytes (R82); an end in the vault takes its address, its stride and the row in multiples of 4,096
(R153). -/
def SDesc.alignOk (d : SDesc) : Bool :=
  let unit (kind a : Nat) : Nat := if kind == 0 && isVault a then 4096 else 32
  let one (kind a stride : Nat) : Bool :=
    d.rowBytes % unit kind a == 0 && (kind != 0 || (a % unit kind a == 0 && stride % unit kind a == 0))
  one d.srcKind d.src d.w4 && one d.dstKind d.dst d.w5

/-- A descriptor is legal for streamer `u` of partition p (R86, R454). -/
def descLegal (s : State) (p u : Nat) (d : SDesc) : Bool :=
  let qf (v : Nat) : Bool := fget v 10 46 == 0
  ([0, 1, 2, 3, 4, 5, 6, 63].contains d.opc) && fget d.w0 0 16 == 0 && fget d.w1 56 8 == 0 && fget d.w2 56 8 == 0
    && fget d.w6 37 3 == 0 && fget d.w6 10 6 == 0 && d.w7 == 0
    && d.srcKind != 3 && decide (d.dstKind < 2) && (d.srcKind != 2 || d.opc == 1)
    && (d.srcKind != 1 || qf d.w1) && (d.dstKind != 1 || qf d.w2)
    && (!(d.opc == 2 || d.opc == 4) || d.srcKind == 0) && (!(d.opc == 3 || d.opc == 5) || d.dstKind == 0)
    && (!d.isRow || d.alignOk)
    && (!d.isPanel || (decide (d.fmt ≤ 9) || isCb d.fmt))
    && (!d.preEn || isCons s p d.preQ u) && (!d.postEn || isProd s p d.postQ u)
    && (!d.indexed || isCons s p d.idxQ u)
    && (!(d.isRow || d.isPanel) ||
        ((if d.srcKind = 0 then regionOf s d.src != .none else if d.srcKind = 1 then isCons s p d.src u else true)
          && (if d.dstKind = 0 then regionOf s d.dst != .none else isProd s p d.dst u)))

/-! REASON values of STR_CHECK (log entry 20). -/
def SF.ILLEGAL : Nat := Config.eventCode 33
def SF.IDX_OVF : Nat := Config.eventCode 34
def SF.IDX_RANGE : Nat := Config.eventCode 35
def SF.MEM_ERR : Nat := Config.eventCode 36

/-- A descriptor fails (R86): the flag is set, the streamer stops, its phase fails. -/
def strFail (p k : Nat) (flag : Fld) (why status detail : Nat) : M o Unit := do
  let u := uidOf p 2 k
  setF flag
  ev E.STR_CHECK SK.unit u [I.UNIT u, I.REASON why, I.VALUE (← rd (R.PART_STR_STAT.DESC p k))]
  unitFail u status detail

/-- An illegal descriptor or computed address (R86). -/
def strIllegal (p k : Nat) : M o Unit := strFail p k (R.PART_STR_STAT.ILLEGAL p k) SF.ILLEGAL S.CHECK_FAIL D.ILLEGAL

/-- A refused vault write (R158). -/
def strRefused (p k detail : Nat) : M o Unit := strFail p k (R.PART_STR_STAT.ILLEGAL p k) SF.ILLEGAL S.CHECK_FAIL detail

/-- An uncorrectable read (R86). -/
def strMemErr (p k detail : Nat) : M o Unit := strFail p k (R.PART_STR_STAT.MEM_ERR p k) SF.MEM_ERR S.DATA_LOSS detail

/-- Change a streamer's progress. -/
def upRun (p k : Nat) (f : StrRun → StrRun) : M o Unit := upStr p k fun x => { x with run := f x.run }

/-- An address computed as a base plus a multiple of a stride; none when it leaves the 56-bit map (R86). -/
def strAddr (base : Nat) (i : Nat) (stride : Int) : Option Nat :=
  let a := (base : Int) + i * stride
  if 0 ≤ a ∧ a < 2 ^ 56 then some a.toNat else none

/-- A computed access is inside one row of Table 04-2 or region of Table 04-12 and, in the vault, whole pages (R86, R153). -/
def accessOk (s : State) (a len : Nat) : Bool :=
  decide (len = 0) || (spanOk s a len && (!isVault a || (a % 4096 == 0 && len % 4096 == 0)))

/-- Read bytes for a move; none when the descriptor failed. -/
def strRead (p k a len : Nat) : M o (Option (List Byte)) := do
  if !accessOk (← st) a len then do
    strIllegal p k
    return none
  else match ← readMem RC.streamer (uidOf p 2 k) a len with
    | .ok b => return some b
    | .error e => do
      strMemErr p k e
      return none

/-- Write bytes of a move; false when the descriptor failed. -/
def strWrite (p k a : Nat) (bs : List Byte) : M o Bool := do
  if bs = [] then return true
  else if !accessOk (← st) a bs.length then do
    strIllegal p k
    return false
  else if isVault a then
    match ← spillWrite a bs with
      | .ok _ => return true
      | .error e => do
        strRefused p k e
        return false
  else match ← writeMem RC.streamer (uidOf p 2 k) a bs with
    | .ok _ => return true
    | .error e => do
      strMemErr p k e
      return false

/-- Take one slot of a source or index queue; none when the streamer stalls or fails. -/
def strPop (p k q : Nat) : M o (Option (List Byte)) := do
  match ← popSlot (uidOf p 2 k) p q with
  | none => do
    stallC (uidOf p 2 k) p q
    return none
  | some (.error e) => do
    strMemErr p k e
    return none
  | some (.ok b) => return some b

/-- Push one waiting slot of the destination queue; false when the streamer stalls. -/
def strFlush (p k q : Nat) : M o Bool := do
  if (← rd (R.PART_Q_CREDIT.CREDIT p q)) = 0 then do
    stallP (uidOf p 2 k) p q
    return false
  else do
    pushSlot p q (uidOf p 2 k) ((← strm p k).run.outB.take 256)
    upRun p k fun r => { r with outB := r.outB.drop 256 }
    return true

/-- Bytes of the next source row or panel of `len` bytes from a queue: `none` when more slots must come first (the streamer took one,
stalled or failed). -/
def strGather (p k q len : Nat) : M o (Option (List Byte)) := do
  let r := (← strm p k).run
  if len ≤ r.inB.length then do
    upRun p k fun r => { r with inB := r.inB.drop len }
    return some (r.inB.take len)
  else match ← strPop p k q with
    | none => return none
    | some b => do
      upRun p k fun r => { r with inB := r.inB ++ b }
      return none

/-- The streamer still runs: a micro-step that left it so may be followed by another. -/
def strGoes (p k : Nat) : M o Bool := do return (← rd (R.PART_STR_STAT.STATE p k)) = US.RUN

/-- Deliver one row or panel to the destination address (none: the computed address leaves the map) or queue; then count it. -/
def strPut (p k : Nat) (d : SDesc) (at_ : Option Nat) (bs : List Byte) : M o Bool := do
  if d.dstKind = 1 then do
    upRun p k fun r => { r with outB := r.outB ++ bs, row := r.row + 1 }
    return true
  else match at_ with
    | none => do
      strIllegal p k
      return false
    | some a =>
      if (← strWrite p k a bs) then do
        upRun p k fun r => { r with row := r.row + 1 }
        return true
      else return false

/-- One row of COPY (Table 02-10). -/
def copyRow (p k : Nat) (d : SDesc) : M o Bool := do
  let r := (← strm p k).run.row
  let dst := strAddr d.dst r d.dstStride
  if d.srcKind = 2 then strPut p k d dst (zeros d.rowBytes)
  else if d.srcKind = 1 then
    match ← strGather p k d.src d.rowBytes with
    | some b => strPut p k d dst b
    | none => strGoes p k
  else match strAddr d.src r d.srcStride with
    | none => do
      strIllegal p k
      return false
    | some a => match ← strRead p k a d.rowBytes with
      | some b => strPut p k d dst b
      | none => return false

/-- PAD and END entries (R83). -/
abbrev IX.PAD := 0xFFFFFFFE
abbrev IX.END := 0xFFFFFFFF

/-- The 64 entries of an index slot (R83). -/
def idxEntries (b : List Byte) : List Nat := (List.range 64).map fun i => leNat ((b.drop (4 * i)).take 4)

/-- What the index stream gives next. -/
inductive Idx where
  | wait | failed | done
  | entry (i : Nat)
  deriving DecidableEq, Repr

/-- Take the next entry of the index stream; `cnt` entries were taken and at most `lim` may precede END (R83 to R85). -/
def nextIdx (p k : Nat) (d : SDesc) (cnt lim : Nat) : M o Idx := do
  let r := (← strm p k).run
  if r.idxEnd then return .done
  else match r.idxRest with
    | [] => do
      match ← strPop p k d.idxQ with
      | none => return .failed
      | some b => do
        upRun p k fun r => { r with idxRest := idxEntries b }
        return .wait
    | e :: t =>
      if e = IX.END then do
        upRun p k fun r => { r with idxEnd := true, idxRest := [] }
        return .done
      else if lim ≤ cnt then do
        strFail p k (R.PART_STR_STAT.IDX_OVF p k) SF.IDX_OVF S.CHECK_FAIL D.INDEX
        return .failed
      else if e ≠ IX.PAD ∧ d.idxLimit ≠ 0 ∧ d.idxLimit ≤ e then do
        strFail p k (R.PART_STR_STAT.IDX_RANGE p k) SF.IDX_RANGE S.CHECK_FAIL D.INDEX
        return .failed
      else do
        upRun p k fun r => { r with idxRest := t }
        return .entry e

/-- Put an entry back: its row waits for source slots. -/
def backIdx (p k e : Nat) : M o Unit := upRun p k fun r => { r with idxRest := e :: r.idxRest }

/-- One row of GATHER: a PAD entry moves a row of zeros (R84). -/
def gatherRow (p k : Nat) (d : SDesc) : M o (Option Bool) := do
  let r := (← strm p k).run.row
  match ← nextIdx p k d r d.rows with
  | .wait => return some true
  | .failed => return some false
  | .done => return none
  | .entry e => do
    let dst := strAddr d.dst r d.dstStride
    if e = IX.PAD then return some (← strPut p k d dst (zeros d.rowBytes))
    else match strAddr d.src e d.srcStride with
      | none => do
        strIllegal p k
        return some false
      | some a => match ← strRead p k a d.rowBytes with
        | some b => return some (← strPut p k d dst b)
        | none => return some false

/-- One row of SCATTER: a PAD entry reads a row and discards it (R84). -/
def scatterRow (p k : Nat) (d : SDesc) : M o (Option Bool) := do
  let r := (← strm p k).run.row
  match ← nextIdx p k d r d.rows with
  | .wait => return some true
  | .failed => return some false
  | .done => return none
  | .entry e => do
    let put (b : List Byte) : M o (Option Bool) := do
      if e = IX.PAD then do
        upRun p k fun r => { r with row := r.row + 1 }
        return some true
      else return some (← strPut p k d (strAddr d.dst e d.dstStride) b)
    if d.srcKind = 1 then
      match ← strGather p k d.src d.rowBytes with
      | some b => put b
      | none => do
        backIdx p k e
        return some (← strGoes p k)
    else match strAddr d.src r d.srcStride with
      | none => do
        strIllegal p k
        return some false
      | some a => match ← strRead p k a d.rowBytes with
        | some b => put b
        | none => return some false

/-- A zero lane of a panel (R85). -/
def zeroLane (f : Nat) : List Byte := if isCb f then zeroRecord f else zeros (laneBytes f)

/-- Gather the lanes of one panel: element bytes and scale byte of each lane (R85); none when the descriptor failed. -/
def pgatherLanes (p k : Nat) (d : SDesc) (b : Nat) : List Nat → M o (Option (List (List Byte × Byte)))
  | [] => return some []
  | e :: t => do
    let one ← (if e = IX.PAD then return some (zeroLane d.fmt, 0) else
      match strAddr d.src (e / 128) d.srcStride with
      | none => do
        strIllegal p k
        return none
      | some a0 => do
        let a := a0 + b * panelBytes d.fmt
        match ← strRead p k (a + e % 128 * laneBytes d.fmt) (laneBytes d.fmt) with
        | none => return none
        | some x =>
          if hasScale d.fmt then
            match ← strRead p k (a + 128 * laneBytes d.fmt + e % 128) 1 with
            | none => return none
            | some y => return some (x, y.headD 0)
          else return some (x, 0) : M o (Option (List Byte × Byte)))
    match one with
    | none => return none
    | some x => match ← pgatherLanes p k d b t with
      | none => return none
      | some l => return some (x :: l)

/-- One panel of PGATHER (R85). -/
def pgatherPanel (p k : Nat) (d : SDesc) : M o Bool := do
  let r := (← strm p k).run
  match ← pgatherLanes p k d r.row r.idx with
  | none => return false
  | some l =>
    let all := l ++ List.replicate (128 - l.length) (zeroLane d.fmt, 0)
    let body := all.flatMap (·.1) ++ (if hasScale d.fmt then all.map (·.2) else [])
    strPut p k d (strAddr d.dst (r.row * panelBytes d.fmt) 1) (padTo (panelBytes d.fmt) body)

/-- Scatter the lanes of one panel in order of l: where two entries name a lane the later one's data remains (R85). -/
def pscatterLanes (p k : Nat) (d : SDesc) (b : Nat) (panel : List Byte) : Nat → List Nat → M o Bool
  | _, [] => return true
  | l, e :: t => do
    if e = IX.PAD then pscatterLanes p k d b panel (l + 1) t
    else match strAddr d.dst (e / 128) d.dstStride with
      | none => do
        strIllegal p k
        return false
      | some a0 => do
        let a := a0 + b * panelBytes d.fmt
        if !(← strWrite p k (a + e % 128 * laneBytes d.fmt) (panelLane d.fmt panel l)) then return false
        else if hasScale d.fmt then
          if !(← strWrite p k (a + 128 * laneBytes d.fmt + e % 128) [BitVec.ofNat 8 (panelScale d.fmt panel l)]) then return false
          else pscatterLanes p k d b panel (l + 1) t
        else pscatterLanes p k d b panel (l + 1) t

/-- Scatter the lanes of one panel `b` by its indices. -/
def scatterPut (p k : Nat) (d : SDesc) (row : Nat) (idx : List Nat) (b : List Byte) : M o Bool := do
  if (← pscatterLanes p k d row b 0 idx) then do
    upRun p k fun r => { r with row := r.row + 1 }
    return true
  else return false

/-- One panel of PSCATTER (R85). -/
def pscatterPanel (p k : Nat) (d : SDesc) : M o Bool := do
  let r := (← strm p k).run
  if d.srcKind = 1 then
    match ← strGather p k d.src (panelBytes d.fmt) with
    | some b => scatterPut p k d r.row r.idx b
    | none => strGoes p k
  else match strAddr d.src (r.row * panelBytes d.fmt) 1 with
    | none => do
      strIllegal p k
      return false
    | some a => match ← strRead p k a (panelBytes d.fmt) with
      | some b => scatterPut p k d r.row r.idx b
      | none => return false

/-- One piece of an execution's moving: `some` answers whether more may follow, `none` that every row or panel is done. -/
def moveStep (p k : Nat) (d : SDesc) : M o (Option Bool) := do
  let r := (← strm p k).run
  if d.dstKind = 1 ∧ (d.isRow ∨ d.isPanel) ∧ 256 ≤ r.outB.length then return some (← strFlush p k d.dst)
  else match d.opc with
    | 1 => if r.row < d.rows then return some (← copyRow p k d) else return none
    | 2 => gatherRow p k d
    | 3 => scatterRow p k d
    | 4 | 5 =>
      if !r.idxEnd then do
        match ← nextIdx p k d r.idx.length 128 with
        | .wait => return some true
        | .failed => return some false
        | .done => return some true
        | .entry e => do
          upRun p k fun r => { r with idx := r.idx ++ [e] }
          return some true
      else if r.idx = [] ∨ d.np ≤ r.row then return none
      else if d.opc = 4 then return some (← pgatherPanel p k d) else return some (← pscatterPanel p k d)
    | _ => return none

/-- Key under which a streamer waits for the journal commit that covers its pages (R155). -/
def strKey (u : Nat) : Nat := 3 * u + 1

/-- The descriptor is finished: the next one is current. -/
def strNext (p k : Nat) : M o Unit := do
  wr (R.PART_STR_STAT.DESC p k) ((← rd (R.PART_STR_STAT.DESC p k)) + 1)
  upRun p k fun _ => StrRun.init

/-- One piece of a descriptor's executions (R454): PRE, moves, the last padded slot, the landing of its writes, POST. -/
def strStep (p k : Nat) (d : SDesc) : M o Bool := do
  let s ← st
  let u := uidOf p 2 k
  let r := (tget Str.init s.strs (16 * p + k)).run
  if d.preEn ∧ !r.pre then
    if qAvail s p d.preQ = 0 then do
      stallC u p d.preQ
      return false
    else do
      upQue p d.preQ fun q => { q with rd := q.rd + 1 }
      releaseSlot p d.preQ
      upRun p k fun r => { r with pre := true }
      kickQ p d.preQ
      return true
  else if !r.moved then
    match ← moveStep p k d with
    | some b => return b
    | none =>
      if d.dstKind = 1 ∧ r.outB ≠ [] then do
        upRun p k fun r => { r with outB := padTo 256 r.outB }
        strFlush p k d.dst
      else do
        upRun p k fun r => { r with moved := true }
        when_ (d.isRow && d.dstKind == 0 && isVault d.dst && decide (d.rows ≠ 0))
          (eff (.vlt fun v => { v with waiting := v.waiting ++ [strKey u] }))
        return true
  else if s.vlt.waiting.contains (strKey u) then return false
  else if d.postEn ∧ s.rd (R.PART_Q_CREDIT.CREDIT p d.postQ) = 0 then do
    stallP u p d.postQ
    return false
  else do
    when_ d.postEn (pushSlot p d.postQ u (tokenBytes (u + s.rd (R.PART_STR_STAT.DESC p k) * 65536)))
    if r.reps + 1 < d.reps then do
      upRun p k fun r => { StrRun.init with reps := r.reps + 1 }
      return true
    else do
      strNext p k
      return false

/-- Streamer k of partition p carries out its current descriptor when its opcode is `opc`: an illegal one stops it (R86), else `body` runs.
A streamer pauses while the module holds (R260). -/
def strTurn (p k opc : Nat) (f : Flt) (body : SDesc → M o Unit) : M o Unit := do
  applyUps f.ups
  let u := uidOf p 2 k
  if (← mode) = .hold then pure ()
  else if !(← unitTurn u) then pure ()
  else do
    let a := (← strm p k).list + 64 * (← rd (R.PART_STR_STAT.DESC p k))
    match ← readMem RC.streamer u a 64 with
    | .error e => strMemErr p k e
    | .ok b => do
      let d := SDesc.of b
      let known := [0, 1, 2, 3, 4, 5, 6, 63].contains d.opc
      if d.opc ≠ opc ∧ known then pure ()
      else if !descLegal (← st) p u d then strIllegal p k
      else do
        runUnit u
        body d

/-- Carry out a descriptor as far as queues allow. -/
def strRun (p k opc : Nat) (f : Flt) : M o Unit := strTurn p k opc f fun d => loop 5000000 (strStep p k d)

end Sys2Proof.Machine
end

