-- ==== Sys2Proof/Machine/Streamers.lean ====
section
/-!
DEFINITION. The streamer commands (Table 02-10) and the slope limiter's grants (R87). A descriptor's command carries out the streamer's
current descriptor, from where a stall left it (log entry 21).
-/

namespace Sys2Proof.Machine

/-- STREAMER_NOP (R82): nothing beyond its PRE and POST steps. -/
def execStreamerNop (p k : Nat) (s : State) : Host.Outcome State Fault Refusal :=
  act (Instr.wf (.streamerNop p k)) s (strRun p k 0x00 Flt.none)

/-- STREAMER_COPY (R82). -/
def execStreamerCopy (p k : Nat) (f : Flt) (s : State) : Host.Outcome State Fault Refusal :=
  act (Instr.wf (.streamerCopy p k f)) s (strRun p k 0x01 f)

/-- GATHER (R82 to R84). -/
def execGather (p k : Nat) (f : Flt) (s : State) : Host.Outcome State Fault Refusal :=
  act (Instr.wf (.gather p k f)) s (strRun p k 0x02 f)

/-- SCATTER (R82 to R84). -/
def execScatter (p k : Nat) (f : Flt) (s : State) : Host.Outcome State Fault Refusal :=
  act (Instr.wf (.scatter p k f)) s (strRun p k 0x03 f)

/-- PGATHER (R85). -/
def execPgather (p k : Nat) (f : Flt) (s : State) : Host.Outcome State Fault Refusal :=
  act (Instr.wf (.pgather p k f)) s (strRun p k 0x04 f)

/-- PSCATTER (R85). -/
def execPscatter (p k : Nat) (f : Flt) (s : State) : Host.Outcome State Fault Refusal :=
  act (Instr.wf (.pscatter p k f)) s (strRun p k 0x05 f)

/-- SYNC (R454): only its PRE pops and POST pushes. -/
def execSync (p k : Nat) (s : State) : Host.Outcome State Fault Refusal :=
  act (Instr.wf (.sync p k)) s (strRun p k 0x06 Flt.none)

/-- The end of a list (R454): the PRE slot, the POST token, then the end token; REPEAT is ignored. -/
def strEnd {o : State} (p k : Nat) (d : SDesc) : M o Unit := do
  let u := uidOf p 2 k
  let s ← st
  let x := tget Str.init s.strs (16 * p + k)
  if d.preEn ∧ !x.run.pre ∧ qAvail s p d.preQ = 0 then stallC u p d.preQ
  else do
    when_ (d.preEn && !x.run.pre) do
      upQue p d.preQ fun q => { q with rd := q.rd + 1 }
      releaseSlot p d.preQ
      upRun p k fun r => { r with pre := true }
      kickQ p d.preQ
    if d.postEn ∧ !x.run.moved ∧ (← rd (R.PART_Q_CREDIT.CREDIT p d.postQ)) = 0 then stallP u p d.postQ
    else do
      when_ (d.postEn && !x.run.moved) do
        pushSlot p d.postQ u (tokenBytes (u + s.rd (R.PART_STR_STAT.DESC p k) * 65536))
        upRun p k fun r => { r with moved := true }
      if (← rd (R.PART_Q_CREDIT.CREDIT p x.endQ)) = 0 then stallP u p x.endQ
      else do
        wr (R.PART_STR_STAT.STATE p k) US.IDLE
        pushSlot p x.endQ u (tokenBytes u)
        upRun p k fun _ => StrRun.init
        match x.ctx with
        | some c => refreshPhase c
        | none => pure ()

/-- STREAMER_END (R454). -/
def execStreamerEnd (p k : Nat) (s : State) : Host.Outcome State Fault Refusal :=
  act (Instr.wf (.streamerEnd p k)) s (strTurn p k 0x3F Flt.none fun d => strEnd p k d)

/-- Grant interval of a die at an operating point, whole nanoseconds not below Table 02-11 (log entry 118). -/
def grantInterval (op : Nat) : Nat := [20, 15, 12, 10, 8, 6, 4, 3].getD op 20

/-- SLOPE_GRANT (R87): the die's next start or release grant in arrival order, at most one per grant interval. -/
def execSlopeGrant (d : Nat) (s : State) : Host.Outcome State Fault Refusal :=
  act (Instr.wf (.slopeGrant d)) s do
    let w := (← st).pw
    match (if d = 0 then w.grant0 else w.grant1) with
    | [] => pure ()
    | (key, start) :: r => do
      let last := tget 0 (← st).clk.seen (K.grant d)
      when_ (decide (last ≠ 0)) (advTo (last + grantInterval (← rd R.PWR_STAT.OP_NOW)))
      mark (K.grant d)
      (if d = 0 then eff (.pw fun w => { w with grant0 := r }) else eff (.pw fun w => { w with grant1 := r }))
      eff (.arr key fun a => { a with
        slope := if start then (if a.slope = .wantStart then .active else a.slope) else (if a.slope = .filler then .idle else a.slope) })
      let p := key / 24
      let n := key % 24
      let even := if (← rd (R.PART_ARR_STAT.PAIR p n)) = 2 then n - 1 else n
      if start then arrWork p even Flt.none else pure ()

end Sys2Proof.Machine
end

