-- ==== Sys2Proof/Machine/Streams.lean ====
section
/-!
DEFINITION. The stream protocol (R231) and the timer of a Fazar operation (R234).
-/

namespace Sys2Proof.Machine

/-- A STREAM packet of a subtype. -/
def isStream (sub : Nat) (k : Pkt) : Bool := hTYPE k == 8 && hTSPEC k 44 4 == sub

/-- STREAM_OPEN (R231): GRANT with a context, BUSY when none is free; another nonce resets the context. -/
def execStreamOpen (s : State) : Host.Outcome State Fault Refusal :=
  act (Instr.wf .streamOpen) s do
    match ← takeInbox (isStream SB.OPEN) with
    | none => pure ()
    | some k => do
      let s ← st
      let fresh : StrIn := ⟨hSRC k, hOCH k, hDPART k, hTSPEC k 48 16, 0, [], 0, 0, s.clk.mono⟩
      let answer (sub : Nat) : M _ Unit := queuePkt (streamPkt (hSRC k) (hOCH k) 0 (hTSPEC k 48 16) sub 0)
      match findIn s (hSRC k) (hOCH k) with
      | some x =>
        if x.nonce = hTSPEC k 48 16 then answer SB.GRANT
        else do
          upIn (hSRC k) (hOCH k) fun _ => fresh
          refreshInUse
          answer SB.GRANT
      | none =>
        if inUse s (hDPART k) < 8192 then do
          eff (.fab fun b => { b with ins := b.ins ++ [fresh] })
          refreshInUse
          answer SB.GRANT
        else do
          incSat (R.FZ_STREAMp.BUSY (hDPART k))
          answer SB.BUSY

/-- STREAM_OPEN_RETRY (R231): the OPEN again, 100 us after the last, or 20 us after a BUSY. -/
def execStreamOpenRetry (dst och : Nat) (s : State) : Host.Outcome State Fault Refusal :=
  act (Instr.wf (.streamOpenRetry dst och)) s do
    match findOut (← st) dst och with
    | none => pure ()
    | some x =>
      if x.st = 1 then pure ()
      else do
        advTo (x.last + (if x.st = 2 then 20000 else 100000))
        let t ← now
        upOut dst och fun x => { x with st := 0, last := t }
        match x.waiting with
        | [] => queuePkt (streamPkt dst och 0 x.nonce SB.OPEN 0)
        | k :: _ => queuePkt (streamPkt dst och (hDPART k) x.nonce SB.OPEN 0)

/-- The answer of a destination to a stream of this module under its present nonce. -/
def takeAnswer {o : State} (sub : Nat) : M o (Option (StrOut × Pkt)) := do
  match ← takeInbox (isStream sub) with
  | none => return none
  | some k => match findOut (← st) (hSRC k) (hOCH k) with
    | none => return none
    | some x => if x.nonce = hTSPEC k 48 16 then return some (x, k) else return none

/-- STREAM_GRANT (R231). -/
def execStreamGrant (s : State) : Host.Outcome State Fault Refusal :=
  act (Instr.wf .streamGrant) s do
    match ← takeAnswer SB.GRANT with
    | none => pure ()
    | some (x, _) => do
      let t ← now
      upOut x.dst x.och fun x => { x with st := 1, last := t }
      pumpStream x.dst x.och

/-- STREAM_BUSY (R231). -/
def execStreamBusy (s : State) : Host.Outcome State Fault Refusal :=
  act (Instr.wf .streamBusy) s do
    match ← takeAnswer SB.BUSY with
    | none => pure ()
    | some (x, _) => do
      let t ← now
      upOut x.dst x.och fun x => if x.st = 0 then { x with st := 2, last := t } else x

/-- STREAM_ACK (R230, R231): every packet up to ACKSEQ is acknowledged. -/
def execStreamAck (s : State) : Host.Outcome State Fault Refusal :=
  act (Instr.wf .streamAck) s do
    match ← takeAnswer SB.ACK with
    | none => pure ()
    | some (x, k) => do
      let n := (hTSPEC k 0 16 + 1 + 65536 - x.acked % 65536) % 65536
      let t ← now
      upOut x.dst x.och fun x => { x with acked := if x.acked + n ≤ x.next then x.acked + n else x.acked, last := t }
      pumpStream x.dst x.och

/-- STREAM_ACK_TIMER (R231): 2 us after the oldest unacknowledged publication. -/
def execStreamAckTimer (fa och : Nat) (s : State) : Host.Outcome State Fault Refusal :=
  act (Instr.wf (.streamAckTimer fa och)) s do
    match findIn (← st) fa och with
    | none => pure ()
    | some x =>
      if x.unack = 0 then pure ()
      else do
        advTo (x.unackAt + 2000)
        sendAck x

/-- STREAM_CLOSE (R231). -/
def execStreamClose (s : State) : Host.Outcome State Fault Refusal :=
  act (Instr.wf .streamClose) s do
    match ← takeInbox (isStream SB.CLOSE) with
    | none => pure ()
    | some k => match findIn (← st) (hSRC k) (hOCH k) with
      | none => pure ()
      | some x => if x.nonce = hTSPEC k 48 16 then freeIn (hSRC k) (hOCH k) else pure ()

/-- STREAM_IDLE_CLOSE (R231): 50 us without traffic. -/
def execStreamIdleClose (dst och : Nat) (s : State) : Host.Outcome State Fault Refusal :=
  act (Instr.wf (.streamIdleClose dst och)) s do
    match findOut (← st) dst och with
    | none => pure ()
    | some x =>
      if x.st = 1 ∧ x.waiting = [] then do
        advTo (x.last + 50000)
        closeOut dst och
      else pure ()

/-- STREAM_CONTEXT_EXPIRY (R231): 1 ms without traffic. -/
def execStreamContextExpiry (fa och : Nat) (s : State) : Host.Outcome State Fault Refusal :=
  act (Instr.wf (.streamContextExpiry fa och)) s do
    match findIn (← st) fa och with
    | none => pure ()
    | some x => do
      advTo (x.last + 1000000)
      freeIn fa och

/-- FAZAR_OP_TIMEOUT (R234, R195): the timer of entry `idx` of the running phase reaches its timeout, time in HOLD left out (R260); the
phase's streams close. -/
def execFazarOpTimeout (slot idx : Nat) (s : State) : Host.Outcome State Fault Refusal :=
  act (Instr.wf (.fazarOpTimeout slot idx)) s do
    match phaseOf (← st) slot with
    | none => pure ()
    | some ph => match ph.timers.find? fun t => t.idx == idx && !t.stopped with
      | none => pure ()
      | some x =>
        if ph.admitted ∧ ph.live ∧ (← mode) ≠ .hold then do
          advTo (ph.admitAt + ph.held + 1000 * x.tmo)
          lockPhase slot S.TIMEOUT D.FAZAR_OP 0 idx
          each ph.timers fun t => closeOut t.peer t.och
        else pure ()

end Sys2Proof.Machine
end

