-- ==== Sys2Proof/Machine/Supply.lean ====
section
/-!
DEFINITION. The 48 V input: the hot-swap controller (R306, R314 to R319), power-on reset (R262), VIN_HIGH (R258) and brownout (R259 to R261).
Input voltages are in units of 0.1 V.
-/

namespace Sys2Proof.Machine

/-- POWER_ON_RESET (R262, R319): the input falls below the POR threshold; the module resets in any state and the latch records INPUT_LOSS with
DETAIL 1. -/
def execPowerOnReset (s : State) : Host.Outcome State Fault Refusal :=
  act (Instr.wf .powerOnReset) s do
    if (← st).hs.on then do
      latchWrite 1 1
      losePower
      eff (.hs fun h => { h with porSeen := true, holdCount := false })
    else pure ()

/-- MATE (R306): the mate loop closes. -/
def execMate (s : State) : Host.Outcome State Fault Refusal :=
  act (Instr.wf .mate) s do
    eff (.hs fun h => { h with mated := true })
    mark K.mate

/-- UNMATE (R306, R316): the loop opens; the controller switches off with cause UNMATED and a latched cause clears. -/
def execUnmate (s : State) : Host.Outcome State Fault Refusal :=
  act (Instr.wf .unmate) s do
    switchOff 2 0 false
    eff (.hs fun h => { h with mated := false, latched := false, tries := 0 })

/-- HOT_SWAP_ON (R314, R317): the first row of Table 08-4 holds for 10 ms, counted from the mate loop's closing, a cleared latched cause or an
undervoltage; after an overvoltage, an inrush fault or EPO_N its wait is over too. -/
def execHotSwapOn (vin : Nat) (s : State) : Host.Outcome State Fault Refusal :=
  act (Instr.wf (.hotSwapOn vin)) s do
    let s ← st
    let h := s.hs
    let c := s.nv.latch.cause
    if h.mated && !h.epo && !h.latched && !h.on && decide (420 ≤ vin) && (c != 6 || decide (vin < 600)) then do
      let off := tget 0 s.clk.seen K.hsOff
      advTo (max (max (tget 0 s.clk.seen K.mate + 10000000) (if tget 0 s.clk.seen K.epo = 0 then 0 else tget 0 s.clk.seen K.epo + 1000000000))
        (if c = 1 then off + 10000000 else if c = 6 then off + 100000000 else if c = 7 then off + 1000000000 else 0))
      eff (.hs fun h => { h with on := true })
      mark K.hsOn
    else pure ()

/-- INPUT_GOOD (R314, R265): output on and input at 40.0 V or more; VCTL comes up and a start begins at its first step. -/
def execInputGood (vin : Nat) (s : State) : Host.Outcome State Fault Refusal :=
  act (Instr.wf (.inputGood vin)) s do
    let s ← st
    if s.hs.on && s.hs.rails.isEmpty && decide (400 ≤ vin) then do
      eff (.hs fun h => { h with rails := [0], tries := 0 })
      eff (.super fun x => { x with pcc := (x.pcc + 1) % 2 ^ 24 })
      setMode .start
    else pure ()

/-- UNDERVOLTAGE_OFF (R314, R319). -/
def execUndervoltageOff (s : State) : Host.Outcome State Fault Refusal :=
  act (Instr.wf .undervoltageOff) s (switchOff 1 0 false)

/-- OVERVOLTAGE_OFF (R314): `highest` is the highest input sampled. -/
def execOvervoltageOff (highest : Nat) (s : State) : Host.Outcome State Fault Refusal :=
  act (Instr.wf (.overvoltageOff highest)) s (switchOff 6 (min 255 ((highest - 600) / 5)) false)

/-- OVERCURRENT_OFF (R314): `instant` tells the 200 A trip from the 500 us one. -/
def execOvercurrentOff (instant : Bool) (s : State) : Host.Outcome State Fault Refusal :=
  act (Instr.wf (.overcurrentOff instant)) s (switchOff 5 (if instant then 1 else 0) true)

/-- INRUSH_FAULT (R314): 50 ms after switch-on the output is not up; the fourth failure latches off. -/
def execInrushFault (s : State) : Host.Outcome State Fault Refusal :=
  act (Instr.wf .inrushFault) s do
    let s ← st
    if s.hs.on && s.hs.rails.isEmpty then do
      advTo (tget 0 s.clk.seen K.hsOn + 50000000)
      eff (.hs fun h => { h with tries := h.tries + 1 })
      switchOff 7 (s.hs.tries + 1) (decide (4 ≤ s.hs.tries + 1))
    else pure ()

/-- EPO (R317). -/
def execEpo (s : State) : Host.Outcome State Fault Refusal :=
  act (Instr.wf .epo) s do
    switchOff 3 0 false
    eff (.hs fun h => { h with epo := true })

/-- EPO_RELEASE (R317): EPO_N is high again; switching on waits 1 s. -/
def execEpoRelease (s : State) : Host.Outcome State Fault Refusal :=
  act (Instr.wf .epoRelease) s do
    if (← st).hs.epo then do
      eff (.hs fun h => { h with epo := false })
      mark K.epo
    else pure ()

/-- LATCH_CLEAR (R316): the input has been below 30.0 V for 100 ms. -/
def execLatchClear (s : State) : Host.Outcome State Fault Refusal :=
  act (Instr.wf .latchClear) s do
    let s ← st
    if s.hs.on then pure () else do
      advTo (tget 0 s.clk.seen K.hsOff + 100000000)
      eff (.hs fun h => { h with latched := false, tries := 0 })
      mark K.mate

/-- VIN_HIGH (R258). -/
def execVinHigh (vin : Nat) (s : State) : Host.Outcome State Fault Refusal :=
  act (Instr.wf (.vinHigh vin)) s do
    let s ← st
    if !s.hs.rails.isEmpty && decide (600 < vin) && s.rd R.PWR_STAT.VIN_HIGH == 0 then do
      setF R.PWR_STAT.VIN_HIGH
      ev E.VIN_HIGH SK.hw 0 [I.VALUE vin]
    else pure ()

/-- BROWNOUT (R259, R260): HOLD, OP7 forced, a journal commit started; in a hold it stops the 100 us count. -/
def execBrownout (vin : Nat) (s : State) : Host.Outcome State Fault Refusal :=
  act (Instr.wf (.brownout vin)) s do
    let s ← st
    if s.ctl.mode = .run ∨ s.ctl.mode = .ready ∨ s.ctl.mode = .drain ∨ s.ctl.mode = .hold then do
      let first := s.rd R.PWR_STAT.HOLD_BROWN = 0
      eff (.hs fun h => { h with
        holdCount := false, brownAt := if first then s.clk.mono else h.brownAt, vinMin := if first then vin else min vin h.vinMin })
      when_ first (do
        enterHold R.PWR_STAT.HOLD_BROWN
        commitServing
        eff (.vlt fun v => { v with held := true }))
    else pure ()

/-- INPUT_RECOVER (R261): the input reaches 40.0 V and the 100 us count starts; a fall below stops it. -/
def execInputRecover (vin : Nat) (s : State) : Host.Outcome State Fault Refusal :=
  act (Instr.wf (.inputRecover vin)) s do
    let s ← st
    if s.rd R.PWR_STAT.HOLD_BROWN = 1 then do
      eff (.hs fun h => { h with holdCount := decide (400 ≤ vin), vinMin := min vin h.vinMin })
      when_ (decide (400 ≤ vin) && !s.hs.holdCount) (mark K.brown)
    else pure ()

/-- BROWNOUT_END (R261): 100 us at 40.0 V or more; one event records the duration and the lowest input. -/
def execBrownoutEnd (s : State) : Host.Outcome State Fault Refusal :=
  act (Instr.wf .brownoutEnd) s do
    let s ← st
    if s.rd R.PWR_STAT.HOLD_BROWN = 1 ∧ s.hs.holdCount then do
      advTo (tget 0 s.clk.seen K.brown + 100000)
      wr R.PWR_STAT.HOLD_BROWN 0
      eff (.vlt fun v => { v with held := false })
      qsResume
      eff (.hs fun h => { h with holdCount := false })
      ev E.BROWNOUT SK.hw 0 [I.DURATION (((← now) - s.hs.brownAt) / 1000), I.VALUE s.hs.vinMin]
      leaveHold
    else pure ()

end Sys2Proof.Machine
end

