-- ==== Sys2Proof/Machine/Tiers.lean ====
section
/-!
DEFINITION. Memory commands: tier-1 calibration and retunes (R133, R134), scrub (R146 to R150), the vault's patrol, journal and wear counter
(R154, R155, R157) and host accesses through BAR4 (R163).
-/

namespace Sys2Proof.Machine

/-- IMPEDANCE_CALIBRATION (R133): every 64 ms while the module serves; accesses wait and none fails. -/
def execImpedanceCalibration (c : Nat) (s : State) : Host.Outcome State Fault Refusal :=
  act (Instr.wf (.impedanceCalibration c)) s (do when_ (t1Live (← st) c) (periodic (K.impCal c) 64000000))

/-- DRIFT_CHECK (R133): every 16 ms while the module serves; drift beyond half the trained eye margin makes a retune due. -/
def execDriftCheck (c : Nat) (drifted : Bool) (s : State) : Host.Outcome State Fault Refusal :=
  act (Instr.wf (.driftCheck c drifted)) s do
    if t1Live (← st) c then do
      periodic (K.drift c) 16000000
      when_ drifted (eff (.mem fun m => { m with due := m.due.filter (· ≠ c) ++ [c] }))
    else pure ()

/-- RETUNE (R133, R134): an attempt that drift or a failed attempt makes due at once, and else 1 s after the last; the fourth failure in a row marks
the channel failed, and its partition takes the partition rung. -/
def execRetune (c : Nat) (ok : Bool) (s : State) : Host.Outcome State Fault Refusal :=
  act (Instr.wf (.retune c ok)) s do
    let s ← st
    let n := s.rd (R.MEM_T1_RECAL_c.RETRY c)
    if !t1Live s c then pure ()
    else do
      when_ (!s.mem.due.contains c && decide (n = 0)) (advTo (tget 0 s.clk.seen (K.retune c) + 1000000000))
      if ok then do
        wr (R.MEM_T1_RECAL_c.RETRY c) 0
        incWrap (R.MEM_T1_RECAL_c.RETUNES c)
        mark (K.retune c)
        eff (.mem fun m => { m with due := m.due.filter (· ≠ c) })
      else do
        wr (R.MEM_T1_RECAL_c.RETRY c) (n + 1)
        if 4 ≤ n + 1 then do
          setF (R.MEM_T1_RECAL_c.FAILED c)
          setF R.MEM_STAT.T1_CH_FAIL
          faultCond R.RST_FAULT.T1_CH true
          climbPartition (c / 4) 6
        else pure ()

/-- A visit of the scrubber to an entry of the router's tables (R223). -/
def tableVisit {o : State} (i : Nat) (ups : List Upset) : M o Unit :=
  match decSram (ups.map fun u => (u.pos, u.val)) with
  | .bad => ev E.FZ_DIR_UE SK.hw 0 [I.VALUE i]
  | _ => pure ()

/-- A visit of the scrubber to the codeword at `cw` (R146, R150): an uncorrectable one of an image-backed range waits for its reload. -/
def memVisit {o : State} (cw : Nat) : M o Unit := do
  let s ← st
  let r := regionOf s cw
  if scrubSkips s cw || !scrubs s r then pure ()
  else do
    (if (← checkCw RC.scrub 0 cw) then pure () else do
      setF (R.MEM_SCRUB_STATt.UE_SEEN (scrubIdx r))
      when_ (decide (tierCode r ≤ 1) && (imageByte s cw).isSome)
        (eff (.mem fun m => { m with lostCw := m.lostCw.filter (· ≠ cw) ++ [cw] })))
    passVisit (scrubIdx r) cw

/-- SCRUB_VISIT (R146 to R150): the codeword that holds address `a` is read. An address of 2^56 and above, below CTL SRAM, is an entry of the
router's tables (R223). -/
def execScrubVisit (a : Nat) (ups : List Upset) (s : State) : Host.Outcome State Fault Refusal :=
  act (Instr.wf (.scrubVisit a ups)) s do
    if 2 ^ 56 ≤ a ∧ a < ctlBase then tableVisit (a - 2 ^ 56) ups
    else do
      applyUps ups
      memVisit (a / cwSize (regionOf (← st) a) * cwSize (regionOf (← st) a))

/-- SCRUB_LATE (R148): a pass that a stop has lengthened reaches its interval. -/
def execScrubLate (t : Nat) (s : State) : Host.Outcome State Fault Refusal :=
  act (Instr.wf (.scrubLate t)) s do
    let s ← st
    let p := passOf s t
    if p.stopped && !p.late then do
      advTo (p.start + scrubInterval t)
      setPass t { p with late := true }
      setF (R.MEM_SCRUB_STATt.LATE t)
      ev E.SCRUB_LATE SK.hw 0 [I.VALUE t]
    else pure ()

/-- MEM_RESTORED (R150): the 4 KiB page of a codeword that a scrub visit found uncorrectable, in an image-backed range, is reloaded from the
active image. -/
def execMemRestored (a : Nat) (s : State) : Host.Outcome State Fault Refusal :=
  act (Instr.wf (.memRestored a)) s do
    let s ← st
    let pg := a / 4096 * 4096
    let here (cw : Nat) : Bool := cw / 4096 == a / 4096
    match s.mem.lostCw.any (fun cw => here cw && tget [] s.mem.errs cw != []), imageByte s pg with
    | true, some v => match ← readVault RC.load 0 v 4096 with
      | .error _ => pure ()
      | .ok b => match ← writeMem RC.load 0 pg b with
        | .error _ => pure ()
        | .ok _ => do
          eff (.mem fun m => { m with lostCw := m.lostCw.filter (!here ·) })
          ev E.MEM_RESTORED SK.fw 0 [I.ADDR pg]
    | _, _ => pure ()

/-- PATROL_READ (R154): a page beyond its refresh threshold is rewritten in place, when it can be read; contents do not change. -/
def execPatrolRead (page : Nat) (beyond : Bool) (s : State) : Host.Outcome State Fault Refusal :=
  act (Instr.wf (.patrolRead page beyond)) s
    (when_ beyond (eff (.mem fun m => { m with badPages := m.badPages.filter (· ≠ vaultBase + 4096 * page) })))

/-- JOURNAL_COMMIT (R155): every 1 ms, or sooner with 64 KiB of entries pending. -/
def execJournalCommit (s : State) : Host.Outcome State Fault Refusal :=
  act (Instr.wf .journalCommit) s do
    if (← st).vlt.pend < 65536 then periodic K.journal 1000000 else pure ()
    commitServing

/-- WEAR_REFILL (R157): 353 units each second, never above the ceiling. -/
def execWearRefill (s : State) : Host.Outcome State Fault Refusal :=
  act (Instr.wf .wearRefill) s do
    periodic K.wear 1000000000
    eff (.vlt fun v => { v with wear := v.wear + Config.wearRefill })

/-- BAR4_READ (R163, R143, R134, R440). -/
def execBar4Read (off len : Nat) (ide : Bool) (ups : List Upset) (s : State) : Host.Outcome State Fault Refusal :=
  act (Instr.wf (.bar4Read off len ide ups)) s do
    applyUps ups
    let s ← st
    if ideRefuses s ide then do
      writeRec 1 (2 ^ 48) off 1
      send .unsupportedRequest
    else match bar4Addr s off len with
      | none => do
        setF R.MEM_STAT.BAR4_MISS
        send (.allOnes len)
      | some a => match ← readMem RC.host 0 a len with
        | .ok b => send (.memData b)
        | .error _ => do
          setF R.MEM_STAT.BAR4_UE
          send .completerAbort

/-- BAR4_WRITE (R163, R144, R134, R440). -/
def execBar4Write (off : Nat) (data : List Byte) (ide : Bool) (s : State) : Host.Outcome State Fault Refusal :=
  act (Instr.wf (.bar4Write off data ide)) s do
    let s ← st
    if ideRefuses s ide then do
      writeRec 1 (2 ^ 48) off 1
      send .unsupportedRequest
    else match bar4Addr s off data.length with
      | none => setF R.MEM_STAT.BAR4_MISS
      | some a =>
        if (partCws s a data.length).isEmpty ∧ !chanFailed s a data.length then do
          let _ ← writeMem RC.host 0 a data
          pure ()
        else postedWrite (cwPieces (cwSize (regionOf s a)) (data.length + 1) a data)

end Sys2Proof.Machine
end

