-- ==== Sys2Proof/Machine/Update.lean ====
section
/-!
DEFINITION. The update procedure (R416 to R424): programming, activation with its votes, confirmation and revert, and plan activation. UPDATE_CHECK,
UPDATE_PROGRAM, UPDATE_CANCEL and STAGING_WRITE are register writes and stand in Access.lean.
-/

namespace Sys2Proof.Machine

/-- PROGRAM_DONE (R414, Procedure step 3): slot R read back right is NEW, else the update is REJECTED and the slot stays WRITING. -/
def execProgramDone (verify : Bool) (s : State) : Host.Outcome State Fault Refusal :=
  act (Instr.wf (.programDone verify)) s do
    if (← rd R.UPD_STAT.STATE) ≠ UP.PROGRAMMING then pure ()
    else if verify then do
      eff (.nor fun n =>
        if n.updKind = 2 then { n with coreR := { n.coreR with ok := true }, coreWord := .new }
        else { n with slotR := { n.slotR with ok := true }, slotWord := .new })
      setUpd UP.PROGRAMMED
    else do
      wr R.UPD_STAT.ERR UE.NOR_VERIFY
      setUpd UP.REJECTED

/-- ACTIVATE (R417): armed for T_A; T_A = 0 withdraws. -/
def execActivate (w : WReq) (tA grp nMembers confirmS : Nat) (s : State) : Host.Outcome State Fault Refusal :=
  act (Instr.wf (.activate w tA grp nMembers confirmS)) s (actCmd w WC.ACTIVATE tA do
    let s ← st
    if tA = 0 then do
      eff (.upd fun u => { u with armed := none })
      return plain WS.OK
    else if confirmS ≠ 0 ∧ (confirmS < 60 ∨ 86400 < confirmS) then return plain WS.BAD_ARG
    else if s.rd R.UPD_STAT.STATE ≠ UP.PROGRAMMED then return plain WS.STATE
    else if tA < s.clk.time.toNat + 20000000 then do
      wr R.UPD_STAT.ERR UE.TIME_PAST
      return plain WS.BAD_ARG
    else do
      eff (.upd fun u => { u with armed := some (tA, grp, nMembers, if confirmS = 0 then 600 else confirmS), votes := [], voted := false })
      return plain WS.OK)

/-- Fabric time reaches an instant. -/
def timeTo {o : State} (t : Nat) : M o Unit := do eff (.pass (t - (← st).clk.time.toNat))

/-- UPD_VOTE_SEND (R418): at T_A - 10 ms the module tells its group whether it is ready, and counts its own vote. -/
def execUpdVoteSend (s : State) : Host.Outcome State Fault Refusal :=
  act (Instr.wf .updVoteSend) s do
    match (← st).upd.armed with
    | none => pure ()
    | some (tA, grp, _, _) =>
      if grp = 0 then pure ()
      else do
        timeTo (tA - 10000000)
        let s ← st
        svc grp 0 SV.UPD_VOTE [ownFa s, if updReady s then 1 else 0]
        when_ (updReady s && !s.upd.votes.contains (ownFa s)) (eff (.upd fun u => { u with votes := u.votes ++ [ownFa s] }))

/-- UPD_VOTE (R418): a member's vote, received by T_A - 1 ms; one ready vote counts for each FA. -/
def execUpdVote (fa gen : Nat) (ready : Bool) (s : State) : Host.Outcome State Fault Refusal :=
  act (Instr.wf (.updVote fa gen ready)) s do
    let s ← st
    if !genOk s fa gen then dropPkt DR.GEN_OLD
    else when_ (s.upd.armed.any (fun a => decide (s.clk.time.toNat + 1000000 ≤ a.1)) && ready && !s.upd.voted && !s.upd.votes.contains fa) (eff (.upd fun u => { u with votes := u.votes ++ [fa] }))

/-- VOTE_COUNT (R418): at T_A - 1 ms the ready votes are counted (log entry 45 for the event). -/
def execVoteCount (s : State) : Host.Outcome State Fault Refusal :=
  act (Instr.wf .voteCount) s do
    match (← st).upd.armed with
    | none => pure ()
    | some (tA, grp, n, _) =>
      if grp = 0 then pure ()
      else do
        timeTo (tA - 1000000)
        let s ← st
        let ok := decide (n ≤ s.upd.votes.length)
        eff (.upd fun u => { u with voted := ok })
        when_ (!ok) (ev E.UPD_VOTE_MISS SK.fw 0 [I.COUNT s.upd.votes.length])

/-- FIRMWARE_ACTIVATION (R417 to R419): T_A is reached. -/
def execFirmwareActivation (s : State) : Host.Outcome State Fault Refusal :=
  act (Instr.wf .firmwareActivation) s do
    match (← st).upd.armed with
    | none => pure ()
    | some (tA, grp, _, secs) => do
      timeTo tA
      activationFires grp secs
      eff (.upd fun u => { u with armed := none, votes := [], voted := false })

/-- CONFIRM (R420): the counter's fuses are blown, slot F takes slot R, which is VALID. -/
def execConfirm (w : WReq) (s : State) : Host.Outcome State Fault Refusal :=
  act (Instr.wf (.confirm w)) s (actCmd w WC.CONFIRM 0 do
    let s ← st
    let n := s.nv.nor
    if s.rd R.UPD_STAT.STATE ≠ UP.UNCONFIRMED then return plain WS.STATE
    else do
      eff (.svnBlow (if n.updKind = 2 then n.coreR.svn else n.slotR.svn))
      eff (.nor fun n =>
        if n.updKind = 2 then { n with coreF := n.coreR, coreWord := .valid } else { n with slotF := n.slotR, slotWord := .valid })
      when_ (decide (n.updKind ≠ 2)) (keepFormat n.slotR.fmt)
      showOwner
      setUpd UP.IDLE
      return plain WS.IN_PROGRESS)

/-- ROLLBACK (R421). -/
def execRollback (w : WReq) (s : State) : Host.Outcome State Fault Refusal :=
  act (Instr.wf (.rollback w)) s (actCmd w WC.ROLLBACK 0 do
    if (← rd R.UPD_STAT.STATE) ≠ UP.UNCONFIRMED then return plain WS.STATE
    else do
      revertNow
      return plain WS.IN_PROGRESS)

/-- CONFIRM_DEADLINE (R421): the deadline passes unconfirmed. -/
def execConfirmDeadline (s : State) : Host.Outcome State Fault Refusal :=
  act (Instr.wf .confirmDeadline) s do
    let s ← st
    if s.rd R.UPD_STAT.STATE ≠ UP.UNCONFIRMED then pure ()
    else do
      advTo (tget 0 s.clk.seen K.confirm + 1000000000 * s.nv.nor.confirmS)
      revertNow

/-- ACTIVATE_PLAN (R424): at once with T_A = 0, else armed; a time already past is refused (R257). -/
def execActivatePlan (w : WReq) (tA slot : Nat) (s : State) : Host.Outcome State Fault Refusal :=
  act (Instr.wf (.activatePlan w tA slot)) s (actCmd w WC.ACTIVATE_PLAN tA do
    let s ← st
    if 1 < slot ∨ (tA ≠ 0 ∧ tA ≤ s.clk.time.toNat) then return plain WS.BAD_ARG
    else if tA ≠ 0 then do
      eff (.upd fun u => { u with planAt := some (tA, slot) })
      return plain WS.OK
    else if planReady s slot then do
      planSwitch slot
      return plain WS.OK
    else return plain WS.STATE)

/-- PLAN_ACTIVATION (R424): T_A of an armed plan activation. -/
def execPlanActivation (s : State) : Host.Outcome State Fault Refusal :=
  act (Instr.wf .planActivation) s do
    match (← st).upd.planAt with
    | none => pure ()
    | some (tA, slot) => do
      timeTo tA
      eff (.upd fun u => { u with planAt := none })
      noteUnlocked
      if planReady (← st) slot then planSwitch slot else ev E.PLAN_ACTIVATE_FAIL SK.fw 0 [I.VALUE slot]

end Sys2Proof.Machine
end

