-- ==== Sys2Proof/Machine/Worisy.lean ====
section
/-!
DEFINITION. The Worisy commands of Table 11-3 but those of updates, owner keys and the recorder.
-/

namespace Sys2Proof.Machine

/-- PING. -/
def execPing (w : WReq) (s : State) : Host.Outcome State Fault Refusal :=
  act (Instr.wf (.ping w)) s (freeCmd w WC.PING (pure (plain WS.OK)))

/-- INFO. -/
def execInfo (w : WReq) (s : State) : Host.Outcome State Fault Refusal :=
  act (Instr.wf (.info w)) s (freeCmd w WC.INFO do return (WS.OK, infoBytes (← st)))

/-- REG_READ. -/
def execRegRead (w : WReq) (off cnt : Nat) (s : State) : Host.Outcome State Fault Refusal :=
  act (Instr.wf (.regRead w off cnt)) s (freeCmd w WC.REG_READ do
    if regRange off cnt then return (WS.OK, wordsBytes (← fetchWords cnt off)) else return plain WS.BAD_ARG)

/-- The words of a REG_WRITE, one recorded write each, the lowest first (R403, R404). -/
def putWords {o : State} (src : Src) : Nat → List (BitVec 32) → M o Unit
  | _, [] => pure ()
  | off, v :: t => do
    barWord src off v.toNat
    putWords src (off + 4) t

/-- REG_WRITE (R403, R404, R448): as BAR0 writes; one that reaches RST_REQ or the PWR block writes nothing. -/
def execRegWrite (w : WReq) (off : Nat) (ws : List (BitVec 32)) (s : State) : Host.Outcome State Fault Refusal :=
  act (Instr.wf (.regWrite w off ws)) s (request w WC.REG_WRITE do
    let s ← st
    let bad := if w.rsv || w.lgen != 0 then some WS.BAD_CMD else if worBusy s WC.REG_WRITE then some WS.BUSY
      else if w.badLen || !regRange off ws.length then some WS.BAD_ARG else none
    match bad with
    | some x => do
      cmdRec (portKind w.port) WC.REG_WRITE off WR.REFUSED
      return plain x
    | none =>
      if (List.range ws.length).any fun i => commandOnly (off + 4 * i) then do
        each (List.range ws.length) fun i => wordRec (portSrc w.port) (off + 4 * i) (ws.getD i 0).toNat WR.REFUSED
        return plain WS.USE_COMMAND
      else do
        putWords (portSrc w.port) off ws
        return plain WS.OK)

/-- EVT_READ (R433): bytes of the recorder region as the window shows them. -/
def execEvtRead (w : WReq) (off len : Nat) (s : State) : Host.Outcome State Fault Refusal :=
  act (Instr.wf (.evtRead w off len)) s (freeCmd w WC.EVT_READ do
    if len % 8 = 0 ∧ len ≤ 2048 ∧ off + len ≤ 16384 * 4096 then return (WS.OK, evtBytes (← st) off len) else return plain WS.BAD_ARG)

/-- LEASE_CLAIM (R405, R406). -/
def execLeaseClaim (w : WReq) (s : State) : Host.Outcome State Fault Refusal :=
  act (Instr.wf (.leaseClaim w)) s (freeCmd w WC.LEASE_CLAIM (leaseClaim w.port))

/-- LEASE_RENEW (R405). -/
def execLeaseRenew (w : WReq) (s : State) : Host.Outcome State Fault Refusal :=
  act (Instr.wf (.leaseRenew w)) s (actCmd w WC.LEASE_RENEW 0 do
    leaseTouch
    return plain WS.OK)

/-- LEASE_RELEASE (R407). -/
def execLeaseRelease (w : WReq) (s : State) : Host.Outcome State Fault Refusal :=
  act (Instr.wf (.leaseRelease w)) s (actCmd w WC.LEASE_RELEASE 0 do
    leaseEnds
    return plain WS.OK)

/-- LEASE_STATUS. -/
def execLeaseStatus (w : WReq) (s : State) : Host.Outcome State Fault Refusal :=
  act (Instr.wf (.leaseStatus w)) s (freeCmd w WC.LEASE_STATUS do
    return (WS.OK, word4 (readWord (← st) (regOff .RST_LEASE [])).toNat))

/-- SET_CLIP (R276, R3). -/
def execSetClip (w : WReq) (watts : Nat) (s : State) : Host.Outcome State Fault Refusal :=
  act (Instr.wf (.setClip w watts)) s (actCmd w WC.SET_CLIP watts (setLevel R.PWR_CLIP_IN.MGMT_W watts))

/-- SET_RACK_CLIP (R276, R3). -/
def execSetRackClip (w : WReq) (watts : Nat) (s : State) : Host.Outcome State Fault Refusal :=
  act (Instr.wf (.setRackClip w watts)) s (actCmd w WC.SET_RACK_CLIP watts (setLevel R.PWR_CLIP_IN.RACK_W watts))

/-- SET_OP_CEIL (R278). -/
def execSetOpCeil (w : WReq) (point time : Nat) (s : State) : Host.Outcome State Fault Refusal :=
  act (Instr.wf (.setOpCeil w point time)) s (actCmd w WC.SET_OP_CEIL point (setCeil point time))

/-- FLOW_REPORT (R299). -/
def execFlowReport (w : WReq) (flow : Nat) (s : State) : Host.Outcome State Fault Refusal :=
  act (Instr.wf (.flowReport w flow)) s (actCmd w WC.FLOW_REPORT flow (flowPut flow))

/-- HOLD with 1 (R263, R260): operator hold. -/
def execOperatorHold (w : WReq) (s : State) : Host.Outcome State Fault Refusal :=
  act (Instr.wf (.operatorHold w)) s (actCmd w WC.HOLD 1 do
    enterHold R.PWR_STAT.HOLD_OPER
    return plain WS.OK)

/-- HOLD with 0 (R263, R204): the operator hold ends. -/
def execOperatorHoldRelease (w : WReq) (s : State) : Host.Outcome State Fault Refusal :=
  act (Instr.wf (.operatorHoldRelease w)) s (actCmd w WC.HOLD 0 do
    wr R.PWR_STAT.HOLD_OPER 0
    leaveHold
    return plain WS.OK)

/-- RESET (R401, R340): the rung named, without a KEY; code 0x0B of Table 10-4. -/
def execReset (w : WReq) (rung pmask slot rsv0 : Nat) (s : State) : Host.Outcome State Fault Refusal :=
  act (Instr.wf (.reset w rung pmask slot rsv0)) s (actCmd w WC.RESET (rung + 256 * pmask + 65536 * slot) do
    if resetArgs rung pmask slot rsv0 then do
      askRung rung pmask slot 0xB 5 (portKind w.port)
      return plain WS.OK
    else return plain WS.BAD_ARG)

/-- MEMBER_RENEW (R242). -/
def execMemberRenew (w : WReq) (s : State) : Host.Outcome State Fault Refusal :=
  act (Instr.wf (.memberRenew w)) s (actCmd w WC.MEMBER_RENEW 0 renewMember)

/-- FENCE (R243, R395). -/
def execFenceCommand (w : WReq) (s : State) : Host.Outcome State Fault Refusal :=
  act (Instr.wf (.fenceCommand w)) s (actCmd w WC.FENCE 0 do
    enterFenced 3
    return plain WS.OK)

/-- READMIT (R396). -/
def execReadmit (w : WReq) (epoch : Nat) (s : State) : Host.Outcome State Fault Refusal :=
  act (Instr.wf (.readmit w epoch)) s (actCmd w WC.READMIT epoch (readmitNow epoch))

/-- CLR_FAILS over Worisy (R371). -/
def execWorisyClrFails (w : WReq) (s : State) : Host.Outcome State Fault Refusal :=
  act (Instr.wf (.worisyClrFails w)) s (actCmd w WC.CLR_FAILS 0 do
    clearFails
    return plain WS.OK)

end Sys2Proof.Machine
end

