-- ==== Sys2Proof/Machine/Dispatch.lean ====
section
/-!
DEFINITION. One arm per command: a direct call of its meaning.
-/

namespace Sys2Proof.Machine

/-- The meaning of a command on everything but the queue. -/
def exec (i : Instr) (s : State) : Host.Outcome State Fault Refusal :=
  match i with
  | .powerOnReset => Sys2Proof.Machine.execPowerOnReset s
  | .mate => Sys2Proof.Machine.execMate s
  | .unmate => Sys2Proof.Machine.execUnmate s
  | .hotSwapOn vin => Sys2Proof.Machine.execHotSwapOn vin s
  | .inputGood vin => Sys2Proof.Machine.execInputGood vin s
  | .undervoltageOff => Sys2Proof.Machine.execUndervoltageOff s
  | .overvoltageOff highest => Sys2Proof.Machine.execOvervoltageOff highest s
  | .overcurrentOff instant => Sys2Proof.Machine.execOvercurrentOff instant s
  | .inrushFault => Sys2Proof.Machine.execInrushFault s
  | .epo => Sys2Proof.Machine.execEpo s
  | .epoRelease => Sys2Proof.Machine.execEpoRelease s
  | .latchClear => Sys2Proof.Machine.execLatchClear s
  | .vinHigh vin => Sys2Proof.Machine.execVinHigh vin s
  | .brownout vin => Sys2Proof.Machine.execBrownout vin s
  | .inputRecover vin => Sys2Proof.Machine.execInputRecover vin s
  | .brownoutEnd => Sys2Proof.Machine.execBrownoutEnd s
  | .mrst ns => Sys2Proof.Machine.execMrst ns s
  | .hostInterfaceReset flr => Sys2Proof.Machine.execHostInterfaceReset flr s
  | .startUp e => Sys2Proof.Machine.execStartUp e s
  | .refclkQualify ok offset => Sys2Proof.Machine.execRefclkQualify ok offset s
  | .weightLoad bad => Sys2Proof.Machine.execWeightLoad bad s
  | .readyEntry moved => Sys2Proof.Machine.execReadyEntry moved s
  | .startTimeout => Sys2Proof.Machine.execStartTimeout s
  | .startRetry => Sys2Proof.Machine.execStartRetry s
  | .hostFwTimeout => Sys2Proof.Machine.execHostFwTimeout s
  | .hostFwGo src => Sys2Proof.Machine.execHostFwGo src s
  | .moduleReset why key => Sys2Proof.Machine.execModuleReset why key s
  | .partitionReset why key pmask => Sys2Proof.Machine.execPartitionReset why key pmask s
  | .contextReset why slot => Sys2Proof.Machine.execContextReset why slot s
  | .clrFails src => Sys2Proof.Machine.execClrFails src s
  | .blockIdle d => Sys2Proof.Machine.execBlockIdle d s
  | .idleTExpiry d => Sys2Proof.Machine.execIdleTExpiry d s
  | .partitionResetDone p t => Sys2Proof.Machine.execPartitionResetDone p t s
  | .engineReset src p unit => Sys2Proof.Machine.execEngineReset src p unit s
  | .arrayNop p n => Sys2Proof.Machine.execArrayNop p n s
  | .tile p n f => Sys2Proof.Machine.execTile p n f s
  | .residueSweep p n lane0 f => Sys2Proof.Machine.execResidueSweep p n lane0 f s
  | .bankComplete p n f => Sys2Proof.Machine.execBankComplete p n f s
  | .emit p n f => Sys2Proof.Machine.execEmit p n f s
  | .ldcb p n f => Sys2Proof.Machine.execLdcb p n f s
  | .setseed p n => Sys2Proof.Machine.execSetseed p n s
  | .setb p n => Sys2Proof.Machine.execSetb p n s
  | .addb p n => Sys2Proof.Machine.execAddb p n s
  | .setlc p n => Sys2Proof.Machine.execSetlc p n s
  | .loop p n => Sys2Proof.Machine.execLoop p n s
  | .waitq p n => Sys2Proof.Machine.execWaitq p n s
  | .postq p n => Sys2Proof.Machine.execPostq p n s
  | .brq p n f => Sys2Proof.Machine.execBrq p n f s
  | .jump p n => Sys2Proof.Machine.execJump p n s
  | .arrayRotpt p n => Sys2Proof.Machine.execArrayRotpt p n s
  | .arrayEnd p n => Sys2Proof.Machine.execArrayEnd p n s
  | .rotationComplete unit phys phys2 => Sys2Proof.Machine.execRotationComplete unit phys phys2 s
  | .slotPublish p q => Sys2Proof.Machine.execSlotPublish p q s
  | .slotRelease p q => Sys2Proof.Machine.execSlotRelease p q s
  | .creditBatchReturn p q => Sys2Proof.Machine.execCreditBatchReturn p q s
  | .niSlotSend p q f => Sys2Proof.Machine.execNiSlotSend p q f s
  | .streamerNop p k => Sys2Proof.Machine.execStreamerNop p k s
  | .streamerCopy p k f => Sys2Proof.Machine.execStreamerCopy p k f s
  | .gather p k f => Sys2Proof.Machine.execGather p k f s
  | .scatter p k f => Sys2Proof.Machine.execScatter p k f s
  | .pgather p k f => Sys2Proof.Machine.execPgather p k f s
  | .pscatter p k f => Sys2Proof.Machine.execPscatter p k f s
  | .sync p k => Sys2Proof.Machine.execSync p k s
  | .streamerEnd p k => Sys2Proof.Machine.execStreamerEnd p k s
  | .slopeGrant d => Sys2Proof.Machine.execSlopeGrant d s
  | .brambleSample => Sys2Proof.Machine.execBrambleSample s
  | .brambleAction slot opid => Sys2Proof.Machine.execBrambleAction slot opid s
  | .ewcInstruction p g op f => Sys2Proof.Machine.execEwcInstruction p g op f s
  | .csrr p g xd csr f => Sys2Proof.Machine.execCsrr p g xd csr f s
  | .csrw p g csr xs f => Sys2Proof.Machine.execCsrw p g csr xs f s
  | .ei p g f => Sys2Proof.Machine.execEi p g f s
  | .di p g f => Sys2Proof.Machine.execDi p g f s
  | .iret p g f => Sys2Proof.Machine.execIret p g f s
  | .wfi p g f => Sys2Proof.Machine.execWfi p g f s
  | .qwait p g xd q f => Sys2Proof.Machine.execQwait p g xd q f s
  | .qrel p g q f => Sys2Proof.Machine.execQrel p g q f s
  | .qacq p g xd q f => Sys2Proof.Machine.execQacq p g xd q f s
  | .qpub p g q f => Sys2Proof.Machine.execQpub p g q f s
  | .qpoll p g xd q f => Sys2Proof.Machine.execQpoll p g xd q f s
  | .qtry p g xd q f => Sys2Proof.Machine.execQtry p g xd q f s
  | .corePostq p g q xs f => Sys2Proof.Machine.execCorePostq p g q xs f s
  | .mboxw p g tgt n xs f => Sys2Proof.Machine.execMboxw p g tgt n xs f s
  | .mboxr p g xd n f => Sys2Proof.Machine.execMboxr p g xd n f s
  | .coreRotpt p g f => Sys2Proof.Machine.execCoreRotpt p g f s
  | .coreEnd p g f => Sys2Proof.Machine.execCoreEnd p g f s
  | .interruptEntry p g f => Sys2Proof.Machine.execInterruptEntry p g f s
  | .timerFire p g t => Sys2Proof.Machine.execTimerFire p g t s
  | .mboxWrite src p g n v => Sys2Proof.Machine.execMboxWrite src p g n v s
  | .serviceCoreWatchdog pair => Sys2Proof.Machine.execServiceCoreWatchdog pair s
  | .lockstepMismatch pair => Sys2Proof.Machine.execLockstepMismatch pair s
  | .impedanceCalibration c => Sys2Proof.Machine.execImpedanceCalibration c s
  | .driftCheck c drifted => Sys2Proof.Machine.execDriftCheck c drifted s
  | .retune c ok => Sys2Proof.Machine.execRetune c ok s
  | .scrubVisit a ups => Sys2Proof.Machine.execScrubVisit a ups s
  | .scrubLate t => Sys2Proof.Machine.execScrubLate t s
  | .memRestored a => Sys2Proof.Machine.execMemRestored a s
  | .patrolRead page beyond => Sys2Proof.Machine.execPatrolRead page beyond s
  | .journalCommit => Sys2Proof.Machine.execJournalCommit s
  | .wearRefill => Sys2Proof.Machine.execWearRefill s
  | .bar4Read off len ide ups => Sys2Proof.Machine.execBar4Read off len ide ups s
  | .bar4Write off data ide => Sys2Proof.Machine.execBar4Write off data ide s
  | .ringEnable src n => Sys2Proof.Machine.execRingEnable src n s
  | .ringDisable src n => Sys2Proof.Machine.execRingDisable src n s
  | .sqTail n v => Sys2Proof.Machine.execSqTail n v s
  | .cqHead n v => Sys2Proof.Machine.execCqHead n v s
  | .descriptorFetch d => Sys2Proof.Machine.execDescriptorFetch d s
  | .completionWrite opid refused => Sys2Proof.Machine.execCompletionWrite opid refused s
  | .msixCoalesceTimer n => Sys2Proof.Machine.execMsixCoalesceTimer n s
  | .nop opid => Sys2Proof.Machine.execNop opid s
  | .runPhase opid => Sys2Proof.Machine.execRunPhase opid s
  | .gateTick => Sys2Proof.Machine.execGateTick s
  | .fabricAdmitDeadline slot => Sys2Proof.Machine.execFabricAdmitDeadline slot s
  | .phaseEnd slot => Sys2Proof.Machine.execPhaseEnd slot s
  | .copy opid d f => Sys2Proof.Machine.execCopy opid d f s
  | .loadImage opid d => Sys2Proof.Machine.execLoadImage opid d s
  | .imageVerify opid => Sys2Proof.Machine.execImageVerify opid s
  | .bindContext opid => Sys2Proof.Machine.execBindContext opid s
  | .bindComplete slot bad => Sys2Proof.Machine.execBindComplete slot bad s
  | .unbindContext opid => Sys2Proof.Machine.execUnbindContext opid s
  | .fence opid => Sys2Proof.Machine.execFence opid s
  | .abort opid => Sys2Proof.Machine.execAbort opid s
  | .abortContext opid => Sys2Proof.Machine.execAbortContext opid s
  | .queryEnergy opid => Sys2Proof.Machine.execQueryEnergy opid s
  | .setOpPref opid => Sys2Proof.Machine.execSetOpPref opid s
  | .serveStart src => Sys2Proof.Machine.execServeStart src s
  | .serveStop src => Sys2Proof.Machine.execServeStop src s
  | .gateStop src v => Sys2Proof.Machine.execGateStop src v s
  | .portEnable src n => Sys2Proof.Machine.execPortEnable src n s
  | .portDisable src n => Sys2Proof.Machine.execPortDisable src n s
  | .forceHold src n v => Sys2Proof.Machine.execForceHold src n v s
  | .berNow src n => Sys2Proof.Machine.execBerNow src n s
  | .linkTrained n => Sys2Proof.Machine.execLinkTrained n s
  | .ident n loc port => Sys2Proof.Machine.execIdent n loc port s
  | .identTimeout n => Sys2Proof.Machine.execIdentTimeout n s
  | .identRepeat n => Sys2Proof.Machine.execIdentRepeat n s
  | .testReq n => Sys2Proof.Machine.execTestReq n s
  | .testAck n => Sys2Proof.Machine.execTestAck n s
  | .testResult n pass => Sys2Proof.Machine.execTestResult n pass s
  | .berTestDone n errs => Sys2Proof.Machine.execBerTestDone n errs s
  | .berInterval n => Sys2Proof.Machine.execBerInterval n s
  | .keepaliveSend n => Sys2Proof.Machine.execKeepaliveSend n s
  | .portDown n why => Sys2Proof.Machine.execPortDown n why s
  | .fecErrorLimit n cnt => Sys2Proof.Machine.execFecErrorLimit n cnt s
  | .flitTimeout n => Sys2Proof.Machine.execFlitTimeout n s
  | .retrain n => Sys2Proof.Machine.execRetrain n s
  | .portState fa gen m port up => Sys2Proof.Machine.execPortState fa gen m port up s
  | .packetInject k e => Sys2Proof.Machine.execPacketInject k e s
  | .packetReceive port k e => Sys2Proof.Machine.execPacketReceive port k e s
  | .qslot => Sys2Proof.Machine.execQslot s
  | .credit => Sys2Proof.Machine.execCredit s
  | .streamOpen => Sys2Proof.Machine.execStreamOpen s
  | .streamOpenRetry dst och => Sys2Proof.Machine.execStreamOpenRetry dst och s
  | .streamGrant => Sys2Proof.Machine.execStreamGrant s
  | .streamBusy => Sys2Proof.Machine.execStreamBusy s
  | .streamAck => Sys2Proof.Machine.execStreamAck s
  | .streamAckTimer fa och => Sys2Proof.Machine.execStreamAckTimer fa och s
  | .streamClose => Sys2Proof.Machine.execStreamClose s
  | .streamIdleClose dst och => Sys2Proof.Machine.execStreamIdleClose dst och s
  | .streamContextExpiry fa och => Sys2Proof.Machine.execStreamContextExpiry fa och s
  | .fazarOpTimeout slot idx => Sys2Proof.Machine.execFazarOpTimeout slot idx s
  | .directoryWrite src off v => Sys2Proof.Machine.execDirectoryWrite src off v s
  | .dirUpdate fa gen ws => Sys2Proof.Machine.execDirUpdate fa gen ws s
  | .bankCopy src => Sys2Proof.Machine.execBankCopy src s
  | .sealBank src => Sys2Proof.Machine.execSealBank src s
  | .arm src => Sys2Proof.Machine.execArm src s
  | .cancel src => Sys2Proof.Machine.execCancel src s
  | .laying => Sys2Proof.Machine.execLaying s
  | .epochHoldEnd => Sys2Proof.Machine.execEpochHoldEnd s
  | .membershipLapse => Sys2Proof.Machine.execMembershipLapse s
  | .mcast e => Sys2Proof.Machine.execMcast e s
  | .broadcast k port => Sys2Proof.Machine.execBroadcast k port s
  | .reduceUp mismatch e => Sys2Proof.Machine.execReduceUp mismatch e s
  | .reduceDown e => Sys2Proof.Machine.execReduceDown e s
  | .redContextExpiry grp rseq sg => Sys2Proof.Machine.execRedContextExpiry grp rseq sg s
  | .timeFrameSend => Sys2Proof.Machine.execTimeFrameSend s
  | .timeFrame port t => Sys2Proof.Machine.execTimeFrame port t s
  | .rootLoss => Sys2Proof.Machine.execRootLoss s
  | .rootPromotion => Sys2Proof.Machine.execRootPromotion s
  | .rootStartWait => Sys2Proof.Machine.execRootStartWait s
  | .timeRootSet src => Sys2Proof.Machine.execTimeRootSet src s
  | .timeSet src hi => Sys2Proof.Machine.execTimeSet src hi s
  | .timeLoRead => Sys2Proof.Machine.execTimeLoRead s
  | .opMove => Sys2Proof.Machine.execOpMove s
  | .vcoreSettled => Sys2Proof.Machine.execVcoreSettled s
  | .blendStep => Sys2Proof.Machine.execBlendStep s
  | .forcedVcoreFall => Sys2Proof.Machine.execForcedVcoreFall s
  | .forcedRelease => Sys2Proof.Machine.execForcedRelease s
  | .droopDetect d => Sys2Proof.Machine.execDroopDetect d s
  | .droopRelease d => Sys2Proof.Machine.execDroopRelease d s
  | .droopLong d => Sys2Proof.Machine.execDroopLong d s
  | .blendResume => Sys2Proof.Machine.execBlendResume s
  | .vrAlert cond => Sys2Proof.Machine.execVrAlert cond s
  | .vrAlertRelease => Sys2Proof.Machine.execVrAlertRelease s
  | .powerSample watts decivolts => Sys2Proof.Machine.execPowerSample watts decivolts s
  | .clipLagStep => Sys2Proof.Machine.execClipLagStep s
  | .clipLagLong => Sys2Proof.Machine.execClipLagLong s
  | .estimatorTick a => Sys2Proof.Machine.execEstimatorTick a s
  | .gainRefit => Sys2Proof.Machine.execGainRefit s
  | .opCeilApply => Sys2Proof.Machine.execOpCeilApply s
  | .hotspotSample r => Sys2Proof.Machine.execHotspotSample r s
  | .sensorCompare => Sys2Proof.Machine.execSensorCompare s
  | .rotationRequest unit => Sys2Proof.Machine.execRotationRequest unit s
  | .throttleStep d h unit => Sys2Proof.Machine.execThrottleStep d h unit s
  | .throttleRestore d h => Sys2Proof.Machine.execThrottleRestore d h s
  | .hotRelease => Sys2Proof.Machine.execHotRelease s
  | .rateRelease => Sys2Proof.Machine.execRateRelease s
  | .thermalUpdate tin tout => Sys2Proof.Machine.execThermalUpdate tin tout s
  | .flowMismatch => Sys2Proof.Machine.execFlowMismatch s
  | .cycleSample => Sys2Proof.Machine.execCycleSample s
  | .lifeSave => Sys2Proof.Machine.execLifeSave s
  | .guardTrip kind channels => Sys2Proof.Machine.execGuardTrip kind channels s
  | .guardSingle ch kind => Sys2Proof.Machine.execGuardSingle ch kind s
  | .guardSuspect ch kind => Sys2Proof.Machine.execGuardSuspect ch kind s
  | .guardSingleRelease ch kind => Sys2Proof.Machine.execGuardSingleRelease ch kind s
  | .escalate code unit => Sys2Proof.Machine.execEscalate code unit s
  | .sweepFail p kind phys => Sys2Proof.Machine.execSweepFail p kind phys s
  | .worisySignalDetect port => Sys2Proof.Machine.execWorisySignalDetect port s
  | .worisySignalLoss port => Sys2Proof.Machine.execWorisySignalLoss port s
  | .worisyFrameError port => Sys2Proof.Machine.execWorisyFrameError port s
  | .ping w => Sys2Proof.Machine.execPing w s
  | .info w => Sys2Proof.Machine.execInfo w s
  | .regRead w off cnt => Sys2Proof.Machine.execRegRead w off cnt s
  | .regWrite w off ws => Sys2Proof.Machine.execRegWrite w off ws s
  | .evtRead w off len => Sys2Proof.Machine.execEvtRead w off len s
  | .measRead w idx => Sys2Proof.Machine.execMeasRead w idx s
  | .leaseClaim w => Sys2Proof.Machine.execLeaseClaim w s
  | .leaseRenew w => Sys2Proof.Machine.execLeaseRenew w s
  | .leaseRelease w => Sys2Proof.Machine.execLeaseRelease w s
  | .leaseStatus w => Sys2Proof.Machine.execLeaseStatus w s
  | .leaseExpiry => Sys2Proof.Machine.execLeaseExpiry s
  | .leaseGuardEnd => Sys2Proof.Machine.execLeaseGuardEnd s
  | .setClip w watts => Sys2Proof.Machine.execSetClip w watts s
  | .setRackClip w watts => Sys2Proof.Machine.execSetRackClip w watts s
  | .setOpCeil w point time => Sys2Proof.Machine.execSetOpCeil w point time s
  | .flowReport w flow => Sys2Proof.Machine.execFlowReport w flow s
  | .operatorHold w => Sys2Proof.Machine.execOperatorHold w s
  | .operatorHoldRelease w => Sys2Proof.Machine.execOperatorHoldRelease w s
  | .reset w rung pmask slot rsv0 => Sys2Proof.Machine.execReset w rung pmask slot rsv0 s
  | .memberRenew w => Sys2Proof.Machine.execMemberRenew w s
  | .fenceCommand w => Sys2Proof.Machine.execFenceCommand w s
  | .readmit w epoch => Sys2Proof.Machine.execReadmit w epoch s
  | .worisyClrFails w => Sys2Proof.Machine.execWorisyClrFails w s
  | .activate w tA grp nMembers confirmS => Sys2Proof.Machine.execActivate w tA grp nMembers confirmS s
  | .updVoteSend => Sys2Proof.Machine.execUpdVoteSend s
  | .updVote fa gen ready => Sys2Proof.Machine.execUpdVote fa gen ready s
  | .voteCount => Sys2Proof.Machine.execVoteCount s
  | .firmwareActivation => Sys2Proof.Machine.execFirmwareActivation s
  | .confirm w => Sys2Proof.Machine.execConfirm w s
  | .rollback w => Sys2Proof.Machine.execRollback w s
  | .confirmDeadline => Sys2Proof.Machine.execConfirmDeadline s
  | .activatePlan w tA slot => Sys2Proof.Machine.execActivatePlan w tA slot s
  | .planActivation => Sys2Proof.Machine.execPlanActivation s
  | .evtClear w => Sys2Proof.Machine.execEvtClear w s
  | .ownerChallenge w => Sys2Proof.Machine.execOwnerChallenge w s
  | .ownerEnroll w slot modulus auth => Sys2Proof.Machine.execOwnerEnroll w slot modulus auth s
  | .ownerRevoke w slot auth => Sys2Proof.Machine.execOwnerRevoke w slot auth s
  | .setSecurity w ideReq => Sys2Proof.Machine.execSetSecurity w ideReq s
  | .updateCheck src => Sys2Proof.Machine.execUpdateCheck src s
  | .updateProgram src => Sys2Proof.Machine.execUpdateProgram src s
  | .programDone verify => Sys2Proof.Machine.execProgramDone verify s
  | .updateCancel src => Sys2Proof.Machine.execUpdateCancel src s
  | .stagingWrite src off v => Sys2Proof.Machine.execStagingWrite src off v s
  | .recorderPageWrite => Sys2Proof.Machine.execRecorderPageWrite s
  | .spdmRequest req => Sys2Proof.Machine.execSpdmRequest req s
  | .ideKeyProg stream key => Sys2Proof.Machine.execIdeKeyProg stream key s
  | .quicksetGo src => Sys2Proof.Machine.execQuicksetGo src s
  | .quicksetCancel src => Sys2Proof.Machine.execQuicksetCancel src s
  | .qsSend => Sys2Proof.Machine.execQsSend s
  | .qsAnnounceSend => Sys2Proof.Machine.execQsAnnounceSend s
  | .qsAnnounce gen a => Sys2Proof.Machine.execQsAnnounce gen a s
  | .qsBlock fa gen user data => Sys2Proof.Machine.execQsBlock fa gen user data s
  | .qsEnd fa gen session => Sys2Proof.Machine.execQsEnd fa gen session s
  | .qsRepairTimeout => Sys2Proof.Machine.execQsRepairTimeout s
  | .qsReq fa gen session blocks => Sys2Proof.Machine.execQsReq fa gen session blocks s
  | .qsData fa gen user data => Sys2Proof.Machine.execQsData fa gen user data s
  | .qsNak fa gen blocks => Sys2Proof.Machine.execQsNak fa gen blocks s
  | .qsRoundEnd => Sys2Proof.Machine.execQsRoundEnd s
  | .qsFetchEnd => Sys2Proof.Machine.execQsFetchEnd s
  | .qsVerify => Sys2Proof.Machine.execQsVerify s
  | .evtTokenRefill => Sys2Proof.Machine.execEvtTokenRefill s
  | .registerWrite src off len v => Sys2Proof.Machine.execRegisterWrite src off len v s
  | .mrstRelease => Sys2Proof.Machine.execMrstRelease s
  | .commandDone port seq => Sys2Proof.Machine.execCommandDone port seq s

end Sys2Proof.Machine
end

