-- ==== Sys2Proof/Machine/Idle.lean ====
section
/-!
DEFINITION. What a step does when no command waits.
-/

namespace Sys2Proof.Machine

/-- One microsecond passes and WRITE records that are 10 ms old are written out (R404; log entry 2). -/
def idleStep (s : State) : State :=
  runFrom s do
    eff (.pass 1000)
    flushOld

end Sys2Proof.Machine
end

