-- ==== Sys2Proof/Safety.lean ====
section
/-!
DEFINITION. The terms that claims are stated in: a command's completion, the parts of State, what a command may change, and the invariants of
the module.
-/

namespace Sys2Proof.Machine

/-- Command `i` completes in state `s` with a next state that meets `E`. -/
def Does (i : Instr) (s : State) (E : State → Prop) : Prop := ∃ t, exec i s = .next t ∧ E t

/-- Memory holds its canonical form: addresses strictly rise and no entry equals what an unlisted address reads as. -/
def Memory.wf (s : State) : Bool := tok (0 : Byte) s.bytes

/-- The byte at a module address. -/
def byteAt (s : State) (a : Nat) : Byte := tget 0 s.bytes a

/-- RSV bits of every register read 0 (R9). -/
def Regs.wf (s : State) : Prop := ∀ k ix, (regWord s k ix).toNat &&& regMask k = (regWord s k ix).toNat

/-- The clip levels stand at or below the fused continuous ceiling, the operating point now and the one under way to at or below the fused highest point (a larger number is a lower point) (R3, R267, R412). -/
def Ceilings.wf (s : State) : Prop :=
  s.rd R.PWR_CLIP_IN.MGMT_W ≤ Config.contCeiling s.nv.fuses.variant ∧ s.rd R.PWR_CLIP_IN.RACK_W ≤ Config.contCeiling s.nv.fuses.variant ∧
  s.rd R.PWR_CLIP.EFF_W ≤ Config.contCeiling s.nv.fuses.variant ∧ Config.topPoint s.nv.fuses.variant ≤ s.rd R.PWR_STAT.OP_NOW ∧
  Config.topPoint s.nv.fuses.variant ≤ s.rd R.PWR_STAT.OP_TARGET

/-- A register write by `src` at BAR0 offset `off` reaches its register: the module has power and is not in manufacturing test for a tray
controller, no IDE stream refuses a host request, the register is not for Worisy commands alone, and its partition answers. -/
abbrev Passes (s : State) (src : Src) (off : Nat) : Prop :=
  src ≠ .peer ∧ s.ctl.mode ≠ .off ∧ (src = .bar0 ∨ s.ctl.mode ≠ .mfgTest) ∧ (src = .bar0 → ideBlocks s = false) ∧
    (src = .worA ∨ src = .worB → commandOnly off = false) ∧ partHidden s off = false

/-- A register whose every field is written as it stands and that no rule gives a further effect. -/
def plainReg (k : RegKind) : Bool :=
  (regRow k).flds.all (fun f => decide (f.acc = .rw)) &&
    !([RegKind.HIF_RING_CFGn, .HIF_RING_SQB_LOn, .HIF_RING_SQB_HIn, .HIF_RING_CQB_LOn, .HIF_RING_CQB_HIn, .FZ_BANK_CTL, .RST_REQ,
      .RST_QS_SRC_CTL, .PART_ENG_RST, .EVT_CODE_CFG, .UPD_CTL, .HIF_CTL, .FZ_PORT_CTL, .FZ_TIME_CFG, .FZ_TIME_SET_HI, .PART_CORE_MBOXn,
      .HIF_MSIX, .RST_QS_STAT, .MEM_ERRLOG_STAT, .PART_CORE_IPENDm, .PART_CORE_IMASKm].contains k)

/-- The parts of State apart from the register file and the queue. -/
inductive Part where
  | mono | time | seen | free | fuses | nor | super | settings | latch | hs | ctl | bytes | mem | vlt | arrs | cores | strs | ques | host | fab | pw | watch | rcd | wor | upd | qs | sec | out
  deriving DecidableEq, Repr

/-- A part is the same in two states. -/
def Part.same (s t : State) : Part → Prop
  | .mono => t.clk.mono = s.clk.mono
  | .time => t.clk.time = s.clk.time
  | .seen => t.clk.seen = s.clk.seen
  | .free => t.clk.free = s.clk.free
  | .fuses => t.nv.fuses = s.nv.fuses
  | .nor => t.nv.nor = s.nv.nor
  | .super => t.nv.super = s.nv.super
  | .settings => t.nv.settings = s.nv.settings
  | .latch => t.nv.latch = s.nv.latch
  | .hs => t.hs = s.hs
  | .ctl => t.ctl = s.ctl
  | .bytes => t.bytes = s.bytes
  | .mem => t.mem = s.mem
  | .vlt => t.vlt = s.vlt
  | .arrs => t.arrs = s.arrs
  | .cores => t.cores = s.cores
  | .strs => t.strs = s.strs
  | .ques => t.ques = s.ques
  | .host => t.host = s.host
  | .fab => t.fab = s.fab
  | .pw => t.pw = s.pw
  | .watch => t.watch = s.watch
  | .rcd => t.rcd = s.rcd
  | .wor => t.worA = s.worA ∧ t.worB = s.worB
  | .upd => t.upd = s.upd
  | .qs => t.qs = s.qs
  | .sec => t.sec = s.sec
  | .out => t.out = s.out

/-- Nothing has changed but the parts and register kinds listed. -/
def Frame (l : List Part × List RegKind) (s t : State) : Prop :=
  t.pending = s.pending ∧ (∀ p, p ∉ l.1 → p.same s t) ∧ ∀ k ix, k ∉ l.2 → regWord t k ix = regWord s k ix

/-! Register kinds that change together: the recorder's status, FAULT_N and its message, the states of units and queues, memory errors. -/

def evKinds : List RegKind := [.EVT_STATUS, .EVT_FIRST_SEQ, .EVT_LAST_SEQ, .EVT_FULL_DROP, .EVT_STAGE_DROP]

def faultKinds : List RegKind := [.RST_FAULT, .RST_PIN_STAT, .HIF_PBA]

def unitKinds : List RegKind := [.PART_ARR_STAT, .PART_CORE_STAT, .PART_STR_STAT, .PART_CORE_IPENDm, .PART_CORE_ISTATm, .PART_Q_OCC, .PART_Q_CREDIT]

def errKinds : List RegKind := [.MEM_STAT, .MEM_ERRLOG, .MEM_ERRLOG_STAT, .MEM_CE_T0_c, .MEM_CE_T1_c, .MEM_CE_SR_p, .MEM_VLT_STAT, .PART_CORE_MISC]

/-! Vocabulary of the completion claims. -/

/-- Hidden state of array n, core g and streamer k of partition p. -/
def arrOf (s : State) (p n : Nat) : Arr := tget Arr.init s.arrs (24 * p + n)
def coreOf (s : State) (p g : Nat) : Core := tget Core.init s.cores (48 * p + g)
def strOf (s : State) (p k : Nat) : Str := tget Str.init s.strs (16 * p + k)

/-- An array streams no tile and its output stage is idle; other units have neither. -/
abbrev Quiet (s : State) (u : Nat) : Prop := uKind u = 0 → (arrOf s (uPart u) (uIdx u)).tiles = [] ∧ (arrOf s (uPart u) (uIdx u)).outBuf = []

/-- Array n of partition p, which streams no tile, may run the legal instruction `x` at its program counter (R71, R75). -/
abbrev ArrAt (s : State) (p n x : Nat) : Prop :=
  p < 8 ∧ n < 24 ∧ issuing s p = true ∧ inEngineReset s (uidOf p 0 n) = false ∧ (arrOf s p n).ctx.isSome = true ∧
    Quiet s (uidOf p 0 n) ∧ s.rd (R.PART_ARR_STAT.STATE p n) = US.RUN ∧ s.rd (R.PART_ARR_STAT.PAIR p n) ≠ 2 ∧
    errCws s (storeBase p n + 16 * s.rd (R.PART_ARR_STAT.PC p n)) 16 = [] ∧
    leNat (peek s (storeBase p n + 16 * s.rd (R.PART_ARR_STAT.PC p n)) 16) = x ∧ insLegal s p n (arrOf s p n) x = true

/-- The instruction has retired: the array runs at the next program counter. -/
abbrev Retired (s t : State) (p n : Nat) : Prop :=
  t.rd (R.PART_ARR_STAT.PC p n) = (s.rd (R.PART_ARR_STAT.PC p n) + 1) % 4096 ∧ t.rd (R.PART_ARR_STAT.STATE p n) = US.RUN

/-- Streamer k of partition p may run the legal descriptor `d` at DESC of its list, from its beginning (R82, R86, R454). -/
abbrev StrAt (s : State) (p k : Nat) (d : SDesc) : Prop :=
  p < 8 ∧ k < 16 ∧ s.ctl.mode ≠ .hold ∧ issuing s p = true ∧ inEngineReset s (uidOf p 2 k) = false ∧ (strOf s p k).ctx.isSome = true ∧
    (strOf s p k).run = StrRun.init ∧ s.rd (R.PART_STR_STAT.STATE p k) = US.RUN ∧ s.mem.errs = [] ∧ s.mem.badPages = [] ∧
    chanFailed s ((strOf s p k).list + 64 * s.rd (R.PART_STR_STAT.DESC p k)) 64 = false ∧
    SDesc.of (peek s ((strOf s p k).list + 64 * s.rd (R.PART_STR_STAT.DESC p k)) 64) = d ∧ descLegal s p (uidOf p 2 k) d = true

/-- The descriptor is done: the streamer runs at the next one. -/
abbrev DescDone (s t : State) (p k : Nat) : Prop :=
  t.rd (R.PART_STR_STAT.DESC p k) = (s.rd (R.PART_STR_STAT.DESC p k) + 1) % 65536 ∧ t.rd (R.PART_STR_STAT.STATE p k) = US.RUN ∧
    (strOf t p k).run = StrRun.init

/-- `len` bytes at `a` may be read or written as they stand: one mapped row outside the vault, no failed channel. -/
abbrev PlainSpan (s : State) (a len : Nat) : Prop := accessOk s a len = true ∧ isVault a = false ∧ chanFailed s a len = false

/-- Core g of partition p runs and its fetch reads clean local memory below the last word (R96, R104). -/
abbrev CoreAt (s : State) (p g : Nat) : Prop :=
  p < 8 ∧ g < 48 ∧ issuing s p = true ∧ inEngineReset s (uidOf p 1 g) = false ∧ (coreOf s p g).ctx.isSome = true ∧
    s.rd (R.PART_CORE_STAT.STATE p g) = US.RUN ∧ s.rd (R.PART_CORE_STAT.PC p g) < 65535 ∧
    errCws s (locBase p g + 4 * s.rd (R.PART_CORE_STAT.PC p g)) 4 = []

/-- The instruction has committed: the core runs at the next word. -/
abbrev Committed (s t : State) (p g : Nat) : Prop :=
  t.rd (R.PART_CORE_STAT.PC p g) = s.rd (R.PART_CORE_STAT.PC p g) + 1 ∧ t.rd (R.PART_CORE_STAT.STATE p g) = US.RUN

/-- Register `d` of a core reads `v`, or 0 where it is x0. -/
abbrev XReads (c : Core) (d : Nat) (v : BitVec 64) : Prop := c.getX d = if d = 0 then 0 else v

/-- A timed rule has fired: the clock stands at least one period after the rule's last instant, and notes the new one (log entry 3). -/
abbrev Fired (s t : State) (key period : Nat) : Prop :=
  t.clk.mono = max s.clk.mono (tget 0 s.clk.seen key + period) ∧ tget 0 t.clk.seen key = t.clk.mono

/-- The operation's status is locked as given and nothing holds its entry back (R185, R186). -/
abbrev Ended (t : State) (opid status detail : Nat) : Prop :=
  (opOf t opid).map (fun y => (y.st, y.status, y.detail, y.ready)) = some (.locked, status, detail, true)

/-- The command sends `x` across the boundary. -/
abbrev Sent (s t : State) (x : Out) : Prop := x ∈ t.out.drop s.out.length

/-- The module hears a Worisy request that repeats none it has answered (R328, R399). -/
abbrev Heard (s : State) (w : WReq) : Prop := w.port < 2 ∧ s.ctl.mode ≠ .off ∧ s.ctl.mode ≠ .mfgTest ∧ keptAnswer s w = none

/-- A request of a command without lease is in order (R398, R401). -/
abbrev FreeReq (s : State) (w : WReq) (cmd : Nat) : Prop :=
  Heard s w ∧ w.rsv = false ∧ w.lgen = 0 ∧ w.badLen = false ∧ worBusy s cmd = false

/-- A request of an actuating command comes from the lease's holder and is in order (R402). -/
abbrev ByHolder (s : State) (w : WReq) (cmd : Nat) : Prop := Heard s w ∧ actRefusal s w cmd = none

/-- The request is answered so, and the response is kept (R399). -/
abbrev Answered (s t : State) (w : WReq) (cmd status : Nat) (payload : List Byte) : Prop :=
  Sent s t (.worisy w.port w.seq cmd status 0 payload) ∧ keptAnswer t w = some (status, payload)

/-- A notice of a code has gone out on both Worisy ports (R400). -/
abbrev Noticed (s t : State) (code : Nat) (pay : List Byte) : Prop := ∀ q < 2, ((t.out.drop s.out.length).any fun x => match x with
  | .notice p _ c b => p == q && c == code && b == pay
  | _ => false) = true

/-- The recorder has a token for the code and room in its open page (R428, R429). -/
abbrev EvReady (s : State) (code : Nat) : Prop :=
  s.rd R.EVT_STATUS.FULL = 0 ∧ 0 < tokensOf s code ∧ (codeCfg s code).2 ≠ 0 ∧
    (s.rcd.stage.getLast?.any fun p => !p.closed && decide (p.bytes.length ≤ 3816)) = true

/-- One record of the code, with SRCKIND `srck`, SRC 0 and the given items, has joined the open page at the time now (R425, R426). -/
abbrev Logged (s t : State) (code srck : Nat) (items : List Nat) : Prop :=
  t.rcd.stage.getLast?.map (·.bytes) = s.rcd.stage.getLast?.map fun p =>
    p.bytes ++ recordBytes s.rcd.seq code srck (opsec t) t.nv.super.pcc 0 (t.clk.mono % 1000000000) items

/-- Every register but those listed reads as before. -/
abbrev OtherRegs (s t : State) (l : List (RegKind × List Nat)) : Prop :=
  ∀ k ix, dimOk (regRow k).dims ix = true → (k, ix) ∉ l → regWord t k ix = regWord s k ix

/-- Every byte of memory outside `len` bytes at `a` reads as before. -/
abbrev OtherBytes (s t : State) (a len : Nat) : Prop := ∀ c, c < a ∨ a + len ≤ c → byteAt t c = byteAt s c

/-- Memory, the other engines' kinds, queues, clocks, the non-volatile part, the host side and the outbox are as before. -/
abbrev RestSame (s t : State) : Prop :=
  t.bytes = s.bytes ∧ t.mem = s.mem ∧ t.strs = s.strs ∧ t.ques = s.ques ∧ t.clk = s.clk ∧ t.nv = s.nv ∧ t.ctl = s.ctl ∧ t.vlt = s.vlt ∧
    t.host = s.host ∧ t.fab = s.fab ∧ t.rcd = s.rcd ∧ t.out = s.out ∧ t.pending = s.pending

/-- Nothing has changed but the hidden state and PART_ARR_STAT of array n of partition p, and the power side's notes of rotation. -/
abbrev OnlyArray (s t : State) (p n : Nat) : Prop :=
  RestSame s t ∧ t.cores = s.cores ∧ (∀ k, k ≠ 24 * p + n → tget Arr.init t.arrs k = tget Arr.init s.arrs k) ∧
    OtherRegs s t [(.PART_ARR_STAT, [p, n])]

/-- Nothing has changed but the registers and PART_CORE_STAT of core g of partition p. -/
abbrev OnlyCore (s t : State) (p g : Nat) : Prop :=
  RestSame s t ∧ t.pw = s.pw ∧ t.arrs = s.arrs ∧ (∀ k, k ≠ 48 * p + g → tget Core.init t.cores k = tget Core.init s.cores k) ∧
    OtherRegs s t [(.PART_CORE_STAT, [p, g])]

/-- Sum of lanes in the order given, from a zero lane (R38). -/
def laneSum (l : List (BitVec 128)) : BitVec 128 := l.foldl laneAdd 0

/-- `n` bits of a byte string from bit `lo`, bit 0 of the string being bit 0 of its first byte. -/
def stringBits (bs : List Byte) (lo : Nat) : Nat → Nat
  | 0 => 0
  | n + 1 => stringBits bs lo n + (bs.getD ((lo + n) / 8) 0).toNat / 2 ^ ((lo + n) % 8) % 2 * 2 ^ n

/-- The request and the command code of an actuating command (Table 11-3). -/
def leaseOf : Instr → Option (WReq × Nat)
  | .leaseRenew w => some (w, WC.LEASE_RENEW)
  | .leaseRelease w => some (w, WC.LEASE_RELEASE)
  | .setClip w _ => some (w, WC.SET_CLIP)
  | .setRackClip w _ => some (w, WC.SET_RACK_CLIP)
  | .setOpCeil w _ _ => some (w, WC.SET_OP_CEIL)
  | .flowReport w _ => some (w, WC.FLOW_REPORT)
  | .operatorHold w => some (w, WC.HOLD)
  | .operatorHoldRelease w => some (w, WC.HOLD)
  | .reset w _ _ _ _ => some (w, WC.RESET)
  | .memberRenew w => some (w, WC.MEMBER_RENEW)
  | .fenceCommand w => some (w, WC.FENCE)
  | .readmit w _ => some (w, WC.READMIT)
  | .worisyClrFails w => some (w, WC.CLR_FAILS)
  | .activate w _ _ _ _ => some (w, WC.ACTIVATE)
  | .confirm w => some (w, WC.CONFIRM)
  | .rollback w => some (w, WC.ROLLBACK)
  | .activatePlan w _ _ => some (w, WC.ACTIVATE_PLAN)
  | .evtClear w => some (w, WC.EVT_CLEAR)
  | .ownerEnroll w _ _ _ => some (w, WC.OWNER_ENROLL)
  | .ownerRevoke w _ _ => some (w, WC.OWNER_REVOKE)
  | .setSecurity w _ => some (w, WC.SET_SECURITY)
  | _ => none

end Sys2Proof.Machine

namespace Sys2Proof

open Machine

/-- The families of commands, by the file that holds their meanings. -/
inductive Family where
  | supply | rungs | start | access | arrays | queues | streamers | monitor | cores | tiers | rings | descriptors | gate | ports | router |
    streams | banks | collect | clock | points | clips | heat | guards | links | worisy | security | update | quickset
  deriving DecidableEq, Repr

/-- Family of a command. -/
def Instr.family : Instr → Family
  | .powerOnReset | .mate | .unmate | .hotSwapOn _ | .inputGood _ | .undervoltageOff | .overvoltageOff _ | .overcurrentOff _ | .inrushFault
    | .epo | .epoRelease | .latchClear | .vinHigh _ | .brownout _ | .inputRecover _ | .brownoutEnd => .supply
  | .mrst _ | .hostInterfaceReset _ | .blockIdle _ | .idleTExpiry _ | .partitionResetDone _ _ | .serviceCoreWatchdog _ | .lockstepMismatch
    _ | .mrstRelease => .rungs
  | .startUp _ | .refclkQualify _ _ | .weightLoad _ | .readyEntry _ | .startTimeout | .startRetry | .hostFwTimeout => .start
  | .hostFwGo _ | .moduleReset _ _ | .partitionReset _ _ _ | .contextReset _ _ | .clrFails _ | .engineReset _ _ _ | .mboxWrite _ _ _ _ _ |
    .ringEnable _ _ | .ringDisable _ _ | .serveStart _ | .serveStop _ | .gateStop _ _ | .portEnable _ _ | .portDisable _ _ | .forceHold _ _
    _ | .berNow _ _ | .directoryWrite _ _ _ | .bankCopy _ | .sealBank _ | .arm _ | .cancel _ | .timeRootSet _ | .timeSet _ _ | .updateCheck
    _ | .updateProgram _ | .updateCancel _ | .stagingWrite _ _ _ | .quicksetGo _ | .quicksetCancel _ | .registerWrite _ _ _ _ => .access
  | .arrayNop _ _ | .tile _ _ _ | .residueSweep _ _ _ _ | .bankComplete _ _ _ | .emit _ _ _ | .ldcb _ _ _ | .setseed _ _ | .setb _ _ |
    .addb _ _ | .setlc _ _ | .loop _ _ | .waitq _ _ | .postq _ _ | .brq _ _ _ | .jump _ _ | .arrayRotpt _ _ | .arrayEnd _ _ |
    .rotationComplete _ _ _ => .arrays
  | .slotPublish _ _ | .slotRelease _ _ | .creditBatchReturn _ _ | .niSlotSend _ _ _ => .queues
  | .streamerNop _ _ | .streamerCopy _ _ _ | .gather _ _ _ | .scatter _ _ _ | .pgather _ _ _ | .pscatter _ _ _ | .sync _ _ | .streamerEnd _
    _ | .slopeGrant _ => .streamers
  | .brambleSample | .brambleAction _ _ => .monitor
  | .ewcInstruction _ _ _ _ | .csrr _ _ _ _ _ | .csrw _ _ _ _ _ | .ei _ _ _ | .di _ _ _ | .iret _ _ _ | .wfi _ _ _ | .qwait _ _ _ _ _ |
    .qrel _ _ _ _ | .qacq _ _ _ _ _ | .qpub _ _ _ _ | .qpoll _ _ _ _ _ | .qtry _ _ _ _ _ | .corePostq _ _ _ _ _ | .mboxw _ _ _ _ _ _ |
    .mboxr _ _ _ _ _ | .coreRotpt _ _ _ | .coreEnd _ _ _ | .interruptEntry _ _ _ | .timerFire _ _ _ => .cores
  | .impedanceCalibration _ | .driftCheck _ _ | .retune _ _ | .scrubVisit _ _ | .scrubLate _ | .memRestored _ | .patrolRead _ _ |
    .journalCommit | .wearRefill | .bar4Read _ _ _ _ | .bar4Write _ _ _ => .tiers
  | .sqTail _ _ | .cqHead _ _ | .descriptorFetch _ | .completionWrite _ _ | .msixCoalesceTimer _ => .rings
  | .nop _ | .runPhase _ | .copy _ _ _ | .loadImage _ _ | .imageVerify _ | .bindContext _ | .bindComplete _ _ | .unbindContext _ | .fence _
    | .abort _ | .abortContext _ | .queryEnergy _ | .setOpPref _ => .descriptors
  | .gateTick | .fabricAdmitDeadline _ | .phaseEnd _ => .gate
  | .linkTrained _ | .ident _ _ _ | .identTimeout _ | .identRepeat _ | .testReq _ | .testAck _ | .testResult _ _ | .berTestDone _ _ |
    .berInterval _ | .keepaliveSend _ | .portDown _ _ | .fecErrorLimit _ _ | .flitTimeout _ | .retrain _ | .portState _ _ _ _ _ => .ports
  | .packetInject _ _ | .packetReceive _ _ _ | .qslot | .credit => .router
  | .streamOpen | .streamOpenRetry _ _ | .streamGrant | .streamBusy | .streamAck | .streamAckTimer _ _ | .streamClose | .streamIdleClose _
    _ | .streamContextExpiry _ _ | .fazarOpTimeout _ _ => .streams
  | .dirUpdate _ _ _ | .laying | .epochHoldEnd | .membershipLapse => .banks
  | .mcast _ | .broadcast _ _ | .reduceUp _ _ | .reduceDown _ | .redContextExpiry _ _ _ => .collect
  | .timeFrameSend | .timeFrame _ _ | .rootLoss | .rootPromotion | .rootStartWait | .timeLoRead => .clock
  | .opMove | .vcoreSettled | .blendStep | .forcedVcoreFall | .forcedRelease | .droopDetect _ | .droopRelease _ | .droopLong _ |
    .blendResume | .vrAlert _ | .vrAlertRelease => .points
  | .powerSample _ _ | .clipLagStep | .clipLagLong | .estimatorTick _ | .gainRefit | .opCeilApply => .clips
  | .hotspotSample _ | .sensorCompare | .rotationRequest _ | .throttleStep _ _ _ | .throttleRestore _ _ | .hotRelease | .rateRelease |
    .thermalUpdate _ _ | .flowMismatch | .cycleSample | .lifeSave => .heat
  | .guardTrip _ _ | .guardSingle _ _ | .guardSuspect _ _ | .guardSingleRelease _ _ | .escalate _ _ | .sweepFail _ _ _ => .guards
  | .worisySignalDetect _ | .worisySignalLoss _ | .worisyFrameError _ | .leaseExpiry | .leaseGuardEnd | .commandDone _ _ => .links
  | .ping _ | .info _ | .regRead _ _ _ | .regWrite _ _ _ | .evtRead _ _ _ | .leaseClaim _ | .leaseRenew _ | .leaseRelease _ | .leaseStatus
    _ | .setClip _ _ | .setRackClip _ _ | .setOpCeil _ _ _ | .flowReport _ _ | .operatorHold _ | .operatorHoldRelease _ | .reset _ _ _ _ _
    | .memberRenew _ | .fenceCommand _ | .readmit _ _ | .worisyClrFails _ => .worisy
  | .measRead _ _ | .evtClear _ | .ownerChallenge _ | .ownerEnroll _ _ _ _ | .ownerRevoke _ _ _ | .setSecurity _ _ | .recorderPageWrite |
    .spdmRequest _ | .ideKeyProg _ _ | .evtTokenRefill => .security
  | .activate _ _ _ _ _ | .updVoteSend | .updVote _ _ _ | .voteCount | .firmwareActivation | .confirm _ | .rollback _ | .confirmDeadline |
    .activatePlan _ _ _ | .planActivation | .programDone _ => .update
  | .qsSend | .qsAnnounceSend | .qsAnnounce _ _ | .qsBlock _ _ _ _ | .qsEnd _ _ _ | .qsRepairTimeout | .qsReq _ _ _ _ | .qsData _ _ _ _ |
    .qsNak _ _ _ | .qsRoundEnd | .qsFetchEnd | .qsVerify => .quickset

/-- What a command may change: parts of State and kinds of registers. -/
def Instr.touches : Instr → List Machine.Part × List Machine.RegKind
  | .ideKeyProg _ _ =>
    ([.sec], [])
  | .mrstRelease =>
    ([.ctl], [])
  | .nop _ | .fence _ =>
    ([.host], [])
  | .patrolRead _ _ =>
    ([.mem], [])
  | .spdmRequest _ =>
    ([.out], [])
  | .streamGrant | .streamBusy | .streamAck =>
    ([.fab], [])
  | .commandDone _ _ =>
    ([.wor, .out], [])
  | .mate | .epoRelease | .inputRecover _ =>
    ([.seen, .hs], [])
  | .queryEnergy _ =>
    ([.host, .out], [])
  | .testAck _ | .timeLoRead =>
    ([.fab, .out], [])
  | .forcedVcoreFall =>
    ([.mono, .time, .pw], [])
  | .hotSwapOn _ | .latchClear =>
    ([.mono, .time, .hs], [])
  | .identRepeat _ | .keepaliveSend _ =>
    ([.mono, .time, .out], [])
  | .impedanceCalibration _ =>
    ([.mono, .time, .seen], [])
  | .inputGood _ =>
    ([.super, .hs, .ctl], [])
  | .streamOpenRetry _ _ | .streamAckTimer _ _ | .streamIdleClose _ _ =>
    ([.mono, .time, .fab], [])
  | .blendResume =>
    ([.mono, .time, .seen, .pw], [])
  | .driftCheck _ _ =>
    ([.mono, .time, .seen, .mem], [])
  | .evtTokenRefill =>
    ([.mono, .time, .seen, .rcd], [])
  | .updVoteSend =>
    ([.mono, .time, .upd, .out], [])
  | .wearRefill | .lifeSave =>
    ([.mono, .time, .seen, .vlt], [])
  | .estimatorTick _ =>
    ([.mono, .time, .seen, .host, .pw], [])
  | .timeFrameSend =>
    ([.mono, .time, .seen, .fab, .out], [])
  | .worisyFrameError _ =>
    ([], [.RST_WOR_STATp])
  | .worisySignalDetect _ | .worisySignalLoss _ =>
    ([], [.RST_PIN_STAT])
  | .portState _ _ _ _ _ =>
    ([.fab], [.FZ_DROPk])
  | .qsReq _ _ _ _ =>
    ([.out], [.FZ_DROPk])
  | .streamOpen | .streamClose =>
    ([.fab], [.FZ_STREAMp])
  | .unbindContext _ =>
    ([.host], [.HIF_CTX_STATc])
  | .updVote _ _ _ =>
    ([.upd], [.FZ_DROPk])
  | .droopRelease _ =>
    ([.seen, .pw], [.PWR_STAT])
  | .epochHoldEnd =>
    ([.mono, .time], [.FZ_BANK_STAT])
  | .leaseGuardEnd =>
    ([.mono, .time], [.RST_LEASE])
  | .ping _ | .info _ | .evtRead _ _ _ | .measRead _ _ | .leaseStatus _ =>
    ([.wor, .out], [.RST_WOR_STATp])
  | .forcedRelease =>
    ([.mono, .time, .pw], [.PWR_STAT])
  | .ownerChallenge _ =>
    ([.free, .wor, .out], [.RST_WOR_STATp])
  | .programDone _ =>
    ([.nor, .wor, .out], [.UPD_STAT])
  | .redContextExpiry _ _ _ =>
    ([.mono, .time, .fab], [.FZ_DROPk])
  | .regRead _ _ _ =>
    ([.fab, .wor, .out], [.RST_WOR_STATp])
  | .rootStartWait =>
    ([.mono, .time, .fab], [.FZ_TIME_STAT])
  | .streamContextExpiry _ _ =>
    ([.mono, .time, .fab], [.FZ_STREAMp])
  | .timeFrame _ _ =>
    ([.time, .seen, .fab], [.FZ_TIME_STAT])
  | .msixCoalesceTimer _ =>
    ([.mono, .time, .host, .out], [.HIF_PBA])
  | .opMove | .vcoreSettled | .clipLagStep | .hotRelease | .rateRelease =>
    ([.mono, .time, .seen, .pw], [.PWR_STAT])
  | .qsAnnounceSend =>
    ([.mono, .time, .seen, .out], [.FZ_DROPk])
  | .rootLoss =>
    ([.mono, .time, .seen, .fab], [.FZ_TIME_STAT])
  | .loadImage _ _ =>
    ([.super, .bytes, .mem, .vlt, .host], [.MEM_VLT_STAT])
  | .qsRepairTimeout | .qsRoundEnd =>
    ([.mono, .time, .seen, .qs, .out], [.RST_QS_STAT])
  | .throttleStep _ _ _ =>
    ([.mono, .time, .seen, .arrs, .pw], [.PWR_STAT])
  | .qsSend =>
    ([.mono, .time, .seen, .fab, .qs, .out], [.FZ_DROPk])
  | .descriptorFetch _ =>
    ([.host], [.HIF_RING_STATn, .HIF_RING_POSn])
  | .droopDetect _ =>
    ([.seen, .pw], [.PWR_STAT, .PWR_DROOPd])
  | .vrAlertRelease =>
    ([.seen, .pw], [.PWR_STAT, .RST_PIN_STAT])
  | .qsEnd _ _ _ | .qsNak _ _ _ =>
    ([.seen, .qs, .out], [.FZ_DROPk, .RST_QS_STAT])
  | .rotationRequest _ =>
    ([.arrs, .cores, .pw], [.PART_CORE_IPENDm, .PART_CORE_ISTATm])
  | .timerFire _ _ _ =>
    ([.mono, .time, .cores], [.PART_CORE_IPENDm, .PART_CORE_ISTATm])
  | .blendStep =>
    ([.mono, .time, .seen, .pw], [.PWR_STAT, .PWR_OP])
  | .guardSuspect _ _ =>
    ([.mono, .time, .seen, .pw], [.PWR_STAT, .GRD_STAT])
  | .powerSample _ _ =>
    ([.mono, .time, .seen, .hs, .host, .pw], [.PWR_STAT, .PWR_INPUT])
  | .journalCommit =>
    ([.mono, .time, .seen, .super, .vlt, .host, .qs], [.RST_QS_STAT, .RST_QS_MISS])
  | .readyEntry _ =>
    ([.seen, .nor, .settings, .ctl, .host, .wor, .out], [.RST_PIN_STAT, .HIF_BOOT_STATUS])
  | .recorderPageWrite =>
    ([.mono, .time, .super, .bytes, .mem, .vlt, .rcd, .wor, .out], [.MEM_VLT_STAT, .EVT_STATUS])
  | .guardSingleRelease _ _ =>
    ([.seen, .pw], [.PWR_STAT, .GRD_STAT, .GRD_CHc])
  | .qsAnnounce _ _ =>
    ([.seen, .super, .vlt, .qs], [.FZ_DROPk, .RST_QS_STAT, .RST_QS_MISS])
  | .throttleRestore _ _ =>
    ([.mono, .time, .seen, .arrs, .cores, .pw], [.PART_CORE_IPENDm, .PART_CORE_ISTATm, .PWR_STAT])
  | .brownout _ =>
    ([.seen, .super, .hs, .ctl, .vlt, .host, .pw, .qs], [.PWR_STAT, .RST_QS_STAT, .RST_QS_MISS])
  | .linkTrained _ | .testReq _ =>
    ([.seen, .ctl, .fab, .wor, .out], faultKinds ++ [.FZ_PORT_STAT, .HIF_BOOT_STATUS])
  | .clipLagLong =>
    ([.mono, .time, .seen, .rcd, .wor, .out], evKinds)
  | .droopLong _ | .flowMismatch =>
    ([.mono, .time, .pw, .rcd, .wor, .out], evKinds)
  | .hotspotSample _ =>
    ([.mono, .time, .seen, .arrs, .cores, .pw], [.PART_CORE_IPENDm, .PART_CORE_ISTATm, .PWR_STAT, .PWR_HSd_h, .GRD_CHc])
  | .qsBlock _ _ _ _ =>
    ([.seen, .ctl, .bytes, .mem, .vlt, .qs], [.MEM_VLT_STAT, .FZ_DROPk, .HIF_BOOT_STATUS, .RST_QS_STAT, .RST_QS_MISS])
  | .voteCount =>
    ([.mono, .time, .rcd, .wor, .upd, .out], evKinds)
  | .berInterval _ =>
    ([.mono, .time, .seen, .ctl, .fab, .wor, .out], faultKinds ++ [.FZ_PORT_STAT, .HIF_BOOT_STATUS])
  | .qsData _ _ _ _ =>
    ([.seen, .ctl, .bytes, .mem, .vlt, .qs, .out], [.MEM_VLT_STAT, .FZ_DROPk, .HIF_BOOT_STATUS, .RST_QS_STAT, .RST_QS_MISS])
  | .sweepFail _ _ _ =>
    ([.mono, .time, .seen, .pw, .rcd, .wor, .out], evKinds)
  | .vinHigh _ =>
    ([.rcd, .wor, .out], evKinds ++ [.PWR_STAT])
  | .directoryWrite _ _ _ =>
    ([.fab, .rcd, .wor, .out], evKinds ++ [.FZ_BANK_STAT])
  | .leaseRenew _ =>
    ([.seen, .rcd, .wor, .out], evKinds ++ [.RST_WOR_STATp])
  | .packetInject _ _ =>
    ([.fab, .rcd, .wor, .out], evKinds ++ [.FZ_DROPk])
  | .serveStart _ | .serveStop _ | .gateStop _ _ =>
    ([.ctl, .rcd, .wor, .out], evKinds ++ [.HIF_CTL])
  | .setOpPref _ =>
    ([.host, .rcd, .wor, .out], evKinds ++ [.HIF_CTX_STATc])
  | .sqTail _ _ | .cqHead _ _ =>
    ([.host, .rcd, .wor, .out], evKinds ++ [.HIF_RING_STATn])
  | .timeSet _ _ =>
    ([.time, .rcd, .wor, .out], evKinds ++ [.FZ_TIME_SET_HI])
  | .updateCheck _ | .updateProgram _ | .updateCancel _ =>
    ([.nor, .rcd, .wor, .out], evKinds ++ [.UPD_STAT])
  | .stagingWrite _ _ _ =>
    ([.nor, .rcd, .wor, .upd, .out], evKinds ++ [.UPD_STAT])
  | .leaseExpiry =>
    ([.mono, .time, .seen, .rcd, .wor, .out], evKinds ++ [.RST_LEASE])
  | .opCeilApply =>
    ([.mono, .time, .pw, .rcd, .wor, .out], evKinds ++ [.PWR_OP])
  | .quicksetGo _ | .quicksetCancel _ =>
    ([.seen, .free, .rcd, .wor, .qs, .out], evKinds ++ [.RST_QS_SRC_CTL])
  | .rootPromotion =>
    ([.mono, .time, .fab, .rcd, .wor, .out], evKinds ++ [.FZ_TIME_STAT])
  | .scrubLate _ =>
    ([.mono, .time, .mem, .rcd, .wor, .out], evKinds ++ [.MEM_SCRUB_STATt])
  | .gainRefit =>
    ([.mono, .time, .seen, .pw, .rcd, .wor, .out], evKinds ++ [.PWR_EST])
  | .retrain _ =>
    ([.mono, .time, .seen, .ctl, .fab, .wor, .out], faultKinds ++ [.FZ_PORT_STAT, .FZ_PORT_FAR, .HIF_BOOT_STATUS])
  | .startTimeout | .hostFwTimeout =>
    ([.mono, .time, .seen, .nor, .hs, .ctl, .rcd, .wor, .out], evKinds ++ [.HIF_BOOT_STATUS])
  | .planActivation =>
    ([.mono, .time, .seen, .super, .mem, .vlt, .host, .rcd, .wor, .upd, .qs, .out], evKinds ++ [.MEM_VLT_STAT])
  | .activate _ _ _ _ _ =>
    ([.rcd, .wor, .upd, .out], evKinds ++ [.RST_WOR_STATp, .UPD_STAT])
  | .bankCopy _ | .sealBank _ | .arm _ | .cancel _ =>
    ([.fab, .rcd, .wor, .out], evKinds ++ [.FZ_BANK_STAT, .FZ_BANK_CSUM])
  | .leaseClaim _ | .leaseRelease _ =>
    ([.seen, .rcd, .wor, .out], evKinds ++ [.RST_LEASE, .RST_WOR_STATp])
  | .ownerRevoke _ _ _ =>
    ([.fuses, .rcd, .wor, .out], evKinds ++ [.RST_WOR_STATp, .RST_SEC])
  | .packetReceive _ _ _ | .broadcast _ _ =>
    ([.fab, .rcd, .wor, .out], evKinds ++ [.FZ_PORT_CNTk, .FZ_DROPk])
  | .setOpCeil _ _ _ =>
    ([.pw, .rcd, .wor, .out], evKinds ++ [.PWR_OP, .RST_WOR_STATp])
  | .setSecurity _ _ =>
    ([.settings, .rcd, .wor, .out], evKinds ++ [.RST_WOR_STATp, .RST_SEC])
  | .vrAlert _ =>
    ([.pw, .rcd, .wor, .out], evKinds ++ [.PWR_STAT, .RST_PIN_STAT])
  | .worisyClrFails _ =>
    ([.nor, .rcd, .wor, .out], evKinds ++ [.HIF_BOOT_STATUS, .RST_WOR_STATp])
  | .ownerEnroll _ _ _ _ =>
    ([.fuses, .super, .rcd, .wor, .out], evKinds ++ [.RST_WOR_STATp, .RST_SEC])
  | .timeRootSet _ =>
    ([.settings, .fab, .rcd, .wor, .out], evKinds ++ [.FZ_TIME_CFG, .FZ_TIME_STAT])
  | .evtClear _ =>
    ([.super, .bytes, .mem, .rcd, .wor, .out], evKinds ++ [.RST_WOR_STATp, .EVT_CLEARS])
  | .fazarOpTimeout _ _ =>
    ([.mono, .time, .arrs, .host, .fab, .pw], unitKinds)
  | .operatorHold _ =>
    ([.seen, .ctl, .pw, .rcd, .wor, .out], evKinds ++ [.PWR_STAT, .RST_WOR_STATp])
  | .brambleSample =>
    ([.mono, .time, .seen, .watch, .rcd, .wor, .out], evKinds ++ [.PART_BRM_STAT, .PART_BRM_RPT])
  | .operatorHoldRelease _ =>
    ([.seen, .ctl, .host, .pw, .rcd, .wor, .out], evKinds ++ [.PWR_STAT, .RST_WOR_STATp])
  | .confirmDeadline =>
    ([.mono, .time, .nor, .settings, .ctl, .rcd, .wor, .sec, .out], evKinds ++ [.UPD_STAT, .UPD_VER_RUN])
  | .refclkQualify _ _ =>
    ([.mono, .time, .seen, .nor, .hs, .ctl, .rcd, .wor, .out], evKinds ++ [.RST_REFCLK, .HIF_BOOT_STATUS])
  | .activatePlan _ _ _ =>
    ([.seen, .super, .mem, .vlt, .host, .rcd, .wor, .upd, .qs, .out], evKinds ++ [.MEM_VLT_STAT, .RST_WOR_STATp])
  | .abort _ | .abortContext _ =>
    ([.vlt, .arrs, .host, .pw], unitKinds ++ [.HIF_CTX_STATc])
  | .completionWrite _ _ =>
    ([.seen, .free, .host, .rcd, .wor, .out], evKinds ++ [.HIF_RING_STATn, .HIF_RING_POSn, .HIF_PBA])
  | .confirm _ =>
    ([.fuses, .nor, .settings, .rcd, .wor, .out], evKinds ++ [.RST_WOR_STATp, .RST_SEC, .UPD_STAT])
  | .rollback _ =>
    ([.nor, .settings, .ctl, .rcd, .wor, .sec, .out], evKinds ++ [.RST_WOR_STATp, .UPD_STAT, .UPD_VER_RUN])
  | .brownoutEnd =>
    ([.mono, .time, .seen, .hs, .ctl, .bytes, .mem, .vlt, .host, .pw, .rcd, .wor, .qs, .out], evKinds ++ [.MEM_VLT_STAT, .PWR_STAT,
      .RST_QS_STAT])
  | .mboxWrite _ _ _ _ _ =>
    ([.rcd, .wor, .out], evKinds ++ [.PART_CORE_IPENDm, .PART_CORE_ISTATm, .PART_CORE_MBOXn, .PART_CORE_MISC])
  | .membershipLapse =>
    ([.mono, .time, .rcd, .wor, .out], evKinds ++ faultKinds ++ [.FZ_MEMBER])
  | .setClip _ _ | .setRackClip _ _ =>
    ([.seen, .host, .pw, .rcd, .wor, .out], evKinds ++ [.PWR_STAT, .PWR_CLIP, .PWR_CLIP_IN, .RST_WOR_STATp])
  | .cycleSample =>
    ([.mono, .time, .seen, .pw, .rcd, .wor, .out], evKinds ++ [.PWR_LIFE_N20, .PWR_LIFE_N40, .PWR_LIFE_N60, .PWR_LIFE_DAMAGE])
  | .imageVerify _ =>
    ([.super, .mem, .vlt, .host, .rcd, .wor, .out], evKinds ++ [.MEM_STAT, .MEM_ERRLOG_STAT, .MEM_VLT_STAT, .MEM_ERRLOG])
  | .memberRenew _ =>
    ([.fab, .rcd, .wor, .out], evKinds ++ faultKinds ++ [.FZ_MEMBER, .RST_WOR_STATp])
  | .bindContext _ =>
    ([.mem, .host, .pw, .rcd, .wor, .out], evKinds ++ [.MEM_STAT, .MEM_ERRLOG_STAT, .MEM_VLT_STAT, .HIF_CTX_STATc, .MEM_ERRLOG])
  | .flowReport _ _ =>
    ([.seen, .host, .pw, .rcd, .wor, .out], evKinds ++ [.PWR_STAT, .PWR_CLIP, .PWR_CLIP_DER, .PWR_COOL, .RST_WOR_STATp])
  | .testResult _ _ =>
    ([.seen, .ctl, .fab, .rcd, .wor, .out], evKinds ++ faultKinds ++ [.FZ_PORT_STAT, .HIF_BOOT_STATUS])
  | .sensorCompare =>
    ([.mono, .time, .seen, .pw, .rcd, .wor, .out], evKinds ++ faultKinds ++ [.PWR_STAT, .PWR_HSd_h])
  | .identTimeout _ =>
    ([.mono, .time, .seen, .ctl, .fab, .rcd, .wor, .out], evKinds ++ faultKinds ++ [.FZ_PORT_STAT, .HIF_BOOT_STATUS])
  | .qsFetchEnd =>
    ([.mono, .time, .seen, .nor, .ctl, .rcd, .wor, .out], evKinds ++ faultKinds ++ [.HIF_BOOT_STATUS, .RST_QS_STAT])
  | .thermalUpdate _ _ =>
    ([.mono, .time, .seen, .host, .pw, .rcd, .wor, .out], evKinds ++ [.PWR_STAT, .PWR_CLIP, .PWR_CLIP_DER, .PWR_COOL, .PWR_RTH])
  | .ident _ _ _ | .portDown _ _ | .flitTimeout _ =>
    ([.seen, .ctl, .fab, .rcd, .wor, .out], evKinds ++ faultKinds ++ [.FZ_PORT_STAT, .FZ_PORT_FAR, .HIF_BOOT_STATUS])
  | .berTestDone _ _ =>
    ([.mono, .time, .seen, .ctl, .fab, .rcd, .wor, .out], evKinds ++ faultKinds ++ [.FZ_PORT_STAT, .FZ_PORT_BER, .HIF_BOOT_STATUS])
  | .phaseEnd _ =>
    ([.ctl, .arrs, .cores, .strs, .ques, .host, .pw, .rcd, .wor, .out], evKinds ++ [.PART_Q_CFG, .PART_Q_OCC, .PART_CORE_IPENDm,
      .PART_CORE_ISTATm, .HIF_CTX_STATc, .PWR_STAT])
  | .fecErrorLimit _ _ =>
    ([.seen, .ctl, .fab, .rcd, .wor, .out], evKinds ++ faultKinds ++ [.FZ_PORT_STAT, .FZ_PORT_FAR, .FZ_PORT_CNTk, .HIF_BOOT_STATUS])
  | .bankComplete _ _ _ =>
    ([.arrs, .host, .pw, .watch, .rcd, .wor, .out], evKinds ++ unitKinds)
  | .portEnable _ _ | .portDisable _ _ | .forceHold _ _ _ | .berNow _ _ =>
    ([.seen, .settings, .ctl, .fab, .rcd, .wor, .out], evKinds ++ faultKinds ++ [.FZ_PORT_CTL, .FZ_PORT_STAT, .FZ_PORT_FAR,
      .HIF_BOOT_STATUS])
  | .fenceCommand _ =>
    ([.seen, .nor, .ctl, .mem, .fab, .rcd, .wor, .out], evKinds ++ faultKinds ++ [.FZ_PORT_STAT, .FZ_MEMBER, .HIF_BOOT_STATUS,
      .RST_WOR_STATp])
  | .interruptEntry _ _ _ =>
    ([.arrs, .cores, .host, .pw, .watch, .rcd, .wor, .out], evKinds ++ unitKinds)
  | .dirUpdate _ _ _ =>
    ([.seen, .nor, .ctl, .mem, .fab, .rcd, .wor, .out], evKinds ++ faultKinds ++ [.FZ_PORT_STAT, .FZ_BANK_STAT, .FZ_MEMBER, .FZ_DROPk,
      .HIF_BOOT_STATUS])
  | .engineReset _ _ _ =>
    ([.seen, .ctl, .mem, .arrs, .host, .pw, .rcd, .wor, .out], evKinds ++ unitKinds ++ [.PART_ENG_RST_STAT])
  | .laying =>
    ([.mono, .time, .seen, .nor, .settings, .ctl, .mem, .fab, .rcd, .wor, .out], evKinds ++ faultKinds ++ [.FZ_PORT_STAT, .FZ_SELF,
      .FZ_BANK_STAT, .FZ_MEMBER, .HIF_BOOT_STATUS])
  | .bar4Write _ _ _ =>
    ([.bytes, .mem, .cores, .watch, .rcd, .wor, .out], evKinds ++ [.PART_CORE_IPENDm, .PART_CORE_ISTATm, .PART_CORE_MISC, .MEM_STAT,
      .MEM_CE_T0_c, .MEM_ERRLOG_STAT, .MEM_CE_T1_c, .MEM_CE_SR_p, .MEM_ERRLOG])
  | .residueSweep _ _ _ _ =>
    ([.arrs, .host, .pw, .watch, .rcd, .wor, .out], evKinds ++ unitKinds ++ [.PART_ARR_EXC, .PART_ARR_RESCNT])
  | .brambleAction _ _ =>
    ([.mono, .time, .arrs, .host, .pw, .watch, .rcd, .wor, .out], evKinds ++ unitKinds ++ [.RST_ESC_STAT, .RST_ESC_LAST])
  | .memRestored _ | .bar4Read _ _ _ _ =>
    ([.bytes, .mem, .cores, .watch, .rcd, .wor, .out], evKinds ++ errKinds ++ [.PART_CORE_IPENDm, .PART_CORE_ISTATm])
  | .scrubVisit _ _ =>
    ([.bytes, .mem, .cores, .watch, .rcd, .wor, .out], evKinds ++ [.PART_CORE_IPENDm, .PART_CORE_ISTATm, .PART_CORE_MISC, .MEM_STAT,
      .MEM_SCRUB_STATt, .MEM_CE_T0_c, .MEM_ERRLOG_STAT, .MEM_CE_T1_c, .MEM_CE_SR_p, .MEM_ERRLOG])
  | .copy _ _ _ =>
    ([.bytes, .mem, .cores, .host, .watch, .rcd, .wor, .out], evKinds ++ errKinds ++ [.PART_CORE_IPENDm, .PART_CORE_ISTATm])
  | .readmit _ _ =>
    ([.seen, .nor, .settings, .ctl, .fab, .rcd, .wor, .out], evKinds ++ faultKinds ++ [.FZ_PORT_STAT, .FZ_PORT_FAR, .FZ_SELF,
      .FZ_BANK_STAT, .HIF_BOOT_STATUS, .RST_ESC_STAT, .RST_WOR_STATp])
  | .rotationComplete _ _ _ =>
    ([.arrs, .cores, .host, .pw, .watch, .rcd, .wor, .out], evKinds ++ unitKinds ++ [.PWR_STAT, .PART_TOP_ARRn, .PART_TOP_COREg])
  | .bindComplete _ _ =>
    ([.bytes, .mem, .cores, .host, .watch, .rcd, .wor, .out], evKinds ++ errKinds ++ [.PART_CORE_IPENDm, .PART_CORE_ISTATm,
      .HIF_CTX_STATc])
  | .ringEnable _ _ | .ringDisable _ _ =>
    ([.free, .vlt, .arrs, .host, .pw, .rcd, .wor, .out], evKinds ++ unitKinds ++ [.HIF_RING_CFGn, .HIF_RING_STATn, .HIF_RING_POSn,
      .HIF_CTX_STATc])
  | .weightLoad _ =>
    ([.seen, .nor, .hs, .ctl, .bytes, .mem, .cores, .watch, .rcd, .wor, .out], evKinds ++ errKinds ++ [.PART_CORE_IPENDm,
      .PART_CORE_ISTATm, .HIF_BOOT_STATUS])
  | .csrr _ _ _ _ _ | .ei _ _ _ | .di _ _ _ | .iret _ _ _ | .wfi _ _ _ | .qwait _ _ _ _ _ | .qacq _ _ _ _ _ | .qpoll _ _ _ _ _ | .qtry _ _
    _ _ _ | .coreRotpt _ _ _ | .coreEnd _ _ _ =>
    ([.seen, .bytes, .mem, .arrs, .cores, .ques, .host, .pw, .watch, .rcd, .wor, .out], evKinds ++ unitKinds ++ errKinds)
  | .ewcInstruction _ _ _ _ =>
    ([.seen, .free, .bytes, .mem, .arrs, .cores, .ques, .host, .pw, .watch, .rcd, .wor, .out], evKinds ++ unitKinds ++ errKinds)
  | .csrw _ _ _ _ _ =>
    ([.seen, .bytes, .mem, .arrs, .cores, .ques, .host, .pw, .watch, .rcd, .wor, .out], evKinds ++ unitKinds ++ errKinds ++
      [.PART_CORE_IMASKm])
  | .mboxw _ _ _ _ _ _ | .mboxr _ _ _ _ _ =>
    ([.seen, .bytes, .mem, .arrs, .cores, .ques, .host, .pw, .watch, .rcd, .wor, .out], evKinds ++ unitKinds ++ errKinds ++
      [.PART_CORE_MBOXn])
  | .arrayNop _ _ | .tile _ _ _ | .emit _ _ _ | .ldcb _ _ _ | .setseed _ _ | .setb _ _ | .addb _ _ | .setlc _ _ | .loop _ _ | .waitq _ _ |
    .postq _ _ | .brq _ _ _ | .jump _ _ | .arrayRotpt _ _ | .arrayEnd _ _ | .slotPublish _ _ | .slotRelease _ _ | .qrel _ _ _ _ | .qpub _ _
    _ _ | .corePostq _ _ _ _ _ =>
    ([.seen, .bytes, .mem, .arrs, .cores, .ques, .host, .pw, .watch, .rcd, .wor, .out], evKinds ++ unitKinds ++ errKinds ++ [.PART_ARR_EXC,
      .PART_ARR_RESCNT])
  | .credit =>
    ([.bytes, .mem, .arrs, .cores, .ques, .host, .fab, .pw, .watch, .rcd, .wor, .out], evKinds ++ unitKinds ++ errKinds ++ [.PART_ARR_EXC,
      .PART_ARR_RESCNT])
  | .streamerEnd _ _ =>
    ([.seen, .bytes, .mem, .arrs, .cores, .strs, .ques, .host, .pw, .watch, .rcd, .wor, .out], evKinds ++ unitKinds ++ errKinds ++
      [.PART_ARR_EXC, .PART_ARR_RESCNT])
  | .creditBatchReturn _ _ =>
    ([.mono, .time, .bytes, .mem, .arrs, .cores, .ques, .host, .fab, .pw, .watch, .rcd, .wor, .out], evKinds ++ unitKinds ++ errKinds ++
      [.PART_ARR_EXC, .PART_ARR_RESCNT])
  | .niSlotSend _ _ _ =>
    ([.seen, .free, .bytes, .mem, .arrs, .cores, .ques, .host, .fab, .pw, .watch, .rcd, .wor, .out], evKinds ++ unitKinds ++ errKinds ++
      [.PART_ARR_EXC, .PART_ARR_RESCNT])
  | .slopeGrant _ =>
    ([.mono, .time, .seen, .bytes, .mem, .arrs, .cores, .ques, .host, .pw, .watch, .rcd, .wor, .out], evKinds ++ unitKinds ++ errKinds ++
      [.PART_ARR_EXC, .PART_ARR_RESCNT])
  | .streamerNop _ _ | .streamerCopy _ _ _ | .gather _ _ _ | .scatter _ _ _ | .pgather _ _ _ | .pscatter _ _ _ | .sync _ _ =>
    ([.seen, .bytes, .mem, .vlt, .arrs, .cores, .strs, .ques, .host, .pw, .watch, .rcd, .wor, .out], evKinds ++ unitKinds ++ errKinds ++
      [.PART_ARR_EXC, .PART_ARR_RESCNT])
  | .runPhase _ =>
    ([.bytes, .mem, .arrs, .cores, .strs, .ques, .host, .watch, .rcd, .wor, .out], evKinds ++ unitKinds ++ errKinds ++ [.PART_Q_CFG,
      .PART_Q_ENDS, .HIF_CTX_STATc])
  | .qslot | .mcast _ | .reduceDown _ =>
    ([.seen, .bytes, .mem, .arrs, .cores, .ques, .host, .fab, .pw, .watch, .rcd, .wor, .out], evKinds ++ unitKinds ++ errKinds ++
      [.PART_ARR_EXC, .PART_ARR_RESCNT, .FZ_DROPk])
  | .gateTick | .fabricAdmitDeadline _ =>
    ([.mono, .time, .seen, .bytes, .mem, .arrs, .cores, .ques, .host, .pw, .watch, .rcd, .wor, .out], evKinds ++ unitKinds ++ errKinds ++
      [.PART_ARR_EXC, .PART_ARR_RESCNT, .PWR_STAT])
  | .reduceUp _ _ =>
    ([.seen, .free, .bytes, .mem, .arrs, .cores, .ques, .host, .fab, .pw, .watch, .rcd, .wor, .out], evKinds ++ unitKinds ++ errKinds ++
      [.PART_ARR_EXC, .PART_ARR_RESCNT, .FZ_DROPk])
  | .partitionResetDone _ _ =>
    ([.nor, .settings, .ctl, .bytes, .mem, .cores, .watch, .rcd, .wor, .out], evKinds ++ faultKinds ++ errKinds ++ [.PART_CORE_IPENDm,
      .PART_CORE_ISTATm, .MEM_T1_RECAL_c, .RST_PART_AVAIL, .PART_TOP_STAT, .PART_TOP_ARRn, .PART_TOP_BAD_ARR, .RST_ESC_STAT,
      .PART_TOP_COREg, .PART_TOP_FUSE_ARR, .PART_TOP_BAD_CORE_LO, .PART_TOP_BAD_CORE_HI, .PART_TOP_BAD_STR])
  | .hostInterfaceReset _ =>
    ([.ctl, .vlt, .arrs, .host, .pw, .rcd, .wor, .sec, .out], regKinds)
  | .startUp _ =>
    ([.seen, .nor, .super, .settings, .latch, .hs, .ctl, .vlt, .host, .fab, .pw, .rcd, .wor, .sec, .out], regKinds)
  | .escalate _ _ =>
    ([.seen, .ctl, .bytes, .mem, .vlt, .arrs, .cores, .strs, .ques, .host, .fab, .pw, .watch, .rcd, .wor, .out], regKinds)
  | .retune _ _ =>
    ([.mono, .time, .seen, .ctl, .bytes, .mem, .vlt, .arrs, .cores, .strs, .ques, .host, .fab, .pw, .watch, .rcd, .wor, .out], regKinds)
  | .mrst _ | .hostFwGo _ | .moduleReset _ _ | .partitionReset _ _ _ | .contextReset _ _ | .clrFails _ | .serviceCoreWatchdog _ |
    .lockstepMismatch _ | .reset _ _ _ _ _ =>
    ([.time, .seen, .nor, .super, .ctl, .bytes, .mem, .vlt, .arrs, .cores, .strs, .ques, .host, .fab, .pw, .watch, .rcd, .wor, .upd, .qs,
      .sec, .out], regKinds)
  | .blockIdle _ | .qsVerify =>
    ([.time, .seen, .free, .nor, .super, .ctl, .bytes, .mem, .vlt, .arrs, .cores, .strs, .ques, .host, .fab, .pw, .watch, .rcd, .wor, .upd,
      .qs, .sec, .out], regKinds)
  | .startRetry =>
    ([.mono, .time, .seen, .nor, .super, .ctl, .bytes, .mem, .vlt, .arrs, .cores, .strs, .ques, .host, .fab, .pw, .watch, .rcd, .wor, .upd,
      .qs, .sec, .out], regKinds)
  | .firmwareActivation =>
    ([.mono, .time, .seen, .nor, .super, .settings, .ctl, .bytes, .mem, .vlt, .arrs, .cores, .strs, .ques, .host, .fab, .pw, .watch, .rcd,
      .wor, .upd, .qs, .sec, .out], regKinds)
  | .idleTExpiry _ =>
    ([.mono, .time, .seen, .free, .nor, .super, .ctl, .bytes, .mem, .vlt, .arrs, .cores, .strs, .ques, .host, .fab, .pw, .watch, .rcd,
      .wor, .upd, .qs, .sec, .out], regKinds)
  | .powerOnReset | .unmate | .undervoltageOff | .overvoltageOff _ | .overcurrentOff _ | .inrushFault | .epo | .guardTrip _ _ |
    .guardSingle _ _ =>
    ([.time, .seen, .free, .super, .latch, .hs, .ctl, .bytes, .mem, .vlt, .arrs, .cores, .strs, .ques, .host, .fab, .pw, .watch, .rcd,
      .wor, .upd, .qs, .sec, .out], regKinds)
  | .regWrite _ _ _ | .registerWrite _ _ _ _ =>
    ([.time, .seen, .free, .nor, .super, .settings, .ctl, .bytes, .mem, .vlt, .arrs, .cores, .strs, .ques, .host, .fab, .pw, .watch, .rcd,
      .wor, .upd, .qs, .sec, .out], regKinds)

end Sys2Proof
end

