-- ==== Sys2Proof/Certificates/Slice0/Obligations.lean ====
section
/-!
DEFINITION. The statements about the module, for the provers. The terms they use stand in Safety.lean; each clause about a command says under
which conditions it completes and with what effect.
-/

open Sys2Proof Sys2Proof.Machine

/-- A step runs the command at the front of the queue; an empty queue lets time pass. For every command and state, a step of the state with the command at the front of its queue is exec of the command on the state with the queue's rest. With no command waiting the block idles: one microsecond passes on the module clock and the queue stays empty (the model's choice, log entry 2). Rests on 95_what_each_step_holds.md. -/
def Obligations.StepRunsFrontCommand : Prop :=
  (∀ (c : Instr) (s : State), step { s with pending := c :: s.pending } = exec c s) ∧
  (∀ s : State, s.pending = [] → ∃ t, step s = .next t ∧ t.clk.mono = s.clk.mono + 1000 ∧ t.pending = [])

/-- The reset state holds the values the register index gives. At reset the module stands powered at the beginning of its start (the model's choice, log entry 7), with an empty command queue, no listed byte of memory and an empty outbox (the model's own queue and outbox), and these registers read their reset values: HIF_BOOT_STATUS.STAGE 2, PART_BRM_CTL.T 100 in every partition, FZ_TIME_STAT.TSTATE 0, PWR_STAT.OP_NOW 7, PWR_COOL.FLOW 255, PWR_CLIP_DER.FLOW_W 65535, RST_LEASE.HOLDER 0, UPD_STAT.STATE 0, EVT_STATUS.FULL 0. Rests on 12_register_index.md, 09_reset_and_bringup.md. -/
def Obligations.ResetValues : Prop :=
  State.reset.ctl.mode = .start ∧ State.reset.pending = [] ∧ State.reset.bytes = [] ∧ State.reset.out = [] ∧
  State.reset.rd R.HIF_BOOT_STATUS.STAGE = 2 ∧ (∀ p < 8, State.reset.rd (R.PART_BRM_CTL.T p) = 100) ∧
  State.reset.rd R.FZ_TIME_STAT.TSTATE = 0 ∧ State.reset.rd R.PWR_STAT.OP_NOW = 7 ∧ State.reset.rd R.PWR_COOL.FLOW = 255 ∧
  State.reset.rd R.PWR_CLIP_DER.FLOW_W = 65535 ∧ State.reset.rd R.RST_LEASE.HOLDER = 0 ∧ State.reset.rd R.UPD_STAT.STATE = 0 ∧
  State.reset.rd R.EVT_STATUS.FULL = 0

/-- Every register of the map is found at its own offset. For every register and every index within its dimensions, looking up the offset at which the register stands gives back that register with that index. So no two registers share an offset. Rests on 12_register_index.md. -/
def Obligations.RegisterMapRoundTrip : Prop :=
  ∀ (k : RegKind) (ix : List Nat), dimOk (regRow k).dims ix = true → regAt (regOff k ix) = some (k, ix)

/-- Well-formed commands complete; ill-formed ones are refused by name. Every command whose operands lie in the ranges its row allows completes in every state with a next state: none ends in a fault or a refusal. A command with an operand outside those ranges is refused as malformed. Rests on 95_what_each_step_holds.md. -/
def Obligations.WellFormedCommandsComplete : Prop :=
  (∀ (i : Instr) (s : State), Instr.wf i = true → ∃ t, exec i s = .next t) ∧
  (∀ (i : Instr) (s : State), Instr.wf i = false → exec i s = .refused .malformed)

/-- A command keeps the queue, only adds to the outbox, and never turns the module clock back. When a command completes, the command queue is as it was, what had been sent across the boundary is still there in front of what the command sends, and the module clock has not run backwards. (Queue and outbox are the model's own state, log entry 10.) Rests on 00_scope.md, 09_reset_and_bringup.md. -/
def Obligations.CommandsKeepQueueAndOutbox : Prop :=
  ∀ (i : Instr) (s t : State), exec i s = .next t → t.pending = s.pending ∧ s.out <+: t.out ∧ s.clk.mono ≤ t.clk.mono

/-- Every step keeps memory in its canonical form. If memory is in canonical form (addresses strictly rising, no entry that equals what an unlisted address reads as), it is so after every step, whatever command it runs. Rests on 04_memory_tiers.md. -/
def Obligations.StepKeepsMemoryCanonical : Prop :=
  ∀ s t : State, Memory.wf s = true → step s = .next t → Memory.wf t = true

/-- Every step keeps the RSV bits of every register 0. If the RSV bits of every register read 0, they read 0 after every step: no command, no write by host, tray controller or firmware, and no engine of the module sets one. Rests on 00_scope.md, 12_register_index.md. -/
def Obligations.StepKeepsReservedBitsZero : Prop :=
  ∀ s t : State, Regs.wf s → step s = .next t → Regs.wf t

/-- Every step keeps the clip levels and operating points within the fused ceilings. If the management clip, the rack clip and the effective clip stand at or below the fused continuous ceiling, and the operating point now and the one aimed at are no higher than the fused highest point, this still holds after every step. So no command and no register write takes the module past its fused limits. Rests on 00_scope.md, 07_power_and_heat.md. -/
def Obligations.StepKeepsFusedCeilings : Prop :=
  ∀ s t : State, Ceilings.wf s → step s = .next t → Ceilings.wf t

/-- Every step keeps the vault's wear budget within its size. If the vault's wear budget holds at most 305,000,000 units, it does so after every step: refilling stops at the size of the budget. Rests on 04_memory_tiers.md. -/
def Obligations.StepKeepsWearBudget : Prop :=
  ∀ s t : State, s.vlt.wear ≤ 305000000 → step s = .next t → t.vlt.wear ≤ 305000000

/-- No step takes back an owner key, a revocation or a security version. Fuses only burn. In every step a valid owner slot stays valid with the same digest, a revoked one stays revoked, and the fused security version does not fall; if it is at most 64 it stays at most 64. Rests on 11_management_and_firmware.md. -/
def Obligations.StepKeepsFusedKeysAndVersion : Prop :=
  ∀ s t : State, step s = .next t →
    (∀ k, (tget OwnerSlot.empty s.nv.fuses.owner k).valid = true →
      (tget OwnerSlot.empty t.nv.fuses.owner k).valid = true ∧
      (tget OwnerSlot.empty t.nv.fuses.owner k).digest = (tget OwnerSlot.empty s.nv.fuses.owner k).digest ∧
      ((tget OwnerSlot.empty s.nv.fuses.owner k).revoked = true → (tget OwnerSlot.empty t.nv.fuses.owner k).revoked = true)) ∧
    s.nv.fuses.svn ≤ t.nv.fuses.svn ∧ (s.nv.fuses.svn ≤ 64 → t.nv.fuses.svn ≤ 64)

/-- Every step keeps the lease with the port that claimed it last. If RST_LEASE names no holder, or as holder the port that LAST names, it does so after every step: only the last claimant can hold the lease. Rests on 11_management_and_firmware.md. -/
def Obligations.StepKeepsLeaseHolderLast : Prop :=
  ∀ s t : State, (s.rd R.RST_LEASE.HOLDER = 0 ∨ s.rd R.RST_LEASE.LAST + 1 = s.rd R.RST_LEASE.HOLDER) → step s = .next t →
    (t.rd R.RST_LEASE.HOLDER = 0 ∨ t.rd R.RST_LEASE.LAST + 1 = t.rd R.RST_LEASE.HOLDER)

/-- MINIMAL mode is left only by a module reset or by losing power. A step from MINIMAL ends in MINIMAL, in OFF, or in a module reset: with the module rung running, in reset, or starting again where the module rung was running or the rails were down. No register write, command or event leads from MINIMAL into service in one step, nor into FENCED (the latter the model's reading, log entry 52). Rests on 09_reset_and_bringup.md, 11_management_and_firmware.md. -/
def Obligations.MinimalModeLeftOnlyByReset : Prop :=
  ∀ s t : State, s.ctl.mode = .minimal → step s = .next t →
    t.ctl.mode = .minimal ∨ t.ctl.mode = .off ∨ moduleBusy t = true ∨ t.ctl.mode = .inReset ∨
      (t.ctl.mode = .start ∧ (moduleBusy s = true ∨ s.hs.rails = []))

/-- The invariants hold at reset. At reset memory is in canonical form, the RSV bits of every register read 0, the clip levels and operating points are within the fused ceilings, the wear budget is at most its size, the fused security version is at most 64, and nobody holds the lease. Rests on 00_scope.md, 04_memory_tiers.md, 07_power_and_heat.md, 11_management_and_firmware.md. -/
def Obligations.InvariantsHoldAtReset : Prop :=
  Memory.wf State.reset = true ∧ Regs.wf State.reset ∧ Ceilings.wf State.reset ∧ State.reset.vlt.wear ≤ 305000000 ∧
  State.reset.nv.fuses.svn ≤ 64 ∧ State.reset.rd R.RST_LEASE.HOLDER = 0

/-- What supply, reset, start, power and heat commands leave unchanged. For every command of these families, in every state: the input supply, the reset rungs, start-up, operating points, clips and the gate's estimator, temperatures, and guards and recovery. When it completes, the command queue, every part of State outside the parts that Instr.touches lists for it, and every register of a kind it does not list are as before. Instr.touches names for each command exactly the parts and register kinds it may write, among them the events it may record. Rests on 07_power_and_heat.md, 08_module_boundary.md, 09_reset_and_bringup.md, 10_faults_and_recovery.md. -/
def Obligations.FrameOfSupplyResetPowerHeat : Prop :=
  ∀ (i : Instr) (s t : State), i.family ∈ [Family.supply, Family.rungs, Family.start, Family.points, Family.clips, Family.heat, Family.guards] → exec i s = .next t → Frame i.touches s t

/-- What register writes, ring, descriptor, gate and memory commands leave unchanged. For every command of these families, in every state: register writes under their names, host rings, descriptors, the energy gate, and the memory tiers. When it completes, the command queue, every part of State outside the parts that Instr.touches lists for it, and every register of a kind it does not list are as before. Instr.touches names for each command exactly the parts and register kinds it may write, among them the events it may record. Rests on 04_memory_tiers.md, 05_plans_and_host_rings.md, 12_register_index.md. -/
def Obligations.FrameOfAccessHostAndMemory : Prop :=
  ∀ (i : Instr) (s t : State), i.family ∈ [Family.access, Family.rings, Family.descriptors, Family.gate, Family.tiers] → exec i s = .next t → Frame i.touches s t

/-- What array, core, streamer, queue and monitor commands leave unchanged. For every command of these families, in every state: array instructions, queue slots, streamer descriptors, the bramble monitor, and general cores. When it completes, the command queue, every part of State outside the parts that Instr.touches lists for it, and every register of a kind it does not list are as before. Instr.touches names for each command exactly the parts and register kinds it may write, among them the events it may record. Rests on 02_array_execution.md, 03_general_cores_and_interrupts.md. -/
def Obligations.FrameOfEngines : Prop :=
  ∀ (i : Instr) (s t : State), i.family ∈ [Family.arrays, Family.queues, Family.streamers, Family.monitor, Family.cores] → exec i s = .next t → Frame i.touches s t

/-- What fabric, management, security and update commands leave unchanged. For every command of these families, in every state: Fazar ports, packets, streams, configuration banks, collectives and the fabric clock, Worisy links and requests, security and records, firmware update and quickset. When it completes, the command queue, every part of State outside the parts that Instr.touches lists for it, and every register of a kind it does not list are as before. Instr.touches names for each command exactly the parts and register kinds it may write, among them the events it may record. Rests on 06_fazar_fabric.md, 09_reset_and_bringup.md, 11_management_and_firmware.md. -/
def Obligations.FrameOfFabricManagementUpdate : Prop :=
  ∀ (i : Instr) (s t : State), i.family ∈ [Family.ports, Family.router, Family.streams, Family.banks, Family.collect, Family.clock, Family.links, Family.worisy, Family.security, Family.update, Family.quickset] → exec i s = .next t → Frame i.touches s t

/-- NOP, SETSEED, SETB, ADDB, SETLC, LOOP, JUMP and LDCB change nothing outside their array. When array n of partition p runs NOP, SETSEED, SETB, ADDB, SETLC, LOOP or JUMP, or an LDCB whose source holds no memory error and finite entries, the instruction completes and changes only the hidden state and PART_ARR_STAT of that array. Every other array, every core, streamer and queue, every other register, all of memory, the clocks, the host side, the fabric, the recorder, the command queue and the outbox are as before; the frame of the engines covers the power side. Rests on 02_array_execution.md. -/
def Obligations.RegisterOnlyArrayInstructionsChangeOneArray : Prop :=
  (∀ (s : State) (p n x : Nat), ArrAt s p n x →
    (insOpc x = 0 → Does (.arrayNop p n) s (OnlyArray s · p n)) ∧
    (insOpc x = 5 → Does (.setseed p n) s (OnlyArray s · p n)) ∧
    (insOpc x = 6 → Does (.setb p n) s (OnlyArray s · p n)) ∧
    (insOpc x = 7 → Does (.addb p n) s (OnlyArray s · p n)) ∧
    (insOpc x = 8 → Does (.setlc p n) s (OnlyArray s · p n)) ∧
    (insOpc x = 9 → Does (.loop p n) s (OnlyArray s · p n)) ∧
    (insOpc x = 13 → Does (.jump p n) s (OnlyArray s · p n))) ∧
  (∀ (s : State) (p n x : Nat), ArrAt s p n x → insOpc x = 4 → s.mem.errs = [] →
    cbBadEntry (ldcbFmt x) ((peek s (storeBase p n + effSlot (arrOf s p n) (ldcbBsel x) (ldcbSrc x) * 256) 256).take (cbEntBytes (ldcbFmt x))) = false →
    Does (.ldcb p n Flt.none) s (OnlyArray s · p n))

/-- Register-only general core instructions change nothing outside their core. When general core g of partition p runs a load immediate, an integer operation (operands whose result the spec does not state apart), a load, a vector load, a vector operation, a branch, CSRR, EI, DI, IRET or WFI, the instruction completes and changes only the registers and PART_CORE_STAT of that core. Every other core, every array, streamer and queue, every other register, all of memory, clocks, the power side, the host side, the fabric, the recorder, the command queue and the outbox are as before. Rests on 03_general_cores_and_interrupts.md. -/
def Obligations.RegisterOnlyCoreInstructionsChangeOneCore : Prop :=
  (∀ (s : State) (p g : Nat) (d : Nat) (v : BitVec 64), CoreAt s p g → d < 32 → 
    Does (.ewcInstruction p g (.li d v) Flt.none) s (OnlyCore s · p g)) ∧
  (∀ (s : State) (p g : Nat) (op : AluOp) (d a b : Nat), CoreAt s p g → d < 32 → a < 32 → b < 32 → aluOpen op ((coreOf s p g).getX b) = false → 
    Does (.ewcInstruction p g (.alu op d a b) Flt.none) s (OnlyCore s · p g)) ∧
  (∀ (s : State) (p g : Nat) (d a len m : Nat) (off : Int), CoreAt s p g → d < 32 → a < 32 → (len = 1 ∨ len = 2 ∨ len = 4 ∨ len = 8) → s.mem.errs = [] → coreAddr p g (effAddr (coreOf s p g) a off) len = some m → 
    Does (.ewcInstruction p g (.load d a off len) Flt.none) s (OnlyCore s · p g)) ∧
  (∀ (s : State) (p g : Nat) (d a m : Nat) (off : Int), CoreAt s p g → d < 32 → a < 32 → s.mem.errs = [] → coreAddr p g (effAddr (coreOf s p g) a off) 64 = some m → 
    Does (.ewcInstruction p g (.vload d a off) Flt.none) s (OnlyCore s · p g)) ∧
  (∀ (s : State) (p g : Nat) (op : VOp) (ty : VTy) (rtz : Bool) (d a b e : Nat), CoreAt s p g → d < 32 → a < 32 → b < 32 → e < 32 → 
    Does (.ewcInstruction p g (.vop op ty rtz d a b e) Flt.none) s (OnlyCore s · p g)) ∧
  (∀ (s : State) (p g : Nat) (op : BrOp) (a b tgt : Nat), CoreAt s p g → a < 32 → b < 32 → tgt < 65536 → 
    Does (.ewcInstruction p g (.br op a b tgt) Flt.none) s (OnlyCore s · p g)) ∧
  (∀ (s : State) (p g : Nat) (d csr : Nat) (v : BitVec 64), CoreAt s p g → d < 32 → csrVal s p g csr = some v → 
    Does (.csrr p g d csr Flt.none) s (OnlyCore s · p g)) ∧
  (∀ (s : State) (p g : Nat), CoreAt s p g → 
    Does (.ei p g Flt.none) s (OnlyCore s · p g)) ∧
  (∀ (s : State) (p g : Nat), CoreAt s p g → 
    Does (.di p g Flt.none) s (OnlyCore s · p g)) ∧
  (∀ (s : State) (p g : Nat), CoreAt s p g → (coreOf s p g).epc.toNat % 4 = 0 → (coreOf s p g).epc.toNat < 262144 → 
    Does (.iret p g Flt.none) s (OnlyCore s · p g)) ∧
  (∀ (s : State) (p g : Nat), CoreAt s p g → 
    Does (.wfi p g Flt.none) s (OnlyCore s · p g))

/-- A store changes no byte of memory outside the bytes it stores. Each of these completes, and every byte of memory outside the stored bytes reads as before; the address is computed as the command computes it. A general core's store of 1, 2, 4 or 8 bytes and its vector store of 64 bytes at the effective address; a BAR4 write of its bytes at its mapped address; an array's EMIT of its result at the destination slot; an array's POSTQ within the 256 bytes of the queue's next slot; a host COPY of the transfer's bytes at its destination; a LOAD_IMAGE block at its offset in the inactive image slot; a recorder page at its place in the event region. Rests on 02_array_execution.md, 03_general_cores_and_interrupts.md, 04_memory_tiers.md, 05_plans_and_host_rings.md, 11_management_and_firmware.md. -/
def Obligations.StoresTouchOnlyTheirBytes : Prop :=
  (∀ (s : State) (p g : Nat) (x a len m : Nat) (off : Int), CoreAt s p g → x < 32 → a < 32 → (len = 1 ∨ len = 2 ∨ len = 4 ∨ len = 8) → s.mem.errs = [] →
      coreAddr p g (effAddr (coreOf s p g) a off) len = some m →
      Does (.ewcInstruction p g (.store x a off len) Flt.none) s (OtherBytes s · m len)) ∧
  (∀ (s : State) (p g : Nat) (x a m : Nat) (off : Int), CoreAt s p g → x < 32 → a < 32 → s.mem.errs = [] → coreAddr p g (effAddr (coreOf s p g) a off) 64 = some m →
      Does (.ewcInstruction p g (.vstore x a off) Flt.none) s (OtherBytes s · m 64)) ∧
  (∀ (s : State) (off a : Nat) (b : List Byte) (ide : Bool), bar4Addr s off b.length = some a → ideRefuses s ide = false →
      s.mem.errs = [] → chanFailed s a b.length = false →
      Does (.bar4Write off b ide) s (OtherBytes s · a b.length)) ∧
  (∀ (s : State) (p n x b : Nat), ArrAt s p n x → insOpc x = 2 → lastBank (arrOf s p n) = some b →
      ((arrOf s p n).bank b).st = .complete → ((arrOf s p n).bank b).pm = 0 → residueOk ((arrOf s p n).bank b) 0 16384 = true →
      emitJoin x = false → emitDk x = true → isCb (emitFmt x) = false → s.mem.errs = [] →
      Does (.emit p n Flt.none) s (OtherBytes s · (storeBase p n + effSlot (arrOf s p n) (emitBsel x) (emitDst x) * 256) (emitBytes (arrOf s p n) b x).1.length)) ∧
  (∀ (s : State) (p n x : Nat), ArrAt s p n x → insOpc x = 11 → 0 < s.rd (R.PART_Q_CREDIT.CREDIT p (insQ x)) → s.mem.errs = [] →
      Does (.postq p n) s (OtherBytes s · (qSlot s p (insQ x) (queOf s p (insQ x)).wr) 256)) ∧
  (∀ (s : State) (opid : Nat) (x : Op) (b : List Byte), opOf s opid = some x → x.opc = OPC.COPY → mayStart s x = true → x.f 3 32 1 = 0 →
      x.f 3 33 1 = 1 → x.f 2 0 64 < vaultBase → s.mem.errs = [] → chanFailed s (x.f 2 0 64) (x.f 3 0 32) = false → b.length = x.f 3 0 32 →
      Does (.copy opid (.data b) Flt.none) s (OtherBytes s · (x.f 2 0 64) b.length)) ∧
  (∀ (s : State) (opid : Nat) (x : Op) (b : List Byte) (i : Install), opOf s opid = some x → x.opc = OPC.LOAD → mayStart s x = true →
      x.first = false → x.last = false → s.vlt.held = false → s.vlt.inst = some i → b.length = x.f 3 0 32 → wearUnits b.length ≤ s.vlt.wear → s.vlt.wear ≤ 305000000 →
      Does (.loadImage opid (.data b)) s (OtherBytes s · (slotBase (1 - s.nv.super.active) + x.f 2 0 64) b.length)) ∧
  (∀ (s : State) (p : Page), s.rcd.stage = [p] → p.closed = true → s.ctl.doneTrain = true → p.bytes.length ≤ 4096 →
      p.idx < 16384 → 0 < s.vlt.wear → s.vlt.held = false →
      Does .recorderPageWrite s (OtherBytes s · (evtBase + 4096 * p.idx) 4096))

/-- A unit identifier holds partition, kind and index as Table 02-2 lays them out. For every partition 0 to 7, kind 0 to 7 and index below 1,024, the identifier is a 16-bit number with PART in bits 15 to 13, KIND in bits 12 to 10 and INDEX in bits 9 to 0, and the three are read back from it. The odd array of a pleached pair is named by its even array. Rests on R59. -/
def Obligations.UnitIdentifierLayout : Prop :=
  (∀ p k i : Nat, p < 8 → k < 8 → i < 1024 →
    uidOf p k i < 2 ^ 16 ∧ uidOf p k i / 2 ^ 13 = p ∧ uidOf p k i / 2 ^ 10 % 2 ^ 3 = k ∧ uidOf p k i % 2 ^ 10 = i ∧
    uPart (uidOf p k i) = p ∧ uKind (uidOf p k i) = k ∧ uIdx (uidOf p k i) = i) ∧
  (∀ (s : State) (p j : Nat), p < 8 → j < 12 → s.rd (R.PART_ARR_STAT.PAIR p (2 * j + 1)) = 2 →
    evenOf s (uidOf p 0 (2 * j + 1)) = uidOf p 0 (2 * j))

/-- Rounding to a unit u is nearest even, towards zero or stochastic. For a magnitude (n + f) u with 0 <= f < 1, given exactly as m 2^e with u = 2^(e + j), f = r / 2^j: nearest even gives n + 1 where f > 1/2, n where f < 1/2 and the even one of the two where f = 1/2; towards zero gives n; stochastic rounding with a 16-bit random r gives n + 1 where floor(65,536 f) + r >= 65,536 and n otherwise. An exact result (f = 0, or a unit no larger than 2^e) is returned unchanged in every mode. Rests on R42. -/
def Obligations.RoundingModes : Prop :=
  (∀ (n r j x : Nat) (e : Int), r < 2 ^ j → x < 65536 → 0 < j →
    (2 ^ j < 2 * r → roundTo .rne (n * 2 ^ j + r) e (e + j) = n + 1) ∧
    (2 * r < 2 ^ j → roundTo .rne (n * 2 ^ j + r) e (e + j) = n) ∧
    (2 * r = 2 ^ j → roundTo .rne (n * 2 ^ j + r) e (e + j) = if n % 2 = 0 then n else n + 1) ∧
    roundTo .rtz (n * 2 ^ j + r) e (e + j) = n ∧
    roundTo (.sr x) (n * 2 ^ j + r) e (e + j) = (if 65536 ≤ 65536 * r / 2 ^ j + x then n + 1 else n) ∧
    (r = 0 → roundTo (.sr x) (n * 2 ^ j + r) e (e + j) = n)) ∧
  (∀ (md : Rnd) (m k : Nat) (e : Int), roundTo md m e (e - k) = m * 2 ^ k)

/-- INT8 and INT4 elements are two's complement integers. Every INT8 element code x below 256 reads as x below 128 and x - 256 from there, every INT4 code below 16 as x below 8 and x - 16 from there, both with quantum exponent 0; for scale selection emax is 6 for INT8 and 2 for INT4; and no other format is an integer format. Rests on 01_arrays_and_arithmetic.md. -/
def Obligations.IntegerElements : Prop :=
  (∀ x < 256, decodeElem F.INT8 x = .fin (decide (128 ≤ x)) (if x < 128 then x else 256 - x)) ∧
  (∀ x < 16, decodeElem F.INT4 x = .fin (decide (8 ≤ x)) (if x < 8 then x else 16 - x)) ∧
  quantum F.INT8 = 0 ∧ quantum F.INT4 = 0 ∧ emaxOf F.INT8 = 6 ∧ emaxOf F.INT4 = 2 ∧
  ∀ f, isInt f = true ↔ f = F.INT8 ∨ f = F.INT4

/-- Element k of a codebook record takes its index from bits k b + b - 1 down to k b of the index string. For every codebook format, every record and every k from 0 to 255, element k of the record is the codebook entry whose number is the b bits from bit k b of the index field on, b the format's index width, bit 0 of the field being bit 0 of its first byte. Rests on R24. -/
def Obligations.CodebookIndexBits : Prop :=
  ∀ (f : Nat) (rec_ : List Byte) (k : Nat), isCb f = true → k < 256 →
    (cbElems f rec_)[k]? = some (decodeElem (cbEntFmt f)
      (cbEntry f ((rec_.drop 2).take (cbEntBytes f)) (stringBits (rec_.drop (2 + cbEntBytes f)) (k * cbWidth f) (cbWidth f))))

/-- A write of a plain register is carried out with its RSV bits 0 and recorded with its source. A 32-bit write by host, tray controller or firmware that reaches a register whose fields are all plain read-write fields stores the written value with its RSV bits 0 and leaves the others as written. The recorder's open write record of that source names the register, the value written and the time; no record of that source is open before. Rests on 00_scope.md, 12_register_index.md. -/
def Obligations.PlainRegisterWriteClearsReservedBits : Prop :=
  ∀ (s : State) (src : Src) (k : RegKind) (ix : List Nat) (v : BitVec 32), Passes s src (regOff k ix) →
      regAt (regOff k ix) = some (k, ix) → regOff k ix < 0x4000000 → plainReg k = true → tget none s.rcd.merge (Src.kind src) = none →
      Does (.registerWrite src (regOff k ix) 4 (v.setWidth 64)) s fun t => (regWord t k ix).toNat = v.toNat &&& regMask k ∧
        (tget none t.rcd.merge (Src.kind src)).map (fun m => (m.target, m.last, m.at_)) = some (regOff k ix, v.toNat, s.clk.mono)

/-- LEASE_RELEASE ends the lease at once; the same port may claim at once, the other from 100 ms on. A LEASE_RELEASE from the holder ends the lease at that instant. A claim by the released port, in order, then makes it holder at once; one by the other port is answered GUARD_TIME. The guard time ends 100 ms after the release, and without it a claim of a free lease by either port makes it holder. Rests on R407. -/
def Obligations.LeaseReleaseLetsTheReleasedPortClaimFirst : Prop :=
  (∀ (s : State) (w w2 w3 : WReq), ByHolder s w WC.LEASE_RELEASE → s.rd R.RST_LEASE.LAST = w.port →
      Does (.leaseRelease w) s fun t => t.rd R.RST_LEASE.HOLDER = 0 ∧ t.clk.mono = s.clk.mono ∧ tget 0 t.clk.seen K.leaseEnd = t.clk.mono ∧
        t.rd R.RST_LEASE.GUARD = 1 ∧
        (FreeReq t w2 WC.LEASE_CLAIM ∧ w2.port = w.port → Does (.leaseClaim w2) t fun u => u.rd R.RST_LEASE.HOLDER = w.port + 1) ∧
        (FreeReq t w3 WC.LEASE_CLAIM ∧ w3.port ≠ w.port →
          Does (.leaseClaim w3) t fun u => u.rd R.RST_LEASE.HOLDER = 0 ∧ Answered t u w3 WC.LEASE_CLAIM WS.GUARD_TIME [])) ∧
  (∀ s : State, s.rd R.RST_LEASE.GUARD = 1 →
      Does .leaseGuardEnd s fun t => t.rd R.RST_LEASE.GUARD = 0 ∧ t.clk.mono = max s.clk.mono (tget 0 s.clk.seen K.leaseEnd + 100000000)) ∧
  (∀ (s : State) (w : WReq), FreeReq s w WC.LEASE_CLAIM → s.rd R.RST_LEASE.HOLDER = 0 → s.rd R.RST_LEASE.GUARD = 0 →
      Does (.leaseClaim w) s fun t => t.rd R.RST_LEASE.HOLDER = w.port + 1)

/-- PROGRAM needs CHECKED; CHECK and PROGRAM are refused while an update is under way. UPDATE_PROGRAM outside CHECKED is refused with ERR STATE, which covers PROGRAMMING, ACTIVATING, UNCONFIRMED and REVERTING; in CHECKED it is accepted and starts programming. UPDATE_CHECK is refused with ERR STATE in PROGRAMMING, ACTIVATING, UNCONFIRMED and REVERTING. UPDATE_CANCEL returns CHECKED or REJECTED to IDLE. A staging-window write clears CHECKED back to IDLE. Rests on R416. -/
def Obligations.UpdateCommandsFollowState : Prop :=
  (∀ (s : State) (src : Src), Passes s src (regOff .UPD_CTL []) → s.rd R.UPD_STAT.STATE ≠ UP.CHECKED →
      Does (.updateProgram src) s fun t => t.rd R.UPD_STAT.STATE = s.rd R.UPD_STAT.STATE ∧ t.nv.nor = s.nv.nor ∧ t.rd R.UPD_STAT.ERR = UE.STATE) ∧
  (∀ (s : State) (src : Src), Passes s src (regOff .UPD_CTL []) → s.rd R.UPD_STAT.STATE = UP.CHECKED →
      Does (.updateProgram src) s fun t => t.rd R.UPD_STAT.STATE = UP.PROGRAMMING ∧
        (if hdr s.upd.staging 0x14 2 = 2 then t.nv.nor.coreWord = .writing else t.nv.nor.slotWord = .writing)) ∧
  (∀ (s : State) (src : Src), Passes s src (regOff .UPD_CTL []) → (s.rd R.UPD_STAT.STATE = UP.PROGRAMMING ∨ s.rd R.UPD_STAT.STATE = UP.ACTIVATING ∨ s.rd R.UPD_STAT.STATE = UP.UNCONFIRMED ∨ s.rd R.UPD_STAT.STATE = UP.REVERTING) →
      Does (.updateCheck src) s fun t => t.rd R.UPD_STAT.STATE = s.rd R.UPD_STAT.STATE ∧ t.rd R.UPD_STAT.ERR = UE.STATE) ∧
  (∀ (s : State) (src : Src), Passes s src (regOff .UPD_CTL []) → s.rd R.UPD_STAT.STATE = UP.CHECKED ∨ s.rd R.UPD_STAT.STATE = UP.REJECTED →
      Does (.updateCancel src) s fun t => t.rd R.UPD_STAT.STATE = UP.IDLE ∧ t.nv.nor.updState = UP.IDLE) ∧
  (∀ (s : State) (src : Src) (off : Nat) (v : BitVec 32), Passes s src off → off % 4 = 0 → 0x3100000 ≤ off → off < 0x4000000 →
      Does (.stagingWrite src off v) s fun t => t.upd = { s.upd with staging := tset 0 s.upd.staging ((off - 0x3100000) / 4) v } ∧
        (s.rd R.UPD_STAT.STATE = UP.CHECKED → t.rd R.UPD_STAT.STATE = UP.IDLE))

/-- A sum of accumulator lanes does not depend on the order of its terms. For any list of at most 65,534 lanes, each special or of magnitude below 2^111 units, the sum from a zero lane is the same for every order of the terms: finite sums never run into the special pattern, and special lanes combine by the OR of their flags. Rests on 01_arrays_and_arithmetic.md. -/
def Obligations.LaneSumsDoNotDependOnOrder : Prop :=
  ∀ l₁ l₂ : List (BitVec 128), l₁.Perm l₂ → l₁.length ≤ 65534 →
    (∀ v ∈ l₁, laneSpecial v = true ∨ (laneInt v).natAbs < 2 ^ 111) → laneSum l₁ = laneSum l₂

/-- An actuating command that is not in order is answered and changes nothing. For every actuating command of Table 11-3: where the module hears the request and it is malformed, busy, not from the lease's holder or from an old generation, it is answered with that status, the response is kept, and nothing changes but the recorder with its registers, the Worisy ports' state and the outbox. Rests on 11_management_and_firmware.md. -/
def Obligations.RefusedActuatingCommandChangesNothing : Prop :=
  ∀ (i : Instr) (w : WReq) (cmd status : Nat) (s : State), leaseOf i = some (w, cmd) → Instr.wf i = true → Heard s w →
    actRefusal s w cmd = some status →
    Does i s fun t => Answered s t w cmd status [] ∧ Frame ([.rcd, .wor, .out], evKinds) s t

/-- Input supply commands switch, latch and hold as the module boundary rules say. Each command completes, under the conditions given, with the effect given. Rests on 08_module_boundary.md, 09_reset_and_bringup.md, 10_faults_and_recovery.md. -/
def Obligations.InputSupplyCommandsComplete : Prop :=
  -- POWER_ON_RESET with the input on writes latch cause 1, detail 1, and leaves mode OFF, no rail and no register beyond its reset value.
  (∀ s : State, s.hs.on = true →
      Does .powerOnReset s fun t => t.nv.latch.cause = 1 ∧ t.nv.latch.detail = 1 ∧ t.ctl.mode = .off ∧ t.hs.rails = [] ∧ t.regs = []) ∧
  -- MATE marks the module mated and notes the instant.
  (∀ s : State, Does .mate s fun t => t.hs = { s.hs with mated := true } ∧ tget 0 t.clk.seen K.mate = s.clk.mono) ∧
  -- UNMATE with the input on writes latch cause 2, switches the input and the rails off, clears mated and latched; mode OFF.
  (∀ s : State, s.hs.on = true →
      Does .unmate s fun t => t.nv.latch.cause = 2 ∧ t.ctl.mode = .off ∧ t.hs.on = false ∧ t.hs.mated = false ∧ t.hs.latched = false ∧ t.hs.rails = []) ∧
  -- HOT_SWAP_ON switches the input on when mated, EPO off, not latched off, off now, at 42.0 V or more, and below 60.0 V where the last cause was overvoltage; not before 10 ms after mating or an undervoltage, 100 ms after an overvoltage, 1 s after an inrush fault or an EPO.
  (∀ (s : State) (vin : Nat), s.hs.mated = true → s.hs.epo = false → s.hs.latched = false → s.hs.on = false → 420 ≤ vin →
      (s.nv.latch.cause = 6 → vin < 600) →
      Does (.hotSwapOn vin) s fun t => t.hs = { s.hs with on := true } ∧ tget 0 s.clk.seen K.mate + 10000000 ≤ t.clk.mono ∧
        (s.nv.latch.cause = 1 → tget 0 s.clk.seen K.hsOff + 10000000 ≤ t.clk.mono) ∧
        (s.nv.latch.cause = 6 → tget 0 s.clk.seen K.hsOff + 100000000 ≤ t.clk.mono) ∧
        (s.nv.latch.cause = 7 → tget 0 s.clk.seen K.hsOff + 1000000000 ≤ t.clk.mono) ∧
        (tget 0 s.clk.seen K.epo ≠ 0 → tget 0 s.clk.seen K.epo + 1000000000 ≤ t.clk.mono)) ∧
  -- INPUT_GOOD at 40.0 V or more with the input on and no rail brings rail 0 up, starts the module and counts a power cycle.
  (∀ (s : State) (vin : Nat), s.hs.on = true → s.hs.rails = [] → 400 ≤ vin →
      Does (.inputGood vin) s fun t => t.hs = { s.hs with rails := [0], tries := 0 } ∧ t.ctl = { s.ctl with mode := .start } ∧
        t.nv.super.pcc = (s.nv.super.pcc + 1) % 2 ^ 24) ∧
  -- UNDERVOLTAGE_OFF writes cause 1, detail 0, where no power-on reset was seen, and switches off.
  (∀ s : State, s.hs.on = true → s.hs.porSeen = false →
      Does .undervoltageOff s fun t => t.nv.latch.cause = 1 ∧ t.nv.latch.detail = 0 ∧ t.hs.on = false ∧ t.ctl.mode = .off) ∧
  -- OVERVOLTAGE_OFF writes cause 6 with the excess in half volts, at most 255, and switches off.
  (∀ (s : State) (highest : Nat), s.hs.on = true →
      Does (.overvoltageOff highest) s fun t => t.nv.latch.cause = 6 ∧ t.nv.latch.detail = min 255 ((highest - 600) / 5) ∧ t.hs.on = false ∧
        t.ctl.mode = .off) ∧
  -- OVERCURRENT_OFF writes cause 5 (detail 1 for the instant limit), latches off and switches off.
  (∀ (s : State) (instant : Bool), s.hs.on = true →
      Does (.overcurrentOff instant) s fun t => t.nv.latch.cause = 5 ∧ t.nv.latch.detail = (if instant then 1 else 0) ∧ t.hs.on = false ∧
        t.hs.latched = true ∧ t.ctl.mode = .off) ∧
  -- INRUSH_FAULT before any rail is up writes cause 7, switches off, counts the try and latches off at the fourth; it is not before 50 ms from switching on.
  (∀ s : State, s.hs.on = true → s.hs.rails = [] →
      Does .inrushFault s fun t => t.nv.latch.cause = 7 ∧ t.hs.on = false ∧ t.hs.tries = s.hs.tries + 1 ∧
        tget 0 s.clk.seen K.hsOn + 50000000 ≤ t.clk.mono ∧
        (s.hs.latched = false → (t.hs.latched = true ↔ 4 ≤ s.hs.tries + 1))) ∧
  -- EPO writes cause 3, switches off and holds EPO.
  (∀ s : State, s.hs.on = true →
      Does .epo s fun t => t.nv.latch.cause = 3 ∧ t.hs.on = false ∧ t.hs.epo = true ∧ t.ctl.mode = .off) ∧
  -- EPO_RELEASE ends EPO and notes the instant.
  (∀ s : State, s.hs.epo = true →
      Does .epoRelease s fun t => t.hs = { s.hs with epo := false } ∧ tget 0 t.clk.seen K.epo = s.clk.mono) ∧
  -- LATCH_CLEAR with the input off, not before 100 ms from the switch-off, clears the latch-off and the tries.
  (∀ s : State, s.hs.on = false →
      Does .latchClear s fun t => t.hs = { s.hs with latched := false, tries := 0 } ∧ tget 0 s.clk.seen K.hsOff + 100000000 ≤ t.clk.mono ∧
        tget 0 t.clk.seen K.mate = t.clk.mono) ∧
  -- VIN_HIGH above 60.0 V with power sets PWR_STAT.VIN_HIGH.
  (∀ (s : State) (vin : Nat), s.hs.rails ≠ [] → 600 < vin → s.rd R.PWR_STAT.VIN_HIGH = 0 →
      Does (.vinHigh vin) s fun t => t.rd R.PWR_STAT.VIN_HIGH = 1) ∧
  -- BROWNOUT in RUN, READY or DRAIN enters HOLD, remembers the mode, sets HOLD_BROWN, drops to P7, commits the journal and notes the lowest voltage.
  (∀ (s : State) (vin : Nat), s.ctl.mode = .run ∨ s.ctl.mode = .ready ∨ s.ctl.mode = .drain → s.rd R.PWR_STAT.HOLD_BROWN = 0 →
      Does (.brownout vin) s fun t => t.ctl.mode = .hold ∧ t.ctl.ret = s.ctl.mode ∧ t.rd R.PWR_STAT.HOLD_BROWN = 1 ∧ t.rd R.PWR_STAT.OP_NOW = 7 ∧
        t.hs.brownAt = s.clk.mono ∧ t.hs.vinMin = vin ∧ t.vlt.pend = 0) ∧
  -- INPUT_RECOVER notes the lowest voltage; the count of 100 us starts when the input reaches 40.0 V and stops below it.
  (∀ (s : State) (vin : Nat), s.rd R.PWR_STAT.HOLD_BROWN = 1 →
      Does (.inputRecover vin) s fun t => t.hs.holdCount = decide (400 ≤ vin) ∧ t.hs.vinMin = min vin s.hs.vinMin ∧
        tget 0 t.clk.seen K.brown = if 400 ≤ vin ∧ s.hs.holdCount = false then s.clk.mono else tget 0 s.clk.seen K.brown) ∧
  -- BROWNOUT_END, with the count running, clears HOLD_BROWN 100 us after it began or later and returns to the mode held (not DRAIN here) where no operator hold stands.
  (∀ s : State, s.rd R.PWR_STAT.HOLD_BROWN = 1 → s.hs.holdCount = true → s.ctl.mode = .hold →
      s.rd R.PWR_STAT.HOLD_OPER = 0 → s.ctl.ret ≠ .drain →
      Does .brownoutEnd s fun t => t.rd R.PWR_STAT.HOLD_BROWN = 0 ∧ t.hs.holdCount = false ∧ tget 0 s.clk.seen K.brown + 100000 ≤ t.clk.mono ∧
        t.ctl.mode = s.ctl.ret)

/-- Reset requests, rungs and their ends complete. Each command completes, under the conditions given, with the effect given. Rests on 09_reset_and_bringup.md, 10_faults_and_recovery.md. -/
def Obligations.ResetRungsComplete : Prop :=
  -- MRST of 200 ns or more in service, with no rung running, starts the module rung of source 1; READY falls.
  (∀ (s : State) (ns : Nat), 200 ≤ ns → serving s = true → s.ctl.rungs = [] →
      Does (.mrst ns) s fun t => t.ctl.mrstLow = true ∧ t.ctl.mode = .inReset ∧ t.ctl.ret = s.ctl.mode ∧ t.ctl.rungs = [⟨4, 0, 1, false, 1, SK.hw⟩] ∧
        t.rd R.RST_PIN_STAT.READY = 0) ∧
  -- MRST below 200 ns changes nothing.
  (∀ (s : State) (ns : Nat), ns < 200 → exec (.mrst ns) s = .next s) ∧
  -- MRST_RELEASE in reset with the module rung done starts the module.
  (∀ s : State, s.ctl.mode = .inReset → moduleBusy s = false →
      Does .mrstRelease s fun t => t.ctl = { s.ctl with mrstLow := false, mode := .start }) ∧
  -- HOST_INTERFACE_RESET with power clears operations, rings and IDE keys, SERVE, and EN and ACTIVE of all 256 rings.
  (∀ (s : State) (flr : Bool), s.ctl.mode ≠ .off →
      Does (.hostInterfaceReset flr) s fun t => t.host.ops = [] ∧ t.host.rings = [] ∧ t.sec.ide = [] ∧
        t.rd R.HIF_CTL.SERVE = 0 ∧ ∀ n < 256, t.rd (R.HIF_RING_CFGn.EN n) = 0 ∧ t.rd (R.HIF_RING_STATn.ACTIVE n) = 0) ∧
  -- SERVICE_CORE_WATCHDOG in service starts the module rung of source 2, recorded with code 9.
  (∀ (s : State) (pair : Nat), pair < 2 → serving s = true → s.ctl.rungs = [] →
      Does (.serviceCoreWatchdog pair) s fun t => t.ctl.mode = .inReset ∧ t.ctl.ret = s.ctl.mode ∧ t.ctl.rungs = [⟨4, 0, 1, false, 2, SK.hw⟩] ∧
        t.rd R.RST_PIN_STAT.READY = 0 ∧ t.rd R.RST_ESC_STAT.LAST_RUNG = 4 ∧ t.rd R.RST_ESC_LAST.CODE = 9) ∧
  -- LOCKSTEP_MISMATCH in service starts the module rung of source 3, recorded with code 9.
  (∀ (s : State) (pair : Nat), pair < 2 → serving s = true → s.ctl.rungs = [] →
      Does (.lockstepMismatch pair) s fun t => t.ctl.mode = .inReset ∧ t.ctl.ret = s.ctl.mode ∧ t.ctl.rungs = [⟨4, 0, 1, false, 3, SK.hw⟩] ∧
        t.rd R.RST_PIN_STAT.READY = 0 ∧ t.rd R.RST_ESC_STAT.LAST_RUNG = 4 ∧ t.rd R.RST_ESC_LAST.CODE = 9) ∧
  -- BLOCK_IDLE of the module rung at stage 1, MRST_N high, resets the units, queues, host side and power side, sets RST_CAUSE and starts.
  (∀ (s : State) (r : Rung), rungOf s 4 0 = some r → r.stage = 1 → s.ctl.mrstLow = false →
      Does (.blockIdle .module) s fun t => t.ctl.mode = .start ∧ t.ctl.rungs = [] ∧ t.arrs = [] ∧ t.cores = [] ∧ t.strs = [] ∧ t.ques = [] ∧
        t.host = HostIf.init ∧ t.pw = Power.init ∧ t.rd R.RST_CAUSE.VALID = 1 ∧ t.rd R.RST_CAUSE.SOURCE = r.source) ∧
  -- BLOCK_IDLE of a partition rung at stage 1 carries the reset out: AVAIL cleared, nothing left in the partition's shared SRAM, stage 3.
  (∀ (s : State) (p : Nat) (r : Rung), p < 8 → rungOf s 3 (2 ^ p) = some r → r.stage = 1 →
      Does (.blockIdle (.partition p)) s fun t => rungOf t 3 (2 ^ p) = some { r with depth := 3, pmask := 2 ^ p, stage := 3, forced := false } ∧
        fget (t.rd R.RST_PART_AVAIL.AVAIL) p 1 = 0 ∧ ∀ e ∈ t.bytes, ¬ (poolBase p ≤ e.1 ∧ e.1 < poolBase p + 0x4000000)) ∧
  -- BLOCK_IDLE of an engine rung ends it with DONE 1, FORCED 0.
  (∀ (s : State) (p : Nat) (r : Rung), p < 8 → rungOf s 2 (2 ^ p) = some r →
      Does (.blockIdle (.engine p)) s fun t => rungOf t 2 (2 ^ p) = none ∧ t.rd (R.PART_ENG_RST_STAT.BUSY p) = 0 ∧
        t.rd (R.PART_ENG_RST_STAT.FORCED p) = 0 ∧ t.rd (R.PART_ENG_RST_STAT.DONE p) = 1) ∧
  -- IDLE_T_EXPIRY of an engine rung ends it with DONE 1, not before its time-out, and FORCED 1 unless the engine's units only stall.
  (∀ (s : State) (p : Nat) (r : Rung), p < 8 → rungOf s 2 (2 ^ p) = some r →
      Does (.idleTExpiry (.engine p)) s fun t => tget 0 s.clk.seen (K.rung 2 p) + idleT s ≤ t.clk.mono ∧ rungOf t 2 (2 ^ p) = none ∧
        t.rd (R.PART_ENG_RST_STAT.BUSY p) = 0 ∧
        t.rd (R.PART_ENG_RST_STAT.FORCED p) = (if engStalled s (.engine p) then 0 else 1) ∧ t.rd (R.PART_ENG_RST_STAT.DONE p) = 1) ∧
  -- PARTITION_RESET_DONE at stage 3 ends the rung and shows the partition available or unavailable, in agreement with RST_PART_AVAIL.
  (∀ (s : State) (p : Nat) (e : TestEnv) (r : Rung), p < 8 → rungOf s 3 (2 ^ p) = some r → r.stage = 3 →
      Does (.partitionResetDone p e) s fun t => rungOf t 3 (2 ^ p) = none ∧
        (t.rd (R.PART_TOP_STAT.AVAIL p) = 1 ↔ fget (t.rd R.RST_PART_AVAIL.AVAIL) p 1 = 1) ∧
        t.rd (R.PART_TOP_STAT.AVAIL p) + t.rd (R.PART_TOP_STAT.UNAVAIL p) = 1) ∧
  -- IDLE_T_EXPIRY of the module rung resets as BLOCK_IDLE does.
  (∀ (s : State) (r : Rung), rungOf s 4 0 = some r → r.stage = 1 → s.ctl.mrstLow = false →
      Does (.idleTExpiry .module) s fun t => t.ctl.mode = .start ∧ t.ctl.rungs = [] ∧ t.arrs = [] ∧ t.host = HostIf.init ∧
        t.rd R.RST_CAUSE.VALID = 1 ∧ t.rd R.RST_CAUSE.SOURCE = r.source) ∧
  -- IDLE_T_EXPIRY of a partition rung carries the reset out as forced; nothing is left in the partition's tier 0 and shared SRAM.
  (∀ (s : State) (p : Nat) (r : Rung), p < 8 → rungOf s 3 (2 ^ p) = some r → r.stage = 1 →
      Does (.idleTExpiry (.partition p)) s fun t => rungOf t 3 (2 ^ p) = some { r with depth := 3, pmask := 2 ^ p, stage := 3, forced := true } ∧
        fget (t.rd R.RST_PART_AVAIL.AVAIL) p 1 = 0 ∧
        ∀ e ∈ t.bytes, ¬ (p * 0x180000000 ≤ e.1 ∧ e.1 < (p + 1) * 0x180000000) ∧ ¬ (poolBase p ≤ e.1 ∧ e.1 < poolBase p + 0x4000000))

/-- Start-up commands go through their steps or fail the start. Each command completes, under the conditions given, with the effect given. A start that fails notes its reason and the step it failed at. Rests on 09_reset_and_bringup.md. -/
def Obligations.StartUpCommandsComplete : Prop :=
  -- START_UP at STAGE 2 after power-on with good rails brings all rails up to STAGE 4 and waits for REFCLK where the straps ask for it.
  (∀ (s : State) (e : StartEnv), s.ctl.mode = .start → s.ctl.failed = false → s.ctl.mrstLow = false → 0 ∈ s.hs.rails →
      s.rd R.RST_CAUSE.VALID = 0 → s.rd R.HIF_BOOT_STATUS.STAGE = 2 → s.rd R.RST_REFCLK.LOCKED = 0 → e.clkMode % 4 < 2 → e.rails = true →
      Does (.startUp e) s fun t => t.rd R.HIF_BOOT_STATUS.STAGE = 4 ∧ t.hs.rails = [0, 1, 2, 3, 4, 5, 6] ∧ t.ctl.mode = .start ∧
        t.rd R.RST_STRAP.CLK_MODE = e.clkMode % 4 ∧ t.rd R.RST_REFCLK.MODE_USED = e.clkMode % 4) ∧
  -- START_UP at STAGE 4 with a locked clock takes the first strap reading that repeats, where the location is legal.
  (∀ (s : State) (e : StartEnv) (x : Nat × Nat), s.ctl.mode = .start → s.ctl.failed = false → s.ctl.mrstLow = false →
      0 ∈ s.hs.rails → s.rd R.HIF_BOOT_STATUS.STAGE = 4 → s.rd R.RST_REFCLK.LOCKED = 1 → e.pll = true →
      (e.straps.take 3).find? (fun y => y.1 == y.2) = some x → fget x.1 0 19 / 256 ≤ 1024 →
      Does (.startUp e) s fun t => t.rd R.RST_STRAP.VALID = 1 ∧ t.rd R.RST_STRAP.BOOT_SRC = fget x.1 19 2 ∧ t.rd R.RST_STRAP.LOC = fget x.1 0 19) ∧
  -- REFCLK_QUALIFY within 5 ppm locks, shows the offset and takes 10 ms a try.
  (∀ (s : State) (offset : Int), s.ctl.mode = .start → s.ctl.failed = false → s.rd R.HIF_BOOT_STATUS.STAGE = 4 →
      s.rd R.RST_REFCLK.LOCKED = 0 → offset.natAbs ≤ 5000 →
      Does (.refclkQualify true offset) s fun t => t.rd R.RST_REFCLK.LOCKED = 1 ∧ t.rd R.RST_REFCLK.OFFSET = ux 16 offset ∧
        tget 0 s.clk.seen K.waitAt + 10000000 * s.ctl.refTries ≤ t.clk.mono) ∧
  -- After ten failed tries a failing REFCLK_QUALIFY fails the start at step 4.
  (∀ (s : State) (ok : Bool) (offset : Int), s.ctl.mode = .start → s.ctl.failed = false →
      s.rd R.HIF_BOOT_STATUS.STAGE = 4 → s.rd R.RST_REFCLK.LOCKED = 0 → (ok = false ∨ 5000 < offset.natAbs) → 10 ≤ s.ctl.refTries →
      Does (.refclkQualify ok offset) s fun t => t.ctl.failed = true ∧ t.nv.nor.reason = SR.REFCLK ∧ t.nv.nor.lastStep = 4) ∧
  -- WEIGHT_LOAD after training and test finishes the load and lists the unreadable pages (no range to check here).
  (∀ (s : State) (bad : List Nat), s.ctl.mode = .start → s.ctl.doneTrain = true → s.ctl.doneTest = true → s.ctl.doneLoad = false →
      s.ctl.failed = false → (planRanges s).filter readyRange = [] →
      Does (.weightLoad bad) s fun t => t.ctl = { s.ctl with doneLoad := true } ∧
        t.mem = { s.mem with badPages := s.mem.badPages ++ bad.map fun a => a / 4096 * 4096 }) ∧
  -- READY_ENTRY with every part done, no hold, no bit-error test waited for and THERM_W computed enters READY: READY pin, STAGE 0xB, FAILS 0, gate level 0.
  (∀ (s : State) (moved : Bool), s.ctl.mode = .start → s.ctl.failed = false → s.ctl.doneTrain = true → s.ctl.doneTest = true →
      s.ctl.doneFw = true → s.ctl.doneLoad = true → s.rd R.PWR_STAT.HOLD_BROWN = 0 → s.rd R.PWR_STAT.HOLD_OPER = 0 →
      s.ctl.waits.contains 1 = false → s.rd R.PWR_CLIP_DER.THERM_W ≠ 0xFFFF →
      Does (.readyEntry moved) s fun t => t.ctl.mode = .ready ∧ t.rd R.RST_PIN_STAT.READY = 1 ∧ t.rd R.HIF_BOOT_STATUS.FAILS = 0 ∧
        t.rd R.HIF_BOOT_STATUS.STAGE = 0xB ∧ t.nv.nor.fails = 0 ∧ t.host.level = 0) ∧
  -- START_TIMEOUT fails a start not waiting from outside, 20 s after it began.
  (∀ s : State, s.ctl.mode = .start → s.ctl.failed = false → s.rd R.HIF_BOOT_STATUS.WAIT_EXT = 0 →
      Does .startTimeout s fun t => t.ctl.failed = true ∧ t.nv.nor.reason = SR.TIMEOUT ∧ t.nv.nor.lastStep = s.rd R.HIF_BOOT_STATUS.STAGE ∧
        tget 0 s.clk.seen K.startAt + 20000000000 ≤ t.clk.mono) ∧
  -- START_RETRY of a failed start goes through the module rung and starts again with source 7.
  (∀ s : State, s.ctl.mode = .start → s.ctl.failed = true → s.ctl.mrstLow = false →
      Does .startRetry s fun t => t.ctl.mode = .start ∧ t.ctl.failed = false ∧ t.arrs = [] ∧ t.host = HostIf.init ∧
        t.rd R.HIF_BOOT_STATUS.STAGE = 2 ∧ t.rd R.RST_CAUSE.VALID = 1 ∧ t.rd R.RST_CAUSE.SOURCE = 7) ∧
  -- HOST_FW_TIMEOUT fails a start waiting for host firmware 30 s after the wait began.
  (∀ s : State, s.ctl.mode = .start → s.ctl.failed = false → s.ctl.waits.contains 2 = true →
      s.rd R.HIF_BOOT_STATUS.BOOT_SRC_USED = 1 →
      Does .hostFwTimeout s fun t => t.ctl.failed = true ∧ t.nv.nor.reason = SR.HOST ∧ t.nv.nor.lastStep = 9 ∧
        tget 0 s.clk.seen K.waitAt + 30000000000 ≤ t.clk.mono)

/-- Writes of service, ring, reset, mailbox and bound registers act as their rules say. Each named register write that its writer may make completes with the effect given. Rests on 05_plans_and_host_rings.md, 09_reset_and_bringup.md, 11_management_and_firmware.md, 12_register_index.md. -/
def Obligations.ControlRegisterWritesComplete : Prop :=
  -- SERVE_START in READY or DRAIN enters RUN unless readmission is pending.
  (∀ (s : State) (src : Src), Passes s src (regOff .HIF_CTL []) → s.ctl.mode = .ready ∨ s.ctl.mode = .drain →
      s.rd R.RST_ESC_STAT.READMIT_PEND = 0 →
      Does (.serveStart src) s fun t => t.rd R.HIF_CTL.SERVE = 1 ∧ t.ctl = { s.ctl with mode := .run }) ∧
  -- SERVE_STOP in RUN goes to READY, or to DRAIN while phases run.
  (∀ (s : State) (src : Src), Passes s src (regOff .HIF_CTL []) → s.ctl.mode = .run → s.rd R.RST_ESC_STAT.READMIT_PEND = 0 →
      Does (.serveStop src) s fun t => t.rd R.HIF_CTL.SERVE = 0 ∧ t.ctl.mode = (if running s = [] then .ready else .drain)) ∧
  -- GATE_STOP writes GATE_STOP.
  (∀ (s : State) (src : Src) (v : Bool), Passes s src (regOff .HIF_CTL []) →
      Does (.gateStop src v) s fun t => t.rd R.HIF_CTL.GATE_STOP = if v then 1 else 0) ∧
  -- RING_ENABLE of an inactive ring outside MINIMAL clears its positions and error and starts it with phase 1.
  (∀ (s : State) (src : Src) (n : Nat), n < 256 → Passes s src (regOff .HIF_RING_CFGn [n]) → s.ctl.mode ≠ .minimal →
      s.rd (R.HIF_RING_CFGn.EN n) = 0 → s.rd (R.HIF_RING_STATn.ACTIVE n) = 0 →
      Does (.ringEnable src n) s fun t => t.rd (R.HIF_RING_CFGn.EN n) = 1 ∧ t.rd (R.HIF_RING_STATn.ACTIVE n) = 1 ∧
        t.rd (R.HIF_RING_POSn.SQ_HEAD n) = 0 ∧ t.rd (R.HIF_RING_POSn.CQ_TAIL n) = 0 ∧ t.rd (R.HIF_RING_STATn.ERR n) = 0 ∧
        tget Ring.init t.host.rings n = { Ring.init with phase := true }) ∧
  -- RING_DISABLE with no operation in flight clears EN and ACTIVE.
  (∀ (s : State) (src : Src) (n : Nat), n < 256 → Passes s src (regOff .HIF_RING_CFGn [n]) → s.rd (R.HIF_RING_CFGn.EN n) = 1 →
      s.host.ops = [] → s.rd (R.HIF_RING_STATn.OUTSTANDING n) = 0 →
      Does (.ringDisable src n) s fun t => t.rd (R.HIF_RING_CFGn.EN n) = 0 ∧ t.rd (R.HIF_RING_STATn.ACTIVE n) = 0) ∧
  -- REGISTER_WRITE of a plain register stores the value with RSV bits 0.
  (∀ (s : State) (src : Src) (k : RegKind) (ix : List Nat) (v : BitVec 64), Passes s src (regOff k ix) →
      regAt (regOff k ix) = some (k, ix) → regOff k ix < 0x4000000 → regOff k ix % 4 = 0 → inEvtWin (regOff k ix) = false → inStaging (regOff k ix) = false →
      inTables (regOff k ix) = false → plainReg k = true →
      Does (.registerWrite src (regOff k ix) 4 v) s fun t => regWord t k ix = BitVec.ofNat 32 (v.toNat % 2 ^ 32 &&& regMask k)) ∧
  -- A firmware write of a register that shows a bound leaves it and records BOUND_VIOLATION with its offset and the value.
  (∀ (s : State) (k : RegKind) (ix : List Nat) (v : BitVec 32), Passes s .firmware (regOff k ix) → boundRegs.contains k = true →
      dimOk (regRow k).dims ix = true → tget none s.rcd.merge (Src.kind .firmware) = none → s.rcd.stage = [] → s.rd R.EVT_STATUS.FULL = 0 →
      s.rd R.EVT_STATUS.PAGES_USED < 16384 →
      Does (.registerWrite .firmware (regOff k ix) 4 (v.setWidth 64)) s fun t => regWord t k ix = regWord s k ix ∧
        t.rcd.stage.map (·.bytes) = [recordBytes s.rcd.seq E.BOUND_VIOLATION SK.hw (opsec s) s.nv.super.pcc 0 (s.clk.mono % 1000000000)
          [I.VALUE (regOff k ix), I.VALUE v.toNat]]) ∧
  -- HOST_FW_GO in a waiting start takes core firmware that passes its checks and goes on to STAGE 0xA, and changes nothing for any other image.
  (∀ (s : State) (src : Src), Passes s src (regOff .RST_REQ []) → s.ctl.mode = .start → s.ctl.failed = false →
      s.rd R.HIF_BOOT_STATUS.WAIT_EXT = 1 → s.rd R.HIF_BOOT_STATUS.BOOT_SRC_USED = 1 →
      Does (.hostFwGo src) s fun t =>
        if (checkImage s s.upd.staging).1 = UE.NONE ∧ hdr s.upd.staging 0x14 2 = 2 then
          t.ctl = { s.ctl with coreFw := some (imageOf s.upd.staging), doneFw := true } ∧ t.rd R.HIF_BOOT_STATUS.WAIT_EXT = 0 ∧
            t.rd R.HIF_BOOT_STATUS.STAGE = 0xA
        else t.ctl = s.ctl ∧ t.rd R.HIF_BOOT_STATUS.WAIT_EXT = 1) ∧
  -- MODULE_RESET with the key in service starts the module rung of source 4.
  (∀ s : State, Passes s .bar0 (regOff .RST_REQ []) → serving s = true → s.ctl.rungs = [] →
      Does (.moduleReset .host 0x5A) s fun t => t.ctl.mode = .inReset ∧ t.ctl.ret = s.ctl.mode ∧ t.ctl.rungs = [⟨4, 0, 1, false, 4, 1⟩] ∧
        t.rd R.RST_PIN_STAT.READY = 0) ∧
  -- PARTITION_RESET of one partition with the key, nothing in flight, starts its partition rung.
  (∀ (s : State) (p : Nat), p < 8 → Passes s .bar0 (regOff .RST_REQ []) → serving s = true → s.ctl.rungs = [] → s.host.ops = [] →
      Does (.partitionReset .host 0x5A (2 ^ p)) s fun t => t.ctl = { s.ctl with rungs := [⟨3, 2 ^ p, 1, false, 4, 1⟩] } ∧
        tget 0 t.clk.seen (K.rung 3 p) = s.clk.mono) ∧
  -- CONTEXT_RESET fails the context's running phase with ABORTED, RESET.
  (∀ (s : State) (slot : Nat) (ph : Phase), slot < 64 → Passes s .bar0 (regOff .RST_REQ []) → serving s = true → s.ctl.rungs = [] →
      phaseOf s slot = some ph → ph.outcome = none →
      Does (.contextReset .host slot) s fun t => (phaseOf t slot).bind (·.outcome) = some (S.ABORTED, D.RESET, 0, 0)) ∧
  -- CLR_FAILS in MINIMAL clears the count of failed starts.
  (∀ (s : State) (src : Src), Passes s src (regOff .RST_REQ []) → s.ctl.mode = .minimal →
      Does (.clrFails src) s fun t => t.nv.nor = { s.nv.nor with fails := 0 } ∧ t.rd R.HIF_BOOT_STATUS.FAILS = 0) ∧
  -- ENGINE_RESET of an idle engine not bound to a context starts the engine rung and shows BUSY and UNIT.
  (∀ (s : State) (src : Src) (p u : Nat), p < 8 → Passes s src (regOff .PART_ENG_RST [p]) → u < 65536 → uPart u = p →
      engUnit u = true → evenOf s u = u → s.rd (R.PART_ENG_RST_STAT.BUSY p) = 0 → s.ctl.rungs = [] → unitCtx s u = none →
      Does (.engineReset src p u) s fun t => t.rd (R.PART_ENG_RST_STAT.BUSY p) = 1 ∧ t.rd (R.PART_ENG_RST_STAT.UNIT p) = u ∧
        t.ctl = { s.ctl with rungs := [⟨2, 2 ^ p, 1, false, 0, SK.hw⟩] }) ∧
  -- MBOX_WRITE stores the value and sets MBOX_OVR on an unread one.
  (∀ (s : State) (src : Src) (p g n : Nat) (v : BitVec 32), p < 8 → g < 48 → n < 4 → Passes s src (regOff .PART_CORE_MBOXn [p, g, n]) →
      Does (.mboxWrite src p g n v) s fun t => t.rd (R.PART_CORE_MBOXn.VALUE p g n) = v.toNat ∧
        (s.rd (R.PART_CORE_MBOXn.VALUE p g n) ≠ 0 → t.rd (R.PART_CORE_MISC.MBOX_OVR p g) = 1))

/-- Writes of port, bank and time registers act as the fabric rules say. Each named register write that its writer may make completes with the effect given. Rests on 06_fazar_fabric.md, 12_register_index.md. -/
def Obligations.FabricRegisterWritesComplete : Prop :=
  -- PORT_ENABLE of a port that is not replaced starts training.
  (∀ (s : State) (src : Src) (n : Nat), n < 34 → Passes s src (regOff .FZ_PORT_CTL [n]) → portsLive s = true →
      s.rd (R.FZ_PORT_CTL.EN n) = 0 → s.rd (R.FZ_PORT_CTL.FORCE_HOLD n) = 0 → replaced s n = false →
      Does (.portEnable src n) s fun t => t.rd (R.FZ_PORT_CTL.EN n) = 1 ∧ t.rd (R.FZ_PORT_STAT.STATE n) = PS.TRAINING ∧
        t.rd (R.FZ_PORT_FAR.VALID n) = 0) ∧
  -- PORT_DISABLE of an enabled port puts it in DISABLED.
  (∀ (s : State) (src : Src) (n : Nat), n < 36 → Passes s src (regOff .FZ_PORT_CTL [n]) → s.rd (R.FZ_PORT_CTL.EN n) = 1 →
      s.rd (R.FZ_PORT_CTL.FORCE_HOLD n) = 0 →
      Does (.portDisable src n) s fun t => t.rd (R.FZ_PORT_CTL.EN n) = 0 ∧ t.rd (R.FZ_PORT_STAT.STATE n) = PS.DISABLED ∧
        t.rd (R.FZ_PORT_FAR.VALID n) = 0) ∧
  -- FORCE_HOLD of an enabled port holds it with reason OPERATOR.
  (∀ (s : State) (src : Src) (n : Nat), n < 36 → Passes s src (regOff .FZ_PORT_CTL [n]) → portsLive s = true →
      s.rd (R.FZ_PORT_CTL.EN n) = 1 → s.rd (R.FZ_PORT_CTL.FORCE_HOLD n) = 0 → replaced s n = false →
      Does (.forceHold src n true) s fun t => t.rd (R.FZ_PORT_CTL.FORCE_HOLD n) = 1 ∧ t.rd (R.FZ_PORT_STAT.STATE n) = PS.HELD ∧
        t.rd (R.FZ_PORT_STAT.REASON n) = if s.rd (R.FZ_PORT_STAT.STATE n) = PS.HELD then s.rd (R.FZ_PORT_STAT.REASON n) else PR.OPERATOR) ∧
  -- BER_NOW on an UP port whose far end does not have the larger location asks for a test.
  (∀ (s : State) (src : Src) (n : Nat), n < 36 → Passes s src (regOff .FZ_PORT_CTL [n]) → s.rd (R.FZ_PORT_STAT.STATE n) = PS.UP →
      s.rd (R.FZ_PORT_FAR.LOC n) ≤ ownLoc s →
      Does (.berNow src n) s fun t => (tget PortSt.init t.fab.ports n).testDue = true) ∧
  -- BANK_COPY outside an epoch hold copies the active bank to the other one and clears READY.
  (∀ (s : State) (src : Src), Passes s src (regOff .FZ_BANK_CTL []) → s.rd R.FZ_BANK_STAT.HOLD = 0 →
      Does (.bankCopy src) s fun t => bankOf t (1 - activeEpoch s) = bankOf s (activeEpoch s) ∧ t.rd R.FZ_BANK_STAT.READY = 0) ∧
  -- SEAL_BANK sets READY and shows the inactive bank's checksum.
  (∀ (s : State) (src : Src), Passes s src (regOff .FZ_BANK_CTL []) →
      Does (.sealBank src) s fun t => t.rd R.FZ_BANK_STAT.READY = 1 ∧
        t.rd R.FZ_BANK_CSUM.CSUM = (let b := bankOf s (1 - activeEpoch s); (Config.bankCsum b.dir b.gw b.gl b.ch).toNat)) ∧
  -- ARM of a sealed bank at least 1 ms ahead, outside a hold, arms the laying at that time.
  (∀ (s : State) (src : Src), Passes s src (regOff .FZ_BANK_CTL []) → s.rd R.FZ_BANK_STAT.READY = 1 → s.rd R.FZ_BANK_STAT.HOLD = 0 →
      s.clk.time.toNat + 1000000 ≤ layTime s →
      Does (.arm src) s fun t => t.rd R.FZ_BANK_STAT.ARMED = 1 ∧ t.fab.armed = some (layTime s)) ∧
  -- CANCEL disarms.
  (∀ (s : State) (src : Src), Passes s src (regOff .FZ_BANK_CTL []) →
      Does (.cancel src) s fun t => t.rd R.FZ_BANK_STAT.ARMED = 0 ∧ t.fab = { s.fab with armed := none }) ∧
  -- DIRECTORY_WRITE in the channel window outside a hold writes the inactive bank's word and clears READY.
  (∀ (s : State) (src : Src) (off : Nat) (v : BitVec 32), Passes s src off → off % 4 = 0 → 0x580000 ≤ off → off < 0x5C0000 →
      s.rd R.FZ_BANK_STAT.HOLD = 0 →
      Does (.directoryWrite src off v) s fun t =>
        bankOf t (1 - activeEpoch s) = { bankOf s (1 - activeEpoch s) with ch := tset 0 (bankOf s (1 - activeEpoch s)).ch ((off - 0x580000) / 4) v } ∧
        t.rd R.FZ_BANK_STAT.READY = 0) ∧
  -- TIME_ROOT_SET in service makes the module the time root.
  (∀ (s : State) (src : Src), Passes s src (regOff .FZ_TIME_CFG []) → serving s = true → s.rd R.FZ_TIME_STAT.TSTATE ≠ TS.ROOT →
      Does (.timeRootSet src) s fun t => t.rd R.FZ_TIME_CFG.ROOT = 1 ∧ t.rd R.FZ_TIME_STAT.TSTATE = TS.ROOT ∧ t.rd R.FZ_TIME_STAT.DIST = 0 ∧
        t.fab.rootFa = ownFa s) ∧
  -- TIME_SET on the root sets fabric time from both halves.
  (∀ (s : State) (src : Src) (hi : BitVec 32), Passes s src (regOff .FZ_TIME_SET_HI []) → s.rd R.FZ_TIME_STAT.TSTATE = TS.ROOT →
      Does (.timeSet src hi) s fun t => t.clk.time = BitVec.ofNat 64 (s.rd R.FZ_TIME_SET_LO.TIME + 2 ^ 32 * hi.toNat) ∧
        t.rd R.FZ_TIME_SET_HI.TIME = hi.toNat)

/-- Writes of update, staging and quickset registers act as their rules say. Each named register write that its writer may make completes with the effect given. Rests on 09_reset_and_bringup.md, 11_management_and_firmware.md, 12_register_index.md. -/
def Obligations.UpdateRegisterWritesComplete : Prop :=
  -- UPDATE_CHECK below state 4 ends CHECKED or REJECTED, as the checks of the staged image say.
  (∀ (s : State) (src : Src), Passes s src (regOff .UPD_CTL []) → s.rd R.UPD_STAT.STATE < 4 →
      Does (.updateCheck src) s fun t =>
        t.rd R.UPD_STAT.STATE = (if (checkImage s s.upd.staging).1 = UE.NONE then UP.CHECKED else UP.REJECTED) ∧
        t.nv.nor.updState = t.rd R.UPD_STAT.STATE) ∧
  -- UPDATE_PROGRAM in CHECKED starts programming and marks the slot of the image's kind WRITING.
  (∀ (s : State) (src : Src), Passes s src (regOff .UPD_CTL []) → s.rd R.UPD_STAT.STATE = UP.CHECKED →
      Does (.updateProgram src) s fun t => t.rd R.UPD_STAT.STATE = UP.PROGRAMMING ∧
        (if hdr s.upd.staging 0x14 2 = 2 then t.nv.nor.coreWord = .writing else t.nv.nor.slotWord = .writing)) ∧
  -- UPDATE_CANCEL in CHECKED or REJECTED returns to IDLE.
  (∀ (s : State) (src : Src), Passes s src (regOff .UPD_CTL []) → s.rd R.UPD_STAT.STATE = UP.CHECKED ∨ s.rd R.UPD_STAT.STATE = UP.REJECTED →
      Does (.updateCancel src) s fun t => t.rd R.UPD_STAT.STATE = UP.IDLE ∧ t.nv.nor.updState = UP.IDLE) ∧
  -- STAGING_WRITE writes the staging word and returns CHECKED to IDLE.
  (∀ (s : State) (src : Src) (off : Nat) (v : BitVec 32), Passes s src off → off % 4 = 0 → 0x3100000 ≤ off → off < 0x4000000 →
      Does (.stagingWrite src off v) s fun t => t.upd = { s.upd with staging := tset 0 s.upd.staging ((off - 0x3100000) / 4) v } ∧
        (s.rd R.UPD_STAT.STATE = UP.CHECKED → t.rd R.UPD_STAT.STATE = UP.IDLE)) ∧
  -- QUICKSET_GO of recovery firmware that is present, with no session, starts session n + 1 from this module to the destination.
  (∀ (s : State) (src : Src) (len : Nat), Passes s src (regOff .RST_QS_SRC_CTL []) → s.rd R.RST_QS_SRC_CTL.KIND = 2 →
      qsLen s 2 = some len → qsBusy s = false →
      Does (.quicksetGo src) s fun t => t.qs.sent = 0 ∧ t.qs.session = (s.qs.session + 1) % 65536 ∧
        t.qs.src.map (fun a => (a.src, a.dst, a.kind, a.imageLen)) = some (ownFa s, s.rd R.RST_QS_SRC_CTL.DST_FA, 2, len)) ∧
  -- QUICKSET_CANCEL ends the session.
  (∀ (s : State) (src : Src), Passes s src (regOff .RST_QS_SRC_CTL []) →
      Does (.quicksetCancel src) s fun t => t.qs = { s.qs with src := none, sent := 0 })

/-- Array tiles, banks, residues and emission complete. Array n of partition p stands at a legal instruction that it may run; it retires, the PC one on, with the effect given. Rests on 01_arrays_and_arithmetic.md, 02_array_execution.md. -/
def Obligations.ArrayArithmeticCompletes : Prop :=
  -- NOP retires.
  (∀ (s : State) (p n x : Nat), ArrAt s p n x → insOpc x = 0 →
      Does (.arrayNop p n) s (Retired s · p n)) ∧
  -- TILE with INIT 0 outside a slope ramp takes the free bank, clears its lanes and queues the tile.
  (∀ (s : State) (p n x b : Nat), ArrAt s p n x → insOpc x = 1 → slopeOn s p n = false →
      (arrOf s p n).slope ≠ .filler → tileInit x = 0 → freeBank (arrOf s p n) = some b →
      Does (.tile p n Flt.none) s fun t => Retired s t p n ∧
        ((arrOf t p n).bank b).st = .filling ∧ ((arrOf t p n).bank b).lanes = [] ∧ ((arrOf t p n).bank b).lsb = tileLsb x ∧
        ((arrOf t p n).bank b).kb = tileKb x ∧ (arrOf t p n).tiles.map (fun r => (r.ins.toNat, r.bank, r.done)) = [(x, b, 0)]) ∧
  -- TILE with INIT 2 goes on in the last bank, with its K blocks added.
  (∀ (s : State) (p n x b : Nat), ArrAt s p n x → insOpc x = 1 → slopeOn s p n = false →
      (arrOf s p n).slope ≠ .filler → tileInit x = 2 → lastBank (arrOf s p n) = some b →
      Does (.tile p n Flt.none) s fun t => Retired s t p n ∧
        ((arrOf t p n).bank b).st = .filling ∧ ((arrOf t p n).bank b).lanes = ((arrOf s p n).bank b).lanes ∧
        ((arrOf t p n).bank b).kb = ((arrOf s p n).bank b).kb + tileKb x) ∧
  -- TILE on the slope of one K unit from the store fills the bank with the cells' sums of the operands (PM 0, good headers, no memory error).
  (∀ (s : State) (p n x b : Nat), ArrAt s p n x → insOpc x = 1 → slopeOn s p n = true →
      tileInit x = 0 → freeBank (arrOf s p n) = some b → tilePm x = 0 → tileXk x = true → tileWk x = true → tileUnits x = 1 → s.mem.errs = [] →
      unitHeadersOk (tileFx x) (peek s (storeBase p n + effSlot (arrOf s p n) (tileBsel x) (tileX x) * 256) (unitSlots x (tileFx x) * 256)) (unitPanels x (tileFx x)) = true →
      unitHeadersOk (tileFw x) (peek s (storeBase p n + effSlot (arrOf s p n) (tileBsel x) (tileW x) * 256) (unitSlots x (tileFw x) * 256)) (unitPanels x (tileFw x)) = true →
      Does (.tile p n Flt.none) s fun t => Retired s t p n ∧
        ((arrOf t p n).bank b).st = .streamed ∧ (arrOf t p n).tiles = [] ∧
        ((arrOf t p n).bank b).lanes = (gridStep (cellStep (tileFx x) (tileFw x) (!tileExact x) (tileLsb x))
          (operand x (tileFw x) (peek s (storeBase p n + effSlot (arrOf s p n) (tileBsel x) (tileW x) * 256) (unitSlots x (tileFw x) * 256)))
          (operand x (tileFx x) (peek s (storeBase p n + effSlot (arrOf s p n) (tileBsel x) (tileX x) * 256) (unitSlots x (tileFx x) * 256))) 0 []).1) ∧
  -- RESIDUE_SWEEP of a group with a wrong residue stops the array with RES_FAIL.
  (∀ (s : State) (p n lane0 : Nat), p < 8 → n < 24 → lane0 < 16384 → lane0 % 16 = 0 → arrLive s p n = true →
      (arrOf s p n).bank0.st ≠ .free → residueOk (arrOf s p n).bank0 lane0 (lane0 + 16) = false →
      Does (.residueSweep p n lane0 Flt.none) s fun t => t.rd (R.PART_ARR_EXC.RES_FAIL p n) = 1 ∧ t.rd (R.PART_ARR_STAT.STATE p n) = US.STOPPED) ∧
  -- RESIDUE_SWEEP of groups that agree changes nothing.
  (∀ (s : State) (p n lane0 : Nat), p < 8 → n < 24 → lane0 < 16384 → lane0 % 16 = 0 →
      residueOk (arrOf s p n).bank0 lane0 (lane0 + 16) = true → residueOk (arrOf s p n).bank1 lane0 (lane0 + 16) = true →
      residueOk (arrOf s p n).obank0 lane0 (lane0 + 16) = true → residueOk (arrOf s p n).obank1 lane0 (lane0 + 16) = true →
      Does (.residueSweep p n lane0 Flt.none) s (· = s)) ∧
  -- BANK_COMPLETE completes a streamed bank of PM 0 or 1.
  (∀ (s : State) (p n : Nat), p < 8 → n < 24 → arrLive s p n = true →
      (arrOf s p n).bank0.st = .streamed → (arrOf s p n).bank1.st ≠ .streamed → (arrOf s p n).bank0.pm ≤ 1 →
      Does (.bankComplete p n Flt.none) s fun t =>
        arrOf t p n = { arrOf s p n with bank0 := { (arrOf s p n).bank0 with st := .complete } }) ∧
  -- BANK_COMPLETE of a shadow bank (PM 3) that differs from the main bank stops the array with SHADOW_MIS.
  (∀ (s : State) (p n : Nat), p < 8 → n < 24 → arrLive s p n = true →
      (arrOf s p n).bank0.st = .streamed → (arrOf s p n).bank1.st ≠ .streamed → (arrOf s p n).bank0.pm = 3 →
      (arrOf s p n).bank0.lanes.map (fun e => (e.1, e.2.v)) ≠ (arrOf s p n).obank0.lanes.map (fun e => (e.1, e.2.v)) →
      Does (.bankComplete p n Flt.none) s fun t =>
        t.rd (R.PART_ARR_STAT.SHADOW_MIS p n) = 1 ∧ t.rd (R.PART_ARR_STAT.STATE p n) = US.STOPPED) ∧
  -- EMIT of a complete bank to the store writes the result's first 64 bytes where EMIT says, frees the bank and retires.
  (∀ (s : State) (p n x b : Nat), ArrAt s p n x → insOpc x = 2 → lastBank (arrOf s p n) = some b →
      ((arrOf s p n).bank b).st = .complete → ((arrOf s p n).bank b).pm = 0 → residueOk ((arrOf s p n).bank b) 0 16384 = true →
      emitJoin x = false → emitDk x = true → isCb (emitFmt x) = false → s.mem.errs = [] →
      Does (.emit p n Flt.none) s fun t => Retired s t p n ∧ ((arrOf t p n).bank b).st = .free ∧
        (∀ i < 64, byteAt t (storeBase p n + effSlot (arrOf s p n) (emitBsel x) (emitDst x) * 256 + i) = (emitBytes (arrOf s p n) b x).1.getD i 0)) ∧
  -- EMIT that joins holds the bank and retires.
  (∀ (s : State) (p n x b : Nat), ArrAt s p n x → insOpc x = 2 → lastBank (arrOf s p n) = some b →
      ((arrOf s p n).bank b).st = .complete → ((arrOf s p n).bank b).pm = 0 → residueOk ((arrOf s p n).bank b) 0 16384 = true →
      emitJoin x = true →
      Does (.emit p n Flt.none) s fun t => Retired s t p n ∧
        (arrOf t p n).bank b = { (arrOf s p n).bank b with held := true }) ∧
  -- LDCB of finite entries loads the codebook and its format.
  (∀ (s : State) (p n x : Nat), ArrAt s p n x → insOpc x = 4 → s.mem.errs = [] →
      cbBadEntry (ldcbFmt x) ((peek s (storeBase p n + effSlot (arrOf s p n) (ldcbBsel x) (ldcbSrc x) * 256) 256).take (cbEntBytes (ldcbFmt x))) = false →
      Does (.ldcb p n Flt.none) s fun t => Retired s t p n ∧ (arrOf t p n).cbFmt = some (ldcbFmt x) ∧
        (arrOf t p n).cbEnt = (peek s (storeBase p n + effSlot (arrOf s p n) (ldcbBsel x) (ldcbSrc x) * 256) 256).take (cbEntBytes (ldcbFmt x)))

/-- Array control, queue and rotation instructions complete. Array n of partition p stands at a legal instruction that it may run; it retires, unless said otherwise, with the effect given. Rests on 02_array_execution.md, 07_power_and_heat.md. -/
def Obligations.ArrayControlAndQueueInstructionsComplete : Prop :=
  -- SETSEED sets the random seed.
  (∀ (s : State) (p n x : Nat), ArrAt s p n x → insOpc x = 5 →
      Does (.setseed p n) s fun t => Retired s t p n ∧ (arrOf t p n).seed = BitVec.ofNat 64 x) ∧
  -- SETB sets base 0 or 1 and leaves the other.
  (∀ (s : State) (p n x : Nat), ArrAt s p n x → insOpc x = 6 →
      Does (.setb p n) s fun t => Retired s t p n ∧
        (if insN x = 0 then (arrOf t p n).b0 = BitVec.ofNat 13 x ∧ (arrOf t p n).b1 = (arrOf s p n).b1
         else (arrOf t p n).b1 = BitVec.ofNat 13 x ∧ (arrOf t p n).b0 = (arrOf s p n).b0)) ∧
  -- ADDB adds to base 0 or 1, modulo 2^13.
  (∀ (s : State) (p n x : Nat), ArrAt s p n x → insOpc x = 7 →
      Does (.addb p n) s fun t => Retired s t p n ∧
        (if insN x = 0 then (arrOf t p n).b0 = (arrOf s p n).b0 + BitVec.ofNat 13 x ∧ (arrOf t p n).b1 = (arrOf s p n).b1
         else (arrOf t p n).b1 = (arrOf s p n).b1 + BitVec.ofNat 13 x ∧ (arrOf t p n).b0 = (arrOf s p n).b0)) ∧
  -- SETLC sets loop counter 0 or 1.
  (∀ (s : State) (p n x : Nat), ArrAt s p n x → insOpc x = 8 →
      Does (.setlc p n) s fun t => Retired s t p n ∧
        (if insN x = 0 then (arrOf t p n).l0 = BitVec.ofNat 16 x ∧ (arrOf t p n).l1 = (arrOf s p n).l1
         else (arrOf t p n).l1 = BitVec.ofNat 16 x ∧ (arrOf t p n).l0 = (arrOf s p n).l0)) ∧
  -- LOOP counts down and goes to the target until the counter was 1.
  (∀ (s : State) (p n x : Nat), ArrAt s p n x → insOpc x = 9 →
      Does (.loop p n) s fun t => 
        (if insN x = 0 then (arrOf t p n).l0 = (arrOf s p n).l0 - 1 ∧ (arrOf t p n).l1 = (arrOf s p n).l1
         else (arrOf t p n).l1 = (arrOf s p n).l1 - 1 ∧ (arrOf t p n).l0 = (arrOf s p n).l0) ∧
        t.rd (R.PART_ARR_STAT.PC p n) =
          if (if insN x = 0 then (arrOf s p n).l0 else (arrOf s p n).l1) = 1 then (s.rd (R.PART_ARR_STAT.PC p n) + 1) % 4096 else insTarget x) ∧
  -- WAITQ pops and releases a published slot.
  (∀ (s : State) (p n x : Nat), ArrAt s p n x → insOpc x = 10 → 0 < qAvail s p (insQ x) →
      Quiet s (s.rd (R.PART_Q_ENDS.PROD p (insQ x))) →
      Does (.waitq p n) s fun t => Retired s t p n ∧ (queOf t p (insQ x)).rd = (queOf s p (insQ x)).rd + 1 ∧
        (queOf t p (insQ x)).rel = (queOf s p (insQ x)).rel + 1) ∧
  -- WAITQ on an empty queue waits, with WAIT_C.
  (∀ (s : State) (p n x : Nat), ArrAt s p n x → insOpc x = 10 → qAvail s p (insQ x) = 0 →
      Does (.waitq p n) s fun t => t.rd (R.PART_ARR_STAT.STATE p n) = US.WAIT_Q ∧ t.rd (R.PART_Q_OCC.WAIT_C p (insQ x)) = 1 ∧
        t.rd (R.PART_ARR_STAT.PC p n) = s.rd (R.PART_ARR_STAT.PC p n)) ∧
  -- POSTQ takes a credit and writes the literal into the next slot.
  (∀ (s : State) (p n x : Nat), ArrAt s p n x → insOpc x = 11 → 0 < s.rd (R.PART_Q_CREDIT.CREDIT p (insQ x)) → s.mem.errs = [] →
      Does (.postq p n) s fun t => Retired s t p n ∧ (queOf t p (insQ x)).wr = (queOf s p (insQ x)).wr + 1 ∧
        t.rd (R.PART_Q_CREDIT.CREDIT p (insQ x)) = s.rd (R.PART_Q_CREDIT.CREDIT p (insQ x)) - 1 ∧
        (∀ i < 4, byteAt t (qSlot s p (insQ x) (queOf s p (insQ x)).wr + i) = BitVec.ofNat 8 (fget x 32 32 / 256 ^ i))) ∧
  -- BRQ pops a slot and goes to its target where the first word is 0.
  (∀ (s : State) (p n x : Nat), ArrAt s p n x → insOpc x = 12 → 0 < qAvail s p (insQ x) → s.mem.errs = [] →
      Quiet s (s.rd (R.PART_Q_ENDS.PROD p (insQ x))) →
      Does (.brq p n Flt.none) s fun t =>
        t.rd (R.PART_ARR_STAT.PC p n) =
          (if leNat ((peek s (qSlot s p (insQ x) (queOf s p (insQ x)).rd) 256).take 4) = 0 then insTarget x
           else (s.rd (R.PART_ARR_STAT.PC p n) + 1) % 4096) ∧
        (queOf t p (insQ x)).rd = (queOf s p (insQ x)).rd + 1 ∧ (queOf t p (insQ x)).rel = (queOf s p (insQ x)).rel + 1) ∧
  -- JUMP goes to the target.
  (∀ (s : State) (p n x : Nat), ArrAt s p n x → insOpc x = 13 →
      Does (.jump p n) s fun t => t.rd (R.PART_ARR_STAT.PC p n) = insTarget x ∧ t.rd (R.PART_ARR_STAT.STATE p n) = US.RUN) ∧
  -- ROTPT goes into ROTATE where rotation is asked for, listed and possible, and retires otherwise.
  (∀ (s : State) (p n x : Nat), ArrAt s p n x → insOpc x = 14 →
      Does (.arrayRotpt p n) s fun t =>
        if (arrOf s p n).rotReq ∧ rotListed s (uidOf p 0 n) (s.rd (R.PART_ARR_STAT.PC p n)) ∧ rotPossible s (uidOf p 0 n) then
          t.rd (R.PART_ARR_STAT.STATE p n) = US.ROTATE ∧ t.rd (R.PART_ARR_STAT.PC p n) = s.rd (R.PART_ARR_STAT.PC p n)
        else Retired s t p n) ∧
  -- END posts to its end queue, frees the banks and idles.
  (∀ (s : State) (p n x : Nat), ArrAt s p n x → insOpc x = 63 → 0 < s.rd (R.PART_Q_CREDIT.CREDIT p (arrOf s p n).endQ) → s.mem.errs = [] →
      Does (.arrayEnd p n) s fun t => t.rd (R.PART_ARR_STAT.STATE p n) = US.IDLE ∧ (arrOf t p n).bank0 = Acc.free ∧ (arrOf t p n).bank1 = Acc.free ∧
        (queOf t p (arrOf s p n).endQ).wr = (queOf s p (arrOf s p n).endQ).wr + 1 ∧
        t.rd (R.PART_Q_CREDIT.CREDIT p (arrOf s p n).endQ) = s.rd (R.PART_Q_CREDIT.CREDIT p (arrOf s p n).endQ) - 1) ∧
  -- ROTATION_COMPLETE moves an array, or a pair, to possible physical places, retires ROTPT and gives full duty.
  (∀ (s : State) (p n phys phys2 : Nat), p < 8 → n < 24 → s.rd (R.PART_ARR_STAT.STATE p n) = US.ROTATE → phys < 64 →
      phys2 < 64 → n < 23 ∨ s.rd (R.PART_ARR_STAT.PAIR p n) ≠ 1 → rotTarget s (uidOf p 0 n) phys phys2 = true →
      Does (.rotationComplete (uidOf p 0 n) phys phys2) s fun t => t.rd (R.PART_TOP_ARRn.PHYS p n) = phys ∧
        (s.rd (R.PART_ARR_STAT.PAIR p n) = 1 → t.rd (R.PART_TOP_ARRn.PHYS p (n + 1)) = phys2 ∧ (arrOf t p (n + 1)).duty = 16) ∧ Retired s t p n ∧
        (arrOf t p n).duty = 16 ∧ (arrOf t p n).rotReq = false ∧ (arrOf t p n).rotAt = some s.clk.mono) ∧
  -- ROTATION_COMPLETE moves a core, which runs again.
  (∀ (s : State) (p g phys phys2 : Nat), p < 8 → g < 48 → s.rd (R.PART_CORE_STAT.STATE p g) = US.ROTATE → phys < 64 →
      rotTarget s (uidOf p 1 g) phys phys2 = true →
      Does (.rotationComplete (uidOf p 1 g) phys phys2) s fun t => t.rd (R.PART_TOP_COREg.PHYS p g) = phys ∧
        t.rd (R.PART_CORE_STAT.STATE p g) = US.RUN ∧ (coreOf t p g).rotReq = false ∧ (coreOf t p g).rotAt = some s.clk.mono)

/-- Queue slots, credits and the bramble monitor act as their rules say. Each command completes, under the conditions given, with the effect given. (Publishing and releasing are commands of their own: log entry 19.) Rests on 02_array_execution.md, 06_fazar_fabric.md. -/
def Obligations.QueueSlotsAndMonitorComplete : Prop :=
  -- SLOT_PUBLISH of a slot written by an array or streamer publishes it, raises OCC and ends the consumer's wait.
  (∀ (s : State) (p q : Nat), p < 8 → q < 1024 → s.rd (R.PART_Q_CFG.VALID p q) = 1 →
      uPart (s.rd (R.PART_Q_ENDS.PROD p q)) = p → (uKind (s.rd (R.PART_Q_ENDS.PROD p q)) = 0 ∨ uKind (s.rd (R.PART_Q_ENDS.PROD p q)) = 2) →
      s.rd (stFld (s.rd (R.PART_Q_ENDS.PROD p q))) ≠ US.INVALID → (queOf s p q).pub < (queOf s p q).wr →
      uKind (s.rd (R.PART_Q_ENDS.CONS p q)) ≠ 4 → Quiet s (s.rd (R.PART_Q_ENDS.PROD p q)) → Quiet s (s.rd (R.PART_Q_ENDS.CONS p q)) →
      Does (.slotPublish p q) s fun t => queOf t p q = { queOf s p q with pub := (queOf s p q).pub + 1 } ∧
        t.rd (R.PART_Q_OCC.OCC p q) = (s.rd (R.PART_Q_OCC.OCC p q) + 1) % 131072 ∧
        (s.rd (R.PART_Q_OCC.WAIT_C p q) = 1 → 0 < qAvail t p q → t.rd (R.PART_Q_OCC.WAIT_C p q) = 0)) ∧
  -- SLOT_PUBLISH to the energy gate by the last running unit completes the phase.
  (∀ (s : State) (p q c : Nat) (ph : Phase), p < 8 → q < 1024 → s.rd (R.PART_Q_CFG.VALID p q) = 1 →
      uPart (s.rd (R.PART_Q_ENDS.PROD p q)) = p → uKind (s.rd (R.PART_Q_ENDS.PROD p q)) = 2 →
      s.rd (stFld (s.rd (R.PART_Q_ENDS.PROD p q))) ≠ US.INVALID → (queOf s p q).pub < (queOf s p q).wr →
      uKind (s.rd (R.PART_Q_ENDS.CONS p q)) = 4 → unitCtx s (s.rd (R.PART_Q_ENDS.PROD p q)) = some c → phaseOf s c = some ph → ph.outcome = none →
      ph.units.all (fun u => ph.ended.contains u || u == s.rd (R.PART_Q_ENDS.PROD p q)) = true →
      Does (.slotPublish p q) s fun t => (phaseOf t c).bind (·.outcome) = some (S.COMPLETE, 0, 0, 0)) ∧
  -- SLOT_RELEASE lowers OCC and returns a credit: to PART_Q_CREDIT for a local producer, owed to a remote one.
  (∀ (s : State) (p q : Nat), p < 8 → q < 1024 → s.rd (R.PART_Q_CFG.VALID p q) = 1 →
      uPart (s.rd (R.PART_Q_ENDS.CONS p q)) = p → (uKind (s.rd (R.PART_Q_ENDS.CONS p q)) = 0 ∨ uKind (s.rd (R.PART_Q_ENDS.CONS p q)) = 2) →
      s.rd (stFld (s.rd (R.PART_Q_ENDS.CONS p q))) ≠ US.INVALID → (queOf s p q).rel < (queOf s p q).rd → 0 < s.rd (R.PART_Q_OCC.OCC p q) →
      Quiet s (s.rd (R.PART_Q_ENDS.PROD p q)) → Quiet s (s.rd (R.PART_Q_ENDS.CONS p q)) →
      Does (.slotRelease p q) s fun t => (queOf t p q).rel = (queOf s p q).rel + 1 ∧
        t.rd (R.PART_Q_OCC.OCC p q) = s.rd (R.PART_Q_OCC.OCC p q) - 1 ∧
        (if s.rd (R.PART_Q_CFG.REMOTE p q) = 0 then t.rd (R.PART_Q_CREDIT.CREDIT p q) = (s.rd (R.PART_Q_CREDIT.CREDIT p q) + 1) % 131072
         else (queOf t p q).owed = (queOf s p q).owed + 1 ∧ t.rd (R.PART_Q_CREDIT.CREDIT p q) = s.rd (R.PART_Q_CREDIT.CREDIT p q))) ∧
  -- CREDIT_BATCH_RETURN gives the owed credits to the queue's other end in this module, a batch below 8 not before 2 us.
  (∀ (s : State) (p q : Nat), p < 8 → q < 1024 → 0 < (queOf s p q).owed → (queOf s p q).farFa = 0 →
      (queOf s p q).farP < 8 → (queOf s p q).farQ < 1024 →
      s.rd (R.PART_Q_CFG.VALID (queOf s p q).farP (queOf s p q).farQ) = 1 →
      Quiet s (s.rd (R.PART_Q_ENDS.PROD (queOf s p q).farP (queOf s p q).farQ)) → Quiet s (s.rd (R.PART_Q_ENDS.CONS (queOf s p q).farP (queOf s p q).farQ)) →
      Does (.creditBatchReturn p q) s fun t => (queOf t p q).owed = 0 ∧
        t.rd (R.PART_Q_CREDIT.CREDIT (queOf s p q).farP (queOf s p q).farQ) =
          (s.rd (R.PART_Q_CREDIT.CREDIT (queOf s p q).farP (queOf s p q).farQ) + (queOf s p q).owed) % 131072 ∧
        ((queOf s p q).owed < 8 → tget 0 s.clk.seen (K.credit p q) + 2000 ≤ t.clk.mono)) ∧
  -- To another module it sends one CREDIT packet.
  (∀ (s : State) (p q : Nat), p < 8 → q < 1024 → 0 < (queOf s p q).owed → 0 < (queOf s p q).farFa →
      (queOf s p q).farFa < 0xF0000 →
      Does (.creditBatchReturn p q) s fun t => (queOf t p q).owed = 0 ∧
        t.fab.toSend = s.fab.toSend ++ [mkPkt 2 (queOf s p q).farFa (queOf s p q).och 0 0 0
          ((queOf s p q).farP * 2 ^ 26 + (queOf s p q).farQ * 2 ^ 16 + (queOf s p q).owed % 65536) []]) ∧
  -- NI_SLOT_SEND takes the oldest slot of a staging queue and lines one QSLOT packet up on its stream, not yet granted.
  (∀ (s : State) (p q : Nat), p < 8 → q < 1024 → isStaging s p q = true → 0 < qAvail s p q → s.mem.errs = [] →
      (queOf s p q).farFa < 0xF0000 → (findOut s (queOf s p q).farFa (queOf s p q).och).map (·.st) = some 0 → 0 < (queOf s p q).farFa →
      0 < s.rd (R.PART_Q_OCC.OCC p q) →
      Does (.niSlotSend p q Flt.none) s fun t =>
        queOf t p q = { queOf s p q with rd := (queOf s p q).rd + 1, rel := (queOf s p q).rel + 1 } ∧
        t.rd (R.PART_Q_OCC.OCC p q) = s.rd (R.PART_Q_OCC.OCC p q) - 1 ∧
        (findOut t (queOf s p q).farFa (queOf s p q).och).map (·.waiting) =
          (findOut s (queOf s p q).farFa (queOf s p q).och).map (fun x => x.waiting ++ [mkPkt 1 (queOf s p q).farFa (queOf s p q).och (queOf s p q).farP
            (queOf s p q).farQ 0 ((queOf s p q).rd % 65536) (peek s (qSlot s p q (queOf s p q).rd) 256)])) ∧
  -- BRAMBLE_SAMPLE each microsecond ages the wait edges.
  (∀ s : State, (∀ p < 8, s.rd (R.PART_BRM_CTL.EN p) = 0) →
      Does .brambleSample s fun t => t.watch.edges = ageEdges s.watch.edges (edgesNow s) ∧
        tget 0 s.clk.seen K.bramble + 1000 ≤ t.clk.mono ∧ tget 0 t.clk.seen K.bramble = t.clk.mono) ∧
  -- A new cycle in one partition is reported: CYCLE, LEN and the first word of PART_BRM_RPT.
  (∀ (s : State) (p : Nat) (c : List Edge), p < 8 → s.rd (R.PART_BRM_STAT.CYCLE p) = 0 → c.length < 29 → c ≠ [] →
      s.rd R.RST_ESC_CFG.BRM_ACT = 0 →
      (∀ x < 8, cyclesOf { s with watch := { s.watch with edges := ageEdges s.watch.edges (edgesNow s) } } x = if x = p then [c] else []) →
      s.watch.told.contains (c.map Edge.word) = false →
      Does .brambleSample s fun t => t.rd (R.PART_BRM_STAT.CYCLE p) = 1 ∧ t.rd (R.PART_BRM_STAT.LEN p) = c.length ∧
        t.rd (R.PART_BRM_RPT.WORD p 0) = (reportWords s c).headD 0 % 2 ^ 32 ∧ t.watch.told.contains (c.map Edge.word) = true) ∧
  -- BRAMBLE_ACTION after BRM_MS fails the named running phase with ABORTED, RESET (a phase that has already ended is left alone; OPID and slot must agree).
  (∀ (s : State) (slot opid at_ : Nat) (ph : Phase), slot < 64 → s.watch.due = [(slot, opid, at_)] → phaseOf s slot = some ph →
      ph.opid = opid → ph.outcome = none → opid < 2 ^ 32 → serving s = true → s.ctl.rungs = [] →
      Does (.brambleAction slot opid) s fun t => t.watch.due = [] ∧ at_ + 1000000 * s.rd R.RST_ESC_CFG.BRM_MS ≤ t.clk.mono ∧
        (phaseOf t slot).bind (·.outcome) = some (S.ABORTED, D.RESET, 0, 0))

/-- Streamer descriptors move their rows and slope requests are granted. Streamer k stands at a legal descriptor with one repetition and no queue wait unless said; it is done, DESC one on, with the effect given. Spans are plain: mapped, outside the vault, no failed channel. Rests on 02_array_execution.md, 07_power_and_heat.md. -/
def Obligations.StreamerDescriptorsComplete : Prop :=
  -- NOP is done at once.
  (∀ (s : State) (p k : Nat) (d : SDesc), StrAt s p k d → d.opc = 0 → d.reps = 1 → d.preEn = false → d.postEn = false → d.dstKind = 0 →
      s.vlt.waiting.contains (strKey (uidOf p 2 k)) = false →
      Does (.streamerNop p k) s (DescDone s · p k)) ∧
  -- COPY of one row copies its bytes.
  (∀ (s : State) (p k : Nat) (d : SDesc), StrAt s p k d → d.opc = 1 → d.reps = 1 → d.preEn = false → d.postEn = false →
      d.srcKind = 0 → d.dstKind = 0 → d.rows = 1 → 0 < d.rowBytes → PlainSpan s d.src d.rowBytes → PlainSpan s d.dst d.rowBytes →
      s.vlt.waiting.contains (strKey (uidOf p 2 k)) = false →
      Does (.streamerCopy p k Flt.none) s fun t => DescDone s t p k ∧
        ∀ i < d.rowBytes, byteAt t (d.dst + i) = (peek s d.src d.rowBytes).getD i 0) ∧
  -- COPY from the zero source writes zeros.
  (∀ (s : State) (p k : Nat) (d : SDesc), StrAt s p k d → d.opc = 1 → d.reps = 1 → d.preEn = false → d.postEn = false →
      d.srcKind = 2 → d.dstKind = 0 → d.rows = 1 → 0 < d.rowBytes → PlainSpan s d.dst d.rowBytes →
      s.vlt.waiting.contains (strKey (uidOf p 2 k)) = false →
      Does (.streamerCopy p k Flt.none) s fun t => DescDone s t p k ∧ ∀ i < d.rowBytes, byteAt t (d.dst + i) = 0) ∧
  -- GATHER of one index copies the indexed row to the destination and pops the index slot.
  (∀ (s : State) (p k a : Nat) (d : SDesc) (e : Nat) (r : List Nat), StrAt s p k d → d.opc = 2 → d.reps = 1 → d.preEn = false →
      d.postEn = false → d.dstKind = 0 → 0 < d.rows → 0 < d.rowBytes → 0 < qAvail s p d.idxQ →
      idxEntries (peek s (qSlot s p d.idxQ (queOf s p d.idxQ).rd) 256) = e :: IX.END :: r → e < IX.PAD → (d.idxLimit = 0 ∨ e < d.idxLimit) →
      strAddr d.src e d.srcStride = some a → PlainSpan s a d.rowBytes → PlainSpan s d.dst d.rowBytes →
      s.vlt.waiting.contains (strKey (uidOf p 2 k)) = false →
      Does (.gather p k Flt.none) s fun t => DescDone s t p k ∧
        (queOf t p d.idxQ).rd = (queOf s p d.idxQ).rd + 1 ∧ ∀ i < d.rowBytes, byteAt t (d.dst + i) = (peek s a d.rowBytes).getD i 0) ∧
  -- SCATTER of one index copies the row to the indexed destination and pops the index slot.
  (∀ (s : State) (p k a : Nat) (d : SDesc) (e : Nat) (r : List Nat), StrAt s p k d → d.opc = 3 → d.reps = 1 → d.preEn = false →
      d.postEn = false → d.srcKind = 0 → 0 < d.rows → 0 < d.rowBytes → 0 < qAvail s p d.idxQ →
      idxEntries (peek s (qSlot s p d.idxQ (queOf s p d.idxQ).rd) 256) = e :: IX.END :: r → e < IX.PAD → (d.idxLimit = 0 ∨ e < d.idxLimit) →
      strAddr d.dst e d.dstStride = some a → PlainSpan s d.src d.rowBytes → PlainSpan s a d.rowBytes →
      isVault d.dst = false →
      s.vlt.waiting.contains (strKey (uidOf p 2 k)) = false →
      Does (.scatter p k Flt.none) s fun t => DescDone s t p k ∧
        (queOf t p d.idxQ).rd = (queOf s p d.idxQ).rd + 1 ∧ ∀ i < d.rowBytes, byteAt t (a + i) = (peek s d.src d.rowBytes).getD i 0) ∧
  -- PGATHER of one index copies the indexed lane into lane 0 of the panel.
  (∀ (s : State) (p k a : Nat) (d : SDesc) (e : Nat) (r : List Nat), StrAt s p k d → d.opc = 4 → d.reps = 1 → d.preEn = false →
      d.postEn = false → d.dstKind = 0 → d.np = 1 → hasScale d.fmt = false → 0 < qAvail s p d.idxQ →
      idxEntries (peek s (qSlot s p d.idxQ (queOf s p d.idxQ).rd) 256) = e :: IX.END :: r → e < IX.PAD → (d.idxLimit = 0 ∨ e < d.idxLimit) →
      strAddr d.src (e / 128) d.srcStride = some a → PlainSpan s (a + e % 128 * laneBytes d.fmt) (laneBytes d.fmt) →
      PlainSpan s d.dst (panelBytes d.fmt) → d.dst < 2 ^ 56 → s.vlt.waiting.contains (strKey (uidOf p 2 k)) = false →
      Does (.pgather p k Flt.none) s fun t => DescDone s t p k ∧
        ∀ i < laneBytes d.fmt, byteAt t (d.dst + i) = (peek s (a + e % 128 * laneBytes d.fmt) (laneBytes d.fmt)).getD i 0) ∧
  -- PSCATTER of one index copies lane 0 of the panel to the indexed lane.
  (∀ (s : State) (p k a : Nat) (d : SDesc) (e : Nat) (r : List Nat), StrAt s p k d → d.opc = 5 → d.reps = 1 → d.preEn = false →
      d.postEn = false → d.srcKind = 0 → d.np = 1 → hasScale d.fmt = false → 0 < qAvail s p d.idxQ →
      idxEntries (peek s (qSlot s p d.idxQ (queOf s p d.idxQ).rd) 256) = e :: IX.END :: r → e < IX.PAD → (d.idxLimit = 0 ∨ e < d.idxLimit) →
      strAddr d.dst (e / 128) d.dstStride = some a → PlainSpan s (a + e % 128 * laneBytes d.fmt) (laneBytes d.fmt) →
      PlainSpan s d.src (panelBytes d.fmt) → d.src < 2 ^ 56 → s.vlt.waiting.contains (strKey (uidOf p 2 k)) = false →
      Does (.pscatter p k Flt.none) s fun t => DescDone s t p k ∧
        ∀ i < laneBytes d.fmt, byteAt t (a + e % 128 * laneBytes d.fmt + i) = (panelLane d.fmt (peek s d.src (panelBytes d.fmt)) 0).getD i 0) ∧
  -- SYNC with POST takes a credit and writes the unit identifier and descriptor number into the slot.
  (∀ (s : State) (p k : Nat) (d : SDesc), StrAt s p k d → d.opc = 6 → d.reps = 1 → d.preEn = false → d.postEn = true → d.dstKind = 0 →
      0 < s.rd (R.PART_Q_CREDIT.CREDIT p d.postQ) → s.vlt.waiting.contains (strKey (uidOf p 2 k)) = false →
      Does (.sync p k) s fun t => DescDone s t p k ∧ (queOf t p d.postQ).wr = (queOf s p d.postQ).wr + 1 ∧
        t.rd (R.PART_Q_CREDIT.CREDIT p d.postQ) = s.rd (R.PART_Q_CREDIT.CREDIT p d.postQ) - 1 ∧
        ∀ i < 4, byteAt t (qSlot s p d.postQ (queOf s p d.postQ).wr + i) = BitVec.ofNat 8 ((uidOf p 2 k + s.rd (R.PART_STR_STAT.DESC p k) * 65536) / 256 ^ i)) ∧
  -- SYNC with PRE on an empty queue waits.
  (∀ (s : State) (p k : Nat) (d : SDesc), StrAt s p k d → d.opc = 6 → d.preEn = true → qAvail s p d.preQ = 0 →
      Does (.sync p k) s fun t => t.rd (R.PART_STR_STAT.STATE p k) = US.WAIT_Q ∧ t.rd (R.PART_Q_OCC.WAIT_C p d.preQ) = 1 ∧
        t.rd (R.PART_STR_STAT.DESC p k) = s.rd (R.PART_STR_STAT.DESC p k)) ∧
  -- END posts to the end queue and idles.
  (∀ (s : State) (p k : Nat) (d : SDesc), StrAt s p k d → d.opc = 63 → d.preEn = false → d.postEn = false →
      0 < s.rd (R.PART_Q_CREDIT.CREDIT p (strOf s p k).endQ) →
      Does (.streamerEnd p k) s fun t => t.rd (R.PART_STR_STAT.STATE p k) = US.IDLE ∧ (strOf t p k).run = StrRun.init ∧
        (queOf t p (strOf s p k).endQ).wr = (queOf s p (strOf s p k).endQ).wr + 1 ∧
        t.rd (R.PART_Q_CREDIT.CREDIT p (strOf s p k).endQ) = s.rd (R.PART_Q_CREDIT.CREDIT p (strOf s p k).endQ) - 1) ∧
  -- SLOPE_GRANT lets the first waiting array's slope start.
  (∀ (s : State) (key : Nat) (r : List (Nat × Bool)), key < 96 → s.pw.grant0 = (key, true) :: r →
      (tget Arr.init s.arrs key).slope = .wantStart → s.rd (R.PART_ARR_STAT.PAIR (key / 24) (key % 24)) = 0 →
      Quiet s (uidOf (key / 24) 0 (key % 24)) →
      Does (.slopeGrant 0) s fun t => t.pw.grant0 = r ∧ (tget Arr.init t.arrs key).slope = .active) ∧
  -- SLOPE_GRANT ends a filler's slope.
  (∀ (s : State) (key : Nat) (r : List (Nat × Bool)), s.pw.grant1 = (key, false) :: r →
      (tget Arr.init s.arrs key).slope = .filler →
      Does (.slopeGrant 1) s fun t => t.pw.grant1 = r ∧ (tget Arr.init t.arrs key).slope = .idle)

/-- General core register, memory and vector instructions commit. General core g runs and its fetch is clean; the instruction commits, the PC one on unless said, with x0 left 0, and the effect given. Operand addresses map and hold no memory error. Rests on 03_general_cores_and_interrupts.md. -/
def Obligations.CoreOperationsComplete : Prop :=
  -- An integer operation commits its result (operands whose result the spec does not state apart).
  (∀ (s : State) (p g : Nat) (op : AluOp) (d a b : Nat), CoreAt s p g → d < 32 → a < 32 → b < 32 → aluOpen op ((coreOf s p g).getX b) = false →
      Does (.ewcInstruction p g (.alu op d a b) Flt.none) s fun t => Committed s t p g ∧ XReads (coreOf t p g) d (aluOp op ((coreOf s p g).getX a) ((coreOf s p g).getX b) 0)) ∧
  -- An operation whose result the spec does not state draws the next free value (log entry 4) and leaves every other register.
  (∀ (s : State) (p g : Nat) (op : AluOp) (d a b : Nat), CoreAt s p g → d < 32 → a < 32 → b < 32 → aluOpen op ((coreOf s p g).getX b) = true →
      Does (.ewcInstruction p g (.alu op d a b) Flt.none) s fun t => Committed s t p g ∧ t.clk.free = s.clk.free + 1 ∧ ∀ r < 32, r ≠ d → (coreOf t p g).getX r = (coreOf s p g).getX r) ∧
  -- Load immediate commits its value.
  (∀ (s : State) (p g : Nat) (d : Nat) (v : BitVec 64), CoreAt s p g → d < 32 →
      Does (.ewcInstruction p g (.li d v) Flt.none) s fun t => Committed s t p g ∧ XReads (coreOf t p g) d v) ∧
  -- A load of 1, 2, 4 or 8 bytes commits the little-endian bytes, zero-extended.
  (∀ (s : State) (p g : Nat) (d a len m : Nat) (off : Int), CoreAt s p g → d < 32 → a < 32 → (len = 1 ∨ len = 2 ∨ len = 4 ∨ len = 8) → s.mem.errs = [] →
      coreAddr p g (effAddr (coreOf s p g) a off) len = some m →
      Does (.ewcInstruction p g (.load d a off len) Flt.none) s fun t => Committed s t p g ∧ XReads (coreOf t p g) d (BitVec.ofNat 64 (leNat (peek s m len)))) ∧
  -- A store writes the register's low bytes.
  (∀ (s : State) (p g : Nat) (x a len m : Nat) (off : Int), CoreAt s p g → x < 32 → a < 32 → (len = 1 ∨ len = 2 ∨ len = 4 ∨ len = 8) → s.mem.errs = [] →
      coreAddr p g (effAddr (coreOf s p g) a off) len = some m →
      Does (.ewcInstruction p g (.store x a off len) Flt.none) s fun t => Committed s t p g ∧ 
        ∀ i < len, byteAt t (m + i) = BitVec.ofNat 8 (((coreOf s p g).getX x).toNat / 256 ^ i)) ∧
  -- A vector load commits 64 bytes.
  (∀ (s : State) (p g : Nat) (d a m : Nat) (off : Int), CoreAt s p g → d < 32 → a < 32 → s.mem.errs = [] → coreAddr p g (effAddr (coreOf s p g) a off) 64 = some m →
      Does (.ewcInstruction p g (.vload d a off) Flt.none) s fun t => Committed s t p g ∧ (coreOf t p g).getV d = BitVec.ofNat 512 (leNat (peek s m 64))) ∧
  -- A vector store writes 64 bytes.
  (∀ (s : State) (p g : Nat) (x a m : Nat) (off : Int), CoreAt s p g → x < 32 → a < 32 → s.mem.errs = [] → coreAddr p g (effAddr (coreOf s p g) a off) 64 = some m →
      Does (.ewcInstruction p g (.vstore x a off) Flt.none) s fun t => Committed s t p g ∧ 
        ∀ i < 64, byteAt t (m + i) = BitVec.ofNat 8 (((coreOf s p g).getV x).toNat / 256 ^ i)) ∧
  -- A vector operation commits its lanes.
  (∀ (s : State) (p g : Nat) (op : VOp) (ty : VTy) (rtz : Bool) (d a b e : Nat), CoreAt s p g → d < 32 → a < 32 → b < 32 → e < 32 →
      Does (.ewcInstruction p g (.vop op ty rtz d a b e) Flt.none) s fun t => Committed s t p g ∧ 
        (coreOf t p g).getV d = vOp op ty (rndMode rtz) ((coreOf s p g).getV a) ((coreOf s p g).getV b) ((coreOf s p g).getV e)) ∧
  -- A vector reduction commits its result.
  (∀ (s : State) (p g : Nat) (ty : VTy) (rtz : Bool) (d a : Nat), CoreAt s p g → d < 32 → a < 32 →
      Does (.ewcInstruction p g (.vred ty rtz d a) Flt.none) s fun t => Committed s t p g ∧ (coreOf t p g).getV d = vRed ty (rndMode rtz) ((coreOf s p g).getV a)) ∧
  -- A vector conversion commits its lanes.
  (∀ (s : State) (p g : Nat) (src dst : VTy) (rtz : Bool) (d a : Nat), CoreAt s p g → d < 32 → a < 32 → s.clk.free < 2 ^ 64 →
      (∀ k < min (vLanes src) (vLanes dst), (vCvtLane src dst (rndMode rtz) (laneOf src ((coreOf s p g).getV a) k)).isSome = true) →
      Does (.ewcInstruction p g (.vcvt src dst rtz d a) Flt.none) s fun t => Committed s t p g ∧ (coreOf t p g).getV d = ofLanes (vBits dst) ((List.range (min (vLanes src) (vLanes dst))).map fun k =>
          (vCvtLane src dst (rndMode rtz) (laneOf src ((coreOf s p g).getV a) k)).getD 0)) ∧
  -- An unpack commits the lanes of the packed elements, of plain and of codebook formats.
  (∀ (s : State) (p g : Nat) (f : Nat) (rtz : Bool) (d a b x : Nat), CoreAt s p g → d < 32 → a < 32 → b < 32 → x < 32 → packFmt f = true →
      Does (.ewcInstruction p g (.vunpack f rtz d a b x) Flt.none) s fun t => Committed s t p g ∧
        (coreOf t p g).getV d = vUnpack f (rndMode rtz) ((coreOf s p g).getV a) ((coreOf s p g).getV b) ((coreOf s p g).getX x).toNat) ∧
  -- A pack commits the packed elements (of a scale byte 0xFF the lanes are free: log entry 12).
  (∀ (s : State) (p g : Nat) (f : Nat) (rtz : Bool) (d a b x : Nat), CoreAt s p g → d < 32 → a < 32 → b < 32 → x < 32 → packFmt f = true →
      Does (.ewcInstruction p g (.vpack f rtz d a b x) Flt.none) s fun t => Committed s t p g ∧
        (packScaled f = false ∨ ((coreOf s p g).getX x).toNat % 256 ≠ 255 → (coreOf t p g).getV d =
          vPack f (rndMode rtz) ((coreOf s p g).getV a) ((coreOf s p g).getV b) ((coreOf s p g).getX x).toNat)) ∧
  -- A branch goes to its target where it is taken and on otherwise.
  (∀ (s : State) (p g : Nat) (op : BrOp) (a b tgt : Nat), CoreAt s p g → a < 32 → b < 32 → tgt < 65536 →
      Does (.ewcInstruction p g (.br op a b tgt) Flt.none) s fun t => t.rd (R.PART_CORE_STAT.STATE p g) = US.RUN ∧ t.rd (R.PART_CORE_STAT.PC p g) =
        if brTaken op ((coreOf s p g).getX a) ((coreOf s p g).getX b) then tgt else s.rd (R.PART_CORE_STAT.PC p g) + 1) ∧
  -- An illegal instruction stops the core with ILLEGAL.
  (∀ (s : State) (p g : Nat), CoreAt s p g →
      Does (.ewcInstruction p g .illegal Flt.none) s fun t => t.rd (R.PART_CORE_STAT.ILLEGAL p g) = 1 ∧ t.rd (R.PART_CORE_STAT.STATE p g) = US.STOPPED)

/-- General core CSR, interrupt, mailbox and rotation instructions commit. General core g runs and its fetch is clean; the instruction commits, unless said, with the effect given. Rests on 03_general_cores_and_interrupts.md. -/
def Obligations.CoreSystemInstructionsComplete : Prop :=
  -- CSRR commits the CSR's value.
  (∀ (s : State) (p g : Nat) (d csr : Nat) (v : BitVec 64), CoreAt s p g → d < 32 → csrVal s p g csr = some v →
      Does (.csrr p g d csr Flt.none) s fun t => Committed s t p g ∧ XReads (coreOf t p g) d v) ∧
  -- CSRW commits, and where the CSR holds it writes pending and mask bits, IVBASE (4 KiB aligned), EPC and the timers' compare values, arming them.
  (∀ (s : State) (p g : Nat) (csr x : Nat), CoreAt s p g → x < 32 → (csrVal s p g csr).isSome = true →
      Does (.csrw p g csr x Flt.none) s fun t => Committed s t p g ∧
        (csr = 0x010 → t.rd (R.PART_CORE_IPENDm.PEND p g 0) = ((coreOf s p g).getX x).toNat % 2 ^ 32 ∧ t.rd (R.PART_CORE_IPENDm.PEND p g 1) = ((coreOf s p g).getX x).toNat / 2 ^ 32) ∧
        (csr = 0x011 → t.rd (R.PART_CORE_IPENDm.PEND p g 2) = ((coreOf s p g).getX x).toNat % 2 ^ 32 ∧ t.rd (R.PART_CORE_IPENDm.PEND p g 3) = ((coreOf s p g).getX x).toNat / 2 ^ 32) ∧
        (csr = 0x012 → t.rd (R.PART_CORE_IMASKm.MASK p g 0) = ((coreOf s p g).getX x).toNat % 2 ^ 32 ∧ t.rd (R.PART_CORE_IMASKm.MASK p g 1) = ((coreOf s p g).getX x).toNat / 2 ^ 32) ∧
        (csr = 0x013 → t.rd (R.PART_CORE_IMASKm.MASK p g 2) = ((coreOf s p g).getX x).toNat % 2 ^ 32 ∧ t.rd (R.PART_CORE_IMASKm.MASK p g 3) = ((coreOf s p g).getX x).toNat / 2 ^ 32) ∧
        (csr = 0x016 → (coreOf t p g).ivbase = BitVec.ofNat 64 (((coreOf s p g).getX x).toNat / 4096 * 4096)) ∧
        (csr = 0x018 → (coreOf t p g).epc = (coreOf s p g).getX x) ∧
        (csr = 0x021 → (coreOf t p g).tcmp0 = (coreOf s p g).getX x ∧ (coreOf t p g).arm0 = true ∧ (coreOf t p g).fired0 = false) ∧
        (csr = 0x022 → (coreOf t p g).tcmp1 = (coreOf s p g).getX x ∧ (coreOf t p g).arm1 = true ∧ (coreOf t p g).fired1 = false)) ∧
  -- CSRR of an absent CSR stops the core with ILLEGAL.
  (∀ (s : State) (p g : Nat) (d csr : Nat), CoreAt s p g → d < 32 → csrVal s p g csr = none →
      Does (.csrr p g d csr Flt.none) s fun t => t.rd (R.PART_CORE_STAT.ILLEGAL p g) = 1 ∧ t.rd (R.PART_CORE_STAT.STATE p g) = US.STOPPED) ∧
  -- EI enables interrupts.
  (∀ (s : State) (p g : Nat), CoreAt s p g →
      Does (.ei p g Flt.none) s fun t => Committed s t p g ∧ (coreOf t p g).ie = true) ∧
  -- DI disables them.
  (∀ (s : State) (p g : Nat), CoreAt s p g →
      Does (.di p g Flt.none) s fun t => Committed s t p g ∧ (coreOf t p g).ie = false) ∧
  -- IRET goes back to EPC out of the handler and shields one instruction.
  (∀ (s : State) (p g : Nat), CoreAt s p g → (coreOf s p g).epc.toNat % 4 = 0 → (coreOf s p g).epc.toNat < 262144 →
      Does (.iret p g Flt.none) s fun t => t.rd (R.PART_CORE_STAT.PC p g) = (coreOf s p g).epc.toNat / 4 ∧ t.rd (R.PART_CORE_STAT.INH p g) = 0 ∧
        t.rd (R.PART_CORE_STAT.STATE p g) = US.RUN ∧ (coreOf t p g).shield = true) ∧
  -- WFI goes on and waits.
  (∀ (s : State) (p g : Nat), CoreAt s p g →
      Does (.wfi p g Flt.none) s fun t => t.rd (R.PART_CORE_STAT.PC p g) = s.rd (R.PART_CORE_STAT.PC p g) + 1 ∧ t.rd (R.PART_CORE_STAT.STATE p g) = US.WFI) ∧
  -- MBOXW writes a core's mailbox and sets MBOX_OVR on an unread value.
  (∀ (s : State) (p g : Nat) (tgt n x : Nat), CoreAt s p g → tgt < 48 → n < 4 → x < 32 →
      Does (.mboxw p g tgt n x Flt.none) s fun t => Committed s t p g ∧ t.rd (R.PART_CORE_MBOXn.VALUE p tgt n) = ((coreOf s p g).getX x).toNat % 2 ^ 32 ∧
        (s.rd (R.PART_CORE_MBOXn.VALUE p tgt n) ≠ 0 → t.rd (R.PART_CORE_MISC.MBOX_OVR p tgt) = 1)) ∧
  -- MBOXR reads and clears the core's own mailbox.
  (∀ (s : State) (p g : Nat) (d n : Nat), CoreAt s p g → d < 32 → n < 4 →
      Does (.mboxr p g d n Flt.none) s fun t => Committed s t p g ∧ XReads (coreOf t p g) d (BitVec.ofNat 64 (s.rd (R.PART_CORE_MBOXn.VALUE p g n))) ∧
        t.rd (R.PART_CORE_MBOXn.VALUE p g n) = 0) ∧
  -- ROTPT goes into ROTATE outside a handler where rotation is asked for, listed and possible, and commits otherwise.
  (∀ (s : State) (p g : Nat), CoreAt s p g →
      Does (.coreRotpt p g Flt.none) s fun t => 
        if (coreOf s p g).rotReq ∧ s.rd (R.PART_CORE_STAT.INH p g) = 0 ∧ rotListed s (uidOf p 1 g) (s.rd (R.PART_CORE_STAT.PC p g)) ∧ rotPossible s (uidOf p 1 g) then
          t.rd (R.PART_CORE_STAT.STATE p g) = US.ROTATE ∧ t.rd (R.PART_CORE_STAT.PC p g) = s.rd (R.PART_CORE_STAT.PC p g)
        else Committed s t p g) ∧
  -- END posts to the end queue and idles.
  (∀ (s : State) (p g : Nat), CoreAt s p g → s.mem.errs = [] → 0 < s.rd (R.PART_Q_CREDIT.CREDIT p (coreOf s p g).endQ) →
      Does (.coreEnd p g Flt.none) s fun t => t.rd (R.PART_CORE_STAT.STATE p g) = US.IDLE ∧
        (queOf t p (coreOf s p g).endQ).wr = (queOf s p (coreOf s p g).endQ).wr + 1 ∧
        (queOf t p (coreOf s p g).endQ).pub = (queOf s p (coreOf s p g).endQ).pub + 1) ∧
  -- INTERRUPT_ENTRY takes the lowest open source: EPC, ICAUSE, INH, and the PC at IVBASE + 32 x source.
  (∀ (s : State) (p g i : Nat), CoreAt s p g → lowBit (irqOpen s p g) 128 0 = some i → (coreOf s p g).ie = true →
      s.rd (R.PART_CORE_STAT.INH p g) = 0 → (coreOf s p g).shield = false → (coreOf s p g).ivbase.toNat + 32 * i < 262144 →
      Does (.interruptEntry p g Flt.none) s fun t => t.rd (R.PART_CORE_STAT.PC p g) = ((coreOf s p g).ivbase.toNat + 32 * i) / 4 ∧
        (coreOf t p g).epc = BitVec.ofNat 64 (4 * s.rd (R.PART_CORE_STAT.PC p g)) ∧ t.rd (R.PART_CORE_STAT.ICAUSE p g) = i ∧
        t.rd (R.PART_CORE_STAT.INH p g) = 1 ∧ t.rd (R.PART_CORE_STAT.STATE p g) = US.RUN) ∧
  -- TIMER_FIRE of an armed timer fires it at its compare time and disarms it.
  (∀ (s : State) (p g n : Nat), p < 8 → g < 48 → n < 2 → (if n = 0 then (coreOf s p g).arm0 else (coreOf s p g).arm1) = true →
      Does (.timerFire p g n) s fun t => (if n = 0 then (coreOf t p g).fired0 = true ∧ (coreOf t p g).arm0 = false else (coreOf t p g).fired1 = true ∧ (coreOf t p g).arm1 = false) ∧
        t.clk.time.toNat = max s.clk.time.toNat (if n = 0 then (coreOf s p g).tcmp0.toNat else (coreOf s p g).tcmp1.toNat) ∧
        fget (t.rd (R.PART_CORE_ISTATm.STAT p g 0)) (1 + n) 1 = 1)

/-- General core queue instructions commit or wait. General core g, an end of queue q as the instruction needs, runs the instruction; it commits, unless it waits, with the effect given. Rests on 02_array_execution.md, 03_general_cores_and_interrupts.md. -/
def Obligations.CoreQueueInstructionsComplete : Prop :=
  -- QWAIT pops a slot's address.
  (∀ (s : State) (p g : Nat) (d q : Nat), CoreAt s p g → d < 32 → q < 1024 → isCons s p q (uidOf p 1 g) = true → (coreOf s p g).popped = [] → 0 < qAvail s p q →
      Does (.qwait p g d q Flt.none) s fun t => Committed s t p g ∧ XReads (coreOf t p g) d (BitVec.ofNat 64 (qSlot s p q (queOf s p q).rd)) ∧
        (coreOf t p g).popped = [q] ∧ queOf t p q = { queOf s p q with rd := (queOf s p q).rd + 1 }) ∧
  -- QWAIT on an empty queue waits, with WAIT_C.
  (∀ (s : State) (p g : Nat) (d q : Nat), CoreAt s p g → d < 32 → q < 1024 → isCons s p q (uidOf p 1 g) = true → (coreOf s p g).popped = [] → qAvail s p q = 0 →
      Does (.qwait p g d q Flt.none) s fun t => t.rd (R.PART_CORE_STAT.STATE p g) = US.WAIT_Q ∧
        t.rd (R.PART_Q_OCC.WAIT_C p q) = 1 ∧ t.rd (R.PART_CORE_STAT.PC p g) = s.rd (R.PART_CORE_STAT.PC p g)) ∧
  -- QPOLL pops, or reads 0 on an empty queue.
  (∀ (s : State) (p g : Nat) (d q : Nat), CoreAt s p g → d < 32 → q < 1024 → isCons s p q (uidOf p 1 g) = true → (coreOf s p g).popped = [] →
      Does (.qpoll p g d q Flt.none) s fun t => Committed s t p g ∧
        if qAvail s p q = 0 then XReads (coreOf t p g) d 0 ∧ queOf t p q = queOf s p q else XReads (coreOf t p g) d (BitVec.ofNat 64 (qSlot s p q (queOf s p q).rd)) ∧
        (coreOf t p g).popped = [q] ∧ queOf t p q = { queOf s p q with rd := (queOf s p q).rd + 1 }) ∧
  -- QACQ takes a credit and the next slot's address.
  (∀ (s : State) (p g : Nat) (d q : Nat), CoreAt s p g → d < 32 → q < 1024 → isProd s p q (uidOf p 1 g) = true → (coreOf s p g).acquired = [] → 0 < s.rd (R.PART_Q_CREDIT.CREDIT p q) →
      Does (.qacq p g d q Flt.none) s fun t => Committed s t p g ∧ XReads (coreOf t p g) d (BitVec.ofNat 64 (qSlot s p q (queOf s p q).wr)) ∧
        (coreOf t p g).acquired = [q] ∧ queOf t p q = { queOf s p q with wr := (queOf s p q).wr + 1 } ∧
        t.rd (R.PART_Q_CREDIT.CREDIT p q) = s.rd (R.PART_Q_CREDIT.CREDIT p q) - 1) ∧
  -- QACQ without credit waits, with WAIT_P.
  (∀ (s : State) (p g : Nat) (d q : Nat), CoreAt s p g → d < 32 → q < 1024 → isProd s p q (uidOf p 1 g) = true → (coreOf s p g).acquired = [] → s.rd (R.PART_Q_CREDIT.CREDIT p q) = 0 →
      Does (.qacq p g d q Flt.none) s fun t => t.rd (R.PART_CORE_STAT.STATE p g) = US.WAIT_CREDIT ∧
        t.rd (R.PART_Q_CREDIT.WAIT_P p q) = 1 ∧ t.rd (R.PART_CORE_STAT.PC p g) = s.rd (R.PART_CORE_STAT.PC p g)) ∧
  -- QTRY takes a slot, or reads 0 without credit.
  (∀ (s : State) (p g : Nat) (d q : Nat), CoreAt s p g → d < 32 → q < 1024 → isProd s p q (uidOf p 1 g) = true → (coreOf s p g).acquired = [] →
      Does (.qtry p g d q Flt.none) s fun t => Committed s t p g ∧
        if s.rd (R.PART_Q_CREDIT.CREDIT p q) = 0 then XReads (coreOf t p g) d 0 ∧ queOf t p q = queOf s p q else XReads (coreOf t p g) d (BitVec.ofNat 64 (qSlot s p q (queOf s p q).wr)) ∧
        (coreOf t p g).acquired = [q] ∧ queOf t p q = { queOf s p q with wr := (queOf s p q).wr + 1 } ∧
        t.rd (R.PART_Q_CREDIT.CREDIT p q) = s.rd (R.PART_Q_CREDIT.CREDIT p q) - 1) ∧
  -- QREL releases the popped slot.
  (∀ (s : State) (p g : Nat) (q : Nat), CoreAt s p g → q < 1024 → isCons s p q (uidOf p 1 g) = true → (coreOf s p g).popped = [q] →
      Quiet s (s.rd (R.PART_Q_ENDS.PROD p q)) →
      Does (.qrel p g q Flt.none) s fun t => Committed s t p g ∧ (coreOf t p g).popped = [] ∧ (queOf t p q).rel = (queOf s p q).rel + 1) ∧
  -- QPUB publishes the acquired slot.
  (∀ (s : State) (p g : Nat) (q : Nat), CoreAt s p g → q < 1024 → isProd s p q (uidOf p 1 g) = true → (coreOf s p g).acquired = [q] →
      Quiet s (s.rd (R.PART_Q_ENDS.CONS p q)) →
      Does (.qpub p g q Flt.none) s fun t => Committed s t p g ∧ (coreOf t p g).acquired = [] ∧ (queOf t p q).pub = (queOf s p q).pub + 1) ∧
  -- POSTQ takes a credit, writes four bytes of the register into the slot and publishes it.
  (∀ (s : State) (p g : Nat) (q x : Nat), CoreAt s p g → q < 1024 → x < 32 → isProd s p q (uidOf p 1 g) = true → (coreOf s p g).acquired = [] →
      0 < s.rd (R.PART_Q_CREDIT.CREDIT p q) → s.mem.errs = [] → uKind (s.rd (R.PART_Q_ENDS.CONS p q)) ≠ 4 → Quiet s (s.rd (R.PART_Q_ENDS.CONS p q)) →
      Does (.corePostq p g q x Flt.none) s fun t => Committed s t p g ∧ (queOf t p q).wr = (queOf s p q).wr + 1 ∧ (queOf t p q).pub = (queOf s p q).pub + 1 ∧
        t.rd (R.PART_Q_CREDIT.CREDIT p q) = s.rd (R.PART_Q_CREDIT.CREDIT p q) - 1 ∧
        ∀ i < 4, byteAt t (qSlot s p q (queOf s p q).wr + i) = BitVec.ofNat 8 (((coreOf s p g).getX x).toNat / 256 ^ i))

/-- Calibration, scrubbing, restoring, journal and BAR4 commands complete. Each command completes, under the conditions given, with the effect given. Rests on 04_memory_tiers.md, 05_plans_and_host_rings.md. -/
def Obligations.MemoryTierCommandsComplete : Prop :=
  -- IMPEDANCE_CALIBRATION each 64 ms of a channel in service.
  (∀ (s : State) (c : Nat), c < 32 → t1Live s c = true → Does (.impedanceCalibration c) s (Fired s · (K.impCal c) 64000000)) ∧
  -- DRIFT_CHECK each 16 ms of a channel in service; drift makes a retune due.
  (∀ (s : State) (c : Nat) (d : Bool), c < 32 → t1Live s c = true → Does (.driftCheck c d) s fun t => Fired s t (K.drift c) 16000000 ∧
        (d = true → c ∈ t.mem.due) ∧ (d = false → t.mem.due = s.mem.due)) ∧
  -- RETUNE that succeeds clears RETRY, counts RETUNES and is due no more; one that neither drift nor a failure makes due comes 1 s after the last.
  (∀ (s : State) (c : Nat), c < 32 → t1Live s c = true →
      Does (.retune c true) s fun t => t.rd (R.MEM_T1_RECAL_c.RETRY c) = 0 ∧ tget 0 t.clk.seen (K.retune c) = t.clk.mono ∧ c ∉ t.mem.due ∧
        (c ∉ s.mem.due → s.rd (R.MEM_T1_RECAL_c.RETRY c) = 0 → tget 0 s.clk.seen (K.retune c) + 1000000000 ≤ t.clk.mono) ∧
        t.rd (R.MEM_T1_RECAL_c.RETUNES c) = (s.rd (R.MEM_T1_RECAL_c.RETUNES c) + 1) % 2 ^ (R.MEM_T1_RECAL_c.RETUNES c).w) ∧
  -- RETUNE that fails counts RETRY; the fourth in a row marks the channel FAILED and raises T1_CH.
  (∀ (s : State) (c : Nat), c < 32 → t1Live s c = true → s.rd (R.MEM_T1_RECAL_c.RETRY c) < 4 →
      Does (.retune c false) s fun t => t.rd (R.MEM_T1_RECAL_c.RETRY c) = s.rd (R.MEM_T1_RECAL_c.RETRY c) + 1 ∧
        t.rd (R.MEM_T1_RECAL_c.FAILED c) = (if s.rd (R.MEM_T1_RECAL_c.RETRY c) = 3 then 1 else 0) ∧
        (s.rd (R.MEM_T1_RECAL_c.RETRY c) = 3 → t.rd R.MEM_STAT.T1_CH_FAIL = 1 ∧ t.rd R.RST_FAULT.T1_CH = 1)) ∧
  -- SCRUB_VISIT of a codeword without errors adds it to the pass; the one that completes the pass counts it and shows its minutes.
  (∀ (s : State) (a m : Nat), a < 2 ^ 56 → tierCode (regionOf s a) ≤ 2 → regionOf s a ≠ .none →
      a % cwSize (regionOf s a) = 0 → tget [] s.mem.errs a = [] → scrubs s (regionOf s a) = true → scrubSkips s a = false →
      m = scrubIdx (regionOf s a) →
      Does (.scrubVisit a []) s fun t =>
        if passDone s m ((passOf s m).visited ++ [a]) = true ∧ a ∉ (passOf s m).visited then
          t.rd (R.MEM_SCRUB_STATt.LAST_MIN m) = min 1023 ((s.clk.mono - (passOf s m).start) / 60000000000) ∧ (passOf t m).visited = [] ∧
            t.rd (R.MEM_SCRUB_STATt.PASSES m) = (s.rd (R.MEM_SCRUB_STATt.PASSES m) + 1) % 2 ^ (R.MEM_SCRUB_STATt.PASSES 0).w
        else a ∉ (passOf s m).visited → (passOf t m).visited = (passOf s m).visited ++ [a] ∧
            t.rd (R.MEM_SCRUB_STATt.PASSES m) = s.rd (R.MEM_SCRUB_STATt.PASSES m)) ∧
  -- SCRUB_VISIT of an uncorrectable shared SRAM word sets UE_SEEN.
  (∀ (s : State) (a p : Nat), a < 2 ^ 56 → a % 32 = 0 → regionOf s a = .pool p → scrubs s (.pool p) = true → scrubSkips s a = false →
      tget [] s.mem.errs a ≠ [] → decSram (tget [] s.mem.errs a) = .bad →
      Does (.scrubVisit a []) s fun t => t.rd (R.MEM_SCRUB_STATt.UE_SEEN 2) = 1) ∧
  -- SCRUB_VISIT corrects a single-bit error and counts it.
  (∀ (s : State) (a p k v : Nat), a < 2 ^ 56 → a % 32 = 0 → regionOf s a = .pool p → scrubs s (.pool p) = true → scrubSkips s a = false →
      decSram (tget [] s.mem.errs a) = .fix k v → tget [] s.mem.errs a ≠ [] →
      Does (.scrubVisit a []) s fun t => tget [] t.mem.errs a = [] ∧ t.rd (R.MEM_CE_SR_p.COUNT p) = min (s.rd (R.MEM_CE_SR_p.COUNT p) + 1) (2 ^ (R.MEM_CE_SR_p.COUNT p).w - 1) ∧
        t.rd (R.MEM_SCRUB_STATt.UE_SEEN 2) = s.rd (R.MEM_SCRUB_STATt.UE_SEEN 2)) ∧
  -- SCRUB_LATE of a pass that a stop lengthened sets LATE, not before its interval.
  (∀ (s : State) (n : Nat), n < 3 → (passOf s n).stopped = true → (passOf s n).late = false →
      Does (.scrubLate n) s fun t => t.rd (R.MEM_SCRUB_STATt.LATE n) = 1 ∧ (passOf t n).late = true ∧
        (passOf s n).start + scrubInterval n ≤ t.clk.mono) ∧
  -- MEM_RESTORED brings a page of tier 0 or 1 with a codeword that a visit found lost back from the plan image.
  (∀ (s : State) (a v cw : Nat), cw ∈ s.mem.lostCw → cw / 4096 = a / 4096 → tget [] s.mem.errs cw ≠ [] → imageByte s (a / 4096 * 4096) = some v → v % 4096 = 0 →
      tierCode (regionOf s (a / 4096 * 4096)) ≤ 1 → spanOk s (a / 4096 * 4096) 4096 = true → chanFailed s (a / 4096 * 4096) 4096 = false →
      s.mem.badPages = [] →
      Does (.memRestored a) s fun t => ∀ i < 4096, byteAt t (a / 4096 * 4096 + i) = (peek s v 4096).getD i 0) ∧
  -- PATROL_READ that succeeds takes the page off the unreadable list.
  (∀ (s : State) (page : Nat),
      Does (.patrolRead page true) s fun t => t.mem.badPages = s.mem.badPages.filter (fun pg => decide (pg ≠ vaultBase + 4096 * page))) ∧
  -- JOURNAL_COMMIT makes the waiting operations ready and the life counts kept; 1 ms after the last one unless 64 KiB wait.
  (∀ s : State, Does .journalCommit s fun t => t.vlt.pend = 0 ∧ t.vlt.waiting = [] ∧
      (∀ x ∈ t.host.ops, opKey x.opid ∈ s.vlt.waiting → x.ready = true) ∧ tget 0 t.clk.seen K.journal = t.clk.mono ∧
      (s.vlt.life.isSome = true → some (t.nv.super.life, t.nv.super.stack) = s.vlt.life) ∧
      (s.vlt.pend < 65536 → tget 0 s.clk.seen K.journal + 1000000 ≤ t.clk.mono)) ∧
  -- WEAR_REFILL adds 353 each second up to 305,000,000.
  (∀ s : State, Does .wearRefill s fun t => t.vlt.wear = min (s.vlt.wear + 353) 305000000 ∧ Fired s t K.wear 1000000000) ∧
  -- BAR4_READ answers the bytes.
  (∀ (s : State) (off len a : Nat) (ide : Bool), bar4Addr s off len = some a → ideRefuses s ide = false →
      s.mem.errs = [] → chanFailed s a len = false →
      Does (.bar4Read off len ide []) s fun t => t.out = s.out ++ [.memData (peek s a len)]) ∧
  -- BAR4_WRITE stores them.
  (∀ (s : State) (off a : Nat) (b : List Byte) (ide : Bool), bar4Addr s off b.length = some a → ideRefuses s ide = false →
      s.mem.errs = [] → chanFailed s a b.length = false →
      Does (.bar4Write off b ide) s fun t => ∀ i < b.length, byteAt t (a + i) = b.getD i 0)

/-- Host rings, completions and the energy gate act as their rules say. Each command completes, under the conditions given, with the effect given. Rests on 05_plans_and_host_rings.md, 07_power_and_heat.md. -/
def Obligations.RingsAndGateComplete : Prop :=
  -- SQ_TAIL inside the ring sets the tail.
  (∀ (s : State) (n : Nat) (v : BitVec 32), n < 256 → ideBlocks s = false → s.rd (R.HIF_RING_CFGn.EN n) = 1 → v.toNat < sqSize s n →
      Does (.sqTail n v) s fun t => ringOf t n = { ringOf s n with tail := v.toNat } ∧ t.regs = s.regs) ∧
  -- SQ_TAIL outside the ring is ring error 1.
  (∀ (s : State) (n : Nat) (v : BitVec 32), n < 256 → ideBlocks s = false → s.rd (R.HIF_RING_CFGn.EN n) = 1 → sqSize s n ≤ v.toNat →
      s.rd (R.HIF_RING_STATn.ERR n) = 0 →
      Does (.sqTail n v) s fun t => t.rd (R.HIF_RING_STATn.ERR n) = 1 ∧ t.rd (R.HIF_RING_STATn.ERR_CODE n) = 1 ∧ t.host = s.host) ∧
  -- CQ_HEAD that consumes no more than was written moves the head and frees entries.
  (∀ (s : State) (n k : Nat) (v : BitVec 32), n < 256 → ideBlocks s = false → s.rd (R.HIF_RING_CFGn.EN n) = 1 → v.toNat < cqSize s n →
      k = (v.toNat + cqSize s n - (ringOf s n).cqHead) % cqSize s n → k ≤ (ringOf s n).used →
      Does (.cqHead n v) s fun t => ringOf t n = { ringOf s n with cqHead := v.toNat, used := (ringOf s n).used - k } ∧ t.regs = s.regs) ∧
  -- DESCRIPTOR_FETCH makes the next ring's descriptor an operation with its OPID, accepted, or locked BAD_DESCRIPTOR when illegal, and advances SQ_HEAD.
  (∀ (s : State) (n : Nat) (b : List Byte), nextRing s = some n →
      Does (.descriptorFetch (.data b)) s fun t =>
        t.host.ops.map (·.opid) = s.host.ops.map (·.opid) ++ [opKeyOf n (ringOf s n).wraps (s.rd (R.HIF_RING_POSn.SQ_HEAD n))] ∧
        t.host.ops.getLast?.map (fun x => (x.words, x.st, x.detail)) =
          some (descWords b, if opLegal s (descWords b) then (.accepted, 0) else (.locked, D.BAD_DESCRIPTOR)) ∧
        t.rd (R.HIF_RING_POSn.SQ_HEAD n) = (if s.rd (R.HIF_RING_POSn.SQ_HEAD n) + 1 = sqSize s n then 0 else s.rd (R.HIF_RING_POSn.SQ_HEAD n) + 1) % 65536) ∧
  -- A failed host read is ring error 2.
  (∀ (s : State) (n : Nat), nextRing s = some n → s.rd (R.HIF_RING_STATn.ERR n) = 0 →
      Does (.descriptorFetch .error) s fun t => t.rd (R.HIF_RING_STATn.ERR n) = 1 ∧ t.rd (R.HIF_RING_STATn.ERR_CODE n) = 2 ∧ t.host = s.host) ∧
  -- COMPLETION_WRITE of a ready operation writes its entry at CQ_TAIL, advances it and drops the operation.
  (∀ (s : State) (opid : Nat) (x : Op), opOf s opid = some x → x.ring < 256 → x.st = .locked → x.ready = true → x.after = [] →
      s.rd (R.HIF_RING_STATn.ERR_CODE x.ring) ≠ 3 →
      Does (.completionWrite opid false) s fun t => opOf t opid = none ∧
        t.out.take (s.out.length + 1) = s.out ++ [.entry x.ring (s.rd (R.HIF_RING_POSn.CQ_TAIL x.ring)) (entryWords s x)] ∧
        t.rd (R.HIF_RING_POSn.CQ_TAIL x.ring) =
          (if s.rd (R.HIF_RING_POSn.CQ_TAIL x.ring) + 1 = cqSize s x.ring then 0 else s.rd (R.HIF_RING_POSn.CQ_TAIL x.ring) + 1) % 65536 ∧
        (ringOf t x.ring).used = (ringOf s x.ring).used + 1) ∧
  -- MSIX_COALESCE_TIMER after TIME us sends the vector where it is not masked.
  (∀ (s : State) (n : Nat), n < 256 → 0 < (ringOf s n).unsig → s.rd (R.HIF_RING_IRQn.CE n) = 1 →
      Does (.msixCoalesceTimer n) s fun t => (ringOf t n).unsig = 0 ∧
        t.clk.mono = max s.clk.mono (tget 0 s.clk.seen (K.ring n) + 1000 * max 1 (s.rd (R.HIF_RING_IRQn.TIME n))) ∧
        (s.rd (R.HIF_MSIX.WORD (s.rd (R.HIF_RING_CFGn.VEC n)) 3) % 2 = 0 → t.out = s.out ++ [.msix (s.rd (R.HIF_RING_CFGn.VEC n))])) ∧
  -- GATE_TICK each 1 us outside RUN refills the level from EFF_W less the other power, up to its cap, and counts module energy.
  (∀ s : State, s.ctl.mode = .ready ∨ s.ctl.mode = .drain ∨ s.ctl.mode = .hold →
      Does .gateTick s fun t => Fired s t K.gate 1000 ∧ t.host = { s.host with
        level := min gateCap (s.host.level + ((s.rd R.PWR_CLIP.EFF_W - s.host.otherW : Nat) : Int))
        moduleUj := s.host.moduleUj + s.rd R.PWR_INPUT.POWER_W, unattrUj := s.host.unattrUj + s.rd R.PWR_INPUT.POWER_W }) ∧
  -- In RUN it admits the one waiting phase that the level covers (no unit, argument or fabric part) and charges it.
  (∀ (s : State) (c : Nat) (ph : Phase), s.ctl.mode = .run → s.rd R.PWR_STAT.CLIP_LAG = 0 → s.rd R.HIF_CTL.GATE_STOP = 0 →
      s.host.gateQ = [c] → phaseOf s c = some ph → ph.units = [] → ph.argQ = 0xFFFF → ph.fabric = false → (1000 * ph.decl : Nat) ≤ s.host.level →
      s.host.level ≤ gateCap →
      Does .gateTick s fun t => t.host.gateQ = [] ∧ (phaseOf t c).map (fun x => (x.admitted, x.admitAt)) = some (true, t.clk.mono) ∧
        t.host.level = min gateCap (s.host.level + ((s.rd R.PWR_CLIP.EFF_W - s.host.otherW : Nat) : Int)) - (1000 * ph.decl : Nat)) ∧
  -- FABRIC_ADMIT_DEADLINE admits a fabric phase 20 ms after it entered, whatever the level.
  (∀ (s : State) (c : Nat) (ph : Phase), c < 64 → gateClosed s = false → s.host.gateQ = [c] → phaseOf s c = some ph →
      ph.units = [] → ph.argQ = 0xFFFF → ph.fabric = true →
      Does (.fabricAdmitDeadline c) s fun t => t.host.gateQ = [] ∧ t.clk.mono = max s.clk.mono (ph.enterAt + 20000000) ∧
        (phaseOf t c).map (fun x => (x.admitted, x.admitAt)) = some (true, t.clk.mono) ∧ t.host.level = max (-gateCap) (s.host.level - (1000 * ph.decl : Nat))) ∧
  -- PHASE_END of a phase with its outcome, every unit ended, frees the slot, ends the operation, unwires its queues after COMPLETE and settles the energy charged.
  (∀ (s : State) (c status detail unit info0 : Nat) (ph : Phase) (x : Op), c < 64 → phaseOf s c = some ph →
      ph.outcome = some (status, detail, unit, info0) → ph.units.all (ph.ended.contains ·) = true → s.rd (R.HIF_CTX_STATc.STATE c) = CS.RUN →
      opOf s ph.opid = some x → x.st ≠ .locked →
      Does (.phaseEnd c) s fun t => phaseOf t c = none ∧ t.rd (R.HIF_CTX_STATc.STATE c) = CS.IDLE ∧ Ended t ph.opid status detail ∧
        (∀ pq ∈ ph.queues, t.rd (R.PART_Q_CFG.VALID pq.1 pq.2) = if status = S.COMPLETE then 0 else s.rd (R.PART_Q_CFG.VALID pq.1 pq.2)) ∧
        (ph.admitted = true → t.host.level = max (-gateCap) (min gateCap (s.host.level + (1000 * ph.decl : Nat) - (ph.meas / 1000000 : Nat)))))

/-- Host operations that may start complete or go on as their rules say. An operation in flight, of the opcode named, that may start, acts as given. Rests on 05_plans_and_host_rings.md. -/
def Obligations.DescriptorsComplete : Prop :=
  -- NOP completes.
  (∀ (s : State) (opid : Nat) (x : Op), opOf s opid = some x → x.opc = OPC.NOP → mayStart s x = true →
      Does (.nop opid) s (Ended · opid S.COMPLETE 0)) ∧
  -- RUN_PHASE on an idle context binds the phase with its arguments and queues it at the gate.
  (∀ (s : State) (opid : Nat) (x : Op), opOf s opid = some x → x.opc = OPC.RUN → mayStart s x = true →
      s.rd (R.HIF_CTX_STATc.STATE x.slot) = CS.IDLE → x.f 1 0 16 < (tget Ctx.init s.host.ctx x.slot).nPhase → s.rd (R.HIF_CTX_STATc.LOST x.slot) = 0 →
      Does (.runPhase opid) s fun t => t.rd (R.HIF_CTX_STATc.STATE x.slot) = CS.RUN ∧ t.rd (R.HIF_CTX_STATc.PHNUM x.slot) = x.f 1 0 16 ∧
        t.host.gateQ = s.host.gateQ ++ [x.slot] ∧ (opOf t opid).map (·.st) = some .started ∧
        (phaseOf t x.slot).map (fun p => (p.num, p.opid, p.admitted, p.outcome.isSome)) = some (x.f 1 0 16, opid, false, false) ∧
        (phaseOf t x.slot).map (·.args) = some ((x.words.drop 2).take 5)) ∧
  -- COPY inside the module copies the bytes and completes with their number.
  (∀ (s : State) (opid : Nat) (x : Op) (d : HostData), opOf s opid = some x → x.opc = OPC.COPY → mayStart s x = true → x.f 3 32 1 = 1 →
      x.f 3 33 1 = 1 → x.f 2 0 64 < vaultBase → s.mem.errs = [] → isVault (x.f 1 0 64) = false →
      chanFailed s (x.f 1 0 64) (x.f 3 0 32) = false → chanFailed s (x.f 2 0 64) (x.f 3 0 32) = false →
      Does (.copy opid d Flt.none) s fun t => Ended t opid S.COMPLETE 0 ∧ (opOf t opid).map (·.info0) = some (x.f 3 0 32) ∧
        ∀ i < x.f 3 0 32, byteAt t (x.f 2 0 64 + i) = (peek s (x.f 1 0 64) (x.f 3 0 32)).getD i 0) ∧
  -- COPY from the host stores the host's bytes.
  (∀ (s : State) (opid : Nat) (x : Op) (b : List Byte), opOf s opid = some x → x.opc = OPC.COPY → mayStart s x = true → x.f 3 32 1 = 0 →
      x.f 3 33 1 = 1 → x.f 2 0 64 < vaultBase → s.mem.errs = [] → chanFailed s (x.f 2 0 64) (x.f 3 0 32) = false → b.length = x.f 3 0 32 →
      Does (.copy opid (.data b) Flt.none) s fun t => Ended t opid S.COMPLETE 0 ∧
        ∀ i < x.f 3 0 32, byteAt t (x.f 2 0 64 + i) = b.getD i 0) ∧
  -- COPY to the host writes the module's bytes to the host.
  (∀ (s : State) (opid : Nat) (x : Op) (d : HostData), opOf s opid = some x → x.opc = OPC.COPY → mayStart s x = true → x.f 3 32 1 = 1 →
      x.f 3 33 1 = 0 → s.mem.errs = [] → isVault (x.f 1 0 64) = false → chanFailed s (x.f 1 0 64) (x.f 3 0 32) = false →
      Does (.copy opid d Flt.none) s fun t => Ended t opid S.COMPLETE 0 ∧
        t.out = s.out ++ [.hostWrite (x.f 2 0 64) (peek s (x.f 1 0 64) (x.f 3 0 32))]) ∧
  -- LOAD_IMAGE of a middle block writes it to the inactive slot, charges wear and waits for the journal, or fails with BLOCK_CRC.
  (∀ (s : State) (opid : Nat) (x : Op) (b : List Byte) (i : Install), opOf s opid = some x → x.opc = OPC.LOAD → mayStart s x = true →
      x.first = false → x.last = false → s.vlt.held = false → s.vlt.inst = some i → b.length = x.f 3 0 32 → wearUnits b.length ≤ s.vlt.wear → s.vlt.wear ≤ 305000000 →
      Does (.loadImage opid (.data b)) s fun t =>
        if crc32c b = x.f 3 32 32 then
          t.vlt.wear = s.vlt.wear - wearUnits b.length ∧ t.vlt.waiting = s.vlt.waiting ++ [opKey opid] ∧
          (opOf t opid).map (fun y => (y.st, y.status, y.ready)) = some (.locked, S.COMPLETE, false) ∧
          ∀ k < b.length, byteAt t (slotBase (1 - s.nv.super.active) + x.f 2 0 64 + k) = b.getD k 0
        else Ended t opid S.CHECK_FAIL D.BLOCK_CRC) ∧
  -- IMAGE_VERIFY of a complete installation records whether the image verifies and completes or fails with SIG_FAIL.
  (∀ (s : State) (opid : Nat) (x : Op) (i : Install), opOf s opid = some x → x.last = true → x.st = .started → s.vlt.inst = some i →
      s.vlt.waiting.contains (opKey opid) = false → i.blocks.contains 0 = true → s.mem.badPages = [] →
      ((List.range ((leNat (peek s (slotBase (1 - s.nv.super.active) + 0x10) 8) + 65535) / 65536)).all (i.blocks.contains ·)) = true →
      Does (.imageVerify opid) s fun t => t.vlt.inst = none ∧
        (if imageVerifies s (1 - s.nv.super.active) then Ended t opid S.COMPLETE 0 else Ended t opid S.CHECK_FAIL D.SIG_FAIL) ∧
        t.nv.super = (if s.nv.super.active = 1 then { s.nv.super with verA := imageVerifies s 0 }
          else { s.nv.super with verB := imageVerifies s (1 - s.nv.super.active) })) ∧
  -- BIND of a plan context that passes its checks starts binding with its units and pool.
  (∀ (s : State) (opid : Nat) (x : Op), opOf s opid = some x → x.opc = OPC.BIND → x.unbind = false → mayStart s x = true →
      s.rd (R.HIF_CTX_STATc.STATE x.slot) = CS.UNBOUND → planCheck s (x.f 1 0 6) = 0 → planConflict s x.slot (planCtx s (x.f 1 0 6)) = false →
      Does (.bindContext opid) s fun t => t.rd (R.HIF_CTX_STATc.STATE x.slot) = CS.BINDING ∧ t.rd (R.HIF_CTX_STATc.PLAN_CTX x.slot) = x.f 1 0 6 ∧
        (opOf t opid).map (·.st) = some .started ∧ (tget Ctx.init t.host.ctx x.slot).bindOp = some opid ∧
        (tget Ctx.init t.host.ctx x.slot).units = ctxUnits s (planCtx s (x.f 1 0 6)) ∧
        (tget Ctx.init t.host.ctx x.slot).pool = ctxPool s (planCtx s (x.f 1 0 6))) ∧
  -- BIND_COMPLETE with every range readable makes the context idle and completes BIND.
  (∀ (s : State) (slot opid : Nat) (x : Op), slot < 64 → s.rd (R.HIF_CTX_STATc.STATE slot) = CS.BINDING →
      (tget Ctx.init s.host.ctx slot).bindOp = some opid → opOf s opid = some x → x.st ≠ .locked → s.mem.badPages = [] →
      Does (.bindComplete slot []) s fun t => t.rd (R.HIF_CTX_STATc.STATE slot) = CS.IDLE ∧ t.rd (R.HIF_CTX_STATc.LOST slot) = 0 ∧
        t.rd (R.HIF_CTX_STATc.PREF_MODE slot) = 0 ∧ Ended t opid S.COMPLETE 0 ∧ (tget Ctx.init t.host.ctx slot).energy = 0) ∧
  -- UNBIND frees an idle context at once, and drains one with a phase, which it waits for.
  (∀ (s : State) (opid : Nat) (x : Op), opOf s opid = some x → x.unbind = true → mayStart s x = true →
      s.rd (R.HIF_CTX_STATc.STATE x.slot) ≠ CS.UNBOUND →
      Does (.unbindContext opid) s fun t =>
        if (phaseOf s x.slot).isNone then t.rd (R.HIF_CTX_STATc.STATE x.slot) = CS.UNBOUND ∧ tget Ctx.init t.host.ctx x.slot = Ctx.init ∧ Ended t opid S.COMPLETE 0
        else t.rd (R.HIF_CTX_STATc.STATE x.slot) = CS.DRAIN ∧ opid ∈ (tget Ctx.init t.host.ctx x.slot).unbinds) ∧
  -- FENCE with nothing before it in scope completes.
  (∀ (s : State) (opid : Nat) (x : Op), opOf s opid = some x → x.opc = OPC.FENCE → mayStart s x = true → fenceScope s x = [] →
      Does (.fence opid) s (Ended · opid S.COMPLETE 0)) ∧
  -- ABORT of an unlocked COPY ends it ABORTED, HOST_ABORT and completes after it.
  (∀ (s : State) (opid w : Nat) (x y : Op), opOf s opid = some x → x.opc = OPC.ABORT → x.f 1 32 1 = 0 → mayStart s x = true →
      x.f 1 0 32 ≠ opid → fetchedWrap s (x.f 1 0 32) = some w → (ringOf s (x.f 1 0 32 / 2 ^ 24)).aborts = [] → opOf s (x.f 1 0 32) = some y →
      isLocked s y = false → phaseSlot s (x.f 1 0 32) = none → y.opc = OPC.COPY →
      Does (.abort opid) s fun t => Ended t opid S.COMPLETE 0 ∧ Ended t (x.f 1 0 32) S.ABORTED D.HOST_ABORT ∧
        (opOf t opid).map (·.after) = some [x.f 1 0 32]) ∧
  -- ABORT of a context with one unlocked SET_OP_PREF ends that one CONTEXT_ABORT and completes after it.
  (∀ (s : State) (opid : Nat) (x y : Op), opOf s opid = some x → x.opc = OPC.ABORT → x.f 1 32 1 = 1 → mayStart s x = true →
      s.host.ops.filter (fun z => z.opc != OPC.ABORT && takesCtx z.words && z.slot == x.slot && !isLocked s z) = [y] → opOf s y.opid = some y →
      y.opid ≠ opid → phaseSlot s y.opid = none → y.opc = OPC.PREF →
      Does (.abortContext opid) s fun t => Ended t opid S.COMPLETE 0 ∧ Ended t y.opid S.ABORTED D.CONTEXT_ABORT ∧ (opOf t opid).map (·.after) = some [y.opid]) ∧
  -- QUERY_ENERGY writes the energy report to the host.
  (∀ (s : State) (opid : Nat) (x : Op), opOf s opid = some x → x.opc = OPC.QUERY → mayStart s x = true →
      Does (.queryEnergy opid) s fun t => Ended t opid S.COMPLETE 0 ∧ t.out = s.out ++ [.hostWrite (x.f 1 0 64) (energyReport s (x.f 2 0 64))]) ∧
  -- SET_OP_PREF stores mode and point, the point clamped to the fused highest in mode 1.
  (∀ (s : State) (opid : Nat) (x : Op), opOf s opid = some x → x.opc = OPC.PREF → mayStart s x = true →
      s.rd (R.HIF_CTX_STATc.STATE x.slot) ≠ CS.UNBOUND →
      Does (.setOpPref opid) s fun t => Ended t opid S.COMPLETE 0 ∧ t.rd (R.HIF_CTX_STATc.PREF_MODE x.slot) = x.f 1 0 2 ∧
        t.rd (R.HIF_CTX_STATc.PREF_OP x.slot) =
          if x.f 1 0 2 = 1 then max (x.f 1 2 3) (Config.topPoint s.nv.fuses.variant) else x.f 1 2 3)

/-- Fazar port training, identification, loss and retraining act as their rules say. Each command completes, under the conditions given, with the effect given. Rests on 06_fazar_fabric.md. -/
def Obligations.PortCommandsComplete : Prop :=
  -- LINK_TRAINED goes to IDENT and sends location, port, address and generation.
  (∀ (s : State) (n : Nat), n < 36 → s.rd (R.FZ_PORT_STAT.STATE n) = PS.TRAINING → portsLive s = true →
      s.rd R.FZ_VERIFY_CFG.IDENT_EN = 1 →
      Does (.linkTrained n) s fun t => t.rd (R.FZ_PORT_STAT.STATE n) = PS.IDENT ∧ t.rd (R.FZ_PORT_STAT.REASON n) = PR.NONE ∧
        Sent s t (.linkFrame n LK.IDENT [ownLoc s, n, ownFa s, s.rd R.FZ_SELF.GEN])) ∧
  -- Without identity comparison it sends the same and goes UP where no test is due.
  (∀ (s : State) (n : Nat), n < 36 → s.rd (R.FZ_PORT_STAT.STATE n) = PS.TRAINING → portsLive s = true →
      s.rd R.FZ_VERIFY_CFG.IDENT_EN = 0 → idleSpare s n = false → testWanted s n = false →
      Does (.linkTrained n) s fun t => t.rd (R.FZ_PORT_STAT.STATE n) = PS.UP ∧
        Sent s t (.linkFrame n LK.IDENT [ownLoc s, n, ownFa s, s.rd R.FZ_SELF.GEN])) ∧
  -- IDENT that matches the port map brings the port UP, or into a due test that the smaller location starts.
  (∀ (s : State) (n loc port : Nat), n < 36 → s.rd (R.FZ_PORT_STAT.STATE n) = PS.IDENT → s.rd R.FZ_VERIFY_CFG.IDENT_EN = 1 →
      s.rd (R.FZ_PORT_MAP.USED n) = 1 → s.rd (R.FZ_PORT_MAP.FAR_LOC n) = loc → s.rd (R.FZ_PORT_MAP.FAR_PORT n) = port → loc ≠ ownLoc s →
      idleSpare s n = false →
      Does (.ident n loc port) s fun t => t.rd (R.FZ_PORT_STAT.STATE n) = (if testWanted s n then PS.TEST else PS.UP) ∧
        (testWanted s n = true → (tget PortSt.init t.fab.ports n).starter = decide (ownLoc s < loc)) ∧ t.rd (R.FZ_PORT_FAR.VALID n) = 1 ∧
        t.rd (R.FZ_PORT_FAR.LOC n) = loc ∧ t.rd (R.FZ_PORT_FAR.PORT n) = port) ∧
  -- IDENT that does not match, or that comes from the own location, holds it with MISMATCH.
  (∀ (s : State) (n loc port : Nat), n < 36 → s.rd (R.FZ_PORT_STAT.STATE n) = PS.IDENT → s.rd R.FZ_VERIFY_CFG.IDENT_EN = 1 →
      s.rd (R.FZ_PORT_MAP.USED n) = 1 → (s.rd (R.FZ_PORT_MAP.FAR_LOC n) ≠ loc ∨ s.rd (R.FZ_PORT_MAP.FAR_PORT n) ≠ port ∨ loc = ownLoc s) →
      Does (.ident n loc port) s fun t => t.rd (R.FZ_PORT_STAT.STATE n) = PS.HELD ∧ t.rd (R.FZ_PORT_STAT.REASON n) = PR.MISMATCH) ∧
  -- One on a port that the map does not use holds it with EXTRA.
  (∀ (s : State) (n loc port : Nat), n < 36 → loc < 2 ^ 19 → port < 64 → s.rd (R.FZ_PORT_STAT.STATE n) = PS.IDENT →
      s.rd R.FZ_VERIFY_CFG.IDENT_EN = 1 → s.rd (R.FZ_PORT_MAP.USED n) = 0 →
      Does (.ident n loc port) s fun t => t.rd (R.FZ_PORT_STAT.STATE n) = PS.HELD ∧ t.rd (R.FZ_PORT_STAT.REASON n) = PR.EXTRA) ∧
  -- IDENT_TIMEOUT of a port in training, or 10 ms in IDENT without a frame, excludes a port that the map uses and disables another.
  (∀ (s : State) (n : Nat), n < 36 → s.rd (R.FZ_PORT_STAT.STATE n) = PS.TRAINING ∨
        (s.rd (R.FZ_PORT_STAT.STATE n) = PS.IDENT ∧ s.rd R.FZ_VERIFY_CFG.IDENT_EN = 1 ∧ s.rd (R.FZ_PORT_FAR.VALID n) = 0) →
      Does (.identTimeout n) s fun t =>
        (s.rd (R.FZ_PORT_STAT.STATE n) = PS.IDENT → tget 0 s.clk.seen (K.portUp n) + 10000000 ≤ t.clk.mono) ∧ if s.rd (R.FZ_PORT_MAP.USED n) = 1 then
          t.rd (R.FZ_PORT_STAT.STATE n) = PS.EXCLUDED ∧ t.rd (R.FZ_PORT_STAT.REASON n) = PR.MISSING
        else t.rd (R.FZ_PORT_STAT.STATE n) = PS.DISABLED ∧ t.rd (R.FZ_PORT_STAT.REASON n) = PR.NONE) ∧
  -- IDENT_REPEAT sends the IDENT frame again after 1 ms while the far end's has not come.
  (∀ (s : State) (n : Nat), n < 36 → s.rd (R.FZ_PORT_STAT.STATE n) = PS.IDENT ∨ s.rd (R.FZ_PORT_STAT.STATE n) = PS.UP →
      s.rd (R.FZ_PORT_FAR.VALID n) = 0 →
      Does (.identRepeat n) s fun t => t.clk.mono = s.clk.mono + 1000000 ∧
        t.out = s.out ++ [.linkFrame n LK.IDENT [ownLoc s, n, ownFa s, s.rd R.FZ_SELF.GEN]]) ∧
  -- KEEPALIVE_SEND each 2 us sends a keepalive.
  (∀ (s : State) (n : Nat), n < 36 → s.rd (R.FZ_PORT_STAT.STATE n) = PS.UP ∨ s.rd (R.FZ_PORT_STAT.STATE n) = PS.IDENT ∨ s.rd (R.FZ_PORT_STAT.STATE n) = PS.HELD →
      Does (.keepaliveSend n) s fun t => t.clk.mono = s.clk.mono + 2000 ∧ t.out = s.out ++ [.linkFrame n LK.KEEPALIVE []]) ∧
  -- PORT_DOWN takes an UP or TEST port DOWN with LOS or FEC and counts it; the third within 60 s holds it with FLAP.
  (∀ (s : State) (n why : Nat), n < 36 → s.rd (R.FZ_PORT_STAT.STATE n) = PS.UP ∨ s.rd (R.FZ_PORT_STAT.STATE n) = PS.TEST →
      Does (.portDown n why) s fun t => (t.rd (R.FZ_PORT_STAT.STATE n), t.rd (R.FZ_PORT_STAT.REASON n)) =
          (if thirdDown s n then (PS.HELD, PR.FLAP) else (PS.DOWN, if why = PR.FEC then PR.FEC else PR.LOS)) ∧
        t.rd (R.FZ_PORT_STAT.DOWNS n) = min (s.rd (R.FZ_PORT_STAT.DOWNS n) + 1) (2 ^ (R.FZ_PORT_STAT.DOWNS n).w - 1)) ∧
  -- FEC_ERROR_LIMIT counts the codewords and takes the port down above 1,000.
  (∀ (s : State) (n cnt : Nat), n < 36 → s.rd (R.FZ_PORT_STAT.STATE n) = PS.UP →
      Does (.fecErrorLimit n cnt) s fun t => t.rd (R.FZ_PORT_CNTk.COUNT n 3) = min (2 ^ 32 - 1) (s.rd (R.FZ_PORT_CNTk.COUNT n 3) + cnt) ∧
        (if 1000 < cnt then (t.rd (R.FZ_PORT_STAT.STATE n), t.rd (R.FZ_PORT_STAT.REASON n)) =
          (if thirdDown s n then (PS.HELD, PR.FLAP) else (PS.DOWN, PR.FEC)) else t.rd (R.FZ_PORT_STAT.STATE n) = PS.UP)) ∧
  -- FLIT_TIMEOUT takes the port down with KEEPALIVE.
  (∀ (s : State) (n : Nat), n < 36 → s.rd (R.FZ_PORT_STAT.STATE n) = PS.UP →
      Does (.flitTimeout n) s fun t => (t.rd (R.FZ_PORT_STAT.STATE n), t.rd (R.FZ_PORT_STAT.REASON n)) =
          (if thirdDown s n then (PS.HELD, PR.FLAP) else (PS.DOWN, PR.KEEPALIVE))) ∧
  -- RETRAIN 100 ms after the down trains again.
  (∀ (s : State) (n : Nat), n < 36 → s.rd (R.FZ_PORT_STAT.STATE n) = PS.DOWN →
      Does (.retrain n) s fun t => t.clk.mono = max s.clk.mono (tget 0 s.clk.seen (K.portUp n) + 100000000) ∧
        t.rd (R.FZ_PORT_STAT.STATE n) = PS.TRAINING ∧ t.rd (R.FZ_PORT_STAT.REASON n) = PR.NONE ∧ t.rd (R.FZ_PORT_FAR.VALID n) = 0) ∧
  -- PORT_STATE of a sender that passes the GEN check notes a far port up or down.
  (∀ (s : State) (fa gen m port : Nat) (up : Bool), fa < 2 ^ 20 → gen < 256 → m < 256 → port < 36 → genOk s fa gen = true →
      Does (.portState fa gen m port up) s fun t => t.fab = { s.fab with down := if up then s.fab.down.filter (· ≠ 36 * m + port) else s.fab.down.filter (· ≠ 36 * m + port) ++ [36 * m + port] })

/-- Bit-error tests of Fazar ports start, end and bring a port up or hold it as their rules say. Each command completes, under the conditions given, with the effect given. Rests on 06_fazar_fabric.md. -/
def Obligations.PortTestsComplete : Prop :=
  -- TEST_REQ on an UP port starts the test: the smaller location asks, the other answers TEST_ACK and sends the pattern.
  (∀ (s : State) (n : Nat), n < 36 → s.rd (R.FZ_PORT_STAT.STATE n) = PS.UP →
      Does (.testReq n) s fun t => t.rd (R.FZ_PORT_STAT.STATE n) = PS.TEST ∧
        if ownLoc s < s.rd (R.FZ_PORT_FAR.LOC n) then (tget PortSt.init t.fab.ports n).starter = true ∧ Sent s t (.linkFrame n LK.TEST_REQ [])
        else (tget PortSt.init t.fab.ports n).agreed = true ∧ Sent s t (.linkFrame n LK.TEST_ACK []) ∧ Sent s t (.prbs n)) ∧
  -- TEST_REQ in IDENT is noted for later.
  (∀ (s : State) (n : Nat), n < 36 → s.rd (R.FZ_PORT_STAT.STATE n) = PS.IDENT →
      Does (.testReq n) s fun t => tget PortSt.init t.fab.ports n = { tget PortSt.init s.fab.ports n with agreed := true } ∧ t.regs = s.regs) ∧
  -- TEST_ACK to the starter starts the pattern.
  (∀ (s : State) (n : Nat), n < 36 → s.rd (R.FZ_PORT_STAT.STATE n) = PS.TEST → (tget PortSt.init s.fab.ports n).starter = true →
      (tget PortSt.init s.fab.ports n).agreed = false →
      Does (.testAck n) s fun t => (tget PortSt.init t.fab.ports n).agreed = true ∧ t.out = s.out ++ [.prbs n]) ∧
  -- TEST_RESULT notes the far end's result: a failure holds the port, and a pass brings it UP when its own test has passed.
  (∀ (s : State) (n : Nat) (pass : Bool), n < 36 → s.rd (R.FZ_PORT_STAT.STATE n) = PS.TEST →
      Does (.testResult n pass) s fun t => (tget PortSt.init t.fab.ports n).farPass = some pass ∧
        (if pass then t.rd (R.FZ_PORT_STAT.STATE n) = (if (tget PortSt.init s.fab.ports n).passed then PS.UP else PS.TEST)
         else t.rd (R.FZ_PORT_STAT.STATE n) = PS.HELD ∧ t.rd (R.FZ_PORT_STAT.REASON n) = PR.BER_FAIL)) ∧
  -- BER_TEST_DONE after BER_SECONDS shows errors and result; either failure holds the port with BER_FAIL, and it is UP when both ends have passed.
  (∀ (s : State) (n errs : Nat), n < 36 → s.rd (R.FZ_PORT_STAT.STATE n) = PS.TEST → (tget PortSt.init s.fab.ports n).agreed = true →
      Does (.berTestDone n errs) s fun t => t.clk.mono = s.clk.mono + 1000000000 * max 1 (s.rd R.FZ_VERIFY_CFG.BER_SECONDS) ∧
        t.rd (R.FZ_PORT_BER.DONE n) = 1 ∧ t.rd (R.FZ_PORT_BER.ERRORS n) = min (2 ^ 30 - 1) errs ∧
        t.rd (R.FZ_PORT_BER.PASS n) = (if errs ≤ berLimit s then 1 else 0) ∧
        (if errs ≤ berLimit s ∧ (tget PortSt.init s.fab.ports n).farPass ≠ some false then
          t.rd (R.FZ_PORT_STAT.STATE n) = (if (tget PortSt.init s.fab.ports n).farPass = some true then PS.UP else PS.TEST)
         else t.rd (R.FZ_PORT_STAT.STATE n) = PS.HELD ∧ t.rd (R.FZ_PORT_STAT.REASON n) = PR.BER_FAIL)) ∧
  -- BER_INTERVAL starts the periodic test at the end with the smaller location and asks for it at the other.
  (∀ (s : State) (n : Nat), n < 36 → 0 < s.rd R.FZ_VERIFY_CFG.BER_INTERVAL_H →
      (∀ m < 36, s.rd (R.FZ_PORT_STAT.STATE m) ≠ PS.TEST) → s.rd (R.FZ_PORT_STAT.STATE n) = PS.UP →
      Does (.berInterval n) s fun t => Fired s t (K.port n) (s.rd R.FZ_VERIFY_CFG.BER_INTERVAL_H * 3600000000000) ∧
        Sent s t (.linkFrame n LK.TEST_REQ []) ∧
        if ownLoc s < s.rd (R.FZ_PORT_FAR.LOC n) then t.rd (R.FZ_PORT_STAT.STATE n) = PS.TEST ∧ (tget PortSt.init t.fab.ports n).starter = true
        else (tget PortSt.init t.fab.ports n).testDue = true)

/-- Packets, multicast, broadcast and reductions act as the fabric rules say. Each command completes, under the conditions given, with the effect given. Rests on 06_fazar_fabric.md. -/
def Obligations.RoutingAndCollectivesComplete : Prop :=
  -- PACKET_INJECT to another module sends the sealed packet on the routed port.
  (∀ (s : State) (k k1 k2 : Pkt) (e : RouteEnv) (p : Nat), e.dirUe = false → hDST k < 0xF0000 → canInject s = true →
      lapseOk s (ownHdr s k) = true → entUni (dirEnt s (hEPOCH (ownHdr s k)) (hDST (ownHdr s k))) = true →
      entLoc (dirEnt s (hEPOCH (ownHdr s k)) (hDST (ownHdr s k))) ≠ ownLoc s → choosePath s (ownHdr s k) e = some k1 →
      route s k1 true e = some (some p, k2) →
      Does (.packetInject k e) s fun t => t.out = s.out ++ [.packet p (sealPkt k2)] ∧ t.fab.toSend = s.fab.toSend.erase k) ∧
  -- To its own location it delivers the packet at home.
  (∀ (s : State) (k : Pkt) (e : RouteEnv), e.dirUe = false → hDST k < 0xF0000 → canInject s = true →
      lapseOk s (ownHdr s k) = true → entUni (dirEnt s (hEPOCH (ownHdr s k)) (hDST (ownHdr s k))) = true →
      entLoc (dirEnt s (hEPOCH (ownHdr s k)) (hDST (ownHdr s k))) = ownLoc s → genOk s (hSRC (sealPkt (ownHdr s k))) (hGEN (sealPkt (ownHdr s k))) = true →
      hTYPE (sealPkt (ownHdr s k)) ≠ 7 →
      Does (.packetInject k e) s fun t => t.fab.inbox = s.fab.inbox ++ [sealPkt (ownHdr s k)] ∧ t.out = s.out) ∧
  -- PACKET_RECEIVE of a good packet for elsewhere sends it on and counts its flits.
  (∀ (s : State) (n p : Nat) (k k2 : Pkt) (e : RouteEnv), n < 36 → portUp s n = true → hHCRC k = hcrcOf k → badType k = false →
      hLH k ≤ 6 → hGH k ≤ 2 → k.crc = BitVec.ofNat 32 (pktCrc k) → hTYPE k ≠ 6 → hTYPE k ≠ 9 → epochLate s k = false → e.dirUe = false →
      hDST k ≠ 0xFFFFF → route s k false e = some (some p, k2) →
      Does (.packetReceive n k e) s fun t => t.out = s.out ++ [.packet p (rehdr k2)] ∧ t.fab = s.fab ∧
        t.rd (R.FZ_PORT_CNTk.COUNT n 4) = (s.rd (R.FZ_PORT_CNTk.COUNT n 4) + flitsOf k) % 2 ^ 32) ∧
  -- One for this module is delivered.
  (∀ (s : State) (n : Nat) (k k2 : Pkt) (e : RouteEnv), n < 36 → portUp s n = true → hHCRC k = hcrcOf k → badType k = false →
      hLH k ≤ 6 → hGH k ≤ 2 → k.crc = BitVec.ofNat 32 (pktCrc k) → hTYPE k ≠ 6 → hTYPE k ≠ 9 → epochLate s k = false → e.dirUe = false →
      hDST k ≠ 0xFFFFF → route s k false e = some (none, k2) → genOk s (hSRC k2) (hGEN k2) = true → hTYPE k2 ≠ 7 →
      Does (.packetReceive n k e) s fun t => t.fab.inbox = s.fab.inbox ++ [k2] ∧ t.out = s.out) ∧
  -- A bad header checksum drops it and counts.
  (∀ (s : State) (n : Nat) (k : Pkt) (e : RouteEnv), n < 36 → portUp s n = true → hHCRC k ≠ hcrcOf k →
      Does (.packetReceive n k e) s fun t => t.fab = s.fab ∧ t.out = s.out ∧
        t.rd (R.FZ_PORT_CNTk.COUNT n 2) = min (s.rd (R.FZ_PORT_CNTk.COUNT n 2) + 1) (2 ^ 32 - 1)) ∧
  -- QSLOT in order on its stream is taken even where its queue is invalid.
  (∀ (s : State) (k : Pkt) (r : List Pkt) (x : StrIn), s.fab.inbox = k :: r → hTYPE k = 1 → findIn s (hSRC k) (hOCH k) = some x →
      hTSPEC k 48 16 = x.nonce → hDPART k = x.part → hSEQ k = x.next → x.got = [] → x.unack < 63 →
      s.rd (R.PART_Q_CFG.VALID x.part (hDQ k)) = 0 →
      Does .qslot s fun t => t.fab.inbox = r ∧ (findIn t (hSRC k) (hOCH k)).map (fun y => (y.next, y.got.length, y.unack)) = some ((x.next + 1) % 65536, 0, x.unack + 1)) ∧
  -- QSLOT in order writes its slot and publishes it.
  (∀ (s : State) (k : Pkt) (r : List Pkt) (x : StrIn) (p q : Nat), s.fab.inbox = k :: r → hTYPE k = 1 → findIn s (hSRC k) (hOCH k) = some x →
      hTSPEC k 48 16 = x.nonce → hDPART k = x.part → hSEQ k = x.next → x.got = [] → x.unack < 63 → p = x.part → q = hDQ k → k.pay.length = 256 →
      s.rd (R.PART_Q_CFG.VALID p q) = 1 → s.mem.errs = [] → uKind (s.rd (R.PART_Q_ENDS.CONS p q)) ≠ 4 → Quiet s (s.rd (R.PART_Q_ENDS.CONS p q)) →
      Quiet s (s.rd (R.PART_Q_ENDS.PROD p q)) → p < 8 →
      Does .qslot s fun t => (queOf t p q).pub = (queOf s p q).pub + 1 ∧ t.rd (R.PART_Q_OCC.OCC p q) = (s.rd (R.PART_Q_OCC.OCC p q) + 1) % 131072 ∧
        ∀ i < 256, byteAt t (qSlot s p q (hTSPEC k 0 16) + i) = k.pay.getD i 0) ∧
  -- CREDIT adds its credits to the queue.
  (∀ (s : State) (k : Pkt) (r : List Pkt) (p q : Nat), s.fab.inbox = k :: r → hTYPE k = 2 → p = hTSPEC k 26 3 → q = hTSPEC k 16 10 →
      (bankOf s (activeEpoch s)).dir.all (fun e => !entGrp e.2.toNat) = true → s.rd (R.PART_Q_CFG.VALID p q) = 1 →
      Quiet s (s.rd (R.PART_Q_ENDS.CONS p q)) → Quiet s (s.rd (R.PART_Q_ENDS.PROD p q)) →
      Does .credit s fun t => t.fab.inbox = r ∧ t.rd (R.PART_Q_CREDIT.CREDIT p q) = (s.rd (R.PART_Q_CREDIT.CREDIT p q) + hTSPEC k 0 16) % 131072) ∧
  -- MCAST that ends here writes and publishes the slot.
  (∀ (s : State) (k : Pkt) (r : List Pkt) (e : RouteEnv) (g p q : Nat), s.fab.inbox = k :: r → hTYPE k = 3 → g = 0xF0000 + hTSPEC k 48 16 →
      entGrp (dirEnt s (activeEpoch s) g) = true → fget (dirEnt s (activeEpoch s) g) 61 1 = 1 →
      (treeNext s (activeEpoch s) (dirEnt s (activeEpoch s) g)).filter (fun x => decide (x ≠ hSRC k)) = [] → p = hDPART k → q = hDQ k → k.pay.length = 256 →
      s.rd (R.PART_Q_CFG.VALID p q) = 1 → s.mem.errs = [] → uKind (s.rd (R.PART_Q_ENDS.CONS p q)) ≠ 4 →
      Quiet s (s.rd (R.PART_Q_ENDS.CONS p q)) → Quiet s (s.rd (R.PART_Q_ENDS.PROD p q)) →
      Does (.mcast e) s fun t => t.fab.inbox = r ∧ (queOf t p q).pub = (queOf s p q).pub + 1 ∧
        ∀ i < 256, byteAt t (qSlot s p q (queOf s p q).wr + i) = k.pay.getD i 0) ∧
  -- MCAST sends a copy to the tree's next module.
  (∀ (s : State) (k k1 k2 : Pkt) (r : List Pkt) (e : RouteEnv) (g fa n : Nat), s.fab.inbox = k :: r → hTYPE k = 3 → g = 0xF0000 + hTSPEC k 48 16 →
      entGrp (dirEnt s (activeEpoch s) g) = true → fget (dirEnt s (activeEpoch s) g) 61 1 = 0 →
      (treeNext s (activeEpoch s) (dirEnt s (activeEpoch s) g)).filter (fun x => decide (x ≠ hSRC k)) = [fa] → canInject s = true →
      lapseOk s (ownHdr s (setH0 28 20 fa k)) = true →
      entUni (dirEnt s (hEPOCH (ownHdr s (setH0 28 20 fa k))) (hDST (ownHdr s (setH0 28 20 fa k)))) = true →
      entLoc (dirEnt s (hEPOCH (ownHdr s (setH0 28 20 fa k))) (hDST (ownHdr s (setH0 28 20 fa k)))) ≠ ownLoc s →
      choosePath s (ownHdr s (setH0 28 20 fa k)) e = some k1 → route s k1 true e = some (some n, k2) →
      Does (.mcast e) s fun t => t.fab.inbox = r ∧ t.out = s.out ++ [.packet n (sealPkt k2)]) ∧
  -- BROADCAST sends a copy on every UP row port and column port and delivers one at home.
  (∀ (s : State) (k k0 : Pkt), canInject s = true → hBSCOPE k = 1 →
      k0 = sealPkt (ownHdr s (setH1 13 2 0 (setH1 15 2 0 (setH1 17 3 0 (setH0 28 20 0xFFFFF k))))) →
      lapseOk s (ownHdr s (setH1 13 2 0 (setH1 15 2 0 (setH1 17 3 0 (setH0 28 20 0xFFFFF k))))) = true →
      Does (.broadcast k none) s fun t =>
        t.out = s.out ++ ((upPorts s 0 15).map fun p => .packet (servingPort s p) (rehdr (setH1 17 3 (hLH (setH1 13 2 0 (setH0 57 3 0 k0)) + 1) (setH1 13 2 0 (setH0 57 3 0 k0))))) ++
          ((upPorts s 15 15).map fun p => .packet (servingPort s p) (rehdr (setH1 17 3 (hLH (setH1 13 2 1 (setH0 57 3 0 k0)) + 1) (setH1 13 2 1 (setH0 57 3 0 k0))))) ∧
        (genOk s (hSRC k0) (hGEN k0) = true → hTYPE k0 ≠ 7 → t.fab.inbox = s.fab.inbox ++ [k0])) ∧
  -- REDUCE_UP of a first child opens a reduction with its values.
  (∀ (s : State) (k : Pkt) (r : List Pkt) (e : RouteEnv) (g : Nat), s.fab.inbox = k :: r → hTYPE k = 4 → g = 0xF0000 + hTSPEC k 48 16 →
      hTSPEC k 14 2 ≠ 3 → entGrp (dirEnt s (activeEpoch s) g) = true → fget (dirEnt s (activeEpoch s) g) 55 6 ≠ 0 → fget (dirEnt s (activeEpoch s) g) 61 1 = 1 →
      hSRC k ≠ ownFa s → (treeKids s (activeEpoch s) (dirEnt s (activeEpoch s) g)).contains (hSRC k) = true →
      s.fab.reds.find? (isRed g (hTSPEC k 32 16) (hTSPEC k 16 16)) = none →
      Does (.reduceUp false e) s fun t => t.fab.inbox = r ∧ t.out = s.out ∧
        t.fab.reds = s.fab.reds ++ [⟨g, hTSPEC k 32 16, hTSPEC k 16 16, hTSPEC k 14 2, [hSRC k], false, redStore (hTSPEC k 14 2) (redIn (hTSPEC k 14 2) k.pay), s.clk.mono⟩]) ∧
  -- REDUCE_UP of a further child adds its values.
  (∀ (s : State) (k : Pkt) (r : List Pkt) (e : RouteEnv) (g fmt : Nat) (c : RedCtx), s.fab.inbox = k :: r → hTYPE k = 4 → g = 0xF0000 + hTSPEC k 48 16 →
      fmt = hTSPEC k 14 2 → fmt ≠ 3 → entGrp (dirEnt s (activeEpoch s) g) = true → fget (dirEnt s (activeEpoch s) g) 55 6 ≠ 0 →
      fget (dirEnt s (activeEpoch s) g) 61 1 = 1 → hSRC k ≠ ownFa s → (treeKids s (activeEpoch s) (dirEnt s (activeEpoch s) g)).contains (hSRC k) = true →
      s.fab.reds = [c] → isRed g (hTSPEC k 32 16) (hTSPEC k 16 16) c = true → c.kids.contains (hSRC k) = false → c.localDone = false →
      Does (.reduceUp false e) s fun t => t.fab.inbox = r ∧
        t.fab.reds = [{ c with kids := c.kids ++ [hSRC k], acc := redStore fmt (List.zipWith (redAdd fmt) (redLoad fmt c.acc) (redIn fmt k.pay)) }]) ∧
  -- REDUCE_DOWN at a leaf member writes, publishes and remembers the total.
  (∀ (s : State) (k : Pkt) (r : List Pkt) (e : RouteEnv) (g p q : Nat), s.fab.inbox = k :: r → hTYPE k = 5 → g = 0xF0000 + hTSPEC k 48 16 →
      entGrp (dirEnt s (activeEpoch s) g) = true → fget (dirEnt s (activeEpoch s) g) 35 20 = hSRC k → fget (dirEnt s (activeEpoch s) g) 61 1 = 1 →
      treeKids s (activeEpoch s) (dirEnt s (activeEpoch s) g) = [] → s.fab.reds = [] → p = hDPART k → q = hDQ k → k.pay.length = 256 →
      s.rd (R.PART_Q_CFG.VALID p q) = 1 → s.mem.errs = [] → uKind (s.rd (R.PART_Q_ENDS.CONS p q)) ≠ 4 →
      Quiet s (s.rd (R.PART_Q_ENDS.CONS p q)) → Quiet s (s.rd (R.PART_Q_ENDS.PROD p q)) →
      Does (.reduceDown e) s fun t => t.fab.inbox = r ∧ (queOf t p q).pub = (queOf s p q).pub + 1 ∧
        (g * 2 ^ 32 + hTSPEC k 32 16 * 65536 + hTSPEC k 16 16, hTSPEC k 16 16) ∈ t.fab.totals ∧
        ∀ i < 256, byteAt t (qSlot s p q (queOf s p q).wr + i) = k.pay.getD i 0) ∧
  -- RED_CONTEXT_EXPIRY drops a reduction that lacks a contribution after 50 ms and counts it.
  (∀ (s : State) (g rs sg : Nat) (c : RedCtx), s.fab.reds = [c] → isRed g rs sg c = true → redFull s (activeEpoch s) g c = false →
      Does (.redContextExpiry g rs sg) s fun t => t.fab.reds = [] ∧ t.clk.mono = max s.clk.mono (c.opened + 50000000) ∧
        t.rd (R.FZ_DROPk.COUNT DR.RED_EXPIRED) = min (s.rd (R.FZ_DROPk.COUNT DR.RED_EXPIRED) + 1) (2 ^ 32 - 1))

/-- Fazar streams open, acknowledge, close and expire as their rules say. Each command completes, under the conditions given, with the effect given. Rests on 06_fazar_fabric.md. -/
def Obligations.StreamCommandsComplete : Prop :=
  -- STREAM_OPEN with room makes a receive context and grants it.
  (∀ (s : State) (k : Pkt) (r : List Pkt), s.fab.inbox = k :: r → isStream SB.OPEN k = true → findIn s (hSRC k) (hOCH k) = none →
      inUse s (hDPART k) < 8192 →
      Does .streamOpen s fun t => t.fab.inbox = r ∧
        findIn t (hSRC k) (hOCH k) = some ⟨hSRC k, hOCH k, hDPART k, hTSPEC k 48 16, 0, [], 0, 0, s.clk.mono⟩ ∧
        t.fab.toSend = s.fab.toSend ++ [streamPkt (hSRC k) (hOCH k) 0 (hTSPEC k 48 16) SB.GRANT 0] ∧
        t.rd (R.FZ_STREAMp.IN_USE (hDPART k)) = inUse t (hDPART k)) ∧
  -- Without room it answers BUSY.
  (∀ (s : State) (k : Pkt) (r : List Pkt), s.fab.inbox = k :: r → isStream SB.OPEN k = true → findIn s (hSRC k) (hOCH k) = none →
      8192 ≤ inUse s (hDPART k) →
      Does .streamOpen s fun t => t.fab.ins = s.fab.ins ∧
        t.fab.toSend = s.fab.toSend ++ [streamPkt (hSRC k) (hOCH k) 0 (hTSPEC k 48 16) SB.BUSY 0]) ∧
  -- STREAM_OPEN_RETRY asks again 100 us after the request, 20 us after BUSY.
  (∀ (s : State) (dst och : Nat) (x : StrOut), findOut s dst och = some x → x.st ≠ 1 → x.waiting = [] →
      Does (.streamOpenRetry dst och) s fun t => t.clk.mono = max s.clk.mono (x.last + (if x.st = 2 then 20000 else 100000)) ∧
        findOut t dst och = some { x with st := 0, last := t.clk.mono } ∧
        t.fab.toSend = s.fab.toSend ++ [streamPkt dst och 0 x.nonce SB.OPEN 0]) ∧
  -- STREAM_GRANT opens the stream and sends the waiting packet numbered.
  (∀ (s : State) (k w : Pkt) (r : List Pkt) (x : StrOut), s.fab.inbox = k :: r → isStream SB.GRANT k = true →
      findOut s (hSRC k) (hOCH k) = some x → x.nonce = hTSPEC k 48 16 → x.waiting = [w] → x.next < x.acked + 256 →
      Does .streamGrant s fun t => t.fab.inbox = r ∧ findOut t (hSRC k) (hOCH k) = some { x with st := 1, waiting := [], next := x.next + 1, last := s.clk.mono } ∧
        t.fab.toSend = s.fab.toSend ++ [setH1 48 16 x.next (setH2 48 16 x.nonce w)]) ∧
  -- STREAM_BUSY is noted.
  (∀ (s : State) (k : Pkt) (r : List Pkt) (x : StrOut), s.fab.inbox = k :: r → isStream SB.BUSY k = true →
      findOut s (hSRC k) (hOCH k) = some x → x.nonce = hTSPEC k 48 16 → x.st = 0 →
      Does .streamBusy s fun t => t.fab.inbox = r ∧ findOut t (hSRC k) (hOCH k) = some { x with st := 2, last := s.clk.mono } ∧ t.fab.toSend = s.fab.toSend) ∧
  -- STREAM_ACK moves the acknowledged number.
  (∀ (s : State) (k : Pkt) (r : List Pkt) (x : StrOut) (n : Nat), s.fab.inbox = k :: r → isStream SB.ACK k = true →
      findOut s (hSRC k) (hOCH k) = some x → x.nonce = hTSPEC k 48 16 → x.waiting = [] → n < 65536 → hTSPEC k 0 16 = (x.acked + n + 65535) % 65536 →
      x.acked + n ≤ x.next →
      Does .streamAck s fun t => t.fab.inbox = r ∧ findOut t (hSRC k) (hOCH k) = some { x with acked := x.acked + n, last := s.clk.mono }) ∧
  -- STREAM_ACK_TIMER acknowledges 2 us after the first unacknowledged packet.
  (∀ (s : State) (fa och : Nat) (x : StrIn), findIn s fa och = some x → 0 < x.unack →
      Does (.streamAckTimer fa och) s fun t => t.clk.mono = max s.clk.mono (x.unackAt + 2000) ∧ findIn t fa och = some { x with unack := 0 } ∧
        t.fab.toSend = s.fab.toSend ++ [streamPkt fa och 0 x.nonce SB.ACK (x.next + 65535)]) ∧
  -- STREAM_CLOSE drops the receive context.
  (∀ (s : State) (k : Pkt) (r : List Pkt) (x : StrIn), s.fab.inbox = k :: r → isStream SB.CLOSE k = true →
      findIn s (hSRC k) (hOCH k) = some x → x.nonce = hTSPEC k 48 16 →
      Does .streamClose s fun t => t.fab.inbox = r ∧ findIn t (hSRC k) (hOCH k) = none ∧ ∀ p < 8, t.rd (R.FZ_STREAMp.IN_USE p) = inUse t p % 2 ^ (R.FZ_STREAMp.IN_USE 0).w) ∧
  -- STREAM_IDLE_CLOSE closes an idle stream after 50 us.
  (∀ (s : State) (dst och : Nat) (x : StrOut), findOut s dst och = some x → x.st = 1 → x.waiting = [] →
      Does (.streamIdleClose dst och) s fun t => t.clk.mono = max s.clk.mono (x.last + 50000) ∧ findOut t dst och = none ∧
        t.fab.toSend = s.fab.toSend ++ [streamPkt dst och 0 x.nonce SB.CLOSE 0]) ∧
  -- STREAM_CONTEXT_EXPIRY drops an idle receive context after 1 ms.
  (∀ (s : State) (fa och : Nat) (x : StrIn), findIn s fa och = some x →
      Does (.streamContextExpiry fa och) s fun t => t.clk.mono = max s.clk.mono (x.last + 1000000) ∧ findIn t fa och = none) ∧
  -- FAZAR_OP_TIMEOUT of a running phase's timer fails the phase with TIMEOUT, FAZAR_OP and its index, and drops the streams of its timers.
  (∀ (s : State) (slot idx : Nat) (ph : Phase) (x : Timer), slot < 64 → phaseOf s slot = some ph →
      ph.timers.find? (fun t => t.idx == idx && !t.stopped) = some x → ph.admitted = true → ph.outcome = none → s.ctl.mode ≠ .hold →
      Does (.fazarOpTimeout slot idx) s fun t => t.clk.mono = max s.clk.mono (ph.admitAt + 1000 * x.tmo) ∧
        (phaseOf t slot).bind (·.outcome) = some (S.TIMEOUT, D.FAZAR_OP, 0, idx) ∧ ∀ y ∈ ph.timers, findOut t y.peer y.och = none)

/-- Operating point moves, forcing and droop act as their rules say. Each command completes, under the conditions given, with the effect given. Rests on 07_power_and_heat.md. -/
def Obligations.OperatingPointsAndDroopComplete : Prop :=
  -- OP_MOVE goes one point towards the target: up waits for VCORE, down starts blending.
  (∀ s : State, mayMove s = true → s.rd R.PWR_STAT.OP_TARGET ≠ s.rd R.PWR_STAT.OP_NOW →
      Does .opMove s fun t =>
        let now := s.rd R.PWR_STAT.OP_NOW
        let dst := if s.rd R.PWR_STAT.OP_TARGET < now then now - 1 else now + 1
        t.rd R.PWR_STAT.OP_NOW = now ∧ tget 0 t.clk.seen K.move = s.clk.mono ∧
          if s.pw.vcore < opMv s dst then t.pw = { s.pw with move := some ⟨now, dst, 0, false⟩ }
          else t.pw = { s.pw with move := some ⟨now, dst, 1, false⟩ } ∧ t.rd R.PWR_STAT.BLENDING = 1) ∧
  -- VCORE_SETTLED at 100 ns a millivolt plus 5 us starts blending.
  (∀ (s : State) (src dst : Nat), s.pw.move = some ⟨src, dst, 0, false⟩ → s.pw.vcore ≤ opMv s dst →
      Does .vcoreSettled s fun t => t.pw = { s.pw with vcore := opMv s dst, move := some ⟨src, dst, 1, false⟩ } ∧ t.rd R.PWR_STAT.BLENDING = 1 ∧
        t.clk.mono = max s.clk.mono (tget 0 s.clk.seen K.move + (opMv s dst - s.pw.vcore) * 100 + 5000)) ∧
  -- BLEND_STEP each 64 ns counts to 16, then the move is done: OP_NOW (no higher than the fused highest point), MOVES, and VCORE lowered after a slower move.
  (∀ (s : State) (src dst k : Nat), s.pw.move = some ⟨src, dst, k, false⟩ → 1 ≤ k → dst < 8 →
      Does .blendStep s fun t => t.clk.mono = max s.clk.mono (tget 0 s.clk.seen K.move + 64) ∧
        if k < 16 then t.pw = { s.pw with move := some ⟨src, dst, k + 1, false⟩ }
        else t.pw = { s.pw with move := none, vcore := if src < dst then opMv s dst else s.pw.vcore } ∧ t.rd R.PWR_STAT.OP_NOW = max dst (Config.topPoint s.nv.fuses.variant) ∧ t.rd R.PWR_STAT.BLENDING = 0 ∧
          t.rd R.PWR_OP.MOVES = (s.rd R.PWR_OP.MOVES + 1) % 65536) ∧
  -- FORCED_VCORE_FALL more than 1 ms after forcing brings VCORE to P7's.
  (∀ (s : State) (t0 : Nat), s.pw.forcedAt = some t0 →
      Does .forcedVcoreFall s fun t => t.pw = { s.pw with vcore := opMv s 7 } ∧ t.clk.mono = max s.clk.mono (t0 + 1000001)) ∧
  -- FORCED_RELEASE 100 us after forcing ended chooses a new target, no higher than the fused highest point.
  (∀ s : State, s.pw.restoring = true → forced s = false → s.rd R.PWR_STAT.CLIP_LAG = 0 →
      Does .forcedRelease s fun t => t.pw = { s.pw with restoring := false } ∧ t.rd R.PWR_STAT.OP_TARGET = max (choosePoint t % 8) (Config.topPoint s.nv.fuses.variant) ∧
        t.clk.mono = max s.clk.mono (tget 0 s.clk.seen K.forcedClr + 100000)) ∧
  -- DROOP_DETECT sets the die's bit, counts and stretches the clock, pausing a move.
  (∀ (s : State) (d : Nat), d < 2 → s.rd (droopFld d) = 0 →
      Does (.droopDetect d) s fun t => t.rd (droopFld d) = 1 ∧ t.rd (R.PWR_DROOPd.COUNT d) = (s.rd (R.PWR_DROOPd.COUNT d) + 1) % 2 ^ 32 ∧
        stretched t = true ∧ t.pw = { s.pw with move := s.pw.move.map fun m => { m with paused := true } }) ∧
  -- DROOP_RELEASE clears it.
  (∀ (s : State) (d : Nat), d < 2 → s.rd (droopFld d) = 1 →
      Does (.droopRelease d) s fun t => t.rd (droopFld d) = 0 ∧ tget 0 t.clk.seen K.droopOff = s.clk.mono ∧ t.pw.move = s.pw.move) ∧
  -- DROOP_LONG after more than 100 us records it once.
  (∀ (s : State) (d : Nat), d < 2 → s.rd (droopFld d) = 1 → s.pw.droopTold.contains d = false → EvReady s E.DROOP_LONG →
      Does (.droopLong d) s fun t => t.clk.mono = max s.clk.mono (tget 0 s.clk.seen (K.droop d) + 100001) ∧ t.pw.droopTold = s.pw.droopTold ++ [d] ∧
        Logged s t E.DROOP_LONG SK.hw [I.VALUE d]) ∧
  -- BLEND_RESUME 1 us after the last droop resumes a paused move.
  (∀ (s : State) (m : Move), s.pw.move = some m → m.paused = true → stretched s = false →
      Does .blendResume s fun t => t.pw = { s.pw with move := some { m with paused := false } } ∧
        t.clk.mono = max s.clk.mono (tget 0 s.clk.seen K.droopOff + 1000) ∧ tget 0 t.clk.seen K.move = t.clk.mono) ∧
  -- VR_ALERT forces P7, drives VR_ALERT_N low and records its condition.
  (∀ (s : State) (cond : Nat), cond < 6 → s.pw.alerts = [] → EvReady s E.VR_ALERT →
      Does (.vrAlert cond) s fun t => t.pw.alerts = [cond] ∧ t.rd R.RST_PIN_STAT.VR_ALERT_N = 0 ∧ t.rd R.PWR_STAT.F_ALERT = 1 ∧
        t.rd R.PWR_STAT.OP_NOW = 7 ∧ t.rd R.PWR_STAT.BLENDING = 0 ∧ t.pw.move = none ∧ t.pw.restoring = true ∧
        Logged s t E.VR_ALERT SK.hw [I.REASON (Config.eventCode (112 + cond))]) ∧
  -- VR_ALERT_RELEASE drives it high and ends its forcing.
  (∀ s : State, s.pw.alerts ≠ [] →
      Does .vrAlertRelease s fun t => t.pw.alerts = [] ∧ t.rd R.RST_PIN_STAT.VR_ALERT_N = 1 ∧ t.rd R.PWR_STAT.F_ALERT = 0 ∧
        (forced t = false → t.pw.forcedAt = none ∧ tget 0 t.clk.seen K.forcedClr = s.clk.mono))

/-- Power samples, clip lag, the estimator and its gains act as their rules say. Each command completes, under the conditions given, with the effect given. Rests on 07_power_and_heat.md. -/
def Obligations.PowerClipsComplete : Prop :=
  -- POWER_SAMPLE each 1 ms shows power and voltage, keeps ten samples and the fit's rows, sets the other power, clears VIN_HIGH at 60.0 V or below, and keeps CLIP_LAG only while the average stays above the limit.
  (∀ (s : State) (watts dv : Nat),
      Does (.powerSample watts dv) s fun t => Fired s t K.sample 1000000 ∧ t.rd R.PWR_INPUT.POWER_W = min watts 0xFFFF ∧
        t.rd R.PWR_INPUT.VIN = min dv 0x3FF ∧ t.pw.samples = (watts :: s.pw.samples).take 10 ∧
        t.host.otherW = watts - s.pw.runAcc / 1000000000 ∧ t.pw.rows = ((watts, s.pw.acc) :: s.pw.rows).take 1000 ∧
        t.rd R.PWR_STAT.VIN_HIGH = (if dv ≤ 600 then 0 else s.rd R.PWR_STAT.VIN_HIGH) ∧
        t.rd R.PWR_STAT.CLIP_LAG = (if avgAbove t (s.rd R.PWR_CLIP.EFF_W) 100 then s.rd R.PWR_STAT.CLIP_LAG else 0)) ∧
  -- CLIP_LAG_STEP moves one point down, not beyond P6, while the running phases' estimate and the other power exceed EFF_W.
  (∀ s : State, s.rd R.PWR_STAT.CLIP_LAG = 1 → fabricRunning s = false → mayMove s = true →
      s.rd R.PWR_STAT.OP_TARGET ≤ s.rd R.PWR_STAT.OP_NOW → s.rd R.PWR_STAT.OP_NOW < 6 → s.rd R.PWR_CLIP.EFF_W < s.pw.runW + s.host.otherW →
      Does .clipLagStep s fun t => t.rd R.PWR_STAT.OP_TARGET = s.rd R.PWR_STAT.OP_NOW + 1 ∧
        t.pw.move.map (·.dst) = some (s.rd R.PWR_STAT.OP_NOW + 1) ∧ t.rd R.PWR_STAT.OP_NOW = s.rd R.PWR_STAT.OP_NOW) ∧
  -- CLIP_LAG_LONG after 100 ms records EFF_W once.
  (∀ s : State, s.rd R.PWR_STAT.CLIP_LAG = 1 → tget 0 s.clk.seen K.clipLag = s.pw.lagAt → EvReady s E.CLIP_LAG_LONG →
      Does .clipLagLong s fun t => t.clk.mono = max s.clk.mono (s.pw.lagAt + 100000000) ∧ tget 0 t.clk.seen K.clipLag = s.pw.lagAt + 1 ∧
        Logged s t E.CLIP_LAG_LONG SK.hw [I.VALUE (s.rd R.PWR_CLIP.EFF_W)]) ∧
  -- ESTIMATOR_TICK each 1 us, with no phase running, forms the module's and each die's estimate (integer arithmetic: log entry 36).
  (∀ (s : State) (a : Activity), running s = [] →
      Does (.estimatorTick a) s fun t =>
        let all := sumCounts (a.other :: a.slots.map (·.2))
        Fired s t K.estTick 1000 ∧ t.host = s.host ∧ t.pw.runW = 0 ∧ t.pw.runAcc = s.pw.runAcc ∧
        t.pw.est = (classPj s 0 all + staticPj s 0 + staticPj s 1) / 1000000 ∧
        t.pw.estDie = [(classPj s 0 (dieCounts 0 all) + staticPj s 0) / 1000000, (classPj s 0 (dieCounts 1 all) + staticPj s 1) / 1000000]) ∧
  -- It adds a running phase's energy to that phase.
  (∀ (s : State) (c : Nat) (l o : List Nat), c ∈ running s →
      Does (.estimatorTick ⟨[(c, l)], o⟩) s fun t => (phaseOf t c).map (·.meas) = (phaseOf s c).map (fun ph => ph.meas + classPj s 0 l) ∧
        t.pw.runW = classPj s 0 l / 1000000 ∧ t.pw.runAcc = s.pw.runAcc + classPj s 0 l) ∧
  -- GAIN_REFIT each 1 s rejects a fit worse than 3 percent and otherwise takes its gains (the fit's values are free: log entry 37).
  (∀ s : State,
      Does .gainRefit s fun t => Fired s t K.refit 1000000000 ∧
        if fitRejected s.pw.rows ((Config.fitGains s.pw.rows).map boundGain) then t.rd R.PWR_EST.FIT_OK = 0 ∧ t.rd R.PWR_EST.FIT_REJECT = min (2 ^ (R.PWR_EST.FIT_REJECT).w - 1) (s.rd R.PWR_EST.FIT_REJECT + 1) ∧
          t.pw.rejects = s.pw.rejects + 1 ∧ t.pw.gains = s.pw.gains
        else t.rd R.PWR_EST.FIT_OK = 1 ∧ t.pw.rejects = 0 ∧
          ∀ c < 19, tget 1000000 t.pw.gains c = ((Config.fitGains s.pw.rows).map boundGain).getD c 1000000) ∧
  -- OP_CEIL_APPLY applies the armed ceiling at its time, no point above the fused highest one being allowed.
  (∀ (s : State) (at_ k : Nat), s.pw.ceilAt = some (at_, k) → k < 8 →
      Does .opCeilApply s fun t => t.rd R.PWR_OP.MGMT_CEIL = max k (Config.topPoint s.nv.fuses.variant) ∧ t.pw = { s.pw with ceilAt := none } ∧
        t.clk.mono = s.clk.mono + (at_ - s.clk.time.toNat))

/-- Hot spots, sensors, throttling, coolant and lifetime act as their rules say. Each command completes, under the conditions given, with the effect given. Rests on 07_power_and_heat.md. -/
def Obligations.HeatCommandsComplete : Prop :=
  -- HOTSPOT_SAMPLE each 10 us shows 48 control temperatures (0.125 degree units: log entry 40), sets F_HOT at 105 degrees, and forces P7 where a forcing begins.
  (∀ (s : State) (r : List (Int × Int × Int)), r.length = 48 →
      Does (.hotspotSample r) s fun t => Fired s t K.hotspot 10000 ∧
        (∀ i < 48, t.rd (R.PWR_HSd_h.TEMP (i / 24) (i % 24)) =
          ux 12 (control (s.rd (R.PWR_HSd_h.FAULT (i / 24) (i % 24)) == 1) (hsExcl s i) (r.getD i (0, 0, 0)))) ∧
        ((∃ i < 48, 840 ≤ control (s.rd (R.PWR_HSd_h.FAULT (i / 24) (i % 24)) == 1) (hsExcl s i) (r.getD i (0, 0, 0))) → t.rd R.PWR_STAT.F_HOT = 1) ∧
        (s.rd R.PWR_STAT.F_HOT + s.rd R.PWR_STAT.F_RATE < t.rd R.PWR_STAT.F_HOT + t.rd R.PWR_STAT.F_RATE →
          t.rd R.PWR_STAT.OP_NOW = 7 ∧ t.rd R.PWR_STAT.BLENDING = 0 ∧ t.pw.move = none ∧ t.pw.restoring = true)) ∧
  -- SENSOR_COMPARE each 1 ms, with none excluded, excludes the one sensor whose average disagrees with two that agree, and marks FAULT where none agree.
  (∀ s : State, (∀ i < 48, hsExcl s i = [false, false, false]) →
      Does .sensorCompare s fun t => Fired s t K.compare 1000000 ∧ t.pw.chSum = [] ∧ t.pw.chCnt = 0 ∧
        ∀ i < 48, let x := tget (0, 0, 0) s.pw.chSum i
          t.rd (R.PWR_HSd_h.EXCL_A (i / 24) (i % 24)) = (if agree s.pw.chCnt x.2.1 x.2.2 && !agree s.pw.chCnt x.1 x.2.1 && !agree s.pw.chCnt x.1 x.2.2 then 1 else 0) ∧
          t.rd (R.PWR_HSd_h.EXCL_B (i / 24) (i % 24)) = (if agree s.pw.chCnt x.1 x.2.2 && !agree s.pw.chCnt x.1 x.2.1 && !agree s.pw.chCnt x.2.1 x.2.2 then 1 else 0) ∧
          t.rd (R.PWR_HSd_h.EXCL_C (i / 24) (i % 24)) = (if agree s.pw.chCnt x.1 x.2.1 && !agree s.pw.chCnt x.1 x.2.2 && !agree s.pw.chCnt x.2.1 x.2.2 then 1 else 0) ∧
          t.rd (R.PWR_HSd_h.FAULT (i / 24) (i % 24)) = (if !agree s.pw.chCnt x.1 x.2.1 && !agree s.pw.chCnt x.1 x.2.2 && !agree s.pw.chCnt x.2.1 x.2.2 then 1
            else s.rd (R.PWR_HSd_h.FAULT (i / 24) (i % 24)))) ∧
  -- ROTATION_REQUEST asks a named, loaded array to rotate.
  (∀ (s : State) (unit : Nat), unit < 65536 → uKind unit = 0 → uIdx unit < 24 → named s unit = true → rotWanted s unit = true →
      s.pw.rotReq = [] → (arrOf s (uPart unit) (uIdx unit)).rotAt = none →
      Does (.rotationRequest unit) s fun t => t.pw = { s.pw with rotReq := [unit] } ∧ (arrOf t (uPart unit) (uIdx unit)).rotReq = true) ∧
  -- THROTTLE_STEP each 20 us at 100 degrees takes the array under the spot from duty 16 to 15.
  (∀ (s : State) (d h k : Nat), d < 2 → h < 24 → spotArrays s (24 * d + h) = [k] → 800 ≤ hsTemp s (24 * d + h) →
      (tget Arr.init s.arrs k).duty = 16 → k < 192 →
      Does (.throttleStep d h (uidOf (k / 24) 0 (k % 24))) s fun t => Fired s t (K.step (24 * d + h)) 20000 ∧ (tget Arr.init t.arrs k).duty = 15) ∧
  -- THROTTLE_RESTORE each 200 us at 98 degrees or below gives one step back.
  (∀ (s : State) (d h k : Nat), d < 2 → h < 24 → spotArrays s (24 * d + h) = [k] → hsTemp s (24 * d + h) ≤ 784 →
      (tget Arr.init s.arrs k).duty < 16 → k < 192 →
      Does (.throttleRestore d h) s fun t => Fired s t (K.rest (24 * d + h)) 200000 ∧
        (tget Arr.init t.arrs k).duty = (tget Arr.init s.arrs k).duty + 1) ∧
  -- HOT_RELEASE at 100 degrees or below clears F_HOT after 1 ms.
  (∀ s : State, s.rd R.PWR_STAT.F_HOT = 1 → s.pw.tj ≤ 800 →
      Does .hotRelease s fun t => t.rd R.PWR_STAT.F_HOT = 0 ∧ t.clk.mono = max s.clk.mono (tget 0 s.clk.seen K.hot + 1000000) ∧
        (forced t = false → t.pw.forcedAt = none ∧ tget 0 t.clk.seen K.forcedClr = t.clk.mono)) ∧
  -- RATE_RELEASE at 95 degrees or below clears F_RATE after 10 ms.
  (∀ s : State, s.rd R.PWR_STAT.F_RATE = 1 → s.pw.tj ≤ 760 →
      Does .rateRelease s fun t => t.rd R.PWR_STAT.F_RATE = 0 ∧ t.clk.mono = max s.clk.mono (tget 0 s.clk.seen K.rate + 10000000) ∧
        (forced t = false → t.pw.forcedAt = none ∧ tget 0 t.clk.seen K.forcedClr = t.clk.mono)) ∧
  -- THERMAL_UPDATE each 1 s shows the coolant, filters the resistance from 400 W on, and derives THERM_W and EFF_W.
  (∀ (s : State) (tin tout : Int), controlUp s = true →
      Does (.thermalUpdate tin tout) s fun t =>
        let watts : Int := s.pw.pwSum / max 1 s.pw.pwCnt
        Fired s t K.thermal 1000000000 ∧ t.rd R.PWR_COOL.T_IN = ux 12 tin ∧
        t.rd R.PWR_COOL.T_OUT = ux 12 tout ∧ t.pw.tin = tin ∧
        t.pw.rth = (if 400 ≤ watts ∧ 0 < s.pw.tjCnt then
          (rthStep s.pw.rth ((s.pw.tjSum - tin * s.pw.tjCnt) * 125000000 / (s.pw.tjCnt * watts))).toNat else s.pw.rth) ∧
        t.rd R.PWR_CLIP_DER.THERM_W = thermW tin (if 10 ≤ t.pw.rthSecs then t.pw.rth else 30000000) ∧
        (clipSources t).foldl min 65535 = t.rd R.PWR_CLIP.EFF_W) ∧
  -- FLOW_MISMATCH after 10 s of a mismatch is recorded once.
  (∀ (s : State) (t0 : Nat), s.pw.flowBad = some t0 → s.pw.flowTold = false → EvReady s E.FLOW_MISMATCH →
      Does .flowMismatch s fun t => Logged s t E.FLOW_MISMATCH SK.fw [I.VALUE (s.rd R.PWR_INPUT.POWER_W), I.VALUE (coolantW s)] ∧
        t.pw = { s.pw with flowTold := true } ∧ t.clk.mono = max s.clk.mono (t0 + 10000000000)) ∧
  -- CYCLE_SAMPLE each 10 s puts a turning point on the stack.
  (∀ s : State, s.pw.stack.length ≤ 2 → s.rd R.PWR_LIFE_N20.HALF = 0 → s.rd R.PWR_LIFE_N40.HALF = 0 → s.rd R.PWR_LIFE_N60.HALF = 0 →
      Does .cycleSample s fun t => Fired s t K.cycle 10000000 ∧ t.pw = { s.pw with stack := turn s.pw.tj s.pw.stack } ∧
        t.rd R.PWR_LIFE_DAMAGE.D = 0) ∧
  -- A closed 40 degree cycle counts two halves of N40 and leaves the stack.
  (∀ (s : State) (a b c x : Int), s.pw.stack = [c, b, a] → s.pw.tj = x → a < c → c < b → b < x → b - c = 320 → b - a < 480 →
      a + 16 ≤ c → s.rd R.PWR_LIFE_N40.HALF < 2 ^ 31 →
      Does .cycleSample s fun t => t.pw.stack = [x, a] ∧ t.rd R.PWR_LIFE_N40.HALF = s.rd R.PWR_LIFE_N40.HALF + 2) ∧
  -- LIFE_SAVE each hour hands the counts and the stack to the journal.
  (∀ s : State, s.ctl.doneTrain = true →
      Does .lifeSave s fun t => Fired s t K.lifeSave 3600000000000 ∧ t.nv = s.nv ∧
        t.vlt = { s.vlt with life := some ([s.rd R.PWR_LIFE_N20.HALF, s.rd R.PWR_LIFE_N40.HALF, s.rd R.PWR_LIFE_N60.HALF], s.pw.stack) })

/-- Guards, escalation and Worisy link events act as their rules say. Each command completes, under the conditions given, with the effect given. Rests on 10_faults_and_recovery.md, 11_management_and_firmware.md. -/
def Obligations.GuardsAndWorisyLinksComplete : Prop :=
  -- GUARD_TRIP of two channels writes cause 4 with kind and channels, latches off and switches off.
  (∀ (s : State) (kind channels : Nat), 2 ≤ popCount 3 channels → s.hs.on = true → 1 ≤ kind → kind ≤ 4 → channels < 8 →
      Does (.guardTrip kind channels) s fun t => t.nv.latch.cause = 4 ∧ t.nv.latch.detail = kind * 16 + channels ∧
        t.hs.on = false ∧ t.hs.rails = [] ∧ t.hs.latched = true ∧ t.ctl.mode = .off) ∧
  -- GUARD_SINGLE of one channel counts, sets FORCE and forces P7.
  (∀ (s : State) (ch kind : Nat), ch < 3 → 1 ≤ kind → kind ≤ 4 → s.hs.rails ≠ [] → asserted s kind = [] →
      Does (.guardSingle ch kind) s fun t => asserted t kind = [ch] ∧ t.rd R.GRD_STAT.SINGLE = 1 ∧ t.rd R.GRD_STAT.FORCE = 1 ∧
        t.rd R.GRD_STAT.SINGLE_CNT = min 65535 (s.rd R.GRD_STAT.SINGLE_CNT + 1) ∧ t.rd R.PWR_STAT.OP_NOW = 7 ∧ t.pw.restoring = true) ∧
  -- A second channel of the kind is a trip.
  (∀ (s : State) (ch other kind : Nat), ch < 3 → 1 ≤ kind → kind ≤ 4 → s.hs.rails ≠ [] → asserted s kind = [other] →
      other ≠ ch → s.hs.on = true →
      Does (.guardSingle ch kind) s fun t => t.nv.latch.cause = 4 ∧ t.nv.latch.detail = kind * 16 + 2 ^ ch + 2 ^ other ∧ t.hs.on = false ∧ t.ctl.mode = .off) ∧
  -- GUARD_SUSPECT 900 us after a single assertion marks the channel suspect; the assertion stays.
  (∀ (s : State) (ch kind : Nat), ch < 3 → 1 ≤ kind → kind ≤ 4 → asserted s kind = [ch] → tget 0 s.clk.seen (K.single ch kind) ≠ 0 →
      Does (.guardSuspect ch kind) s fun t => t.clk.mono = max s.clk.mono (tget 0 s.clk.seen (K.single ch kind) + 900000) ∧
        t.rd (suspectFld ch) = 1 ∧ asserted t kind = [ch] ∧ tget 0 t.clk.seen (K.single ch kind) = 0) ∧
  -- GUARD_SINGLE_RELEASE takes the assertion back and ends FORCE where none forces.
  (∀ (s : State) (ch kind : Nat), ch < 3 → 1 ≤ kind → kind ≤ 4 → (asserted s kind).contains ch = true →
      Does (.guardSingleRelease ch kind) s fun t => t.rd (assertFld ch kind) = 0 ∧ asserted t kind = (asserted s kind).filter (· ≠ ch) ∧
        (guardForcing t = false → t.rd R.GRD_STAT.FORCE = 0)) ∧
  -- ESCALATE of a noted fault with code 5 to 7 starts the unit's partition rung.
  (∀ (s : State) (code unit : Nat), 5 ≤ code → code ≤ 7 → unit < 65536 → serving s = true → unavail s (uPart unit) = false →
      s.ctl.rungs = [] → s.watch.faults.contains (code, unit) = true → entryWaits s code unit = false →
      Does (.escalate code unit) s fun t => t.ctl.rungs.map (fun r => (r.depth, r.pmask)) = [(3, 2 ^ uPart unit)] ∧
        t.rd R.RST_ESC_STAT.LAST_RUNG = 3 ∧ t.rd R.RST_ESC_LAST.CODE = code ∧ t.watch.faults.contains (code, uPart unit * 8192) = false) ∧
  -- With code 1 or 3 below the engine limit it asks the engine's reset.
  (∀ (s : State) (code unit : Nat), code = 1 ∨ code = 3 → unit < 65536 → serving s = true → unavail s (uPart unit) = false →
      s.ctl.rungs = [] → s.watch.faults.contains (code, unit) = true → entryWaits s code unit = false → engUnit unit = true → uKind unit ≤ 1 →
      unitCtx s (evenOf s unit) = none → s.rd (R.PART_ENG_RST_STAT.BUSY (uPart unit)) = 0 →
      (∀ k ∈ physKeys s (evenOf s unit), inWindow s 2 k + 1 < limitOf s R.RST_ESC_CFG.ENG_LIMIT) →
      Does (.escalate code unit) s fun t => t.ctl.rungs.map (fun r => (r.depth, r.pmask)) = [(2, 2 ^ uPart unit)] ∧
        t.rd (R.PART_ENG_RST_STAT.BUSY (uPart unit)) = 1 ∧ t.rd (R.PART_ENG_RST_STAT.UNIT (uPart unit)) = evenOf s unit ∧
        t.rd R.RST_ESC_STAT.LAST_RUNG = 2 ∧ t.rd R.RST_ESC_LAST.CODE = code) ∧
  -- With code 2 it asks the reset of the pair's even array.
  (∀ (s : State) (p n : Nat), p < 8 → n + 1 < 24 → serving s = true → unavail s p = false →
      s.ctl.rungs = [] → s.watch.faults.contains (2, uidOf p 0 n) = true → entryWaits s 2 (uidOf p 0 n) = false → s.rd (R.PART_ARR_STAT.PAIR p n) = 1 →
      unitCtx s (uidOf p 0 n) = none → s.rd (R.PART_ENG_RST_STAT.BUSY p) = 0 →
      (∀ k ∈ physKeys s (uidOf p 0 n), inWindow s 2 k + 1 < limitOf s R.RST_ESC_CFG.ENG_LIMIT) →
      Does (.escalate 2 (uidOf p 0 n)) s fun t => t.rd (R.PART_ENG_RST_STAT.BUSY p) = 1 ∧ t.rd (R.PART_ENG_RST_STAT.UNIT p) = uidOf p 0 n ∧
        t.rd R.RST_ESC_LAST.CODE = 2) ∧
  -- At the engine limit it starts the partition rung, code 8.
  (∀ (s : State) (code unit : Nat), code = 1 ∨ code = 3 → unit < 65536 → serving s = true → unavail s (uPart unit) = false →
      s.ctl.rungs = [] → s.watch.faults.contains (code, unit) = true → entryWaits s code unit = false → engUnit unit = true → uKind unit ≤ 1 →
      unitCtx s (evenOf s unit) = none → s.rd (R.PART_ENG_RST_STAT.BUSY (uPart unit)) = 0 →
      (∃ k ∈ physKeys s (evenOf s unit), limitOf s R.RST_ESC_CFG.ENG_LIMIT ≤ inWindow s 2 k + 1) →
      Does (.escalate code unit) s fun t => t.ctl.rungs.map (fun r => (r.depth, r.pmask)) = [(3, 2 ^ uPart unit)] ∧
        t.rd R.RST_ESC_STAT.LAST_RUNG = 3 ∧ t.rd R.RST_ESC_LAST.CODE = 8) ∧
  -- While the failed operation's completion entry waits, it changes nothing.
  (∀ (s : State) (code unit : Nat), unit < 65536 → entryWaits s code unit = true → Does (.escalate code unit) s (· = s)) ∧
  -- SWEEP_FAIL withholds a free physical unit.
  (∀ (s : State) (p kind phys : Nat), p < 8 → kind < 2 → phys < (if kind = 0 then 26 else 52) → serving s = true → unavail s p = false → physFree s p kind phys = true →
      Does (.sweepFail p kind phys) s fun t => t.pw = { s.pw with withheld := s.pw.withheld ++ [(p, kind, phys)] } ∧ physFree t p kind phys = false) ∧
  -- WORISY_SIGNAL_DETECT with the module on sets the port's signal bit.
  (∀ (s : State) (port : Nat), port < 2 → s.ctl.mode ≠ .off → Does (.worisySignalDetect port) s fun t => t.rd (sdFld port) = 1) ∧
  -- WORISY_SIGNAL_LOSS clears it.
  (∀ (s : State) (port : Nat), port < 2 → s.ctl.mode ≠ .off → Does (.worisySignalLoss port) s fun t => t.rd (sdFld port) = 0) ∧
  -- WORISY_FRAME_ERROR with the module on counts, saturating.
  (∀ (s : State) (port : Nat), port < 2 → s.ctl.mode ≠ .off →
      Does (.worisyFrameError port) s fun t => t.rd (R.RST_WOR_STATp.FRAME_ERR port) = min (2 ^ (R.RST_WOR_STATp.FRAME_ERR port).w - 1) (s.rd (R.RST_WOR_STATp.FRAME_ERR port) + 1)) ∧
  -- LEASE_EXPIRY 500 ms after the last renewal ends the lease and starts the guard time.
  (∀ s : State, s.rd R.RST_LEASE.HOLDER ≠ 0 →
      Does .leaseExpiry s fun t => t.rd R.RST_LEASE.HOLDER = 0 ∧ t.rd R.RST_LEASE.GUARD = 1 ∧
        t.clk.mono = max s.clk.mono (tget 0 s.clk.seen K.lease - 1 + 500000000) ∧ tget 0 t.clk.seen K.leaseEnd = t.clk.mono) ∧
  -- LEASE_GUARD_END 100 ms later ends it.
  (∀ s : State, s.rd R.RST_LEASE.GUARD = 1 →
      Does .leaseGuardEnd s fun t => t.rd R.RST_LEASE.GUARD = 0 ∧ t.clk.mono = max s.clk.mono (tget 0 s.clk.seen K.leaseEnd + 100000000)) ∧
  -- COMMAND_DONE of an open command sends the DONE notice on both ports.
  (∀ (s : State) (port seq cmd : Nat), port < 2 → (worPort s port).open_.find? (fun x => x.1 == seq) = some (seq, cmd) →
      Does (.commandDone port seq) s fun t => (worPort t port).open_ = (worPort s port).open_.filter (· ≠ (seq, cmd)) ∧
        Noticed s t 0x8006 (leBytes 2 cmd ++ leBytes 2 seq ++ leBytes 4 WS.OK)) ∧
  -- In mode OFF the three link events change nothing.
  (∀ (s : State) (port : Nat), port < 2 → s.ctl.mode = .off →
      Does (.worisySignalDetect port) s (· = s) ∧ Does (.worisySignalLoss port) s (· = s) ∧ Does (.worisyFrameError port) s (· = s))

/-- Lease commands of Worisy ports are answered and act as their rules say. A request the module hears, in order for its command, is answered as given on its port with its sequence number, and the response is kept for repetition. Rests on 11_management_and_firmware.md. -/
def Obligations.WorisyRequestsAndLeaseComplete : Prop :=
  -- LEASE_CLAIM of a free lease makes the port holder in the next generation.
  (∀ (s : State) (w : WReq), FreeReq s w WC.LEASE_CLAIM → s.rd R.RST_LEASE.HOLDER = 0 →
      (s.rd R.RST_LEASE.GUARD = 0 ∨ s.rd R.RST_LEASE.LAST = w.port) →
      Does (.leaseClaim w) s fun t => let g := (s.rd R.RST_LEASE.LGEN + 1) % 256
        Answered s t w WC.LEASE_CLAIM WS.OK (word4 g) ∧ t.rd R.RST_LEASE.HOLDER = w.port + 1 ∧ t.rd R.RST_LEASE.LGEN = g ∧
          t.rd R.RST_LEASE.LAST = w.port ∧ t.rd R.RST_LEASE.GUARD = 0 ∧ tget 0 t.clk.seen K.lease = s.clk.mono + 1) ∧
  -- In the guard time the other port is refused with GUARD_TIME.
  (∀ (s : State) (w : WReq), FreeReq s w WC.LEASE_CLAIM → s.rd R.RST_LEASE.HOLDER = 0 → s.rd R.RST_LEASE.GUARD = 1 →
      s.rd R.RST_LEASE.LAST ≠ w.port →
      Does (.leaseClaim w) s fun t => Answered s t w WC.LEASE_CLAIM WS.GUARD_TIME [] ∧ t.rd R.RST_LEASE.HOLDER = 0) ∧
  -- LEASE_RENEW renews in the same generation.
  (∀ (s : State) (w : WReq), ByHolder s w WC.LEASE_RENEW →
      Does (.leaseRenew w) s fun t => Answered s t w WC.LEASE_RENEW WS.OK [] ∧ tget 0 t.clk.seen K.lease = s.clk.mono + 1 ∧
        t.rd R.RST_LEASE.LGEN = s.rd R.RST_LEASE.LGEN) ∧
  -- A renewal not in order is refused with its status and renews nothing.
  (∀ (s : State) (w : WReq) (status : Nat), Heard s w → actRefusal s w WC.LEASE_RENEW = some status →
      Does (.leaseRenew w) s fun t => Answered s t w WC.LEASE_RENEW status [] ∧ t.rd R.RST_LEASE.LGEN = s.rd R.RST_LEASE.LGEN ∧
        t.clk.seen = s.clk.seen) ∧
  -- LEASE_RELEASE ends the lease, starts the guard time and sends notice 0x8001.
  (∀ (s : State) (w : WReq), ByHolder s w WC.LEASE_RELEASE →
      Does (.leaseRelease w) s fun t => Answered s t w WC.LEASE_RELEASE WS.OK [] ∧ t.rd R.RST_LEASE.HOLDER = 0 ∧ t.rd R.RST_LEASE.GUARD = 1 ∧
        tget 0 t.clk.seen K.leaseEnd = s.clk.mono ∧ Noticed s t 0x8001 []) ∧
  -- LEASE_STATUS answers RST_LEASE.
  (∀ (s : State) (w : WReq), FreeReq s w WC.LEASE_STATUS →
      Does (.leaseStatus w) s fun t => Answered s t w WC.LEASE_STATUS WS.OK (word4 (readWord s (regOff .RST_LEASE [])).toNat))

/-- Worisy requests that read or write the module are answered as their rules say. A request the module hears, in order for its command, is answered as given on its port with its sequence number, and the response is kept for repetition. Rests on 11_management_and_firmware.md, 12_register_index.md. -/
def Obligations.WorisyReadsAndWritesComplete : Prop :=
  -- PING is answered OK.
  (∀ (s : State) (w : WReq), FreeReq s w WC.PING → Does (.ping w) s fun t => Answered s t w WC.PING WS.OK []) ∧
  -- A repeated request is answered from the kept response.
  (∀ (s : State) (w : WReq) (a : Ans), w.port < 2 → s.ctl.mode ≠ .off → s.ctl.mode ≠ .mfgTest → keptAnswer s w = some a →
      Does (.ping w) s fun t => t.out = s.out ++ [.worisy w.port w.seq WC.PING a.1 0 a.2] ∧ worPort t w.port = worPort s w.port) ∧
  -- INFO answers the information bytes.
  (∀ (s : State) (w : WReq), FreeReq s w WC.INFO → Does (.info w) s fun t => Answered s t w WC.INFO WS.OK (infoBytes s)) ∧
  -- REG_READ in range answers its words (FZ_TIME_LO apart).
  (∀ (s : State) (w : WReq) (off cnt : Nat), FreeReq s w WC.REG_READ → 
      regRange off cnt = true → (∀ i < cnt, off + 4 * i ≠ regOff .FZ_TIME_LO []) →
      Does (.regRead w off cnt) s fun t =>
        Answered s t w WC.REG_READ WS.OK (wordsBytes ((List.range cnt).map fun i => readWord s (off + 4 * i)))) ∧
  -- REG_READ of FZ_TIME_LO answers the low half and latches the high half.
  (∀ (s : State) (w : WReq), FreeReq s w WC.REG_READ →
      Does (.regRead w (regOff .FZ_TIME_LO []) 1) s fun t =>
        Answered s t w WC.REG_READ WS.OK (wordsBytes [BitVec.ofNat 32 s.clk.time.toNat]) ∧ t.fab.hiLatch = BitVec.ofNat 32 (s.clk.time.toNat / 2 ^ 32)) ∧
  -- One out of range is refused with BAD_ARG.
  (∀ (s : State) (w : WReq) (off cnt : Nat), FreeReq s w WC.REG_READ → regRange off cnt = false →
      Does (.regRead w off cnt) s fun t => Answered s t w WC.REG_READ WS.BAD_ARG []) ∧
  -- REG_WRITE of a plain register stores it with RSV bits 0.
  (∀ (s : State) (w : WReq) (k : RegKind) (ix : List Nat) (v : BitVec 32), Heard s w → w.rsv = false → w.lgen = 0 → w.badLen = false →
      worBusy s WC.REG_WRITE = false → plainReg k = true → regAt (regOff k ix) = some (k, ix) → Passes s (portSrc w.port) (regOff k ix) →
      Does (.regWrite w (regOff k ix) [v]) s fun t => Sent s t (.worisy w.port w.seq WC.REG_WRITE WS.OK 0 []) ∧
        (regWord t k ix).toNat = v.toNat &&& regMask k) ∧
  -- REG_WRITE of a register that belongs to a command is refused with USE_COMMAND.
  (∀ (s : State) (w : WReq) (k : RegKind) (ix : List Nat) (v : BitVec 32), Heard s w → w.rsv = false → w.lgen = 0 → w.badLen = false →
      worBusy s WC.REG_WRITE = false → regAt (regOff k ix) = some (k, ix) → commandOnly (regOff k ix) = true →
      Does (.regWrite w (regOff k ix) [v]) s fun t => Answered s t w WC.REG_WRITE WS.USE_COMMAND [] ∧ regWord t k ix = regWord s k ix) ∧
  -- REG_WRITE out of range is refused with BAD_ARG.
  (∀ (s : State) (w : WReq) (off : Nat) (ws : List (BitVec 32)), Heard s w → w.rsv = false → w.lgen = 0 → w.badLen = false →
      worBusy s WC.REG_WRITE = false →  regRange off ws.length = false →
      Does (.regWrite w off ws) s fun t => Answered s t w WC.REG_WRITE WS.BAD_ARG []) ∧
  -- EVT_READ out of range is refused with BAD_ARG.
  (∀ (s : State) (w : WReq) (off len : Nat), FreeReq s w WC.EVT_READ → 
      ¬ (len % 8 = 0 ∧ len ≤ 2048 ∧ off + len ≤ 16384 * 4096) →
      Does (.evtRead w off len) s fun t => Answered s t w WC.EVT_READ WS.BAD_ARG []) ∧
  -- EVT_READ answers the event bytes.
  (∀ (s : State) (w : WReq) (off len : Nat), FreeReq s w WC.EVT_READ → len % 8 = 0 → len ≤ 2048 → off + len ≤ 16384 * 4096 →
      Does (.evtRead w off len) s fun t => Answered s t w WC.EVT_READ WS.OK (evtBytes s off len))

/-- Worisy actuating commands from the lease holder take effect. A request in order from the lease holder is answered as given and has the effect given. Rests on 07_power_and_heat.md, 09_reset_and_bringup.md, 11_management_and_firmware.md. -/
def Obligations.WorisyActuatingCommandsComplete : Prop :=
  -- SET_CLIP stores the clip, clamped to the fused ceiling, in force in EFF_W at once.
  (∀ (s : State) (w : WReq) (watts : Nat), ByHolder s w WC.SET_CLIP →
      Does (.setClip w watts) s fun t => let c := Config.contCeiling s.nv.fuses.variant
        t.rd R.PWR_CLIP_IN.MGMT_W = min watts c ∧ t.rd R.PWR_CLIP.EFF_W ≤ min watts c ∧ (clipSources t).foldl min 65535 = t.rd R.PWR_CLIP.EFF_W ∧
          Answered s t w WC.SET_CLIP (if c < watts then WS.CLAMPED else WS.OK) (word4 (min watts c))) ∧
  -- SET_RACK_CLIP does so for the rack clip.
  (∀ (s : State) (w : WReq) (watts : Nat), ByHolder s w WC.SET_RACK_CLIP →
      Does (.setRackClip w watts) s fun t => let c := Config.contCeiling s.nv.fuses.variant
        t.rd R.PWR_CLIP_IN.RACK_W = min watts c ∧ t.rd R.PWR_CLIP.EFF_W ≤ min watts c ∧ (clipSources t).foldl min 65535 = t.rd R.PWR_CLIP.EFF_W ∧
          Answered s t w WC.SET_RACK_CLIP (if c < watts then WS.CLAMPED else WS.OK) (word4 (min watts c))) ∧
  -- SET_OP_CEIL clamps the point to the fused highest and applies it now or arms it.
  (∀ (s : State) (w : WReq) (point time : Nat), ByHolder s w WC.SET_OP_CEIL → point < 8 →
      (time = 0 ∨ s.clk.time.toNat < time) →
      Does (.setOpCeil w point time) s fun t => let top := Config.topPoint s.nv.fuses.variant
        Answered s t w WC.SET_OP_CEIL (if point < top then WS.CLAMPED else WS.OK) [] ∧
          if time = 0 then t.rd R.PWR_OP.MGMT_CEIL = max point top else t.pw = { s.pw with ceilAt := some (time, max point top) }) ∧
  -- FLOW_REPORT below 60 percent derives FLOW_W and sets COOL_LOW; from 60 on it lifts both.
  (∀ (s : State) (w : WReq) (flow : Nat), ByHolder s w WC.FLOW_REPORT → flow < 255 →
      Does (.flowReport w flow) s fun t => Answered s t w WC.FLOW_REPORT WS.OK [] ∧ t.rd R.PWR_COOL.FLOW = flow ∧
        if flow < 60 then t.rd R.PWR_CLIP_DER.FLOW_W = Config.contCeiling s.nv.fuses.variant * flow / 100 ∧ t.rd R.PWR_STAT.COOL_LOW = 1
        else t.rd R.PWR_CLIP_DER.FLOW_W = 0xFFFF ∧ t.rd R.PWR_STAT.COOL_LOW = 0) ∧
  -- HOLD enters HOLD at P7.
  (∀ (s : State) (w : WReq), ByHolder s w WC.HOLD → s.ctl.mode = .run ∨ s.ctl.mode = .ready ∨ s.ctl.mode = .drain →
      Does (.operatorHold w) s fun t => Answered s t w WC.HOLD WS.OK [] ∧ t.ctl = { s.ctl with mode := .hold, ret := s.ctl.mode } ∧
        t.rd R.PWR_STAT.HOLD_OPER = 1 ∧ t.rd R.PWR_STAT.OP_NOW = 7) ∧
  -- HOLD release returns to RUN.
  (∀ (s : State) (w : WReq), ByHolder s w WC.HOLD → s.ctl.mode = .hold → s.rd R.PWR_STAT.HOLD_BROWN = 0 →
      s.ctl.ret = .run →
      Does (.operatorHoldRelease w) s fun t => Answered s t w WC.HOLD WS.OK [] ∧ t.ctl = { s.ctl with mode := .run } ∧ t.rd R.PWR_STAT.HOLD_OPER = 0) ∧
  -- RESET rung 4 starts the module rung.
  (∀ (s : State) (w : WReq), ByHolder s w WC.RESET → moduleBusy s = false →
      Does (.reset w 4 0 0 0) s fun t => Answered s t w WC.RESET WS.OK [] ∧ moduleBusy t = true) ∧
  -- RESET rung 3 starts the partition rung.
  (∀ (s : State) (w : WReq) (p : Nat), p < 8 → ByHolder s w WC.RESET → s.ctl.mode = .run → s.ctl.rungs = [] →
      Does (.reset w 3 (2 ^ p) 0 0) s fun t => Answered s t w WC.RESET WS.OK [] ∧ t.ctl.rungs.map (fun r => (r.depth, r.pmask)) = [(3, 2 ^ p)]) ∧
  -- MEMBER_RENEW renews and clears LAPSED.
  (∀ (s : State) (w : WReq), ByHolder s w WC.MEMBER_RENEW →
      Does (.memberRenew w) s fun t => Answered s t w WC.MEMBER_RENEW WS.OK [] ∧ t.fab = { s.fab with renewed := some s.clk.mono } ∧
        t.rd R.FZ_MEMBER.LAPSED = 0) ∧
  -- FENCE enters FENCED, disables every port and marks the fence to outlast power.
  (∀ (s : State) (w : WReq), ByHolder s w WC.FENCE → s.ctl.mode ≠ .fenced → s.ctl.mode ≠ .minimal →
      Does (.fenceCommand w) s fun t => Answered s t w WC.FENCE WS.OK [] ∧ t.ctl = { s.ctl with mode := .fenced } ∧ t.rd R.FZ_MEMBER.FENCED = 1 ∧
        t.nv.nor.fenceMark = true ∧ ∀ n < 36, t.rd (R.FZ_PORT_STAT.STATE n) = PS.DISABLED ∧ Sent s t (.portIdle n)) ∧
  -- In MINIMAL it is answered OK and marks the fence to outlast power; the mode stays (log entry 52, the model's reading).
  (∀ (s : State) (w : WReq), ByHolder s w WC.FENCE → s.ctl.mode = .minimal →
      Does (.fenceCommand w) s fun t => Answered s t w WC.FENCE WS.OK [] ∧ t.ctl.mode = .minimal ∧ t.rd R.FZ_MEMBER.FENCED = 1 ∧
        t.nv.nor.fenceMark = true ∧ t.rd R.RST_FAULT.FENCED = 1) ∧
  -- READMIT of a pending module with a sealed bank and membership lays the bank under the epoch bit and ends the fence mark.
  (∀ (s : State) (w : WReq) (e : Nat), ByHolder s w WC.READMIT → e < 2 → s.rd R.RST_ESC_STAT.READMIT_PEND = 1 →
      s.rd R.FZ_BANK_STAT.READY = 1 → s.fab.renewed.isSome = true → s.rd R.FZ_MEMBER.LAPSED = 0 →
      Does (.readmit w e) s fun t => Answered s t w WC.READMIT WS.OK [] ∧ t.rd R.FZ_BANK_STAT.ACTIVE = e ∧ t.rd R.FZ_BANK_STAT.READY = 0 ∧
        bankOf t e = bankOf s (1 - activeEpoch s) ∧ t.nv.nor.fenceMark = false ∧ t.rd R.RST_ESC_STAT.READMIT_PEND = 0) ∧
  -- CLR_FAILS clears the count of failed starts.
  (∀ (s : State) (w : WReq), ByHolder s w WC.CLR_FAILS →
      Does (.worisyClrFails w) s fun t => Answered s t w WC.CLR_FAILS WS.OK [] ∧ t.nv.nor = { s.nv.nor with fails := 0 })

/-- Measurements, owner keys, IDE and the event recorder act as their rules say. Each command completes, under the conditions given, with the effect given. Rests on 11_management_and_firmware.md. -/
def Obligations.SecurityAndRecorderComplete : Prop :=
  -- MEAS_READ answers measurement 1 to 6 (layout: log entry 48).
  (∀ (s : State) (w : WReq) (idx : Nat), FreeReq s w WC.MEAS_READ → 1 ≤ idx → idx ≤ 6 →
      Does (.measRead w idx) s fun t => Answered s t w WC.MEAS_READ WS.OK (measBlock s idx)) ∧
  -- EVT_CLEAR is IN_PROGRESS, counts and clears FULL.
  (∀ (s : State) (w : WReq), ByHolder s w WC.EVT_CLEAR →
      Does (.evtClear w) s fun t => Answered s t w WC.EVT_CLEAR WS.IN_PROGRESS [] ∧ t.nv.super.clears = (s.nv.super.clears + 1) % 65536 ∧
        t.rd R.EVT_STATUS.FULL = 0 ∧ t.rd R.EVT_CLEARS.CLEARS = (s.nv.super.clears + 1) % 65536 ∧ (worPort t w.port).open_.contains (w.seq, WC.EVT_CLEAR) = true) ∧
  -- OWNER_CHALLENGE answers a fresh nonce (opaque: log entry 16) and keeps it with its time.
  (∀ (s : State) (w : WReq), FreeReq s w WC.OWNER_CHALLENGE →
      Does (.ownerChallenge w) s fun t => Answered s t w WC.OWNER_CHALLENGE WS.OK ((padTo 32 (Config.nonce s.clk.free)).take 32) ∧
        (worPort t w.port).nonce = some ((padTo 32 (Config.nonce s.clk.free)).take 32, s.clk.mono)) ∧
  -- OWNER_ENROLL within 60 s uses the nonce up and fuses the key's digest where no key is in use or the authorisation holds, and answers AUTH_FAIL otherwise.
  (∀ (s : State) (w : WReq) (slot : Nat) (modulus auth n : List Byte) (at_ : Nat), ByHolder s w WC.OWNER_ENROLL →
      nextSlot s = some slot → modulus.length = 512 → auth.length = 512 → (worPort s w.port).nonce = some (n, at_) → s.clk.mono ≤ at_ + 60000000000 →
      Does (.ownerEnroll w slot modulus auth) s fun t => (worPort t w.port).nonce = none ∧
        if (usableSlots s).isEmpty || authOk s (usableSlots s) slot (Config.sha512 modulus) n auth then
          Sent s t (.worisy w.port w.seq WC.OWNER_ENROLL WS.IN_PROGRESS 0 []) ∧ tget [] t.nv.super.moduli slot = modulus ∧
            (tget OwnerSlot.empty t.nv.fuses.owner slot).valid = true ∧ (tget OwnerSlot.empty t.nv.fuses.owner slot).digest = Config.sha512 modulus
        else Answered s t w WC.OWNER_ENROLL WS.AUTH_FAIL [] ∧ t.nv.fuses = s.nv.fuses) ∧
  -- OWNER_REVOKE of a key that is not the last revokes it where the others' authorisation holds.
  (∀ (s : State) (w : WReq) (slot : Nat) (auth n : List Byte) (at_ : Nat), ByHolder s w WC.OWNER_REVOKE → slot < 8 →
      (usableSlots s).contains slot = true → usableSlots s ≠ [slot] → auth.length = 512 → (worPort s w.port).nonce = some (n, at_) →
      s.clk.mono ≤ at_ + 60000000000 →
      Does (.ownerRevoke w slot auth) s fun t => (worPort t w.port).nonce = none ∧
        if authOk s ((usableSlots s).filter (· ≠ slot)) slot (tget OwnerSlot.empty s.nv.fuses.owner slot).digest n auth then
          Sent s t (.worisy w.port w.seq WC.OWNER_REVOKE WS.IN_PROGRESS 0 []) ∧ (tget OwnerSlot.empty t.nv.fuses.owner slot).revoked = true
        else Answered s t w WC.OWNER_REVOKE WS.AUTH_FAIL [] ∧ t.nv.fuses = s.nv.fuses) ∧
  -- SET_SECURITY sets IDE_REQ.
  (∀ (s : State) (w : WReq) (v : Nat), ByHolder s w WC.SET_SECURITY → v < 2 →
      Does (.setSecurity w v) s fun t => Answered s t w WC.SET_SECURITY WS.OK [] ∧ t.rd R.RST_SEC.IDE_REQ = v ∧
        t.nv.settings = { s.nv.settings with ideReq := v == 1 }) ∧
  -- RECORDER_PAGE_WRITE closes the open page 1 s after its first record.
  (∀ (s : State) (p : Page), s.rcd.stage = [p] → p.closed = false → s.ctl.doneTrain = false →
      Does .recorderPageWrite s fun t => s.clk.mono ≤ t.clk.mono ∧ p.at_ + 1000000000 ≤ t.clk.mono ∧ t.rcd.stage = [{ p with closed := true }]) ∧
  -- It writes a closed page to the vault for one unit of wear.
  (∀ (s : State) (p : Page), s.rcd.stage = [p] → p.closed = true → s.ctl.doneTrain = true → p.bytes.length ≤ 4096 →
      p.idx < 16384 → 0 < s.vlt.wear → s.vlt.held = false →
      Does .recorderPageWrite s fun t => t.rcd.stage = [] ∧ t.vlt.wear + 1 = s.vlt.wear ∧ t.nv.super.pages = max s.nv.super.pages (p.idx + 1) ∧
        peek t (evtBase + 4096 * p.idx) 4096 = pageImage p.bytes) ∧
  -- SPDM_REQUEST answers from the module's SPDM responder (opaque: log entry 17).
  (∀ (s : State) (req : List Byte), s.ctl.mode ≠ .off →
      Does (.spdmRequest req) s fun t => t.out = s.out ++ [.spdm (Config.spdmAnswer req)]) ∧
  -- IDE_KEY_PROG sets the stream's key.
  (∀ (s : State) (stream : Nat) (key : List Byte), stream < 4 →
      Does (.ideKeyProg stream key) s fun t => tget [] t.sec.ide stream = key) ∧
  -- EVT_TOKEN_REFILL each 1 s refills the tokens.
  (∀ s : State,
      Does .evtTokenRefill s fun t => Fired s t K.tokens 1000000000 ∧ t.rcd = { s.rcd with tokens := refillTokens s s.rcd.tokens })

/-- Programming, activation, votes, confirmation and plan activation act as their rules say. Each command completes, under the conditions given, with the effect given. Rests on 11_management_and_firmware.md. -/
def Obligations.UpdateCommandsComplete : Prop :=
  -- PROGRAM_DONE ends PROGRAMMED with the slot NEW, or REJECTED with NOR_VERIFY.
  (∀ (s : State) (ok : Bool), s.rd R.UPD_STAT.STATE = UP.PROGRAMMING → s.nv.nor.updKind = 1 →
      Does (.programDone ok) s fun t =>
        if ok then t.rd R.UPD_STAT.STATE = UP.PROGRAMMED ∧ t.nv.nor.slotWord = .new ∧ t.nv.nor.slotR = { s.nv.nor.slotR with ok := true }
        else t.rd R.UPD_STAT.STATE = UP.REJECTED ∧ t.rd R.UPD_STAT.ERR = UE.NOR_VERIFY ∧ t.nv.nor.slotWord = s.nv.nor.slotWord) ∧
  -- ACTIVATE of a programmed update at least 20 ms ahead arms it.
  (∀ (s : State) (w : WReq) (tA grp n secs : Nat), ByHolder s w WC.ACTIVATE → s.rd R.UPD_STAT.STATE = UP.PROGRAMMED →
      s.clk.time.toNat + 20000000 ≤ tA → 60 ≤ secs → secs ≤ 86400 →
      Does (.activate w tA grp n secs) s fun t => Answered s t w WC.ACTIVATE WS.OK [] ∧ t.upd.armed = some (tA, grp, n, secs) ∧ t.upd.votes = []) ∧
  -- Later than that it is BAD_ARG, TIME_PAST.
  (∀ (s : State) (w : WReq) (tA grp n : Nat), ByHolder s w WC.ACTIVATE → s.rd R.UPD_STAT.STATE = UP.PROGRAMMED →
      0 < tA → tA < s.clk.time.toNat + 20000000 →
      Does (.activate w tA grp n 0) s fun t => Answered s t w WC.ACTIVATE WS.BAD_ARG [] ∧ t.rd R.UPD_STAT.ERR = UE.TIME_PAST ∧
        t.rd R.UPD_STAT.STATE = UP.PROGRAMMED ∧ t.upd.armed = s.upd.armed) ∧
  -- UPD_VOTE_SEND 10 ms before the time counts the module's own vote.
  (∀ (s : State) (tA grp n secs : Nat), s.upd.armed = some (tA, grp, n, secs) → grp ≠ 0 → updReady s = true →
      Does .updVoteSend s fun t => t.clk.mono = s.clk.mono + (tA - 10000000 - s.clk.time.toNat) ∧
        t.upd.votes.contains (ownFa s) = true) ∧
  -- UPD_VOTE at least 1 ms before the time adds a peer's vote.
  (∀ (s : State) (fa gen tA grp n secs : Nat), genOk s fa gen = true → s.upd.armed = some (tA, grp, n, secs) →
      s.clk.time.toNat + 1000000 ≤ tA → s.upd.voted = false → s.upd.votes.contains fa = false →
      Does (.updVote fa gen true) s fun t => t.upd = { s.upd with votes := s.upd.votes ++ [fa] }) ∧
  -- A vote after that changes nothing of the update.
  (∀ (s : State) (fa gen tA grp n secs : Nat) (ready : Bool), genOk s fa gen = true →
      s.upd.armed = some (tA, grp, n, secs) → tA < s.clk.time.toNat + 1000000 →
      Does (.updVote fa gen ready) s fun t => t.upd = s.upd) ∧
  -- VOTE_COUNT 1 ms before decides whether enough votes came.
  (∀ (s : State) (tA grp n secs : Nat), s.upd.armed = some (tA, grp, n, secs) → grp ≠ 0 →
      Does .voteCount s fun t => t.clk.mono = s.clk.mono + (tA - 1000000 - s.clk.time.toNat) ∧
        t.upd = { s.upd with voted := decide (n ≤ s.upd.votes.length) }) ∧
  -- FIRMWARE_ACTIVATION of management firmware in READY runs the new slot, UNCONFIRMED, with its confirmation time.
  (∀ (s : State) (tA n secs : Nat), s.upd.armed = some (tA, 0, n, secs) → s.rd R.UPD_STAT.STATE = UP.PROGRAMMED →
      s.ctl.mode = .ready → s.rd R.HIF_CTL.SERVE = 0 → running s = [] → s.nv.nor.updKind = 1 → slotOk s s.nv.nor.slotR = true →
      Does .firmwareActivation s fun t => t.clk.mono = s.clk.mono + (tA - s.clk.time.toNat) ∧ t.rd R.UPD_STAT.STATE = UP.UNCONFIRMED ∧
        t.ctl = { s.ctl with fw := s.nv.nor.slotR } ∧ t.rd R.UPD_VER_RUN.VERSION = s.nv.nor.slotR.version % 2 ^ 32 ∧ t.upd.armed = none ∧
        tget 0 t.clk.seen K.confirm = t.clk.mono ∧ t.nv.nor.confirmS = secs) ∧
  -- Without the votes it stays PROGRAMMED with VOTE_FAIL.
  (∀ (s : State) (tA grp n secs : Nat), s.upd.armed = some (tA, grp, n, secs) → grp ≠ 0 → s.upd.voted = false →
      s.rd R.UPD_STAT.STATE = UP.PROGRAMMED → updReady s = true →
      Does .firmwareActivation s fun t => t.rd R.UPD_STAT.STATE = UP.PROGRAMMED ∧ t.rd R.UPD_STAT.ERR = UE.VOTE_FAIL ∧ t.ctl = s.ctl ∧
        t.upd.armed = none) ∧
  -- CONFIRM keeps the image as fallback and raises the fused security version.
  (∀ (s : State) (w : WReq), ByHolder s w WC.CONFIRM → s.rd R.UPD_STAT.STATE = UP.UNCONFIRMED → s.nv.nor.updKind = 1 →
      Does (.confirm w) s fun t => Answered s t w WC.CONFIRM WS.IN_PROGRESS [] ∧ t.rd R.UPD_STAT.STATE = UP.IDLE ∧ t.nv.nor.slotF = s.nv.nor.slotR ∧
        t.nv.nor.slotWord = .valid ∧ t.nv.fuses.svn = max s.nv.fuses.svn (min 64 s.nv.nor.slotR.svn)) ∧
  -- ROLLBACK runs the fallback again.
  (∀ (s : State) (w : WReq), ByHolder s w WC.ROLLBACK → s.rd R.UPD_STAT.STATE = UP.UNCONFIRMED → s.nv.nor.updKind = 1 →
      Does (.rollback w) s fun t => Answered s t w WC.ROLLBACK WS.IN_PROGRESS [] ∧ t.rd R.UPD_STAT.STATE = UP.IDLE ∧ t.nv.nor.slotR = s.nv.nor.slotF ∧
        t.nv.nor.slotWord = .valid ∧ t.rd R.UPD_STAT.FALLBACK = 1 ∧ t.ctl = { s.ctl with fw := s.nv.nor.slotF }) ∧
  -- CONFIRM_DEADLINE does so when the time runs out.
  (∀ s : State, s.rd R.UPD_STAT.STATE = UP.UNCONFIRMED → s.nv.nor.updKind = 1 →
      Does .confirmDeadline s fun t => t.clk.mono = max s.clk.mono (tget 0 s.clk.seen K.confirm + 1000000000 * s.nv.nor.confirmS) ∧
        t.rd R.UPD_STAT.STATE = UP.IDLE ∧ t.nv.nor.slotR = s.nv.nor.slotF ∧ t.ctl = { s.ctl with fw := s.nv.nor.slotF }) ∧
  -- ACTIVATE_PLAN in the future arms the slot.
  (∀ (s : State) (w : WReq) (tA slot : Nat), ByHolder s w WC.ACTIVATE_PLAN → slot < 2 → s.clk.time.toNat < tA →
      Does (.activatePlan w tA slot) s fun t => Answered s t w WC.ACTIVATE_PLAN WS.OK [] ∧ t.upd.planAt = some (tA, slot)) ∧
  -- With time 0 a ready slot becomes active.
  (∀ (s : State) (w : WReq) (slot : Nat), ByHolder s w WC.ACTIVATE_PLAN → slot < 2 → planReady s slot = true →
      Does (.activatePlan w 0 slot) s fun t => Sent s t (.worisy w.port w.seq WC.ACTIVATE_PLAN WS.OK 0 []) ∧ t.nv.super.active = slot ∧
        t.rd R.MEM_VLT_STAT.ACTIVE_SLOT = slot) ∧
  -- PLAN_ACTIVATION at its time makes the slot active.
  (∀ (s : State) (tA slot : Nat), s.upd.planAt = some (tA, slot) → slot < 2 → planReady s slot = true →
      Does .planActivation s fun t => s.clk.mono + (tA - s.clk.time.toNat) ≤ t.clk.mono ∧ t.nv.super.active = slot ∧
        t.rd R.MEM_VLT_STAT.ACTIVE_SLOT = slot ∧ t.upd.planAt = none)

/-- Quickset announcements, blocks, repair and verification act as their rules say. Each command completes, under the conditions given, with the effect given. Rests on 09_reset_and_bringup.md. -/
def Obligations.QuicksetComplete : Prop :=
  -- QS_SEND counts one sent item and keeps 1 ms between rounds after the last.
  (∀ (s : State) (a : QsAnn), s.qs.src = some a → qsBusy s = true →
      Does .qsSend s fun t => t.qs = { s.qs with sent := s.qs.sent + 1 } ∧ tget 0 t.clk.seen K.qsBlock = t.clk.mono ∧
        (qsTotal a < s.qs.sent → t.clk.mono = max s.clk.mono (tget 0 s.clk.seen K.qsBlock + 1000000))) ∧
  -- QS_ANNOUNCE_SEND sends the announcement each 10 ms, each 1 s once blocks flow.
  (∀ (s : State) (a : QsAnn), s.qs.src = some a → qsBusy s = true → a.dst ≠ 0xFFFFF → canInject s = true →
      s.rd R.FZ_MEMBER.LAPSED = 0 →
      Does .qsAnnounceSend s fun t => t.clk.mono = max s.clk.mono (tget 0 s.clk.seen K.qsAnn + if s.qs.sent ≤ a.nTable then 10000000 else 1000000000) ∧
        tget 0 t.clk.seen K.qsAnn = t.clk.mono ∧ t.qs = s.qs ∧
        t.out = s.out ++ [.svc a.dst (s.rd R.RST_QS_SRC_CTL.SCOPE_H) SV.QS_ANNOUNCE (qsAnnFields a)]) ∧
  -- QS_ANNOUNCE to a listener that takes the kind starts receiving with every block missing.
  (∀ (s : State) (gen : Nat) (a : QsAnn), gen < 256 → genOk s a.src gen = true → qsNamed s a = true → qsTakes s a.kind = true → s.rd R.RST_QS_STAT.STATE = QX.LISTEN → 0 < a.nData →
      a.kind ≠ 1 →
      Does (.qsAnnounce gen a) s fun t => t.qs = { s.qs with ann := some a, have_ := [], parts := [], img := [], asked := [] } ∧
        t.rd R.RST_QS_STAT.STATE = QX.RECEIVE ∧ t.rd R.RST_QS_STAT.SESSION = a.session % 65536 ∧
        t.rd R.RST_QS_MISS.MISS = (a.nTable + a.nData) % 2 ^ (R.RST_QS_MISS.MISS).w) ∧
  -- QS_BLOCK keeps a part of a block.
  (∀ (s : State) (fa gen : Nat) (a : QsAnn) (b i : Nat) (data : List Byte), fa < 2 ^ 20 → gen < 256 → genOk s fa gen = true → s.qs.ann = some a → s.rd R.RST_QS_STAT.STATE = QX.RECEIVE → b < a.nData →
      a.nData < 2 ^ 25 → i < 4 → data.length = 1024 → s.qs.have_ = [] → qsWaiting s = false → a.nTable = 1 →
      Does (.qsBlock fa gen (qsUser false i b) data) s fun t => tget 0 t.clk.seen K.qsData = s.clk.mono ∧ (false, b, i, data) ∈ t.qs.parts ∧
        t.qs.have_ = [] ∧ t.rd R.RST_QS_STAT.STATE = QX.RECEIVE) ∧
  -- QS_END with no neighbour goes to FETCH.
  (∀ (s : State) (fa gen : Nat) (a : QsAnn), fa < 2 ^ 20 → gen < 256 → genOk s fa gen = true → s.qs.ann = some a → s.rd R.RST_QS_STAT.STATE = QX.RECEIVE → (∀ n < 36, portUp s n = false) →
      Does (.qsEnd fa gen a.session) s fun t => t.rd R.RST_QS_STAT.STATE = QX.FETCH ∧ tget 0 t.clk.seen K.qsNew = s.clk.mono) ∧
  -- QS_REPAIR_TIMEOUT 100 ms after the last data does so.
  (∀ (s : State) (a : QsAnn), s.qs.ann = some a → s.rd R.RST_QS_STAT.STATE = QX.RECEIVE → (∀ n < 36, portUp s n = false) →
      Does .qsRepairTimeout s fun t => t.clk.mono = max s.clk.mono (tget 0 s.clk.seen K.qsData + 100000000) ∧ t.rd R.RST_QS_STAT.STATE = QX.FETCH) ∧
  -- QS_REQ for blocks not held answers QS_NAK with them.
  (∀ (s : State) (fa gen session : Nat) (blocks : List (Bool × Nat)), fa < 2 ^ 20 → gen < 256 → genOk s fa gen = true → 0 < blocks.length → blocks.length ≤ 240 →
      (∀ b ∈ blocks, b.2 < 2 ^ 25 ∧ qsHeld s session b = none) → canInject s = true → s.rd R.FZ_MEMBER.LAPSED = 0 →
      Does (.qsReq fa gen session blocks) s fun t => t.qs = s.qs ∧
        t.out = s.out ++ [.svc fa 0 SV.QS_NAK (blocks.map fun b => qsUser b.1 0 b.2)]) ∧
  -- QS_DATA keeps a part of a block.
  (∀ (s : State) (fa gen : Nat) (a : QsAnn) (b i : Nat) (data : List Byte), fa < 2 ^ 20 → gen < 256 → genOk s fa gen = true → s.qs.ann = some a → s.rd R.RST_QS_STAT.STATE = QX.FETCH → b < a.nData →
      a.nData < 2 ^ 25 → i < 3 → data.length = 1024 → s.qs.have_ = [] → qsWaiting s = false → a.nTable = 1 →
      Does (.qsData fa gen (qsUser false i b) data) s fun t => (false, b, i, data) ∈ t.qs.parts ∧ t.qs.asked = s.qs.asked ∧
        t.rd R.RST_QS_STAT.STATE = QX.FETCH) ∧
  -- QS_NAK outside REPAIR forgets the blocks asked for.
  (∀ (s : State) (fa gen : Nat) (blocks : List (Bool × Nat)), fa < 2 ^ 20 → gen < 256 → genOk s fa gen = true → s.rd R.RST_QS_STAT.STATE ≠ QX.REPAIR →
      Does (.qsNak fa gen blocks) s fun t => t.qs = { s.qs with asked := s.qs.asked.filter fun b => !blocks.contains b }) ∧
  -- QS_ROUND_END 20 ms after the requests, with no neighbour, goes to FETCH.
  (∀ (s : State) (a : QsAnn), s.qs.ann = some a → s.rd R.RST_QS_STAT.STATE = QX.REPAIR → (∀ n < 36, portUp s n = false) →
      Does .qsRoundEnd s fun t => t.clk.mono = max s.clk.mono (tget 0 s.clk.seen K.qsReq + 20000000) ∧ t.rd R.RST_QS_STAT.STATE = QX.FETCH) ∧
  -- QS_FETCH_END 1 s without a new block ends INCOMPLETE with the QUICKSET fault.
  (∀ s : State, s.rd R.RST_QS_STAT.STATE = QX.FETCH → qsWaiting s = false →
      Does .qsFetchEnd s fun t => t.clk.mono = max s.clk.mono (tget 0 s.clk.seen K.qsNew + 1000000000) ∧ t.rd R.RST_QS_STAT.INCOMPLETE = 1 ∧
        t.rd R.RST_QS_STAT.STATE = QX.LISTEN ∧ t.rd R.RST_FAULT.QUICKSET = 1) ∧
  -- QS_VERIFY of a part of a plan image is DONE.
  (∀ (s : State) (a : QsAnn), s.qs.ann = some a → s.rd R.RST_QS_STAT.STATE = QX.VERIFY → a.kind = 1 →
      a.base + 4096 * a.nData < a.imageLen →
      Does .qsVerify s fun t => t.rd R.RST_QS_STAT.STATE = QX.DONE ∧ t.rd R.RST_QS_STAT.DONE = 1 ∧ t.rd R.RST_FAULT.QUICKSET = 0)

/-- Configuration banks, membership and fabric time act as their rules say. Each command completes, under the conditions given, with the effect given. Rests on 06_fazar_fabric.md. -/
def Obligations.BanksAndFabricClockComplete : Prop :=
  -- DIR_UPDATE from a manager of the current generation writes half a directory entry of the inactive bank, reserved bits 0, and clears READY.
  (∀ (s : State) (fa gen f : Nat) (hi : Bool) (v : BitVec 32), genOk s fa gen = true → entMgr (dirEnt s (activeEpoch s) fa) = true → f < 2 ^ 20 →
      s.rd R.FZ_BANK_STAT.HOLD = 0 → s.rd R.FZ_SELF.VALID = 0 →
      entGrp (setWord (tget 0 (bankOf s (1 - activeEpoch s)).dir f) hi v).toNat = false →
      Does (.dirUpdate fa gen [(0x600000 + 8 * f + (if hi then 4 else 0), v)]) s fun t =>
        let b := bankOf s (1 - activeEpoch s)
        bankOf t (1 - activeEpoch s) = { b with dir := tset 0 b.dir f (entClean (setWord (tget 0 b.dir f) hi v)) } ∧
        bankOf t (activeEpoch s) = bankOf s (activeEpoch s) ∧ t.rd R.FZ_BANK_STAT.READY = 0) ∧
  -- In an epoch hold it is refused with REFUSED.
  (∀ (s : State) (fa gen a : Nat) (v : BitVec 32), genOk s fa gen = true → entMgr (dirEnt s (activeEpoch s) fa) = true →
      s.rd R.FZ_BANK_STAT.HOLD = 1 → s.rd R.FZ_SELF.VALID = 0 →
      Does (.dirUpdate fa gen [(a, v)]) s fun t => t.fab = s.fab ∧ t.rd R.FZ_BANK_STAT.REFUSED = 1) ∧
  -- LAYING at its time changes the active bank, starts the hold and clears READY and ARMED.
  (∀ (s : State) (at_ : Nat), s.fab.armed = some at_ → s.rd R.FZ_BANK_STAT.READY = 1 →
      Does .laying s fun t => t.rd R.FZ_BANK_STAT.ACTIVE = 1 - activeEpoch s ∧ t.rd R.FZ_BANK_STAT.HOLD = 1 ∧ t.rd R.FZ_BANK_STAT.ARMED = 0 ∧
        t.rd R.FZ_BANK_STAT.READY = 0 ∧ t.fab.armed = none ∧ t.clk.mono = s.clk.mono + (at_ - s.clk.time.toNat) ∧
        t.fab.bank0 = s.fab.bank0 ∧ t.fab.bank1 = s.fab.bank1) ∧
  -- LAYING of a bank not sealed sets LAY_MISS.
  (∀ (s : State) (at_ : Nat), s.fab.armed = some at_ → s.rd R.FZ_BANK_STAT.READY = 0 →
      Does .laying s fun t => t.rd R.FZ_BANK_STAT.ACTIVE = activeEpoch s ∧ t.rd R.FZ_BANK_STAT.LAY_MISS = 1 ∧ t.rd R.FZ_BANK_STAT.ARMED = 0 ∧ t.fab.armed = none) ∧
  -- EPOCH_HOLD_END after the hold time (1 ms at least) ends the hold.
  (∀ s : State, s.rd R.FZ_BANK_STAT.HOLD = 1 →
      Does .epochHoldEnd s fun t => t.rd R.FZ_BANK_STAT.HOLD = 0 ∧
        t.clk.mono = max s.clk.mono (tget 0 s.clk.seen K.hold + 1000 * max 1000 (s.rd R.FZ_RT_CFG.EPOCH_HOLD_US))) ∧
  -- MEMBERSHIP_LAPSE 1 s after the renewal sets LAPSED and drives FAULT_N low.
  (∀ (s : State) (at_ : Nat), s.fab.renewed = some at_ → s.rd R.FZ_MEMBER.LAPSED = 0 →
      Does .membershipLapse s fun t => t.rd R.FZ_MEMBER.LAPSED = 1 ∧ t.rd R.RST_FAULT.LAPSED = 1 ∧ t.rd R.RST_PIN_STAT.FAULT_N = 0 ∧
        t.clk.mono = max s.clk.mono (at_ + 1000000000)) ∧
  -- TIME_FRAME_SEND of the root each 1 ms sends a time frame on every UP port with the next sequence number.
  (∀ s : State, s.rd R.FZ_TIME_STAT.TSTATE = TS.ROOT →
      Does .timeFrameSend s fun t => Fired s t K.timeSend 1000000 ∧ t.fab = { s.fab with rseq := (s.fab.rseq + 1) % 65536 } ∧
        t.out = s.out ++ ((List.range 36).filter (portUp s)).map fun n => .timeFrame n (s.rd R.FZ_TIME_STAT.DIST) s.fab.rootFa s.fab.repoch
          ((s.fab.rseq + 1) % 65536) (2 * t.clk.time.toNat) ((tget PortSt.init s.fab.ports n).rx.map fun t2 => (t2, 2 * t.clk.time.toNat))) ∧
  -- TIME_FRAME on the one UP port makes a free module follow it, its clock stepped by a reply's offset: half the difference less the asymmetry.
  (∀ (s : State) (n : Nat) (f : TimeFrame), n < 36 → portUp s n = true → (∀ m < 36, m ≠ n → portUp s m = false) →
      frameCounts s (tget PortSt.init s.fab.ports n) f = true → s.rd R.FZ_TIME_STAT.TSTATE = TS.FREE →
      Does (.timeFrame n f) s fun t => t.rd R.FZ_TIME_STAT.PARENT = n ∧ t.rd R.FZ_TIME_STAT.DIST = f.dist + 1 ∧ t.rd R.FZ_TIME_STAT.TSTATE = TS.ACQUIRE ∧
        t.fab.rootFa = f.rootFa ∧ t.fab.repoch = f.repoch ∧ t.fab.rseq = f.rseq ∧
        t.clk.time = (if f.reply then BitVec.ofInt 64 ((s.clk.time.toNat : Int) +
          (2 * (((f.t2 : Int) - f.t1) - ((f.t4 : Int) - f.t3)) - sx 16 (s.rd (R.FZ_PORT_ASYM.ASYM n))).tdiv 8) else s.clk.time)) ∧
  -- ROOT_LOSS 5 ms without advance is HOLDOVER.
  (∀ s : State, s.rd R.FZ_TIME_STAT.TSTATE = TS.ACQUIRE ∨ s.rd R.FZ_TIME_STAT.TSTATE = TS.LOCKED →
      Does .rootLoss s fun t => t.rd R.FZ_TIME_STAT.TSTATE = TS.HOLDOVER ∧ t.rd R.FZ_TIME_STAT.DIST = 7 ∧
        t.clk.mono = max s.clk.mono (tget 0 s.clk.seen K.rootAdv + 5000000) ∧ tget 0 t.clk.seen K.holdover = t.clk.mono) ∧
  -- ROOT_PROMOTION after its backup rank x 10 ms makes a new root of the next epoch.
  (∀ s : State, s.rd R.FZ_TIME_STAT.TSTATE = TS.HOLDOVER → 0 < s.rd R.FZ_TIME_CFG.BACKUP →
      Does .rootPromotion s fun t => t.rd R.FZ_TIME_STAT.TSTATE = TS.ROOT ∧ t.rd R.FZ_TIME_STAT.DIST = 0 ∧ t.fab.rootFa = ownFa s ∧
        t.fab.repoch = (s.fab.newest.getD 0 + 1) % 256 ∧
        t.clk.mono = max s.clk.mono (tget 0 s.clk.seen K.holdover + s.rd R.FZ_TIME_CFG.BACKUP * 10000000)) ∧
  -- ROOT_START_WAIT 10 ms after the first UP port makes the configured root the root.
  (∀ s : State, s.rd R.FZ_TIME_CFG.ROOT = 1 → s.rd R.FZ_TIME_STAT.TSTATE = TS.FREE → (List.range 36).any (portUp s) = true →
      timeParent s = none →
      Does .rootStartWait s fun t => t.rd R.FZ_TIME_STAT.TSTATE = TS.ROOT ∧ t.rd R.FZ_TIME_STAT.DIST = 0 ∧ t.fab.rootFa = ownFa s ∧
        t.clk.mono = max s.clk.mono (tget 0 s.clk.seen K.firstUp + 10000000)) ∧
  -- TIME_LO_READ answers the low half and latches the high half.
  (∀ s : State, Does .timeLoRead s fun t => t.out = s.out ++ [.regData .bar0 [BitVec.ofNat 32 s.clk.time.toNat]] ∧
      t.fab = { s.fab with hiLatch := BitVec.ofNat 32 (s.clk.time.toNat / 2 ^ 32) })
end

