-- ==== Sys2Proof/Laws/State.lean ====
section
/-!
SUPPORT. What each primitive effect leaves in each field of State: one lemma per effect, each conjunct of which holds by rfl and is a
simp lemma, so that no proof unfolds a record update.
-/

namespace Sys2Proof.Machine

variable (s : State)

@[simp] theorem apply_reg (f : Fld) (v : Nat) :
    (apply (.reg f v) s).clk = s.clk ∧ (apply (.reg f v) s).nv = s.nv ∧ (apply (.reg f v) s).hs = s.hs ∧ (apply (.reg f v) s).ctl = s.ctl ∧
    (apply (.reg f v) s).bytes = s.bytes ∧ (apply (.reg f v) s).mem = s.mem ∧ (apply (.reg f v) s).vlt = s.vlt ∧
    (apply (.reg f v) s).arrs = s.arrs ∧ (apply (.reg f v) s).cores = s.cores ∧ (apply (.reg f v) s).strs = s.strs ∧
    (apply (.reg f v) s).ques = s.ques ∧ (apply (.reg f v) s).host = s.host ∧ (apply (.reg f v) s).fab = s.fab ∧
    (apply (.reg f v) s).pw = s.pw ∧ (apply (.reg f v) s).watch = s.watch ∧ (apply (.reg f v) s).rcd = s.rcd ∧
    (apply (.reg f v) s).worA = s.worA ∧ (apply (.reg f v) s).worB = s.worB ∧ (apply (.reg f v) s).upd = s.upd ∧
    (apply (.reg f v) s).qs = s.qs ∧ (apply (.reg f v) s).sec = s.sec ∧ (apply (.reg f v) s).out = s.out ∧
    (apply (.reg f v) s).pending = s.pending :=
  ⟨rfl, rfl, rfl, rfl, rfl, rfl, rfl, rfl, rfl, rfl, rfl, rfl, rfl, rfl, rfl, rfl, rfl, rfl, rfl, rfl, rfl, rfl, rfl⟩

@[simp] theorem apply_regsReset (d : RegKind → List Nat → Bool) :
    (apply (.regsReset d) s).clk = s.clk ∧ (apply (.regsReset d) s).nv = s.nv ∧ (apply (.regsReset d) s).hs = s.hs ∧
    (apply (.regsReset d) s).ctl = s.ctl ∧ (apply (.regsReset d) s).bytes = s.bytes ∧ (apply (.regsReset d) s).mem = s.mem ∧
    (apply (.regsReset d) s).vlt = s.vlt ∧ (apply (.regsReset d) s).arrs = s.arrs ∧ (apply (.regsReset d) s).cores = s.cores ∧
    (apply (.regsReset d) s).strs = s.strs ∧ (apply (.regsReset d) s).ques = s.ques ∧ (apply (.regsReset d) s).host = s.host ∧
    (apply (.regsReset d) s).fab = s.fab ∧ (apply (.regsReset d) s).pw = s.pw ∧ (apply (.regsReset d) s).watch = s.watch ∧
    (apply (.regsReset d) s).rcd = s.rcd ∧ (apply (.regsReset d) s).worA = s.worA ∧ (apply (.regsReset d) s).worB = s.worB ∧
    (apply (.regsReset d) s).upd = s.upd ∧ (apply (.regsReset d) s).qs = s.qs ∧ (apply (.regsReset d) s).sec = s.sec ∧
    (apply (.regsReset d) s).out = s.out ∧ (apply (.regsReset d) s).pending = s.pending :=
  ⟨rfl, rfl, rfl, rfl, rfl, rfl, rfl, rfl, rfl, rfl, rfl, rfl, rfl, rfl, rfl, rfl, rfl, rfl, rfl, rfl, rfl, rfl, rfl⟩

@[simp] theorem apply_write (a : Nat) (bs : List Byte) :
    (apply (.write a bs) s).clk = s.clk ∧ (apply (.write a bs) s).nv = s.nv ∧ (apply (.write a bs) s).hs = s.hs ∧
    (apply (.write a bs) s).ctl = s.ctl ∧ (apply (.write a bs) s).regs = s.regs ∧ (apply (.write a bs) s).vlt = s.vlt ∧
    (apply (.write a bs) s).arrs = s.arrs ∧ (apply (.write a bs) s).cores = s.cores ∧ (apply (.write a bs) s).strs = s.strs ∧
    (apply (.write a bs) s).ques = s.ques ∧ (apply (.write a bs) s).host = s.host ∧ (apply (.write a bs) s).fab = s.fab ∧
    (apply (.write a bs) s).pw = s.pw ∧ (apply (.write a bs) s).watch = s.watch ∧ (apply (.write a bs) s).rcd = s.rcd ∧
    (apply (.write a bs) s).worA = s.worA ∧ (apply (.write a bs) s).worB = s.worB ∧ (apply (.write a bs) s).upd = s.upd ∧
    (apply (.write a bs) s).qs = s.qs ∧ (apply (.write a bs) s).sec = s.sec ∧ (apply (.write a bs) s).out = s.out ∧
    (apply (.write a bs) s).pending = s.pending ∧ (apply (.write a bs) s).bytes = twrite s.bytes a bs ∧
    (apply (.write a bs) s).mem = { s.mem with stale := staleSub a bs.length s.mem.stale } ∧ (∀ g, (apply (.write a bs) s).rd g = s.rd g) ∧
    (∀ c ix, regWord (apply (.write a bs) s) c ix = regWord s c ix) :=
  ⟨rfl, rfl, rfl, rfl, rfl, rfl, rfl, rfl, rfl, rfl, rfl, rfl, rfl, rfl, rfl, rfl, rfl, rfl, rfl, rfl, rfl, rfl, rfl, rfl, fun _ => rfl,
    fun _ _ => rfl⟩

@[simp] theorem apply_wipe (lo hi : Nat) :
    (apply (.wipe lo hi) s).clk = s.clk ∧ (apply (.wipe lo hi) s).nv = s.nv ∧ (apply (.wipe lo hi) s).hs = s.hs ∧
    (apply (.wipe lo hi) s).ctl = s.ctl ∧ (apply (.wipe lo hi) s).regs = s.regs ∧ (apply (.wipe lo hi) s).vlt = s.vlt ∧
    (apply (.wipe lo hi) s).arrs = s.arrs ∧ (apply (.wipe lo hi) s).cores = s.cores ∧ (apply (.wipe lo hi) s).strs = s.strs ∧
    (apply (.wipe lo hi) s).ques = s.ques ∧ (apply (.wipe lo hi) s).host = s.host ∧ (apply (.wipe lo hi) s).fab = s.fab ∧
    (apply (.wipe lo hi) s).pw = s.pw ∧ (apply (.wipe lo hi) s).watch = s.watch ∧ (apply (.wipe lo hi) s).rcd = s.rcd ∧
    (apply (.wipe lo hi) s).worA = s.worA ∧ (apply (.wipe lo hi) s).worB = s.worB ∧ (apply (.wipe lo hi) s).upd = s.upd ∧
    (apply (.wipe lo hi) s).qs = s.qs ∧ (apply (.wipe lo hi) s).sec = s.sec ∧ (apply (.wipe lo hi) s).out = s.out ∧
    (apply (.wipe lo hi) s).pending = s.pending ∧ (apply (.wipe lo hi) s).bytes = tclear lo hi s.bytes ∧
    (∀ g, (apply (.wipe lo hi) s).rd g = s.rd g) ∧ (∀ c ix, regWord (apply (.wipe lo hi) s) c ix = regWord s c ix) :=
  ⟨rfl, rfl, rfl, rfl, rfl, rfl, rfl, rfl, rfl, rfl, rfl, rfl, rfl, rfl, rfl, rfl, rfl, rfl, rfl, rfl, rfl, rfl, rfl, fun _ => rfl,
    fun _ _ => rfl⟩

@[simp] theorem apply_mem (f : Mem → Mem) :
    (apply (.mem f) s).clk = s.clk ∧ (apply (.mem f) s).nv = s.nv ∧ (apply (.mem f) s).hs = s.hs ∧ (apply (.mem f) s).ctl = s.ctl ∧
    (apply (.mem f) s).regs = s.regs ∧ (apply (.mem f) s).bytes = s.bytes ∧ (apply (.mem f) s).vlt = s.vlt ∧
    (apply (.mem f) s).arrs = s.arrs ∧ (apply (.mem f) s).cores = s.cores ∧ (apply (.mem f) s).strs = s.strs ∧
    (apply (.mem f) s).ques = s.ques ∧ (apply (.mem f) s).host = s.host ∧ (apply (.mem f) s).fab = s.fab ∧ (apply (.mem f) s).pw = s.pw ∧
    (apply (.mem f) s).watch = s.watch ∧ (apply (.mem f) s).rcd = s.rcd ∧ (apply (.mem f) s).worA = s.worA ∧
    (apply (.mem f) s).worB = s.worB ∧ (apply (.mem f) s).upd = s.upd ∧ (apply (.mem f) s).qs = s.qs ∧ (apply (.mem f) s).sec = s.sec ∧
    (apply (.mem f) s).out = s.out ∧ (apply (.mem f) s).pending = s.pending ∧ (apply (.mem f) s).mem = f s.mem ∧
    (∀ g, (apply (.mem f) s).rd g = s.rd g) ∧ (∀ c ix, regWord (apply (.mem f) s) c ix = regWord s c ix) :=
  ⟨rfl, rfl, rfl, rfl, rfl, rfl, rfl, rfl, rfl, rfl, rfl, rfl, rfl, rfl, rfl, rfl, rfl, rfl, rfl, rfl, rfl, rfl, rfl, rfl, fun _ => rfl,
    fun _ _ => rfl⟩

@[simp] theorem apply_vlt (f : Vault → Vault) :
    (apply (.vlt f) s).clk = s.clk ∧ (apply (.vlt f) s).nv = s.nv ∧ (apply (.vlt f) s).hs = s.hs ∧ (apply (.vlt f) s).ctl = s.ctl ∧
    (apply (.vlt f) s).regs = s.regs ∧ (apply (.vlt f) s).bytes = s.bytes ∧ (apply (.vlt f) s).mem = s.mem ∧
    (apply (.vlt f) s).arrs = s.arrs ∧ (apply (.vlt f) s).cores = s.cores ∧ (apply (.vlt f) s).strs = s.strs ∧
    (apply (.vlt f) s).ques = s.ques ∧ (apply (.vlt f) s).host = s.host ∧ (apply (.vlt f) s).fab = s.fab ∧ (apply (.vlt f) s).pw = s.pw ∧
    (apply (.vlt f) s).watch = s.watch ∧ (apply (.vlt f) s).rcd = s.rcd ∧ (apply (.vlt f) s).worA = s.worA ∧
    (apply (.vlt f) s).worB = s.worB ∧ (apply (.vlt f) s).upd = s.upd ∧ (apply (.vlt f) s).qs = s.qs ∧ (apply (.vlt f) s).sec = s.sec ∧
    (apply (.vlt f) s).out = s.out ∧ (apply (.vlt f) s).pending = s.pending ∧
    (apply (.vlt f) s).vlt = { f s.vlt with wear := min (f s.vlt).wear Config.wearCeiling } ∧ (∀ g, (apply (.vlt f) s).rd g = s.rd g) ∧
    (∀ c ix, regWord (apply (.vlt f) s) c ix = regWord s c ix) :=
  ⟨rfl, rfl, rfl, rfl, rfl, rfl, rfl, rfl, rfl, rfl, rfl, rfl, rfl, rfl, rfl, rfl, rfl, rfl, rfl, rfl, rfl, rfl, rfl, rfl, fun _ => rfl,
    fun _ _ => rfl⟩

@[simp] theorem apply_arr (k : Nat) (f : Arr → Arr) :
    (apply (.arr k f) s).clk = s.clk ∧ (apply (.arr k f) s).nv = s.nv ∧ (apply (.arr k f) s).hs = s.hs ∧ (apply (.arr k f) s).ctl = s.ctl ∧
    (apply (.arr k f) s).regs = s.regs ∧ (apply (.arr k f) s).bytes = s.bytes ∧ (apply (.arr k f) s).mem = s.mem ∧
    (apply (.arr k f) s).vlt = s.vlt ∧ (apply (.arr k f) s).cores = s.cores ∧ (apply (.arr k f) s).strs = s.strs ∧
    (apply (.arr k f) s).ques = s.ques ∧ (apply (.arr k f) s).host = s.host ∧ (apply (.arr k f) s).fab = s.fab ∧
    (apply (.arr k f) s).pw = s.pw ∧ (apply (.arr k f) s).watch = s.watch ∧ (apply (.arr k f) s).rcd = s.rcd ∧
    (apply (.arr k f) s).worA = s.worA ∧ (apply (.arr k f) s).worB = s.worB ∧ (apply (.arr k f) s).upd = s.upd ∧
    (apply (.arr k f) s).qs = s.qs ∧ (apply (.arr k f) s).sec = s.sec ∧ (apply (.arr k f) s).out = s.out ∧
    (apply (.arr k f) s).pending = s.pending ∧ (apply (.arr k f) s).arrs = tset Arr.init s.arrs k (f (tget Arr.init s.arrs k)) ∧
    (∀ g, (apply (.arr k f) s).rd g = s.rd g) ∧ (∀ c ix, regWord (apply (.arr k f) s) c ix = regWord s c ix) :=
  ⟨rfl, rfl, rfl, rfl, rfl, rfl, rfl, rfl, rfl, rfl, rfl, rfl, rfl, rfl, rfl, rfl, rfl, rfl, rfl, rfl, rfl, rfl, rfl, rfl, fun _ => rfl,
    fun _ _ => rfl⟩

@[simp] theorem apply_core (k : Nat) (f : Core → Core) :
    (apply (.core k f) s).clk = s.clk ∧ (apply (.core k f) s).nv = s.nv ∧ (apply (.core k f) s).hs = s.hs ∧
    (apply (.core k f) s).ctl = s.ctl ∧ (apply (.core k f) s).regs = s.regs ∧ (apply (.core k f) s).bytes = s.bytes ∧
    (apply (.core k f) s).mem = s.mem ∧ (apply (.core k f) s).vlt = s.vlt ∧ (apply (.core k f) s).arrs = s.arrs ∧
    (apply (.core k f) s).strs = s.strs ∧ (apply (.core k f) s).ques = s.ques ∧ (apply (.core k f) s).host = s.host ∧
    (apply (.core k f) s).fab = s.fab ∧ (apply (.core k f) s).pw = s.pw ∧ (apply (.core k f) s).watch = s.watch ∧
    (apply (.core k f) s).rcd = s.rcd ∧ (apply (.core k f) s).worA = s.worA ∧ (apply (.core k f) s).worB = s.worB ∧
    (apply (.core k f) s).upd = s.upd ∧ (apply (.core k f) s).qs = s.qs ∧ (apply (.core k f) s).sec = s.sec ∧
    (apply (.core k f) s).out = s.out ∧ (apply (.core k f) s).pending = s.pending ∧
    (apply (.core k f) s).cores = tset Core.init s.cores k (f (tget Core.init s.cores k)) ∧ (∀ g, (apply (.core k f) s).rd g = s.rd g) ∧
    (∀ c ix, regWord (apply (.core k f) s) c ix = regWord s c ix) :=
  ⟨rfl, rfl, rfl, rfl, rfl, rfl, rfl, rfl, rfl, rfl, rfl, rfl, rfl, rfl, rfl, rfl, rfl, rfl, rfl, rfl, rfl, rfl, rfl, rfl, fun _ => rfl,
    fun _ _ => rfl⟩

@[simp] theorem apply_str (k : Nat) (f : Str → Str) :
    (apply (.str k f) s).clk = s.clk ∧ (apply (.str k f) s).nv = s.nv ∧ (apply (.str k f) s).hs = s.hs ∧ (apply (.str k f) s).ctl = s.ctl ∧
    (apply (.str k f) s).regs = s.regs ∧ (apply (.str k f) s).bytes = s.bytes ∧ (apply (.str k f) s).mem = s.mem ∧
    (apply (.str k f) s).vlt = s.vlt ∧ (apply (.str k f) s).arrs = s.arrs ∧ (apply (.str k f) s).cores = s.cores ∧
    (apply (.str k f) s).ques = s.ques ∧ (apply (.str k f) s).host = s.host ∧ (apply (.str k f) s).fab = s.fab ∧
    (apply (.str k f) s).pw = s.pw ∧ (apply (.str k f) s).watch = s.watch ∧ (apply (.str k f) s).rcd = s.rcd ∧
    (apply (.str k f) s).worA = s.worA ∧ (apply (.str k f) s).worB = s.worB ∧ (apply (.str k f) s).upd = s.upd ∧
    (apply (.str k f) s).qs = s.qs ∧ (apply (.str k f) s).sec = s.sec ∧ (apply (.str k f) s).out = s.out ∧
    (apply (.str k f) s).pending = s.pending ∧ (apply (.str k f) s).strs = tset Str.init s.strs k (f (tget Str.init s.strs k)) ∧
    (∀ g, (apply (.str k f) s).rd g = s.rd g) ∧ (∀ c ix, regWord (apply (.str k f) s) c ix = regWord s c ix) :=
  ⟨rfl, rfl, rfl, rfl, rfl, rfl, rfl, rfl, rfl, rfl, rfl, rfl, rfl, rfl, rfl, rfl, rfl, rfl, rfl, rfl, rfl, rfl, rfl, rfl, fun _ => rfl,
    fun _ _ => rfl⟩

@[simp] theorem apply_que (k : Nat) (f : Que → Que) :
    (apply (.que k f) s).clk = s.clk ∧ (apply (.que k f) s).nv = s.nv ∧ (apply (.que k f) s).hs = s.hs ∧ (apply (.que k f) s).ctl = s.ctl ∧
    (apply (.que k f) s).regs = s.regs ∧ (apply (.que k f) s).bytes = s.bytes ∧ (apply (.que k f) s).mem = s.mem ∧
    (apply (.que k f) s).vlt = s.vlt ∧ (apply (.que k f) s).arrs = s.arrs ∧ (apply (.que k f) s).cores = s.cores ∧
    (apply (.que k f) s).strs = s.strs ∧ (apply (.que k f) s).host = s.host ∧ (apply (.que k f) s).fab = s.fab ∧
    (apply (.que k f) s).pw = s.pw ∧ (apply (.que k f) s).watch = s.watch ∧ (apply (.que k f) s).rcd = s.rcd ∧
    (apply (.que k f) s).worA = s.worA ∧ (apply (.que k f) s).worB = s.worB ∧ (apply (.que k f) s).upd = s.upd ∧
    (apply (.que k f) s).qs = s.qs ∧ (apply (.que k f) s).sec = s.sec ∧ (apply (.que k f) s).out = s.out ∧
    (apply (.que k f) s).pending = s.pending ∧ (apply (.que k f) s).ques = tset Que.init s.ques k (f (tget Que.init s.ques k)) ∧
    (∀ g, (apply (.que k f) s).rd g = s.rd g) ∧ (∀ c ix, regWord (apply (.que k f) s) c ix = regWord s c ix) :=
  ⟨rfl, rfl, rfl, rfl, rfl, rfl, rfl, rfl, rfl, rfl, rfl, rfl, rfl, rfl, rfl, rfl, rfl, rfl, rfl, rfl, rfl, rfl, rfl, rfl, fun _ => rfl,
    fun _ _ => rfl⟩

@[simp] theorem apply_unitsReset (p : Nat) :
    (apply (.unitsReset p) s).clk = s.clk ∧ (apply (.unitsReset p) s).nv = s.nv ∧ (apply (.unitsReset p) s).hs = s.hs ∧
    (apply (.unitsReset p) s).ctl = s.ctl ∧ (apply (.unitsReset p) s).regs = s.regs ∧ (apply (.unitsReset p) s).bytes = s.bytes ∧
    (apply (.unitsReset p) s).mem = s.mem ∧ (apply (.unitsReset p) s).vlt = s.vlt ∧ (apply (.unitsReset p) s).host = s.host ∧
    (apply (.unitsReset p) s).fab = s.fab ∧ (apply (.unitsReset p) s).pw = s.pw ∧ (apply (.unitsReset p) s).watch = s.watch ∧
    (apply (.unitsReset p) s).rcd = s.rcd ∧ (apply (.unitsReset p) s).worA = s.worA ∧ (apply (.unitsReset p) s).worB = s.worB ∧
    (apply (.unitsReset p) s).upd = s.upd ∧ (apply (.unitsReset p) s).qs = s.qs ∧ (apply (.unitsReset p) s).sec = s.sec ∧
    (apply (.unitsReset p) s).out = s.out ∧ (apply (.unitsReset p) s).pending = s.pending ∧
    (∀ g, (apply (.unitsReset p) s).rd g = s.rd g) ∧ (∀ c ix, regWord (apply (.unitsReset p) s) c ix = regWord s c ix) :=
  ⟨rfl, rfl, rfl, rfl, rfl, rfl, rfl, rfl, rfl, rfl, rfl, rfl, rfl, rfl, rfl, rfl, rfl, rfl, rfl, rfl, fun _ => rfl, fun _ _ => rfl⟩

@[simp] theorem apply_pass (n : Nat) :
    (apply (.pass n) s).nv = s.nv ∧ (apply (.pass n) s).hs = s.hs ∧ (apply (.pass n) s).ctl = s.ctl ∧ (apply (.pass n) s).regs = s.regs ∧
    (apply (.pass n) s).bytes = s.bytes ∧ (apply (.pass n) s).mem = s.mem ∧ (apply (.pass n) s).vlt = s.vlt ∧
    (apply (.pass n) s).arrs = s.arrs ∧ (apply (.pass n) s).cores = s.cores ∧ (apply (.pass n) s).strs = s.strs ∧
    (apply (.pass n) s).ques = s.ques ∧ (apply (.pass n) s).host = s.host ∧ (apply (.pass n) s).fab = s.fab ∧
    (apply (.pass n) s).pw = s.pw ∧ (apply (.pass n) s).watch = s.watch ∧ (apply (.pass n) s).rcd = s.rcd ∧
    (apply (.pass n) s).worA = s.worA ∧ (apply (.pass n) s).worB = s.worB ∧ (apply (.pass n) s).upd = s.upd ∧
    (apply (.pass n) s).qs = s.qs ∧ (apply (.pass n) s).sec = s.sec ∧ (apply (.pass n) s).out = s.out ∧
    (apply (.pass n) s).pending = s.pending ∧ (apply (.pass n) s).clk.mono = s.clk.mono + n ∧
    (apply (.pass n) s).clk.time = s.clk.time + BitVec.ofNat 64 n ∧ (apply (.pass n) s).clk.seen = s.clk.seen ∧
    (apply (.pass n) s).clk.free = s.clk.free ∧ (∀ g, (apply (.pass n) s).rd g = s.rd g) ∧
    (∀ c ix, regWord (apply (.pass n) s) c ix = regWord s c ix) :=
  ⟨rfl, rfl, rfl, rfl, rfl, rfl, rfl, rfl, rfl, rfl, rfl, rfl, rfl, rfl, rfl, rfl, rfl, rfl, rfl, rfl, rfl, rfl, rfl, rfl, rfl, rfl, rfl,
    fun _ => rfl, fun _ _ => rfl⟩

@[simp] theorem apply_setTime (t : BitVec 64) :
    (apply (.setTime t) s).nv = s.nv ∧ (apply (.setTime t) s).hs = s.hs ∧ (apply (.setTime t) s).ctl = s.ctl ∧
    (apply (.setTime t) s).regs = s.regs ∧ (apply (.setTime t) s).bytes = s.bytes ∧ (apply (.setTime t) s).mem = s.mem ∧
    (apply (.setTime t) s).vlt = s.vlt ∧ (apply (.setTime t) s).arrs = s.arrs ∧ (apply (.setTime t) s).cores = s.cores ∧
    (apply (.setTime t) s).strs = s.strs ∧ (apply (.setTime t) s).ques = s.ques ∧ (apply (.setTime t) s).host = s.host ∧
    (apply (.setTime t) s).fab = s.fab ∧ (apply (.setTime t) s).pw = s.pw ∧ (apply (.setTime t) s).watch = s.watch ∧
    (apply (.setTime t) s).rcd = s.rcd ∧ (apply (.setTime t) s).worA = s.worA ∧ (apply (.setTime t) s).worB = s.worB ∧
    (apply (.setTime t) s).upd = s.upd ∧ (apply (.setTime t) s).qs = s.qs ∧ (apply (.setTime t) s).sec = s.sec ∧
    (apply (.setTime t) s).out = s.out ∧ (apply (.setTime t) s).pending = s.pending ∧ (apply (.setTime t) s).clk.mono = s.clk.mono ∧
    (apply (.setTime t) s).clk.time = t ∧ (apply (.setTime t) s).clk.seen = s.clk.seen ∧ (apply (.setTime t) s).clk.free = s.clk.free ∧
    (∀ g, (apply (.setTime t) s).rd g = s.rd g) ∧ (∀ c ix, regWord (apply (.setTime t) s) c ix = regWord s c ix) :=
  ⟨rfl, rfl, rfl, rfl, rfl, rfl, rfl, rfl, rfl, rfl, rfl, rfl, rfl, rfl, rfl, rfl, rfl, rfl, rfl, rfl, rfl, rfl, rfl, rfl, rfl, rfl, rfl,
    fun _ => rfl, fun _ _ => rfl⟩

@[simp] theorem apply_seen (k a : Nat) :
    (apply (.seen k a) s).nv = s.nv ∧ (apply (.seen k a) s).hs = s.hs ∧ (apply (.seen k a) s).ctl = s.ctl ∧
    (apply (.seen k a) s).regs = s.regs ∧ (apply (.seen k a) s).bytes = s.bytes ∧ (apply (.seen k a) s).mem = s.mem ∧
    (apply (.seen k a) s).vlt = s.vlt ∧ (apply (.seen k a) s).arrs = s.arrs ∧ (apply (.seen k a) s).cores = s.cores ∧
    (apply (.seen k a) s).strs = s.strs ∧ (apply (.seen k a) s).ques = s.ques ∧ (apply (.seen k a) s).host = s.host ∧
    (apply (.seen k a) s).fab = s.fab ∧ (apply (.seen k a) s).pw = s.pw ∧ (apply (.seen k a) s).watch = s.watch ∧
    (apply (.seen k a) s).rcd = s.rcd ∧ (apply (.seen k a) s).worA = s.worA ∧ (apply (.seen k a) s).worB = s.worB ∧
    (apply (.seen k a) s).upd = s.upd ∧ (apply (.seen k a) s).qs = s.qs ∧ (apply (.seen k a) s).sec = s.sec ∧
    (apply (.seen k a) s).out = s.out ∧ (apply (.seen k a) s).pending = s.pending ∧ (apply (.seen k a) s).clk.mono = s.clk.mono ∧
    (apply (.seen k a) s).clk.time = s.clk.time ∧ (apply (.seen k a) s).clk.seen = tset 0 s.clk.seen k a ∧
    (apply (.seen k a) s).clk.free = s.clk.free ∧ (∀ g, (apply (.seen k a) s).rd g = s.rd g) ∧
    (∀ c ix, regWord (apply (.seen k a) s) c ix = regWord s c ix) :=
  ⟨rfl, rfl, rfl, rfl, rfl, rfl, rfl, rfl, rfl, rfl, rfl, rfl, rfl, rfl, rfl, rfl, rfl, rfl, rfl, rfl, rfl, rfl, rfl, rfl, rfl, rfl, rfl,
    fun _ => rfl, fun _ _ => rfl⟩

@[simp] theorem apply_draw :
    (apply (.draw) s).nv = s.nv ∧ (apply (.draw) s).hs = s.hs ∧ (apply (.draw) s).ctl = s.ctl ∧ (apply (.draw) s).regs = s.regs ∧
    (apply (.draw) s).bytes = s.bytes ∧ (apply (.draw) s).mem = s.mem ∧ (apply (.draw) s).vlt = s.vlt ∧ (apply (.draw) s).arrs = s.arrs ∧
    (apply (.draw) s).cores = s.cores ∧ (apply (.draw) s).strs = s.strs ∧ (apply (.draw) s).ques = s.ques ∧
    (apply (.draw) s).host = s.host ∧ (apply (.draw) s).fab = s.fab ∧ (apply (.draw) s).pw = s.pw ∧ (apply (.draw) s).watch = s.watch ∧
    (apply (.draw) s).rcd = s.rcd ∧ (apply (.draw) s).worA = s.worA ∧ (apply (.draw) s).worB = s.worB ∧ (apply (.draw) s).upd = s.upd ∧
    (apply (.draw) s).qs = s.qs ∧ (apply (.draw) s).sec = s.sec ∧ (apply (.draw) s).out = s.out ∧ (apply (.draw) s).pending = s.pending ∧
    (apply (.draw) s).clk.mono = s.clk.mono ∧ (apply (.draw) s).clk.time = s.clk.time ∧ (apply (.draw) s).clk.seen = s.clk.seen ∧
    (apply (.draw) s).clk.free = s.clk.free + 1 ∧ (∀ g, (apply (.draw) s).rd g = s.rd g) ∧
    (∀ c ix, regWord (apply (.draw) s) c ix = regWord s c ix) :=
  ⟨rfl, rfl, rfl, rfl, rfl, rfl, rfl, rfl, rfl, rfl, rfl, rfl, rfl, rfl, rfl, rfl, rfl, rfl, rfl, rfl, rfl, rfl, rfl, rfl, rfl, rfl, rfl,
    fun _ => rfl, fun _ _ => rfl⟩

@[simp] theorem apply_hs (f : HotSwap → HotSwap) :
    (apply (.hs f) s).clk = s.clk ∧ (apply (.hs f) s).nv = s.nv ∧ (apply (.hs f) s).ctl = s.ctl ∧ (apply (.hs f) s).regs = s.regs ∧
    (apply (.hs f) s).bytes = s.bytes ∧ (apply (.hs f) s).mem = s.mem ∧ (apply (.hs f) s).vlt = s.vlt ∧ (apply (.hs f) s).arrs = s.arrs ∧
    (apply (.hs f) s).cores = s.cores ∧ (apply (.hs f) s).strs = s.strs ∧ (apply (.hs f) s).ques = s.ques ∧
    (apply (.hs f) s).host = s.host ∧ (apply (.hs f) s).fab = s.fab ∧ (apply (.hs f) s).pw = s.pw ∧ (apply (.hs f) s).watch = s.watch ∧
    (apply (.hs f) s).rcd = s.rcd ∧ (apply (.hs f) s).worA = s.worA ∧ (apply (.hs f) s).worB = s.worB ∧ (apply (.hs f) s).upd = s.upd ∧
    (apply (.hs f) s).qs = s.qs ∧ (apply (.hs f) s).sec = s.sec ∧ (apply (.hs f) s).out = s.out ∧ (apply (.hs f) s).pending = s.pending ∧
    (apply (.hs f) s).hs = f s.hs ∧ (∀ g, (apply (.hs f) s).rd g = s.rd g) ∧ (∀ c ix, regWord (apply (.hs f) s) c ix = regWord s c ix) :=
  ⟨rfl, rfl, rfl, rfl, rfl, rfl, rfl, rfl, rfl, rfl, rfl, rfl, rfl, rfl, rfl, rfl, rfl, rfl, rfl, rfl, rfl, rfl, rfl, rfl, fun _ => rfl,
    fun _ _ => rfl⟩

@[simp] theorem apply_ctl (f : Ctl → Ctl) :
    (apply (.ctl f) s).clk = s.clk ∧ (apply (.ctl f) s).nv = s.nv ∧ (apply (.ctl f) s).hs = s.hs ∧ (apply (.ctl f) s).regs = s.regs ∧
    (apply (.ctl f) s).bytes = s.bytes ∧ (apply (.ctl f) s).mem = s.mem ∧ (apply (.ctl f) s).vlt = s.vlt ∧
    (apply (.ctl f) s).arrs = s.arrs ∧ (apply (.ctl f) s).cores = s.cores ∧ (apply (.ctl f) s).strs = s.strs ∧
    (apply (.ctl f) s).ques = s.ques ∧ (apply (.ctl f) s).host = s.host ∧ (apply (.ctl f) s).fab = s.fab ∧ (apply (.ctl f) s).pw = s.pw ∧
    (apply (.ctl f) s).watch = s.watch ∧ (apply (.ctl f) s).rcd = s.rcd ∧ (apply (.ctl f) s).worA = s.worA ∧
    (apply (.ctl f) s).worB = s.worB ∧ (apply (.ctl f) s).upd = s.upd ∧ (apply (.ctl f) s).qs = s.qs ∧ (apply (.ctl f) s).sec = s.sec ∧
    (apply (.ctl f) s).out = s.out ∧ (apply (.ctl f) s).pending = s.pending ∧ (apply (.ctl f) s).ctl = f s.ctl ∧
    (∀ g, (apply (.ctl f) s).rd g = s.rd g) ∧ (∀ c ix, regWord (apply (.ctl f) s) c ix = regWord s c ix) :=
  ⟨rfl, rfl, rfl, rfl, rfl, rfl, rfl, rfl, rfl, rfl, rfl, rfl, rfl, rfl, rfl, rfl, rfl, rfl, rfl, rfl, rfl, rfl, rfl, rfl, fun _ => rfl,
    fun _ _ => rfl⟩

@[simp] theorem apply_host (f : HostIf → HostIf) :
    (apply (.host f) s).clk = s.clk ∧ (apply (.host f) s).nv = s.nv ∧ (apply (.host f) s).hs = s.hs ∧ (apply (.host f) s).ctl = s.ctl ∧
    (apply (.host f) s).regs = s.regs ∧ (apply (.host f) s).bytes = s.bytes ∧ (apply (.host f) s).mem = s.mem ∧
    (apply (.host f) s).vlt = s.vlt ∧ (apply (.host f) s).arrs = s.arrs ∧ (apply (.host f) s).cores = s.cores ∧
    (apply (.host f) s).strs = s.strs ∧ (apply (.host f) s).ques = s.ques ∧ (apply (.host f) s).fab = s.fab ∧
    (apply (.host f) s).pw = s.pw ∧ (apply (.host f) s).watch = s.watch ∧ (apply (.host f) s).rcd = s.rcd ∧
    (apply (.host f) s).worA = s.worA ∧ (apply (.host f) s).worB = s.worB ∧ (apply (.host f) s).upd = s.upd ∧
    (apply (.host f) s).qs = s.qs ∧ (apply (.host f) s).sec = s.sec ∧ (apply (.host f) s).out = s.out ∧
    (apply (.host f) s).pending = s.pending ∧ (apply (.host f) s).host = f s.host ∧ (∀ g, (apply (.host f) s).rd g = s.rd g) ∧
    (∀ c ix, regWord (apply (.host f) s) c ix = regWord s c ix) :=
  ⟨rfl, rfl, rfl, rfl, rfl, rfl, rfl, rfl, rfl, rfl, rfl, rfl, rfl, rfl, rfl, rfl, rfl, rfl, rfl, rfl, rfl, rfl, rfl, rfl, fun _ => rfl,
    fun _ _ => rfl⟩

@[simp] theorem apply_fab (f : Fab → Fab) :
    (apply (.fab f) s).clk = s.clk ∧ (apply (.fab f) s).nv = s.nv ∧ (apply (.fab f) s).hs = s.hs ∧ (apply (.fab f) s).ctl = s.ctl ∧
    (apply (.fab f) s).regs = s.regs ∧ (apply (.fab f) s).bytes = s.bytes ∧ (apply (.fab f) s).mem = s.mem ∧
    (apply (.fab f) s).vlt = s.vlt ∧ (apply (.fab f) s).arrs = s.arrs ∧ (apply (.fab f) s).cores = s.cores ∧
    (apply (.fab f) s).strs = s.strs ∧ (apply (.fab f) s).ques = s.ques ∧ (apply (.fab f) s).host = s.host ∧ (apply (.fab f) s).pw = s.pw ∧
    (apply (.fab f) s).watch = s.watch ∧ (apply (.fab f) s).rcd = s.rcd ∧ (apply (.fab f) s).worA = s.worA ∧
    (apply (.fab f) s).worB = s.worB ∧ (apply (.fab f) s).upd = s.upd ∧ (apply (.fab f) s).qs = s.qs ∧ (apply (.fab f) s).sec = s.sec ∧
    (apply (.fab f) s).out = s.out ∧ (apply (.fab f) s).pending = s.pending ∧ (apply (.fab f) s).fab = f s.fab ∧
    (∀ g, (apply (.fab f) s).rd g = s.rd g) ∧ (∀ c ix, regWord (apply (.fab f) s) c ix = regWord s c ix) :=
  ⟨rfl, rfl, rfl, rfl, rfl, rfl, rfl, rfl, rfl, rfl, rfl, rfl, rfl, rfl, rfl, rfl, rfl, rfl, rfl, rfl, rfl, rfl, rfl, rfl, fun _ => rfl,
    fun _ _ => rfl⟩

@[simp] theorem apply_pw (f : Power → Power) :
    (apply (.pw f) s).clk = s.clk ∧ (apply (.pw f) s).nv = s.nv ∧ (apply (.pw f) s).hs = s.hs ∧ (apply (.pw f) s).ctl = s.ctl ∧
    (apply (.pw f) s).regs = s.regs ∧ (apply (.pw f) s).bytes = s.bytes ∧ (apply (.pw f) s).mem = s.mem ∧ (apply (.pw f) s).vlt = s.vlt ∧
    (apply (.pw f) s).arrs = s.arrs ∧ (apply (.pw f) s).cores = s.cores ∧ (apply (.pw f) s).strs = s.strs ∧
    (apply (.pw f) s).ques = s.ques ∧ (apply (.pw f) s).host = s.host ∧ (apply (.pw f) s).fab = s.fab ∧ (apply (.pw f) s).watch = s.watch ∧
    (apply (.pw f) s).rcd = s.rcd ∧ (apply (.pw f) s).worA = s.worA ∧ (apply (.pw f) s).worB = s.worB ∧ (apply (.pw f) s).upd = s.upd ∧
    (apply (.pw f) s).qs = s.qs ∧ (apply (.pw f) s).sec = s.sec ∧ (apply (.pw f) s).out = s.out ∧ (apply (.pw f) s).pending = s.pending ∧
    (apply (.pw f) s).pw = f s.pw ∧ (∀ g, (apply (.pw f) s).rd g = s.rd g) ∧ (∀ c ix, regWord (apply (.pw f) s) c ix = regWord s c ix) :=
  ⟨rfl, rfl, rfl, rfl, rfl, rfl, rfl, rfl, rfl, rfl, rfl, rfl, rfl, rfl, rfl, rfl, rfl, rfl, rfl, rfl, rfl, rfl, rfl, rfl, fun _ => rfl,
    fun _ _ => rfl⟩

@[simp] theorem apply_watch (f : Watch → Watch) :
    (apply (.watch f) s).clk = s.clk ∧ (apply (.watch f) s).nv = s.nv ∧ (apply (.watch f) s).hs = s.hs ∧ (apply (.watch f) s).ctl = s.ctl ∧
    (apply (.watch f) s).regs = s.regs ∧ (apply (.watch f) s).bytes = s.bytes ∧ (apply (.watch f) s).mem = s.mem ∧
    (apply (.watch f) s).vlt = s.vlt ∧ (apply (.watch f) s).arrs = s.arrs ∧ (apply (.watch f) s).cores = s.cores ∧
    (apply (.watch f) s).strs = s.strs ∧ (apply (.watch f) s).ques = s.ques ∧ (apply (.watch f) s).host = s.host ∧
    (apply (.watch f) s).fab = s.fab ∧ (apply (.watch f) s).pw = s.pw ∧ (apply (.watch f) s).rcd = s.rcd ∧
    (apply (.watch f) s).worA = s.worA ∧ (apply (.watch f) s).worB = s.worB ∧ (apply (.watch f) s).upd = s.upd ∧
    (apply (.watch f) s).qs = s.qs ∧ (apply (.watch f) s).sec = s.sec ∧ (apply (.watch f) s).out = s.out ∧
    (apply (.watch f) s).pending = s.pending ∧ (apply (.watch f) s).watch = f s.watch ∧ (∀ g, (apply (.watch f) s).rd g = s.rd g) ∧
    (∀ c ix, regWord (apply (.watch f) s) c ix = regWord s c ix) :=
  ⟨rfl, rfl, rfl, rfl, rfl, rfl, rfl, rfl, rfl, rfl, rfl, rfl, rfl, rfl, rfl, rfl, rfl, rfl, rfl, rfl, rfl, rfl, rfl, rfl, fun _ => rfl,
    fun _ _ => rfl⟩

@[simp] theorem apply_rcd (f : Rec → Rec) :
    (apply (.rcd f) s).clk = s.clk ∧ (apply (.rcd f) s).nv = s.nv ∧ (apply (.rcd f) s).hs = s.hs ∧ (apply (.rcd f) s).ctl = s.ctl ∧
    (apply (.rcd f) s).regs = s.regs ∧ (apply (.rcd f) s).bytes = s.bytes ∧ (apply (.rcd f) s).mem = s.mem ∧
    (apply (.rcd f) s).vlt = s.vlt ∧ (apply (.rcd f) s).arrs = s.arrs ∧ (apply (.rcd f) s).cores = s.cores ∧
    (apply (.rcd f) s).strs = s.strs ∧ (apply (.rcd f) s).ques = s.ques ∧ (apply (.rcd f) s).host = s.host ∧
    (apply (.rcd f) s).fab = s.fab ∧ (apply (.rcd f) s).pw = s.pw ∧ (apply (.rcd f) s).watch = s.watch ∧ (apply (.rcd f) s).worA = s.worA ∧
    (apply (.rcd f) s).worB = s.worB ∧ (apply (.rcd f) s).upd = s.upd ∧ (apply (.rcd f) s).qs = s.qs ∧ (apply (.rcd f) s).sec = s.sec ∧
    (apply (.rcd f) s).out = s.out ∧ (apply (.rcd f) s).pending = s.pending ∧ (apply (.rcd f) s).rcd = f s.rcd ∧
    (∀ g, (apply (.rcd f) s).rd g = s.rd g) ∧ (∀ c ix, regWord (apply (.rcd f) s) c ix = regWord s c ix) :=
  ⟨rfl, rfl, rfl, rfl, rfl, rfl, rfl, rfl, rfl, rfl, rfl, rfl, rfl, rfl, rfl, rfl, rfl, rfl, rfl, rfl, rfl, rfl, rfl, rfl, fun _ => rfl,
    fun _ _ => rfl⟩

@[simp] theorem apply_worA (f : WorPort → WorPort) :
    (apply (.wor false f) s).clk = s.clk ∧ (apply (.wor false f) s).nv = s.nv ∧ (apply (.wor false f) s).hs = s.hs ∧
    (apply (.wor false f) s).ctl = s.ctl ∧ (apply (.wor false f) s).regs = s.regs ∧ (apply (.wor false f) s).bytes = s.bytes ∧
    (apply (.wor false f) s).mem = s.mem ∧ (apply (.wor false f) s).vlt = s.vlt ∧ (apply (.wor false f) s).arrs = s.arrs ∧
    (apply (.wor false f) s).cores = s.cores ∧ (apply (.wor false f) s).strs = s.strs ∧ (apply (.wor false f) s).ques = s.ques ∧
    (apply (.wor false f) s).host = s.host ∧ (apply (.wor false f) s).fab = s.fab ∧ (apply (.wor false f) s).pw = s.pw ∧
    (apply (.wor false f) s).watch = s.watch ∧ (apply (.wor false f) s).rcd = s.rcd ∧ (apply (.wor false f) s).worB = s.worB ∧
    (apply (.wor false f) s).upd = s.upd ∧ (apply (.wor false f) s).qs = s.qs ∧ (apply (.wor false f) s).sec = s.sec ∧
    (apply (.wor false f) s).out = s.out ∧ (apply (.wor false f) s).pending = s.pending ∧ (apply (.wor false f) s).worA = f s.worA ∧
    (∀ g, (apply (.wor false f) s).rd g = s.rd g) ∧ (∀ c ix, regWord (apply (.wor false f) s) c ix = regWord s c ix) :=
  ⟨rfl, rfl, rfl, rfl, rfl, rfl, rfl, rfl, rfl, rfl, rfl, rfl, rfl, rfl, rfl, rfl, rfl, rfl, rfl, rfl, rfl, rfl, rfl, rfl, fun _ => rfl,
    fun _ _ => rfl⟩

@[simp] theorem apply_worB (f : WorPort → WorPort) :
    (apply (.wor true f) s).clk = s.clk ∧ (apply (.wor true f) s).nv = s.nv ∧ (apply (.wor true f) s).hs = s.hs ∧
    (apply (.wor true f) s).ctl = s.ctl ∧ (apply (.wor true f) s).regs = s.regs ∧ (apply (.wor true f) s).bytes = s.bytes ∧
    (apply (.wor true f) s).mem = s.mem ∧ (apply (.wor true f) s).vlt = s.vlt ∧ (apply (.wor true f) s).arrs = s.arrs ∧
    (apply (.wor true f) s).cores = s.cores ∧ (apply (.wor true f) s).strs = s.strs ∧ (apply (.wor true f) s).ques = s.ques ∧
    (apply (.wor true f) s).host = s.host ∧ (apply (.wor true f) s).fab = s.fab ∧ (apply (.wor true f) s).pw = s.pw ∧
    (apply (.wor true f) s).watch = s.watch ∧ (apply (.wor true f) s).rcd = s.rcd ∧ (apply (.wor true f) s).worA = s.worA ∧
    (apply (.wor true f) s).upd = s.upd ∧ (apply (.wor true f) s).qs = s.qs ∧ (apply (.wor true f) s).sec = s.sec ∧
    (apply (.wor true f) s).out = s.out ∧ (apply (.wor true f) s).pending = s.pending ∧ (apply (.wor true f) s).worB = f s.worB ∧
    (∀ g, (apply (.wor true f) s).rd g = s.rd g) ∧ (∀ c ix, regWord (apply (.wor true f) s) c ix = regWord s c ix) :=
  ⟨rfl, rfl, rfl, rfl, rfl, rfl, rfl, rfl, rfl, rfl, rfl, rfl, rfl, rfl, rfl, rfl, rfl, rfl, rfl, rfl, rfl, rfl, rfl, rfl, fun _ => rfl,
    fun _ _ => rfl⟩

@[simp] theorem apply_upd (f : Upd → Upd) :
    (apply (.upd f) s).clk = s.clk ∧ (apply (.upd f) s).nv = s.nv ∧ (apply (.upd f) s).hs = s.hs ∧ (apply (.upd f) s).ctl = s.ctl ∧
    (apply (.upd f) s).regs = s.regs ∧ (apply (.upd f) s).bytes = s.bytes ∧ (apply (.upd f) s).mem = s.mem ∧
    (apply (.upd f) s).vlt = s.vlt ∧ (apply (.upd f) s).arrs = s.arrs ∧ (apply (.upd f) s).cores = s.cores ∧
    (apply (.upd f) s).strs = s.strs ∧ (apply (.upd f) s).ques = s.ques ∧ (apply (.upd f) s).host = s.host ∧
    (apply (.upd f) s).fab = s.fab ∧ (apply (.upd f) s).pw = s.pw ∧ (apply (.upd f) s).watch = s.watch ∧ (apply (.upd f) s).rcd = s.rcd ∧
    (apply (.upd f) s).worA = s.worA ∧ (apply (.upd f) s).worB = s.worB ∧ (apply (.upd f) s).qs = s.qs ∧ (apply (.upd f) s).sec = s.sec ∧
    (apply (.upd f) s).out = s.out ∧ (apply (.upd f) s).pending = s.pending ∧ (apply (.upd f) s).upd = f s.upd ∧
    (∀ g, (apply (.upd f) s).rd g = s.rd g) ∧ (∀ c ix, regWord (apply (.upd f) s) c ix = regWord s c ix) :=
  ⟨rfl, rfl, rfl, rfl, rfl, rfl, rfl, rfl, rfl, rfl, rfl, rfl, rfl, rfl, rfl, rfl, rfl, rfl, rfl, rfl, rfl, rfl, rfl, rfl, fun _ => rfl,
    fun _ _ => rfl⟩

@[simp] theorem apply_qs (f : Qs → Qs) :
    (apply (.qs f) s).clk = s.clk ∧ (apply (.qs f) s).nv = s.nv ∧ (apply (.qs f) s).hs = s.hs ∧ (apply (.qs f) s).ctl = s.ctl ∧
    (apply (.qs f) s).regs = s.regs ∧ (apply (.qs f) s).bytes = s.bytes ∧ (apply (.qs f) s).mem = s.mem ∧ (apply (.qs f) s).vlt = s.vlt ∧
    (apply (.qs f) s).arrs = s.arrs ∧ (apply (.qs f) s).cores = s.cores ∧ (apply (.qs f) s).strs = s.strs ∧
    (apply (.qs f) s).ques = s.ques ∧ (apply (.qs f) s).host = s.host ∧ (apply (.qs f) s).fab = s.fab ∧ (apply (.qs f) s).pw = s.pw ∧
    (apply (.qs f) s).watch = s.watch ∧ (apply (.qs f) s).rcd = s.rcd ∧ (apply (.qs f) s).worA = s.worA ∧ (apply (.qs f) s).worB = s.worB ∧
    (apply (.qs f) s).upd = s.upd ∧ (apply (.qs f) s).sec = s.sec ∧ (apply (.qs f) s).out = s.out ∧ (apply (.qs f) s).pending = s.pending ∧
    (apply (.qs f) s).qs = f s.qs ∧ (∀ g, (apply (.qs f) s).rd g = s.rd g) ∧ (∀ c ix, regWord (apply (.qs f) s) c ix = regWord s c ix) :=
  ⟨rfl, rfl, rfl, rfl, rfl, rfl, rfl, rfl, rfl, rfl, rfl, rfl, rfl, rfl, rfl, rfl, rfl, rfl, rfl, rfl, rfl, rfl, rfl, rfl, fun _ => rfl,
    fun _ _ => rfl⟩

@[simp] theorem apply_sec (f : Sec → Sec) :
    (apply (.sec f) s).clk = s.clk ∧ (apply (.sec f) s).nv = s.nv ∧ (apply (.sec f) s).hs = s.hs ∧ (apply (.sec f) s).ctl = s.ctl ∧
    (apply (.sec f) s).regs = s.regs ∧ (apply (.sec f) s).bytes = s.bytes ∧ (apply (.sec f) s).mem = s.mem ∧
    (apply (.sec f) s).vlt = s.vlt ∧ (apply (.sec f) s).arrs = s.arrs ∧ (apply (.sec f) s).cores = s.cores ∧
    (apply (.sec f) s).strs = s.strs ∧ (apply (.sec f) s).ques = s.ques ∧ (apply (.sec f) s).host = s.host ∧
    (apply (.sec f) s).fab = s.fab ∧ (apply (.sec f) s).pw = s.pw ∧ (apply (.sec f) s).watch = s.watch ∧ (apply (.sec f) s).rcd = s.rcd ∧
    (apply (.sec f) s).worA = s.worA ∧ (apply (.sec f) s).worB = s.worB ∧ (apply (.sec f) s).upd = s.upd ∧ (apply (.sec f) s).qs = s.qs ∧
    (apply (.sec f) s).out = s.out ∧ (apply (.sec f) s).pending = s.pending ∧ (apply (.sec f) s).sec = f s.sec ∧
    (∀ g, (apply (.sec f) s).rd g = s.rd g) ∧ (∀ c ix, regWord (apply (.sec f) s) c ix = regWord s c ix) :=
  ⟨rfl, rfl, rfl, rfl, rfl, rfl, rfl, rfl, rfl, rfl, rfl, rfl, rfl, rfl, rfl, rfl, rfl, rfl, rfl, rfl, rfl, rfl, rfl, rfl, fun _ => rfl,
    fun _ _ => rfl⟩

@[simp] theorem apply_nor (f : Nor → Nor) :
    (apply (.nor f) s).clk = s.clk ∧ (apply (.nor f) s).hs = s.hs ∧ (apply (.nor f) s).ctl = s.ctl ∧ (apply (.nor f) s).regs = s.regs ∧
    (apply (.nor f) s).bytes = s.bytes ∧ (apply (.nor f) s).mem = s.mem ∧ (apply (.nor f) s).vlt = s.vlt ∧
    (apply (.nor f) s).arrs = s.arrs ∧ (apply (.nor f) s).cores = s.cores ∧ (apply (.nor f) s).strs = s.strs ∧
    (apply (.nor f) s).ques = s.ques ∧ (apply (.nor f) s).host = s.host ∧ (apply (.nor f) s).fab = s.fab ∧ (apply (.nor f) s).pw = s.pw ∧
    (apply (.nor f) s).watch = s.watch ∧ (apply (.nor f) s).rcd = s.rcd ∧ (apply (.nor f) s).worA = s.worA ∧
    (apply (.nor f) s).worB = s.worB ∧ (apply (.nor f) s).upd = s.upd ∧ (apply (.nor f) s).qs = s.qs ∧ (apply (.nor f) s).sec = s.sec ∧
    (apply (.nor f) s).out = s.out ∧ (apply (.nor f) s).pending = s.pending ∧ (apply (.nor f) s).nv.nor = f s.nv.nor ∧
    (apply (.nor f) s).nv.fuses = s.nv.fuses ∧ (apply (.nor f) s).nv.super = s.nv.super ∧ (apply (.nor f) s).nv.settings = s.nv.settings ∧
    (apply (.nor f) s).nv.latch = s.nv.latch ∧ (∀ g, (apply (.nor f) s).rd g = s.rd g) ∧
    (∀ c ix, regWord (apply (.nor f) s) c ix = regWord s c ix) :=
  ⟨rfl, rfl, rfl, rfl, rfl, rfl, rfl, rfl, rfl, rfl, rfl, rfl, rfl, rfl, rfl, rfl, rfl, rfl, rfl, rfl, rfl, rfl, rfl, rfl, rfl, rfl, rfl,
    rfl, fun _ => rfl, fun _ _ => rfl⟩

@[simp] theorem apply_super (f : Super → Super) :
    (apply (.super f) s).clk = s.clk ∧ (apply (.super f) s).hs = s.hs ∧ (apply (.super f) s).ctl = s.ctl ∧
    (apply (.super f) s).regs = s.regs ∧ (apply (.super f) s).bytes = s.bytes ∧ (apply (.super f) s).mem = s.mem ∧
    (apply (.super f) s).vlt = s.vlt ∧ (apply (.super f) s).arrs = s.arrs ∧ (apply (.super f) s).cores = s.cores ∧
    (apply (.super f) s).strs = s.strs ∧ (apply (.super f) s).ques = s.ques ∧ (apply (.super f) s).host = s.host ∧
    (apply (.super f) s).fab = s.fab ∧ (apply (.super f) s).pw = s.pw ∧ (apply (.super f) s).watch = s.watch ∧
    (apply (.super f) s).rcd = s.rcd ∧ (apply (.super f) s).worA = s.worA ∧ (apply (.super f) s).worB = s.worB ∧
    (apply (.super f) s).upd = s.upd ∧ (apply (.super f) s).qs = s.qs ∧ (apply (.super f) s).sec = s.sec ∧
    (apply (.super f) s).out = s.out ∧ (apply (.super f) s).pending = s.pending ∧ (apply (.super f) s).nv.nor = s.nv.nor ∧
    (apply (.super f) s).nv.fuses = s.nv.fuses ∧ (apply (.super f) s).nv.super = f s.nv.super ∧
    (apply (.super f) s).nv.settings = s.nv.settings ∧ (apply (.super f) s).nv.latch = s.nv.latch ∧
    (∀ g, (apply (.super f) s).rd g = s.rd g) ∧ (∀ c ix, regWord (apply (.super f) s) c ix = regWord s c ix) :=
  ⟨rfl, rfl, rfl, rfl, rfl, rfl, rfl, rfl, rfl, rfl, rfl, rfl, rfl, rfl, rfl, rfl, rfl, rfl, rfl, rfl, rfl, rfl, rfl, rfl, rfl, rfl, rfl,
    rfl, fun _ => rfl, fun _ _ => rfl⟩

@[simp] theorem apply_settings (f : Settings → Settings) :
    (apply (.settings f) s).clk = s.clk ∧ (apply (.settings f) s).hs = s.hs ∧ (apply (.settings f) s).ctl = s.ctl ∧
    (apply (.settings f) s).regs = s.regs ∧ (apply (.settings f) s).bytes = s.bytes ∧ (apply (.settings f) s).mem = s.mem ∧
    (apply (.settings f) s).vlt = s.vlt ∧ (apply (.settings f) s).arrs = s.arrs ∧ (apply (.settings f) s).cores = s.cores ∧
    (apply (.settings f) s).strs = s.strs ∧ (apply (.settings f) s).ques = s.ques ∧ (apply (.settings f) s).host = s.host ∧
    (apply (.settings f) s).fab = s.fab ∧ (apply (.settings f) s).pw = s.pw ∧ (apply (.settings f) s).watch = s.watch ∧
    (apply (.settings f) s).rcd = s.rcd ∧ (apply (.settings f) s).worA = s.worA ∧ (apply (.settings f) s).worB = s.worB ∧
    (apply (.settings f) s).upd = s.upd ∧ (apply (.settings f) s).qs = s.qs ∧ (apply (.settings f) s).sec = s.sec ∧
    (apply (.settings f) s).out = s.out ∧ (apply (.settings f) s).pending = s.pending ∧ (apply (.settings f) s).nv.nor = s.nv.nor ∧
    (apply (.settings f) s).nv.fuses = s.nv.fuses ∧ (apply (.settings f) s).nv.super = s.nv.super ∧
    (apply (.settings f) s).nv.settings = f s.nv.settings ∧ (apply (.settings f) s).nv.latch = s.nv.latch ∧
    (∀ g, (apply (.settings f) s).rd g = s.rd g) ∧ (∀ c ix, regWord (apply (.settings f) s) c ix = regWord s c ix) :=
  ⟨rfl, rfl, rfl, rfl, rfl, rfl, rfl, rfl, rfl, rfl, rfl, rfl, rfl, rfl, rfl, rfl, rfl, rfl, rfl, rfl, rfl, rfl, rfl, rfl, rfl, rfl, rfl,
    rfl, fun _ => rfl, fun _ _ => rfl⟩

@[simp] theorem apply_latch (f : Latch → Latch) :
    (apply (.latch f) s).clk = s.clk ∧ (apply (.latch f) s).hs = s.hs ∧ (apply (.latch f) s).ctl = s.ctl ∧
    (apply (.latch f) s).regs = s.regs ∧ (apply (.latch f) s).bytes = s.bytes ∧ (apply (.latch f) s).mem = s.mem ∧
    (apply (.latch f) s).vlt = s.vlt ∧ (apply (.latch f) s).arrs = s.arrs ∧ (apply (.latch f) s).cores = s.cores ∧
    (apply (.latch f) s).strs = s.strs ∧ (apply (.latch f) s).ques = s.ques ∧ (apply (.latch f) s).host = s.host ∧
    (apply (.latch f) s).fab = s.fab ∧ (apply (.latch f) s).pw = s.pw ∧ (apply (.latch f) s).watch = s.watch ∧
    (apply (.latch f) s).rcd = s.rcd ∧ (apply (.latch f) s).worA = s.worA ∧ (apply (.latch f) s).worB = s.worB ∧
    (apply (.latch f) s).upd = s.upd ∧ (apply (.latch f) s).qs = s.qs ∧ (apply (.latch f) s).sec = s.sec ∧
    (apply (.latch f) s).out = s.out ∧ (apply (.latch f) s).pending = s.pending ∧ (apply (.latch f) s).nv.nor = s.nv.nor ∧
    (apply (.latch f) s).nv.fuses = s.nv.fuses ∧ (apply (.latch f) s).nv.super = s.nv.super ∧
    (apply (.latch f) s).nv.settings = s.nv.settings ∧ (apply (.latch f) s).nv.latch = f s.nv.latch ∧
    (∀ g, (apply (.latch f) s).rd g = s.rd g) ∧ (∀ c ix, regWord (apply (.latch f) s) c ix = regWord s c ix) :=
  ⟨rfl, rfl, rfl, rfl, rfl, rfl, rfl, rfl, rfl, rfl, rfl, rfl, rfl, rfl, rfl, rfl, rfl, rfl, rfl, rfl, rfl, rfl, rfl, rfl, rfl, rfl, rfl,
    rfl, fun _ => rfl, fun _ _ => rfl⟩

@[simp] theorem apply_ownerRevoke (n : Nat) :
    (apply (.ownerRevoke n) s).clk = s.clk ∧ (apply (.ownerRevoke n) s).hs = s.hs ∧ (apply (.ownerRevoke n) s).ctl = s.ctl ∧
    (apply (.ownerRevoke n) s).regs = s.regs ∧ (apply (.ownerRevoke n) s).bytes = s.bytes ∧ (apply (.ownerRevoke n) s).mem = s.mem ∧
    (apply (.ownerRevoke n) s).vlt = s.vlt ∧ (apply (.ownerRevoke n) s).arrs = s.arrs ∧ (apply (.ownerRevoke n) s).cores = s.cores ∧
    (apply (.ownerRevoke n) s).strs = s.strs ∧ (apply (.ownerRevoke n) s).ques = s.ques ∧ (apply (.ownerRevoke n) s).host = s.host ∧
    (apply (.ownerRevoke n) s).fab = s.fab ∧ (apply (.ownerRevoke n) s).pw = s.pw ∧ (apply (.ownerRevoke n) s).watch = s.watch ∧
    (apply (.ownerRevoke n) s).rcd = s.rcd ∧ (apply (.ownerRevoke n) s).worA = s.worA ∧ (apply (.ownerRevoke n) s).worB = s.worB ∧
    (apply (.ownerRevoke n) s).upd = s.upd ∧ (apply (.ownerRevoke n) s).qs = s.qs ∧ (apply (.ownerRevoke n) s).sec = s.sec ∧
    (apply (.ownerRevoke n) s).out = s.out ∧ (apply (.ownerRevoke n) s).pending = s.pending ∧
    (apply (.ownerRevoke n) s).nv.nor = s.nv.nor ∧ (apply (.ownerRevoke n) s).nv.fuses.svn = s.nv.fuses.svn ∧
    (apply (.ownerRevoke n) s).nv.super = s.nv.super ∧ (apply (.ownerRevoke n) s).nv.settings = s.nv.settings ∧
    (apply (.ownerRevoke n) s).nv.latch = s.nv.latch ∧ (∀ g, (apply (.ownerRevoke n) s).rd g = s.rd g) ∧
    (∀ c ix, regWord (apply (.ownerRevoke n) s) c ix = regWord s c ix) :=
  ⟨rfl, rfl, rfl, rfl, rfl, rfl, rfl, rfl, rfl, rfl, rfl, rfl, rfl, rfl, rfl, rfl, rfl, rfl, rfl, rfl, rfl, rfl, rfl, rfl, rfl, rfl, rfl,
    rfl, fun _ => rfl, fun _ _ => rfl⟩

@[simp] theorem apply_svnBlow (n : Nat) :
    (apply (.svnBlow n) s).clk = s.clk ∧ (apply (.svnBlow n) s).hs = s.hs ∧ (apply (.svnBlow n) s).ctl = s.ctl ∧
    (apply (.svnBlow n) s).regs = s.regs ∧ (apply (.svnBlow n) s).bytes = s.bytes ∧ (apply (.svnBlow n) s).mem = s.mem ∧
    (apply (.svnBlow n) s).vlt = s.vlt ∧ (apply (.svnBlow n) s).arrs = s.arrs ∧ (apply (.svnBlow n) s).cores = s.cores ∧
    (apply (.svnBlow n) s).strs = s.strs ∧ (apply (.svnBlow n) s).ques = s.ques ∧ (apply (.svnBlow n) s).host = s.host ∧
    (apply (.svnBlow n) s).fab = s.fab ∧ (apply (.svnBlow n) s).pw = s.pw ∧ (apply (.svnBlow n) s).watch = s.watch ∧
    (apply (.svnBlow n) s).rcd = s.rcd ∧ (apply (.svnBlow n) s).worA = s.worA ∧ (apply (.svnBlow n) s).worB = s.worB ∧
    (apply (.svnBlow n) s).upd = s.upd ∧ (apply (.svnBlow n) s).qs = s.qs ∧ (apply (.svnBlow n) s).sec = s.sec ∧
    (apply (.svnBlow n) s).out = s.out ∧ (apply (.svnBlow n) s).pending = s.pending ∧ (apply (.svnBlow n) s).nv.nor = s.nv.nor ∧
    (apply (.svnBlow n) s).nv.fuses.svn = max s.nv.fuses.svn (min n 64) ∧ (apply (.svnBlow n) s).nv.fuses.owner = s.nv.fuses.owner ∧
    (apply (.svnBlow n) s).nv.super = s.nv.super ∧ (apply (.svnBlow n) s).nv.settings = s.nv.settings ∧
    (apply (.svnBlow n) s).nv.latch = s.nv.latch ∧ (∀ g, (apply (.svnBlow n) s).rd g = s.rd g) ∧
    (∀ c ix, regWord (apply (.svnBlow n) s) c ix = regWord s c ix) :=
  ⟨rfl, rfl, rfl, rfl, rfl, rfl, rfl, rfl, rfl, rfl, rfl, rfl, rfl, rfl, rfl, rfl, rfl, rfl, rfl, rfl, rfl, rfl, rfl, rfl, rfl, rfl, rfl,
    rfl, rfl, fun _ => rfl, fun _ _ => rfl⟩

@[simp] theorem apply_out (x : Out) :
    (apply (.out x) s).clk = s.clk ∧ (apply (.out x) s).nv = s.nv ∧ (apply (.out x) s).hs = s.hs ∧ (apply (.out x) s).ctl = s.ctl ∧
    (apply (.out x) s).regs = s.regs ∧ (apply (.out x) s).bytes = s.bytes ∧ (apply (.out x) s).mem = s.mem ∧
    (apply (.out x) s).vlt = s.vlt ∧ (apply (.out x) s).arrs = s.arrs ∧ (apply (.out x) s).cores = s.cores ∧
    (apply (.out x) s).strs = s.strs ∧ (apply (.out x) s).ques = s.ques ∧ (apply (.out x) s).host = s.host ∧
    (apply (.out x) s).fab = s.fab ∧ (apply (.out x) s).pw = s.pw ∧ (apply (.out x) s).watch = s.watch ∧ (apply (.out x) s).rcd = s.rcd ∧
    (apply (.out x) s).worA = s.worA ∧ (apply (.out x) s).worB = s.worB ∧ (apply (.out x) s).upd = s.upd ∧ (apply (.out x) s).qs = s.qs ∧
    (apply (.out x) s).sec = s.sec ∧ (apply (.out x) s).pending = s.pending ∧ (apply (.out x) s).out = s.out ++ [x] ∧
    (∀ g, (apply (.out x) s).rd g = s.rd g) ∧ (∀ c ix, regWord (apply (.out x) s) c ix = regWord s c ix) :=
  ⟨rfl, rfl, rfl, rfl, rfl, rfl, rfl, rfl, rfl, rfl, rfl, rfl, rfl, rfl, rfl, rfl, rfl, rfl, rfl, rfl, rfl, rfl, rfl, rfl, fun _ => rfl,
    fun _ _ => rfl⟩

/-- A blown owner slot is never written again; nothing else of the state changes (R435). -/
@[simp] theorem apply_por :
    (apply .por s).nv = s.nv ∧ (apply .por s).hs = s.hs ∧ (apply .por s).out = s.out ∧ (apply .por s).pending = s.pending ∧
    (apply .por s).regs = [] ∧ (apply .por s).ctl = { Ctl.init with mrstLow := s.ctl.mrstLow } ∧ (apply .por s).clk.mono = s.clk.mono ∧
    (apply .por s).clk.free = s.clk.free ∧ (apply .por s).clk.seen = [] ∧ (apply .por s).mem = Mem.init ∧ (apply .por s).vlt = Vault.init ∧
    (apply .por s).arrs = [] ∧ (apply .por s).cores = [] ∧ (apply .por s).strs = [] ∧ (apply .por s).ques = [] ∧
    (apply .por s).host = HostIf.init ∧ (apply .por s).fab = Fab.init ∧ (apply .por s).pw = Power.init ∧ (apply .por s).rcd = Rec.init ∧
    (apply .por s).worA = WorPort.init ∧ (apply .por s).worB = WorPort.init ∧ (apply .por s).upd = Upd.init ∧ (apply .por s).qs = Qs.init ∧
    (apply .por s).sec = Sec.init :=
  ⟨rfl, rfl, rfl, rfl, rfl, rfl, rfl, rfl, rfl, rfl, rfl, rfl, rfl, rfl, rfl, rfl, rfl, rfl, rfl, rfl, rfl, rfl, rfl, rfl⟩

theorem apply_ownerBlow_blown (n : Nat) (d : List Byte) (h : (tget OwnerSlot.empty s.nv.fuses.owner n).valid = true) :
    apply (.ownerBlow n d) s = s := by simp [apply, h]

/-- An empty owner slot takes its digest (R435, R436). -/
theorem apply_ownerBlow_empty (n : Nat) (d : List Byte) (h : (tget OwnerSlot.empty s.nv.fuses.owner n).valid = false) :
    apply (.ownerBlow n d) s =
      { s with nv := { s.nv with fuses := { s.nv.fuses with owner := tset OwnerSlot.empty s.nv.fuses.owner n ⟨d, true, false⟩ } } } := by
  simp [apply, h]

end Sys2Proof.Machine
end

