-- ==== Sys2Proof/Laws/Act.lean ====
section
/-!
SUPPORT. Laws of actions: how the primitive operations evaluate, and that whatever an action leaves is reached by primitive effects.
-/

namespace Sys2Proof.Machine

variable {o : State} {α β : Type}

/-! Evaluation. The proofs are `id rfl` so that simp records a step for each: a whole run left to the kernel as one definitional
equality recurses too deeply. -/

theorem M.pure_run (a : α) (x : Trace o) : (pure a : M o α) x = (a, x) := id rfl

theorem M.bind_run (m : M o α) (f : α → M o β) (x : Trace o) : (m >>= f) x = f (m x).1 (m x).2 := id rfl

theorem M.map_run (g : α → β) (m : M o α) (x : Trace o) : (g <$> m) x = (g (m x).1, (m x).2) := id rfl

theorem eff_run (e : Eff) (x : Trace o) : (eff e : M o Unit) x = ((), ⟨apply e x.1, Reach.step x.2 e⟩) := id rfl

theorem st_run (x : Trace o) : (st : M o State) x = (x.1, x) := id rfl

theorem rd_run (f : Fld) (x : Trace o) : (rd f : M o Nat) x = (x.1.rd f, x) := id rfl

theorem wr_run (f : Fld) (v : Nat) (x : Trace o) : (wr f v : M o Unit) x = ((), ⟨apply (.reg f v) x.1, Reach.step x.2 _⟩) := id rfl

theorem now_run (x : Trace o) : (now : M o Nat) x = (x.1.clk.mono, x) := id rfl

theorem send_run (y : Out) (x : Trace o) : (send y : M o Unit) x = ((), ⟨apply (.out y) x.1, Reach.step x.2 _⟩) := id rfl

theorem ite_run (c : Prop) [Decidable c] (m n : M o α) (x : Trace o) : (if c then m else n) x = if c then m x else n x := by
  split <;> rfl

theorem when_run (c : Bool) (m : M o Unit) (x : Trace o) : when_ c m x = if c then m x else ((), x) := by
  cases c <;> rfl

@[simp] theorem each_nil (f : α → M o Unit) : each [] f = pure () := rfl

theorem each_cons (a : α) (l : List α) (f : α → M o Unit) : each (a :: l) f = (f a >>= fun _ => each l f) := rfl

/-- The state that an action leaves from the state of its trace. -/
def M.fin (m : M o α) (x : Trace o) : State := (m x).2.1

/-- What an action answers. -/
def M.val (m : M o α) (x : Trace o) : α := (m x).1

/-! Outcomes of a meaning. -/

theorem act_true (s : State) (m : M s Unit) : act true s m = .next (runFrom s m) := rfl

theorem act_false (s : State) (m : M s Unit) : act false s m = .refused .malformed := rfl

/-- A meaning answers a next state exactly on a well-formed command. -/
theorem act_next (b : Bool) (s t : State) (m : M s Unit) : act b s m = .next t ↔ b = true ∧ t = runFrom s m := by
  cases b <;> simp [act, eq_comm]

/-- No meaning faults. -/
theorem act_no_fault (b : Bool) (s : State) (m : M s Unit) (r : Fault) : act b s m ≠ .fault r := nomatch r

theorem runFrom_reach (s : State) (m : M s Unit) : Reach s (runFrom s m) := (m ⟨s, Reach.refl⟩).2.2

/-- What a meaning leaves is reached by primitive effects. -/
theorem act_reach {b : Bool} {s t : State} {m : M s Unit} (h : act b s m = .next t) : Reach s t := by
  obtain ⟨-, rfl⟩ := (act_next b s t m).1 h
  exact runFrom_reach s m

/-! Induction on the effects of a run. -/

/-- What every primitive effect keeps holds after a run. -/
theorem Reach.keeps {P : State → Prop} (hstep : ∀ e u, P u → P (apply e u)) {s t : State} (h : Reach s t) (hs : P s) : P t := by
  induction h with
  | refl => exact hs
  | step _ e ih => exact hstep e _ ih

/-- A reflexive and transitive relation that every primitive effect meets holds between the ends of a run. -/
theorem Reach.rel {R : State → State → Prop} (hr : ∀ u, R u u) (ht : ∀ a b c, R a b → R b c → R a c) (hstep : ∀ e u, R u (apply e u))
    {s t : State} (h : Reach s t) : R s t := by
  induction h with
  | refl => exact hr _
  | step _ e ih => exact ht _ _ _ ih (hstep e _)

theorem Reach.trans {s t u : State} (h : Reach s t) (h' : Reach t u) : Reach s u := by
  induction h' with
  | refl => exact h
  | step _ e ih => exact .step ih e

end Sys2Proof.Machine
end

