-- ==== Sys2Proof/Laws/Tables.lean ====
section
/-!
SUPPORT. Laws of the sparse tables: what a key reads after an update, and the canonical forms that updates keep.
-/

namespace Sys2Proof.Machine

variable {α : Type}

@[simp] theorem tget_nil (d : α) (k : Nat) : tget d [] k = d := rfl

theorem tget_tput_self (d : α) (t : Tbl α) (k : Nat) (v : α) : tget d (tput t k v) k = v := by
  induction t with
  | nil => simp [tput, tget]
  | cons e t ih =>
    obtain ⟨a, w⟩ := e
    simp only [tput]
    split
    · simp [tget]
    · split
      · simp [tget]
      · simp [tget, *]

theorem tget_tput_ne (d : α) (t : Tbl α) (k j : Nat) (v : α) (h : j ≠ k) : tget d (tput t k v) j = tget d t j := by
  induction t with
  | nil => simp [tput, tget, h]
  | cons e t ih =>
    obtain ⟨a, w⟩ := e
    simp only [tput]
    split
    · simp [tget, h]
    · split
      · subst k; simp [tget, h]
      · simp [tget, ih]

theorem tget_filter_drop (d : α) (p : Nat → Bool) (t : Tbl α) (k : Nat) (h : p k = false) :
    tget d (t.filter (fun e => p e.1)) k = d := by
  induction t with
  | nil => rfl
  | cons e t ih =>
    obtain ⟨a, w⟩ := e
    by_cases ha : p a
    · have : k ≠ a := fun e => by simp [e, ha] at h
      simp [List.filter, ha, tget, this, ih]
    · simp [List.filter, ha, ih]

theorem tget_filter_keep (d : α) (p : Nat → Bool) (t : Tbl α) (k : Nat) (h : p k = true) :
    tget d (t.filter (fun e => p e.1)) k = tget d t k := by
  induction t with
  | nil => rfl
  | cons e t ih =>
    obtain ⟨a, w⟩ := e
    by_cases ha : p a
    · simp [List.filter, ha, tget, ih]
    · have : k ≠ a := fun e => by simp [e, ha] at h
      simp [List.filter, ha, tget, this, ih]

/-- A key reads what was set there. -/
@[simp] theorem tget_tset_self [DecidableEq α] (d : α) (t : Tbl α) (k : Nat) (v : α) : tget d (tset d t k v) k = v := by
  unfold tset
  split
  · subst v; exact tget_filter_drop d (fun x => decide (x ≠ k)) t k (by simp)
  · exact tget_tput_self d t k v

/-- Every other key reads as before. -/
theorem tget_tset_ne [DecidableEq α] (d : α) (t : Tbl α) (k j : Nat) (v : α) (h : j ≠ k) : tget d (tset d t k v) j = tget d t j := by
  unfold tset
  split
  · exact tget_filter_keep d (fun x => decide (x ≠ k)) t j (by simp [h])
  · exact tget_tput_ne d t k j v h

/-- The same when the default that the table is read with is another (a register's reset word). -/
theorem tget_tset_key [DecidableEq α] (d d' : α) (t : Tbl α) (k j : Nat) (v : α) (h : j ≠ k) :
    tget d' (tset d t k v) j = tget d' t j := by
  unfold tset
  split
  · exact tget_filter_keep d' (fun x => decide (x ≠ k)) t j (by simp [h])
  · exact tget_tput_ne d' t k j v h

/-- A cleared range reads the default. -/
theorem tget_tclear_in (d : α) (lo hi : Nat) (t : Tbl α) (k : Nat) (h : lo ≤ k ∧ k < hi) : tget d (tclear lo hi t) k = d :=
  tget_filter_drop d (fun x => decide (x < lo) || decide (hi ≤ x)) t k (by simp; omega)

/-- Outside a cleared range every key reads as before. -/
theorem tget_tclear_out (d : α) (lo hi : Nat) (t : Tbl α) (k : Nat) (h : k < lo ∨ hi ≤ k) : tget d (tclear lo hi t) k = tget d t k :=
  tget_filter_keep d (fun x => decide (x < lo) || decide (hi ≤ x)) t k (by simpa using h)

theorem tget_append (d : α) (t u : Tbl α) (k : Nat) :
    tget d (t ++ u) k = if k ∈ t.map Prod.fst then tget d t k else tget d u k := by
  induction t with
  | nil => simp
  | cons e t ih =>
    obtain ⟨a, w⟩ := e
    by_cases h : k = a
    · simp [tget, h]
    · simp only [List.cons_append, tget, h, if_false, ih, List.map_cons, List.mem_cons, false_or]

theorem tget_absent (d : α) (t : Tbl α) (k : Nat) (h : k ∉ t.map Prod.fst) : tget d t k = d := by
  induction t with
  | nil => rfl
  | cons e t ih =>
    obtain ⟨a, w⟩ := e
    simp only [List.map_cons, List.mem_cons, not_or] at h
    simp [tget, h.1, ih h.2]

theorem bytesAt_keys (a : Nat) (bs : List Byte) : ∀ e ∈ bytesAt a bs, a ≤ e.1 ∧ e.1 < a + bs.length ∧ e.2 ≠ 0 := by
  induction bs generalizing a with
  | nil => simp [bytesAt]
  | cons b bs ih =>
    intro e he
    simp only [bytesAt] at he
    split at he
    · have := ih (a + 1) e he
      simp only [List.length_cons]
      exact ⟨by omega, by omega, this.2.2⟩
    · rcases List.mem_cons.1 he with rfl | he
      · rename_i hb; simp only [List.length_cons]; exact ⟨Nat.le_refl _, by omega, hb⟩
      · have := ih (a + 1) e he
        simp only [List.length_cons]
        exact ⟨by omega, by omega, this.2.2⟩

theorem tget_bytesAt (a : Nat) (bs : List Byte) (i : Nat) (h : i < bs.length) : tget 0 (bytesAt a bs) (a + i) = bs[i] := by
  induction bs generalizing a i with
  | nil => simp at h
  | cons b bs ih =>
    have out : a ∉ (bytesAt (a + 1) bs).map Prod.fst := by
      intro hc
      obtain ⟨e, he, hea⟩ := List.mem_map.1 hc
      have := (bytesAt_keys (a + 1) bs e he).1
      omega
    cases i with
    | zero =>
      simp only [bytesAt]
      split
      · rename_i hb; simpa [hb] using tget_absent 0 _ _ out
      · simp [tget]
    | succ i =>
      have hi : i < bs.length := by simpa using h
      have := ih (a + 1) i hi
      have e : a + (i + 1) = a + 1 + i := by omega
      simp only [bytesAt, e]
      split
      · simpa using this
      · have : a + 1 + i ≠ a := by omega
        simpa [tget, this] using ih (a + 1) i hi

theorem keys_filter (p : Nat → Bool) (t : Tbl α) (k : Nat) :
    k ∈ (t.filter (fun e => p e.1)).map Prod.fst ↔ k ∈ t.map Prod.fst ∧ p k = true := by
  simp only [List.mem_map, List.mem_filter]
  constructor
  · rintro ⟨e, ⟨h1, h2⟩, rfl⟩; exact ⟨⟨e, h1, rfl⟩, h2⟩
  · rintro ⟨⟨e, h1, rfl⟩, h2⟩; exact ⟨e, ⟨h1, h2⟩, rfl⟩

/-- Outside a written run every address reads as before. -/
theorem tget_twrite_out (t : Tbl Byte) (a : Nat) (bs : List Byte) (x : Nat) (h : x < a ∨ a + bs.length ≤ x) :
    tget 0 (twrite t a bs) x = tget 0 t x := by
  have hb : x ∉ (bytesAt a bs).map Prod.fst := by
    intro hc
    obtain ⟨e, he, rfl⟩ := List.mem_map.1 hc
    have := bytesAt_keys a bs e he
    omega
  unfold twrite
  rw [List.append_assoc, tget_append]
  split
  · rename_i hm
    exact tget_filter_keep 0 (fun y => decide (y < a)) t x ((keys_filter (fun y => decide (y < a)) t x).1 hm).2
  · rename_i hm
    rw [tget_append, if_neg hb]
    rcases h with h | h
    · have hn : x ∉ t.map Prod.fst := fun hx => hm ((keys_filter (fun y => decide (y < a)) t x).2 ⟨hx, by simpa using h⟩)
      rw [tget_absent 0 t x hn]
      exact tget_absent 0 _ x (fun hx => hn ((keys_filter (fun y => decide (a + bs.length ≤ y)) t x).1 hx).1)
    · exact tget_filter_keep 0 (fun y => decide (a + bs.length ≤ y)) t x (by simpa using h)

/-- A written run reads back. -/
theorem tget_twrite_in (t : Tbl Byte) (a : Nat) (bs : List Byte) (i : Nat) (h : i < bs.length) :
    tget 0 (twrite t a bs) (a + i) = bs[i] := by
  unfold twrite
  rw [List.append_assoc, tget_append, if_neg, tget_append]
  · split
    · exact tget_bytesAt a bs i h
    · rename_i hm
      rw [← tget_bytesAt a bs i h, tget_absent 0 _ _ hm]
      exact tget_filter_drop 0 (fun y => decide (a + bs.length ≤ y)) t (a + i) (by simp; omega)
  · intro hx
    have := ((keys_filter (fun y => decide (y < a)) t (a + i)).1 hx).2
    simp at this

/-! Canonical forms. -/

theorem tokFrom_mono [DecidableEq α] {d : α} {lo lo' : Nat} {t : Tbl α} (h : tokFrom d lo t = true) (hl : lo' ≤ lo) :
    tokFrom d lo' t = true := by
  cases t with
  | nil => rfl
  | cons e t =>
    obtain ⟨a, v⟩ := e
    simp only [tokFrom, Bool.and_eq_true, decide_eq_true_eq] at h ⊢
    exact ⟨⟨by omega, h.1.2⟩, h.2⟩

theorem tokFrom_filter [DecidableEq α] {d : α} {lo : Nat} {t : Tbl α} (p : Nat × α → Bool) (h : tokFrom d lo t = true) :
    tokFrom d lo (t.filter p) = true := by
  induction t generalizing lo with
  | nil => rfl
  | cons e t ih =>
    obtain ⟨a, v⟩ := e
    simp only [tokFrom, Bool.and_eq_true, decide_eq_true_eq] at h
    have := ih h.2
    simp only [List.filter]
    split
    · simp [tokFrom, h.1, this]
    · exact tokFrom_mono this (by omega)

theorem tokFrom_tput [DecidableEq α] {d : α} {lo : Nat} {t : Tbl α} {k : Nat} {v : α} (h : tokFrom d lo t = true) (hk : lo ≤ k)
    (hv : v ≠ d) : tokFrom d lo (tput t k v) = true := by
  induction t generalizing lo with
  | nil => simp [tput, tokFrom, hk, hv]
  | cons e t ih =>
    obtain ⟨a, w⟩ := e
    simp only [tokFrom, Bool.and_eq_true, decide_eq_true_eq] at h
    simp only [tput]
    split
    · simp only [tokFrom, Bool.and_eq_true, decide_eq_true_eq]; exact ⟨⟨hk, hv⟩, ⟨by omega, h.1.2⟩, h.2⟩
    · split
      · subst k; simp [tokFrom, h.1.1, hv, h.2]
      · simp only [tokFrom, Bool.and_eq_true, decide_eq_true_eq]; exact ⟨h.1, ih h.2 (by omega)⟩

/-- Setting a key keeps the canonical form. -/
theorem tok_tset [DecidableEq α] {d : α} {t : Tbl α} (k : Nat) (v : α) (h : tok d t = true) : tok d (tset d t k v) = true := by
  unfold tset
  split
  · exact tokFrom_filter _ h
  · rename_i hv; exact tokFrom_tput h (Nat.zero_le _) hv

/-- Clearing a range keeps the canonical form. -/
theorem tok_tclear [DecidableEq α] {d : α} {t : Tbl α} (lo hi : Nat) (h : tok d t = true) : tok d (tclear lo hi t) = true :=
  tokFrom_filter _ h

theorem tokFrom_append [DecidableEq α] {d : α} {lo m : Nat} {t u : Tbl α} (h : tokFrom d lo t = true) (hu : tokFrom d m u = true)
    (hk : ∀ e ∈ t, e.1 < m) (hl : lo ≤ m) : tokFrom d lo (t ++ u) = true := by
  induction t generalizing lo with
  | nil => exact tokFrom_mono hu hl
  | cons e t ih =>
    obtain ⟨a, v⟩ := e
    simp only [tokFrom, Bool.and_eq_true, decide_eq_true_eq, List.cons_append] at h ⊢
    have ha := hk (a, v) (List.mem_cons_self ..)
    exact ⟨h.1, ih h.2 (fun e he => hk e (List.mem_cons_of_mem _ he)) (by simp at ha; omega)⟩

theorem tokFrom_bytesAt (a : Nat) (bs : List Byte) : tokFrom (0 : Byte) a (bytesAt a bs) = true := by
  induction bs generalizing a with
  | nil => rfl
  | cons b bs ih =>
    simp only [bytesAt]
    split
    · exact tokFrom_mono (ih (a + 1)) (by omega)
    · rename_i hb
      simp only [tokFrom, Bool.and_eq_true, decide_eq_true_eq]
      exact ⟨⟨Nat.le_refl _, hb⟩, ih (a + 1)⟩

theorem tokFrom_ge [DecidableEq α] {d : α} {lo m : Nat} {t : Tbl α} (h : tokFrom d lo t = true) (hk : ∀ e ∈ t, m ≤ e.1) :
    tokFrom d m t = true := by
  cases t with
  | nil => rfl
  | cons e t =>
    obtain ⟨a, v⟩ := e
    simp only [tokFrom, Bool.and_eq_true, decide_eq_true_eq] at h ⊢
    exact ⟨⟨hk (a, v) (List.mem_cons_self ..), h.1.2⟩, h.2⟩

/-- Writing a run of bytes keeps the canonical form. -/
theorem tok_twrite {t : Tbl Byte} (a : Nat) (bs : List Byte) (h : tok 0 t = true) : tok 0 (twrite t a bs) = true := by
  unfold twrite tok
  have h1 := tokFrom_filter (fun e => decide (e.1 < a)) h
  have h3 := tokFrom_ge (m := a + bs.length) (tokFrom_filter (fun e => decide (a + bs.length ≤ e.1)) h)
    (fun e he => by simpa using (List.mem_filter.1 he).2)
  refine tokFrom_append (m := a + bs.length) (tokFrom_append (m := a) h1 (tokFrom_bytesAt a bs) ?_ (Nat.zero_le _)) h3 ?_ (Nat.zero_le _)
  · intro e he; simpa using (List.mem_filter.1 he).2
  · intro e he
    rcases List.mem_append.1 he with he | he
    · have : e.1 < a := by simpa using (List.mem_filter.1 he).2
      omega
    · exact (bytesAt_keys a bs e he).2.1

end Sys2Proof.Machine
end

