-- ==== Sys2Proof/Laws/Exec.lean ====
section
/-!
SUPPORT. What every command can do: the state it leaves is reached by primitive effects; what a step is.
-/

namespace Sys2Proof.Machine

/-- Whatever a command leaves is reached by primitive effects. -/
theorem exec_reach {i : Instr} {s t : State} (h : exec i s = .next t) : Reach s t := by
  cases i <;> (unfold exec at h; exact act_reach h)

/-- A command that waits runs on the state without it. -/
theorem step_cons (s : State) (c : Instr) (rest : List Instr) (h : s.pending = c :: rest) :
    step s = exec c { s with pending := rest } := by
  unfold step; rw [h]

/-- With no command waiting a step is an idle step. -/
theorem step_nil (s : State) (h : s.pending = []) : step s = .next (idleStep s) := by
  unfold step; rw [h]

/-- What a step can do: idle, or a command's run from the state without it. -/
theorem step_reach {s t : State} (h : step s = .next t) :
    Reach s t ∨ ∃ rest, Reach { s with pending := rest } t := by
  cases hp : s.pending with
  | nil =>
    rw [step_nil s hp] at h
    cases h
    exact .inl (runFrom_reach _ _)
  | cons c rest =>
    rw [step_cons s c rest hp] at h
    exact .inr ⟨rest, exec_reach h⟩

/-- What every primitive effect keeps, whatever the queue holds, every step keeps. -/
theorem step_keeps {P : State → Prop} (hp : ∀ s q, P s → P { s with pending := q }) (he : ∀ e u, P u → P (apply e u))
    {s t : State} (h : step s = .next t) (hs : P s) : P t := by
  rcases step_reach h with h | ⟨r, h⟩
  · exact h.keeps he hs
  · exact h.keeps he (hp s r hs)

/-- Every memory operation keeps memory's canonical form. -/
theorem apply_memory (e : Eff) (s : State) (h : Memory.wf s = true) : Memory.wf (apply e s) = true := by
  unfold Memory.wf at *
  cases e with
  | write a bs => exact tok_twrite a bs h
  | wipe lo hi => exact tok_tclear lo hi h
  | wor b f => cases b <;> exact h
  | ownerBlow n d =>
    simp only [apply]
    split <;> exact h
  | por => exact tokFrom_filter _ h
  | _ => exact h

end Sys2Proof.Machine
end

