-- ==== Sys2Proof/Laws/Fields.lean ====
section
/-!
SUPPORT. Register kinds of the fields that are chosen by an index.
-/

namespace Sys2Proof.Machine

theorem suspectFld_k (c : Nat) : (suspectFld c).k = .GRD_STAT := by unfold suspectFld; split <;> [rfl; split <;> rfl]

theorem sdFld_k (p : Nat) : (sdFld p).k = .RST_PIN_STAT := by unfold sdFld; split <;> rfl

theorem droopFld_k (d : Nat) : (droopFld d).k = .PWR_STAT := by unfold droopFld; split <;> rfl

theorem assertFld_k (c k : Nat) : (assertFld c k).k = .GRD_CHc := by unfold assertFld; split <;> rfl

theorem stFld_k (u : Nat) : (stFld u).k = .PART_ARR_STAT ∨ (stFld u).k = .PART_CORE_STAT ∨ (stFld u).k = .PART_STR_STAT := by
  unfold stFld
  split
  · exact .inl rfl
  · split
    · exact .inr (.inl rfl)
    · exact .inr (.inr rfl)

theorem stFld_bit {fp : Nat} (u : Nat) (h1 : fp.testBit (64 + RegKind.PART_ARR_STAT.ctorIdx) = true)
    (h2 : fp.testBit (64 + RegKind.PART_CORE_STAT.ctorIdx) = true) (h3 : fp.testBit (64 + RegKind.PART_STR_STAT.ctorIdx) = true) :
    fp.testBit (64 + (stFld u).k.ctorIdx) = true := by
  rcases stFld_k u with h | h | h
  · rw [h]; exact h1
  · rw [h]; exact h2
  · rw [h]; exact h3

theorem ceCount_k (r : Region) (a : Nat) :
    (ceCount r a).k = .MEM_CE_T0_c ∨ (ceCount r a).k = .MEM_CE_T1_c ∨ (ceCount r a).k = .MEM_CE_SR_p := by
  unfold ceCount
  split
  · exact .inl rfl
  · exact .inr (.inl rfl)
  · exact .inr (.inr rfl)

theorem ceCount_bit {fp : Nat} (r : Region) (a : Nat) (h1 : fp.testBit (64 + RegKind.MEM_CE_T0_c.ctorIdx) = true)
    (h2 : fp.testBit (64 + RegKind.MEM_CE_T1_c.ctorIdx) = true) (h3 : fp.testBit (64 + RegKind.MEM_CE_SR_p.ctorIdx) = true) :
    fp.testBit (64 + (ceCount r a).k.ctorIdx) = true := by
  rcases ceCount_k r a with h | h | h
  · rw [h]; exact h1
  · rw [h]; exact h2
  · rw [h]; exact h3

theorem ceHot_bit {fp : Nat} (r : Region) (a : Nat) (h1 : fp.testBit (64 + RegKind.MEM_CE_T0_c.ctorIdx) = true)
    (h2 : fp.testBit (64 + RegKind.MEM_CE_T1_c.ctorIdx) = true) (h3 : fp.testBit (64 + RegKind.MEM_CE_SR_p.ctorIdx) = true) :
    fp.testBit (64 + (ceHot r a).k.ctorIdx) = true := by
  have e : (ceHot r a).k = (ceCount r a).k := rfl
  exact (congrArg (fun k : RegKind => fp.testBit (64 + k.ctorIdx)) e).trans (ceCount_bit r a h1 h2 h3)

end Sys2Proof.Machine
end

