-- ==== Sys2Proof/Laws/Regs.lean ====
section
/-!
SUPPORT. Laws of the register file: what a field reads after a field is written.
-/

namespace Sys2Proof.Machine

theorem ctorIdx_lt (k : RegKind) : k.ctorIdx < 256 := by cases k <;> decide

theorem keyKind_regKey (k : RegKind) (ix : List Nat) : keyKind (regKey k ix) = k := by
  have h := ctorIdx_lt k
  unfold keyKind regKey
  rw [show (k.ctorIdx + 256 * dimFlat (regRow k).dims ix) % 256 = k.ctorIdx by omega]
  exact RegKind.ofNat_ctorIdx k

/-- Registers of different kinds have different keys. -/
theorem regKey_ne {k j : RegKind} (ix jx : List Nat) (h : k ≠ j) : regKey k ix ≠ regKey j jx := fun e =>
  h (by rw [← keyKind_regKey k ix, e, keyKind_regKey])

/-- A write of a register of another kind leaves a register as it was. -/
theorem regWord_reg_kind (s : State) (f : Fld) (v : Nat) (k : RegKind) (ix : List Nat) (h : k ≠ f.k) :
    regWord (apply (.reg f v) s) k ix = regWord s k ix := by
  unfold regWord apply
  exact tget_tset_key _ _ _ _ _ _ (regKey_ne ix f.ix h)

/-- A write of another register of an array of registers leaves a register as it was. -/
theorem regWord_reg_key (s : State) (f : Fld) (v : Nat) (k : RegKind) (ix : List Nat) (h : regKey k ix ≠ regKey f.k f.ix) :
    regWord (apply (.reg f v) s) k ix = regWord s k ix := by
  unfold regWord apply
  exact tget_tset_key _ _ _ _ _ _ h

/-- The word that a field write leaves. -/
theorem regWord_reg_self (s : State) (f : Fld) (v : Nat) :
    regWord (apply (.reg f v) s) f.k f.ix = BitVec.ofNat 32 (regNew s.nv.fuses.variant (regWord s f.k f.ix).toNat f v) :=
  tget_tset_self _ _ _ _

/-- A field write in a register of another kind leaves a field as it was. -/
theorem rd_reg_kind (s : State) (f g : Fld) (v : Nat) (h : g.k ≠ f.k) : (apply (.reg f v) s).rd g = s.rd g := by
  unfold State.rd; rw [regWord_reg_kind s f v g.k g.ix h]

theorem rd_reg_key (s : State) (f g : Fld) (v : Nat) (h : regKey g.k g.ix ≠ regKey f.k f.ix) :
    (apply (.reg f v) s).rd g = s.rd g := by
  unfold State.rd; rw [regWord_reg_key s f v g.k g.ix h]

/-- Bits of a register that a fused ceiling clamps (R3, R267, R412). -/
def clampMask : RegKind → Nat
  | .PWR_CLIP_IN => 0xFFFFFFFF
  | .PWR_CLIP => 0xFFFF
  | .PWR_STAT => 0x7E000
  | .PWR_OP => 0xE0000000
  | _ => 0

/-- A field that lies in a register's implemented bits and that no fused ceiling clamps. -/
def Fld.plain (f : Fld) : Bool :=
  decide (f.lo + f.w ≤ 32) && decide (((2 ^ f.w - 1) * 2 ^ f.lo) &&& regMask f.k = (2 ^ f.w - 1) * 2 ^ f.lo)
    && decide (((2 ^ f.w - 1) * 2 ^ f.lo) &&& clampMask f.k = 0)

theorem testBit_fset (x lo w v i : Nat) :
    (fset x lo w v).testBit i = if lo ≤ i ∧ i < lo + w then v.testBit (i - lo) else x.testBit i := by
  have e : fset x lo w v = 2 ^ lo * (2 ^ w * (x / 2 ^ (lo + w)) + v % 2 ^ w) + x % 2 ^ lo := by
    unfold fset; rw [Nat.pow_add]; ring
  rw [e, Nat.testBit_two_pow_mul_add _ (Nat.mod_lt _ (Nat.two_pow_pos _)),
    Nat.testBit_two_pow_mul_add _ (Nat.mod_lt _ (Nat.two_pow_pos _))]
  simp only [Nat.testBit_mod_two_pow, Nat.testBit_div_two_pow]
  by_cases h1 : i < lo
  · have : ¬ (lo ≤ i ∧ i < lo + w) := by omega
    simp [h1, this]
  · by_cases h2 : i - lo < w
    · have : lo ≤ i ∧ i < lo + w := by omega
      simp [h1, h2, this]
    · have : ¬ (lo ≤ i ∧ i < lo + w) := by omega
      have e : i - lo - w + (lo + w) = i := by omega
      simp [h1, h2, this, e]

theorem testBit_fget (x lo w i : Nat) : (fget x lo w).testBit i = (decide (i < w) && x.testBit (lo + i)) := by
  unfold fget; rw [Nat.testBit_mod_two_pow, Nat.testBit_div_two_pow, Nat.add_comm]

theorem mask_testBit {lo w m i : Nat} (h : ((2 ^ w - 1) * 2 ^ lo) &&& m = (2 ^ w - 1) * 2 ^ lo) (hi : i < w) :
    m.testBit (lo + i) = true := by
  have := congrArg (fun x => x.testBit (lo + i)) h
  simp only [Nat.testBit_and] at this
  have hb : ((2 ^ w - 1) * 2 ^ lo).testBit (lo + i) = true := by
    rw [Nat.mul_comm, Nat.testBit_two_pow_mul]; simp [Nat.testBit_two_pow_sub_one, hi]
  rw [hb] at this
  simpa using this

theorem testBit_clampWord (n : Nat) (k : RegKind) (x i : Nat) (h : (clampMask k).testBit i = false) :
    (clampWord n k x).testBit i = x.testBit i := by
  have out (lo w : Nat) (hm : (clampMask k) &&& ((2 ^ w - 1) * 2 ^ lo) = (2 ^ w - 1) * 2 ^ lo) : ¬ (lo ≤ i ∧ i < lo + w) := by
    intro hi
    have := mask_testBit (lo := lo) (w := w) (m := clampMask k) (i := i - lo) (by rw [Nat.and_comm]; exact hm) (by omega)
    rw [show lo + (i - lo) = i by omega, h] at this
    exact absurd this (by decide)
  cases k
  case PWR_CLIP_IN =>
    simp only [clampWord, testBit_fset, if_neg (out 16 16 (by decide)), if_neg (out 0 16 (by decide))]
  case PWR_CLIP => simp only [clampWord, testBit_fset, if_neg (out 0 16 (by decide))]
  case PWR_STAT =>
    simp only [clampWord, testBit_fset, if_neg (out 16 3 (by decide)), if_neg (out 13 3 (by decide))]
  case PWR_OP => simp only [clampWord, testBit_fset, if_neg (out 29 3 (by decide))]
  all_goals rfl

theorem clampMask_out {f : Fld} {i : Nat} (h : ((2 ^ f.w - 1) * 2 ^ f.lo) &&& clampMask f.k = 0) (hi : i < f.w) :
    (clampMask f.k).testBit (f.lo + i) = false := by
  have := congrArg (fun x => x.testBit (f.lo + i)) h
  have hb : ((2 ^ f.w - 1) * 2 ^ f.lo).testBit (f.lo + i) = true := by
    rw [Nat.mul_comm, Nat.testBit_two_pow_mul]; simp [Nat.testBit_two_pow_sub_one, hi]
  simpa only [Nat.testBit_and, hb, Bool.true_and, Nat.zero_testBit] using this

theorem regNew_lt (n old : Nat) (f : Fld) (v : Nat) : regNew n old f v ≤ regMask f.k := Nat.and_le_right

theorem regMask_lt (k : RegKind) : regMask k < 2 ^ 32 := by cases k <;> decide

theorem toNat_regNew (n old : Nat) (f : Fld) (v : Nat) : (BitVec.ofNat 32 (regNew n old f v)).toNat = regNew n old f v := by
  rw [BitVec.toNat_ofNat]
  exact Nat.mod_eq_of_lt (lt_of_le_of_lt (regNew_lt n old f v) (regMask_lt f.k))

/-- A field reads what was written to it. -/
theorem rd_reg_self (s : State) (f : Fld) (v : Nat) (h : f.plain = true) : (apply (.reg f v) s).rd f = v % 2 ^ f.w := by
  unfold State.rd
  rw [regWord_reg_self, toNat_regNew, regNew]
  simp only [Fld.plain, Bool.and_eq_true, decide_eq_true_eq] at h
  apply Nat.eq_of_testBit_eq
  intro i
  rw [testBit_fget, Nat.testBit_and, Nat.testBit_mod_two_pow]
  by_cases hi : i < f.w
  · rw [testBit_clampWord _ _ _ _ (clampMask_out h.2 hi), testBit_fset]
    have : f.lo ≤ f.lo + i ∧ f.lo + i < f.lo + f.w := by omega
    simp [hi, mask_testBit h.1.2 hi]
  · simp [hi]

/-- A field of the same register that shares no bit with the field written reads as before. -/
theorem rd_reg_other (s : State) (f g : Fld) (v : Nat) (hg : g.plain = true) (hk : g.k = f.k) (hx : g.ix = f.ix)
    (hd : g.lo + g.w ≤ f.lo ∨ f.lo + f.w ≤ g.lo) : (apply (.reg f v) s).rd g = s.rd g := by
  unfold State.rd
  rw [hk, hx, regWord_reg_self, toNat_regNew, regNew]
  simp only [Fld.plain, Bool.and_eq_true, decide_eq_true_eq] at hg
  apply Nat.eq_of_testBit_eq
  intro i
  rw [testBit_fget, testBit_fget, Nat.testBit_and]
  by_cases hi : i < g.w
  · rw [← hk, testBit_clampWord _ _ _ _ (clampMask_out hg.2 hi), testBit_fset]
    have : ¬ (f.lo ≤ g.lo + i ∧ g.lo + i < f.lo + f.w) := by omega
    simp [this, mask_testBit hg.1.2 hi]
  · simp [hi]

/-! Fields that a fused ceiling clamps (R3). -/

theorem fget_fset_self (x lo w v : Nat) : fget (fset x lo w v) lo w = v % 2 ^ w := by
  apply Nat.eq_of_testBit_eq
  intro i
  rw [testBit_fget, testBit_fset, Nat.testBit_mod_two_pow]
  by_cases hi : i < w
  · simp [hi]
  · simp [hi]

theorem fget_fset_other (x lo w v lo' w' : Nat) (h : lo' + w' ≤ lo ∨ lo + w ≤ lo') : fget (fset x lo w v) lo' w' = fget x lo' w' := by
  apply Nat.eq_of_testBit_eq
  intro i
  rw [testBit_fget, testBit_fget, testBit_fset]
  by_cases hi : i < w'
  · rw [if_neg (by omega)]
  · simp [hi]

theorem fget_and {x lo w m : Nat} (h : ((2 ^ w - 1) * 2 ^ lo) &&& m = (2 ^ w - 1) * 2 ^ lo) : fget (x &&& m) lo w = fget x lo w := by
  apply Nat.eq_of_testBit_eq
  intro i
  rw [testBit_fget, testBit_fget, Nat.testBit_and]
  by_cases hi : i < w
  · simp [mask_testBit h hi]
  · simp [hi]

theorem fget_lt (x lo w : Nat) : fget x lo w < 2 ^ w := Nat.mod_lt _ (Nat.two_pow_pos w)

theorem topPoint_lt (n : Nat) : Config.topPoint n < 8 := by unfold Config.topPoint; split_ifs <;> decide

theorem contCeiling_lt (n : Nat) : Config.contCeiling n < 65536 := by unfold Config.contCeiling; split_ifs <;> decide

/-- A register's field after a write, before the write drops the RSV bits. -/
theorem rd_reg_word (s : State) (f g : Fld) (v : Nat) (hk : g.k = f.k) (hx : g.ix = f.ix)
    (hm : ((2 ^ g.w - 1) * 2 ^ g.lo) &&& regMask g.k = (2 ^ g.w - 1) * 2 ^ g.lo) : (apply (.reg f v) s).rd g =
      fget (clampWord s.nv.fuses.variant f.k (fset (regWord s f.k f.ix).toNat f.lo f.w v)) g.lo g.w := by
  unfold State.rd
  rw [hk, hx, regWord_reg_self, toNat_regNew, regNew]
  exact fget_and (hk ▸ hm)

theorem rd_op_now (s : State) (v : Nat) :
    (apply (.reg R.PWR_STAT.OP_NOW v) s).rd R.PWR_STAT.OP_NOW = max (v % 8) (Config.topPoint s.nv.fuses.variant) := by
  have h := topPoint_lt s.nv.fuses.variant
  rw [rd_reg_word _ _ _ _ rfl rfl (by decide)]
  show fget (fset (fset _ 16 3 _) 13 3 _) 16 3 = _
  rw [fget_fset_other _ _ _ _ _ _ (by decide), fget_fset_self, fget_fset_self]
  change max (v % 8) _ % 8 = _
  omega

theorem rd_op_target (s : State) (v : Nat) :
    (apply (.reg R.PWR_STAT.OP_TARGET v) s).rd R.PWR_STAT.OP_TARGET = max (v % 8) (Config.topPoint s.nv.fuses.variant) := by
  have h := topPoint_lt s.nv.fuses.variant
  rw [rd_reg_word _ _ _ _ rfl rfl (by decide)]
  show fget (fset (fset (fset _ 13 3 _) 16 3 _) 13 3 _) 13 3 = _
  rw [fget_fset_self, fget_fset_self]
  change max (v % 8) _ % 8 = _
  omega

/-- The write of another field of the register leaves the point now as clamped. -/
theorem rd_op_now_other (s : State) (f : Fld) (v : Nat) (hk : f.k = .PWR_STAT) (hx : f.ix = []) (hd : f.lo + f.w ≤ 16 ∨ 19 ≤ f.lo) :
    (apply (.reg f v) s).rd R.PWR_STAT.OP_NOW = max (s.rd R.PWR_STAT.OP_NOW) (Config.topPoint s.nv.fuses.variant) := by
  have h := topPoint_lt s.nv.fuses.variant
  rw [rd_reg_word _ _ _ _ hk.symm hx.symm (by decide), hk, hx]
  show fget (fset (fset _ 16 3 _) 13 3 _) 16 3 = _
  rw [fget_fset_other _ _ _ _ _ _ (by decide), fget_fset_self, fget_fset_other _ _ _ _ _ _ (by omega)]
  have := fget_lt (regWord s .PWR_STAT []).toNat 16 3
  exact Nat.mod_eq_of_lt (by omega)

theorem rd_mgmt_w (s : State) (v : Nat) :
    (apply (.reg R.PWR_CLIP_IN.MGMT_W v) s).rd R.PWR_CLIP_IN.MGMT_W = min (v % 65536) (Config.contCeiling s.nv.fuses.variant) := by
  have h := contCeiling_lt s.nv.fuses.variant
  rw [rd_reg_word _ _ _ _ rfl rfl (by decide)]
  show fget (fset (fset (fset _ 0 16 _) 16 16 _) 0 16 _) 0 16 = _
  rw [fget_fset_self, fget_fset_self]
  exact Nat.mod_eq_of_lt (by omega)

theorem rd_rack_w (s : State) (v : Nat) :
    (apply (.reg R.PWR_CLIP_IN.RACK_W v) s).rd R.PWR_CLIP_IN.RACK_W = min (v % 65536) (Config.contCeiling s.nv.fuses.variant) := by
  have h := contCeiling_lt s.nv.fuses.variant
  rw [rd_reg_word _ _ _ _ rfl rfl (by decide)]
  show fget (fset (fset (fset _ 16 16 _) 16 16 _) 0 16 _) 16 16 = _
  rw [fget_fset_other _ _ _ _ _ _ (by decide), fget_fset_self, fget_fset_self]
  exact Nat.mod_eq_of_lt (by omega)

theorem rd_eff_w (s : State) (v : Nat) :
    (apply (.reg R.PWR_CLIP.EFF_W v) s).rd R.PWR_CLIP.EFF_W = min (v % 65536) (Config.contCeiling s.nv.fuses.variant) := by
  have h := contCeiling_lt s.nv.fuses.variant
  rw [rd_reg_word _ _ _ _ rfl rfl (by decide)]
  show fget (fset (fset _ 0 16 _) 0 16 _) 0 16 = _
  rw [fget_fset_self, fget_fset_self]
  exact Nat.mod_eq_of_lt (by omega)

/-- A field value fits its width. -/
theorem rd_lt (s : State) (f : Fld) : s.rd f < 2 ^ f.w := Nat.mod_lt _ (Nat.two_pow_pos _)

/-! Reset. -/

/-- A register that the test names reads its reset value. -/
theorem regWord_regsReset_in (s : State) (d : RegKind → List Nat → Bool) (k : RegKind) (ix : List Nat)
    (h : d k (keyIx (regKey k ix)) = true) : regWord (apply (.regsReset d) s) k ix = BitVec.ofNat 32 (resetWord k ix) :=
  tget_filter_drop _ (fun x => !d (keyKind x) (keyIx x)) s.regs (regKey k ix) (by simp [keyKind_regKey, h])

/-- A register that it does not name keeps its value. -/
theorem regWord_regsReset_out (s : State) (d : RegKind → List Nat → Bool) (k : RegKind) (ix : List Nat)
    (h : d k (keyIx (regKey k ix)) = false) : regWord (apply (.regsReset d) s) k ix = regWord s k ix :=
  tget_filter_keep _ (fun x => !d (keyKind x) (keyIx x)) s.regs (regKey k ix) (by simp [keyKind_regKey, h])

end Sys2Proof.Machine
end

