-- ==== Sys2Proof/Laws/Foot.lean ====
section
/-!
SUPPORT. Footprints: which primitive effects an action may have, and what a run with a footprint leaves unchanged. One lemma per operation
(Foot1 to Foot5) says everything that the operation can change.
-/

namespace Sys2Proof.Machine

/-- What a primitive effect changes. -/
inductive Tag where
  | kind (k : RegKind)
  | regsReset | write | wipe | mem | vlt | arr | core | str | que | unitsReset | pass | setTime | seen | draw | hs | ctl | host | fab | pw
  | watch | rcd | wor | upd | qs | sec | nor | super | settings | latch | ownerBlow | ownerRevoke | svnBlow | out | por
  deriving DecidableEq, Repr

/-- Number of a tag in a footprint. -/
def Tag.bit : Tag → Nat
  | .kind k => 64 + k.ctorIdx
  | .regsReset => 0 | .write => 1 | .wipe => 2 | .mem => 3 | .vlt => 4 | .arr => 5 | .core => 6 | .str => 7 | .que => 8 | .unitsReset => 9
  | .pass => 10 | .setTime => 11 | .seen => 12 | .draw => 13 | .hs => 14 | .ctl => 15 | .host => 16 | .fab => 17 | .pw => 18
  | .watch => 19 | .rcd => 20 | .wor => 21 | .upd => 22 | .qs => 23 | .sec => 24 | .nor => 25 | .super => 26 | .settings => 27
  | .latch => 28 | .ownerBlow => 29 | .ownerRevoke => 30 | .svnBlow => 31 | .out => 32 | .por => 33

/-- Tag of a primitive effect. -/
def Eff.tag : Eff → Tag
  | .reg f _ => .kind f.k
  | .regsReset _ => .regsReset | .write _ _ => .write | .wipe _ _ => .wipe | .mem _ => .mem | .vlt _ => .vlt | .arr _ _ => .arr
  | .core _ _ => .core | .str _ _ => .str | .que _ _ => .que | .unitsReset _ => .unitsReset | .pass _ => .pass | .setTime _ => .setTime
  | .seen _ _ => .seen | .draw => .draw | .hs _ => .hs | .ctl _ => .ctl | .host _ => .host | .fab _ => .fab | .pw _ => .pw
  | .watch _ => .watch | .rcd _ => .rcd | .wor _ _ => .wor | .upd _ => .upd | .qs _ => .qs | .sec _ => .sec | .nor _ => .nor
  | .super _ => .super | .settings _ => .settings | .latch _ => .latch | .ownerBlow _ _ => .ownerBlow | .ownerRevoke _ => .ownerRevoke
  | .svnBlow _ => .svnBlow | .out _ => .out | .por => .por

/-- A footprint as a number with one bit per tag. -/
def foot : List Tag → Nat
  | [] => 0
  | t :: l => foot l ||| 2 ^ t.bit

/-- Effects within a footprint lead from `s` to `t`. -/
inductive Via (n : Nat) (s : State) : State → Prop where
  | refl : Via n s s
  | step {t : State} (h : Via n s t) (e : Eff) (he : n.testBit e.tag.bit = true) : Via n s (apply e t)

theorem Via.trans {n : Nat} {s t u : State} (h : Via n s t) (h' : Via n t u) : Via n s u := by
  induction h' with
  | refl => exact h
  | step _ e he ih => exact .step ih e he

theorem Via.mono {n m : Nat} {s t : State} (h : Via n s t) (hm : n &&& m = n) : Via m s t := by
  induction h with
  | refl => exact .refl
  | step _ e he ih =>
    refine .step ih e ?_
    rw [← hm, Nat.testBit_and] at he
    exact (Bool.and_eq_true _ _ ▸ he).2

theorem sub_trans {a b c : Nat} (h : a &&& b = a) (h' : b &&& c = b) : a &&& c = a := by
  rw [← h, Nat.land_assoc, h']

theorem sub_bit {a b i : Nat} (h : a.testBit i = true) (h' : a &&& b = a) : b.testBit i = true := by
  rw [← h', Nat.testBit_and] at h
  exact (Bool.and_eq_true _ _ ▸ h).2

/-- Every register kind. -/
def allKinds : Nat := (2 ^ 141 - 1) * 2 ^ 64

theorem testBit_allKinds (k : RegKind) : allKinds.testBit (64 + k.ctorIdx) = true := by cases k <;> rfl

theorem sub_kind {n : Nat} (k : RegKind) (h : allKinds &&& n = allKinds) : n.testBit (64 + k.ctorIdx) = true := by
  have := testBit_allKinds k
  rw [← h, Nat.testBit_and] at this
  exact (Bool.and_eq_true _ _ ▸ this).2

/-- Every effect of an action lies in the footprint. -/
structure Within {o : State} {α : Type} (n : Nat) (m : M o α) : Prop where
  via : ∀ x, Via n x.1 (m x).2.1

section

variable {o : State} {α β : Type} {n : Nat}

theorem Within.mono {n m : Nat} {a : M o α} (h : Within n a) (hm : n &&& m = n) : Within m a := ⟨fun x => (h.via x).mono hm⟩

theorem within_pure (a : α) : Within n (pure a : M o α) := ⟨fun _ => .refl⟩

theorem within_bind {m : M o α} {f : α → M o β} (hm : Within n m) (hf : ∀ a, Within n (f a)) : Within n (m >>= f) :=
  ⟨fun x => (hm.via x).trans ((hf _).via _)⟩

theorem within_map {g : α → β} {m : M o α} (hm : Within n m) : Within n (g <$> m) := ⟨fun x => hm.via x⟩

theorem within_st : Within n (st : M o State) := ⟨fun _ => .refl⟩

theorem within_rd (f : Fld) : Within n (rd f : M o Nat) := ⟨fun _ => .refl⟩

theorem within_now : Within n (now : M o Nat) := ⟨fun _ => .refl⟩

theorem within_eff (e : Eff) (h : n.testBit e.tag.bit = true) : Within n (eff e : M o Unit) := ⟨fun _ => .step .refl e h⟩

theorem within_wr (f : Fld) (v : Nat) (h : n.testBit (64 + f.k.ctorIdx) = true) : Within n (wr f v : M o Unit) := within_eff (.reg f v) h

theorem within_each {l : List α} {f : α → M o Unit} (h : ∀ a, Within n (f a)) : Within n (each l f) := by
  induction l with
  | nil => exact within_pure ()
  | cons a l ih => exact within_bind (h a) fun _ => ih

theorem within_loop {k : Nat} {f : M o Bool} (h : Within n f) : Within n (loop k f) := by
  induction k with
  | zero => exact within_pure ()
  | succ k ih =>
    refine within_bind h fun b => ?_
    cases b
    · exact within_pure ()
    · exact ih

theorem within_when {c : Bool} {m : M o Unit} (h : Within n m) : Within n (when_ c m) := by
  cases c
  · exact within_pure ()
  · exact h

/-- A write of a field of kind `k`. -/
theorem wr_in (k : RegKind) {f : Fld} {v : Nat} (hk : f.k = k) (h : n.testBit (64 + k.ctorIdx) = true) : Within n (wr f v : M o _) :=
  within_wr f v (hk ▸ h)

/-- An effect of tag `t`. -/
theorem eff_in (t : Tag) {e : Eff} (ht : e.tag = t) (h : n.testBit t.bit = true) : Within n (eff e : M o _) := within_eff e (ht ▸ h)

theorem wrB_in (k : RegKind) {f : Fld} {b : Bool} (hk : f.k = k) (h : n.testBit (64 + k.ctorIdx) = true) : Within n (wrB f b : M o _) :=
  wr_in k hk h

theorem setF_in (k : RegKind) {f : Fld} (hk : f.k = k) (h : n.testBit (64 + k.ctorIdx) = true) : Within n (setF f : M o _) := wr_in k hk h

theorem incWrap_in (k : RegKind) {f : Fld} (hk : f.k = k) (h : n.testBit (64 + k.ctorIdx) = true) : Within n (incWrap f : M o _) :=
  within_bind (within_rd f) fun _ => wr_in k hk h

theorem incSat_in (k : RegKind) {f : Fld} (hk : f.k = k) (h : n.testBit (64 + k.ctorIdx) = true) : Within n (incSat f : M o _) := by
  refine within_bind (within_rd f) fun _ => ?_
  split
  · exact wr_in k hk h
  · exact within_pure ()

theorem mode_in : Within n (mode : M o Mode) := ⟨fun _ => .refl⟩

theorem within_skip : Within n (skip : M o Unit) := within_pure ()

end

end Sys2Proof.Machine
end

