-- ==== Sys2Proof/Laws/FootSets.lean ====
section
/-!
SUPPORT. Named footprints of the shared operations.
-/

namespace Sys2Proof.Machine

def FP.send : Nat := 0x100000000

theorem FP.send_eq : FP.send = foot [.out] := by decide +kernel

def FP.notice : Nat := 0x100200000

theorem FP.notice_eq : FP.notice = foot [.out, .wor] := by decide +kernel

def FP.recorderFull : Nat := 0x800000000000000000000000000000100200000

theorem FP.recorderFull_eq : FP.recorderFull = foot [.kind .EVT_STATUS, .out, .wor] := by decide +kernel

def FP.closePage : Nat := 0x800000000000000000000000000000100300000

theorem FP.closePage_eq : FP.closePage = foot [.kind .EVT_STATUS, .out, .rcd, .wor] := by decide +kernel

def FP.evRaw : Nat := 0x1b000000000800000000000000000000000000000100300000

theorem FP.evRaw_eq : FP.evRaw =
  foot [.kind .EVT_FIRST_SEQ, .kind .EVT_FULL_DROP, .kind .EVT_LAST_SEQ, .kind .EVT_STAGE_DROP, .kind .EVT_STATUS, .out, .rcd, .wor] := by decide +kernel

def FP.regResult : Nat := 0x0

theorem FP.regResult_eq : FP.regResult = foot [] := by decide +kernel

def FP.showRecord : Nat := 0x10000000000000000000000000000000000

theorem FP.showRecord_eq : FP.showRecord = foot [.kind .HIF_BOOT_STATUS] := by decide +kernel

def FP.clearFails : Nat := 0x10000000000000000000000000002000000

theorem FP.clearFails_eq : FP.clearFails = foot [.kind .HIF_BOOT_STATUS, .nor] := by decide +kernel

def FP.takeTokens : Nat := 0x100000

theorem FP.takeTokens_eq : FP.takeTokens = foot [.rcd] := by decide +kernel

def FP.rungTaken : Nat := 0x1b0000000008c0000000000000000000000000000100300000

theorem FP.rungTaken_eq : FP.rungTaken =
  foot [.kind .EVT_FIRST_SEQ, .kind .EVT_FULL_DROP, .kind .EVT_LAST_SEQ, .kind .EVT_STAGE_DROP, .kind .EVT_STATUS, .kind .RST_ESC_LAST,
    .kind .RST_ESC_STAT, .out, .rcd, .wor] := by decide +kernel

def FP.saveSuper : Nat := 0x4000000

theorem FP.saveSuper_eq : FP.saveSuper = foot [.super] := by decide +kernel

def FP.mark : Nat := 0x1000

theorem FP.mark_eq : FP.mark = foot [.seen] := by decide +kernel

def FP.commitJournal : Nat := 0x4811010

theorem FP.commitJournal_eq : FP.commitJournal = foot [.host, .qs, .seen, .super, .vlt] := by decide +kernel

def FP.repairRows : Nat := 0x1b000000000800000000000000000000000000000102300000

theorem FP.repairRows_eq : FP.repairRows =
  foot [.kind .EVT_FIRST_SEQ, .kind .EVT_FULL_DROP, .kind .EVT_LAST_SEQ, .kind .EVT_STAGE_DROP, .kind .EVT_STATUS, .nor, .out, .rcd, .wor] := by decide +kernel

def FP.sendMsix : Nat := 0x1000000000000000000000000000000000000000000100000000

theorem FP.sendMsix_eq : FP.sendMsix = foot [.kind .HIF_PBA, .out] := by decide +kernel

def FP.refreshFault : Nat := 0x1000000000000000001000000000000000000000000100200000

theorem FP.refreshFault_eq : FP.refreshFault = foot [.kind .HIF_PBA, .kind .RST_PIN_STAT, .out, .wor] := by decide +kernel

def FP.moduleStage3 : Nat := 0x101b00000000084009b400000000000000000000000107ff9a1d

theorem FP.moduleStage3_eq : FP.moduleStage3 =
  foot [.kind .EVT_FIRST_SEQ, .kind .EVT_FULL_DROP, .kind .EVT_LAST_SEQ, .kind .EVT_STAGE_DROP, .kind .EVT_STATUS, .kind .HIF_BOOT_STATUS,
    .kind .HIF_PBA, .kind .RST_CAUSE, .kind .RST_ESC_STAT, .kind .RST_FAULT, .kind .RST_PIN_STAT, .kind .RST_REFCLK, .kind .RST_STRAP,
    .ctl, .fab, .host, .mem, .nor, .out, .pw, .qs, .rcd, .regsReset, .sec, .seen, .setTime, .super, .unitsReset, .upd, .vlt, .watch,
    .wipe, .wor] := by decide +kernel

def FP.driveReady : Nat := 0x1000000000000000000000000000000000

theorem FP.driveReady_eq : FP.driveReady = foot [.kind .RST_PIN_STAT] := by decide +kernel

def FP.setPass : Nat := 0x8

theorem FP.setPass_eq : FP.setPass = foot [.mem] := by decide +kernel

def FP.addRung : Nat := 0x9008

theorem FP.addRung_eq : FP.addRung = foot [.ctl, .mem, .seen] := by decide +kernel

def FP.upCtx : Nat := 0x10000

theorem FP.upCtx_eq : FP.upCtx = foot [.host] := by decide +kernel

def FP.upGrant : Nat := 0x40000

theorem FP.upGrant_eq : FP.upGrant = foot [.pw] := by decide +kernel

def FP.slopeStop : Nat := 0x40020

theorem FP.slopeStop_eq : FP.slopeStop = foot [.arr, .pw] := by decide +kernel

def FP.stopUnit : Nat := 0x10c00000000000040020

theorem FP.stopUnit_eq : FP.stopUnit =
  foot [.kind .PART_ARR_STAT, .kind .PART_CORE_STAT, .kind .PART_STR_STAT, .arr, .pw] := by decide +kernel

def FP.istatWord : Nat := 0xa0000000000000000000

theorem FP.istatWord_eq : FP.istatWord = foot [.kind .PART_CORE_IPENDm, .kind .PART_CORE_ISTATm] := by decide +kernel

def FP.stopPhase : Nat := 0xb0f00000000000050020

theorem FP.stopPhase_eq : FP.stopPhase =
  foot [.kind .PART_ARR_STAT, .kind .PART_CORE_IPENDm, .kind .PART_CORE_ISTATm, .kind .PART_CORE_STAT, .kind .PART_Q_CREDIT, .kind
    .PART_Q_OCC, .kind .PART_STR_STAT, .arr, .host, .pw] := by decide +kernel

def FP.freeSlot : Nat := 0x8000000000000000000010000

theorem FP.freeSlot_eq : FP.freeSlot = foot [.kind .HIF_CTX_STATc, .host] := by decide +kernel

def FP.endOp : Nat := 0x80000b0f00000000000050030

theorem FP.endOp_eq : FP.endOp =
  foot [.kind .HIF_CTX_STATc, .kind .PART_ARR_STAT, .kind .PART_CORE_IPENDm, .kind .PART_CORE_ISTATm, .kind .PART_CORE_STAT, .kind
    .PART_Q_CREDIT, .kind .PART_Q_OCC, .kind .PART_STR_STAT, .arr, .host, .pw, .vlt] := by decide +kernel

def FP.setAvail : Nat := 0x100000000000000000000000000000000000

theorem FP.setAvail_eq : FP.setAvail = foot [.kind .RST_PART_AVAIL] := by decide +kernel

def FP.refreshInUse : Nat := 0x200000000000000000000000000000

theorem FP.refreshInUse_eq : FP.refreshInUse = foot [.kind .FZ_STREAMp] := by decide +kernel

def FP.refreshThrottle : Nat := 0x400000000000000000000000000000

theorem FP.refreshThrottle_eq : FP.refreshThrottle = foot [.kind .PWR_STAT] := by decide +kernel

def FP.partitionStage3 : Nat := 0x1b0000000008001000006000080000000000000001003e8205

theorem FP.partitionStage3_eq : FP.partitionStage3 =
  foot [.kind .EVT_FIRST_SEQ, .kind .EVT_FULL_DROP, .kind .EVT_LAST_SEQ, .kind .EVT_STAGE_DROP, .kind .EVT_STATUS, .kind .FZ_STREAMp,
    .kind .HIF_CTX_STATc, .kind .PWR_STAT, .kind .RST_PART_AVAIL, .ctl, .fab, .out, .pw, .rcd, .regsReset, .unitsReset, .watch, .wipe,
    .wor] := by decide +kernel

def FP.askPartition : Nat := 0x1b0000000008001000006000080000b0f000000001003f923d

theorem FP.askPartition_eq : FP.askPartition =
  foot [.kind .EVT_FIRST_SEQ, .kind .EVT_FULL_DROP, .kind .EVT_LAST_SEQ, .kind .EVT_STAGE_DROP, .kind .EVT_STATUS, .kind .FZ_STREAMp,
    .kind .HIF_CTX_STATc, .kind .PART_ARR_STAT, .kind .PART_CORE_IPENDm, .kind .PART_CORE_ISTATm, .kind .PART_CORE_STAT, .kind
    .PART_Q_CREDIT, .kind .PART_Q_OCC, .kind .PART_STR_STAT, .kind .PWR_STAT, .kind .RST_PART_AVAIL, .arr, .ctl, .fab, .host, .mem, .out,
    .pw, .rcd, .regsReset, .seen, .unitsReset, .vlt, .watch, .wipe, .wor] := by decide +kernel

def FP.contextRung : Nat := 0x1b0000000008000000000000000000b0f00000000100350020

theorem FP.contextRung_eq : FP.contextRung =
  foot [.kind .EVT_FIRST_SEQ, .kind .EVT_FULL_DROP, .kind .EVT_LAST_SEQ, .kind .EVT_STAGE_DROP, .kind .EVT_STATUS, .kind .PART_ARR_STAT,
    .kind .PART_CORE_IPENDm, .kind .PART_CORE_ISTATm, .kind .PART_CORE_STAT, .kind .PART_Q_CREDIT, .kind .PART_Q_OCC, .kind
    .PART_STR_STAT, .arr, .host, .out, .pw, .rcd, .wor] := by decide +kernel

def FP.askRung : Nat := 0x101b0000000008c019b4006000080000b0f00000000107ff9a3d

theorem FP.askRung_eq : FP.askRung =
  foot [.kind .EVT_FIRST_SEQ, .kind .EVT_FULL_DROP, .kind .EVT_LAST_SEQ, .kind .EVT_STAGE_DROP, .kind .EVT_STATUS, .kind .FZ_STREAMp,
    .kind .HIF_BOOT_STATUS, .kind .HIF_CTX_STATc, .kind .HIF_PBA, .kind .PART_ARR_STAT, .kind .PART_CORE_IPENDm, .kind .PART_CORE_ISTATm,
    .kind .PART_CORE_STAT, .kind .PART_Q_CREDIT, .kind .PART_Q_OCC, .kind .PART_STR_STAT, .kind .PWR_STAT, .kind .RST_CAUSE, .kind
    .RST_ESC_LAST, .kind .RST_ESC_STAT, .kind .RST_FAULT, .kind .RST_PART_AVAIL, .kind .RST_PIN_STAT, .kind .RST_REFCLK, .kind .RST_STRAP,
    .arr, .ctl, .fab, .host, .mem, .nor, .out, .pw, .qs, .rcd, .regsReset, .sec, .seen, .setTime, .super, .unitsReset, .upd, .vlt, .watch,
    .wipe, .wor] := by decide +kernel

def FP.endWait : Nat := 0x10000000000000000000000000000009000

theorem FP.endWait_eq : FP.endWait = foot [.kind .HIF_BOOT_STATUS, .ctl, .seen] := by decide +kernel

def FP.useCoreFw : Nat := 0x10000000000000000000000000001008000

theorem FP.useCoreFw_eq : FP.useCoreFw = foot [.kind .HIF_BOOT_STATUS, .ctl, .sec] := by decide +kernel

def FP.hostFw : Nat := 0x10000000000000000000000000001009000

theorem FP.hostFw_eq : FP.hostFw = foot [.kind .HIF_BOOT_STATUS, .ctl, .sec, .seen] := by decide +kernel

def FP.putSetting : Nat := 0x8000000

theorem FP.putSetting_eq : FP.putSetting = foot [.settings] := by decide +kernel

def FP.putBase : Nat := 0x1fffffffffffffffffffffffffffffffffff0000000000000000

theorem FP.putBase_eq : FP.putBase = allKinds ||| foot [] := by decide +kernel

def FP.enableRing : Nat := 0x6800000000000000000010000

theorem FP.enableRing_eq : FP.enableRing =
  foot [.kind .HIF_RING_CFGn, .kind .HIF_RING_POSn, .kind .HIF_RING_STATn, .host] := by decide +kernel

def FP.freeBits : Nat := 0x2000

theorem FP.freeBits_eq : FP.freeBits = foot [.draw] := by decide +kernel

def FP.refreshActive : Nat := 0x2000000000000000000000000

theorem FP.refreshActive_eq : FP.refreshActive = foot [.kind .HIF_RING_STATn] := by decide +kernel

def FP.dropOp : Nat := 0x2000000000000000000010000

theorem FP.dropOp_eq : FP.dropOp = foot [.kind .HIF_RING_STATn, .host] := by decide +kernel

def FP.discardOp : Nat := 0x1b000000000800000000000002000000000000000100312000

theorem FP.discardOp_eq : FP.discardOp =
  foot [.kind .EVT_FIRST_SEQ, .kind .EVT_FULL_DROP, .kind .EVT_LAST_SEQ, .kind .EVT_STAGE_DROP, .kind .EVT_STATUS, .kind .HIF_RING_STATn,
    .draw, .host, .out, .rcd, .wor] := by decide +kernel

def FP.disableRing : Nat := 0x1b00000000080000000000000a8000b0f00000000100352030

theorem FP.disableRing_eq : FP.disableRing =
  foot [.kind .EVT_FIRST_SEQ, .kind .EVT_FULL_DROP, .kind .EVT_LAST_SEQ, .kind .EVT_STAGE_DROP, .kind .EVT_STATUS, .kind .HIF_CTX_STATc,
    .kind .HIF_RING_CFGn, .kind .HIF_RING_STATn, .kind .PART_ARR_STAT, .kind .PART_CORE_IPENDm, .kind .PART_CORE_ISTATm, .kind
    .PART_CORE_STAT, .kind .PART_Q_CREDIT, .kind .PART_Q_OCC, .kind .PART_STR_STAT, .arr, .draw, .host, .out, .pw, .rcd, .vlt, .wor] := by decide +kernel

def FP.putRingCfg : Nat := 0x1b00000000080000000000000e8000b0f00000000100352030

theorem FP.putRingCfg_eq : FP.putRingCfg =
  foot [.kind .EVT_FIRST_SEQ, .kind .EVT_FULL_DROP, .kind .EVT_LAST_SEQ, .kind .EVT_STAGE_DROP, .kind .EVT_STATUS, .kind .HIF_CTX_STATc,
    .kind .HIF_RING_CFGn, .kind .HIF_RING_POSn, .kind .HIF_RING_STATn, .kind .PART_ARR_STAT, .kind .PART_CORE_IPENDm, .kind
    .PART_CORE_ISTATm, .kind .PART_CORE_STAT, .kind .PART_Q_CREDIT, .kind .PART_Q_OCC, .kind .PART_STR_STAT, .arr, .draw, .host, .out,
    .pw, .rcd, .vlt, .wor] := by decide +kernel

def FP.setMode : Nat := 0x8000

theorem FP.setMode_eq : FP.setMode = foot [.ctl] := by decide +kernel

def FP.setServe : Nat := 0x100000000000000000008000

theorem FP.setServe_eq : FP.setServe = foot [.kind .HIF_CTL, .ctl] := by decide +kernel

def FP.putMsix : Nat := 0x1800000000000000000000000000000000000000000100000000

theorem FP.putMsix_eq : FP.putMsix = foot [.kind .HIF_MSIX, .kind .HIF_PBA, .out] := by decide +kernel

def FP.upPort : Nat := 0x20000

theorem FP.upPort_eq : FP.upPort = foot [.fab] := by decide +kernel

def FP.refreshPortFault : Nat := 0x1000000000000000003000000000000000000000000100200000

theorem FP.refreshPortFault_eq : FP.refreshPortFault =
  foot [.kind .HIF_PBA, .kind .RST_FAULT, .kind .RST_PIN_STAT, .out, .wor] := by decide +kernel

def FP.setPort : Nat := 0x1000000000000000013000000020000000000000000100229000

theorem FP.setPort_eq : FP.setPort =
  foot [.kind .FZ_PORT_STAT, .kind .HIF_BOOT_STATUS, .kind .HIF_PBA, .kind .RST_FAULT, .kind .RST_PIN_STAT, .ctl, .fab, .out, .seen, .wor] := by decide +kernel

def FP.startTraining : Nat := 0x10000000000000000130000000a0000000000000000100229000

theorem FP.startTraining_eq : FP.startTraining =
  foot [.kind .FZ_PORT_FAR, .kind .FZ_PORT_STAT, .kind .HIF_BOOT_STATUS, .kind .HIF_PBA, .kind .RST_FAULT, .kind .RST_PIN_STAT, .ctl,
    .fab, .out, .seen, .wor] := by decide +kernel

def FP.bringUp : Nat := 0x101b0000000008000130000000a0000000000000000100329000

theorem FP.bringUp_eq : FP.bringUp =
  foot [.kind .EVT_FIRST_SEQ, .kind .EVT_FULL_DROP, .kind .EVT_LAST_SEQ, .kind .EVT_STAGE_DROP, .kind .EVT_STATUS, .kind .FZ_PORT_FAR,
    .kind .FZ_PORT_STAT, .kind .HIF_BOOT_STATUS, .kind .HIF_PBA, .kind .RST_FAULT, .kind .RST_PIN_STAT, .ctl, .fab, .out, .rcd, .seen,
    .wor] := by decide +kernel

def FP.runPrbs : Nat := 0x100020000

theorem FP.runPrbs_eq : FP.runPrbs = foot [.fab, .out] := by decide +kernel

def FP.putPortCtl : Nat := 0x101b0000000008000130000000b0000000000000000108329000

theorem FP.putPortCtl_eq : FP.putPortCtl =
  foot [.kind .EVT_FIRST_SEQ, .kind .EVT_FULL_DROP, .kind .EVT_LAST_SEQ, .kind .EVT_STAGE_DROP, .kind .EVT_STATUS, .kind .FZ_PORT_CTL,
    .kind .FZ_PORT_FAR, .kind .FZ_PORT_STAT, .kind .HIF_BOOT_STATUS, .kind .HIF_PBA, .kind .RST_FAULT, .kind .RST_PIN_STAT, .ctl, .fab,
    .out, .rcd, .seen, .settings, .wor] := by decide +kernel

def FP.bankSeal : Nat := 0x10000000000000004000000000000000000000000000

theorem FP.bankSeal_eq : FP.bankSeal = foot [.kind .FZ_BANK_CSUM, .kind .FZ_BANK_STAT] := by decide +kernel

def FP.bankCancel : Nat := 0x4000000000000000000000020000

theorem FP.bankCancel_eq : FP.bankCancel = foot [.kind .FZ_BANK_STAT, .fab] := by decide +kernel

def FP.bankRefuse : Nat := 0x4000000000000000000000000000

theorem FP.bankRefuse_eq : FP.bankRefuse = foot [.kind .FZ_BANK_STAT] := by decide +kernel

def FP.putBankCtl : Nat := 0x10000000000000004000000000000000000000020000

theorem FP.putBankCtl_eq : FP.putBankCtl = foot [.kind .FZ_BANK_CSUM, .kind .FZ_BANK_STAT, .fab] := by decide +kernel

def FP.becomeRoot : Nat := 0x40000000000000000000000020000

theorem FP.becomeRoot_eq : FP.becomeRoot = foot [.kind .FZ_TIME_STAT, .fab] := by decide +kernel

def FP.putTimeCfg : Nat := 0x60000000000000000000008020000

theorem FP.putTimeCfg_eq : FP.putTimeCfg = foot [.kind .FZ_TIME_CFG, .kind .FZ_TIME_STAT, .fab, .settings] := by decide +kernel

def FP.putTimeHi : Nat := 0x400000000000000000000000000000000000000000800

theorem FP.putTimeHi_eq : FP.putTimeHi = foot [.kind .FZ_TIME_SET_HI, .setTime] := by decide +kernel

def FP.qsCancel : Nat := 0x800000

theorem FP.qsCancel_eq : FP.qsCancel = foot [.qs] := by decide +kernel

def FP.qsStart : Nat := 0x803000

theorem FP.qsStart_eq : FP.qsStart = foot [.draw, .qs, .seen] := by decide +kernel

def FP.putQsCtl : Nat := 0x200000000000000000000000000000803000

theorem FP.putQsCtl_eq : FP.putQsCtl = foot [.kind .RST_QS_SRC_CTL, .draw, .qs, .seen] := by decide +kernel

def FP.putQsStat : Nat := 0x1000000000000000403000000000000000000000000100200000

theorem FP.putQsStat_eq : FP.putQsStat =
  foot [.kind .HIF_PBA, .kind .RST_FAULT, .kind .RST_PIN_STAT, .kind .RST_QS_STAT, .out, .wor] := by decide +kernel

def FP.askEngine : Nat := 0xb8f00000000000059028

theorem FP.askEngine_eq : FP.askEngine =
  foot [.kind .PART_ARR_STAT, .kind .PART_CORE_IPENDm, .kind .PART_CORE_ISTATm, .kind .PART_CORE_STAT, .kind .PART_ENG_RST_STAT, .kind
    .PART_Q_CREDIT, .kind .PART_Q_OCC, .kind .PART_STR_STAT, .arr, .ctl, .host, .mem, .pw, .seen] := by decide +kernel

def FP.setUpd : Nat := 0x10000000000000000000000000000000102200000

theorem FP.setUpd_eq : FP.setUpd = foot [.kind .UPD_STAT, .nor, .out, .wor] := by decide +kernel

def FP.updRefuse : Nat := 0x10000000000000000000000000000000000000000

theorem FP.updRefuse_eq : FP.updRefuse = foot [.kind .UPD_STAT] := by decide +kernel

def FP.putErrLog : Nat := 0x10000000000000000000000

theorem FP.putErrLog_eq : FP.putErrLog = foot [.kind .MEM_ERRLOG_STAT] := by decide +kernel

def FP.mboxPut : Nat := 0x3a0000000000000000000

theorem FP.mboxPut_eq : FP.mboxPut =
  foot [.kind .PART_CORE_IPENDm, .kind .PART_CORE_ISTATm, .kind .PART_CORE_MBOXn, .kind .PART_CORE_MISC] := by decide +kernel

def FP.regPut : Nat := 0x1fffffffffffffffffffffffffffffffffff000000010fffba3d

theorem FP.regPut_eq : FP.regPut =
  allKinds ||| foot [.arr, .ctl, .draw, .fab, .host, .mem, .nor, .out, .pw, .qs, .rcd, .regsReset, .sec, .seen, .setTime, .settings,
    .super, .unitsReset, .upd, .vlt, .watch, .wipe, .wor] := by decide +kernel

def FP.stagingPut : Nat := 0x10000000000000000000000000000000102600000

theorem FP.stagingPut_eq : FP.stagingPut = foot [.kind .UPD_STAT, .nor, .out, .upd, .wor] := by decide +kernel

def FP.noteFault : Nat := 0x80000

theorem FP.noteFault_eq : FP.noteFault = foot [.watch] := by decide +kernel

def FP.unitFail : Nat := 0xb0f000000000000d0020

theorem FP.unitFail_eq : FP.unitFail =
  foot [.kind .PART_ARR_STAT, .kind .PART_CORE_IPENDm, .kind .PART_CORE_ISTATm, .kind .PART_CORE_STAT, .kind .PART_Q_CREDIT, .kind
    .PART_Q_OCC, .kind .PART_STR_STAT, .arr, .host, .pw, .watch] := by decide +kernel

def FP.resFail : Nat := 0x1b0000000008000000000000000000b0f300000001003d0020

theorem FP.resFail_eq : FP.resFail =
  foot [.kind .EVT_FIRST_SEQ, .kind .EVT_FULL_DROP, .kind .EVT_LAST_SEQ, .kind .EVT_STAGE_DROP, .kind .EVT_STATUS, .kind .PART_ARR_EXC,
    .kind .PART_ARR_RESCNT, .kind .PART_ARR_STAT, .kind .PART_CORE_IPENDm, .kind .PART_CORE_ISTATm, .kind .PART_CORE_STAT, .kind
    .PART_Q_CREDIT, .kind .PART_Q_OCC, .kind .PART_STR_STAT, .arr, .host, .out, .pw, .rcd, .watch, .wor] := by decide +kernel

def FP.arrIllegal : Nat := 0x1b0000000008000000000000000000b0f000000001003d0020

theorem FP.arrIllegal_eq : FP.arrIllegal =
  foot [.kind .EVT_FIRST_SEQ, .kind .EVT_FULL_DROP, .kind .EVT_LAST_SEQ, .kind .EVT_STAGE_DROP, .kind .EVT_STATUS, .kind .PART_ARR_STAT,
    .kind .PART_CORE_IPENDm, .kind .PART_CORE_ISTATm, .kind .PART_CORE_STAT, .kind .PART_Q_CREDIT, .kind .PART_Q_OCC, .kind
    .PART_STR_STAT, .arr, .host, .out, .pw, .rcd, .watch, .wor] := by decide +kernel

def FP.headerFail : Nat := 0x1b0000000008000000000000000000b0f100000001003d0020

theorem FP.headerFail_eq : FP.headerFail =
  foot [.kind .EVT_FIRST_SEQ, .kind .EVT_FULL_DROP, .kind .EVT_LAST_SEQ, .kind .EVT_STAGE_DROP, .kind .EVT_STATUS, .kind .PART_ARR_EXC,
    .kind .PART_ARR_STAT, .kind .PART_CORE_IPENDm, .kind .PART_CORE_ISTATm, .kind .PART_CORE_STAT, .kind .PART_Q_CREDIT, .kind
    .PART_Q_OCC, .kind .PART_STR_STAT, .arr, .host, .out, .pw, .rcd, .watch, .wor] := by decide +kernel

def FP.upArr : Nat := 0x20

theorem FP.upArr_eq : FP.upArr = foot [.arr] := by decide +kernel

def FP.logPut : Nat := 0x400000000000000000000000000010000000000000000000000

theorem FP.logPut_eq : FP.logPut = foot [.kind .MEM_ERRLOG, .kind .MEM_ERRLOG_STAT] := by decide +kernel

def FP.logErr : Nat := 0x400000000000000000000000000010400000000000000000000

theorem FP.logErr_eq : FP.logErr = foot [.kind .MEM_ERRLOG, .kind .MEM_ERRLOG_STAT, .kind .MEM_STAT] := by decide +kernel

def FP.readVault : Nat := 0x41b000000000800000000000000030400000000000100300008

theorem FP.readVault_eq : FP.readVault =
  foot [.kind .EVT_FIRST_SEQ, .kind .EVT_FULL_DROP, .kind .EVT_LAST_SEQ, .kind .EVT_STAGE_DROP, .kind .EVT_STATUS, .kind .MEM_ERRLOG,
    .kind .MEM_ERRLOG_STAT, .kind .MEM_STAT, .kind .MEM_VLT_STAT, .mem, .out, .rcd, .wor] := by decide +kernel

def FP.pokes : Nat := 0x2

theorem FP.pokes_eq : FP.pokes = foot [.write] := by decide +kernel

def FP.upCore : Nat := 0x40

theorem FP.upCore_eq : FP.upCore = foot [.core] := by decide +kernel

def FP.lmce : Nat := 0x2a0000000000000000040

theorem FP.lmce_eq : FP.lmce = foot [.kind .PART_CORE_IPENDm, .kind .PART_CORE_ISTATm, .kind .PART_CORE_MISC, .core] := by decide +kernel

def FP.onCorrect : Nat := 0x41b0000030008000000000000000126a0000000000100300048

theorem FP.onCorrect_eq : FP.onCorrect =
  foot [.kind .EVT_FIRST_SEQ, .kind .EVT_FULL_DROP, .kind .EVT_LAST_SEQ, .kind .EVT_STAGE_DROP, .kind .EVT_STATUS, .kind .MEM_CE_SR_p,
    .kind .MEM_CE_T0_c, .kind .MEM_CE_T1_c, .kind .MEM_ERRLOG, .kind .MEM_ERRLOG_STAT, .kind .MEM_STAT, .kind .PART_CORE_IPENDm, .kind
    .PART_CORE_ISTATm, .kind .PART_CORE_MISC, .core, .mem, .out, .rcd, .wor] := by decide +kernel

def FP.onLost : Nat := 0x41b000000000800000000000000010400000000000100380000

theorem FP.onLost_eq : FP.onLost =
  foot [.kind .EVT_FIRST_SEQ, .kind .EVT_FULL_DROP, .kind .EVT_LAST_SEQ, .kind .EVT_STAGE_DROP, .kind .EVT_STATUS, .kind .MEM_ERRLOG,
    .kind .MEM_ERRLOG_STAT, .kind .MEM_STAT, .out, .rcd, .watch, .wor] := by decide +kernel

def FP.checkCw : Nat := 0x41b0000030008000000000000000126a000000000010038004a

theorem FP.checkCw_eq : FP.checkCw =
  foot [.kind .EVT_FIRST_SEQ, .kind .EVT_FULL_DROP, .kind .EVT_LAST_SEQ, .kind .EVT_STAGE_DROP, .kind .EVT_STATUS, .kind .MEM_CE_SR_p,
    .kind .MEM_CE_T0_c, .kind .MEM_CE_T1_c, .kind .MEM_ERRLOG, .kind .MEM_ERRLOG_STAT, .kind .MEM_STAT, .kind .PART_CORE_IPENDm, .kind
    .PART_CORE_ISTATm, .kind .PART_CORE_MISC, .core, .mem, .out, .rcd, .watch, .wor, .write] := by decide +kernel

def FP.readMem : Nat := 0x41b0000030008000000000000000326a000000000010038004a

theorem FP.readMem_eq : FP.readMem =
  foot [.kind .EVT_FIRST_SEQ, .kind .EVT_FULL_DROP, .kind .EVT_LAST_SEQ, .kind .EVT_STAGE_DROP, .kind .EVT_STATUS, .kind .MEM_CE_SR_p,
    .kind .MEM_CE_T0_c, .kind .MEM_CE_T1_c, .kind .MEM_ERRLOG, .kind .MEM_ERRLOG_STAT, .kind .MEM_STAT, .kind .MEM_VLT_STAT, .kind
    .PART_CORE_IPENDm, .kind .PART_CORE_ISTATm, .kind .PART_CORE_MISC, .core, .mem, .out, .rcd, .watch, .wor, .write] := by decide +kernel

def FP.unitFlags : Nat := 0x10000000000000000

theorem FP.unitFlags_eq : FP.unitFlags = foot [.kind .PART_ARR_EXC] := by decide +kernel

def FP.upQue : Nat := 0x100

theorem FP.upQue_eq : FP.upQue = foot [.que] := by decide +kernel

def FP.popSlot : Nat := 0x41b0000030008000000000000000326a000000000010038014a

theorem FP.popSlot_eq : FP.popSlot =
  foot [.kind .EVT_FIRST_SEQ, .kind .EVT_FULL_DROP, .kind .EVT_LAST_SEQ, .kind .EVT_STAGE_DROP, .kind .EVT_STATUS, .kind .MEM_CE_SR_p,
    .kind .MEM_CE_T0_c, .kind .MEM_CE_T1_c, .kind .MEM_ERRLOG, .kind .MEM_ERRLOG_STAT, .kind .MEM_STAT, .kind .MEM_VLT_STAT, .kind
    .PART_CORE_IPENDm, .kind .PART_CORE_ISTATm, .kind .PART_CORE_MISC, .core, .mem, .out, .que, .rcd, .watch, .wor, .write] := by decide +kernel

def FP.stallC : Nat := 0x10d00000000000040020

theorem FP.stallC_eq : FP.stallC =
  foot [.kind .PART_ARR_STAT, .kind .PART_CORE_STAT, .kind .PART_Q_OCC, .kind .PART_STR_STAT, .arr, .pw] := by decide +kernel

def FP.gatherSide : Nat := 0x41b0000030008000000000000000326b0f000000001003d016a

theorem FP.gatherSide_eq : FP.gatherSide =
  foot [.kind .EVT_FIRST_SEQ, .kind .EVT_FULL_DROP, .kind .EVT_LAST_SEQ, .kind .EVT_STAGE_DROP, .kind .EVT_STATUS, .kind .MEM_CE_SR_p,
    .kind .MEM_CE_T0_c, .kind .MEM_CE_T1_c, .kind .MEM_ERRLOG, .kind .MEM_ERRLOG_STAT, .kind .MEM_STAT, .kind .MEM_VLT_STAT, .kind
    .PART_ARR_STAT, .kind .PART_CORE_IPENDm, .kind .PART_CORE_ISTATm, .kind .PART_CORE_MISC, .kind .PART_CORE_STAT, .kind .PART_Q_CREDIT,
    .kind .PART_Q_OCC, .kind .PART_STR_STAT, .arr, .core, .host, .mem, .out, .pw, .que, .rcd, .watch, .wor, .write] := by decide +kernel

def FP.streamStep : Nat := 0x41b0000030008000000000000000326b0f300000001003d016a

theorem FP.streamStep_eq : FP.streamStep =
  foot [.kind .EVT_FIRST_SEQ, .kind .EVT_FULL_DROP, .kind .EVT_LAST_SEQ, .kind .EVT_STAGE_DROP, .kind .EVT_STATUS, .kind .MEM_CE_SR_p,
    .kind .MEM_CE_T0_c, .kind .MEM_CE_T1_c, .kind .MEM_ERRLOG, .kind .MEM_ERRLOG_STAT, .kind .MEM_STAT, .kind .MEM_VLT_STAT, .kind
    .PART_ARR_EXC, .kind .PART_ARR_RESCNT, .kind .PART_ARR_STAT, .kind .PART_CORE_IPENDm, .kind .PART_CORE_ISTATm, .kind .PART_CORE_MISC,
    .kind .PART_CORE_STAT, .kind .PART_Q_CREDIT, .kind .PART_Q_OCC, .kind .PART_STR_STAT, .arr, .core, .host, .mem, .out, .pw, .que, .rcd,
    .watch, .wor, .write] := by decide +kernel

def FP.pushSlot : Nat := 0x41b0000030008000000000000000126a020000000010038014a

theorem FP.pushSlot_eq : FP.pushSlot =
  foot [.kind .EVT_FIRST_SEQ, .kind .EVT_FULL_DROP, .kind .EVT_LAST_SEQ, .kind .EVT_STAGE_DROP, .kind .EVT_STATUS, .kind .MEM_CE_SR_p,
    .kind .MEM_CE_T0_c, .kind .MEM_CE_T1_c, .kind .MEM_ERRLOG, .kind .MEM_ERRLOG_STAT, .kind .MEM_STAT, .kind .PART_CORE_IPENDm, .kind
    .PART_CORE_ISTATm, .kind .PART_CORE_MISC, .kind .PART_Q_CREDIT, .core, .mem, .out, .que, .rcd, .watch, .wor, .write] := by decide +kernel

def FP.drainStep : Nat := 0x41b0000030008000000000000000126a020000000010038016a

theorem FP.drainStep_eq : FP.drainStep =
  foot [.kind .EVT_FIRST_SEQ, .kind .EVT_FULL_DROP, .kind .EVT_LAST_SEQ, .kind .EVT_STAGE_DROP, .kind .EVT_STATUS, .kind .MEM_CE_SR_p,
    .kind .MEM_CE_T0_c, .kind .MEM_CE_T1_c, .kind .MEM_ERRLOG, .kind .MEM_ERRLOG_STAT, .kind .MEM_STAT, .kind .PART_CORE_IPENDm, .kind
    .PART_CORE_ISTATm, .kind .PART_CORE_MISC, .kind .PART_Q_CREDIT, .arr, .core, .mem, .out, .que, .rcd, .watch, .wor, .write] := by decide +kernel

def FP.wakeQ : Nat := 0x10f00000000000040020

theorem FP.wakeQ_eq : FP.wakeQ =
  foot [.kind .PART_ARR_STAT, .kind .PART_CORE_STAT, .kind .PART_Q_CREDIT, .kind .PART_Q_OCC, .kind .PART_STR_STAT, .arr, .pw] := by decide +kernel

def FP.releaseSlot : Nat := 0xb0f00000000000041120

theorem FP.releaseSlot_eq : FP.releaseSlot =
  foot [.kind .PART_ARR_STAT, .kind .PART_CORE_IPENDm, .kind .PART_CORE_ISTATm, .kind .PART_CORE_STAT, .kind .PART_Q_CREDIT, .kind
    .PART_Q_OCC, .kind .PART_STR_STAT, .arr, .pw, .que, .seen] := by decide +kernel

def FP.arrTurn : Nat := 0x41b0000030008000000000000000326b0f300000001003d116a

theorem FP.arrTurn_eq : FP.arrTurn =
  foot [.kind .EVT_FIRST_SEQ, .kind .EVT_FULL_DROP, .kind .EVT_LAST_SEQ, .kind .EVT_STAGE_DROP, .kind .EVT_STATUS, .kind .MEM_CE_SR_p,
    .kind .MEM_CE_T0_c, .kind .MEM_CE_T1_c, .kind .MEM_ERRLOG, .kind .MEM_ERRLOG_STAT, .kind .MEM_STAT, .kind .MEM_VLT_STAT, .kind
    .PART_ARR_EXC, .kind .PART_ARR_RESCNT, .kind .PART_ARR_STAT, .kind .PART_CORE_IPENDm, .kind .PART_CORE_ISTATm, .kind .PART_CORE_MISC,
    .kind .PART_CORE_STAT, .kind .PART_Q_CREDIT, .kind .PART_Q_OCC, .kind .PART_STR_STAT, .arr, .core, .host, .mem, .out, .pw, .que, .rcd,
    .seen, .watch, .wor, .write] := by decide +kernel

def FP.mapArr : Nat := 0x1000000000000000000000000000000000000

theorem FP.mapArr_eq : FP.mapArr = foot [.kind .PART_TOP_ARRn] := by decide +kernel

def FP.mapCore : Nat := 0x40000000000000000000000000000000000000000000000

theorem FP.mapCore_eq : FP.mapCore = foot [.kind .PART_TOP_COREg] := by decide +kernel

def FP.rotateArr : Nat := 0x1000000400000000010c00000000000040020

theorem FP.rotateArr_eq : FP.rotateArr =
  foot [.kind .PART_ARR_STAT, .kind .PART_CORE_STAT, .kind .PART_STR_STAT, .kind .PART_TOP_ARRn, .kind .PWR_STAT, .arr, .pw] := by decide +kernel

def FP.coreJump : Nat := 0x1b0000000008000000000000000000b0f000000001003d0060

theorem FP.coreJump_eq : FP.coreJump =
  foot [.kind .EVT_FIRST_SEQ, .kind .EVT_FULL_DROP, .kind .EVT_LAST_SEQ, .kind .EVT_STAGE_DROP, .kind .EVT_STATUS, .kind .PART_ARR_STAT,
    .kind .PART_CORE_IPENDm, .kind .PART_CORE_ISTATm, .kind .PART_CORE_STAT, .kind .PART_Q_CREDIT, .kind .PART_Q_OCC, .kind
    .PART_STR_STAT, .arr, .core, .host, .out, .pw, .rcd, .watch, .wor] := by decide +kernel

def FP.rotateCore : Nat := 0x1b0400000008000000000000000000b0f000000001003d0060

theorem FP.rotateCore_eq : FP.rotateCore =
  foot [.kind .EVT_FIRST_SEQ, .kind .EVT_FULL_DROP, .kind .EVT_LAST_SEQ, .kind .EVT_STAGE_DROP, .kind .EVT_STATUS, .kind .PART_ARR_STAT,
    .kind .PART_CORE_IPENDm, .kind .PART_CORE_ISTATm, .kind .PART_CORE_STAT, .kind .PART_Q_CREDIT, .kind .PART_Q_OCC, .kind
    .PART_STR_STAT, .kind .PART_TOP_COREg, .arr, .core, .host, .out, .pw, .rcd, .watch, .wor] := by decide +kernel

def FP.refreshSelf : Nat := 0x800000000000000000000000000

theorem FP.refreshSelf_eq : FP.refreshSelf = foot [.kind .FZ_SELF] := by decide +kernel

def FP.makeActive : Nat := 0x4800000000000000000008000000

theorem FP.makeActive_eq : FP.makeActive = foot [.kind .FZ_BANK_STAT, .kind .FZ_SELF, .settings] := by decide +kernel

def FP.enterFenced : Nat := 0x101b000000000800013000010020000000000000000102329008

theorem FP.enterFenced_eq : FP.enterFenced =
  foot [.kind .EVT_FIRST_SEQ, .kind .EVT_FULL_DROP, .kind .EVT_LAST_SEQ, .kind .EVT_STAGE_DROP, .kind .EVT_STATUS, .kind .FZ_MEMBER, .kind
    .FZ_PORT_STAT, .kind .HIF_BOOT_STATUS, .kind .HIF_PBA, .kind .RST_FAULT, .kind .RST_PIN_STAT, .ctl, .fab, .mem, .nor, .out, .rcd,
    .seen, .wor] := by decide +kernel

def FP.layNow : Nat := 0x101b00000000080001300001482000000000000000010a329008

theorem FP.layNow_eq : FP.layNow =
  foot [.kind .EVT_FIRST_SEQ, .kind .EVT_FULL_DROP, .kind .EVT_LAST_SEQ, .kind .EVT_STAGE_DROP, .kind .EVT_STATUS, .kind .FZ_BANK_STAT,
    .kind .FZ_MEMBER, .kind .FZ_PORT_STAT, .kind .FZ_SELF, .kind .HIF_BOOT_STATUS, .kind .HIF_PBA, .kind .RST_FAULT, .kind .RST_PIN_STAT,
    .ctl, .fab, .mem, .nor, .out, .rcd, .seen, .settings, .wor] := by decide +kernel

def FP.dirWords : Nat := 0x1b000000000800000000004000000000000000000100320000

theorem FP.dirWords_eq : FP.dirWords =
  foot [.kind .EVT_FIRST_SEQ, .kind .EVT_FULL_DROP, .kind .EVT_LAST_SEQ, .kind .EVT_STAGE_DROP, .kind .EVT_STATUS, .kind .FZ_BANK_STAT,
    .fab, .out, .rcd, .wor] := by decide +kernel

def FP.exchange : Nat := 0x40000000000000000000000020800

theorem FP.exchange_eq : FP.exchange = foot [.kind .FZ_TIME_STAT, .fab, .setTime] := by decide +kernel

def FP.dropPkt : Nat := 0x100000000000000000000000000000

theorem FP.dropPkt_eq : FP.dropPkt = foot [.kind .FZ_DROPk] := by decide +kernel

def FP.dropUe : Nat := 0x1b000000000800000000100000000000000000000100300000

theorem FP.dropUe_eq : FP.dropUe =
  foot [.kind .EVT_FIRST_SEQ, .kind .EVT_FULL_DROP, .kind .EVT_LAST_SEQ, .kind .EVT_STAGE_DROP, .kind .EVT_STATUS, .kind .FZ_DROPk, .out,
    .rcd, .wor] := by decide +kernel

def FP.deliverPkt : Nat := 0x100000000000000000000000020000

theorem FP.deliverPkt_eq : FP.deliverPkt = foot [.kind .FZ_DROPk, .fab] := by decide +kernel

def FP.injectUni : Nat := 0x100000000000000000000100020000

theorem FP.injectUni_eq : FP.injectUni = foot [.kind .FZ_DROPk, .fab, .out] := by decide +kernel

def FP.publishSlot : Nat := 0xb0f00000000000051120

theorem FP.publishSlot_eq : FP.publishSlot =
  foot [.kind .PART_ARR_STAT, .kind .PART_CORE_IPENDm, .kind .PART_CORE_ISTATm, .kind .PART_CORE_STAT, .kind .PART_Q_CREDIT, .kind
    .PART_Q_OCC, .kind .PART_STR_STAT, .arr, .host, .pw, .que, .seen] := by decide +kernel

def FP.redTotal : Nat := 0x41b0000030008000000001000000326b0f300000001003f116a

theorem FP.redTotal_eq : FP.redTotal =
  foot [.kind .EVT_FIRST_SEQ, .kind .EVT_FULL_DROP, .kind .EVT_LAST_SEQ, .kind .EVT_STAGE_DROP, .kind .EVT_STATUS, .kind .FZ_DROPk, .kind
    .MEM_CE_SR_p, .kind .MEM_CE_T0_c, .kind .MEM_CE_T1_c, .kind .MEM_ERRLOG, .kind .MEM_ERRLOG_STAT, .kind .MEM_STAT, .kind .MEM_VLT_STAT,
    .kind .PART_ARR_EXC, .kind .PART_ARR_RESCNT, .kind .PART_ARR_STAT, .kind .PART_CORE_IPENDm, .kind .PART_CORE_ISTATm, .kind
    .PART_CORE_MISC, .kind .PART_CORE_STAT, .kind .PART_Q_CREDIT, .kind .PART_Q_OCC, .kind .PART_STR_STAT, .arr, .core, .fab, .host, .mem,
    .out, .pw, .que, .rcd, .seen, .watch, .wor, .write] := by decide +kernel

def FP.coreTurn : Nat := 0x41b0000030008000000000000000326b0f000000001003d116a

theorem FP.coreTurn_eq : FP.coreTurn =
  foot [.kind .EVT_FIRST_SEQ, .kind .EVT_FULL_DROP, .kind .EVT_LAST_SEQ, .kind .EVT_STAGE_DROP, .kind .EVT_STATUS, .kind .MEM_CE_SR_p,
    .kind .MEM_CE_T0_c, .kind .MEM_CE_T1_c, .kind .MEM_ERRLOG, .kind .MEM_ERRLOG_STAT, .kind .MEM_STAT, .kind .MEM_VLT_STAT, .kind
    .PART_ARR_STAT, .kind .PART_CORE_IPENDm, .kind .PART_CORE_ISTATm, .kind .PART_CORE_MISC, .kind .PART_CORE_STAT, .kind .PART_Q_CREDIT,
    .kind .PART_Q_OCC, .kind .PART_STR_STAT, .arr, .core, .host, .mem, .out, .pw, .que, .rcd, .seen, .watch, .wor, .write] := by decide +kernel

def FP.coreLoad : Nat := 0x41b0000030008000000000000000326b0f000000001003d006a

theorem FP.coreLoad_eq : FP.coreLoad =
  foot [.kind .EVT_FIRST_SEQ, .kind .EVT_FULL_DROP, .kind .EVT_LAST_SEQ, .kind .EVT_STAGE_DROP, .kind .EVT_STATUS, .kind .MEM_CE_SR_p,
    .kind .MEM_CE_T0_c, .kind .MEM_CE_T1_c, .kind .MEM_ERRLOG, .kind .MEM_ERRLOG_STAT, .kind .MEM_STAT, .kind .MEM_VLT_STAT, .kind
    .PART_ARR_STAT, .kind .PART_CORE_IPENDm, .kind .PART_CORE_ISTATm, .kind .PART_CORE_MISC, .kind .PART_CORE_STAT, .kind .PART_Q_CREDIT,
    .kind .PART_Q_OCC, .kind .PART_STR_STAT, .arr, .core, .host, .mem, .out, .pw, .rcd, .watch, .wor, .write] := by decide +kernel

def FP.coreStore : Nat := 0x41b0000030008000000000000000126b0f000000001003d006a

theorem FP.coreStore_eq : FP.coreStore =
  foot [.kind .EVT_FIRST_SEQ, .kind .EVT_FULL_DROP, .kind .EVT_LAST_SEQ, .kind .EVT_STAGE_DROP, .kind .EVT_STATUS, .kind .MEM_CE_SR_p,
    .kind .MEM_CE_T0_c, .kind .MEM_CE_T1_c, .kind .MEM_ERRLOG, .kind .MEM_ERRLOG_STAT, .kind .MEM_STAT, .kind .PART_ARR_STAT, .kind
    .PART_CORE_IPENDm, .kind .PART_CORE_ISTATm, .kind .PART_CORE_MISC, .kind .PART_CORE_STAT, .kind .PART_Q_CREDIT, .kind .PART_Q_OCC,
    .kind .PART_STR_STAT, .arr, .core, .host, .mem, .out, .pw, .rcd, .watch, .wor, .write] := by decide +kernel

def FP.ewcBody : Nat := 0x41b0000030008000000000000000326b0f000000001003d206a

theorem FP.ewcBody_eq : FP.ewcBody =
  foot [.kind .EVT_FIRST_SEQ, .kind .EVT_FULL_DROP, .kind .EVT_LAST_SEQ, .kind .EVT_STAGE_DROP, .kind .EVT_STATUS, .kind .MEM_CE_SR_p,
    .kind .MEM_CE_T0_c, .kind .MEM_CE_T1_c, .kind .MEM_ERRLOG, .kind .MEM_ERRLOG_STAT, .kind .MEM_STAT, .kind .MEM_VLT_STAT, .kind
    .PART_ARR_STAT, .kind .PART_CORE_IPENDm, .kind .PART_CORE_ISTATm, .kind .PART_CORE_MISC, .kind .PART_CORE_STAT, .kind .PART_Q_CREDIT,
    .kind .PART_Q_OCC, .kind .PART_STR_STAT, .arr, .core, .draw, .host, .mem, .out, .pw, .rcd, .watch, .wor, .write] := by decide +kernel

def FP.csrPut : Nat := 0x2e0000000000000000040

theorem FP.csrPut_eq : FP.csrPut =
  foot [.kind .PART_CORE_IMASKm, .kind .PART_CORE_IPENDm, .kind .PART_CORE_ISTATm, .kind .PART_CORE_MISC, .core] := by decide +kernel

def FP.coreTake : Nat := 0x1b0000000008000000000000000000b0f000000001003d0160

theorem FP.coreTake_eq : FP.coreTake =
  foot [.kind .EVT_FIRST_SEQ, .kind .EVT_FULL_DROP, .kind .EVT_LAST_SEQ, .kind .EVT_STAGE_DROP, .kind .EVT_STATUS, .kind .PART_ARR_STAT,
    .kind .PART_CORE_IPENDm, .kind .PART_CORE_ISTATm, .kind .PART_CORE_STAT, .kind .PART_Q_CREDIT, .kind .PART_Q_OCC, .kind
    .PART_STR_STAT, .arr, .core, .host, .out, .pw, .que, .rcd, .watch, .wor] := by decide +kernel

def FP.coreUnwait : Nat := 0x300000000000000000

theorem FP.coreUnwait_eq : FP.coreUnwait = foot [.kind .PART_Q_CREDIT, .kind .PART_Q_OCC] := by decide +kernel

def FP.beginInstall : Nat := 0x4010010

theorem FP.beginInstall_eq : FP.beginInstall = foot [.host, .super, .vlt] := by decide +kernel

def FP.clearWaits : Nat := 0x10000000000000000000000000000008000

theorem FP.clearWaits_eq : FP.clearWaits = foot [.kind .HIF_BOOT_STATUS, .ctl] := by decide +kernel

def FP.admitPhase : Nat := 0x41b0000030008000000004000000326b0f300000001003d116a

theorem FP.admitPhase_eq : FP.admitPhase =
  foot [.kind .EVT_FIRST_SEQ, .kind .EVT_FULL_DROP, .kind .EVT_LAST_SEQ, .kind .EVT_STAGE_DROP, .kind .EVT_STATUS, .kind .MEM_CE_SR_p,
    .kind .MEM_CE_T0_c, .kind .MEM_CE_T1_c, .kind .MEM_ERRLOG, .kind .MEM_ERRLOG_STAT, .kind .MEM_STAT, .kind .MEM_VLT_STAT, .kind
    .PART_ARR_EXC, .kind .PART_ARR_RESCNT, .kind .PART_ARR_STAT, .kind .PART_CORE_IPENDm, .kind .PART_CORE_ISTATm, .kind .PART_CORE_MISC,
    .kind .PART_CORE_STAT, .kind .PART_Q_CREDIT, .kind .PART_Q_OCC, .kind .PART_STR_STAT, .kind .PWR_STAT, .arr, .core, .host, .mem, .out,
    .pw, .que, .rcd, .seen, .watch, .wor, .write] := by decide +kernel

def FP.dropQueue : Nat := 0x1b0000000008000000000000000000a0140000000100300100

theorem FP.dropQueue_eq : FP.dropQueue =
  foot [.kind .EVT_FIRST_SEQ, .kind .EVT_FULL_DROP, .kind .EVT_LAST_SEQ, .kind .EVT_STAGE_DROP, .kind .EVT_STATUS, .kind
    .PART_CORE_IPENDm, .kind .PART_CORE_ISTATm, .kind .PART_Q_CFG, .kind .PART_Q_OCC, .out, .que, .rcd, .wor] := by decide +kernel

def FP.upStr : Nat := 0x80

theorem FP.upStr_eq : FP.upStr = foot [.str] := by decide +kernel

def FP.unbindUnit : Nat := 0xe0

theorem FP.unbindUnit_eq : FP.unbindUnit = foot [.arr, .core, .str] := by decide +kernel

def FP.settle : Nat := 0x1b000000000800000000000000000000000000000100350000

theorem FP.settle_eq : FP.settle =
  foot [.kind .EVT_FIRST_SEQ, .kind .EVT_FULL_DROP, .kind .EVT_LAST_SEQ, .kind .EVT_STAGE_DROP, .kind .EVT_STATUS, .host, .out, .pw, .rcd,
    .wor] := by decide +kernel

def FP.forceDrop : Nat := 0x400000000000000000000000040000

theorem FP.forceDrop_eq : FP.forceDrop = foot [.kind .PWR_STAT, .pw] := by decide +kernel

def FP.forcedOff : Nat := 0x41000

theorem FP.forcedOff_eq : FP.forcedOff = foot [.pw, .seen] := by decide +kernel

def FP.refreshGuard : Nat := 0x4000000400000000000000000000000041000

theorem FP.refreshGuard_eq : FP.refreshGuard = foot [.kind .GRD_STAT, .kind .PWR_STAT, .pw, .seen] := by decide +kernel

def FP.latchWrite : Nat := 0x10000000

theorem FP.latchWrite_eq : FP.latchWrite = foot [.latch] := by decide +kernel

def FP.wearTake : Nat := 0x10

theorem FP.wearTake_eq : FP.wearTake = foot [.vlt] := by decide +kernel

def FP.pageWrite : Nat := 0xa

theorem FP.pageWrite_eq : FP.pageWrite = foot [.mem, .write] := by decide +kernel

def FP.writePage : Nat := 0x2000000000000000410001a

theorem FP.writePage_eq : FP.writePage = foot [.kind .MEM_VLT_STAT, .mem, .rcd, .super, .vlt, .write] := by decide +kernel

def FP.holdUp : Nat := 0x800000000000000020000000000000104b1301a

theorem FP.holdUp_eq : FP.holdUp =
  foot [.kind .EVT_STATUS, .kind .MEM_VLT_STAT, .draw, .host, .mem, .out, .qs, .rcd, .seen, .super, .vlt, .wor, .write] := by decide +kernel

def FP.losePower : Nat := 0x800000000000000020000000000000304b1f01a

theorem FP.losePower_eq : FP.losePower =
  foot [.kind .EVT_STATUS, .kind .MEM_VLT_STAT, .ctl, .draw, .host, .hs, .mem, .out, .por, .qs, .rcd, .seen, .super, .vlt, .wor, .write] := by decide +kernel

def FP.switchOff : Nat := 0x800000000000000020000000000000314b1f01a

theorem FP.switchOff_eq : FP.switchOff =
  foot [.kind .EVT_STATUS, .kind .MEM_VLT_STAT, .ctl, .draw, .host, .hs, .latch, .mem, .out, .por, .qs, .rcd, .seen, .super, .vlt, .wor,
    .write] := by decide +kernel

def FP.sampleSpot : Nat := 0x200400000000000000000000000041000

theorem FP.sampleSpot_eq : FP.sampleSpot = foot [.kind .PWR_HSd_h, .kind .PWR_STAT, .pw, .seen] := by decide +kernel

def FP.compareSpot : Nat := 0x1b000000000800000200000000000000000000000100300000

theorem FP.compareSpot_eq : FP.compareSpot =
  foot [.kind .EVT_FIRST_SEQ, .kind .EVT_FULL_DROP, .kind .EVT_LAST_SEQ, .kind .EVT_STAGE_DROP, .kind .EVT_STATUS, .kind .PWR_HSd_h, .out,
    .rcd, .wor] := by decide +kernel

def FP.setRot : Nat := 0xa0000000000000040060

theorem FP.setRot_eq : FP.setRot = foot [.kind .PART_CORE_IPENDm, .kind .PART_CORE_ISTATm, .arr, .core, .pw] := by decide +kernel

def FP.refreshSensors : Nat := 0x1000000000000000003000400000000000000000000100200000

theorem FP.refreshSensors_eq : FP.refreshSensors =
  foot [.kind .HIF_PBA, .kind .PWR_STAT, .kind .RST_FAULT, .kind .RST_PIN_STAT, .out, .wor] := by decide +kernel

def FP.countHalf : Nat := 0x3800000000000000000000000000000000000000000000

theorem FP.countHalf_eq : FP.countHalf = foot [.kind .PWR_LIFE_N20, .kind .PWR_LIFE_N40, .kind .PWR_LIFE_N60] := by decide +kernel

def FP.closeCycles : Nat := 0x3800000000000000000000000000000000000000040000

theorem FP.closeCycles_eq : FP.closeCycles =
  foot [.kind .PWR_LIFE_N20, .kind .PWR_LIFE_N40, .kind .PWR_LIFE_N60, .pw] := by decide +kernel

def FP.refreshLife : Nat := 0x1b004000000800000000000000000000000000000100300000

theorem FP.refreshLife_eq : FP.refreshLife =
  foot [.kind .EVT_FIRST_SEQ, .kind .EVT_FULL_DROP, .kind .EVT_LAST_SEQ, .kind .EVT_STAGE_DROP, .kind .EVT_STATUS, .kind .PWR_LIFE_DAMAGE,
    .out, .rcd, .wor] := by decide +kernel

def FP.ringMessage : Nat := 0x1000000000000000000000000000000000000000000100010000

theorem FP.ringMessage_eq : FP.ringMessage = foot [.kind .HIF_PBA, .host, .out] := by decide +kernel

def FP.reportCycle : Nat := 0x1b800000000800000000000000000002000000000100380000

theorem FP.reportCycle_eq : FP.reportCycle =
  foot [.kind .EVT_FIRST_SEQ, .kind .EVT_FULL_DROP, .kind .EVT_LAST_SEQ, .kind .EVT_STAGE_DROP, .kind .EVT_STATUS, .kind .PART_BRM_RPT,
    .kind .PART_BRM_STAT, .out, .rcd, .watch, .wor] := by decide +kernel

def FP.advTo : Nat := 0x400

theorem FP.advTo_eq : FP.advTo = foot [.pass] := by decide +kernel

def FP.startBlend : Nat := 0x400000000000000000000000041000

theorem FP.startBlend_eq : FP.startBlend = foot [.kind .PWR_STAT, .pw, .seen] := by decide +kernel

def FP.endMove : Nat := 0x8400000000000000000000000040000

theorem FP.endMove_eq : FP.endMove = foot [.kind .PWR_OP, .kind .PWR_STAT, .pw] := by decide +kernel

def FP.periodic : Nat := 0x1400

theorem FP.periodic_eq : FP.periodic = foot [.pass, .seen] := by decide +kernel

def FP.wireQueue : Nat := 0x3c0000000000000100

theorem FP.wireQueue_eq : FP.wireQueue =
  foot [.kind .PART_Q_CFG, .kind .PART_Q_CREDIT, .kind .PART_Q_ENDS, .kind .PART_Q_OCC, .que] := by decide +kernel

def FP.loadProg : Nat := 0x10c000000000000000e0

theorem FP.loadProg_eq : FP.loadProg =
  foot [.kind .PART_ARR_STAT, .kind .PART_CORE_STAT, .kind .PART_STR_STAT, .arr, .core, .str] := by decide +kernel

def FP.placePhase : Nat := 0x80000b0fc00000000000101e0

theorem FP.placePhase_eq : FP.placePhase =
  foot [.kind .HIF_CTX_STATc, .kind .PART_ARR_STAT, .kind .PART_CORE_IPENDm, .kind .PART_CORE_ISTATm, .kind .PART_CORE_STAT, .kind
    .PART_Q_CFG, .kind .PART_Q_CREDIT, .kind .PART_Q_ENDS, .kind .PART_Q_OCC, .kind .PART_STR_STAT, .arr, .core, .host, .que, .str] := by decide +kernel

def FP.bindPhase : Nat := 0x41b0000030008000000000000080326b0fc00000001003901ea

theorem FP.bindPhase_eq : FP.bindPhase =
  foot [.kind .EVT_FIRST_SEQ, .kind .EVT_FULL_DROP, .kind .EVT_LAST_SEQ, .kind .EVT_STAGE_DROP, .kind .EVT_STATUS, .kind .HIF_CTX_STATc,
    .kind .MEM_CE_SR_p, .kind .MEM_CE_T0_c, .kind .MEM_CE_T1_c, .kind .MEM_ERRLOG, .kind .MEM_ERRLOG_STAT, .kind .MEM_STAT, .kind
    .MEM_VLT_STAT, .kind .PART_ARR_STAT, .kind .PART_CORE_IPENDm, .kind .PART_CORE_ISTATm, .kind .PART_CORE_MISC, .kind .PART_CORE_STAT,
    .kind .PART_Q_CFG, .kind .PART_Q_CREDIT, .kind .PART_Q_ENDS, .kind .PART_Q_OCC, .kind .PART_STR_STAT, .arr, .core, .host, .mem, .out,
    .que, .rcd, .str, .watch, .wor, .write] := by decide +kernel

def FP.testOutcome : Nat := 0x101b000000000800013000000020000000000000000100329000

theorem FP.testOutcome_eq : FP.testOutcome =
  foot [.kind .EVT_FIRST_SEQ, .kind .EVT_FULL_DROP, .kind .EVT_LAST_SEQ, .kind .EVT_STAGE_DROP, .kind .EVT_STATUS, .kind .FZ_PORT_STAT,
    .kind .HIF_BOOT_STATUS, .kind .HIF_PBA, .kind .RST_FAULT, .kind .RST_PIN_STAT, .ctl, .fab, .out, .rcd, .seen, .wor] := by decide +kernel

def FP.refreshClip : Nat := 0xc00000000000000000000000051000

theorem FP.refreshClip_eq : FP.refreshClip = foot [.kind .PWR_CLIP, .kind .PWR_STAT, .host, .pw, .seen] := by decide +kernel

def FP.enterHold : Nat := 0x400000000000000000000000049000

theorem FP.enterHold_eq : FP.enterHold = foot [.kind .PWR_STAT, .ctl, .pw, .seen] := by decide +kernel

def FP.qsSvc : Nat := 0x100000000000000000000100000000

theorem FP.qsSvc_eq : FP.qsSvc = foot [.kind .FZ_DROPk, .out] := by decide +kernel

def FP.qsRefresh : Nat := 0x10000000000400000000000000000000000000000000000

theorem FP.qsRefresh_eq : FP.qsRefresh = foot [.kind .RST_QS_MISS, .kind .RST_QS_STAT] := by decide +kernel

def FP.qsJoin : Nat := 0x10000000000400000000000000000000000000004801010

theorem FP.qsJoin_eq : FP.qsJoin = foot [.kind .RST_QS_MISS, .kind .RST_QS_STAT, .qs, .seen, .super, .vlt] := by decide +kernel

def FP.qsHave : Nat := 0x801000

theorem FP.qsHave_eq : FP.qsHave = foot [.qs, .seen] := by decide +kernel

def FP.qsBad : Nat := 0x400000000000000000000000000000800000

theorem FP.qsBad_eq : FP.qsBad = foot [.kind .RST_QS_STAT, .qs] := by decide +kernel

def FP.qsStore : Nat := 0x2000000000000000080101a

theorem FP.qsStore_eq : FP.qsStore = foot [.kind .MEM_VLT_STAT, .mem, .qs, .seen, .vlt, .write] := by decide +kernel

def FP.qsCheckData : Nat := 0x40000000000002000000000000000080101a

theorem FP.qsCheckData_eq : FP.qsCheckData =
  foot [.kind .MEM_VLT_STAT, .kind .RST_QS_STAT, .mem, .qs, .seen, .vlt, .write] := by decide +kernel

def FP.commitServing : Nat := 0x10000000000400000000000000000000000000004811010

theorem FP.commitServing_eq : FP.commitServing =
  foot [.kind .RST_QS_MISS, .kind .RST_QS_STAT, .host, .qs, .seen, .super, .vlt] := by decide +kernel

def FP.qsTake : Nat := 0x1000000000041000000000002000000000000000080901a

theorem FP.qsTake_eq : FP.qsTake =
  foot [.kind .HIF_BOOT_STATUS, .kind .MEM_VLT_STAT, .kind .RST_QS_MISS, .kind .RST_QS_STAT, .ctl, .mem, .qs, .seen, .vlt, .write] := by decide +kernel

def FP.qsAsk : Nat := 0x100800000

theorem FP.qsAsk_eq : FP.qsAsk = foot [.out, .qs] := by decide +kernel

def FP.qsFetch : Nat := 0x400000000000000000000000000100801000

theorem FP.qsFetch_eq : FP.qsFetch = foot [.kind .RST_QS_STAT, .out, .qs, .seen] := by decide +kernel

def FP.qsIncomplete : Nat := 0x101b000000000800413000000000000000000000000102309000

theorem FP.qsIncomplete_eq : FP.qsIncomplete =
  foot [.kind .EVT_FIRST_SEQ, .kind .EVT_FULL_DROP, .kind .EVT_LAST_SEQ, .kind .EVT_STAGE_DROP, .kind .EVT_STATUS, .kind .HIF_BOOT_STATUS,
    .kind .HIF_PBA, .kind .RST_FAULT, .kind .RST_PIN_STAT, .kind .RST_QS_STAT, .ctl, .nor, .out, .rcd, .seen, .wor] := by decide +kernel

def FP.qsPass : Nat := 0x101b00000000084049b400000000020000000000000107ffba1d

theorem FP.qsPass_eq : FP.qsPass =
  foot [.kind .EVT_FIRST_SEQ, .kind .EVT_FULL_DROP, .kind .EVT_LAST_SEQ, .kind .EVT_STAGE_DROP, .kind .EVT_STATUS, .kind .HIF_BOOT_STATUS,
    .kind .HIF_PBA, .kind .MEM_VLT_STAT, .kind .RST_CAUSE, .kind .RST_ESC_STAT, .kind .RST_FAULT, .kind .RST_PIN_STAT, .kind .RST_QS_STAT,
    .kind .RST_REFCLK, .kind .RST_STRAP, .ctl, .draw, .fab, .host, .mem, .nor, .out, .pw, .qs, .rcd, .regsReset, .sec, .seen, .setTime,
    .super, .unitsReset, .upd, .vlt, .watch, .wipe, .wor] := by decide +kernel

def FP.qsFail : Nat := 0x101b000000000800413000000000000000000000000106b09010

theorem FP.qsFail_eq : FP.qsFail =
  foot [.kind .EVT_FIRST_SEQ, .kind .EVT_FULL_DROP, .kind .EVT_LAST_SEQ, .kind .EVT_STAGE_DROP, .kind .EVT_STATUS, .kind .HIF_BOOT_STATUS,
    .kind .HIF_PBA, .kind .RST_FAULT, .kind .RST_PIN_STAT, .kind .RST_QS_STAT, .ctl, .nor, .out, .qs, .rcd, .seen, .super, .vlt, .wor] := by decide +kernel

def FP.leaveHold : Nat := 0x59000

theorem FP.leaveHold_eq : FP.leaveHold = foot [.ctl, .host, .pw, .seen] := by decide +kernel

def FP.entryIrq : Nat := 0x1000000000000000000000000000000000000000000100011000

theorem FP.entryIrq_eq : FP.entryIrq = foot [.kind .HIF_PBA, .host, .out, .seen] := by decide +kernel

def FP.receiveGood : Nat := 0x1b000000000800000000100000000000000000000100320000

theorem FP.receiveGood_eq : FP.receiveGood =
  foot [.kind .EVT_FIRST_SEQ, .kind .EVT_FULL_DROP, .kind .EVT_LAST_SEQ, .kind .EVT_STAGE_DROP, .kind .EVT_STATUS, .kind .FZ_DROPk, .fab,
    .out, .rcd, .wor] := by decide +kernel

def FP.receivePkt : Nat := 0x1b000000000800000000100100000000000000000100320000

theorem FP.receivePkt_eq : FP.receivePkt =
  foot [.kind .EVT_FIRST_SEQ, .kind .EVT_FULL_DROP, .kind .EVT_LAST_SEQ, .kind .EVT_STAGE_DROP, .kind .EVT_STATUS, .kind .FZ_DROPk, .kind
    .FZ_PORT_CNTk, .fab, .out, .rcd, .wor] := by decide +kernel

def FP.publishStream : Nat := 0x41b0000030008000000000000000326b0f300000001003f116a

theorem FP.publishStream_eq : FP.publishStream =
  foot [.kind .EVT_FIRST_SEQ, .kind .EVT_FULL_DROP, .kind .EVT_LAST_SEQ, .kind .EVT_STAGE_DROP, .kind .EVT_STATUS, .kind .MEM_CE_SR_p,
    .kind .MEM_CE_T0_c, .kind .MEM_CE_T1_c, .kind .MEM_ERRLOG, .kind .MEM_ERRLOG_STAT, .kind .MEM_STAT, .kind .MEM_VLT_STAT, .kind
    .PART_ARR_EXC, .kind .PART_ARR_RESCNT, .kind .PART_ARR_STAT, .kind .PART_CORE_IPENDm, .kind .PART_CORE_ISTATm, .kind .PART_CORE_MISC,
    .kind .PART_CORE_STAT, .kind .PART_Q_CREDIT, .kind .PART_Q_OCC, .kind .PART_STR_STAT, .arr, .core, .fab, .host, .mem, .out, .pw, .que,
    .rcd, .seen, .watch, .wor, .write] := by decide +kernel

def FP.makeStale : Nat := 0x2008

theorem FP.makeStale_eq : FP.makeStale = foot [.draw, .mem] := by decide +kernel

def FP.clearArr : Nat := 0x400000000000042028

theorem FP.clearArr_eq : FP.clearArr = foot [.kind .PART_ARR_STAT, .arr, .draw, .mem, .pw] := by decide +kernel

def FP.clearCore : Nat := 0x1f0000000000000002048

theorem FP.clearCore_eq : FP.clearCore =
  foot [.kind .PART_CORE_IMASKm, .kind .PART_CORE_IPENDm, .kind .PART_CORE_ISTATm, .kind .PART_CORE_MBOXn, .kind .PART_CORE_STAT, .core,
    .draw, .mem] := by decide +kernel

def FP.engineStage3 : Nat := 0x1b0000000008000000004000000001f8c000000001003da0e8

theorem FP.engineStage3_eq : FP.engineStage3 =
  foot [.kind .EVT_FIRST_SEQ, .kind .EVT_FULL_DROP, .kind .EVT_LAST_SEQ, .kind .EVT_STAGE_DROP, .kind .EVT_STATUS, .kind .PART_ARR_STAT,
    .kind .PART_CORE_IMASKm, .kind .PART_CORE_IPENDm, .kind .PART_CORE_ISTATm, .kind .PART_CORE_MBOXn, .kind .PART_CORE_STAT, .kind
    .PART_ENG_RST_STAT, .kind .PART_STR_STAT, .kind .PWR_STAT, .arr, .core, .ctl, .draw, .host, .mem, .out, .pw, .rcd, .str, .watch, .wor] := by decide +kernel

def FP.buildTopiary : Nat := 0x101b7c0000000803903000000000000000000000000100300000

theorem FP.buildTopiary_eq : FP.buildTopiary =
  foot [.kind .EVT_FIRST_SEQ, .kind .EVT_FULL_DROP, .kind .EVT_LAST_SEQ, .kind .EVT_STAGE_DROP, .kind .EVT_STATUS, .kind .HIF_PBA, .kind
    .PART_TOP_ARRn, .kind .PART_TOP_BAD_ARR, .kind .PART_TOP_BAD_CORE_HI, .kind .PART_TOP_BAD_CORE_LO, .kind .PART_TOP_BAD_STR, .kind
    .PART_TOP_COREg, .kind .PART_TOP_FUSE_ARR, .kind .PART_TOP_STAT, .kind .RST_FAULT, .kind .RST_PART_AVAIL, .kind .RST_PIN_STAT, .out,
    .rcd, .wor] := by decide +kernel

def FP.failChannels : Nat := 0x1000000000000000003000000000004400000000000100200000

theorem FP.failChannels_eq : FP.failChannels =
  foot [.kind .HIF_PBA, .kind .MEM_STAT, .kind .MEM_T1_RECAL_c, .kind .RST_FAULT, .kind .RST_PIN_STAT, .out, .wor] := by decide +kernel

def FP.upTraining : Nat := 0xa000000

theorem FP.upTraining_eq : FP.upTraining = foot [.nor, .settings] := by decide +kernel

def FP.coppiceCheck : Nat := 0x40000000000000000000000000000000000000

theorem FP.coppiceCheck_eq : FP.coppiceCheck = foot [.kind .RST_ESC_STAT] := by decide +kernel

def FP.partitionDone : Nat := 0x141b7c00030008439030000000000366a000000000010a38804a

theorem FP.partitionDone_eq : FP.partitionDone =
  foot [.kind .EVT_FIRST_SEQ, .kind .EVT_FULL_DROP, .kind .EVT_LAST_SEQ, .kind .EVT_STAGE_DROP, .kind .EVT_STATUS, .kind .HIF_PBA, .kind
    .MEM_CE_SR_p, .kind .MEM_CE_T0_c, .kind .MEM_CE_T1_c, .kind .MEM_ERRLOG, .kind .MEM_ERRLOG_STAT, .kind .MEM_STAT, .kind
    .MEM_T1_RECAL_c, .kind .MEM_VLT_STAT, .kind .PART_CORE_IPENDm, .kind .PART_CORE_ISTATm, .kind .PART_CORE_MISC, .kind .PART_TOP_ARRn,
    .kind .PART_TOP_BAD_ARR, .kind .PART_TOP_BAD_CORE_HI, .kind .PART_TOP_BAD_CORE_LO, .kind .PART_TOP_BAD_STR, .kind .PART_TOP_COREg,
    .kind .PART_TOP_FUSE_ARR, .kind .PART_TOP_STAT, .kind .RST_ESC_STAT, .kind .RST_FAULT, .kind .RST_PART_AVAIL, .kind .RST_PIN_STAT,
    .core, .ctl, .mem, .nor, .out, .rcd, .settings, .watch, .wor, .write] := by decide +kernel

def FP.climbPartition : Nat := 0x1b0000000008c01000006000080000b0f000000001003f923d

theorem FP.climbPartition_eq : FP.climbPartition =
  foot [.kind .EVT_FIRST_SEQ, .kind .EVT_FULL_DROP, .kind .EVT_LAST_SEQ, .kind .EVT_STAGE_DROP, .kind .EVT_STATUS, .kind .FZ_STREAMp,
    .kind .HIF_CTX_STATc, .kind .PART_ARR_STAT, .kind .PART_CORE_IPENDm, .kind .PART_CORE_ISTATm, .kind .PART_CORE_STAT, .kind
    .PART_Q_CREDIT, .kind .PART_Q_OCC, .kind .PART_STR_STAT, .kind .PWR_STAT, .kind .RST_ESC_LAST, .kind .RST_ESC_STAT, .kind
    .RST_PART_AVAIL, .arr, .ctl, .fab, .host, .mem, .out, .pw, .rcd, .regsReset, .seen, .unitsReset, .vlt, .watch, .wipe, .wor] := by decide +kernel

def FP.climbEngine : Nat := 0x1b0000000008c01000006000080000b8f000000001003f923d

theorem FP.climbEngine_eq : FP.climbEngine =
  foot [.kind .EVT_FIRST_SEQ, .kind .EVT_FULL_DROP, .kind .EVT_LAST_SEQ, .kind .EVT_STAGE_DROP, .kind .EVT_STATUS, .kind .FZ_STREAMp,
    .kind .HIF_CTX_STATc, .kind .PART_ARR_STAT, .kind .PART_CORE_IPENDm, .kind .PART_CORE_ISTATm, .kind .PART_CORE_STAT, .kind
    .PART_ENG_RST_STAT, .kind .PART_Q_CREDIT, .kind .PART_Q_OCC, .kind .PART_STR_STAT, .kind .PWR_STAT, .kind .RST_ESC_LAST, .kind
    .RST_ESC_STAT, .kind .RST_PART_AVAIL, .arr, .ctl, .fab, .host, .mem, .out, .pw, .rcd, .regsReset, .seen, .unitsReset, .vlt, .watch,
    .wipe, .wor] := by decide +kernel

def FP.climbModule : Nat := 0x101b0000000008c009b400000000000000000000000107ff9a1d

theorem FP.climbModule_eq : FP.climbModule =
  foot [.kind .EVT_FIRST_SEQ, .kind .EVT_FULL_DROP, .kind .EVT_LAST_SEQ, .kind .EVT_STAGE_DROP, .kind .EVT_STATUS, .kind .HIF_BOOT_STATUS,
    .kind .HIF_PBA, .kind .RST_CAUSE, .kind .RST_ESC_LAST, .kind .RST_ESC_STAT, .kind .RST_FAULT, .kind .RST_PIN_STAT, .kind .RST_REFCLK,
    .kind .RST_STRAP, .ctl, .fab, .host, .mem, .nor, .out, .pw, .qs, .rcd, .regsReset, .sec, .seen, .setTime, .super, .unitsReset, .upd,
    .vlt, .watch, .wipe, .wor] := by decide +kernel

def FP.stage3 : Nat := 0x101b00000000084019b4006000080001f8c00000000107ffbafd

theorem FP.stage3_eq : FP.stage3 =
  foot [.kind .EVT_FIRST_SEQ, .kind .EVT_FULL_DROP, .kind .EVT_LAST_SEQ, .kind .EVT_STAGE_DROP, .kind .EVT_STATUS, .kind .FZ_STREAMp,
    .kind .HIF_BOOT_STATUS, .kind .HIF_CTX_STATc, .kind .HIF_PBA, .kind .PART_ARR_STAT, .kind .PART_CORE_IMASKm, .kind .PART_CORE_IPENDm,
    .kind .PART_CORE_ISTATm, .kind .PART_CORE_MBOXn, .kind .PART_CORE_STAT, .kind .PART_ENG_RST_STAT, .kind .PART_STR_STAT, .kind
    .PWR_STAT, .kind .RST_CAUSE, .kind .RST_ESC_STAT, .kind .RST_FAULT, .kind .RST_PART_AVAIL, .kind .RST_PIN_STAT, .kind .RST_REFCLK,
    .kind .RST_STRAP, .arr, .core, .ctl, .draw, .fab, .host, .mem, .nor, .out, .pw, .qs, .rcd, .regsReset, .sec, .seen, .setTime, .str,
    .super, .unitsReset, .upd, .vlt, .watch, .wipe, .wor] := by decide +kernel

def FP.showOwner : Nat := 0x400000000000000000000000000000000000000

theorem FP.showOwner_eq : FP.showOwner = foot [.kind .RST_SEC] := by decide +kernel

def FP.upWor : Nat := 0x200000

theorem FP.upWor_eq : FP.upWor = foot [.wor] := by decide +kernel

def FP.enroll : Nat := 0x1b000000000c00000000000000000000000000000124300000

theorem FP.enroll_eq : FP.enroll =
  foot [.kind .EVT_FIRST_SEQ, .kind .EVT_FULL_DROP, .kind .EVT_LAST_SEQ, .kind .EVT_STAGE_DROP, .kind .EVT_STATUS, .kind .RST_SEC, .out,
    .ownerBlow, .rcd, .super, .wor] := by decide +kernel

def FP.revoke : Nat := 0x1b000000000c00000000000000000000000000000140300000

theorem FP.revoke_eq : FP.revoke =
  foot [.kind .EVT_FIRST_SEQ, .kind .EVT_FULL_DROP, .kind .EVT_LAST_SEQ, .kind .EVT_STAGE_DROP, .kind .EVT_STATUS, .kind .RST_SEC, .out,
    .ownerRevoke, .rcd, .wor] := by decide +kernel

def FP.challenge : Nat := 0x202000

theorem FP.challenge_eq : FP.challenge = foot [.draw, .wor] := by decide +kernel

def FP.clearRecorder : Nat := 0x1f000000000800000000000000000000000000000104300004

theorem FP.clearRecorder_eq : FP.clearRecorder =
  foot [.kind .EVT_CLEARS, .kind .EVT_FIRST_SEQ, .kind .EVT_FULL_DROP, .kind .EVT_LAST_SEQ, .kind .EVT_STAGE_DROP, .kind .EVT_STATUS,
    .out, .rcd, .super, .wipe, .wor] := by decide +kernel

def FP.pagesDue : Nat := 0x80000000000000002000000000000010430141a

theorem FP.pagesDue_eq : FP.pagesDue =
  foot [.kind .EVT_STATUS, .kind .MEM_VLT_STAT, .mem, .out, .pass, .rcd, .seen, .super, .vlt, .wor, .write] := by decide +kernel

def FP.failStart : Nat := 0x1b00000000080001000000000000000000000000010230d000

theorem FP.failStart_eq : FP.failStart =
  foot [.kind .EVT_FIRST_SEQ, .kind .EVT_FULL_DROP, .kind .EVT_LAST_SEQ, .kind .EVT_STAGE_DROP, .kind .EVT_STATUS, .kind .HIF_BOOT_STATUS,
    .ctl, .hs, .nor, .out, .rcd, .seen, .wor] := by decide +kernel

def FP.mountVault : Nat := 0x7800000000000000000000020000000000000004048010

theorem FP.mountVault_eq : FP.mountVault =
  foot [.kind .MEM_VLT_STAT, .kind .PWR_LIFE_DAMAGE, .kind .PWR_LIFE_N20, .kind .PWR_LIFE_N40, .kind .PWR_LIFE_N60, .ctl, .pw, .super,
    .vlt] := by decide +kernel

def FP.enterMinimal : Nat := 0x101b00780000080001b00000002002000000000000010636d010

theorem FP.enterMinimal_eq : FP.enterMinimal =
  foot [.kind .EVT_FIRST_SEQ, .kind .EVT_FULL_DROP, .kind .EVT_LAST_SEQ, .kind .EVT_STAGE_DROP, .kind .EVT_STATUS, .kind .FZ_PORT_STAT,
    .kind .HIF_BOOT_STATUS, .kind .HIF_PBA, .kind .MEM_VLT_STAT, .kind .PWR_LIFE_DAMAGE, .kind .PWR_LIFE_N20, .kind .PWR_LIFE_N40, .kind
    .PWR_LIFE_N60, .kind .RST_FAULT, .kind .RST_PIN_STAT, .kind .RST_REFCLK, .ctl, .fab, .hs, .nor, .out, .pw, .rcd, .seen, .super, .vlt,
    .wor] := by decide +kernel

def FP.resumeRecorder : Nat := 0x7000000000800000000000000000000000000000000100000

theorem FP.resumeRecorder_eq : FP.resumeRecorder =
  foot [.kind .EVT_CLEARS, .kind .EVT_FIRST_SEQ, .kind .EVT_LAST_SEQ, .kind .EVT_STATUS, .rcd] := by decide +kernel

def FP.readLatch : Nat := 0x1b000000000800004000000000000000000000000112304000

theorem FP.readLatch_eq : FP.readLatch =
  foot [.kind .EVT_FIRST_SEQ, .kind .EVT_FULL_DROP, .kind .EVT_LAST_SEQ, .kind .EVT_STAGE_DROP, .kind .EVT_STATUS, .kind .RST_LASTOFF,
    .hs, .latch, .nor, .out, .rcd, .wor] := by decide +kernel

def FP.startStep2 : Nat := 0x101f00780000080001f40000002002000000000000011636d010

theorem FP.startStep2_eq : FP.startStep2 =
  foot [.kind .EVT_CLEARS, .kind .EVT_FIRST_SEQ, .kind .EVT_FULL_DROP, .kind .EVT_LAST_SEQ, .kind .EVT_STAGE_DROP, .kind .EVT_STATUS,
    .kind .FZ_PORT_STAT, .kind .HIF_BOOT_STATUS, .kind .HIF_PBA, .kind .MEM_VLT_STAT, .kind .PWR_LIFE_DAMAGE, .kind .PWR_LIFE_N20, .kind
    .PWR_LIFE_N40, .kind .PWR_LIFE_N60, .kind .RST_FAULT, .kind .RST_LASTOFF, .kind .RST_PIN_STAT, .kind .RST_REFCLK, .kind .RST_STRAP,
    .ctl, .fab, .hs, .latch, .nor, .out, .pw, .rcd, .seen, .super, .vlt, .wor] := by decide +kernel

def FP.startStep4 : Nat := 0x18000000000000000000000000000001000

theorem FP.startStep4_eq : FP.startStep4 = foot [.kind .HIF_BOOT_STATUS, .kind .RST_REFCLK, .seen] := by decide +kernel

def FP.startStep5 : Nat := 0x101b00780000080001b40001002002000000000000010636d010

theorem FP.startStep5_eq : FP.startStep5 =
  foot [.kind .EVT_FIRST_SEQ, .kind .EVT_FULL_DROP, .kind .EVT_LAST_SEQ, .kind .EVT_STAGE_DROP, .kind .EVT_STATUS, .kind .FZ_MEMBER, .kind
    .FZ_PORT_STAT, .kind .HIF_BOOT_STATUS, .kind .HIF_PBA, .kind .MEM_VLT_STAT, .kind .PWR_LIFE_DAMAGE, .kind .PWR_LIFE_N20, .kind
    .PWR_LIFE_N40, .kind .PWR_LIFE_N60, .kind .RST_FAULT, .kind .RST_PIN_STAT, .kind .RST_REFCLK, .kind .RST_STRAP, .ctl, .fab, .hs, .nor,
    .out, .pw, .rcd, .seen, .super, .vlt, .wor] := by decide +kernel

def FP.loadFuses : Nat := 0x80000e0410000109c00000080000000000000000051000

theorem FP.loadFuses_eq : FP.loadFuses =
  foot [.kind .GRD_THRk, .kind .MEM_VLT_FUSE, .kind .PWR_CLIP, .kind .PWR_CLIP_IN, .kind .PWR_OP, .kind .PWR_OPVk, .kind .PWR_REGION,
    .kind .PWR_STAT, .kind .RST_PART_ID, .kind .RST_SEC, .kind .RST_SERIAL_HI, .kind .RST_SERIAL_LO, .host, .pw, .seen] := by decide +kernel

def FP.measureLadder : Nat := 0x1b000000000800010800000000000000000000000100308000

theorem FP.measureLadder_eq : FP.measureLadder =
  foot [.kind .EVT_FIRST_SEQ, .kind .EVT_FULL_DROP, .kind .EVT_LAST_SEQ, .kind .EVT_STAGE_DROP, .kind .EVT_STATUS, .kind .HIF_BOOT_STATUS,
    .kind .RST_LADDER, .ctl, .out, .rcd, .wor] := by decide +kernel

def FP.measureAgain : Nat := 0x1b000000000800000800000000000000000000000100300000

theorem FP.measureAgain_eq : FP.measureAgain =
  foot [.kind .EVT_FIRST_SEQ, .kind .EVT_FULL_DROP, .kind .EVT_LAST_SEQ, .kind .EVT_STAGE_DROP, .kind .EVT_STATUS, .kind .RST_LADDER,
    .out, .rcd, .wor] := by decide +kernel

def FP.resetSettings : Nat := 0x1000000000000000000000000000a000000

theorem FP.resetSettings_eq : FP.resetSettings = foot [.kind .HIF_BOOT_STATUS, .nor, .settings] := by decide +kernel

def FP.copyBack : Nat := 0x2000000

theorem FP.copyBack_eq : FP.copyBack = foot [.nor] := by decide +kernel

def FP.setFallback : Nat := 0x10000000000000000000000000000000002000000

theorem FP.setFallback_eq : FP.setFallback = foot [.kind .UPD_STAT, .nor] := by decide +kernel

def FP.revertUpd : Nat := 0x1b00000001080000000000000000000000000000010a300000

theorem FP.revertUpd_eq : FP.revertUpd =
  foot [.kind .EVT_FIRST_SEQ, .kind .EVT_FULL_DROP, .kind .EVT_LAST_SEQ, .kind .EVT_STAGE_DROP, .kind .EVT_STATUS, .kind .UPD_STAT, .nor,
    .out, .rcd, .settings, .wor] := by decide +kernel

def FP.startDeadline : Nat := 0x1000000000000000000000000000000010a201000

theorem FP.startDeadline_eq : FP.startDeadline = foot [.kind .UPD_STAT, .nor, .out, .seen, .settings, .wor] := by decide +kernel

def FP.settleSlot : Nat := 0x1b00000001080000000000000000000000000000010a301000

theorem FP.settleSlot_eq : FP.settleSlot =
  foot [.kind .EVT_FIRST_SEQ, .kind .EVT_FULL_DROP, .kind .EVT_LAST_SEQ, .kind .EVT_STAGE_DROP, .kind .EVT_STATUS, .kind .UPD_STAT, .nor,
    .out, .rcd, .seen, .settings, .wor] := by decide +kernel

def FP.bootFirmware : Nat := 0x115b00780001080001b00000002002000000000000010f36d010

theorem FP.bootFirmware_eq : FP.bootFirmware =
  foot [.kind .EVT_FIRST_SEQ, .kind .EVT_FULL_DROP, .kind .EVT_LAST_SEQ, .kind .EVT_STAGE_DROP, .kind .EVT_STATUS, .kind .FZ_PORT_STAT,
    .kind .HIF_BOOT_STATUS, .kind .HIF_PBA, .kind .MEM_VLT_STAT, .kind .PWR_LIFE_DAMAGE, .kind .PWR_LIFE_N20, .kind .PWR_LIFE_N40, .kind
    .PWR_LIFE_N60, .kind .RST_FAULT, .kind .RST_PIN_STAT, .kind .RST_REFCLK, .kind .UPD_STAT, .kind .UPD_SVN, .kind .UPD_VER_RUN, .ctl,
    .fab, .hs, .nor, .out, .pw, .rcd, .sec, .seen, .settings, .super, .vlt, .wor] := by decide +kernel

def FP.startStep6 : Nat := 0x1fffffffffffffffffffffffffffffffffff000000010f37d010

theorem FP.startStep6_eq : FP.startStep6 =
  allKinds ||| foot [.ctl, .fab, .host, .hs, .nor, .out, .pw, .rcd, .sec, .seen, .settings, .super, .vlt, .wor] := by decide +kernel

def FP.trainStart : Nat := 0x1b00000000080001000000000000000000000000010a308000

theorem FP.trainStart_eq : FP.trainStart =
  foot [.kind .EVT_FIRST_SEQ, .kind .EVT_FULL_DROP, .kind .EVT_LAST_SEQ, .kind .EVT_STAGE_DROP, .kind .EVT_STATUS, .kind .HIF_BOOT_STATUS,
    .ctl, .nor, .out, .rcd, .settings, .wor] := by decide +kernel

def FP.startStep7 : Nat := 0x101b0078000008400130000008a002440000000000010e369010

theorem FP.startStep7_eq : FP.startStep7 =
  foot [.kind .EVT_FIRST_SEQ, .kind .EVT_FULL_DROP, .kind .EVT_LAST_SEQ, .kind .EVT_STAGE_DROP, .kind .EVT_STATUS, .kind .FZ_PORT_FAR,
    .kind .FZ_PORT_STAT, .kind .FZ_SELF, .kind .HIF_BOOT_STATUS, .kind .HIF_PBA, .kind .MEM_STAT, .kind .MEM_T1_RECAL_c, .kind
    .MEM_VLT_STAT, .kind .PWR_LIFE_DAMAGE, .kind .PWR_LIFE_N20, .kind .PWR_LIFE_N40, .kind .PWR_LIFE_N60, .kind .RST_ESC_STAT, .kind
    .RST_FAULT, .kind .RST_PIN_STAT, .ctl, .fab, .nor, .out, .pw, .rcd, .seen, .settings, .super, .vlt, .wor] := by decide +kernel

def FP.testGuard : Nat := 0x1000000000000008003200400000000000000000000100200000

theorem FP.testGuard_eq : FP.testGuard =
  foot [.kind .GRD_CHc, .kind .HIF_PBA, .kind .PWR_HSd_h, .kind .PWR_STAT, .kind .RST_FAULT, .kind .RST_PIN_STAT, .out, .wor] := by decide +kernel

def FP.startStep8 : Nat := 0x101b7c000000080b91320040000000000000000000010a30d000

theorem FP.startStep8_eq : FP.startStep8 =
  foot [.kind .EVT_FIRST_SEQ, .kind .EVT_FULL_DROP, .kind .EVT_LAST_SEQ, .kind .EVT_STAGE_DROP, .kind .EVT_STATUS, .kind .GRD_CHc, .kind
    .HIF_BOOT_STATUS, .kind .HIF_PBA, .kind .PART_TOP_ARRn, .kind .PART_TOP_BAD_ARR, .kind .PART_TOP_BAD_CORE_HI, .kind
    .PART_TOP_BAD_CORE_LO, .kind .PART_TOP_BAD_STR, .kind .PART_TOP_COREg, .kind .PART_TOP_FUSE_ARR, .kind .PART_TOP_STAT, .kind
    .PWR_HSd_h, .kind .PWR_STAT, .kind .RST_FAULT, .kind .RST_PART_AVAIL, .kind .RST_PIN_STAT, .ctl, .hs, .nor, .out, .rcd, .seen,
    .settings, .wor] := by decide +kernel

def FP.startStep9 : Nat := 0x1b00000001080041000000000000000000000000010330d000

theorem FP.startStep9_eq : FP.startStep9 =
  foot [.kind .EVT_FIRST_SEQ, .kind .EVT_FULL_DROP, .kind .EVT_LAST_SEQ, .kind .EVT_STAGE_DROP, .kind .EVT_STATUS, .kind .HIF_BOOT_STATUS,
    .kind .RST_QS_STAT, .kind .UPD_STAT, .ctl, .hs, .nor, .out, .rcd, .sec, .seen, .wor] := by decide +kernel

def FP.enterReady : Nat := 0x11000000000000000000000000102219000

theorem FP.enterReady_eq : FP.enterReady =
  foot [.kind .HIF_BOOT_STATUS, .kind .RST_PIN_STAT, .ctl, .host, .nor, .out, .seen, .wor] := by decide +kernel

def FP.streamSend : Nat := 0x22000

theorem FP.streamSend_eq : FP.streamSend = foot [.draw, .fab] := by decide +kernel

def FP.freeIn : Nat := 0x200000000000000000000000020000

theorem FP.freeIn_eq : FP.freeIn = foot [.kind .FZ_STREAMp, .fab] := by decide +kernel

def FP.groupCredit : Nat := 0x41b0000030008000000000000000326b0f300000001003f016a

theorem FP.groupCredit_eq : FP.groupCredit =
  foot [.kind .EVT_FIRST_SEQ, .kind .EVT_FULL_DROP, .kind .EVT_LAST_SEQ, .kind .EVT_STAGE_DROP, .kind .EVT_STATUS, .kind .MEM_CE_SR_p,
    .kind .MEM_CE_T0_c, .kind .MEM_CE_T1_c, .kind .MEM_ERRLOG, .kind .MEM_ERRLOG_STAT, .kind .MEM_STAT, .kind .MEM_VLT_STAT, .kind
    .PART_ARR_EXC, .kind .PART_ARR_RESCNT, .kind .PART_ARR_STAT, .kind .PART_CORE_IPENDm, .kind .PART_CORE_ISTATm, .kind .PART_CORE_MISC,
    .kind .PART_CORE_STAT, .kind .PART_Q_CREDIT, .kind .PART_Q_OCC, .kind .PART_STR_STAT, .arr, .core, .fab, .host, .mem, .out, .pw, .que,
    .rcd, .watch, .wor, .write] := by decide +kernel

def FP.spillWrite : Nat := 0x2000000000000000000001a

theorem FP.spillWrite_eq : FP.spillWrite = foot [.kind .MEM_VLT_STAT, .mem, .vlt, .write] := by decide +kernel

def FP.strWrite : Nat := 0x41b0000030008000000000000000326b0f000000001003d007a

theorem FP.strWrite_eq : FP.strWrite =
  foot [.kind .EVT_FIRST_SEQ, .kind .EVT_FULL_DROP, .kind .EVT_LAST_SEQ, .kind .EVT_STAGE_DROP, .kind .EVT_STATUS, .kind .MEM_CE_SR_p,
    .kind .MEM_CE_T0_c, .kind .MEM_CE_T1_c, .kind .MEM_ERRLOG, .kind .MEM_ERRLOG_STAT, .kind .MEM_STAT, .kind .MEM_VLT_STAT, .kind
    .PART_ARR_STAT, .kind .PART_CORE_IPENDm, .kind .PART_CORE_ISTATm, .kind .PART_CORE_MISC, .kind .PART_CORE_STAT, .kind .PART_Q_CREDIT,
    .kind .PART_Q_OCC, .kind .PART_STR_STAT, .arr, .core, .host, .mem, .out, .pw, .rcd, .vlt, .watch, .wor, .write] := by decide +kernel

def FP.stallP : Nat := 0x10e00000000000040020

theorem FP.stallP_eq : FP.stallP =
  foot [.kind .PART_ARR_STAT, .kind .PART_CORE_STAT, .kind .PART_Q_CREDIT, .kind .PART_STR_STAT, .arr, .pw] := by decide +kernel

def FP.strFlush : Nat := 0x41b0000030008000000000000000126b0e000000001003c01ea

theorem FP.strFlush_eq : FP.strFlush =
  foot [.kind .EVT_FIRST_SEQ, .kind .EVT_FULL_DROP, .kind .EVT_LAST_SEQ, .kind .EVT_STAGE_DROP, .kind .EVT_STATUS, .kind .MEM_CE_SR_p,
    .kind .MEM_CE_T0_c, .kind .MEM_CE_T1_c, .kind .MEM_ERRLOG, .kind .MEM_ERRLOG_STAT, .kind .MEM_STAT, .kind .PART_ARR_STAT, .kind
    .PART_CORE_IPENDm, .kind .PART_CORE_ISTATm, .kind .PART_CORE_MISC, .kind .PART_CORE_STAT, .kind .PART_Q_CREDIT, .kind .PART_STR_STAT,
    .arr, .core, .mem, .out, .pw, .que, .rcd, .str, .watch, .wor, .write] := by decide +kernel

def FP.strGather : Nat := 0x41b0000030008000000000000000326b0f000000001003d01ea

theorem FP.strGather_eq : FP.strGather =
  foot [.kind .EVT_FIRST_SEQ, .kind .EVT_FULL_DROP, .kind .EVT_LAST_SEQ, .kind .EVT_STAGE_DROP, .kind .EVT_STATUS, .kind .MEM_CE_SR_p,
    .kind .MEM_CE_T0_c, .kind .MEM_CE_T1_c, .kind .MEM_ERRLOG, .kind .MEM_ERRLOG_STAT, .kind .MEM_STAT, .kind .MEM_VLT_STAT, .kind
    .PART_ARR_STAT, .kind .PART_CORE_IPENDm, .kind .PART_CORE_ISTATm, .kind .PART_CORE_MISC, .kind .PART_CORE_STAT, .kind .PART_Q_CREDIT,
    .kind .PART_Q_OCC, .kind .PART_STR_STAT, .arr, .core, .host, .mem, .out, .pw, .que, .rcd, .str, .watch, .wor, .write] := by decide +kernel

def FP.strPut : Nat := 0x41b0000030008000000000000000326b0f000000001003d00fa

theorem FP.strPut_eq : FP.strPut =
  foot [.kind .EVT_FIRST_SEQ, .kind .EVT_FULL_DROP, .kind .EVT_LAST_SEQ, .kind .EVT_STAGE_DROP, .kind .EVT_STATUS, .kind .MEM_CE_SR_p,
    .kind .MEM_CE_T0_c, .kind .MEM_CE_T1_c, .kind .MEM_ERRLOG, .kind .MEM_ERRLOG_STAT, .kind .MEM_STAT, .kind .MEM_VLT_STAT, .kind
    .PART_ARR_STAT, .kind .PART_CORE_IPENDm, .kind .PART_CORE_ISTATm, .kind .PART_CORE_MISC, .kind .PART_CORE_STAT, .kind .PART_Q_CREDIT,
    .kind .PART_Q_OCC, .kind .PART_STR_STAT, .arr, .core, .host, .mem, .out, .pw, .rcd, .str, .vlt, .watch, .wor, .write] := by decide +kernel

def FP.copyRow : Nat := 0x41b0000030008000000000000000326b0f000000001003d01fa

theorem FP.copyRow_eq : FP.copyRow =
  foot [.kind .EVT_FIRST_SEQ, .kind .EVT_FULL_DROP, .kind .EVT_LAST_SEQ, .kind .EVT_STAGE_DROP, .kind .EVT_STATUS, .kind .MEM_CE_SR_p,
    .kind .MEM_CE_T0_c, .kind .MEM_CE_T1_c, .kind .MEM_ERRLOG, .kind .MEM_ERRLOG_STAT, .kind .MEM_STAT, .kind .MEM_VLT_STAT, .kind
    .PART_ARR_STAT, .kind .PART_CORE_IPENDm, .kind .PART_CORE_ISTATm, .kind .PART_CORE_MISC, .kind .PART_CORE_STAT, .kind .PART_Q_CREDIT,
    .kind .PART_Q_OCC, .kind .PART_STR_STAT, .arr, .core, .host, .mem, .out, .pw, .que, .rcd, .str, .vlt, .watch, .wor, .write] := by decide +kernel

def FP.strNext : Nat := 0x800000000000000080

theorem FP.strNext_eq : FP.strNext = foot [.kind .PART_STR_STAT, .str] := by decide +kernel

def FP.strStep : Nat := 0x41b0000030008000000000000000326b0f300000001003d11fa

theorem FP.strStep_eq : FP.strStep =
  foot [.kind .EVT_FIRST_SEQ, .kind .EVT_FULL_DROP, .kind .EVT_LAST_SEQ, .kind .EVT_STAGE_DROP, .kind .EVT_STATUS, .kind .MEM_CE_SR_p,
    .kind .MEM_CE_T0_c, .kind .MEM_CE_T1_c, .kind .MEM_ERRLOG, .kind .MEM_ERRLOG_STAT, .kind .MEM_STAT, .kind .MEM_VLT_STAT, .kind
    .PART_ARR_EXC, .kind .PART_ARR_RESCNT, .kind .PART_ARR_STAT, .kind .PART_CORE_IPENDm, .kind .PART_CORE_ISTATm, .kind .PART_CORE_MISC,
    .kind .PART_CORE_STAT, .kind .PART_Q_CREDIT, .kind .PART_Q_OCC, .kind .PART_STR_STAT, .arr, .core, .host, .mem, .out, .pw, .que, .rcd,
    .seen, .str, .vlt, .watch, .wor, .write] := by decide +kernel

def FP.strEnd : Nat := 0x41b0000030008000000000000000326b0f300000001003d11ea

theorem FP.strEnd_eq : FP.strEnd =
  foot [.kind .EVT_FIRST_SEQ, .kind .EVT_FULL_DROP, .kind .EVT_LAST_SEQ, .kind .EVT_STAGE_DROP, .kind .EVT_STATUS, .kind .MEM_CE_SR_p,
    .kind .MEM_CE_T0_c, .kind .MEM_CE_T1_c, .kind .MEM_ERRLOG, .kind .MEM_ERRLOG_STAT, .kind .MEM_STAT, .kind .MEM_VLT_STAT, .kind
    .PART_ARR_EXC, .kind .PART_ARR_RESCNT, .kind .PART_ARR_STAT, .kind .PART_CORE_IPENDm, .kind .PART_CORE_ISTATm, .kind .PART_CORE_MISC,
    .kind .PART_CORE_STAT, .kind .PART_Q_CREDIT, .kind .PART_Q_OCC, .kind .PART_STR_STAT, .arr, .core, .host, .mem, .out, .pw, .que, .rcd,
    .seen, .str, .watch, .wor, .write] := by decide +kernel

def FP.passVisit : Nat := 0x1000000000000000000008

theorem FP.passVisit_eq : FP.passVisit = foot [.kind .MEM_SCRUB_STATt, .mem] := by decide +kernel

def FP.memVisit : Nat := 0x41b0000030008000000000000000136a000000000010038004a

theorem FP.memVisit_eq : FP.memVisit =
  foot [.kind .EVT_FIRST_SEQ, .kind .EVT_FULL_DROP, .kind .EVT_LAST_SEQ, .kind .EVT_STAGE_DROP, .kind .EVT_STATUS, .kind .MEM_CE_SR_p,
    .kind .MEM_CE_T0_c, .kind .MEM_CE_T1_c, .kind .MEM_ERRLOG, .kind .MEM_ERRLOG_STAT, .kind .MEM_SCRUB_STATt, .kind .MEM_STAT, .kind
    .PART_CORE_IPENDm, .kind .PART_CORE_ISTATm, .kind .PART_CORE_MISC, .core, .mem, .out, .rcd, .watch, .wor, .write] := by decide +kernel

def FP.runFw : Nat := 0x40000000000000000000000000000000000000000001008000

theorem FP.runFw_eq : FP.runFw = foot [.kind .UPD_VER_RUN, .ctl, .sec] := by decide +kernel

def FP.revertNow : Nat := 0x5b00000001080000000000000000000000000000010b308000

theorem FP.revertNow_eq : FP.revertNow =
  foot [.kind .EVT_FIRST_SEQ, .kind .EVT_FULL_DROP, .kind .EVT_LAST_SEQ, .kind .EVT_STAGE_DROP, .kind .EVT_STATUS, .kind .UPD_STAT, .kind
    .UPD_VER_RUN, .ctl, .nor, .out, .rcd, .sec, .settings, .wor] := by decide +kernel

def FP.abortAct : Nat := 0x1b000000010800000000000000000000000000000100300000

theorem FP.abortAct_eq : FP.abortAct =
  foot [.kind .EVT_FIRST_SEQ, .kind .EVT_FULL_DROP, .kind .EVT_LAST_SEQ, .kind .EVT_STAGE_DROP, .kind .EVT_STATUS, .kind .UPD_STAT, .out,
    .rcd, .wor] := by decide +kernel

def FP.activateFw : Nat := 0x5b00000001080000000000000000000000000000010b309000

theorem FP.activateFw_eq : FP.activateFw =
  foot [.kind .EVT_FIRST_SEQ, .kind .EVT_FULL_DROP, .kind .EVT_LAST_SEQ, .kind .EVT_STAGE_DROP, .kind .EVT_STATUS, .kind .UPD_STAT, .kind
    .UPD_VER_RUN, .ctl, .nor, .out, .rcd, .sec, .seen, .settings, .wor] := by decide +kernel

def FP.activationFires : Nat := 0x105b00000001084009b40000000000000000000000010fff9a1d

theorem FP.activationFires_eq : FP.activationFires =
  foot [.kind .EVT_FIRST_SEQ, .kind .EVT_FULL_DROP, .kind .EVT_LAST_SEQ, .kind .EVT_STAGE_DROP, .kind .EVT_STATUS, .kind .HIF_BOOT_STATUS,
    .kind .HIF_PBA, .kind .RST_CAUSE, .kind .RST_ESC_STAT, .kind .RST_FAULT, .kind .RST_PIN_STAT, .kind .RST_REFCLK, .kind .RST_STRAP,
    .kind .UPD_STAT, .kind .UPD_VER_RUN, .ctl, .fab, .host, .mem, .nor, .out, .pw, .qs, .rcd, .regsReset, .sec, .seen, .setTime,
    .settings, .super, .unitsReset, .upd, .vlt, .watch, .wipe, .wor] := by decide +kernel

def FP.planSwitch : Nat := 0x1b000000000800000000000000020000000000000104b11018

theorem FP.planSwitch_eq : FP.planSwitch =
  foot [.kind .EVT_FIRST_SEQ, .kind .EVT_FULL_DROP, .kind .EVT_LAST_SEQ, .kind .EVT_STAGE_DROP, .kind .EVT_STATUS, .kind .MEM_VLT_STAT,
    .host, .mem, .out, .qs, .rcd, .seen, .super, .vlt, .wor] := by decide +kernel

def FP.answer : Nat := 0x200000000000000000000000000000100200000

theorem FP.answer_eq : FP.answer = foot [.kind .RST_WOR_STATp, .out, .wor] := by decide +kernel

def FP.actCmd : Nat := 0x1b000000000a00000000000000000000000000000100300000

theorem FP.actCmd_eq : FP.actCmd =
  foot [.kind .EVT_FIRST_SEQ, .kind .EVT_FULL_DROP, .kind .EVT_LAST_SEQ, .kind .EVT_STAGE_DROP, .kind .EVT_STATUS, .kind .RST_WOR_STATp,
    .out, .rcd, .wor] := by decide +kernel

def FP.leaseClaim : Nat := 0x1b000000000900000000000000000000000000000100301000

theorem FP.leaseClaim_eq : FP.leaseClaim =
  foot [.kind .EVT_FIRST_SEQ, .kind .EVT_FULL_DROP, .kind .EVT_LAST_SEQ, .kind .EVT_STAGE_DROP, .kind .EVT_STATUS, .kind .RST_LEASE, .out,
    .rcd, .seen, .wor] := by decide +kernel

def FP.setLevel : Nat := 0x1b000000000800000000c00000000000000000000100351000

theorem FP.setLevel_eq : FP.setLevel =
  foot [.kind .EVT_FIRST_SEQ, .kind .EVT_FULL_DROP, .kind .EVT_LAST_SEQ, .kind .EVT_STAGE_DROP, .kind .EVT_STATUS, .kind .PWR_CLIP, .kind
    .PWR_STAT, .host, .out, .pw, .rcd, .seen, .wor] := by decide +kernel

def FP.setCeil : Nat := 0x1b000000000800000008000000000000000000000100340000

theorem FP.setCeil_eq : FP.setCeil =
  foot [.kind .EVT_FIRST_SEQ, .kind .EVT_FULL_DROP, .kind .EVT_LAST_SEQ, .kind .EVT_STAGE_DROP, .kind .EVT_STATUS, .kind .PWR_OP, .out,
    .pw, .rcd, .wor] := by decide +kernel

def FP.flowPut : Nat := 0x1b000000000800000012c00000000000000000000100351000

theorem FP.flowPut_eq : FP.flowPut =
  foot [.kind .EVT_FIRST_SEQ, .kind .EVT_FULL_DROP, .kind .EVT_LAST_SEQ, .kind .EVT_STAGE_DROP, .kind .EVT_STATUS, .kind .PWR_CLIP, .kind
    .PWR_CLIP_DER, .kind .PWR_COOL, .kind .PWR_STAT, .host, .out, .pw, .rcd, .seen, .wor] := by decide +kernel

def FP.renewMember : Nat := 0x1000000000000000003000010000000000000000000100220000

theorem FP.renewMember_eq : FP.renewMember =
  foot [.kind .FZ_MEMBER, .kind .HIF_PBA, .kind .RST_FAULT, .kind .RST_PIN_STAT, .fab, .out, .wor] := by decide +kernel

def FP.readmitNow : Nat := 0x101b0000000008400130000048a000000000000000010a329000

theorem FP.readmitNow_eq : FP.readmitNow =
  foot [.kind .EVT_FIRST_SEQ, .kind .EVT_FULL_DROP, .kind .EVT_LAST_SEQ, .kind .EVT_STAGE_DROP, .kind .EVT_STATUS, .kind .FZ_BANK_STAT,
    .kind .FZ_PORT_FAR, .kind .FZ_PORT_STAT, .kind .FZ_SELF, .kind .HIF_BOOT_STATUS, .kind .HIF_PBA, .kind .RST_ESC_STAT, .kind
    .RST_FAULT, .kind .RST_PIN_STAT, .ctl, .fab, .nor, .out, .rcd, .seen, .settings, .wor] := by decide +kernel

end Sys2Proof.Machine
end

