-- ==== Sys2Proof/Laws/Foot1.lean ====
section
/-!
SUPPORT. Footprints of the shared operations, part 1: one lemma per operation, which says everything that it can change.
-/

namespace Sys2Proof.Machine

variable {o : State}

theorem send_in (x) : Within (FP.send) (send x : M o _) := by
  unfold send
  try dsimp only
  repeat' (first
    | intro _ | (with_reducible apply within_bind) | (with_reducible exact within_pure _) | (with_reducible exact within_st)
    | (with_reducible exact within_rd _) | (with_reducible exact within_now) | ((with_reducible refine eff_in .out rfl ?_); rfl) | split)

theorem notice_in (code pay) : Within (FP.notice) (notice code pay : M o _) := by
  unfold notice
  try dsimp only
  repeat' (first
    | intro _ | (with_reducible apply within_bind) | (with_reducible exact within_pure _) | (with_reducible exact within_st)
    | (with_reducible exact within_rd _) | (with_reducible exact within_now) | ((with_reducible refine (send_in ..).mono ?_); rfl)
    | ((with_reducible refine eff_in .wor rfl ?_); rfl) | split)

theorem recorderFull_in : Within (FP.recorderFull) (recorderFull : M o _) := by
  unfold recorderFull
  try dsimp only
  repeat' (first
    | intro _ | (with_reducible apply within_bind) | (with_reducible exact within_pure _) | (with_reducible exact within_st)
    | (with_reducible exact within_rd _) | (with_reducible exact within_now)
    | ((with_reducible refine setF_in .EVT_STATUS rfl ?_) <;> rfl) | ((with_reducible refine (notice_in ..).mono ?_); rfl) | split)

theorem closePage_in : Within (FP.closePage) (closePage : M o _) := by
  unfold closePage
  try dsimp only
  repeat' (first
    | intro _ | (with_reducible apply within_bind) | (with_reducible exact within_pure _) | (with_reducible exact within_st)
    | (with_reducible exact within_rd _) | (with_reducible exact within_now) | ((with_reducible refine (recorderFull_in).mono ?_); rfl)
    | ((with_reducible refine eff_in .rcd rfl ?_); rfl) | split)

theorem evRaw_in (code srck src items) : Within (FP.evRaw) (evRaw code srck src items : M o _) := by
  unfold evRaw
  try dsimp only
  repeat' (first
    | intro _ | (with_reducible apply within_bind) | (with_reducible exact within_pure _) | (with_reducible exact within_st)
    | (with_reducible exact within_rd _) | (with_reducible exact within_now)
    | ((with_reducible refine incSat_in .EVT_FULL_DROP rfl ?_) <;> rfl)
    | ((with_reducible refine incSat_in .EVT_STAGE_DROP rfl ?_) <;> rfl) | ((with_reducible refine (closePage_in).mono ?_); rfl)
    | ((with_reducible refine (recorderFull_in).mono ?_); rfl) | ((with_reducible refine setF_in .EVT_STATUS rfl ?_) <;> rfl)
    | ((with_reducible refine wr_in .EVT_FIRST_SEQ rfl ?_); rfl) | ((with_reducible refine wr_in .EVT_LAST_SEQ rfl ?_); rfl)
    | ((with_reducible refine wr_in .EVT_STATUS rfl ?_); rfl) | ((with_reducible refine eff_in .rcd rfl ?_); rfl)
    | (with_reducible apply within_when) | split)

theorem flushMerge_in (k) : Within (FP.evRaw) (flushMerge k : M o _) := by
  unfold flushMerge
  try dsimp only
  repeat' (first
    | intro _ | (with_reducible apply within_bind) | (with_reducible exact within_pure _) | (with_reducible exact within_st)
    | (with_reducible exact within_rd _) | (with_reducible exact within_now) | ((with_reducible refine (evRaw_in ..).mono ?_); rfl)
    | ((with_reducible refine eff_in .rcd rfl ?_); rfl) | split)

theorem writeRec_in (k target v res) : Within (FP.evRaw) (writeRec k target v res : M o _) := by
  unfold writeRec
  try dsimp only
  repeat' (first
    | intro _ | (with_reducible apply within_bind) | (with_reducible exact within_pure _) | (with_reducible exact within_st)
    | (with_reducible exact within_rd _) | (with_reducible exact within_now) | ((with_reducible refine (flushMerge_in ..).mono ?_); rfl)
    | ((with_reducible refine eff_in .rcd rfl ?_); rfl) | split)

theorem wordRec_in (src off v res) : Within (FP.evRaw) (wordRec src off v res : M o _) := by
  unfold wordRec
  try dsimp only
  repeat' (first
    | intro _ | (with_reducible apply within_bind) | (with_reducible exact within_pure _) | (with_reducible exact within_st)
    | (with_reducible exact within_rd _) | (with_reducible exact within_now) | ((with_reducible refine (writeRec_in ..).mono ?_); rfl)
    | (with_reducible apply within_when) | ((with_reducible refine (evRaw_in ..).mono ?_); rfl)
    | split)

theorem barAccess_in {fp : Nat} {src off v} {m} (hm : FP.evRaw &&& fp = FP.evRaw) (hb : Within fp m) :
    Within fp (barAccess src off v m : M o _) := by
  unfold barAccess
  try dsimp only
  repeat' (first
    | with_reducible exact hb | with_reducible exact hb _ | intro _ | (with_reducible apply within_bind)
    | (with_reducible exact within_pure _) | (with_reducible exact within_st) | (with_reducible exact within_rd _)
    | (with_reducible exact within_now) | ((with_reducible refine (wordRec_in ..).mono ?_); exact sub_trans rfl hm)
    | ((with_reducible refine (send_in ..).mono ?_); exact sub_trans rfl hm) | split)

theorem recorded_in {fp : Nat} {src off v} {put} (hm : FP.evRaw &&& fp = FP.evRaw) (hb : Within fp put) :
    Within fp (recorded src off v put : M o _) := by
  unfold recorded
  try dsimp only
  repeat' (first
    | with_reducible exact hb | with_reducible exact hb _ | intro _ | (with_reducible apply within_bind)
    | (with_reducible exact within_pure _) | (with_reducible exact within_st) | (with_reducible exact within_rd _)
    | (with_reducible exact within_now) | ((with_reducible refine barAccess_in ?_ ?_) <;> [exact sub_trans rfl hm; skip])
    | ((with_reducible refine (wordRec_in ..).mono ?_); exact sub_trans rfl hm) | split)

theorem regResult_in {fp : Nat} {k v} {put} (hm : FP.regResult &&& fp = FP.regResult) (hb : Within fp put) :
    Within fp (regResult k v put : M o _) := by
  unfold regResult
  try dsimp only
  repeat' (first
    | with_reducible exact hb | with_reducible exact hb _ | intro _ | (with_reducible apply within_bind)
    | (with_reducible exact within_pure _) | (with_reducible exact within_st) | (with_reducible exact within_rd _)
    | (with_reducible exact within_now) | split)

theorem barReg_in {fp : Nat} {src k ix v} {put} (hm : FP.evRaw &&& fp = FP.evRaw) (hb : Within fp put) :
    Within fp (barReg src k ix v put : M o _) := by
  unfold barReg
  try dsimp only
  repeat' (first
    | with_reducible exact hb | with_reducible exact hb _ | intro _ | (with_reducible apply within_bind)
    | (with_reducible exact within_pure _) | (with_reducible exact within_st) | (with_reducible exact within_rd _)
    | (with_reducible exact within_now) | ((with_reducible refine recorded_in ?_ ?_) <;> [exact sub_trans rfl hm; skip])
    | ((with_reducible refine regResult_in ?_ ?_) <;> [exact sub_trans rfl hm; skip]) | split)

theorem wrs_nil_in {fp : Nat} : Within fp (wrs [] : M o _) := within_pure ()

theorem wrs_in {fp : Nat} (k : RegKind) {f : Fld} {v : Nat} {l : List (Fld × Nat)} (hk : f.k = k) (h : fp.testBit (64 + k.ctorIdx) = true)
    (hl : Within fp (wrs l : M o _)) : Within fp (wrs ((f, v) :: l) : M o _) :=
  within_bind (wr_in k hk h) fun _ => hl

theorem showRecord_in : Within (FP.showRecord) (showRecord : M o _) := by
  unfold showRecord
  try dsimp only
  repeat' (first
    | intro _ | (with_reducible apply within_bind) | (with_reducible exact within_pure _) | (with_reducible exact within_st)
    | (with_reducible exact within_rd _) | (with_reducible exact within_now) | (with_reducible exact wrs_nil_in)
    | ((with_reducible refine wrs_in .HIF_BOOT_STATUS rfl ?_ ?_); rfl) | split)

theorem clearFails_in : Within (FP.clearFails) (clearFails : M o _) := by
  unfold clearFails
  try dsimp only
  repeat' (first
    | intro _ | (with_reducible apply within_bind) | (with_reducible exact within_pure _) | (with_reducible exact within_st)
    | (with_reducible exact within_rd _) | (with_reducible exact within_now) | ((with_reducible refine (showRecord_in).mono ?_); rfl)
    | ((with_reducible refine eff_in .nor rfl ?_); rfl) | split)

theorem takeTokens_in (code n) : Within (FP.takeTokens) (takeTokens code n : M o _) := by
  unfold takeTokens
  try dsimp only
  repeat' (first
    | intro _ | (with_reducible apply within_bind) | (with_reducible exact within_pure _) | (with_reducible exact within_st)
    | (with_reducible exact within_rd _) | (with_reducible exact within_now) | ((with_reducible refine eff_in .rcd rfl ?_); rfl) | split)

theorem ev_in (code srck src items) : Within (FP.evRaw) (ev code srck src items : M o _) := by
  unfold ev
  try dsimp only
  repeat' (first
    | intro _ | (with_reducible apply within_bind) | (with_reducible exact within_pure _) | (with_reducible exact within_st)
    | (with_reducible exact within_rd _) | (with_reducible exact within_now) | ((with_reducible refine (takeTokens_in ..).mono ?_); rfl)
    | ((with_reducible refine (evRaw_in ..).mono ?_); rfl) | split)

theorem rungTaken_in (depth unit code inWin) : Within (FP.rungTaken) (rungTaken depth unit code inWin : M o _) := by
  unfold rungTaken
  try dsimp only
  repeat' (first
    | intro _ | (with_reducible apply within_bind) | (with_reducible exact within_pure _) | (with_reducible exact within_st)
    | (with_reducible exact within_rd _) | (with_reducible exact within_now) | ((with_reducible refine (ev_in ..).mono ?_); rfl)
    | ((with_reducible refine incSat_in .RST_ESC_STAT rfl ?_) <;> rfl) | (with_reducible exact wrs_nil_in)
    | ((with_reducible refine wrs_in .RST_ESC_LAST rfl ?_ ?_); rfl) | ((with_reducible refine wr_in .RST_ESC_STAT rfl ?_); rfl) | split)

theorem resetEvent_in (depth dom src kind res) : Within (FP.evRaw) (resetEvent depth dom src kind res : M o _) := by
  unfold resetEvent
  try dsimp only
  repeat' (first
    | intro _ | (with_reducible apply within_bind) | (with_reducible exact within_pure _) | (with_reducible exact within_st)
    | (with_reducible exact within_rd _) | (with_reducible exact within_now) | ((with_reducible refine (ev_in ..).mono ?_); rfl) | split)

theorem saveSuper_in : Within (FP.saveSuper) (saveSuper : M o _) := by
  unfold saveSuper
  try dsimp only
  repeat' (first
    | intro _ | (with_reducible apply within_bind) | (with_reducible exact within_pure _) | (with_reducible exact within_st)
    | (with_reducible exact within_rd _) | (with_reducible exact within_now) | ((with_reducible refine eff_in .super rfl ?_); rfl)
    | (with_reducible apply within_when) | split)

theorem mark_in (key) : Within (FP.mark) (mark key : M o _) := by
  unfold mark
  try dsimp only
  repeat' (first
    | intro _ | (with_reducible apply within_bind) | (with_reducible exact within_pure _) | (with_reducible exact within_st)
    | (with_reducible exact within_rd _) | (with_reducible exact within_now) | ((with_reducible refine eff_in .seen rfl ?_); rfl) | split)

theorem commitJournal_in : Within (FP.commitJournal) (commitJournal : M o _) := by
  unfold commitJournal
  try dsimp only
  repeat' (first
    | intro _ | (with_reducible apply within_bind) | (with_reducible exact within_pure _) | (with_reducible exact within_st)
    | (with_reducible exact within_rd _) | (with_reducible exact within_now) | ((with_reducible refine (mark_in ..).mono ?_); rfl)
    | ((with_reducible refine eff_in .host rfl ?_); rfl) | ((with_reducible refine eff_in .qs rfl ?_); rfl)
    | ((with_reducible refine eff_in .super rfl ?_); rfl) | ((with_reducible refine eff_in .vlt rfl ?_); rfl)
    | (with_reducible apply within_when) | split)

theorem repairRows_in : Within (FP.repairRows) (repairRows : M o _) := by
  unfold repairRows
  try dsimp only
  repeat' (first
    | intro _ | (with_reducible apply within_bind) | (with_reducible exact within_pure _) | (with_reducible exact within_st)
    | (with_reducible exact within_rd _) | (with_reducible exact within_now) | ((with_reducible refine (ev_in ..).mono ?_); rfl)
    | ((with_reducible refine eff_in .nor rfl ?_); rfl) | (with_reducible apply within_when) | split)

theorem sendMsix_in (v) : Within (FP.sendMsix) (sendMsix v : M o _) := by
  unfold sendMsix
  try dsimp only
  repeat' (first
    | intro _ | (with_reducible apply within_bind) | (with_reducible exact within_pure _) | (with_reducible exact within_st)
    | (with_reducible exact within_rd _) | (with_reducible exact within_now) | ((with_reducible refine (send_in ..).mono ?_); rfl)
    | ((with_reducible refine wr_in .HIF_PBA rfl ?_); rfl) | split)

theorem alert_in : Within (FP.sendMsix) (alert : M o _) := by
  unfold alert
  try dsimp only
  repeat' (first
    | intro _ | (with_reducible apply within_bind) | (with_reducible exact within_pure _) | (with_reducible exact within_st)
    | (with_reducible exact within_rd _) | (with_reducible exact within_now) | ((with_reducible refine (sendMsix_in ..).mono ?_); rfl)
    | split)

theorem refreshFault_in : Within (FP.refreshFault) (refreshFault : M o _) := by
  unfold refreshFault
  try dsimp only
  repeat' (first
    | intro _ | (with_reducible apply within_bind) | (with_reducible exact within_pure _) | (with_reducible exact within_st)
    | (with_reducible exact within_rd _) | (with_reducible exact within_now)
    | ((with_reducible refine wrB_in .RST_PIN_STAT rfl ?_) <;> rfl) | ((with_reducible refine (notice_in ..).mono ?_); rfl)
    | ((with_reducible refine (alert_in).mono ?_); rfl) | split)

theorem moduleStage3_in (src kind forced) : Within (FP.moduleStage3) (moduleStage3 src kind forced : M o _) := by
  unfold moduleStage3
  try dsimp only
  repeat' (first
    | intro _ | (with_reducible apply within_bind) | (with_reducible exact within_pure _) | (with_reducible exact within_st)
    | (with_reducible exact within_rd _) | (with_reducible exact within_now) | ((with_reducible refine (saveSuper_in).mono ?_); rfl)
    | ((with_reducible refine (commitJournal_in).mono ?_); rfl) | ((with_reducible refine (repairRows_in).mono ?_); rfl)
    | ((with_reducible refine (flushMerge_in ..).mono ?_); rfl) | ((with_reducible refine (resetEvent_in ..).mono ?_); rfl)
    | (with_reducible exact wrs_nil_in) | ((with_reducible refine wrs_in .EVT_STATUS rfl ?_ ?_); rfl)
    | ((with_reducible refine wrs_in .HIF_BOOT_STATUS rfl ?_ ?_); rfl) | ((with_reducible refine wrs_in .RST_CAUSE rfl ?_ ?_); rfl)
    | ((with_reducible refine wrs_in .RST_ESC_STAT rfl ?_ ?_); rfl) | ((with_reducible refine wrs_in .RST_FAULT rfl ?_ ?_); rfl)
    | ((with_reducible refine wrs_in .RST_PIN_STAT rfl ?_ ?_); rfl) | ((with_reducible refine wrs_in .RST_REFCLK rfl ?_ ?_); rfl)
    | ((with_reducible refine wrs_in .RST_STRAP rfl ?_ ?_); rfl) | ((with_reducible refine incSat_in .RST_CAUSE rfl ?_) <;> rfl)
    | ((with_reducible refine (send_in ..).mono ?_); rfl) | ((with_reducible refine (showRecord_in).mono ?_); rfl)
    | ((with_reducible refine (refreshFault_in).mono ?_); rfl) | ((with_reducible refine (mark_in ..).mono ?_); rfl)
    | ((with_reducible refine eff_in .ctl rfl ?_); rfl) | ((with_reducible refine eff_in .fab rfl ?_); rfl)
    | ((with_reducible refine eff_in .host rfl ?_); rfl) | ((with_reducible refine eff_in .mem rfl ?_); rfl)
    | ((with_reducible refine eff_in .nor rfl ?_); rfl) | ((with_reducible refine eff_in .pw rfl ?_); rfl)
    | ((with_reducible refine eff_in .qs rfl ?_); rfl) | ((with_reducible refine eff_in .rcd rfl ?_); rfl)
    | ((with_reducible refine eff_in .regsReset rfl ?_); rfl) | ((with_reducible refine eff_in .sec rfl ?_); rfl)
    | ((with_reducible refine eff_in .setTime rfl ?_); rfl) | ((with_reducible refine eff_in .unitsReset rfl ?_); rfl)
    | ((with_reducible refine eff_in .upd rfl ?_); rfl) | ((with_reducible refine eff_in .vlt rfl ?_); rfl)
    | ((with_reducible refine eff_in .watch rfl ?_); rfl) | ((with_reducible refine eff_in .wipe rfl ?_); rfl)
    | (with_reducible apply within_each) | split)

theorem driveReady_in (b) : Within (FP.driveReady) (driveReady b : M o _) := by
  unfold driveReady
  try dsimp only
  repeat' (first
    | intro _ | (with_reducible apply within_bind) | (with_reducible exact within_pure _) | (with_reducible exact within_st)
    | (with_reducible exact within_rd _) | (with_reducible exact within_now)
    | ((with_reducible refine wrB_in .RST_PIN_STAT rfl ?_) <;> rfl) | split)

theorem setPass_in (t p) : Within (FP.setPass) (setPass t p : M o _) := by
  unfold setPass
  try dsimp only
  repeat' (first
    | intro _ | (with_reducible apply within_bind) | (with_reducible exact within_pure _) | (with_reducible exact within_st)
    | (with_reducible exact within_rd _) | (with_reducible exact within_now) | ((with_reducible refine eff_in .mem rfl ?_); rfl) | split)

theorem scrubStop_in : Within (FP.setPass) (scrubStop : M o _) := by
  unfold scrubStop
  try dsimp only
  repeat' (first
    | intro _ | (with_reducible apply within_bind) | (with_reducible exact within_pure _) | (with_reducible exact within_st)
    | (with_reducible exact within_rd _) | (with_reducible exact within_now) | ((with_reducible refine (setPass_in ..).mono ?_); rfl)
    | (with_reducible apply within_each) | split)

theorem addRung_in (depth mask src kind p) : Within (FP.addRung) (addRung depth mask src kind p : M o _) := by
  unfold addRung
  try dsimp only
  repeat' (first
    | intro _ | (with_reducible apply within_bind) | (with_reducible exact within_pure _) | (with_reducible exact within_st)
    | (with_reducible exact within_rd _) | (with_reducible exact within_now) | ((with_reducible refine (scrubStop_in).mono ?_); rfl)
    | ((with_reducible refine (mark_in ..).mono ?_); rfl) | ((with_reducible refine eff_in .ctl rfl ?_); rfl)
    | (with_reducible apply within_when) | split)

theorem askModule_in (src kind) : Within (FP.moduleStage3) (askModule src kind : M o _) := by
  unfold askModule
  try dsimp only
  repeat' (first
    | intro _ | (with_reducible apply within_bind) | (with_reducible exact within_pure _) | (with_reducible exact within_st)
    | (with_reducible exact within_rd _) | (with_reducible exact within_now) | ((with_reducible refine (resetEvent_in ..).mono ?_); rfl)
    | ((with_reducible refine (moduleStage3_in ..).mono ?_); rfl) | ((with_reducible refine (driveReady_in ..).mono ?_); rfl)
    | ((with_reducible refine (addRung_in ..).mono ?_); rfl) | ((with_reducible refine eff_in .ctl rfl ?_); rfl) | split)

theorem upCtx_in (c f) : Within (FP.upCtx) (upCtx c f : M o _) := by
  unfold upCtx
  try dsimp only
  repeat' (first
    | intro _ | (with_reducible apply within_bind) | (with_reducible exact within_pure _) | (with_reducible exact within_st)
    | (with_reducible exact within_rd _) | (with_reducible exact within_now) | ((with_reducible refine eff_in .host rfl ?_); rfl) | split)

theorem upPhase_in (c f) : Within (FP.upCtx) (upPhase c f : M o _) := by
  unfold upPhase
  try dsimp only
  repeat' (first
    | intro _ | (with_reducible apply within_bind) | (with_reducible exact within_pure _) | (with_reducible exact within_st)
    | (with_reducible exact within_rd _) | (with_reducible exact within_now) | ((with_reducible refine (upCtx_in ..).mono ?_); rfl)
    | split)

theorem upGrant_in (key f) : Within (FP.upGrant) (upGrant key f : M o _) := by
  unfold upGrant
  try dsimp only
  repeat' (first
    | intro _ | (with_reducible apply within_bind) | (with_reducible exact within_pure _) | (with_reducible exact within_st)
    | (with_reducible exact within_rd _) | (with_reducible exact within_now) | ((with_reducible refine eff_in .pw rfl ?_); rfl) | split)

theorem slopeStop_in (key) : Within (FP.slopeStop) (slopeStop key : M o _) := by
  unfold slopeStop
  try dsimp only
  repeat' (first
    | intro _ | (with_reducible apply within_bind) | (with_reducible exact within_pure _) | (with_reducible exact within_st)
    | (with_reducible exact within_rd _) | (with_reducible exact within_now) | ((with_reducible refine (upGrant_in ..).mono ?_); rfl)
    | ((with_reducible refine eff_in .arr rfl ?_); rfl) | split)

theorem restUnit_in (u) : Within (FP.slopeStop) (restUnit u : M o _) := by
  unfold restUnit
  try dsimp only
  repeat' (first
    | intro _ | (with_reducible apply within_bind) | (with_reducible exact within_pure _) | (with_reducible exact within_st)
    | (with_reducible exact within_rd _) | (with_reducible exact within_now) | ((with_reducible refine (slopeStop_in ..).mono ?_); rfl)
    | (with_reducible apply within_each) | split)

theorem stopUnit_in (u) : Within (FP.stopUnit) (stopUnit u : M o _) := by
  unfold stopUnit
  try dsimp only
  repeat' (first
    | intro _ | (with_reducible apply within_bind) | (with_reducible exact within_pure _) | (with_reducible exact within_st)
    | (with_reducible exact within_rd _) | (with_reducible exact within_now) | ((with_reducible refine (restUnit_in ..).mono ?_); rfl)
    | ((with_reducible refine wr_in .PART_ARR_STAT rfl ?_); rfl) | ((with_reducible refine wr_in .PART_CORE_STAT rfl ?_); rfl)
    | ((with_reducible refine wr_in .PART_STR_STAT rfl ?_); rfl) | exact wr_in _ rfl (stFld_bit _ (by rfl) (by rfl) (by rfl)) | split)

theorem istatWord_in (p g new m) : Within (FP.istatWord) (istatWord p g new m : M o _) := by
  unfold istatWord
  try dsimp only
  repeat' (first
    | intro _ | (with_reducible apply within_bind) | (with_reducible exact within_pure _) | (with_reducible exact within_st)
    | (with_reducible exact within_rd _) | (with_reducible exact within_now)
    | ((with_reducible refine wr_in .PART_CORE_IPENDm rfl ?_); rfl) | ((with_reducible refine wr_in .PART_CORE_ISTATm rfl ?_); rfl)
    | split)

theorem refreshCore_in (p g) : Within (FP.istatWord) (refreshCore p g : M o _) := by
  unfold refreshCore
  try dsimp only
  repeat' (first
    | intro _ | (with_reducible apply within_bind) | (with_reducible exact within_pure _) | (with_reducible exact within_st)
    | (with_reducible exact within_rd _) | (with_reducible exact within_now) | ((with_reducible refine (istatWord_in ..).mono ?_); rfl)
    | (with_reducible apply within_each) | split)

theorem refreshPhase_in (c) : Within (FP.istatWord) (refreshPhase c : M o _) := by
  unfold refreshPhase
  try dsimp only
  repeat' (first
    | intro _ | (with_reducible apply within_bind) | (with_reducible exact within_pure _) | (with_reducible exact within_st)
    | (with_reducible exact within_rd _) | (with_reducible exact within_now) | ((with_reducible refine (refreshCore_in ..).mono ?_); rfl)
    | (with_reducible apply within_each) | split)

theorem stopPhase_in (c) : Within (FP.stopPhase) (stopPhase c : M o _) := by
  unfold stopPhase
  try dsimp only
  repeat' (first
    | intro _ | (with_reducible apply within_bind) | (with_reducible exact within_pure _) | (with_reducible exact within_st)
    | (with_reducible exact within_rd _) | (with_reducible exact within_now) | ((with_reducible refine (stopUnit_in ..).mono ?_); rfl)
    | ((with_reducible refine (upPhase_in ..).mono ?_); rfl) | ((with_reducible refine (refreshPhase_in ..).mono ?_); rfl)
    | ((with_reducible refine wr_in .PART_Q_CREDIT rfl ?_); rfl) | ((with_reducible refine wr_in .PART_Q_OCC rfl ?_); rfl)
    | (with_reducible apply within_each) | split)

theorem lockPhase_in (c status detail unit info0) : Within (FP.stopPhase) (lockPhase c status detail unit info0 : M o _) := by
  unfold lockPhase
  try dsimp only
  repeat' (first
    | intro _ | (with_reducible apply within_bind) | (with_reducible exact within_pure _) | (with_reducible exact within_st)
    | (with_reducible exact within_rd _) | (with_reducible exact within_now) | ((with_reducible refine (upPhase_in ..).mono ?_); rfl)
    | ((with_reducible refine (stopPhase_in ..).mono ?_); rfl) | ((with_reducible refine eff_in .host rfl ?_); rfl) | split)

theorem freeSlot_in (c) : Within (FP.freeSlot) (freeSlot c : M o _) := by
  unfold freeSlot
  try dsimp only
  repeat' (first
    | intro _ | (with_reducible apply within_bind) | (with_reducible exact within_pure _) | (with_reducible exact within_st)
    | (with_reducible exact within_rd _) | (with_reducible exact within_now) | (with_reducible exact wrs_nil_in)
    | ((with_reducible refine wrs_in .HIF_CTX_STATc rfl ?_ ?_); rfl) | ((with_reducible refine (upCtx_in ..).mono ?_); rfl) | split)

theorem upOp_in (opid f) : Within (FP.upCtx) (upOp opid f : M o _) := by
  unfold upOp
  try dsimp only
  repeat' (first
    | intro _ | (with_reducible apply within_bind) | (with_reducible exact within_pure _) | (with_reducible exact within_st)
    | (with_reducible exact within_rd _) | (with_reducible exact within_now) | ((with_reducible refine eff_in .host rfl ?_); rfl) | split)

theorem lockOp_in (opid status detail unit info0 ready) : Within (FP.upCtx) (lockOp opid status detail unit info0 ready : M o _) := by
  unfold lockOp
  try dsimp only
  repeat' (first
    | intro _ | (with_reducible apply within_bind) | (with_reducible exact within_pure _) | (with_reducible exact within_st)
    | (with_reducible exact within_rd _) | (with_reducible exact within_now) | ((with_reducible refine (upOp_in ..).mono ?_); rfl) | split)

theorem endOp_in (x detail) : Within (FP.endOp) (endOp x detail : M o _) := by
  unfold endOp
  try dsimp only
  repeat' (first
    | intro _ | (with_reducible apply within_bind) | (with_reducible exact within_pure _) | (with_reducible exact within_st)
    | (with_reducible exact within_rd _) | (with_reducible exact within_now) | ((with_reducible refine (lockPhase_in ..).mono ?_); rfl)
    | ((with_reducible refine (upCtx_in ..).mono ?_); rfl) | ((with_reducible refine (freeSlot_in ..).mono ?_); rfl)
    | ((with_reducible refine (lockOp_in ..).mono ?_); rfl) | ((with_reducible refine eff_in .vlt rfl ?_); rfl) | split)

theorem setAvail_in (p b) : Within (FP.setAvail) (setAvail p b : M o _) := by
  unfold setAvail
  try dsimp only
  repeat' (first
    | intro _ | (with_reducible apply within_bind) | (with_reducible exact within_pure _) | (with_reducible exact within_st)
    | (with_reducible exact within_rd _) | (with_reducible exact within_now) | ((with_reducible refine wr_in .RST_PART_AVAIL rfl ?_); rfl)
    | split)

theorem refreshInUse_in : Within (FP.refreshInUse) (refreshInUse : M o _) := by
  unfold refreshInUse
  try dsimp only
  repeat' (first
    | intro _ | (with_reducible apply within_bind) | (with_reducible exact within_pure _) | (with_reducible exact within_st)
    | (with_reducible exact within_rd _) | (with_reducible exact within_now) | ((with_reducible refine wr_in .FZ_STREAMp rfl ?_); rfl)
    | (with_reducible apply within_each) | split)

theorem refreshThrottle_in : Within (FP.refreshThrottle) (refreshThrottle : M o _) := by
  unfold refreshThrottle
  try dsimp only
  repeat' (first
    | intro _ | (with_reducible apply within_bind) | (with_reducible exact within_pure _) | (with_reducible exact within_st)
    | (with_reducible exact within_rd _) | (with_reducible exact within_now) | ((with_reducible refine wrB_in .PWR_STAT rfl ?_) <;> rfl)
    | split)

theorem partitionStage3_in (p src kind forced) : Within (FP.partitionStage3) (partitionStage3 p src kind forced : M o _) := by
  unfold partitionStage3
  try dsimp only
  repeat' (first
    | intro _ | (with_reducible apply within_bind) | (with_reducible exact within_pure _) | (with_reducible exact within_st)
    | (with_reducible exact within_rd _) | (with_reducible exact within_now) | ((with_reducible refine (resetEvent_in ..).mono ?_); rfl)
    | ((with_reducible refine (setAvail_in ..).mono ?_); rfl) | ((with_reducible refine (refreshInUse_in).mono ?_); rfl)
    | ((with_reducible refine (ev_in ..).mono ?_); rfl) | ((with_reducible refine setF_in .HIF_CTX_STATc rfl ?_) <;> rfl)
    | ((with_reducible refine (refreshThrottle_in).mono ?_); rfl) | ((with_reducible refine eff_in .ctl rfl ?_); rfl)
    | ((with_reducible refine eff_in .fab rfl ?_); rfl) | ((with_reducible refine eff_in .pw rfl ?_); rfl)
    | ((with_reducible refine eff_in .regsReset rfl ?_); rfl) | ((with_reducible refine eff_in .unitsReset rfl ?_); rfl)
    | ((with_reducible refine eff_in .watch rfl ?_); rfl) | ((with_reducible refine eff_in .wipe rfl ?_); rfl)
    | (with_reducible apply within_each) | (with_reducible apply within_when) | split)

theorem askPartition_in (p src kind) : Within (FP.askPartition) (askPartition p src kind : M o _) := by
  unfold askPartition
  try dsimp only
  repeat' (first
    | intro _ | (with_reducible apply within_bind) | (with_reducible exact within_pure _) | (with_reducible exact within_st)
    | (with_reducible exact within_rd _) | (with_reducible exact within_now) | ((with_reducible refine (resetEvent_in ..).mono ?_); rfl)
    | ((with_reducible refine (endOp_in ..).mono ?_); rfl) | ((with_reducible refine (partitionStage3_in ..).mono ?_); rfl)
    | ((with_reducible refine (addRung_in ..).mono ?_); rfl) | (with_reducible apply within_each) | split)

theorem contextRung_in (slot src kind) : Within (FP.contextRung) (contextRung slot src kind : M o _) := by
  unfold contextRung
  try dsimp only
  repeat' (first
    | intro _ | (with_reducible apply within_bind) | (with_reducible exact within_pure _) | (with_reducible exact within_st)
    | (with_reducible exact within_rd _) | (with_reducible exact within_now) | ((with_reducible refine (resetEvent_in ..).mono ?_); rfl)
    | ((with_reducible refine (lockPhase_in ..).mono ?_); rfl) | split)

theorem askRung_in (depth pmask slot code src kind) : Within (FP.askRung) (askRung depth pmask slot code src kind : M o _) := by
  unfold askRung
  try dsimp only
  repeat' (first
    | intro _ | (with_reducible apply within_bind) | (with_reducible exact within_pure _) | (with_reducible exact within_st)
    | (with_reducible exact within_rd _) | (with_reducible exact within_now) | ((with_reducible refine (rungTaken_in ..).mono ?_); rfl)
    | ((with_reducible refine (askModule_in ..).mono ?_); rfl) | ((with_reducible refine (askPartition_in ..).mono ?_); rfl)
    | ((with_reducible refine (contextRung_in ..).mono ?_); rfl) | (with_reducible apply within_each) | (with_reducible apply within_when)
    | split)

theorem endWait_in (k) : Within (FP.endWait) (endWait k : M o _) := by
  unfold endWait
  try dsimp only
  repeat' (first
    | intro _ | (with_reducible apply within_bind) | (with_reducible exact within_pure _) | (with_reducible exact within_st)
    | (with_reducible exact within_rd _) | (with_reducible exact within_now)
    | ((with_reducible refine wr_in .HIF_BOOT_STATUS rfl ?_); rfl) | ((with_reducible refine eff_in .ctl rfl ?_); rfl)
    | ((with_reducible refine eff_in .seen rfl ?_); rfl) | (with_reducible apply within_when) | split)

theorem setStage_in (n) : Within (FP.showRecord) (setStage n : M o _) := by
  unfold setStage
  try dsimp only
  repeat' (first
    | intro _ | (with_reducible apply within_bind) | (with_reducible exact within_pure _) | (with_reducible exact within_st)
    | (with_reducible exact within_rd _) | (with_reducible exact within_now)
    | ((with_reducible refine wr_in .HIF_BOOT_STATUS rfl ?_); rfl) | split)

theorem useCoreFw_in (x) : Within (FP.useCoreFw) (useCoreFw x : M o _) := by
  unfold useCoreFw
  try dsimp only
  repeat' (first
    | intro _ | (with_reducible apply within_bind) | (with_reducible exact within_pure _) | (with_reducible exact within_st)
    | (with_reducible exact within_rd _) | (with_reducible exact within_now) | ((with_reducible refine (setStage_in ..).mono ?_); rfl)
    | ((with_reducible refine eff_in .ctl rfl ?_); rfl) | ((with_reducible refine eff_in .sec rfl ?_); rfl) | split)

theorem hostFw_in : Within (FP.hostFw) (hostFw : M o _) := by
  unfold hostFw
  try dsimp only
  repeat' (first
    | intro _ | (with_reducible apply within_bind) | (with_reducible exact within_pure _) | (with_reducible exact within_st)
    | (with_reducible exact within_rd _) | (with_reducible exact within_now) | ((with_reducible refine (endWait_in ..).mono ?_); rfl)
    | ((with_reducible refine (useCoreFw_in ..).mono ?_); rfl) | (with_reducible apply within_when) | split)

theorem putRstReq_in (v src kind) : Within (FP.askRung) (putRstReq v src kind : M o _) := by
  unfold putRstReq
  try dsimp only
  repeat' (first
    | intro _ | (with_reducible apply within_bind) | (with_reducible exact within_pure _) | (with_reducible exact within_st)
    | (with_reducible exact within_rd _) | (with_reducible exact within_now) | ((with_reducible refine (clearFails_in).mono ?_); rfl)
    | ((with_reducible refine (askRung_in ..).mono ?_); rfl) | ((with_reducible refine (hostFw_in).mono ?_); rfl)
    | (with_reducible apply within_when) | split)

theorem rstReq_in (src v) : Within (FP.askRung) (rstReq src v : M o _) := by
  unfold rstReq
  try dsimp only
  repeat' (first
    | intro _ | (with_reducible apply within_bind) | (with_reducible exact within_pure _) | (with_reducible exact within_st)
    | (with_reducible exact within_rd _) | (with_reducible exact within_now) | ((with_reducible refine barReg_in ?_ ?_) <;> [rfl; skip])
    | ((with_reducible refine (putRstReq_in ..).mono ?_); rfl) | split)

theorem askPartitions_in (pmask src kind) : Within (FP.askPartition) (askPartitions pmask src kind : M o _) := by
  unfold askPartitions
  try dsimp only
  repeat' (first
    | intro _ | (with_reducible apply within_bind) | (with_reducible exact within_pure _) | (with_reducible exact within_st)
    | (with_reducible exact within_rd _) | (with_reducible exact within_now) | ((with_reducible refine (askPartition_in ..).mono ?_); rfl)
    | (with_reducible apply within_each) | split)

theorem otherRung_in (why depth pmask slot) : Within (FP.askRung) (otherRung why depth pmask slot : M o _) := by
  unfold otherRung
  try dsimp only
  repeat' (first
    | intro _ | (with_reducible apply within_bind) | (with_reducible exact within_pure _) | (with_reducible exact within_st)
    | (with_reducible exact within_rd _) | (with_reducible exact within_now) | ((with_reducible refine (askRung_in ..).mono ?_); rfl)
    | ((with_reducible refine (askModule_in ..).mono ?_); rfl) | ((with_reducible refine (askPartitions_in ..).mono ?_); rfl)
    | ((with_reducible refine (contextRung_in ..).mono ?_); rfl) | split)

theorem putFlds_in {fp : Nat} (k : RegKind) {ix : List Nat} {v : Nat} (h : fp.testBit (64 + k.ctorIdx) = true) (l : List FldRow) :
    Within fp (putFlds k ix v l : M o _) := by
  induction l with
  | nil => exact within_pure _
  | cons u l ih =>
    unfold putFlds
    dsimp only
    refine within_bind ?_ fun _ => ih
    repeat' (first
      | (with_reducible exact within_pure _) | (with_reducible exact within_rd _) | (with_reducible exact wr_in _ rfl h)
      | (with_reducible apply within_bind) | intro _ | split)

theorem putReg_in {fp : Nat} (k : RegKind) {ix : List Nat} {v : Nat} (h : fp.testBit (64 + k.ctorIdx) = true) :
    Within fp (putReg k ix v : M o _) := putFlds_in k h _

theorem putSetting_in (k ix) : Within (FP.putSetting) (putSetting k ix : M o _) := by
  unfold putSetting
  try dsimp only
  repeat' (first
    | intro _ | (with_reducible apply within_bind) | (with_reducible exact within_pure _) | (with_reducible exact within_st)
    | (with_reducible exact within_rd _) | (with_reducible exact within_now) | ((with_reducible refine eff_in .settings rfl ?_); rfl)
    | split)

theorem putBase_in (k n v) : Within (FP.putBase) (putBase k n v : M o _) := by
  unfold putBase
  try dsimp only
  repeat' (first
    | intro _ | (with_reducible apply within_bind) | (with_reducible exact within_pure _) | (with_reducible exact within_st)
    | (with_reducible exact within_rd _) | (with_reducible exact within_now) | exact putReg_in _ (sub_kind _ (by decide +kernel)) | split)

theorem upRing_in (n f) : Within (FP.upCtx) (upRing n f : M o _) := by
  unfold upRing
  try dsimp only
  repeat' (first
    | intro _ | (with_reducible apply within_bind) | (with_reducible exact within_pure _) | (with_reducible exact within_st)
    | (with_reducible exact within_rd _) | (with_reducible exact within_now) | ((with_reducible refine eff_in .host rfl ?_); rfl) | split)

theorem enableRing_in (n) : Within (FP.enableRing) (enableRing n : M o _) := by
  unfold enableRing
  try dsimp only
  repeat' (first
    | intro _ | (with_reducible apply within_bind) | (with_reducible exact within_pure _) | (with_reducible exact within_st)
    | (with_reducible exact within_rd _) | (with_reducible exact within_now) | (with_reducible exact wrs_nil_in)
    | ((with_reducible refine wrs_in .HIF_RING_CFGn rfl ?_ ?_); rfl) | ((with_reducible refine wrs_in .HIF_RING_POSn rfl ?_ ?_); rfl)
    | ((with_reducible refine wrs_in .HIF_RING_STATn rfl ?_ ?_); rfl) | ((with_reducible refine (upRing_in ..).mono ?_); rfl) | split)

theorem freeBits_in (w) : Within (FP.freeBits) (freeBits w : M o _) := by
  unfold freeBits
  try dsimp only
  repeat' (first
    | intro _ | (with_reducible apply within_bind) | (with_reducible exact within_pure _) | (with_reducible exact within_st)
    | (with_reducible exact within_rd _) | (with_reducible exact within_now) | ((with_reducible refine eff_in .draw rfl ?_); rfl) | split)

theorem refreshActive_in (n) : Within (FP.refreshActive) (refreshActive n : M o _) := by
  unfold refreshActive
  try dsimp only
  repeat' (first
    | intro _ | (with_reducible apply within_bind) | (with_reducible exact within_pure _) | (with_reducible exact within_st)
    | (with_reducible exact within_rd _) | (with_reducible exact within_now)
    | ((with_reducible refine wrB_in .HIF_RING_STATn rfl ?_) <;> rfl) | split)

theorem dropOp_in (x) : Within (FP.dropOp) (dropOp x : M o _) := by
  unfold dropOp
  try dsimp only
  repeat' (first
    | intro _ | (with_reducible apply within_bind) | (with_reducible exact within_pure _) | (with_reducible exact within_st)
    | (with_reducible exact within_rd _) | (with_reducible exact within_now)
    | ((with_reducible refine (refreshActive_in ..).mono ?_); rfl) | ((with_reducible refine wr_in .HIF_RING_STATn rfl ?_); rfl)
    | ((with_reducible refine eff_in .host rfl ?_); rfl) | split)

theorem discardOp_in (x) : Within (FP.discardOp) (discardOp x : M o _) := by
  unfold discardOp
  try dsimp only
  repeat' (first
    | intro _ | (with_reducible apply within_bind) | (with_reducible exact within_pure _) | (with_reducible exact within_st)
    | (with_reducible exact within_rd _) | (with_reducible exact within_now) | ((with_reducible refine (freeBits_in ..).mono ?_); rfl)
    | ((with_reducible refine (evRaw_in ..).mono ?_); rfl) | ((with_reducible refine (dropOp_in ..).mono ?_); rfl) | split)

theorem disableRing_in (n) : Within (FP.disableRing) (disableRing n : M o _) := by
  unfold disableRing
  try dsimp only
  repeat' (first
    | intro _ | (with_reducible apply within_bind) | (with_reducible exact within_pure _) | (with_reducible exact within_st)
    | (with_reducible exact within_rd _) | (with_reducible exact within_now) | ((with_reducible refine (endOp_in ..).mono ?_); rfl)
    | ((with_reducible refine (discardOp_in ..).mono ?_); rfl) | ((with_reducible refine (refreshActive_in ..).mono ?_); rfl)
    | ((with_reducible refine wr_in .HIF_RING_CFGn rfl ?_); rfl) | (with_reducible apply within_each) | split)

theorem putRingCfg_in (n v) : Within (FP.putRingCfg) (putRingCfg n v : M o _) := by
  unfold putRingCfg
  try dsimp only
  repeat' (first
    | intro _ | (with_reducible apply within_bind) | (with_reducible exact within_pure _) | (with_reducible exact within_st)
    | (with_reducible exact within_rd _) | (with_reducible exact within_now) | ((with_reducible refine putReg_in .HIF_RING_CFGn ?_); rfl)
    | ((with_reducible refine (enableRing_in ..).mono ?_); rfl) | ((with_reducible refine (disableRing_in ..).mono ?_); rfl)
    | (with_reducible apply within_when) | split)

theorem setMode_in (m) : Within (FP.setMode) (setMode m : M o _) := by
  unfold setMode
  try dsimp only
  repeat' (first
    | intro _ | (with_reducible apply within_bind) | (with_reducible exact within_pure _) | (with_reducible exact within_st)
    | (with_reducible exact within_rd _) | (with_reducible exact within_now) | ((with_reducible refine eff_in .ctl rfl ?_); rfl) | split)

theorem drainDone_in : Within (FP.setMode) (drainDone : M o _) := by
  unfold drainDone
  try dsimp only
  repeat' (first
    | intro _ | (with_reducible apply within_bind) | (with_reducible exact within_pure _) | (with_reducible exact within_st)
    | (with_reducible exact within_rd _) | (with_reducible exact within_now) | ((with_reducible refine (setMode_in ..).mono ?_); rfl)
    | split)

theorem setServe_in (v) : Within (FP.setServe) (setServe v : M o _) := by
  unfold setServe
  try dsimp only
  repeat' (first
    | intro _ | (with_reducible apply within_bind) | (with_reducible exact within_pure _) | (with_reducible exact within_st)
    | (with_reducible exact within_rd _) | (with_reducible exact within_now) | ((with_reducible refine wrB_in .HIF_CTL rfl ?_) <;> rfl)
    | ((with_reducible refine (setMode_in ..).mono ?_); rfl) | ((with_reducible refine (drainDone_in).mono ?_); rfl)
    | ((with_reducible refine eff_in .ctl rfl ?_); rfl) | split)

theorem putHifCtl_in (v) : Within (FP.setServe) (putHifCtl v : M o _) := by
  unfold putHifCtl
  try dsimp only
  repeat' (first
    | intro _ | (with_reducible apply within_bind) | (with_reducible exact within_pure _) | (with_reducible exact within_st)
    | (with_reducible exact within_rd _) | (with_reducible exact within_now) | ((with_reducible refine putReg_in .HIF_CTL ?_); rfl)
    | ((with_reducible refine (setServe_in ..).mono ?_); rfl) | (with_reducible apply within_when) | split)

theorem putMsix_in (v4 i v) : Within (FP.putMsix) (putMsix v4 i v : M o _) := by
  unfold putMsix
  try dsimp only
  repeat' (first
    | intro _ | (with_reducible apply within_bind) | (with_reducible exact within_pure _) | (with_reducible exact within_st)
    | (with_reducible exact within_rd _) | (with_reducible exact within_now) | ((with_reducible refine putReg_in .HIF_MSIX ?_); rfl)
    | ((with_reducible refine (send_in ..).mono ?_); rfl) | ((with_reducible refine wr_in .HIF_PBA rfl ?_); rfl)
    | (with_reducible apply within_when) | split)

theorem upPort_in (n f) : Within (FP.upPort) (upPort n f : M o _) := by
  unfold upPort
  try dsimp only
  repeat' (first
    | intro _ | (with_reducible apply within_bind) | (with_reducible exact within_pure _) | (with_reducible exact within_st)
    | (with_reducible exact within_rd _) | (with_reducible exact within_now) | ((with_reducible refine eff_in .fab rfl ?_); rfl) | split)

theorem svc_in (dst scope code fields) : Within (FP.send) (svc dst scope code fields : M o _) := by
  unfold svc
  try dsimp only
  repeat' (first
    | intro _ | (with_reducible apply within_bind) | (with_reducible exact within_pure _) | (with_reducible exact within_st)
    | (with_reducible exact within_rd _) | (with_reducible exact within_now) | ((with_reducible refine (send_in ..).mono ?_); rfl) | split)

theorem beginWait_in (k) : Within (FP.endWait) (beginWait k : M o _) := by
  unfold beginWait
  try dsimp only
  repeat' (first
    | intro _ | (with_reducible apply within_bind) | (with_reducible exact within_pure _) | (with_reducible exact within_st)
    | (with_reducible exact within_rd _) | (with_reducible exact within_now) | ((with_reducible refine (mark_in ..).mono ?_); rfl)
    | ((with_reducible refine setF_in .HIF_BOOT_STATUS rfl ?_) <;> rfl) | ((with_reducible refine eff_in .ctl rfl ?_); rfl)
    | (with_reducible apply within_when) | split)

theorem refreshTestWait_in : Within (FP.endWait) (refreshTestWait : M o _) := by
  unfold refreshTestWait
  try dsimp only
  repeat' (first
    | intro _ | (with_reducible apply within_bind) | (with_reducible exact within_pure _) | (with_reducible exact within_st)
    | (with_reducible exact within_rd _) | (with_reducible exact within_now) | ((with_reducible refine (beginWait_in ..).mono ?_); rfl)
    | ((with_reducible refine (endWait_in ..).mono ?_); rfl) | split)

theorem faultCond_in {fp : Nat} (k : RegKind) {f : Fld} {b : Bool} (hk : f.k = k) (h : fp.testBit (64 + k.ctorIdx) = true)
    (hm : FP.refreshFault &&& fp = FP.refreshFault) : Within fp (faultCond f b : M o _) := by
  unfold faultCond
  exact within_bind (wrB_in k hk h) fun _ => refreshFault_in.mono hm

theorem refreshPortFault_in : Within (FP.refreshPortFault) (refreshPortFault : M o _) := by
  unfold refreshPortFault
  try dsimp only
  repeat' (first
    | intro _ | (with_reducible apply within_bind) | (with_reducible exact within_pure _) | (with_reducible exact within_st)
    | (with_reducible exact within_rd _) | (with_reducible exact within_now)
    | ((with_reducible refine faultCond_in .RST_FAULT rfl ?_ ?_) <;> rfl) | split)

theorem setPort_in (n state reason) : Within (FP.setPort) (setPort n state reason : M o _) := by
  unfold setPort
  try dsimp only
  repeat' (first
    | intro _ | (with_reducible apply within_bind) | (with_reducible exact within_pure _) | (with_reducible exact within_st)
    | (with_reducible exact within_rd _) | (with_reducible exact within_now) | ((with_reducible refine (mark_in ..).mono ?_); rfl)
    | ((with_reducible refine (upPort_in ..).mono ?_); rfl) | ((with_reducible refine (svc_in ..).mono ?_); rfl)
    | ((with_reducible refine (refreshTestWait_in).mono ?_); rfl) | ((with_reducible refine (refreshPortFault_in).mono ?_); rfl)
    | ((with_reducible refine wr_in .FZ_PORT_STAT rfl ?_); rfl) | (with_reducible apply within_when) | split)

theorem portCheck_in (n reason) : Within (FP.evRaw) (portCheck n reason : M o _) := by
  unfold portCheck
  try dsimp only
  repeat' (first
    | intro _ | (with_reducible apply within_bind) | (with_reducible exact within_pure _) | (with_reducible exact within_st)
    | (with_reducible exact within_rd _) | (with_reducible exact within_now) | ((with_reducible refine (ev_in ..).mono ?_); rfl) | split)

theorem startTraining_in (n) : Within (FP.startTraining) (startTraining n : M o _) := by
  unfold startTraining
  try dsimp only
  repeat' (first
    | intro _ | (with_reducible apply within_bind) | (with_reducible exact within_pure _) | (with_reducible exact within_st)
    | (with_reducible exact within_rd _) | (with_reducible exact within_now) | ((with_reducible refine (upPort_in ..).mono ?_); rfl)
    | ((with_reducible refine (setPort_in ..).mono ?_); rfl) | ((with_reducible refine wr_in .FZ_PORT_FAR rfl ?_); rfl) | split)

theorem bringUp_in (n) : Within (FP.bringUp) (bringUp n : M o _) := by
  unfold bringUp
  try dsimp only
  repeat' (first
    | intro _ | (with_reducible apply within_bind) | (with_reducible exact within_pure _) | (with_reducible exact within_st)
    | (with_reducible exact within_rd _) | (with_reducible exact within_now) | ((with_reducible refine (setPort_in ..).mono ?_); rfl)
    | ((with_reducible refine (portCheck_in ..).mono ?_); rfl) | ((with_reducible refine (startTraining_in ..).mono ?_); rfl)
    | ((with_reducible refine wr_in .FZ_PORT_STAT rfl ?_); rfl) | split)

theorem disablePort_in (n) : Within (FP.bringUp) (disablePort n : M o _) := by
  unfold disablePort
  try dsimp only
  repeat' (first
    | intro _ | (with_reducible apply within_bind) | (with_reducible exact within_pure _) | (with_reducible exact within_st)
    | (with_reducible exact within_rd _) | (with_reducible exact within_now) | ((with_reducible refine (upPort_in ..).mono ?_); rfl)
    | ((with_reducible refine (setPort_in ..).mono ?_); rfl) | ((with_reducible refine (bringUp_in ..).mono ?_); rfl)
    | ((with_reducible refine wr_in .FZ_PORT_FAR rfl ?_); rfl) | ((with_reducible refine wr_in .FZ_PORT_STAT rfl ?_); rfl)
    | (with_reducible apply within_when) | split)

theorem holdPort_in (n v) : Within (FP.bringUp) (holdPort n v : M o _) := by
  unfold holdPort
  try dsimp only
  repeat' (first
    | intro _ | (with_reducible apply within_bind) | (with_reducible exact within_pure _) | (with_reducible exact within_st)
    | (with_reducible exact within_rd _) | (with_reducible exact within_now) | ((with_reducible refine (setPort_in ..).mono ?_); rfl)
    | ((with_reducible refine (bringUp_in ..).mono ?_); rfl) | ((with_reducible refine (disablePort_in ..).mono ?_); rfl) | split)

theorem runPrbs_in (n) : Within (FP.runPrbs) (runPrbs n : M o _) := by
  unfold runPrbs
  try dsimp only
  repeat' (first
    | intro _ | (with_reducible apply within_bind) | (with_reducible exact within_pure _) | (with_reducible exact within_st)
    | (with_reducible exact within_rd _) | (with_reducible exact within_now) | ((with_reducible refine (upPort_in ..).mono ?_); rfl)
    | ((with_reducible refine (send_in ..).mono ?_); rfl) | split)

theorem enterTest_in (n) : Within (FP.setPort) (enterTest n : M o _) := by
  unfold enterTest
  try dsimp only
  repeat' (first
    | intro _ | (with_reducible apply within_bind) | (with_reducible exact within_pure _) | (with_reducible exact within_st)
    | (with_reducible exact within_rd _) | (with_reducible exact within_now) | ((with_reducible refine (setPort_in ..).mono ?_); rfl)
    | ((with_reducible refine (upPort_in ..).mono ?_); rfl) | ((with_reducible refine (send_in ..).mono ?_); rfl)
    | ((with_reducible refine (runPrbs_in ..).mono ?_); rfl) | split)

theorem askTest_in (n) : Within (FP.setPort) (askTest n : M o _) := by
  unfold askTest
  try dsimp only
  repeat' (first
    | intro _ | (with_reducible apply within_bind) | (with_reducible exact within_pure _) | (with_reducible exact within_st)
    | (with_reducible exact within_rd _) | (with_reducible exact within_now) | ((with_reducible refine (enterTest_in ..).mono ?_); rfl)
    | ((with_reducible refine (upPort_in ..).mono ?_); rfl) | ((with_reducible refine (send_in ..).mono ?_); rfl) | split)

theorem putPortCtl_in (n v) : Within (FP.putPortCtl) (putPortCtl n v : M o _) := by
  unfold putPortCtl
  try dsimp only
  repeat' (first
    | intro _ | (with_reducible apply within_bind) | (with_reducible exact within_pure _) | (with_reducible exact within_st)
    | (with_reducible exact within_rd _) | (with_reducible exact within_now) | ((with_reducible refine putReg_in .FZ_PORT_CTL ?_); rfl)
    | ((with_reducible refine (putSetting_in ..).mono ?_); rfl) | ((with_reducible refine (holdPort_in ..).mono ?_); rfl)
    | ((with_reducible refine (bringUp_in ..).mono ?_); rfl) | ((with_reducible refine (disablePort_in ..).mono ?_); rfl)
    | ((with_reducible refine (askTest_in ..).mono ?_); rfl) | (with_reducible apply within_when) | split)

theorem bankSeal_in : Within (FP.bankSeal) (bankSeal : M o _) := by
  unfold bankSeal
  try dsimp only
  repeat' (first
    | intro _ | (with_reducible apply within_bind) | (with_reducible exact within_pure _) | (with_reducible exact within_st)
    | (with_reducible exact within_rd _) | (with_reducible exact within_now)
    | ((with_reducible refine setF_in .FZ_BANK_STAT rfl ?_) <;> rfl) | ((with_reducible refine wr_in .FZ_BANK_CSUM rfl ?_); rfl) | split)

theorem bankCancel_in : Within (FP.bankCancel) (bankCancel : M o _) := by
  unfold bankCancel
  try dsimp only
  repeat' (first
    | intro _ | (with_reducible apply within_bind) | (with_reducible exact within_pure _) | (with_reducible exact within_st)
    | (with_reducible exact within_rd _) | (with_reducible exact within_now) | ((with_reducible refine wr_in .FZ_BANK_STAT rfl ?_); rfl)
    | ((with_reducible refine eff_in .fab rfl ?_); rfl) | split)

theorem bankRefuse_in : Within (FP.bankRefuse) (bankRefuse : M o _) := by
  unfold bankRefuse
  try dsimp only
  repeat' (first
    | intro _ | (with_reducible apply within_bind) | (with_reducible exact within_pure _) | (with_reducible exact within_st)
    | (with_reducible exact within_rd _) | (with_reducible exact within_now)
    | ((with_reducible refine setF_in .FZ_BANK_STAT rfl ?_) <;> rfl) | split)

theorem bankArm_in : Within (FP.bankCancel) (bankArm : M o _) := by
  unfold bankArm
  try dsimp only
  repeat' (first
    | intro _ | (with_reducible apply within_bind) | (with_reducible exact within_pure _) | (with_reducible exact within_st)
    | (with_reducible exact within_rd _) | (with_reducible exact within_now) | ((with_reducible refine (bankRefuse_in).mono ?_); rfl)
    | ((with_reducible refine setF_in .FZ_BANK_STAT rfl ?_) <;> rfl) | ((with_reducible refine eff_in .fab rfl ?_); rfl) | split)

theorem upBank_in (e f) : Within (FP.upPort) (upBank e f : M o _) := by
  unfold upBank
  try dsimp only
  repeat' (first
    | intro _ | (with_reducible apply within_bind) | (with_reducible exact within_pure _) | (with_reducible exact within_st)
    | (with_reducible exact within_rd _) | (with_reducible exact within_now) | ((with_reducible refine eff_in .fab rfl ?_); rfl) | split)

theorem bankCopy_in : Within (FP.bankCancel) (bankCopy : M o _) := by
  unfold bankCopy
  try dsimp only
  repeat' (first
    | intro _ | (with_reducible apply within_bind) | (with_reducible exact within_pure _) | (with_reducible exact within_st)
    | (with_reducible exact within_rd _) | (with_reducible exact within_now) | ((with_reducible refine (bankRefuse_in).mono ?_); rfl)
    | ((with_reducible refine (upBank_in ..).mono ?_); rfl) | ((with_reducible refine wr_in .FZ_BANK_STAT rfl ?_); rfl) | split)

theorem putBankCtl_in (v) : Within (FP.putBankCtl) (putBankCtl v : M o _) := by
  unfold putBankCtl
  try dsimp only
  repeat' (first
    | intro _ | (with_reducible apply within_bind) | (with_reducible exact within_pure _) | (with_reducible exact within_st)
    | (with_reducible exact within_rd _) | (with_reducible exact within_now) | ((with_reducible refine (bankSeal_in).mono ?_); rfl)
    | ((with_reducible refine (bankCancel_in).mono ?_); rfl) | ((with_reducible refine (bankArm_in).mono ?_); rfl)
    | ((with_reducible refine (bankCopy_in).mono ?_); rfl) | (with_reducible apply within_when) | split)

theorem becomeRoot_in (epoch) : Within (FP.becomeRoot) (becomeRoot epoch : M o _) := by
  unfold becomeRoot
  try dsimp only
  repeat' (first
    | intro _ | (with_reducible apply within_bind) | (with_reducible exact within_pure _) | (with_reducible exact within_st)
    | (with_reducible exact within_rd _) | (with_reducible exact within_now) | ((with_reducible refine wr_in .FZ_TIME_STAT rfl ?_); rfl)
    | ((with_reducible refine eff_in .fab rfl ?_); rfl) | split)

theorem putTimeCfg_in (v) : Within (FP.putTimeCfg) (putTimeCfg v : M o _) := by
  unfold putTimeCfg
  try dsimp only
  repeat' (first
    | intro _ | (with_reducible apply within_bind) | (with_reducible exact within_pure _) | (with_reducible exact within_st)
    | (with_reducible exact within_rd _) | (with_reducible exact within_now) | ((with_reducible refine putReg_in .FZ_TIME_CFG ?_); rfl)
    | ((with_reducible refine (putSetting_in ..).mono ?_); rfl) | ((with_reducible refine (becomeRoot_in ..).mono ?_); rfl)
    | (with_reducible apply within_when) | split)

theorem putTimeHi_in (v) : Within (FP.putTimeHi) (putTimeHi v : M o _) := by
  unfold putTimeHi
  try dsimp only
  repeat' (first
    | intro _ | (with_reducible apply within_bind) | (with_reducible exact within_pure _) | (with_reducible exact within_st)
    | (with_reducible exact within_rd _) | (with_reducible exact within_now) | ((with_reducible refine putReg_in .FZ_TIME_SET_HI ?_); rfl)
    | ((with_reducible refine eff_in .setTime rfl ?_); rfl) | (with_reducible apply within_when) | split)

theorem qsCancel_in : Within (FP.qsCancel) (qsCancel : M o _) := by
  unfold qsCancel
  try dsimp only
  repeat' (first
    | intro _ | (with_reducible apply within_bind) | (with_reducible exact within_pure _) | (with_reducible exact within_st)
    | (with_reducible exact within_rd _) | (with_reducible exact within_now) | ((with_reducible refine eff_in .qs rfl ?_); rfl) | split)

theorem qsStart_in : Within (FP.qsStart) (qsStart : M o _) := by
  unfold qsStart
  try dsimp only
  repeat' (first
    | intro _ | (with_reducible apply within_bind) | (with_reducible exact within_pure _) | (with_reducible exact within_st)
    | (with_reducible exact within_rd _) | (with_reducible exact within_now) | ((with_reducible refine (mark_in ..).mono ?_); rfl)
    | ((with_reducible refine (freeBits_in ..).mono ?_); rfl) | ((with_reducible refine eff_in .qs rfl ?_); rfl) | split)

theorem putQsCtl_in (v) : Within (FP.putQsCtl) (putQsCtl v : M o _) := by
  unfold putQsCtl
  try dsimp only
  repeat' (first
    | intro _ | (with_reducible apply within_bind) | (with_reducible exact within_pure _) | (with_reducible exact within_st)
    | (with_reducible exact within_rd _) | (with_reducible exact within_now) | ((with_reducible refine putReg_in .RST_QS_SRC_CTL ?_); rfl)
    | ((with_reducible refine (qsCancel_in).mono ?_); rfl) | ((with_reducible refine (qsStart_in).mono ?_); rfl)
    | (with_reducible apply within_when) | split)

theorem putQsStat_in (v) : Within (FP.putQsStat) (putQsStat v : M o _) := by
  unfold putQsStat
  try dsimp only
  repeat' (first
    | intro _ | (with_reducible apply within_bind) | (with_reducible exact within_pure _) | (with_reducible exact within_st)
    | (with_reducible exact within_rd _) | (with_reducible exact within_now) | ((with_reducible refine putReg_in .RST_QS_STAT ?_); rfl)
    | ((with_reducible refine faultCond_in .RST_FAULT rfl ?_ ?_) <;> rfl) | (with_reducible apply within_when) | split)

theorem lockReset_in (c u) : Within (FP.stopPhase) (lockReset c u : M o _) := by
  unfold lockReset
  try dsimp only
  repeat' (first
    | intro _ | (with_reducible apply within_bind) | (with_reducible exact within_pure _) | (with_reducible exact within_st)
    | (with_reducible exact within_rd _) | (with_reducible exact within_now) | ((with_reducible refine (upPhase_in ..).mono ?_); rfl)
    | ((with_reducible refine (lockPhase_in ..).mono ?_); rfl) | split)

theorem askEngine_in (u0 src kind) : Within (FP.askEngine) (askEngine u0 src kind : M o _) := by
  unfold askEngine
  try dsimp only
  repeat' (first
    | intro _ | (with_reducible apply within_bind) | (with_reducible exact within_pure _) | (with_reducible exact within_st)
    | (with_reducible exact within_rd _) | (with_reducible exact within_now) | (with_reducible exact wrs_nil_in)
    | ((with_reducible refine wrs_in .PART_ENG_RST_STAT rfl ?_ ?_); rfl) | ((with_reducible refine (addRung_in ..).mono ?_); rfl)
    | ((with_reducible refine (lockReset_in ..).mono ?_); rfl) | split)

theorem putEngRst_in (p v) : Within (FP.askEngine) (putEngRst p v : M o _) := by
  unfold putEngRst
  try dsimp only
  repeat' (first
    | intro _ | (with_reducible apply within_bind) | (with_reducible exact within_pure _) | (with_reducible exact within_st)
    | (with_reducible exact within_rd _) | (with_reducible exact within_now) | ((with_reducible refine (askEngine_in ..).mono ?_); rfl)
    | split)

theorem putCodeCfg_in (v) : Within (FP.takeTokens) (putCodeCfg v : M o _) := by
  unfold putCodeCfg
  try dsimp only
  repeat' (first
    | intro _ | (with_reducible apply within_bind) | (with_reducible exact within_pure _) | (with_reducible exact within_st)
    | (with_reducible exact within_rd _) | (with_reducible exact within_now) | ((with_reducible refine eff_in .rcd rfl ?_); rfl) | split)

theorem setUpd_in (v) : Within (FP.setUpd) (setUpd v : M o _) := by
  unfold setUpd
  try dsimp only
  repeat' (first
    | intro _ | (with_reducible apply within_bind) | (with_reducible exact within_pure _) | (with_reducible exact within_st)
    | (with_reducible exact within_rd _) | (with_reducible exact within_now) | ((with_reducible refine (notice_in ..).mono ?_); rfl)
    | ((with_reducible refine wr_in .UPD_STAT rfl ?_); rfl) | ((with_reducible refine eff_in .nor rfl ?_); rfl)
    | (with_reducible apply within_when) | split)

theorem updCancel_in : Within (FP.setUpd) (updCancel : M o _) := by
  unfold updCancel
  try dsimp only
  repeat' (first
    | intro _ | (with_reducible apply within_bind) | (with_reducible exact within_pure _) | (with_reducible exact within_st)
    | (with_reducible exact within_rd _) | (with_reducible exact within_now) | ((with_reducible refine (setUpd_in ..).mono ?_); rfl)
    | (with_reducible apply within_when) | split)

theorem updRefuse_in : Within (FP.updRefuse) (updRefuse : M o _) := by
  unfold updRefuse
  try dsimp only
  repeat' (first
    | intro _ | (with_reducible apply within_bind) | (with_reducible exact within_pure _) | (with_reducible exact within_st)
    | (with_reducible exact within_rd _) | (with_reducible exact within_now) | ((with_reducible refine wr_in .UPD_STAT rfl ?_); rfl)
    | split)

theorem updProgram_in : Within (FP.setUpd) (updProgram : M o _) := by
  unfold updProgram
  try dsimp only
  repeat' (first
    | intro _ | (with_reducible apply within_bind) | (with_reducible exact within_pure _) | (with_reducible exact within_st)
    | (with_reducible exact within_rd _) | (with_reducible exact within_now) | ((with_reducible refine (updRefuse_in).mono ?_); rfl)
    | ((with_reducible refine (setUpd_in ..).mono ?_); rfl) | ((with_reducible refine eff_in .nor rfl ?_); rfl) | split)

theorem updCheck_in : Within (FP.setUpd) (updCheck : M o _) := by
  unfold updCheck
  try dsimp only
  repeat' (first
    | intro _ | (with_reducible apply within_bind) | (with_reducible exact within_pure _) | (with_reducible exact within_st)
    | (with_reducible exact within_rd _) | (with_reducible exact within_now) | ((with_reducible refine (updRefuse_in).mono ?_); rfl)
    | ((with_reducible refine (setUpd_in ..).mono ?_); rfl) | (with_reducible exact wrs_nil_in)
    | ((with_reducible refine wrs_in .UPD_STAT rfl ?_ ?_); rfl) | split)

theorem putUpdCtl_in (v) : Within (FP.setUpd) (putUpdCtl v : M o _) := by
  unfold putUpdCtl
  try dsimp only
  repeat' (first
    | intro _ | (with_reducible apply within_bind) | (with_reducible exact within_pure _) | (with_reducible exact within_st)
    | (with_reducible exact within_rd _) | (with_reducible exact within_now) | ((with_reducible refine (updCancel_in).mono ?_); rfl)
    | ((with_reducible refine (updProgram_in).mono ?_); rfl) | ((with_reducible refine (updCheck_in).mono ?_); rfl)
    | (with_reducible apply within_when) | split)

end Sys2Proof.Machine
end

