-- ==== Sys2Proof/Laws/Foot2.lean ====
section
/-!
SUPPORT. Footprints of the shared operations, part 2: one lemma per operation, which says everything that it can change.
-/

namespace Sys2Proof.Machine

variable {o : State}

theorem putErrLog_in (v) : Within (FP.putErrLog) (putErrLog v : M o _) := by
  unfold putErrLog
  try dsimp only
  repeat' (first
    | intro _ | (with_reducible apply within_bind) | (with_reducible exact within_pure _) | (with_reducible exact within_st)
    | (with_reducible exact within_rd _) | (with_reducible exact within_now)
    | ((with_reducible refine wr_in .MEM_ERRLOG_STAT rfl ?_); rfl) | split)

theorem mboxPut_in (p g n v) : Within (FP.mboxPut) (mboxPut p g n v : M o _) := by
  unfold mboxPut
  try dsimp only
  repeat' (first
    | intro _ | (with_reducible apply within_bind) | (with_reducible exact within_pure _) | (with_reducible exact within_st)
    | (with_reducible exact within_rd _) | (with_reducible exact within_now)
    | ((with_reducible refine setF_in .PART_CORE_MISC rfl ?_) <;> rfl) | ((with_reducible refine (refreshCore_in ..).mono ?_); rfl)
    | ((with_reducible refine wr_in .PART_CORE_MBOXn rfl ?_); rfl) | (with_reducible apply within_when) | split)

theorem putMbox_in (p g n v) : Within (FP.mboxPut) (putMbox p g n v : M o _) := by
  unfold putMbox
  try dsimp only
  repeat' (first
    | intro _ | (with_reducible apply within_bind) | (with_reducible exact within_pure _) | (with_reducible exact within_st)
    | (with_reducible exact within_rd _) | (with_reducible exact within_now) | ((with_reducible refine (mboxPut_in ..).mono ?_); rfl)
    | split)

theorem regPut_in (k ix v src kind) : Within (FP.regPut) (regPut k ix v src kind : M o _) := by
  unfold regPut
  try dsimp only
  repeat' (first
    | intro _ | (with_reducible apply within_bind) | (with_reducible exact within_pure _) | (with_reducible exact within_st)
    | (with_reducible exact within_rd _) | (with_reducible exact within_now) | ((with_reducible refine (putRingCfg_in ..).mono ?_); rfl)
    | ((with_reducible refine (putBase_in ..).mono ?_); rfl) | ((with_reducible refine (putBankCtl_in ..).mono ?_); rfl)
    | ((with_reducible refine (putRstReq_in ..).mono ?_); rfl) | ((with_reducible refine (putQsCtl_in ..).mono ?_); rfl)
    | ((with_reducible refine (putEngRst_in ..).mono ?_); rfl) | ((with_reducible refine (putCodeCfg_in ..).mono ?_); rfl)
    | ((with_reducible refine (putUpdCtl_in ..).mono ?_); rfl) | ((with_reducible refine (putHifCtl_in ..).mono ?_); rfl)
    | ((with_reducible refine (putPortCtl_in ..).mono ?_); rfl) | ((with_reducible refine (putTimeCfg_in ..).mono ?_); rfl)
    | ((with_reducible refine (putTimeHi_in ..).mono ?_); rfl) | ((with_reducible refine (putMbox_in ..).mono ?_); rfl)
    | ((with_reducible refine (putMsix_in ..).mono ?_); rfl) | ((with_reducible refine (putSetting_in ..).mono ?_); rfl)
    | ((with_reducible refine (putQsStat_in ..).mono ?_); rfl) | ((with_reducible refine (putErrLog_in ..).mono ?_); rfl)
    | ((with_reducible refine (refreshCore_in ..).mono ?_); rfl) | exact putReg_in _ (sub_kind _ (by decide +kernel)) | split)

theorem stagingPut_in (off v) : Within (FP.stagingPut) (stagingPut off v : M o _) := by
  unfold stagingPut
  try dsimp only
  repeat' (first
    | intro _ | (with_reducible apply within_bind) | (with_reducible exact within_pure _) | (with_reducible exact within_st)
    | (with_reducible exact within_rd _) | (with_reducible exact within_now) | ((with_reducible refine (setUpd_in ..).mono ?_); rfl)
    | ((with_reducible refine eff_in .upd rfl ?_); rfl) | (with_reducible apply within_when) | split)

theorem putStaging_in (off v) : Within (FP.stagingPut) (putStaging off v : M o _) := by
  unfold putStaging
  try dsimp only
  repeat' (first
    | intro _ | (with_reducible apply within_bind) | (with_reducible exact within_pure _) | (with_reducible exact within_st)
    | (with_reducible exact within_rd _) | (with_reducible exact within_now) | ((with_reducible refine (stagingPut_in ..).mono ?_); rfl)
    | split)

theorem tablePut_in (a v) : Within (FP.bankCancel) (tablePut a v : M o _) := by
  unfold tablePut
  try dsimp only
  repeat' (first
    | intro _ | (with_reducible apply within_bind) | (with_reducible exact within_pure _) | (with_reducible exact within_st)
    | (with_reducible exact within_rd _) | (with_reducible exact within_now) | ((with_reducible refine (bankRefuse_in).mono ?_); rfl)
    | ((with_reducible refine (upBank_in ..).mono ?_); rfl) | ((with_reducible refine wr_in .FZ_BANK_STAT rfl ?_); rfl) | split)

theorem putTable_in (off v) : Within (FP.bankCancel) (putTable off v : M o _) := by
  unfold putTable
  try dsimp only
  repeat' (first
    | intro _ | (with_reducible apply within_bind) | (with_reducible exact within_pure _) | (with_reducible exact within_st)
    | (with_reducible exact within_rd _) | (with_reducible exact within_now) | ((with_reducible refine (tablePut_in ..).mono ?_); rfl)
    | split)

theorem putWord_in (off v src kind) : Within (FP.regPut) (putWord off v src kind : M o _) := by
  unfold putWord
  try dsimp only
  repeat' (first
    | intro _ | (with_reducible apply within_bind) | (with_reducible exact within_pure _) | (with_reducible exact within_st)
    | (with_reducible exact within_rd _) | (with_reducible exact within_now) | ((with_reducible refine (putStaging_in ..).mono ?_); rfl)
    | ((with_reducible refine (putTable_in ..).mono ?_); rfl) | ((with_reducible refine regResult_in ?_ ?_) <;> [rfl; skip])
    | ((with_reducible refine (regPut_in ..).mono ?_); rfl) | split)

theorem barWord_in (src off v) : Within (FP.regPut) (barWord src off v : M o _) := by
  unfold barWord
  try dsimp only
  repeat' (first
    | intro _ | (with_reducible apply within_bind) | (with_reducible exact within_pure _) | (with_reducible exact within_st)
    | (with_reducible exact within_rd _) | (with_reducible exact within_now) | ((with_reducible refine (wordRec_in ..).mono ?_); rfl)
    | ((with_reducible refine (putWord_in ..).mono ?_); rfl) | split)

theorem barField_in {fp : Nat} {src f v} {put} (hm : FP.evRaw &&& fp = FP.evRaw) (hb : ∀ x, Within fp (put x)) :
    Within fp (barField src f v put : M o _) := by
  unfold barField
  try dsimp only
  repeat' (first
    | with_reducible exact hb | with_reducible exact hb _ | intro _ | (with_reducible apply within_bind)
    | (with_reducible exact within_pure _) | (with_reducible exact within_st) | (with_reducible exact within_rd _)
    | (with_reducible exact within_now) | ((with_reducible refine barReg_in ?_ ?_) <;> [exact sub_trans rfl hm; skip]) | split)

theorem barBytes_in (src off len v) : Within (FP.regPut) (barBytes src off len v : M o _) := by
  unfold barBytes
  try dsimp only
  repeat' (first
    | intro _ | (with_reducible apply within_bind) | (with_reducible exact within_pure _) | (with_reducible exact within_st)
    | (with_reducible exact within_rd _) | (with_reducible exact within_now)
    | ((with_reducible refine barAccess_in ?_ ?_) <;> [rfl; skip]) | ((with_reducible refine (barWord_in ..).mono ?_); rfl)
    | ((with_reducible refine (wordRec_in ..).mono ?_); rfl) | split)

theorem noteFault_in (code unit) : Within (FP.noteFault) (noteFault code unit : M o _) := by
  unfold noteFault
  try dsimp only
  repeat' (first
    | intro _ | (with_reducible apply within_bind) | (with_reducible exact within_pure _) | (with_reducible exact within_st)
    | (with_reducible exact within_rd _) | (with_reducible exact within_now) | ((with_reducible refine eff_in .watch rfl ?_); rfl) | split)

theorem unitFail_in (u status detail) : Within (FP.unitFail) (unitFail u status detail : M o _) := by
  unfold unitFail
  try dsimp only
  repeat' (first
    | intro _ | (with_reducible apply within_bind) | (with_reducible exact within_pure _) | (with_reducible exact within_st)
    | (with_reducible exact within_rd _) | (with_reducible exact within_now) | ((with_reducible refine (restUnit_in ..).mono ?_); rfl)
    | ((with_reducible refine (noteFault_in ..).mono ?_); rfl) | ((with_reducible refine (lockPhase_in ..).mono ?_); rfl)
    | ((with_reducible refine (refreshPhase_in ..).mono ?_); rfl) | ((with_reducible refine wr_in .PART_ARR_STAT rfl ?_); rfl)
    | ((with_reducible refine wr_in .PART_CORE_STAT rfl ?_); rfl) | ((with_reducible refine wr_in .PART_STR_STAT rfl ?_); rfl)
    | exact wr_in _ rfl (stFld_bit _ (by rfl) (by rfl) (by rfl)) | (with_reducible apply within_when) | split)

theorem resFail_in (p n m point) : Within (FP.resFail) (resFail p n m point : M o _) := by
  unfold resFail
  try dsimp only
  repeat' (first
    | intro _ | (with_reducible apply within_bind) | (with_reducible exact within_pure _) | (with_reducible exact within_st)
    | (with_reducible exact within_rd _) | (with_reducible exact within_now)
    | ((with_reducible refine setF_in .PART_ARR_EXC rfl ?_) <;> rfl) | ((with_reducible refine incSat_in .PART_ARR_RESCNT rfl ?_) <;> rfl)
    | ((with_reducible refine (ev_in ..).mono ?_); rfl) | ((with_reducible refine (unitFail_in ..).mono ?_); rfl) | split)

theorem arrIllegal_in (p n) : Within (FP.arrIllegal) (arrIllegal p n : M o _) := by
  unfold arrIllegal
  try dsimp only
  repeat' (first
    | intro _ | (with_reducible apply within_bind) | (with_reducible exact within_pure _) | (with_reducible exact within_st)
    | (with_reducible exact within_rd _) | (with_reducible exact within_now)
    | ((with_reducible refine setF_in .PART_ARR_STAT rfl ?_) <;> rfl) | ((with_reducible refine (ev_in ..).mono ?_); rfl)
    | ((with_reducible refine (unitFail_in ..).mono ?_); rfl) | split)

theorem arrDataLoss_in (p n detail) : Within (FP.unitFail) (arrDataLoss p n detail : M o _) := by
  unfold arrDataLoss
  try dsimp only
  repeat' (first
    | intro _ | (with_reducible apply within_bind) | (with_reducible exact within_pure _) | (with_reducible exact within_st)
    | (with_reducible exact within_rd _) | (with_reducible exact within_now)
    | ((with_reducible refine setF_in .PART_ARR_STAT rfl ?_) <;> rfl) | ((with_reducible refine (unitFail_in ..).mono ?_); rfl) | split)

theorem shadowFail_in (p n) : Within (FP.arrIllegal) (shadowFail p n : M o _) := by
  unfold shadowFail
  try dsimp only
  repeat' (first
    | intro _ | (with_reducible apply within_bind) | (with_reducible exact within_pure _) | (with_reducible exact within_st)
    | (with_reducible exact within_rd _) | (with_reducible exact within_now)
    | ((with_reducible refine setF_in .PART_ARR_STAT rfl ?_) <;> rfl) | ((with_reducible refine (ev_in ..).mono ?_); rfl)
    | ((with_reducible refine (unitFail_in ..).mono ?_); rfl) | split)

theorem headerFail_in (p n m) : Within (FP.headerFail) (headerFail p n m : M o _) := by
  unfold headerFail
  try dsimp only
  repeat' (first
    | intro _ | (with_reducible apply within_bind) | (with_reducible exact within_pure _) | (with_reducible exact within_st)
    | (with_reducible exact within_rd _) | (with_reducible exact within_now)
    | ((with_reducible refine setF_in .PART_ARR_EXC rfl ?_) <;> rfl) | ((with_reducible refine (ev_in ..).mono ?_); rfl)
    | ((with_reducible refine (unitFail_in ..).mono ?_); rfl) | split)

theorem parityFail_in (p n m) : Within (FP.arrIllegal) (parityFail p n m : M o _) := by
  unfold parityFail
  try dsimp only
  repeat' (first
    | intro _ | (with_reducible apply within_bind) | (with_reducible exact within_pure _) | (with_reducible exact within_st)
    | (with_reducible exact within_rd _) | (with_reducible exact within_now) | ((with_reducible refine (ev_in ..).mono ?_); rfl)
    | ((with_reducible refine (unitFail_in ..).mono ?_); rfl) | split)

theorem upArr_in (p n f) : Within (FP.upArr) (upArr p n f : M o _) := by
  unfold upArr
  try dsimp only
  repeat' (first
    | intro _ | (with_reducible apply within_bind) | (with_reducible exact within_pure _) | (with_reducible exact within_st)
    | (with_reducible exact within_rd _) | (with_reducible exact within_now) | ((with_reducible refine eff_in .arr rfl ?_); rfl) | split)

theorem applyCells_in (p n) (l : List CellUpset) : Within (FP.upArr) (applyCells p n l : M o _) := by
  induction l with
  | nil => exact within_pure _
  | cons u l ih =>
    unfold applyCells
    exact within_bind ((upArr_in ..).mono (by rfl)) fun _ => ih

theorem logPut_in (e w0 a seq syn) : Within (FP.logPut) (logPut e w0 a seq syn : M o _) := by
  unfold logPut
  try dsimp only
  repeat' (first
    | intro _ | (with_reducible apply within_bind) | (with_reducible exact within_pure _) | (with_reducible exact within_st)
    | (with_reducible exact within_rd _) | (with_reducible exact within_now) | ((with_reducible refine wr_in .MEM_ERRLOG rfl ?_); rfl)
    | ((with_reducible refine wr_in .MEM_ERRLOG_STAT rfl ?_); rfl) | split)

theorem logErr_in (ue tier rdr pos unit a syn) : Within (FP.logErr) (logErr ue tier rdr pos unit a syn : M o _) := by
  unfold logErr
  try dsimp only
  repeat' (first
    | intro _ | (with_reducible apply within_bind) | (with_reducible exact within_pure _) | (with_reducible exact within_st)
    | (with_reducible exact within_rd _) | (with_reducible exact within_now) | ((with_reducible refine (logPut_in ..).mono ?_); rfl)
    | ((with_reducible refine incSat_in .MEM_ERRLOG_STAT rfl ?_) <;> rfl) | ((with_reducible refine setF_in .MEM_STAT rfl ?_) <;> rfl)
    | ((with_reducible refine wr_in .MEM_ERRLOG_STAT rfl ?_); rfl) | split)

theorem readVault_in (rdr unit a len) : Within (FP.readVault) (readVault rdr unit a len : M o _) := by
  unfold readVault
  try dsimp only
  repeat' (first
    | intro _ | (with_reducible apply within_bind) | (with_reducible exact within_pure _) | (with_reducible exact within_st)
    | (with_reducible exact within_rd _) | (with_reducible exact within_now)
    | ((with_reducible refine setF_in .MEM_VLT_STAT rfl ?_) <;> rfl) | ((with_reducible refine (logErr_in ..).mono ?_); rfl)
    | ((with_reducible refine (ev_in ..).mono ?_); rfl) | ((with_reducible refine eff_in .mem rfl ?_); rfl) | split)

theorem noteChan_in (s a) : Within (FP.noteFault) (noteChan s a : M o _) := by
  unfold noteChan
  try dsimp only
  repeat' (first
    | intro _ | (with_reducible apply within_bind) | (with_reducible exact within_pure _) | (with_reducible exact within_st)
    | (with_reducible exact within_rd _) | (with_reducible exact within_now) | ((with_reducible refine (noteFault_in ..).mono ?_); rfl)
    | split)

theorem pokes_in (l : List (Nat × Byte)) : Within (FP.pokes) (pokes l : M o _) := by
  induction l with
  | nil => exact within_pure _
  | cons u l ih =>
    unfold pokes
    exact within_bind (eff_in .write rfl (by rfl)) fun _ => ih

theorem upCore_in (p g f) : Within (FP.upCore) (upCore p g f : M o _) := by
  unfold upCore
  try dsimp only
  repeat' (first
    | intro _ | (with_reducible apply within_bind) | (with_reducible exact within_pure _) | (with_reducible exact within_st)
    | (with_reducible exact within_rd _) | (with_reducible exact within_now) | ((with_reducible refine eff_in .core rfl ?_); rfl) | split)

theorem lmce_in (p g) : Within (FP.lmce) (lmce p g : M o _) := by
  unfold lmce
  try dsimp only
  repeat' (first
    | intro _ | (with_reducible apply within_bind) | (with_reducible exact within_pure _) | (with_reducible exact within_st)
    | (with_reducible exact within_rd _) | (with_reducible exact within_now)
    | ((with_reducible refine incSat_in .PART_CORE_MISC rfl ?_) <;> rfl) | ((with_reducible refine (upCore_in ..).mono ?_); rfl)
    | ((with_reducible refine (refreshCore_in ..).mono ?_); rfl) | (with_reducible apply within_when) | split)

theorem onCorrect_in (rdr unit cw k syn) : Within (FP.onCorrect) (onCorrect rdr unit cw k syn : M o _) := by
  unfold onCorrect
  try dsimp only
  repeat' (first
    | intro _ | (with_reducible apply within_bind) | (with_reducible exact within_pure _) | (with_reducible exact within_st)
    | (with_reducible exact within_rd _) | (with_reducible exact within_now)
    | ((with_reducible refine incSat_in .MEM_CE_SR_p rfl ?_) <;> rfl) | ((with_reducible refine incSat_in .MEM_CE_T0_c rfl ?_) <;> rfl)
    | ((with_reducible refine incSat_in .MEM_CE_T1_c rfl ?_) <;> rfl) | ((with_reducible refine (logErr_in ..).mono ?_); rfl)
    | ((with_reducible refine (ev_in ..).mono ?_); rfl) | ((with_reducible refine setF_in .MEM_CE_SR_p rfl ?_) <;> rfl)
    | ((with_reducible refine setF_in .MEM_CE_T0_c rfl ?_) <;> rfl) | ((with_reducible refine setF_in .MEM_CE_T1_c rfl ?_) <;> rfl)
    | ((with_reducible refine (lmce_in ..).mono ?_); rfl) | ((with_reducible refine eff_in .mem rfl ?_); rfl)
    | exact incSat_in _ rfl (ceCount_bit _ _ (by rfl) (by rfl) (by rfl)) | exact setF_in _ rfl (ceHot_bit _ _ (by rfl) (by rfl) (by rfl))
    | (with_reducible apply within_when) | split)

theorem onLost_in (rdr unit cw syn) : Within (FP.onLost) (onLost rdr unit cw syn : M o _) := by
  unfold onLost
  try dsimp only
  repeat' (first
    | intro _ | (with_reducible apply within_bind) | (with_reducible exact within_pure _) | (with_reducible exact within_st)
    | (with_reducible exact within_rd _) | (with_reducible exact within_now) | ((with_reducible refine (noteFault_in ..).mono ?_); rfl)
    | ((with_reducible refine (logErr_in ..).mono ?_); rfl) | ((with_reducible refine (ev_in ..).mono ?_); rfl)
    | (with_reducible apply within_when) | split)

theorem checkCw_in (rdr unit cw) : Within (FP.checkCw) (checkCw rdr unit cw : M o _) := by
  unfold checkCw
  try dsimp only
  repeat' (first
    | intro _ | (with_reducible apply within_bind) | (with_reducible exact within_pure _) | (with_reducible exact within_st)
    | (with_reducible exact within_rd _) | (with_reducible exact within_now) | ((with_reducible refine (pokes_in ..).mono ?_); rfl)
    | ((with_reducible refine (onCorrect_in ..).mono ?_); rfl) | ((with_reducible refine (onLost_in ..).mono ?_); rfl)
    | ((with_reducible refine eff_in .mem rfl ?_); rfl) | split)

theorem checkCws_in (rdr unit) (l : List Nat) : Within (FP.checkCw) (checkCws rdr unit l : M o _) := by
  induction l with
  | nil => exact within_pure _
  | cons u l ih =>
    unfold checkCws
    refine within_bind ((checkCw_in ..).mono (by rfl)) fun _ => ?_
    split
    · exact ih
    · exact within_pure _

theorem readMem_in (rdr unit a len) : Within (FP.readMem) (readMem rdr unit a len : M o _) := by
  unfold readMem
  try dsimp only
  repeat' (first
    | intro _ | (with_reducible apply within_bind) | (with_reducible exact within_pure _) | (with_reducible exact within_st)
    | (with_reducible exact within_rd _) | (with_reducible exact within_now) | ((with_reducible refine (readVault_in ..).mono ?_); rfl)
    | ((with_reducible refine (noteChan_in ..).mono ?_); rfl) | ((with_reducible refine (checkCws_in ..).mono ?_); rfl) | split)

theorem readStore_in (p n slot cnt) : Within (FP.readMem) (readStore p n slot cnt : M o _) := by
  unfold readStore
  try dsimp only
  repeat' (first
    | intro _ | (with_reducible apply within_bind) | (with_reducible exact within_pure _) | (with_reducible exact within_st)
    | (with_reducible exact within_rd _) | (with_reducible exact within_now) | ((with_reducible refine (readMem_in ..).mono ?_); rfl)
    | split)

theorem upTile_in (p n f) : Within (FP.upArr) (upTile p n f : M o _) := by
  unfold upTile
  try dsimp only
  repeat' (first
    | intro _ | (with_reducible apply within_bind) | (with_reducible exact within_pure _) | (with_reducible exact within_st)
    | (with_reducible exact within_rd _) | (with_reducible exact within_now) | ((with_reducible refine (upArr_in ..).mono ?_); rfl)
    | split)

theorem unitFlags_in (p n special inexact clamp) : Within (FP.unitFlags) (unitFlags p n special inexact clamp : M o _) := by
  unfold unitFlags
  try dsimp only
  repeat' (first
    | intro _ | (with_reducible apply within_bind) | (with_reducible exact within_pure _) | (with_reducible exact within_st)
    | (with_reducible exact within_rd _) | (with_reducible exact within_now)
    | ((with_reducible refine setF_in .PART_ARR_EXC rfl ?_) <;> rfl) | (with_reducible apply within_when) | split)

theorem arr_in {fp : Nat} (p n) : Within fp (arr p n : M o _) := by
  unfold arr
  try dsimp only
  repeat' (first
    | intro _ | (with_reducible apply within_bind) | (with_reducible exact within_pure _) | (with_reducible exact within_st)
    | (with_reducible exact within_rd _) | (with_reducible exact within_now) | split)

theorem enterUnit_in (p n m x odd bank xb wb f) : Within (FP.resFail) (enterUnit p n m x odd bank xb wb f : M o _) := by
  unfold enterUnit
  try dsimp only
  repeat' (first
    | intro _ | (with_reducible apply within_bind) | (with_reducible exact within_pure _) | (with_reducible exact within_st)
    | (with_reducible exact within_rd _) | (with_reducible exact within_now) | ((with_reducible refine (headerFail_in ..).mono ?_); rfl)
    | ((with_reducible refine (parityFail_in ..).mono ?_); rfl) | (with_reducible exact arr_in ..)
    | ((with_reducible refine (unitFlags_in ..).mono ?_); rfl) | ((with_reducible refine (upArr_in ..).mono ?_); rfl)
    | ((with_reducible refine (resFail_in ..).mono ?_); rfl) | split)

theorem upQue_in (p q f) : Within (FP.upQue) (upQue p q f : M o _) := by
  unfold upQue
  try dsimp only
  repeat' (first
    | intro _ | (with_reducible apply within_bind) | (with_reducible exact within_pure _) | (with_reducible exact within_st)
    | (with_reducible exact within_rd _) | (with_reducible exact within_now) | ((with_reducible refine eff_in .que rfl ?_); rfl) | split)

theorem popSlot_in (unit p q) : Within (FP.popSlot) (popSlot unit p q : M o _) := by
  unfold popSlot
  try dsimp only
  repeat' (first
    | intro _ | (with_reducible apply within_bind) | (with_reducible exact within_pure _) | (with_reducible exact within_st)
    | (with_reducible exact within_rd _) | (with_reducible exact within_now) | ((with_reducible refine (readMem_in ..).mono ?_); rfl)
    | ((with_reducible refine (upQue_in ..).mono ?_); rfl) | split)

theorem stallC_in (u p q) : Within (FP.stallC) (stallC u p q : M o _) := by
  unfold stallC
  try dsimp only
  repeat' (first
    | intro _ | (with_reducible apply within_bind) | (with_reducible exact within_pure _) | (with_reducible exact within_st)
    | (with_reducible exact within_rd _) | (with_reducible exact within_now)
    | ((with_reducible refine setF_in .PART_Q_OCC rfl ?_) <;> rfl) | ((with_reducible refine (restUnit_in ..).mono ?_); rfl)
    | ((with_reducible refine wr_in .PART_ARR_STAT rfl ?_); rfl) | ((with_reducible refine wr_in .PART_CORE_STAT rfl ?_); rfl)
    | ((with_reducible refine wr_in .PART_STR_STAT rfl ?_); rfl) | exact wr_in _ rfl (stFld_bit _ (by rfl) (by rfl) (by rfl)) | split)

theorem gatherSide_in (p n d) : Within (FP.gatherSide) (gatherSide p n d : M o _) := by
  unfold gatherSide
  try dsimp only
  repeat' (first
    | intro _ | (with_reducible apply within_bind) | (with_reducible exact within_pure _) | (with_reducible exact within_st)
    | (with_reducible exact within_rd _) | (with_reducible exact within_now) | (with_reducible exact arr_in ..)
    | ((with_reducible refine (readStore_in ..).mono ?_); rfl) | ((with_reducible refine (arrDataLoss_in ..).mono ?_); rfl)
    | ((with_reducible refine (upTile_in ..).mono ?_); rfl) | ((with_reducible refine (popSlot_in ..).mono ?_); rfl)
    | ((with_reducible refine (stallC_in ..).mono ?_); rfl) | split)

theorem gatherAll_in (p n : Nat) (l : List Side) : Within (FP.gatherSide) (gatherAll p n l : M o _) := by
  induction l with
  | nil => exact within_pure _
  | cons u l ih =>
    unfold gatherAll
    refine within_bind (arr_in ..) fun _ => within_bind (gatherSide_in ..) fun _ => ?_
    repeat' (first
      | (with_reducible exact ih) | (with_reducible exact within_pure _) | (with_reducible refine within_bind (arr_in ..) ?_)
      | intro _ | split | dsimp only)

theorem stepUnit_in (p n f) : Within (FP.resFail) (stepUnit p n f : M o _) := by
  unfold stepUnit
  try dsimp only
  repeat' (first
    | intro _ | (with_reducible apply within_bind) | (with_reducible exact within_pure _) | (with_reducible exact within_st)
    | (with_reducible exact within_rd _) | (with_reducible exact within_now) | (with_reducible exact arr_in ..)
    | ((with_reducible refine (upTile_in ..).mono ?_); rfl) | ((with_reducible refine (enterUnit_in ..).mono ?_); rfl) | split)

theorem endTile_in (p n) : Within (FP.upArr) (endTile p n : M o _) := by
  unfold endTile
  try dsimp only
  repeat' (first
    | intro _ | (with_reducible apply within_bind) | (with_reducible exact within_pure _) | (with_reducible exact within_st)
    | (with_reducible exact within_rd _) | (with_reducible exact within_now) | ((with_reducible refine (upArr_in ..).mono ?_); rfl)
    | split)

theorem streamStep_in (p n f) : Within (FP.streamStep) (streamStep p n f : M o _) := by
  unfold streamStep
  try dsimp only
  repeat' (first
    | intro _ | (with_reducible apply within_bind) | (with_reducible exact within_pure _) | (with_reducible exact within_st)
    | (with_reducible exact within_rd _) | (with_reducible exact within_now) | (with_reducible exact arr_in ..)
    | ((with_reducible refine (endTile_in ..).mono ?_); rfl) | ((with_reducible refine (gatherAll_in ..).mono ?_); rfl)
    | ((with_reducible refine (stepUnit_in ..).mono ?_); rfl) | split)

theorem writeMem_in (rdr unit a bs) : Within (FP.checkCw) (writeMem rdr unit a bs : M o _) := by
  unfold writeMem
  try dsimp only
  repeat' (first
    | intro _ | (with_reducible apply within_bind) | (with_reducible exact within_pure _) | (with_reducible exact within_st)
    | (with_reducible exact within_rd _) | (with_reducible exact within_now) | ((with_reducible refine (noteChan_in ..).mono ?_); rfl)
    | ((with_reducible refine (checkCws_in ..).mono ?_); rfl) | ((with_reducible refine eff_in .mem rfl ?_); rfl)
    | ((with_reducible refine eff_in .write rfl ?_); rfl) | (with_reducible apply within_when) | split)

theorem refreshEnds_in (p q) : Within (FP.istatWord) (refreshEnds p q : M o _) := by
  unfold refreshEnds
  try dsimp only
  repeat' (first
    | intro _ | (with_reducible apply within_bind) | (with_reducible exact within_pure _) | (with_reducible exact within_st)
    | (with_reducible exact within_rd _) | (with_reducible exact within_now) | ((with_reducible refine (refreshCore_in ..).mono ?_); rfl)
    | (with_reducible apply within_each) | split)

theorem pushSlot_in (p q unit bs) : Within (FP.pushSlot) (pushSlot p q unit bs : M o _) := by
  unfold pushSlot
  try dsimp only
  repeat' (first
    | intro _ | (with_reducible apply within_bind) | (with_reducible exact within_pure _) | (with_reducible exact within_st)
    | (with_reducible exact within_rd _) | (with_reducible exact within_now) | ((with_reducible refine (writeMem_in ..).mono ?_); rfl)
    | ((with_reducible refine (upQue_in ..).mono ?_); rfl) | ((with_reducible refine (refreshEnds_in ..).mono ?_); rfl)
    | ((with_reducible refine wr_in .PART_Q_CREDIT rfl ?_); rfl) | split)

theorem drainStep_in (p n) : Within (FP.drainStep) (drainStep p n : M o _) := by
  unfold drainStep
  try dsimp only
  repeat' (first
    | intro _ | (with_reducible apply within_bind) | (with_reducible exact within_pure _) | (with_reducible exact within_st)
    | (with_reducible exact within_rd _) | (with_reducible exact within_now) | (with_reducible exact arr_in ..)
    | ((with_reducible refine setF_in .PART_Q_CREDIT rfl ?_) <;> rfl) | ((with_reducible refine (pushSlot_in ..).mono ?_); rfl)
    | ((with_reducible refine (upArr_in ..).mono ?_); rfl) | split)

theorem arrWork_in (p n f) : Within (FP.streamStep) (arrWork p n f : M o _) := by
  unfold arrWork
  try dsimp only
  repeat' (first
    | intro _ | (with_reducible apply within_bind) | (with_reducible exact within_pure _) | (with_reducible exact within_st)
    | (with_reducible exact within_rd _) | (with_reducible exact within_now) | ((with_reducible refine (streamStep_in ..).mono ?_); rfl)
    | ((with_reducible refine (drainStep_in ..).mono ?_); rfl) | (with_reducible apply within_loop) | split)

theorem kickUnit_in (u) : Within (FP.streamStep) (kickUnit u : M o _) := by
  unfold kickUnit
  try dsimp only
  repeat' (first
    | intro _ | (with_reducible apply within_bind) | (with_reducible exact within_pure _) | (with_reducible exact within_st)
    | (with_reducible exact within_rd _) | (with_reducible exact within_now) | ((with_reducible refine (arrWork_in ..).mono ?_); rfl)
    | split)

theorem kickQ_in (p q) : Within (FP.streamStep) (kickQ p q : M o _) := by
  unfold kickQ
  try dsimp only
  repeat' (first
    | intro _ | (with_reducible apply within_bind) | (with_reducible exact within_pure _) | (with_reducible exact within_st)
    | (with_reducible exact within_rd _) | (with_reducible exact within_now) | ((with_reducible refine (kickUnit_in ..).mono ?_); rfl)
    | split)

theorem excFlags_in (p n e) : Within (FP.unitFlags) (excFlags p n e : M o _) := by
  unfold excFlags
  try dsimp only
  repeat' (first
    | intro _ | (with_reducible apply within_bind) | (with_reducible exact within_pure _) | (with_reducible exact within_st)
    | (with_reducible exact within_rd _) | (with_reducible exact within_now)
    | ((with_reducible refine setF_in .PART_ARR_EXC rfl ?_) <;> rfl) | (with_reducible apply within_when) | split)

theorem slopeStart_in (key) : Within (FP.slopeStop) (slopeStart key : M o _) := by
  unfold slopeStart
  try dsimp only
  repeat' (first
    | intro _ | (with_reducible apply within_bind) | (with_reducible exact within_pure _) | (with_reducible exact within_st)
    | (with_reducible exact within_rd _) | (with_reducible exact within_now) | ((with_reducible refine (upGrant_in ..).mono ?_); rfl)
    | ((with_reducible refine eff_in .arr rfl ?_); rfl) | split)

theorem runUnit_in (u) : Within (FP.stopUnit) (runUnit u : M o _) := by
  unfold runUnit
  try dsimp only
  repeat' (first
    | intro _ | (with_reducible apply within_bind) | (with_reducible exact within_pure _) | (with_reducible exact within_st)
    | (with_reducible exact within_rd _) | (with_reducible exact within_now) | ((with_reducible refine (slopeStart_in ..).mono ?_); rfl)
    | ((with_reducible refine wr_in .PART_ARR_STAT rfl ?_); rfl) | ((with_reducible refine wr_in .PART_CORE_STAT rfl ?_); rfl)
    | ((with_reducible refine wr_in .PART_STR_STAT rfl ?_); rfl) | exact wr_in _ rfl (stFld_bit _ (by rfl) (by rfl) (by rfl))
    | (with_reducible apply within_each) | split)

theorem retire_in (p n) : Within (FP.stopUnit) (retire p n : M o _) := by
  unfold retire
  try dsimp only
  repeat' (first
    | intro _ | (with_reducible apply within_bind) | (with_reducible exact within_pure _) | (with_reducible exact within_st)
    | (with_reducible exact within_rd _) | (with_reducible exact within_now) | ((with_reducible refine (runUnit_in ..).mono ?_); rfl)
    | ((with_reducible refine wr_in .PART_ARR_STAT rfl ?_); rfl) | split)

theorem jumpTo_in (p n t) : Within (FP.stopUnit) (jumpTo p n t : M o _) := by
  unfold jumpTo
  try dsimp only
  repeat' (first
    | intro _ | (with_reducible apply within_bind) | (with_reducible exact within_pure _) | (with_reducible exact within_st)
    | (with_reducible exact within_rd _) | (with_reducible exact within_now) | ((with_reducible refine (runUnit_in ..).mono ?_); rfl)
    | ((with_reducible refine wr_in .PART_ARR_STAT rfl ?_); rfl) | split)

theorem applyUps_in (l : List Upset) : Within (FP.setPass) (applyUps l : M o _) := by
  induction l with
  | nil => exact within_pure ()
  | cons u l ih =>
    unfold applyUps
    refine within_bind within_st fun _ => ?_
    dsimp only
    repeat' (first
      | (with_reducible exact ih) | (with_reducible exact within_pure _) | ((with_reducible refine eff_in .mem rfl ?_); rfl)
      | (with_reducible apply within_bind) | intro _ | split)

theorem wakeQ_in (p q) : Within (FP.wakeQ) (wakeQ p q : M o _) := by
  unfold wakeQ
  try dsimp only
  repeat' (first
    | intro _ | (with_reducible apply within_bind) | (with_reducible exact within_pure _) | (with_reducible exact within_st)
    | (with_reducible exact within_rd _) | (with_reducible exact within_now) | ((with_reducible refine (runUnit_in ..).mono ?_); rfl)
    | ((with_reducible refine wr_in .PART_Q_CREDIT rfl ?_); rfl) | ((with_reducible refine wr_in .PART_Q_OCC rfl ?_); rfl)
    | exact wr_in _ rfl (stFld_bit _ (by rfl) (by rfl) (by rfl)) | split)

theorem releaseSlot_in (p q) : Within (FP.releaseSlot) (releaseSlot p q : M o _) := by
  unfold releaseSlot
  try dsimp only
  repeat' (first
    | intro _ | (with_reducible apply within_bind) | (with_reducible exact within_pure _) | (with_reducible exact within_st)
    | (with_reducible exact within_rd _) | (with_reducible exact within_now) | ((with_reducible refine (upQue_in ..).mono ?_); rfl)
    | ((with_reducible refine (mark_in ..).mono ?_); rfl) | ((with_reducible refine (wakeQ_in ..).mono ?_); rfl)
    | ((with_reducible refine (refreshEnds_in ..).mono ?_); rfl) | ((with_reducible refine wr_in .PART_Q_CREDIT rfl ?_); rfl)
    | ((with_reducible refine wr_in .PART_Q_OCC rfl ?_); rfl) | (with_reducible apply within_when) | split)

theorem unitTurn_in (u) : Within (FP.releaseSlot) (unitTurn u : M o _) := by
  unfold unitTurn
  try dsimp only
  repeat' (first
    | intro _ | (with_reducible apply within_bind) | (with_reducible exact within_pure _) | (with_reducible exact within_st)
    | (with_reducible exact within_rd _) | (with_reducible exact within_now) | ((with_reducible refine (upQue_in ..).mono ?_); rfl)
    | ((with_reducible refine (releaseSlot_in ..).mono ?_); rfl) | ((with_reducible refine (runUnit_in ..).mono ?_); rfl)
    | exact wr_in _ rfl (stFld_bit _ (by rfl) (by rfl) (by rfl)) | split)

theorem arrTurn_in {fp : Nat} {p n opc f} {body} (hm : FP.arrTurn &&& fp = FP.arrTurn) (hb : ∀ x, Within fp (body x)) :
    Within fp (arrTurn p n opc f body : M o _) := by
  unfold arrTurn
  try dsimp only
  repeat' (first
    | with_reducible exact hb | with_reducible exact hb _ | intro _ | (with_reducible apply within_bind)
    | (with_reducible exact within_pure _) | (with_reducible exact within_st) | (with_reducible exact within_rd _)
    | (with_reducible exact within_now) | ((with_reducible refine (applyUps_in ..).mono ?_); exact sub_trans rfl hm)
    | ((with_reducible refine (applyCells_in ..).mono ?_); exact sub_trans rfl hm)
    | ((with_reducible refine (unitTurn_in ..).mono ?_); exact sub_trans rfl hm)
    | ((with_reducible refine (arrWork_in ..).mono ?_); exact sub_trans rfl hm)
    | ((with_reducible refine (readMem_in ..).mono ?_); exact sub_trans rfl hm)
    | ((with_reducible refine (arrDataLoss_in ..).mono ?_); exact sub_trans rfl hm) | (with_reducible exact arr_in ..)
    | ((with_reducible refine (arrIllegal_in ..).mono ?_); exact sub_trans rfl hm) | split)

theorem issueTile_in (p n b x start ostart) : Within (FP.stopUnit) (issueTile p n b x start ostart : M o _) := by
  unfold issueTile
  try dsimp only
  repeat' (first
    | intro _ | (with_reducible apply within_bind) | (with_reducible exact within_pure _) | (with_reducible exact within_st)
    | (with_reducible exact within_rd _) | (with_reducible exact within_now) | ((with_reducible refine (upArr_in ..).mono ?_); rfl)
    | ((with_reducible refine (retire_in ..).mono ?_); rfl) | split)

theorem initLanes_in (p n x) : Within (FP.readMem) (initLanes p n x : M o _) := by
  unfold initLanes
  try dsimp only
  repeat' (first
    | intro _ | (with_reducible apply within_bind) | (with_reducible exact within_pure _) | (with_reducible exact within_st)
    | (with_reducible exact within_rd _) | (with_reducible exact within_now) | (with_reducible exact arr_in ..)
    | ((with_reducible refine (readStore_in ..).mono ?_); rfl) | split)

theorem emitStore_in (p n slot split bs) : Within (FP.checkCw) (emitStore p n slot split bs : M o _) := by
  unfold emitStore
  try dsimp only
  repeat' (first
    | intro _ | (with_reducible apply within_bind) | (with_reducible exact within_pure _) | (with_reducible exact within_st)
    | (with_reducible exact within_rd _) | (with_reducible exact within_now) | ((with_reducible refine (writeMem_in ..).mono ?_); rfl)
    | split)

theorem upPair_in (p n f) : Within (FP.upArr) (upPair p n f : M o _) := by
  unfold upPair
  try dsimp only
  repeat' (first
    | intro _ | (with_reducible apply within_bind) | (with_reducible exact within_pure _) | (with_reducible exact within_st)
    | (with_reducible exact within_rd _) | (with_reducible exact within_now) | ((with_reducible refine (upArr_in ..).mono ?_); rfl)
    | split)

theorem mapArr_in (p n phys) : Within (FP.mapArr) (mapArr p n phys : M o _) := by
  unfold mapArr
  try dsimp only
  repeat' (first
    | intro _ | (with_reducible apply within_bind) | (with_reducible exact within_pure _) | (with_reducible exact within_st)
    | (with_reducible exact within_rd _) | (with_reducible exact within_now) | ((with_reducible refine wr_in .PART_TOP_ARRn rfl ?_); rfl)
    | (with_reducible apply within_each) | split)

theorem mapCore_in (p g phys) : Within (FP.mapCore) (mapCore p g phys : M o _) := by
  unfold mapCore
  try dsimp only
  repeat' (first
    | intro _ | (with_reducible apply within_bind) | (with_reducible exact within_pure _) | (with_reducible exact within_st)
    | (with_reducible exact within_rd _) | (with_reducible exact within_now) | ((with_reducible refine wr_in .PART_TOP_COREg rfl ?_); rfl)
    | (with_reducible apply within_each) | split)

theorem slopeFresh_in (key) : Within (FP.slopeStop) (slopeFresh key : M o _) := by
  unfold slopeFresh
  try dsimp only
  repeat' (first
    | intro _ | (with_reducible apply within_bind) | (with_reducible exact within_pure _) | (with_reducible exact within_st)
    | (with_reducible exact within_rd _) | (with_reducible exact within_now) | ((with_reducible refine (upGrant_in ..).mono ?_); rfl)
    | ((with_reducible refine eff_in .arr rfl ?_); rfl) | split)

theorem rotateArr_in (u phys phys2) : Within (FP.rotateArr) (rotateArr u phys phys2 : M o _) := by
  unfold rotateArr
  try dsimp only
  repeat' (first
    | intro _ | (with_reducible apply within_bind) | (with_reducible exact within_pure _) | (with_reducible exact within_st)
    | (with_reducible exact within_rd _) | (with_reducible exact within_now) | ((with_reducible refine (mapArr_in ..).mono ?_); rfl)
    | ((with_reducible refine (upArr_in ..).mono ?_); rfl) | ((with_reducible refine (refreshThrottle_in).mono ?_); rfl)
    | ((with_reducible refine (slopeFresh_in ..).mono ?_); rfl) | ((with_reducible refine (retire_in ..).mono ?_); rfl)
    | ((with_reducible refine eff_in .pw rfl ?_); rfl) | (with_reducible apply within_each) | (with_reducible apply within_when) | split)

theorem coreFail_in {fp : Nat} (k : RegKind) {p g : Nat} {f : Fld} {why status detail : Nat} (hk : f.k = k) (h : fp.testBit (64 + k.ctorIdx) = true)
    (hm : FP.arrIllegal &&& fp = FP.arrIllegal) : Within fp (coreFail p g f why status detail : M o _) := by
  unfold coreFail
  exact within_bind within_st fun _ => within_bind (setF_in k hk h) fun _ => within_bind
    ((ev_in ..).mono (sub_trans (by rfl) hm)) fun _ => (unitFail_in ..).mono (sub_trans (by rfl) hm)

theorem coreIllegal_in (p g) : Within (FP.arrIllegal) (coreIllegal p g : M o _) := by
  unfold coreIllegal
  try dsimp only
  repeat' (first
    | intro _ | (with_reducible apply within_bind) | (with_reducible exact within_pure _) | (with_reducible exact within_st)
    | (with_reducible exact within_rd _) | (with_reducible exact within_now)
    | ((with_reducible refine coreFail_in .PART_CORE_STAT rfl ?_ ?_) <;> rfl) | split)

theorem coreJump_in (p g pc) : Within (FP.coreJump) (coreJump p g pc : M o _) := by
  unfold coreJump
  try dsimp only
  repeat' (first
    | intro _ | (with_reducible apply within_bind) | (with_reducible exact within_pure _) | (with_reducible exact within_st)
    | (with_reducible exact within_rd _) | (with_reducible exact within_now) | ((with_reducible refine (upCore_in ..).mono ?_); rfl)
    | ((with_reducible refine (coreIllegal_in ..).mono ?_); rfl) | ((with_reducible refine wr_in .PART_ARR_STAT rfl ?_); rfl)
    | ((with_reducible refine wr_in .PART_CORE_STAT rfl ?_); rfl) | ((with_reducible refine wr_in .PART_STR_STAT rfl ?_); rfl)
    | exact wr_in _ rfl (stFld_bit _ (by rfl) (by rfl) (by rfl)) | split)

theorem coreNext_in (p g) : Within (FP.coreJump) (coreNext p g : M o _) := by
  unfold coreNext
  try dsimp only
  repeat' (first
    | intro _ | (with_reducible apply within_bind) | (with_reducible exact within_pure _) | (with_reducible exact within_st)
    | (with_reducible exact within_rd _) | (with_reducible exact within_now) | ((with_reducible refine (coreJump_in ..).mono ?_); rfl)
    | split)

theorem rotateCore_in (u phys) : Within (FP.rotateCore) (rotateCore u phys : M o _) := by
  unfold rotateCore
  try dsimp only
  repeat' (first
    | intro _ | (with_reducible apply within_bind) | (with_reducible exact within_pure _) | (with_reducible exact within_st)
    | (with_reducible exact within_rd _) | (with_reducible exact within_now) | ((with_reducible refine (mapCore_in ..).mono ?_); rfl)
    | ((with_reducible refine (upCore_in ..).mono ?_); rfl) | ((with_reducible refine (coreNext_in ..).mono ?_); rfl)
    | ((with_reducible refine (refreshCore_in ..).mono ?_); rfl) | ((with_reducible refine eff_in .pw rfl ?_); rfl) | split)

theorem noteUnlocked_in : Within (FP.evRaw) (noteUnlocked : M o _) := by
  unfold noteUnlocked
  try dsimp only
  repeat' (first
    | intro _ | (with_reducible apply within_bind) | (with_reducible exact within_pure _) | (with_reducible exact within_st)
    | (with_reducible exact within_rd _) | (with_reducible exact within_now) | ((with_reducible refine (ev_in ..).mono ?_); rfl) | split)

theorem refreshSelf_in : Within (FP.refreshSelf) (refreshSelf : M o _) := by
  unfold refreshSelf
  try dsimp only
  repeat' (first
    | intro _ | (with_reducible apply within_bind) | (with_reducible exact within_pure _) | (with_reducible exact within_st)
    | (with_reducible exact within_rd _) | (with_reducible exact within_now) | (with_reducible exact wrs_nil_in)
    | ((with_reducible refine wrs_in .FZ_SELF rfl ?_ ?_); rfl) | split)

theorem makeActive_in (e) : Within (FP.makeActive) (makeActive e : M o _) := by
  unfold makeActive
  try dsimp only
  repeat' (first
    | intro _ | (with_reducible apply within_bind) | (with_reducible exact within_pure _) | (with_reducible exact within_st)
    | (with_reducible exact within_rd _) | (with_reducible exact within_now) | ((with_reducible refine (refreshSelf_in).mono ?_); rfl)
    | ((with_reducible refine wr_in .FZ_BANK_STAT rfl ?_); rfl) | ((with_reducible refine eff_in .settings rfl ?_); rfl) | split)

theorem enterFenced_in (why) : Within (FP.enterFenced) (enterFenced why : M o _) := by
  unfold enterFenced
  try dsimp only
  repeat' (first
    | intro _ | (with_reducible apply within_bind) | (with_reducible exact within_pure _) | (with_reducible exact within_st)
    | (with_reducible exact within_rd _) | (with_reducible exact within_now) | (with_reducible exact mode_in)
    | ((with_reducible refine setF_in .FZ_MEMBER rfl ?_) <;> rfl) | ((with_reducible refine (ev_in ..).mono ?_); rfl)
    | ((with_reducible refine faultCond_in .RST_FAULT rfl ?_ ?_) <;> rfl) | ((with_reducible refine (setPort_in ..).mono ?_); rfl)
    | ((with_reducible refine (send_in ..).mono ?_); rfl) | ((with_reducible refine (setMode_in ..).mono ?_); rfl)
    | ((with_reducible refine (scrubStop_in).mono ?_); rfl) | ((with_reducible refine (driveReady_in ..).mono ?_); rfl)
    | ((with_reducible refine eff_in .nor rfl ?_); rfl) | (with_reducible apply within_each) | split)

theorem layNow_in : Within (FP.layNow) (layNow : M o _) := by
  unfold layNow
  try dsimp only
  repeat' (first
    | intro _ | (with_reducible apply within_bind) | (with_reducible exact within_pure _) | (with_reducible exact within_st)
    | (with_reducible exact within_rd _) | (with_reducible exact within_now) | ((with_reducible refine (makeActive_in ..).mono ?_); rfl)
    | ((with_reducible refine setF_in .FZ_BANK_STAT rfl ?_) <;> rfl) | ((with_reducible refine (mark_in ..).mono ?_); rfl)
    | ((with_reducible refine (noteUnlocked_in).mono ?_); rfl) | ((with_reducible refine (enterFenced_in ..).mono ?_); rfl) | split)

theorem dirRun_in (fa c) : Within (FP.evRaw) (dirRun fa c : M o _) := by
  unfold dirRun
  try dsimp only
  repeat' (first
    | intro _ | (with_reducible apply within_bind) | (with_reducible exact within_pure _) | (with_reducible exact within_st)
    | (with_reducible exact within_rd _) | (with_reducible exact within_now) | ((with_reducible refine (evRaw_in ..).mono ?_); rfl)
    | split)

theorem dirWords_in (fa) (l : List (Nat × BitVec 32)) (cur) : Within (FP.dirWords) (dirWords fa l cur : M o _) := by
  induction l generalizing cur with
  | nil => cases cur <;> unfold dirWords <;> first | exact within_pure _ | exact (dirRun_in ..).mono (by rfl)
  | cons u l ih =>
    unfold dirWords
    repeat' (first
      | (with_reducible exact ih _) | ((with_reducible refine (tablePut_in ..).mono ?_); rfl) | ((with_reducible refine (dirRun_in ..).mono ?_); rfl)
      | (with_reducible apply within_bind) | intro _ | split)

theorem seeEpoch_in (ep) : Within (FP.upPort) (seeEpoch ep : M o _) := by
  unfold seeEpoch
  try dsimp only
  repeat' (first
    | intro _ | (with_reducible apply within_bind) | (with_reducible exact within_pure _) | (with_reducible exact within_st)
    | (with_reducible exact within_rd _) | (with_reducible exact within_now) | ((with_reducible refine eff_in .fab rfl ?_); rfl) | split)

theorem exchange_in (port t) : Within (FP.exchange) (exchange port t : M o _) := by
  unfold exchange
  try dsimp only
  repeat' (first
    | intro _ | (with_reducible apply within_bind) | (with_reducible exact within_pure _) | (with_reducible exact within_st)
    | (with_reducible exact within_rd _) | (with_reducible exact within_now) | ((with_reducible refine wr_in .FZ_TIME_STAT rfl ?_); rfl)
    | ((with_reducible refine eff_in .fab rfl ?_); rfl) | ((with_reducible refine eff_in .setTime rfl ?_); rfl) | split)

theorem follow_in (n) : Within (FP.becomeRoot) (follow n : M o _) := by
  unfold follow
  try dsimp only
  repeat' (first
    | intro _ | (with_reducible apply within_bind) | (with_reducible exact within_pure _) | (with_reducible exact within_st)
    | (with_reducible exact within_rd _) | (with_reducible exact within_now) | ((with_reducible refine wr_in .FZ_TIME_STAT rfl ?_); rfl)
    | ((with_reducible refine eff_in .fab rfl ?_); rfl) | split)

theorem dropPkt_in (k) : Within (FP.dropPkt) (dropPkt k : M o _) := by
  unfold dropPkt
  try dsimp only
  repeat' (first
    | intro _ | (with_reducible apply within_bind) | (with_reducible exact within_pure _) | (with_reducible exact within_st)
    | (with_reducible exact within_rd _) | (with_reducible exact within_now)
    | ((with_reducible refine incSat_in .FZ_DROPk rfl ?_) <;> rfl) | split)

theorem dropUe_in (k) : Within (FP.dropUe) (dropUe k : M o _) := by
  unfold dropUe
  try dsimp only
  repeat' (first
    | intro _ | (with_reducible apply within_bind) | (with_reducible exact within_pure _) | (with_reducible exact within_st)
    | (with_reducible exact within_rd _) | (with_reducible exact within_now) | ((with_reducible refine (dropPkt_in ..).mono ?_); rfl)
    | ((with_reducible refine (ev_in ..).mono ?_); rfl) | split)

theorem upRed_in (g rs sg f) : Within (FP.upPort) (upRed g rs sg f : M o _) := by
  unfold upRed
  try dsimp only
  repeat' (first
    | intro _ | (with_reducible apply within_bind) | (with_reducible exact within_pure _) | (with_reducible exact within_st)
    | (with_reducible exact within_rd _) | (with_reducible exact within_now) | ((with_reducible refine eff_in .fab rfl ?_); rfl) | split)

theorem freeRed_in (g rs sg) : Within (FP.upPort) (freeRed g rs sg : M o _) := by
  unfold freeRed
  try dsimp only
  repeat' (first
    | intro _ | (with_reducible apply within_bind) | (with_reducible exact within_pure _) | (with_reducible exact within_st)
    | (with_reducible exact within_rd _) | (with_reducible exact within_now) | ((with_reducible refine eff_in .fab rfl ?_); rfl) | split)

theorem deliverPkt_in (k) : Within (FP.deliverPkt) (deliverPkt k : M o _) := by
  unfold deliverPkt
  try dsimp only
  repeat' (first
    | intro _ | (with_reducible apply within_bind) | (with_reducible exact within_pure _) | (with_reducible exact within_st)
    | (with_reducible exact within_rd _) | (with_reducible exact within_now) | ((with_reducible refine (dropPkt_in ..).mono ?_); rfl)
    | ((with_reducible refine eff_in .fab rfl ?_); rfl) | split)

theorem injectUni_in (k r) : Within (FP.injectUni) (injectUni k r : M o _) := by
  unfold injectUni
  try dsimp only
  repeat' (first
    | intro _ | (with_reducible apply within_bind) | (with_reducible exact within_pure _) | (with_reducible exact within_st)
    | (with_reducible exact within_rd _) | (with_reducible exact within_now) | ((with_reducible refine (dropPkt_in ..).mono ?_); rfl)
    | ((with_reducible refine (deliverPkt_in ..).mono ?_); rfl) | ((with_reducible refine (send_in ..).mono ?_); rfl) | split)

theorem ringPut_in (p q i) (l : List (List Byte)) : Within (FP.checkCw) (ringPut p q i l : M o _) := by
  induction l generalizing i with
  | nil => unfold ringPut; exact within_pure _
  | cons u l ih =>
    unfold ringPut
    exact within_bind within_st fun _ => within_bind ((writeMem_in ..).mono (by rfl)) fun _ => ih _

theorem noteEnded_in (c u) : Within (FP.upCtx) (noteEnded c u : M o _) := by
  unfold noteEnded
  try dsimp only
  repeat' (first
    | intro _ | (with_reducible apply within_bind) | (with_reducible exact within_pure _) | (with_reducible exact within_st)
    | (with_reducible exact within_rd _) | (with_reducible exact within_now) | ((with_reducible refine (upPhase_in ..).mono ?_); rfl)
    | split)

theorem lockDone_in (c) : Within (FP.upCtx) (lockDone c : M o _) := by
  unfold lockDone
  try dsimp only
  repeat' (first
    | intro _ | (with_reducible apply within_bind) | (with_reducible exact within_pure _) | (with_reducible exact within_st)
    | (with_reducible exact within_rd _) | (with_reducible exact within_now) | ((with_reducible refine (upPhase_in ..).mono ?_); rfl)
    | split)

theorem unitEnded_in (c u) : Within (FP.upCtx) (unitEnded c u : M o _) := by
  unfold unitEnded
  try dsimp only
  repeat' (first
    | intro _ | (with_reducible apply within_bind) | (with_reducible exact within_pure _) | (with_reducible exact within_st)
    | (with_reducible exact within_rd _) | (with_reducible exact within_now) | ((with_reducible refine (noteEnded_in ..).mono ?_); rfl)
    | ((with_reducible refine (upPhase_in ..).mono ?_); rfl) | ((with_reducible refine (lockDone_in ..).mono ?_); rfl) | split)

theorem publishSlot_in (p q) : Within (FP.publishSlot) (publishSlot p q : M o _) := by
  unfold publishSlot
  try dsimp only
  repeat' (first
    | intro _ | (with_reducible apply within_bind) | (with_reducible exact within_pure _) | (with_reducible exact within_st)
    | (with_reducible exact within_rd _) | (with_reducible exact within_now) | ((with_reducible refine (upQue_in ..).mono ?_); rfl)
    | ((with_reducible refine (wakeQ_in ..).mono ?_); rfl) | ((with_reducible refine (refreshEnds_in ..).mono ?_); rfl)
    | ((with_reducible refine (releaseSlot_in ..).mono ?_); rfl) | ((with_reducible refine (unitEnded_in ..).mono ?_); rfl)
    | ((with_reducible refine wr_in .PART_Q_OCC rfl ?_); rfl) | split)

theorem ringPublish_in (p q n) : Within (FP.arrTurn) (ringPublish p q n : M o _) := by
  unfold ringPublish
  try dsimp only
  repeat' (first
    | intro _ | (with_reducible apply within_bind) | (with_reducible exact within_pure _) | (with_reducible exact within_st)
    | (with_reducible exact within_rd _) | (with_reducible exact within_now) | ((with_reducible refine (upQue_in ..).mono ?_); rfl)
    | ((with_reducible refine (publishSlot_in ..).mono ?_); rfl) | ((with_reducible refine (kickQ_in ..).mono ?_); rfl)
    | (with_reducible apply within_loop) | split)

theorem deliverSlots_in (p q bs) : Within (FP.arrTurn) (deliverSlots p q bs : M o _) := by
  unfold deliverSlots
  try dsimp only
  repeat' (first
    | intro _ | (with_reducible apply within_bind) | (with_reducible exact within_pure _) | (with_reducible exact within_st)
    | (with_reducible exact within_rd _) | (with_reducible exact within_now) | ((with_reducible refine (ringPut_in ..).mono ?_); rfl)
    | ((with_reducible refine (ringPublish_in ..).mono ?_); rfl) | split)

theorem redTotal_in (ep g rs sg fmt dp dq pay e) : Within (FP.redTotal) (redTotal ep g rs sg fmt dp dq pay e : M o _) := by
  unfold redTotal
  try dsimp only
  repeat' (first
    | intro _ | (with_reducible apply within_bind) | (with_reducible exact within_pure _) | (with_reducible exact within_st)
    | (with_reducible exact within_rd _) | (with_reducible exact within_now) | ((with_reducible refine (injectUni_in ..).mono ?_); rfl)
    | ((with_reducible refine (deliverSlots_in ..).mono ?_); rfl) | ((with_reducible refine eff_in .fab rfl ?_); rfl)
    | (with_reducible apply within_each) | (with_reducible apply within_when) | split)

theorem redTry_in (ep g rs sg dp dq e) : Within (FP.redTotal) (redTry ep g rs sg dp dq e : M o _) := by
  unfold redTry
  try dsimp only
  repeat' (first
    | intro _ | (with_reducible apply within_bind) | (with_reducible exact within_pure _) | (with_reducible exact within_st)
    | (with_reducible exact within_rd _) | (with_reducible exact within_now) | ((with_reducible refine (freeRed_in ..).mono ?_); rfl)
    | ((with_reducible refine (redTotal_in ..).mono ?_); rfl) | ((with_reducible refine (injectUni_in ..).mono ?_); rfl) | split)

theorem coreDataLoss_in (p g detail) : Within (FP.arrIllegal) (coreDataLoss p g detail : M o _) := by
  unfold coreDataLoss
  try dsimp only
  repeat' (first
    | intro _ | (with_reducible apply within_bind) | (with_reducible exact within_pure _) | (with_reducible exact within_st)
    | (with_reducible exact within_rd _) | (with_reducible exact within_now)
    | ((with_reducible refine coreFail_in .PART_CORE_STAT rfl ?_ ?_) <;> rfl) | split)

theorem coreTurn_in {fp : Nat} {p g f} {body} (hm : FP.coreTurn &&& fp = FP.coreTurn) (hb : Within fp body) :
    Within fp (coreTurn p g f body : M o _) := by
  unfold coreTurn
  try dsimp only
  repeat' (first
    | with_reducible exact hb | with_reducible exact hb _ | intro _ | (with_reducible apply within_bind)
    | (with_reducible exact within_pure _) | (with_reducible exact within_st) | (with_reducible exact within_rd _)
    | (with_reducible exact within_now) | ((with_reducible refine (applyUps_in ..).mono ?_); exact sub_trans rfl hm)
    | ((with_reducible refine (unitTurn_in ..).mono ?_); exact sub_trans rfl hm)
    | ((with_reducible refine coreFail_in .PART_CORE_STAT rfl ?_ ?_) <;> first | exact sub_bit rfl hm | exact sub_trans rfl hm)
    | ((with_reducible refine (readMem_in ..).mono ?_); exact sub_trans rfl hm)
    | ((with_reducible refine (coreDataLoss_in ..).mono ?_); exact sub_trans rfl hm) | split)

theorem coreLoad_in (p g a len) : Within (FP.coreLoad) (coreLoad p g a len : M o _) := by
  unfold coreLoad
  try dsimp only
  repeat' (first
    | intro _ | (with_reducible apply within_bind) | (with_reducible exact within_pure _) | (with_reducible exact within_st)
    | (with_reducible exact within_rd _) | (with_reducible exact within_now) | ((with_reducible refine (coreIllegal_in ..).mono ?_); rfl)
    | ((with_reducible refine (readMem_in ..).mono ?_); rfl) | ((with_reducible refine (coreDataLoss_in ..).mono ?_); rfl) | split)

theorem coreStore_in (p g a bs) : Within (FP.coreStore) (coreStore p g a bs : M o _) := by
  unfold coreStore
  try dsimp only
  repeat' (first
    | intro _ | (with_reducible apply within_bind) | (with_reducible exact within_pure _) | (with_reducible exact within_st)
    | (with_reducible exact within_rd _) | (with_reducible exact within_now) | ((with_reducible refine (coreIllegal_in ..).mono ?_); rfl)
    | ((with_reducible refine (writeMem_in ..).mono ?_); rfl) | ((with_reducible refine (coreDataLoss_in ..).mono ?_); rfl) | split)

theorem vCvtLanes_in (src dst md a) (l : List Nat) : Within (FP.freeBits) (vCvtLanes src dst md a l : M o _) := by
  induction l with
  | nil => exact within_pure _
  | cons u l ih =>
    unfold vCvtLanes
    refine within_bind ?_ fun _ => within_bind ih fun _ => within_pure _
    split
    · exact within_pure _
    · exact freeBits_in _

theorem core_in {fp : Nat} (p g) : Within fp (core p g : M o _) := by
  unfold core
  try dsimp only
  repeat' (first
    | intro _ | (with_reducible apply within_bind) | (with_reducible exact within_pure _) | (with_reducible exact within_st)
    | (with_reducible exact within_rd _) | (with_reducible exact within_now) | split)

theorem ewcBody_in (p g op) : Within (FP.ewcBody) (ewcBody p g op : M o _) := by
  unfold ewcBody
  try dsimp only
  repeat' (first
    | intro _ | (with_reducible apply within_bind) | (with_reducible exact within_pure _) | (with_reducible exact within_st)
    | (with_reducible exact within_rd _) | (with_reducible exact within_now) | (with_reducible exact core_in ..)
    | ((with_reducible refine (freeBits_in ..).mono ?_); rfl) | ((with_reducible refine (upCore_in ..).mono ?_); rfl)
    | ((with_reducible refine (coreNext_in ..).mono ?_); rfl) | ((with_reducible refine (coreLoad_in ..).mono ?_); rfl)
    | ((with_reducible refine (coreIllegal_in ..).mono ?_); rfl) | ((with_reducible refine (coreStore_in ..).mono ?_); rfl)
    | ((with_reducible refine (vCvtLanes_in ..).mono ?_); rfl) | ((with_reducible refine (coreJump_in ..).mono ?_); rfl) | split)

theorem csrPair_in {fp : Nat} (k : RegKind) {f : Nat → Fld} {m : Nat} {v : BitVec 64} (hk : ∀ i, (f i).k = k)
    (h : fp.testBit (64 + k.ctorIdx) = true) : Within fp (csrPair f m v : M o _) := within_bind (wr_in k (hk _) h) fun _ => wr_in k (hk _) h

theorem csrPut_in (p g n v) : Within (FP.csrPut) (csrPut p g n v : M o _) := by
  unfold csrPut
  try dsimp only
  repeat' (first
    | intro _ | (with_reducible apply within_bind) | (with_reducible exact within_pure _) | (with_reducible exact within_st)
    | (with_reducible exact within_rd _) | (with_reducible exact within_now)
    | ((with_reducible refine csrPair_in .PART_CORE_IMASKm (fun _ => rfl) ?_) <;> rfl)
    | ((with_reducible refine csrPair_in .PART_CORE_IPENDm (fun _ => rfl) ?_) <;> rfl)
    | ((with_reducible refine (upCore_in ..).mono ?_); rfl) | ((with_reducible refine (refreshCore_in ..).mono ?_); rfl)
    | ((with_reducible refine wr_in .PART_CORE_MISC rfl ?_); rfl) | split)

theorem coreTake_in (p g xd q) : Within (FP.coreTake) (coreTake p g xd q : M o _) := by
  unfold coreTake
  try dsimp only
  repeat' (first
    | intro _ | (with_reducible apply within_bind) | (with_reducible exact within_pure _) | (with_reducible exact within_st)
    | (with_reducible exact within_rd _) | (with_reducible exact within_now) | ((with_reducible refine (upQue_in ..).mono ?_); rfl)
    | ((with_reducible refine (upCore_in ..).mono ?_); rfl) | ((with_reducible refine (coreNext_in ..).mono ?_); rfl) | split)

theorem coreAcquire_in (p g xd q) : Within (FP.coreTake) (coreAcquire p g xd q : M o _) := by
  unfold coreAcquire
  try dsimp only
  repeat' (first
    | intro _ | (with_reducible apply within_bind) | (with_reducible exact within_pure _) | (with_reducible exact within_st)
    | (with_reducible exact within_rd _) | (with_reducible exact within_now) | ((with_reducible refine (upQue_in ..).mono ?_); rfl)
    | ((with_reducible refine (upCore_in ..).mono ?_); rfl) | ((with_reducible refine (refreshEnds_in ..).mono ?_); rfl)
    | ((with_reducible refine (coreNext_in ..).mono ?_); rfl) | ((with_reducible refine wr_in .PART_Q_CREDIT rfl ?_); rfl) | split)

theorem coreUnwait_in (p g) : Within (FP.coreUnwait) (coreUnwait p g : M o _) := by
  unfold coreUnwait
  try dsimp only
  repeat' (first
    | intro _ | (with_reducible apply within_bind) | (with_reducible exact within_pure _) | (with_reducible exact within_st)
    | (with_reducible exact within_rd _) | (with_reducible exact within_now) | ((with_reducible refine wr_in .PART_Q_CREDIT rfl ?_); rfl)
    | ((with_reducible refine wr_in .PART_Q_OCC rfl ?_); rfl) | (with_reducible apply within_each) | (with_reducible apply within_when)
    | split)

theorem startOp_in (opid kind) : Within (FP.upCtx) (startOp opid kind : M o _) := by
  unfold startOp
  try dsimp only
  repeat' (first
    | intro _ | (with_reducible apply within_bind) | (with_reducible exact within_pure _) | (with_reducible exact within_st)
    | (with_reducible exact within_rd _) | (with_reducible exact within_now) | ((with_reducible refine (upOp_in ..).mono ?_); rfl) | split)

theorem withOp_in {fp : Nat} {opid kind} {f} (hm : FP.upCtx &&& fp = FP.upCtx) (hb : ∀ x, Within fp (f x)) :
    Within fp (withOp opid kind f : M o _) := by
  unfold withOp
  try dsimp only
  repeat' (first
    | with_reducible exact hb | with_reducible exact hb _ | intro _ | (with_reducible apply within_bind)
    | (with_reducible exact within_pure _) | (with_reducible exact within_st) | (with_reducible exact within_rd _)
    | (with_reducible exact within_now) | ((with_reducible refine (startOp_in ..).mono ?_); exact sub_trans rfl hm) | split)

theorem markSlot_in (k v) : Within (FP.saveSuper) (markSlot k v : M o _) := by
  unfold markSlot
  try dsimp only
  repeat' (first
    | intro _ | (with_reducible apply within_bind) | (with_reducible exact within_pure _) | (with_reducible exact within_st)
    | (with_reducible exact within_rd _) | (with_reducible exact within_now) | ((with_reducible refine eff_in .super rfl ?_); rfl) | split)

theorem beginInstall_in (x) : Within (FP.beginInstall) (beginInstall x : M o _) := by
  unfold beginInstall
  try dsimp only
  repeat' (first
    | intro _ | (with_reducible apply within_bind) | (with_reducible exact within_pure _) | (with_reducible exact within_st)
    | (with_reducible exact within_rd _) | (with_reducible exact within_now) | ((with_reducible refine (lockOp_in ..).mono ?_); rfl)
    | ((with_reducible refine (markSlot_in ..).mono ?_); rfl) | ((with_reducible refine eff_in .vlt rfl ?_); rfl)
    | (with_reducible apply within_each) | split)

theorem flushOld_in : Within (FP.evRaw) (flushOld : M o _) := by
  unfold flushOld
  try dsimp only
  repeat' (first
    | intro _ | (with_reducible apply within_bind) | (with_reducible exact within_pure _) | (with_reducible exact within_st)
    | (with_reducible exact within_rd _) | (with_reducible exact within_now) | ((with_reducible refine (flushMerge_in ..).mono ?_); rfl)
    | (with_reducible apply within_each) | split)

end Sys2Proof.Machine
end

