-- ==== Sys2Proof/Laws/Foot3.lean ====
section
/-!
SUPPORT. Footprints of the shared operations, part 3: one lemma per operation, which says everything that it can change.
-/

namespace Sys2Proof.Machine

variable {o : State}

theorem cmdRec_in (k cmd v res) : Within (FP.evRaw) (cmdRec k cmd v res : M o _) := by
  unfold cmdRec
  try dsimp only
  repeat' (first
    | intro _ | (with_reducible apply within_bind) | (with_reducible exact within_pure _) | (with_reducible exact within_st)
    | (with_reducible exact within_rd _) | (with_reducible exact within_now) | ((with_reducible refine (flushMerge_in ..).mono ?_); rfl)
    | ((with_reducible refine (evRaw_in ..).mono ?_); rfl) | split)

theorem queuePkt_in (k) : Within (FP.upPort) (queuePkt k : M o _) := by
  unfold queuePkt
  try dsimp only
  repeat' (first
    | intro _ | (with_reducible apply within_bind) | (with_reducible exact within_pure _) | (with_reducible exact within_st)
    | (with_reducible exact within_rd _) | (with_reducible exact within_now) | ((with_reducible refine eff_in .fab rfl ?_); rfl) | split)

theorem mcastCopies_in (e k g skip r) : Within (FP.injectUni) (mcastCopies e k g skip r : M o _) := by
  unfold mcastCopies
  try dsimp only
  repeat' (first
    | intro _ | (with_reducible apply within_bind) | (with_reducible exact within_pure _) | (with_reducible exact within_st)
    | (with_reducible exact within_rd _) | (with_reducible exact within_now) | ((with_reducible refine (injectUni_in ..).mono ?_); rfl)
    | (with_reducible apply within_each) | split)

theorem bcastSend_in (k stage vc global ports) : Within (FP.send) (bcastSend k stage vc global ports : M o _) := by
  unfold bcastSend
  try dsimp only
  repeat' (first
    | intro _ | (with_reducible apply within_bind) | (with_reducible exact within_pure _) | (with_reducible exact within_st)
    | (with_reducible exact within_rd _) | (with_reducible exact within_now) | ((with_reducible refine (send_in ..).mono ?_); rfl)
    | (with_reducible apply within_each) | split)

theorem bcastSpread_in (k source) : Within (FP.send) (bcastSpread k source : M o _) := by
  unfold bcastSpread
  try dsimp only
  repeat' (first
    | intro _ | (with_reducible apply within_bind) | (with_reducible exact within_pure _) | (with_reducible exact within_st)
    | (with_reducible exact within_rd _) | (with_reducible exact within_now) | ((with_reducible refine (bcastSend_in ..).mono ?_); rfl)
    | (with_reducible apply within_when) | split)

theorem bcastSource_in (k) : Within (FP.injectUni) (bcastSource k : M o _) := by
  unfold bcastSource
  try dsimp only
  repeat' (first
    | intro _ | (with_reducible apply within_bind) | (with_reducible exact within_pure _) | (with_reducible exact within_st)
    | (with_reducible exact within_rd _) | (with_reducible exact within_now) | ((with_reducible refine (dropPkt_in ..).mono ?_); rfl)
    | ((with_reducible refine (deliverPkt_in ..).mono ?_); rfl) | ((with_reducible refine (bcastSpread_in ..).mono ?_); rfl) | split)

theorem inject_in (k r) : Within (FP.injectUni) (inject k r : M o _) := by
  unfold inject
  try dsimp only
  repeat' (first
    | intro _ | (with_reducible apply within_bind) | (with_reducible exact within_pure _) | (with_reducible exact within_st)
    | (with_reducible exact within_rd _) | (with_reducible exact within_now) | ((with_reducible refine (bcastSource_in ..).mono ?_); rfl)
    | ((with_reducible refine (mcastCopies_in ..).mono ?_); rfl) | ((with_reducible refine (injectUni_in ..).mono ?_); rfl) | split)

theorem fromPeer_in {fp : Nat} {fa gen} {a} (hm : FP.dropPkt &&& fp = FP.dropPkt) (hb : Within fp a) :
    Within fp (fromPeer fa gen a : M o _) := by
  unfold fromPeer
  try dsimp only
  repeat' (first
    | with_reducible exact hb | with_reducible exact hb _ | intro _ | (with_reducible apply within_bind)
    | (with_reducible exact within_pure _) | (with_reducible exact within_st) | (with_reducible exact within_rd _)
    | (with_reducible exact within_now) | ((with_reducible refine (dropPkt_in ..).mono ?_); exact sub_trans rfl hm) | split)

theorem clearWaits_in : Within (FP.clearWaits) (clearWaits : M o _) := by
  unfold clearWaits
  try dsimp only
  repeat' (first
    | intro _ | (with_reducible apply within_bind) | (with_reducible exact within_pure _) | (with_reducible exact within_st)
    | (with_reducible exact within_rd _) | (with_reducible exact within_now)
    | ((with_reducible refine wr_in .HIF_BOOT_STATUS rfl ?_); rfl) | ((with_reducible refine eff_in .ctl rfl ?_); rfl) | split)

theorem gatePush_in (p q b) : Within (FP.arrTurn) (gatePush p q b : M o _) := by
  unfold gatePush
  try dsimp only
  repeat' (first
    | intro _ | (with_reducible apply within_bind) | (with_reducible exact within_pure _) | (with_reducible exact within_st)
    | (with_reducible exact within_rd _) | (with_reducible exact within_now) | ((with_reducible refine (pushSlot_in ..).mono ?_); rfl)
    | ((with_reducible refine (publishSlot_in ..).mono ?_); rfl) | ((with_reducible refine (kickQ_in ..).mono ?_); rfl) | split)

theorem retarget_in : Within (FP.refreshThrottle) (retarget : M o _) := by
  unfold retarget
  try dsimp only
  repeat' (first
    | intro _ | (with_reducible apply within_bind) | (with_reducible exact within_pure _) | (with_reducible exact within_st)
    | (with_reducible exact within_rd _) | (with_reducible exact within_now) | ((with_reducible refine wr_in .PWR_STAT rfl ?_); rfl)
    | split)

theorem admitPhase_in (c) : Within (FP.admitPhase) (admitPhase c : M o _) := by
  unfold admitPhase
  try dsimp only
  repeat' (first
    | intro _ | (with_reducible apply within_bind) | (with_reducible exact within_pure _) | (with_reducible exact within_st)
    | (with_reducible exact within_rd _) | (with_reducible exact within_now) | ((with_reducible refine (upPhase_in ..).mono ?_); rfl)
    | ((with_reducible refine (upOp_in ..).mono ?_); rfl) | ((with_reducible refine (retarget_in).mono ?_); rfl)
    | ((with_reducible refine (gatePush_in ..).mono ?_); rfl) | ((with_reducible refine (lockDone_in ..).mono ?_); rfl)
    | ((with_reducible refine (refreshPhase_in ..).mono ?_); rfl) | ((with_reducible refine eff_in .host rfl ?_); rfl)
    | (with_reducible apply within_each) | (with_reducible apply within_when) | split)

theorem dropQueue_in (p q keep) : Within (FP.dropQueue) (dropQueue p q keep : M o _) := by
  unfold dropQueue
  try dsimp only
  repeat' (first
    | intro _ | (with_reducible apply within_bind) | (with_reducible exact within_pure _) | (with_reducible exact within_st)
    | (with_reducible exact within_rd _) | (with_reducible exact within_now)
    | ((with_reducible refine setF_in .PART_Q_OCC rfl ?_) <;> rfl) | ((with_reducible refine (ev_in ..).mono ?_); rfl)
    | (with_reducible exact wrs_nil_in) | ((with_reducible refine wrs_in .PART_Q_CFG rfl ?_ ?_); rfl)
    | ((with_reducible refine wrs_in .PART_Q_OCC rfl ?_ ?_); rfl) | ((with_reducible refine (upQue_in ..).mono ?_); rfl)
    | ((with_reducible refine (refreshEnds_in ..).mono ?_); rfl) | (with_reducible apply within_when) | split)

theorem upStr_in (p k f) : Within (FP.upStr) (upStr p k f : M o _) := by
  unfold upStr
  try dsimp only
  repeat' (first
    | intro _ | (with_reducible apply within_bind) | (with_reducible exact within_pure _) | (with_reducible exact within_st)
    | (with_reducible exact within_rd _) | (with_reducible exact within_now) | ((with_reducible refine eff_in .str rfl ?_); rfl) | split)

theorem unbindUnit_in (u) : Within (FP.unbindUnit) (unbindUnit u : M o _) := by
  unfold unbindUnit
  try dsimp only
  repeat' (first
    | intro _ | (with_reducible apply within_bind) | (with_reducible exact within_pure _) | (with_reducible exact within_st)
    | (with_reducible exact within_rd _) | (with_reducible exact within_now) | ((with_reducible refine (upArr_in ..).mono ?_); rfl)
    | ((with_reducible refine (upCore_in ..).mono ?_); rfl) | ((with_reducible refine (upStr_in ..).mono ?_); rfl)
    | (with_reducible apply within_when) | split)

theorem settle_in (c ph) : Within (FP.settle) (settle c ph : M o _) := by
  unfold settle
  try dsimp only
  repeat' (first
    | intro _ | (with_reducible apply within_bind) | (with_reducible exact within_pure _) | (with_reducible exact within_st)
    | (with_reducible exact within_rd _) | (with_reducible exact within_now) | ((with_reducible refine (upCtx_in ..).mono ?_); rfl)
    | ((with_reducible refine (upOp_in ..).mono ?_); rfl) | ((with_reducible refine (ev_in ..).mono ?_); rfl)
    | ((with_reducible refine eff_in .host rfl ?_); rfl) | ((with_reducible refine eff_in .pw rfl ?_); rfl)
    | (with_reducible apply within_when) | split)

theorem doneOp_in (opid info0) : Within (FP.upCtx) (doneOp opid info0 : M o _) := by
  unfold doneOp
  try dsimp only
  repeat' (first
    | intro _ | (with_reducible apply within_bind) | (with_reducible exact within_pure _) | (with_reducible exact within_st)
    | (with_reducible exact within_rd _) | (with_reducible exact within_now) | ((with_reducible refine (lockOp_in ..).mono ?_); rfl)
    | split)

theorem slotAfter_in (c) : Within (FP.freeSlot) (slotAfter c : M o _) := by
  unfold slotAfter
  try dsimp only
  repeat' (first
    | intro _ | (with_reducible apply within_bind) | (with_reducible exact within_pure _) | (with_reducible exact within_st)
    | (with_reducible exact within_rd _) | (with_reducible exact within_now) | ((with_reducible refine (freeSlot_in ..).mono ?_); rfl)
    | ((with_reducible refine (doneOp_in ..).mono ?_); rfl) | ((with_reducible refine wr_in .HIF_CTX_STATc rfl ?_); rfl)
    | (with_reducible apply within_each) | (with_reducible apply within_when) | split)

theorem forceDrop_in : Within (FP.forceDrop) (forceDrop : M o _) := by
  unfold forceDrop
  try dsimp only
  repeat' (first
    | intro _ | (with_reducible apply within_bind) | (with_reducible exact within_pure _) | (with_reducible exact within_st)
    | (with_reducible exact within_rd _) | (with_reducible exact within_now) | ((with_reducible refine wr_in .PWR_STAT rfl ?_); rfl)
    | ((with_reducible refine eff_in .pw rfl ?_); rfl) | split)

theorem forcedOff_in : Within (FP.forcedOff) (forcedOff : M o _) := by
  unfold forcedOff
  try dsimp only
  repeat' (first
    | intro _ | (with_reducible apply within_bind) | (with_reducible exact within_pure _) | (with_reducible exact within_st)
    | (with_reducible exact within_rd _) | (with_reducible exact within_now) | ((with_reducible refine (mark_in ..).mono ?_); rfl)
    | ((with_reducible refine eff_in .pw rfl ?_); rfl) | split)

theorem refreshGuard_in : Within (FP.refreshGuard) (refreshGuard : M o _) := by
  unfold refreshGuard
  try dsimp only
  repeat' (first
    | intro _ | (with_reducible apply within_bind) | (with_reducible exact within_pure _) | (with_reducible exact within_st)
    | (with_reducible exact within_rd _) | (with_reducible exact within_now) | ((with_reducible refine wrB_in .GRD_STAT rfl ?_) <;> rfl)
    | ((with_reducible refine (forceDrop_in).mono ?_); rfl) | ((with_reducible refine (forcedOff_in).mono ?_); rfl) | split)

theorem latchWrite_in (cause detail) : Within (FP.latchWrite) (latchWrite cause detail : M o _) := by
  unfold latchWrite
  try dsimp only
  repeat' (first
    | intro _ | (with_reducible apply within_bind) | (with_reducible exact within_pure _) | (with_reducible exact within_st)
    | (with_reducible exact within_rd _) | (with_reducible exact within_now) | ((with_reducible refine eff_in .latch rfl ?_); rfl) | split)

theorem wearTake_in (bytes spill) : Within (FP.wearTake) (wearTake bytes spill : M o _) := by
  unfold wearTake
  try dsimp only
  repeat' (first
    | intro _ | (with_reducible apply within_bind) | (with_reducible exact within_pure _) | (with_reducible exact within_st)
    | (with_reducible exact within_rd _) | (with_reducible exact within_now) | ((with_reducible refine eff_in .vlt rfl ?_); rfl) | split)

theorem pageWrite_in (a bs) : Within (FP.pageWrite) (pageWrite a bs : M o _) := by
  unfold pageWrite
  try dsimp only
  repeat' (first
    | intro _ | (with_reducible apply within_bind) | (with_reducible exact within_pure _) | (with_reducible exact within_st)
    | (with_reducible exact within_rd _) | (with_reducible exact within_now) | ((with_reducible refine eff_in .mem rfl ?_); rfl)
    | ((with_reducible refine eff_in .write rfl ?_); rfl) | split)

theorem writePage_in : Within (FP.writePage) (writePage : M o _) := by
  unfold writePage
  try dsimp only
  repeat' (first
    | intro _ | (with_reducible apply within_bind) | (with_reducible exact within_pure _) | (with_reducible exact within_st)
    | (with_reducible exact within_rd _) | (with_reducible exact within_now) | ((with_reducible refine (wearTake_in ..).mono ?_); rfl)
    | ((with_reducible refine incSat_in .MEM_VLT_STAT rfl ?_) <;> rfl) | ((with_reducible refine (pageWrite_in ..).mono ?_); rfl)
    | ((with_reducible refine eff_in .rcd rfl ?_); rfl) | ((with_reducible refine eff_in .super rfl ?_); rfl) | split)

theorem holdUp_in : Within (FP.holdUp) (holdUp : M o _) := by
  unfold holdUp
  try dsimp only
  repeat' (first
    | intro _ | (with_reducible apply within_bind) | (with_reducible exact within_pure _) | (with_reducible exact within_st)
    | (with_reducible exact within_rd _) | (with_reducible exact within_now) | ((with_reducible refine (commitJournal_in).mono ?_); rfl)
    | ((with_reducible refine (freeBits_in ..).mono ?_); rfl) | ((with_reducible refine (closePage_in).mono ?_); rfl)
    | ((with_reducible refine (writePage_in).mono ?_); rfl) | ((with_reducible refine (saveSuper_in).mono ?_); rfl)
    | ((with_reducible refine eff_in .super rfl ?_); rfl) | ((with_reducible refine eff_in .vlt rfl ?_); rfl)
    | (with_reducible apply within_loop) | split)

theorem losePower_in : Within (FP.losePower) (losePower : M o _) := by
  unfold losePower
  try dsimp only
  repeat' (first
    | intro _ | (with_reducible apply within_bind) | (with_reducible exact within_pure _) | (with_reducible exact within_st)
    | (with_reducible exact within_rd _) | (with_reducible exact within_now) | ((with_reducible refine (holdUp_in).mono ?_); rfl)
    | ((with_reducible refine eff_in .ctl rfl ?_); rfl) | ((with_reducible refine eff_in .hs rfl ?_); rfl)
    | ((with_reducible refine eff_in .por rfl ?_); rfl) | (with_reducible apply within_when) | split)

theorem switchOff_in (cause detail latched) : Within (FP.switchOff) (switchOff cause detail latched : M o _) := by
  unfold switchOff
  try dsimp only
  repeat' (first
    | intro _ | (with_reducible apply within_bind) | (with_reducible exact within_pure _) | (with_reducible exact within_st)
    | (with_reducible exact within_rd _) | (with_reducible exact within_now) | ((with_reducible refine (latchWrite_in ..).mono ?_); rfl)
    | ((with_reducible refine (losePower_in).mono ?_); rfl) | ((with_reducible refine (mark_in ..).mono ?_); rfl)
    | ((with_reducible refine eff_in .hs rfl ?_); rfl) | ((with_reducible refine eff_in .latch rfl ?_); rfl) | split)

theorem guardTripOff_in (kind channels) : Within (FP.switchOff) (guardTripOff kind channels : M o _) := by
  unfold guardTripOff
  try dsimp only
  repeat' (first
    | intro _ | (with_reducible apply within_bind) | (with_reducible exact within_pure _) | (with_reducible exact within_st)
    | (with_reducible exact within_rd _) | (with_reducible exact within_now) | ((with_reducible refine (switchOff_in ..).mono ?_); rfl)
    | split)

theorem sampleSpot_in (i r) : Within (FP.sampleSpot) (sampleSpot i r : M o _) := by
  unfold sampleSpot
  try dsimp only
  repeat' (first
    | intro _ | (with_reducible apply within_bind) | (with_reducible exact within_pure _) | (with_reducible exact within_st)
    | (with_reducible exact within_rd _) | (with_reducible exact within_now) | ((with_reducible refine (mark_in ..).mono ?_); rfl)
    | ((with_reducible refine setF_in .PWR_STAT rfl ?_) <;> rfl) | ((with_reducible refine wr_in .PWR_HSd_h rfl ?_); rfl)
    | ((with_reducible refine eff_in .pw rfl ?_); rfl) | (with_reducible apply within_when) | split)

theorem compareSpot_in (i) : Within (FP.compareSpot) (compareSpot i : M o _) := by
  unfold compareSpot
  try dsimp only
  repeat' (first
    | intro _ | (with_reducible apply within_bind) | (with_reducible exact within_pure _) | (with_reducible exact within_st)
    | (with_reducible exact within_rd _) | (with_reducible exact within_now) | ((with_reducible refine setF_in .PWR_HSd_h rfl ?_) <;> rfl)
    | ((with_reducible refine (ev_in ..).mono ?_); rfl) | (with_reducible apply within_when) | split)

theorem setRot_in (u b) : Within (FP.setRot) (setRot u b : M o _) := by
  unfold setRot
  try dsimp only
  repeat' (first
    | intro _ | (with_reducible apply within_bind) | (with_reducible exact within_pure _) | (with_reducible exact within_st)
    | (with_reducible exact within_rd _) | (with_reducible exact within_now) | ((with_reducible refine (upArr_in ..).mono ?_); rfl)
    | ((with_reducible refine (upCore_in ..).mono ?_); rfl) | ((with_reducible refine (refreshCore_in ..).mono ?_); rfl)
    | ((with_reducible refine eff_in .pw rfl ?_); rfl) | split)

theorem withdraw_in : Within (FP.setRot) (withdraw : M o _) := by
  unfold withdraw
  try dsimp only
  repeat' (first
    | intro _ | (with_reducible apply within_bind) | (with_reducible exact within_pure _) | (with_reducible exact within_st)
    | (with_reducible exact within_rd _) | (with_reducible exact within_now) | ((with_reducible refine (setRot_in ..).mono ?_); rfl)
    | (with_reducible apply within_each) | split)

theorem refreshSensors_in : Within (FP.refreshSensors) (refreshSensors : M o _) := by
  unfold refreshSensors
  try dsimp only
  repeat' (first
    | intro _ | (with_reducible apply within_bind) | (with_reducible exact within_pure _) | (with_reducible exact within_st)
    | (with_reducible exact within_rd _) | (with_reducible exact within_now) | ((with_reducible refine wrB_in .PWR_STAT rfl ?_) <;> rfl)
    | ((with_reducible refine faultCond_in .RST_FAULT rfl ?_ ?_) <;> rfl) | split)

theorem countHalf_in (range n) : Within (FP.countHalf) (countHalf range n : M o _) := by
  unfold countHalf
  try dsimp only
  repeat' (first
    | intro _ | (with_reducible apply within_bind) | (with_reducible exact within_pure _) | (with_reducible exact within_st)
    | (with_reducible exact within_rd _) | (with_reducible exact within_now) | ((with_reducible refine wr_in .PWR_LIFE_N20 rfl ?_); rfl)
    | ((with_reducible refine wr_in .PWR_LIFE_N40 rfl ?_); rfl) | ((with_reducible refine wr_in .PWR_LIFE_N60 rfl ?_); rfl) | split)

theorem closeCycles_in : Within (FP.closeCycles) (closeCycles : M o _) := by
  unfold closeCycles
  try dsimp only
  repeat' (first
    | intro _ | (with_reducible apply within_bind) | (with_reducible exact within_pure _) | (with_reducible exact within_st)
    | (with_reducible exact within_rd _) | (with_reducible exact within_now) | ((with_reducible refine (countHalf_in ..).mono ?_); rfl)
    | ((with_reducible refine eff_in .pw rfl ?_); rfl) | (with_reducible apply within_loop) | split)

theorem trimStack_in : Within (FP.closeCycles) (trimStack : M o _) := by
  unfold trimStack
  try dsimp only
  repeat' (first
    | intro _ | (with_reducible apply within_bind) | (with_reducible exact within_pure _) | (with_reducible exact within_st)
    | (with_reducible exact within_rd _) | (with_reducible exact within_now) | ((with_reducible refine (countHalf_in ..).mono ?_); rfl)
    | ((with_reducible refine eff_in .pw rfl ?_); rfl) | split)

theorem refreshLife_in : Within (FP.refreshLife) (refreshLife : M o _) := by
  unfold refreshLife
  try dsimp only
  repeat' (first
    | intro _ | (with_reducible apply within_bind) | (with_reducible exact within_pure _) | (with_reducible exact within_st)
    | (with_reducible exact within_rd _) | (with_reducible exact within_now) | ((with_reducible refine (ev_in ..).mono ?_); rfl)
    | ((with_reducible refine wr_in .PWR_LIFE_DAMAGE rfl ?_); rfl) | (with_reducible apply within_when) | split)

theorem failOp_in (opid status detail info0) : Within (FP.upCtx) (failOp opid status detail info0 : M o _) := by
  unfold failOp
  try dsimp only
  repeat' (first
    | intro _ | (with_reducible apply within_bind) | (with_reducible exact within_pure _) | (with_reducible exact within_st)
    | (with_reducible exact within_rd _) | (with_reducible exact within_now) | ((with_reducible refine (lockOp_in ..).mono ?_); rfl)
    | split)

theorem ringError_in (n code) : Within (FP.refreshActive) (ringError n code : M o _) := by
  unfold ringError
  try dsimp only
  repeat' (first
    | intro _ | (with_reducible apply within_bind) | (with_reducible exact within_pure _) | (with_reducible exact within_st)
    | (with_reducible exact within_rd _) | (with_reducible exact within_now) | (with_reducible exact wrs_nil_in)
    | ((with_reducible refine wrs_in .HIF_RING_STATn rfl ?_ ?_); rfl) | split)

theorem ringMessage_in (n) : Within (FP.ringMessage) (ringMessage n : M o _) := by
  unfold ringMessage
  try dsimp only
  repeat' (first
    | intro _ | (with_reducible apply within_bind) | (with_reducible exact within_pure _) | (with_reducible exact within_st)
    | (with_reducible exact within_rd _) | (with_reducible exact within_now) | ((with_reducible refine (upRing_in ..).mono ?_); rfl)
    | ((with_reducible refine (sendMsix_in ..).mono ?_); rfl) | split)

theorem reportCycle_in (p c) : Within (FP.reportCycle) (reportCycle p c : M o _) := by
  unfold reportCycle
  try dsimp only
  repeat' (first
    | intro _ | (with_reducible apply within_bind) | (with_reducible exact within_pure _) | (with_reducible exact within_st)
    | (with_reducible exact within_rd _) | (with_reducible exact within_now)
    | ((with_reducible refine setF_in .PART_BRM_STAT rfl ?_) <;> rfl) | (with_reducible exact wrs_nil_in)
    | ((with_reducible refine wrs_in .PART_BRM_STAT rfl ?_ ?_); rfl) | ((with_reducible refine (takeTokens_in ..).mono ?_); rfl)
    | ((with_reducible refine (evRaw_in ..).mono ?_); rfl) | ((with_reducible refine wr_in .PART_BRM_RPT rfl ?_); rfl)
    | ((with_reducible refine eff_in .watch rfl ?_); rfl) | (with_reducible apply within_each) | (with_reducible apply within_when)
    | split)

theorem advTo_in (t) : Within (FP.advTo) (advTo t : M o _) := by
  unfold advTo
  try dsimp only
  repeat' (first
    | intro _ | (with_reducible apply within_bind) | (with_reducible exact within_pure _) | (with_reducible exact within_st)
    | (with_reducible exact within_rd _) | (with_reducible exact within_now) | ((with_reducible refine eff_in .pass rfl ?_); rfl) | split)

theorem afterDroop_in : Within (FP.advTo) (afterDroop : M o _) := by
  unfold afterDroop
  try dsimp only
  repeat' (first
    | intro _ | (with_reducible apply within_bind) | (with_reducible exact within_pure _) | (with_reducible exact within_st)
    | (with_reducible exact within_rd _) | (with_reducible exact within_now) | ((with_reducible refine (advTo_in ..).mono ?_); rfl)
    | (with_reducible apply within_when) | split)

theorem startBlend_in (m) : Within (FP.startBlend) (startBlend m : M o _) := by
  unfold startBlend
  try dsimp only
  repeat' (first
    | intro _ | (with_reducible apply within_bind) | (with_reducible exact within_pure _) | (with_reducible exact within_st)
    | (with_reducible exact within_rd _) | (with_reducible exact within_now) | ((with_reducible refine setF_in .PWR_STAT rfl ?_) <;> rfl)
    | ((with_reducible refine (mark_in ..).mono ?_); rfl) | ((with_reducible refine eff_in .pw rfl ?_); rfl) | split)

theorem beginMove_in (dst) : Within (FP.startBlend) (beginMove dst : M o _) := by
  unfold beginMove
  try dsimp only
  repeat' (first
    | intro _ | (with_reducible apply within_bind) | (with_reducible exact within_pure _) | (with_reducible exact within_st)
    | (with_reducible exact within_rd _) | (with_reducible exact within_now) | ((with_reducible refine (mark_in ..).mono ?_); rfl)
    | ((with_reducible refine (startBlend_in ..).mono ?_); rfl) | ((with_reducible refine eff_in .pw rfl ?_); rfl) | split)

theorem endMove_in (m) : Within (FP.endMove) (endMove m : M o _) := by
  unfold endMove
  try dsimp only
  repeat' (first
    | intro _ | (with_reducible apply within_bind) | (with_reducible exact within_pure _) | (with_reducible exact within_st)
    | (with_reducible exact within_rd _) | (with_reducible exact within_now) | ((with_reducible refine incWrap_in .PWR_OP rfl ?_) <;> rfl)
    | ((with_reducible refine wr_in .PWR_STAT rfl ?_); rfl) | ((with_reducible refine eff_in .pw rfl ?_); rfl) | split)

theorem seenAt_in {fp : Nat} (key) : Within fp (seenAt key : M o _) := by
  unfold seenAt
  try dsimp only
  repeat' (first
    | intro _ | (with_reducible apply within_bind) | (with_reducible exact within_pure _) | (with_reducible exact within_st)
    | (with_reducible exact within_rd _) | (with_reducible exact within_now) | split)

theorem periodic_in (key period) : Within (FP.periodic) (periodic key period : M o _) := by
  unfold periodic
  try dsimp only
  repeat' (first
    | intro _ | (with_reducible apply within_bind) | (with_reducible exact within_pure _) | (with_reducible exact within_st)
    | (with_reducible exact within_rd _) | (with_reducible exact within_now) | (with_reducible exact seenAt_in ..)
    | ((with_reducible refine (advTo_in ..).mono ?_); rfl) | ((with_reducible refine (mark_in ..).mono ?_); rfl) | split)

theorem strm_in {fp : Nat} (p k) : Within fp (strm p k : M o _) := by
  unfold strm
  try dsimp only
  repeat' (first
    | intro _ | (with_reducible apply within_bind) | (with_reducible exact within_pure _) | (with_reducible exact within_st)
    | (with_reducible exact within_rd _) | (with_reducible exact within_now) | split)

theorem que_in {fp : Nat} (p q) : Within fp (que p q : M o _) := by
  unfold que
  try dsimp only
  repeat' (first
    | intro _ | (with_reducible apply within_bind) | (with_reducible exact within_pure _) | (with_reducible exact within_st)
    | (with_reducible exact within_rd _) | (with_reducible exact within_now) | split)

theorem ctx_in {fp : Nat} (c) : Within fp (ctx c : M o _) := by
  unfold ctx
  try dsimp only
  repeat' (first
    | intro _ | (with_reducible apply within_bind) | (with_reducible exact within_pure _) | (with_reducible exact within_st)
    | (with_reducible exact within_rd _) | (with_reducible exact within_now) | split)

theorem ring_in {fp : Nat} (n) : Within fp (ring n : M o _) := by
  unfold ring
  try dsimp only
  repeat' (first
    | intro _ | (with_reducible apply within_bind) | (with_reducible exact within_pure _) | (with_reducible exact within_st)
    | (with_reducible exact within_rd _) | (with_reducible exact within_now) | split)

theorem portSt_in {fp : Nat} (n) : Within fp (portSt n : M o _) := by
  unfold portSt
  try dsimp only
  repeat' (first
    | intro _ | (with_reducible apply within_bind) | (with_reducible exact within_pure _) | (with_reducible exact within_st)
    | (with_reducible exact within_rd _) | (with_reducible exact within_now) | split)

theorem loadRange_in (r) : Within (FP.readMem) (loadRange r : M o _) := by
  unfold loadRange
  try dsimp only
  repeat' (first
    | intro _ | (with_reducible apply within_bind) | (with_reducible exact within_pure _) | (with_reducible exact within_st)
    | (with_reducible exact within_rd _) | (with_reducible exact within_now) | ((with_reducible refine (readVault_in ..).mono ?_); rfl)
    | ((with_reducible refine (writeMem_in ..).mono ?_); rfl) | ((with_reducible refine eff_in .mem rfl ?_); rfl) | split)

theorem loadRanges_in (l) : Within (FP.readMem) (loadRanges l : M o _) := by
  induction l with
  | nil => unfold loadRanges; exact within_pure _
  | cons u l ih =>
    unfold loadRanges
    try dsimp only
    repeat' (first
      | (with_reducible exact ih) | intro _ | (with_reducible apply within_bind) | (with_reducible exact within_pure _)
      | (with_reducible exact within_st) | (with_reducible exact within_rd _) | (with_reducible exact within_now)
      | ((with_reducible refine (loadRange_in ..).mono ?_); rfl) | split)

theorem reloadStores_in (rs l) : Within (FP.readMem) (reloadStores rs l : M o _) := by
  induction l with
  | nil => unfold reloadStores; exact within_pure _
  | cons u l ih =>
    unfold reloadStores
    try dsimp only
    repeat' (first
      | (with_reducible exact ih) | intro _ | (with_reducible apply within_bind) | (with_reducible exact within_pure _)
      | (with_reducible exact within_st) | (with_reducible exact within_rd _) | (with_reducible exact within_now)
      | ((with_reducible refine (loadRanges_in ..).mono ?_); rfl) | exact wr_in _ rfl (stFld_bit _ (by rfl) (by rfl) (by rfl)) | split)

theorem readSpans_in (l) : Within (FP.readVault) (readSpans l : M o _) := by
  induction l with
  | nil => unfold readSpans; exact within_pure _
  | cons u l ih =>
    unfold readSpans
    try dsimp only
    repeat' (first
      | (with_reducible exact ih) | intro _ | (with_reducible apply within_bind) | (with_reducible exact within_pure _)
      | (with_reducible exact within_st) | (with_reducible exact within_rd _) | (with_reducible exact within_now)
      | ((with_reducible refine (readVault_in ..).mono ?_); rfl) | split)

theorem loadBlob_in (g) : Within (FP.readMem) (loadBlob g : M o _) := by
  unfold loadBlob
  try dsimp only
  repeat' (first
    | intro _ | (with_reducible apply within_bind) | (with_reducible exact within_pure _) | (with_reducible exact within_st)
    | (with_reducible exact within_rd _) | (with_reducible exact within_now) | ((with_reducible refine (readVault_in ..).mono ?_); rfl)
    | ((with_reducible refine (writeMem_in ..).mono ?_); rfl) | split)

theorem loadBlobs_in (l) : Within (FP.readMem) (loadBlobs l : M o _) := by
  induction l with
  | nil => unfold loadBlobs; exact within_pure _
  | cons u l ih =>
    unfold loadBlobs
    try dsimp only
    repeat' (first
      | (with_reducible exact ih) | intro _ | (with_reducible apply within_bind) | (with_reducible exact within_pure _)
      | (with_reducible exact within_st) | (with_reducible exact within_rd _) | (with_reducible exact within_now)
      | ((with_reducible refine (loadBlob_in ..).mono ?_); rfl) | split)

theorem wireQueue_in (ws fz w) : Within (FP.wireQueue) (wireQueue ws fz w : M o _) := by
  unfold wireQueue
  try dsimp only
  repeat' (first
    | intro _ | (with_reducible apply within_bind) | (with_reducible exact within_pure _) | (with_reducible exact within_st)
    | (with_reducible exact within_rd _) | (with_reducible exact within_now) | (with_reducible exact wrs_nil_in)
    | ((with_reducible refine wrs_in .PART_Q_CFG rfl ?_ ?_); rfl) | ((with_reducible refine wrs_in .PART_Q_CREDIT rfl ?_ ?_); rfl)
    | ((with_reducible refine wrs_in .PART_Q_ENDS rfl ?_ ?_); rfl) | ((with_reducible refine wrs_in .PART_Q_OCC rfl ?_ ?_); rfl)
    | ((with_reducible refine (upQue_in ..).mono ?_); rfl) | split)

theorem loadProg_in (c b g i) : Within (FP.loadProg) (loadProg c b g i : M o _) := by
  unfold loadProg
  try dsimp only
  repeat' (first
    | intro _ | (with_reducible apply within_bind) | (with_reducible exact within_pure _) | (with_reducible exact within_st)
    | (with_reducible exact within_rd _) | (with_reducible exact within_now) | (with_reducible exact wrs_nil_in)
    | ((with_reducible refine wrs_in .PART_ARR_STAT rfl ?_ ?_); rfl) | ((with_reducible refine (upArr_in ..).mono ?_); rfl)
    | ((with_reducible refine (upCore_in ..).mono ?_); rfl) | ((with_reducible refine (upStr_in ..).mono ?_); rfl)
    | ((with_reducible refine wr_in .PART_ARR_STAT rfl ?_); rfl) | ((with_reducible refine wr_in .PART_CORE_STAT rfl ?_); rfl)
    | ((with_reducible refine wr_in .PART_STR_STAT rfl ?_); rfl) | exact wr_in _ rfl (stFld_bit _ (by rfl) (by rfl) (by rfl))
    | (with_reducible apply within_when) | split)

theorem placePhase_in (c n opid args) : Within (FP.placePhase) (placePhase c n opid args : M o _) := by
  unfold placePhase
  try dsimp only
  repeat' (first
    | intro _ | (with_reducible apply within_bind) | (with_reducible exact within_pure _) | (with_reducible exact within_st)
    | (with_reducible exact within_rd _) | (with_reducible exact within_now) | ((with_reducible refine (wireQueue_in ..).mono ?_); rfl)
    | ((with_reducible refine (loadProg_in ..).mono ?_); rfl) | ((with_reducible refine (upCtx_in ..).mono ?_); rfl)
    | (with_reducible exact wrs_nil_in) | ((with_reducible refine wrs_in .HIF_CTX_STATc rfl ?_ ?_); rfl)
    | ((with_reducible refine (refreshPhase_in ..).mono ?_); rfl) | ((with_reducible refine wr_in .PART_Q_CFG rfl ?_); rfl)
    | ((with_reducible refine eff_in .host rfl ?_); rfl) | (with_reducible apply within_each) | split)

theorem bindPhase_in (c n opid args) : Within (FP.bindPhase) (bindPhase c n opid args : M o _) := by
  unfold bindPhase
  try dsimp only
  repeat' (first
    | intro _ | (with_reducible apply within_bind) | (with_reducible exact within_pure _) | (with_reducible exact within_st)
    | (with_reducible exact within_rd _) | (with_reducible exact within_now) | ((with_reducible refine (failOp_in ..).mono ?_); rfl)
    | ((with_reducible refine (readSpans_in ..).mono ?_); rfl) | ((with_reducible refine (reloadStores_in ..).mono ?_); rfl)
    | ((with_reducible refine (loadBlobs_in ..).mono ?_); rfl) | ((with_reducible refine (placePhase_in ..).mono ?_); rfl) | split)

theorem sendIdent_in (n) : Within (FP.send) (sendIdent n : M o _) := by
  unfold sendIdent
  try dsimp only
  repeat' (first
    | intro _ | (with_reducible apply within_bind) | (with_reducible exact within_pure _) | (with_reducible exact within_st)
    | (with_reducible exact within_rd _) | (with_reducible exact within_now) | ((with_reducible refine (send_in ..).mono ?_); rfl) | split)

theorem afterIdent_in (n) : Within (FP.setPort) (afterIdent n : M o _) := by
  unfold afterIdent
  try dsimp only
  repeat' (first
    | intro _ | (with_reducible apply within_bind) | (with_reducible exact within_pure _) | (with_reducible exact within_st)
    | (with_reducible exact within_rd _) | (with_reducible exact within_now) | ((with_reducible refine (enterTest_in ..).mono ?_); rfl)
    | ((with_reducible refine (setPort_in ..).mono ?_); rfl) | split)

theorem testOutcome_in (n pass) : Within (FP.testOutcome) (testOutcome n pass : M o _) := by
  unfold testOutcome
  try dsimp only
  repeat' (first
    | intro _ | (with_reducible apply within_bind) | (with_reducible exact within_pure _) | (with_reducible exact within_st)
    | (with_reducible exact within_rd _) | (with_reducible exact within_now) | ((with_reducible refine (setPort_in ..).mono ?_); rfl)
    | ((with_reducible refine (portCheck_in ..).mono ?_); rfl) | split)

theorem losePort_in (n reason) : Within (FP.bringUp) (losePort n reason : M o _) := by
  unfold losePort
  try dsimp only
  repeat' (first
    | intro _ | (with_reducible apply within_bind) | (with_reducible exact within_pure _) | (with_reducible exact within_st)
    | (with_reducible exact within_rd _) | (with_reducible exact within_now)
    | ((with_reducible refine incSat_in .FZ_PORT_STAT rfl ?_) <;> rfl) | ((with_reducible refine (upPort_in ..).mono ?_); rfl)
    | ((with_reducible refine (ev_in ..).mono ?_); rfl) | ((with_reducible refine (setPort_in ..).mono ?_); rfl)
    | ((with_reducible refine (startTraining_in ..).mono ?_); rfl) | (with_reducible apply within_when) | split)

theorem addSat_in {fp : Nat} (k : RegKind) {f : Fld} {v : Nat} (hk : f.k = k) (h : fp.testBit (64 + k.ctorIdx) = true) :
    Within fp (addSat f v : M o _) := within_bind (within_rd f) fun _ => wr_in k hk h

theorem refreshClip_in : Within (FP.refreshClip) (refreshClip : M o _) := by
  unfold refreshClip
  try dsimp only
  repeat' (first
    | intro _ | (with_reducible apply within_bind) | (with_reducible exact within_pure _) | (with_reducible exact within_st)
    | (with_reducible exact within_rd _) | (with_reducible exact within_now) | ((with_reducible refine setF_in .PWR_STAT rfl ?_) <;> rfl)
    | ((with_reducible refine (mark_in ..).mono ?_); rfl) | ((with_reducible refine wr_in .PWR_CLIP rfl ?_); rfl)
    | ((with_reducible refine eff_in .host rfl ?_); rfl) | ((with_reducible refine eff_in .pw rfl ?_); rfl)
    | (with_reducible apply within_when) | split)

theorem refreshFlow_in : Within (FP.upGrant) (refreshFlow : M o _) := by
  unfold refreshFlow
  try dsimp only
  repeat' (first
    | intro _ | (with_reducible apply within_bind) | (with_reducible exact within_pure _) | (with_reducible exact within_st)
    | (with_reducible exact within_rd _) | (with_reducible exact within_now) | ((with_reducible refine eff_in .pw rfl ?_); rfl) | split)

theorem enterHold_in {fp : Nat} (k : RegKind) {f : Fld} (hk : f.k = k) (h : fp.testBit (64 + k.ctorIdx) = true)
    (hm : FP.enterHold &&& fp = FP.enterHold) : Within fp (enterHold f : M o _) := by
  unfold enterHold
  refine within_bind mode_in fun _ => within_bind ?_ fun _ => within_bind (setF_in k hk h) fun _ =>
    forceDrop_in.mono (sub_trans (by rfl) hm)
  split
  · exact within_bind ((eff_in (n := 0x8000) .ctl rfl (by rfl)).mono (sub_trans (by rfl) hm)) fun _ => (mark_in ..).mono (sub_trans (by rfl) hm)
  · exact within_pure _

theorem qsSvc_in (dst code fields) : Within (FP.qsSvc) (qsSvc dst code fields : M o _) := by
  unfold qsSvc
  try dsimp only
  repeat' (first
    | intro _ | (with_reducible apply within_bind) | (with_reducible exact within_pure _) | (with_reducible exact within_st)
    | (with_reducible exact within_rd _) | (with_reducible exact within_now) | ((with_reducible refine (dropPkt_in ..).mono ?_); rfl)
    | ((with_reducible refine (svc_in ..).mono ?_); rfl) | split)

theorem qsSendBlock_in (a table b bytes) : Within (FP.upPort) (qsSendBlock a table b bytes : M o _) := by
  unfold qsSendBlock
  try dsimp only
  repeat' (first
    | intro _ | (with_reducible apply within_bind) | (with_reducible exact within_pure _) | (with_reducible exact within_st)
    | (with_reducible exact within_rd _) | (with_reducible exact within_now) | ((with_reducible refine (queuePkt_in ..).mono ?_); rfl)
    | (with_reducible apply within_each) | split)

theorem qsRefresh_in : Within (FP.qsRefresh) (qsRefresh : M o _) := by
  unfold qsRefresh
  try dsimp only
  repeat' (first
    | intro _ | (with_reducible apply within_bind) | (with_reducible exact within_pure _) | (with_reducible exact within_st)
    | (with_reducible exact within_rd _) | (with_reducible exact within_now) | (with_reducible exact wrs_nil_in)
    | ((with_reducible refine wrs_in .RST_QS_STAT rfl ?_ ?_); rfl) | ((with_reducible refine wr_in .RST_QS_MISS rfl ?_); rfl)
    | (with_reducible apply within_when) | split)

theorem qsDrop_in : Within (FP.wearTake) (qsDrop : M o _) := by
  unfold qsDrop
  try dsimp only
  repeat' (first
    | intro _ | (with_reducible apply within_bind) | (with_reducible exact within_pure _) | (with_reducible exact within_st)
    | (with_reducible exact within_rd _) | (with_reducible exact within_now) | ((with_reducible refine eff_in .vlt rfl ?_); rfl) | split)

theorem qsJoin_in (a) : Within (FP.qsJoin) (qsJoin a : M o _) := by
  unfold qsJoin
  try dsimp only
  repeat' (first
    | intro _ | (with_reducible apply within_bind) | (with_reducible exact within_pure _) | (with_reducible exact within_st)
    | (with_reducible exact within_rd _) | (with_reducible exact within_now) | ((with_reducible refine (qsDrop_in).mono ?_); rfl)
    | (with_reducible exact wrs_nil_in) | ((with_reducible refine wrs_in .RST_QS_STAT rfl ?_ ?_); rfl)
    | ((with_reducible refine (markSlot_in ..).mono ?_); rfl) | ((with_reducible refine (mark_in ..).mono ?_); rfl)
    | ((with_reducible refine (qsRefresh_in).mono ?_); rfl) | ((with_reducible refine eff_in .qs rfl ?_); rfl)
    | (with_reducible apply within_when) | split)

theorem qsForget_in (table b) : Within (FP.qsCancel) (qsForget table b : M o _) := by
  unfold qsForget
  try dsimp only
  repeat' (first
    | intro _ | (with_reducible apply within_bind) | (with_reducible exact within_pure _) | (with_reducible exact within_st)
    | (with_reducible exact within_rd _) | (with_reducible exact within_now) | ((with_reducible refine eff_in .qs rfl ?_); rfl) | split)

theorem qsHave_in (table b) : Within (FP.qsHave) (qsHave table b : M o _) := by
  unfold qsHave
  try dsimp only
  repeat' (first
    | intro _ | (with_reducible apply within_bind) | (with_reducible exact within_pure _) | (with_reducible exact within_st)
    | (with_reducible exact within_rd _) | (with_reducible exact within_now) | ((with_reducible refine (mark_in ..).mono ?_); rfl)
    | ((with_reducible refine eff_in .qs rfl ?_); rfl) | split)

theorem qsBad_in (table b) : Within (FP.qsBad) (qsBad table b : M o _) := by
  unfold qsBad
  try dsimp only
  repeat' (first
    | intro _ | (with_reducible apply within_bind) | (with_reducible exact within_pure _) | (with_reducible exact within_st)
    | (with_reducible exact within_rd _) | (with_reducible exact within_now) | ((with_reducible refine (qsForget_in ..).mono ?_); rfl)
    | ((with_reducible refine incSat_in .RST_QS_STAT rfl ?_) <;> rfl) | split)

theorem qsStore_in (a b bytes) : Within (FP.qsStore) (qsStore a b bytes : M o _) := by
  unfold qsStore
  try dsimp only
  repeat' (first
    | intro _ | (with_reducible apply within_bind) | (with_reducible exact within_pure _) | (with_reducible exact within_st)
    | (with_reducible exact within_rd _) | (with_reducible exact within_now) | ((with_reducible refine (wearTake_in ..).mono ?_); rfl)
    | ((with_reducible refine (pageWrite_in ..).mono ?_); rfl) | ((with_reducible refine setF_in .MEM_VLT_STAT rfl ?_) <;> rfl)
    | ((with_reducible refine (qsHave_in ..).mono ?_); rfl) | ((with_reducible refine eff_in .qs rfl ?_); rfl)
    | ((with_reducible refine eff_in .vlt rfl ?_); rfl) | split)

theorem qsCheckData_in (a b) : Within (FP.qsCheckData) (qsCheckData a b : M o _) := by
  unfold qsCheckData
  try dsimp only
  repeat' (first
    | intro _ | (with_reducible apply within_bind) | (with_reducible exact within_pure _) | (with_reducible exact within_st)
    | (with_reducible exact within_rd _) | (with_reducible exact within_now) | ((with_reducible refine (qsForget_in ..).mono ?_); rfl)
    | ((with_reducible refine (qsStore_in ..).mono ?_); rfl) | ((with_reducible refine (qsBad_in ..).mono ?_); rfl) | split)

theorem commitServing_in : Within (FP.commitServing) (commitServing : M o _) := by
  unfold commitServing
  try dsimp only
  repeat' (first
    | intro _ | (with_reducible apply within_bind) | (with_reducible exact within_pure _) | (with_reducible exact within_st)
    | (with_reducible exact within_rd _) | (with_reducible exact within_now) | ((with_reducible refine (commitJournal_in).mono ?_); rfl)
    | ((with_reducible refine (qsRefresh_in).mono ?_); rfl) | (with_reducible apply within_when) | split)

theorem qsResume_in : Within (FP.qsCheckData) (qsResume : M o _) := by
  unfold qsResume
  try dsimp only
  repeat' (first
    | intro _ | (with_reducible apply within_bind) | (with_reducible exact within_pure _) | (with_reducible exact within_st)
    | (with_reducible exact within_rd _) | (with_reducible exact within_now) | ((with_reducible refine (qsCheckData_in ..).mono ?_); rfl)
    | (with_reducible apply within_each) | split)

theorem qsCheckTable_in (a j) : Within (FP.qsCheckData) (qsCheckTable a j : M o _) := by
  unfold qsCheckTable
  try dsimp only
  repeat' (first
    | intro _ | (with_reducible apply within_bind) | (with_reducible exact within_pure _) | (with_reducible exact within_st)
    | (with_reducible exact within_rd _) | (with_reducible exact within_now) | ((with_reducible refine (qsHave_in ..).mono ?_); rfl)
    | ((with_reducible refine (qsCheckData_in ..).mono ?_); rfl) | ((with_reducible refine (qsBad_in ..).mono ?_); rfl)
    | (with_reducible apply within_each) | split)

theorem qsTake_in (user data) : Within (FP.qsTake) (qsTake user data : M o _) := by
  unfold qsTake
  try dsimp only
  repeat' (first
    | intro _ | (with_reducible apply within_bind) | (with_reducible exact within_pure _) | (with_reducible exact within_st)
    | (with_reducible exact within_rd _) | (with_reducible exact within_now) | ((with_reducible refine (endWait_in ..).mono ?_); rfl)
    | ((with_reducible refine (qsRefresh_in).mono ?_); rfl) | ((with_reducible refine (qsCheckTable_in ..).mono ?_); rfl)
    | ((with_reducible refine (qsCheckData_in ..).mono ?_); rfl) | ((with_reducible refine eff_in .qs rfl ?_); rfl)
    | (with_reducible apply within_when) | split)

theorem qsAsk_in (fa session bs) : Within (FP.qsAsk) (qsAsk fa session bs : M o _) := by
  unfold qsAsk
  try dsimp only
  repeat' (first
    | intro _ | (with_reducible apply within_bind) | (with_reducible exact within_pure _) | (with_reducible exact within_st)
    | (with_reducible exact within_rd _) | (with_reducible exact within_now) | ((with_reducible refine (svc_in ..).mono ?_); rfl)
    | ((with_reducible refine eff_in .qs rfl ?_); rfl) | (with_reducible apply within_each) | split)

theorem qsFetch_in (a) : Within (FP.qsFetch) (qsFetch a : M o _) := by
  unfold qsFetch
  try dsimp only
  repeat' (first
    | intro _ | (with_reducible apply within_bind) | (with_reducible exact within_pure _) | (with_reducible exact within_st)
    | (with_reducible exact within_rd _) | (with_reducible exact within_now) | (with_reducible exact wrs_nil_in)
    | ((with_reducible refine wrs_in .RST_QS_STAT rfl ?_ ?_); rfl) | ((with_reducible refine (qsAsk_in ..).mono ?_); rfl)
    | ((with_reducible refine (mark_in ..).mono ?_); rfl) | split)

theorem qsRound_in (a n) : Within (FP.qsFetch) (qsRound a n : M o _) := by
  unfold qsRound
  try dsimp only
  repeat' (first
    | intro _ | (with_reducible apply within_bind) | (with_reducible exact within_pure _) | (with_reducible exact within_st)
    | (with_reducible exact within_rd _) | (with_reducible exact within_now) | (with_reducible exact wrs_nil_in)
    | ((with_reducible refine wrs_in .RST_QS_STAT rfl ?_ ?_); rfl) | ((with_reducible refine (mark_in ..).mono ?_); rfl)
    | ((with_reducible refine (qsAsk_in ..).mono ?_); rfl) | ((with_reducible refine eff_in .qs rfl ?_); rfl)
    | (with_reducible apply within_each) | split)

theorem qsRoundFrom_in (a n) : Within (FP.qsFetch) (qsRoundFrom a n : M o _) := by
  unfold qsRoundFrom
  try dsimp only
  repeat' (first
    | intro _ | (with_reducible apply within_bind) | (with_reducible exact within_pure _) | (with_reducible exact within_st)
    | (with_reducible exact within_rd _) | (with_reducible exact within_now) | ((with_reducible refine (qsRound_in ..).mono ?_); rfl)
    | ((with_reducible refine (qsFetch_in ..).mono ?_); rfl) | split)

theorem qsAnswered_in : Within (FP.qsFetch) (qsAnswered : M o _) := by
  unfold qsAnswered
  try dsimp only
  repeat' (first
    | intro _ | (with_reducible apply within_bind) | (with_reducible exact within_pure _) | (with_reducible exact within_st)
    | (with_reducible exact within_rd _) | (with_reducible exact within_now) | ((with_reducible refine (qsRoundFrom_in ..).mono ?_); rfl)
    | split)

theorem qsUnask_in (bs) : Within (FP.qsCancel) (qsUnask bs : M o _) := by
  unfold qsUnask
  try dsimp only
  repeat' (first
    | intro _ | (with_reducible apply within_bind) | (with_reducible exact within_pure _) | (with_reducible exact within_st)
    | (with_reducible exact within_rd _) | (with_reducible exact within_now) | ((with_reducible refine eff_in .qs rfl ?_); rfl) | split)

theorem qsIncomplete_in : Within (FP.qsIncomplete) (qsIncomplete : M o _) := by
  unfold qsIncomplete
  try dsimp only
  repeat' (first
    | intro _ | (with_reducible apply within_bind) | (with_reducible exact within_pure _) | (with_reducible exact within_st)
    | (with_reducible exact within_rd _) | (with_reducible exact within_now)
    | ((with_reducible refine setF_in .RST_QS_STAT rfl ?_) <;> rfl) | (with_reducible exact wrs_nil_in)
    | ((with_reducible refine wrs_in .RST_QS_STAT rfl ?_ ?_); rfl) | ((with_reducible refine (ev_in ..).mono ?_); rfl)
    | ((with_reducible refine faultCond_in .RST_FAULT rfl ?_ ?_) <;> rfl) | ((with_reducible refine (showRecord_in).mono ?_); rfl)
    | ((with_reducible refine (beginWait_in ..).mono ?_); rfl) | ((with_reducible refine eff_in .nor rfl ?_); rfl)
    | (with_reducible apply within_when) | split)

theorem checkOwner_in : Within (FP.saveSuper) (checkOwner : M o _) := by
  unfold checkOwner
  try dsimp only
  repeat' (first
    | intro _ | (with_reducible apply within_bind) | (with_reducible exact within_pure _) | (with_reducible exact within_st)
    | (with_reducible exact within_rd _) | (with_reducible exact within_now) | ((with_reducible refine (markSlot_in ..).mono ?_); rfl)
    | (with_reducible apply within_when) | split)

theorem qsPass_in (a) : Within (FP.qsPass) (qsPass a : M o _) := by
  unfold qsPass
  try dsimp only
  repeat' (first
    | intro _ | (with_reducible apply within_bind) | (with_reducible exact within_pure _) | (with_reducible exact within_st)
    | (with_reducible exact within_rd _) | (with_reducible exact within_now) | (with_reducible exact wrs_nil_in)
    | ((with_reducible refine wrs_in .RST_QS_STAT rfl ?_ ?_); rfl) | ((with_reducible refine faultCond_in .RST_FAULT rfl ?_ ?_) <;> rfl)
    | ((with_reducible refine (useCoreFw_in ..).mono ?_); rfl) | ((with_reducible refine (freeBits_in ..).mono ?_); rfl)
    | ((with_reducible refine (moduleStage3_in ..).mono ?_); rfl) | ((with_reducible refine (markSlot_in ..).mono ?_); rfl)
    | ((with_reducible refine (commitJournal_in).mono ?_); rfl) | ((with_reducible refine (ev_in ..).mono ?_); rfl)
    | ((with_reducible refine (checkOwner_in).mono ?_); rfl) | ((with_reducible refine (beginWait_in ..).mono ?_); rfl)
    | ((with_reducible refine wr_in .MEM_VLT_STAT rfl ?_); rfl) | ((with_reducible refine eff_in .mem rfl ?_); rfl)
    | ((with_reducible refine eff_in .nor rfl ?_); rfl) | ((with_reducible refine eff_in .super rfl ?_); rfl)
    | (with_reducible apply within_when) | split)

theorem qsFail_in (a) : Within (FP.qsFail) (qsFail a : M o _) := by
  unfold qsFail
  try dsimp only
  repeat' (first
    | intro _ | (with_reducible apply within_bind) | (with_reducible exact within_pure _) | (with_reducible exact within_st)
    | (with_reducible exact within_rd _) | (with_reducible exact within_now)
    | ((with_reducible refine setF_in .RST_QS_STAT rfl ?_) <;> rfl) | ((with_reducible refine (qsDrop_in).mono ?_); rfl)
    | ((with_reducible refine (markSlot_in ..).mono ?_); rfl) | ((with_reducible refine (qsIncomplete_in).mono ?_); rfl)
    | ((with_reducible refine eff_in .qs rfl ?_); rfl) | (with_reducible apply within_when) | split)

theorem fetchWord_in (off) : Within (FP.upPort) (fetchWord off : M o _) := by
  unfold fetchWord
  try dsimp only
  repeat' (first
    | intro _ | (with_reducible apply within_bind) | (with_reducible exact within_pure _) | (with_reducible exact within_st)
    | (with_reducible exact within_rd _) | (with_reducible exact within_now) | ((with_reducible refine eff_in .fab rfl ?_); rfl)
    | (with_reducible apply within_when) | split)

theorem fetchWords_in (n off : Nat) : Within (FP.upPort) (fetchWords n off : M o _) := by
  induction n generalizing off with
  | zero => exact within_pure _
  | succ n ih =>
    unfold fetchWords
    exact within_bind ((fetchWord_in ..).mono (by rfl)) fun _ => within_bind (ih _) fun _ => within_pure _

theorem leaveHold_in : Within (FP.leaveHold) (leaveHold : M o _) := by
  unfold leaveHold
  try dsimp only
  repeat' (first
    | intro _ | (with_reducible apply within_bind) | (with_reducible exact within_pure _) | (with_reducible exact within_st)
    | (with_reducible exact within_rd _) | (with_reducible exact within_now) | ((with_reducible refine (setMode_in ..).mono ?_); rfl)
    | ((with_reducible refine (upPhase_in ..).mono ?_); rfl) | ((with_reducible refine (drainDone_in).mono ?_); rfl)
    | ((with_reducible refine (forcedOff_in).mono ?_); rfl) | (with_reducible apply within_each) | split)

theorem doorbell_in {fp : Nat} {n off v} {m} (hm : FP.evRaw &&& fp = FP.evRaw) (hb : Within fp m) :
    Within fp (doorbell n off v m : M o _) := by
  unfold doorbell
  try dsimp only
  repeat' (first
    | with_reducible exact hb | with_reducible exact hb _ | intro _ | (with_reducible apply within_bind)
    | (with_reducible exact within_pure _) | (with_reducible exact within_st) | (with_reducible exact within_rd _)
    | (with_reducible exact within_now) | ((with_reducible refine (send_in ..).mono ?_); exact sub_trans rfl hm)
    | ((with_reducible refine (writeRec_in ..).mono ?_); exact sub_trans rfl hm) | split)

theorem entryIrq_in (n irq) : Within (FP.entryIrq) (entryIrq n irq : M o _) := by
  unfold entryIrq
  try dsimp only
  repeat' (first
    | intro _ | (with_reducible apply within_bind) | (with_reducible exact within_pure _) | (with_reducible exact within_st)
    | (with_reducible exact within_rd _) | (with_reducible exact within_now) | ((with_reducible refine (upRing_in ..).mono ?_); rfl)
    | ((with_reducible refine (ringMessage_in ..).mono ?_); rfl) | ((with_reducible refine (mark_in ..).mono ?_); rfl)
    | (with_reducible apply within_when) | split)

theorem receiveGood_in (port k good e) : Within (FP.receiveGood) (receiveGood port k good e : M o _) := by
  unfold receiveGood
  try dsimp only
  repeat' (first
    | intro _ | (with_reducible apply within_bind) | (with_reducible exact within_pure _) | (with_reducible exact within_st)
    | (with_reducible exact within_rd _) | (with_reducible exact within_now) | ((with_reducible refine (dropPkt_in ..).mono ?_); rfl)
    | ((with_reducible refine (ev_in ..).mono ?_); rfl) | ((with_reducible refine (deliverPkt_in ..).mono ?_); rfl)
    | ((with_reducible refine (bcastSpread_in ..).mono ?_); rfl) | ((with_reducible refine (send_in ..).mono ?_); rfl)
    | (with_reducible apply within_when) | split)

theorem receivePkt_in (port k e) : Within (FP.receivePkt) (receivePkt port k e : M o _) := by
  unfold receivePkt
  try dsimp only
  repeat' (first
    | intro _ | (with_reducible apply within_bind) | (with_reducible exact within_pure _) | (with_reducible exact within_st)
    | (with_reducible exact within_rd _) | (with_reducible exact within_now)
    | ((with_reducible refine incSat_in .FZ_PORT_CNTk rfl ?_) <;> rfl) | ((with_reducible refine (dropPkt_in ..).mono ?_); rfl)
    | ((with_reducible refine (receiveGood_in ..).mono ?_); rfl) | ((with_reducible refine wr_in .FZ_PORT_CNTk rfl ?_); rfl) | split)

theorem takeInbox_in (f) : Within (FP.upPort) (takeInbox f : M o _) := by
  unfold takeInbox
  try dsimp only
  repeat' (first
    | intro _ | (with_reducible apply within_bind) | (with_reducible exact within_pure _) | (with_reducible exact within_st)
    | (with_reducible exact within_rd _) | (with_reducible exact within_now) | ((with_reducible refine eff_in .fab rfl ?_); rfl) | split)

theorem upIn_in (src och f) : Within (FP.upPort) (upIn src och f : M o _) := by
  unfold upIn
  try dsimp only
  repeat' (first
    | intro _ | (with_reducible apply within_bind) | (with_reducible exact within_pure _) | (with_reducible exact within_st)
    | (with_reducible exact within_rd _) | (with_reducible exact within_now) | ((with_reducible refine eff_in .fab rfl ?_); rfl) | split)

theorem sendAck_in (x) : Within (FP.upPort) (sendAck x : M o _) := by
  unfold sendAck
  try dsimp only
  repeat' (first
    | intro _ | (with_reducible apply within_bind) | (with_reducible exact within_pure _) | (with_reducible exact within_st)
    | (with_reducible exact within_rd _) | (with_reducible exact within_now) | ((with_reducible refine (queuePkt_in ..).mono ?_); rfl)
    | ((with_reducible refine (upIn_in ..).mono ?_); rfl) | split)

theorem publishStream_in (src och) : Within (FP.publishStream) (publishStream src och : M o _) := by
  unfold publishStream
  try dsimp only
  repeat' (first
    | intro _ | (with_reducible apply within_bind) | (with_reducible exact within_pure _) | (with_reducible exact within_st)
    | (with_reducible exact within_rd _) | (with_reducible exact within_now) | ((with_reducible refine (upIn_in ..).mono ?_); rfl)
    | ((with_reducible refine (ringPublish_in ..).mono ?_); rfl) | ((with_reducible refine (sendAck_in ..).mono ?_); rfl)
    | (with_reducible apply within_loop) | split)

theorem takeQslot_in (k) : Within (FP.redTotal) (takeQslot k : M o _) := by
  unfold takeQslot
  try dsimp only
  repeat' (first
    | intro _ | (with_reducible apply within_bind) | (with_reducible exact within_pure _) | (with_reducible exact within_st)
    | (with_reducible exact within_rd _) | (with_reducible exact within_now) | ((with_reducible refine (dropPkt_in ..).mono ?_); rfl)
    | ((with_reducible refine (upIn_in ..).mono ?_); rfl) | ((with_reducible refine (ringPut_in ..).mono ?_); rfl)
    | ((with_reducible refine (publishStream_in ..).mono ?_); rfl) | (with_reducible apply within_when) | split)

theorem endRung_in (depth mask) : Within (FP.setMode) (endRung depth mask : M o _) := by
  unfold endRung
  try dsimp only
  repeat' (first
    | intro _ | (with_reducible apply within_bind) | (with_reducible exact within_pure _) | (with_reducible exact within_st)
    | (with_reducible exact within_rd _) | (with_reducible exact within_now) | ((with_reducible refine eff_in .ctl rfl ?_); rfl) | split)

theorem makeStale_in (a n) : Within (FP.makeStale) (makeStale a n : M o _) := by
  unfold makeStale
  try dsimp only
  repeat' (first
    | intro _ | (with_reducible apply within_bind) | (with_reducible exact within_pure _) | (with_reducible exact within_st)
    | (with_reducible exact within_rd _) | (with_reducible exact within_now) | ((with_reducible refine eff_in .draw rfl ?_); rfl)
    | ((with_reducible refine eff_in .mem rfl ?_); rfl) | split)

theorem clearArr_in (p n) : Within (FP.clearArr) (clearArr p n : M o _) := by
  unfold clearArr
  try dsimp only
  repeat' (first
    | intro _ | (with_reducible apply within_bind) | (with_reducible exact within_pure _) | (with_reducible exact within_st)
    | (with_reducible exact within_rd _) | (with_reducible exact within_now) | ((with_reducible refine (slopeStop_in ..).mono ?_); rfl)
    | ((with_reducible refine (upArr_in ..).mono ?_); rfl) | (with_reducible exact wrs_nil_in)
    | ((with_reducible refine wrs_in .PART_ARR_STAT rfl ?_ ?_); rfl) | ((with_reducible refine (makeStale_in ..).mono ?_); rfl) | split)

theorem clearCore_in (p g) : Within (FP.clearCore) (clearCore p g : M o _) := by
  unfold clearCore
  try dsimp only
  repeat' (first
    | intro _ | (with_reducible apply within_bind) | (with_reducible exact within_pure _) | (with_reducible exact within_st)
    | (with_reducible exact within_rd _) | (with_reducible exact within_now) | (with_reducible exact wrs_nil_in)
    | ((with_reducible refine wrs_in .PART_CORE_IMASKm rfl ?_ ?_); rfl)
    | ((with_reducible refine wrs_in .PART_CORE_IPENDm rfl ?_ ?_); rfl) | ((with_reducible refine wrs_in .PART_CORE_MBOXn rfl ?_ ?_); rfl)
    | ((with_reducible refine wrs_in .PART_CORE_STAT rfl ?_ ?_); rfl) | ((with_reducible refine (upCore_in ..).mono ?_); rfl)
    | ((with_reducible refine (makeStale_in ..).mono ?_); rfl) | ((with_reducible refine (refreshCore_in ..).mono ?_); rfl)
    | (with_reducible apply within_each) | split)

theorem engineStage3_in (p forced) : Within (FP.engineStage3) (engineStage3 p forced : M o _) := by
  unfold engineStage3
  try dsimp only
  repeat' (first
    | intro _ | (with_reducible apply within_bind) | (with_reducible exact within_pure _) | (with_reducible exact within_st)
    | (with_reducible exact within_rd _) | (with_reducible exact within_now) | ((with_reducible refine (clearArr_in ..).mono ?_); rfl)
    | ((with_reducible refine (clearCore_in ..).mono ?_); rfl) | ((with_reducible refine (upStr_in ..).mono ?_); rfl)
    | (with_reducible exact wrs_nil_in) | ((with_reducible refine wrs_in .PART_ENG_RST_STAT rfl ?_ ?_); rfl)
    | ((with_reducible refine (ev_in ..).mono ?_); rfl) | ((with_reducible refine (noteFault_in ..).mono ?_); rfl)
    | ((with_reducible refine (noteEnded_in ..).mono ?_); rfl) | ((with_reducible refine (refreshPhase_in ..).mono ?_); rfl)
    | ((with_reducible refine (endRung_in ..).mono ?_); rfl) | ((with_reducible refine (refreshThrottle_in).mono ?_); rfl)
    | ((with_reducible refine (resetEvent_in ..).mono ?_); rfl) | ((with_reducible refine wr_in .PART_STR_STAT rfl ?_); rfl)
    | (with_reducible apply within_when) | split)

theorem disagree_in (p kind n fuse bad) : Within (FP.evRaw) (disagree p kind n fuse bad : M o _) := by
  unfold disagree
  try dsimp only
  repeat' (first
    | intro _ | (with_reducible apply within_bind) | (with_reducible exact within_pure _) | (with_reducible exact within_st)
    | (with_reducible exact within_rd _) | (with_reducible exact within_now) | ((with_reducible refine (ev_in ..).mono ?_); rfl)
    | (with_reducible apply within_each) | split)

theorem refreshPartFault_in : Within (FP.refreshPortFault) (refreshPartFault : M o _) := by
  unfold refreshPartFault
  try dsimp only
  repeat' (first
    | intro _ | (with_reducible apply within_bind) | (with_reducible exact within_pure _) | (with_reducible exact within_st)
    | (with_reducible exact within_rd _) | (with_reducible exact within_now)
    | ((with_reducible refine faultCond_in .RST_FAULT rfl ?_ ?_) <;> rfl) | split)

theorem buildTopiary_in (p t keep) : Within (FP.buildTopiary) (buildTopiary p t keep : M o _) := by
  unfold buildTopiary
  try dsimp only
  repeat' (first
    | intro _ | (with_reducible apply within_bind) | (with_reducible exact within_pure _) | (with_reducible exact within_st)
    | (with_reducible exact within_rd _) | (with_reducible exact within_now) | ((with_reducible refine (disagree_in ..).mono ?_); rfl)
    | (with_reducible exact wrs_nil_in) | ((with_reducible refine wrs_in .PART_TOP_ARRn rfl ?_ ?_); rfl)
    | ((with_reducible refine wrs_in .PART_TOP_BAD_ARR rfl ?_ ?_); rfl)
    | ((with_reducible refine wrs_in .PART_TOP_BAD_CORE_HI rfl ?_ ?_); rfl)
    | ((with_reducible refine wrs_in .PART_TOP_BAD_CORE_LO rfl ?_ ?_); rfl)
    | ((with_reducible refine wrs_in .PART_TOP_BAD_STR rfl ?_ ?_); rfl) | ((with_reducible refine wrs_in .PART_TOP_COREg rfl ?_ ?_); rfl)
    | ((with_reducible refine wrs_in .PART_TOP_FUSE_ARR rfl ?_ ?_); rfl) | ((with_reducible refine wrs_in .PART_TOP_STAT rfl ?_ ?_); rfl)
    | ((with_reducible refine (ev_in ..).mono ?_); rfl) | ((with_reducible refine (setAvail_in ..).mono ?_); rfl)
    | ((with_reducible refine (refreshPartFault_in).mono ?_); rfl) | ((with_reducible refine wr_in .PART_TOP_STAT rfl ?_); rfl)
    | (with_reducible apply within_each) | (with_reducible apply within_when) | split)

theorem failChannels_in (l) : Within (FP.failChannels) (failChannels l : M o _) := by
  unfold failChannels
  try dsimp only
  repeat' (first
    | intro _ | (with_reducible apply within_bind) | (with_reducible exact within_pure _) | (with_reducible exact within_st)
    | (with_reducible exact within_rd _) | (with_reducible exact within_now) | ((with_reducible refine setF_in .MEM_STAT rfl ?_) <;> rfl)
    | ((with_reducible refine setF_in .MEM_T1_RECAL_c rfl ?_) <;> rfl)
    | ((with_reducible refine faultCond_in .RST_FAULT rfl ?_ ?_) <;> rfl) | (with_reducible apply within_each) | split)

theorem trainRejects_in (l) : Within (FP.evRaw) (trainRejects l : M o _) := by
  unfold trainRejects
  try dsimp only
  repeat' (first
    | intro _ | (with_reducible apply within_bind) | (with_reducible exact within_pure _) | (with_reducible exact within_st)
    | (with_reducible exact within_rd _) | (with_reducible exact within_now) | ((with_reducible refine (ev_in ..).mono ?_); rfl)
    | (with_reducible apply within_each) | split)

theorem upTraining_in (f) : Within (FP.upTraining) (upTraining f : M o _) := by
  unfold upTraining
  try dsimp only
  repeat' (first
    | intro _ | (with_reducible apply within_bind) | (with_reducible exact within_pure _) | (with_reducible exact within_st)
    | (with_reducible exact within_rd _) | (with_reducible exact within_now) | ((with_reducible refine eff_in .nor rfl ?_); rfl)
    | ((with_reducible refine eff_in .settings rfl ?_); rfl) | split)

end Sys2Proof.Machine
end

