-- ==== Sys2Proof/Laws/Foot4.lean ====
section
/-!
SUPPORT. Footprints of the shared operations, part 4: one lemma per operation, which says everything that it can change.
-/

namespace Sys2Proof.Machine

variable {o : State}

theorem reloadPart_in (p dram) : Within (FP.readMem) (reloadPart p dram : M o _) := by
  unfold reloadPart
  try dsimp only
  repeat' (first
    | intro _ | (with_reducible apply within_bind) | (with_reducible exact within_pure _) | (with_reducible exact within_st)
    | (with_reducible exact within_rd _) | (with_reducible exact within_now) | ((with_reducible refine (loadRange_in ..).mono ?_); rfl)
    | ((with_reducible refine eff_in .mem rfl ?_); rfl) | (with_reducible apply within_each) | split)

theorem coppiceCheck_in : Within (FP.coppiceCheck) (coppiceCheck : M o _) := by
  unfold coppiceCheck
  try dsimp only
  repeat' (first
    | intro _ | (with_reducible apply within_bind) | (with_reducible exact within_pure _) | (with_reducible exact within_st)
    | (with_reducible exact within_rd _) | (with_reducible exact within_now)
    | ((with_reducible refine setF_in .RST_ESC_STAT rfl ?_) <;> rfl) | (with_reducible apply within_when) | split)

theorem partitionDone_in (p t forced) : Within (FP.partitionDone) (partitionDone p t forced : M o _) := by
  unfold partitionDone
  try dsimp only
  repeat' (first
    | intro _ | (with_reducible apply within_bind) | (with_reducible exact within_pure _) | (with_reducible exact within_st)
    | (with_reducible exact within_rd _) | (with_reducible exact within_now) | ((with_reducible refine (trainRejects_in ..).mono ?_); rfl)
    | ((with_reducible refine (upTraining_in ..).mono ?_); rfl) | ((with_reducible refine (failChannels_in ..).mono ?_); rfl)
    | ((with_reducible refine (buildTopiary_in ..).mono ?_); rfl) | ((with_reducible refine (endRung_in ..).mono ?_); rfl)
    | ((with_reducible refine (reloadPart_in ..).mono ?_); rfl) | ((with_reducible refine (coppiceCheck_in).mono ?_); rfl)
    | (with_reducible apply within_when) | split)

theorem countRung_in (depth key) : Within (FP.noteFault) (countRung depth key : M o _) := by
  unfold countRung
  try dsimp only
  repeat' (first
    | intro _ | (with_reducible apply within_bind) | (with_reducible exact within_pure _) | (with_reducible exact within_st)
    | (with_reducible exact within_rd _) | (with_reducible exact within_now) | ((with_reducible refine eff_in .watch rfl ?_); rfl) | split)

theorem rungDue_in (code unit) : Within (FP.noteFault) (rungDue code unit : M o _) := by
  unfold rungDue
  try dsimp only
  repeat' (first
    | intro _ | (with_reducible apply within_bind) | (with_reducible exact within_pure _) | (with_reducible exact within_st)
    | (with_reducible exact within_rd _) | (with_reducible exact within_now) | ((with_reducible refine eff_in .watch rfl ?_); rfl) | split)

theorem climbPartition_in (p code) : Within (FP.climbPartition) (climbPartition p code : M o _) := by
  unfold climbPartition
  try dsimp only
  repeat' (first
    | intro _ | (with_reducible apply within_bind) | (with_reducible exact within_pure _) | (with_reducible exact within_st)
    | (with_reducible exact within_rd _) | (with_reducible exact within_now) | ((with_reducible refine (rungDue_in ..).mono ?_); rfl)
    | ((with_reducible refine (resetEvent_in ..).mono ?_); rfl) | ((with_reducible refine (countRung_in ..).mono ?_); rfl)
    | ((with_reducible refine (rungTaken_in ..).mono ?_); rfl) | ((with_reducible refine (askPartition_in ..).mono ?_); rfl)
    | ((with_reducible refine wr_in .RST_ESC_STAT rfl ?_); rfl) | (with_reducible apply within_when) | split)

theorem countPhys_in (l : List Nat) : Within (FP.noteFault) (countPhys l : M o _) := by
  induction l with
  | nil => exact within_pure _
  | cons u l ih =>
    unfold countPhys
    exact within_bind ((countRung_in ..).mono (by rfl)) fun _ => within_bind ih fun _ => within_pure _

theorem climbEngine_in (u0 code) : Within (FP.climbEngine) (climbEngine u0 code : M o _) := by
  unfold climbEngine
  try dsimp only
  repeat' (first
    | intro _ | (with_reducible apply within_bind) | (with_reducible exact within_pure _) | (with_reducible exact within_st)
    | (with_reducible exact within_rd _) | (with_reducible exact within_now) | ((with_reducible refine (rungDue_in ..).mono ?_); rfl)
    | ((with_reducible refine (resetEvent_in ..).mono ?_); rfl) | ((with_reducible refine (countPhys_in ..).mono ?_); rfl)
    | ((with_reducible refine (climbPartition_in ..).mono ?_); rfl) | ((with_reducible refine (rungTaken_in ..).mono ?_); rfl)
    | ((with_reducible refine (askEngine_in ..).mono ?_); rfl) | split)

theorem climbModule_in (src) : Within (FP.climbModule) (climbModule src : M o _) := by
  unfold climbModule
  try dsimp only
  repeat' (first
    | intro _ | (with_reducible apply within_bind) | (with_reducible exact within_pure _) | (with_reducible exact within_st)
    | (with_reducible exact within_rd _) | (with_reducible exact within_now) | ((with_reducible refine (askModule_in ..).mono ?_); rfl)
    | ((with_reducible refine (countRung_in ..).mono ?_); rfl) | ((with_reducible refine (rungTaken_in ..).mono ?_); rfl)
    | ((with_reducible refine setF_in .RST_ESC_STAT rfl ?_) <;> rfl) | (with_reducible apply within_when) | split)

theorem servicePair_in (src reason) : Within (FP.climbModule) (servicePair src reason : M o _) := by
  unfold servicePair
  try dsimp only
  repeat' (first
    | intro _ | (with_reducible apply within_bind) | (with_reducible exact within_pure _) | (with_reducible exact within_st)
    | (with_reducible exact within_rd _) | (with_reducible exact within_now) | ((with_reducible refine (ev_in ..).mono ?_); rfl)
    | ((with_reducible refine (climbModule_in ..).mono ?_); rfl) | ((with_reducible refine eff_in .nor rfl ?_); rfl)
    | (with_reducible apply within_when) | split)

theorem stage3_in (d forced) : Within (FP.stage3) (stage3 d forced : M o _) := by
  unfold stage3
  try dsimp only
  repeat' (first
    | intro _ | (with_reducible apply within_bind) | (with_reducible exact within_pure _) | (with_reducible exact within_st)
    | (with_reducible exact within_rd _) | (with_reducible exact within_now) | ((with_reducible refine (moduleStage3_in ..).mono ?_); rfl)
    | ((with_reducible refine (partitionStage3_in ..).mono ?_); rfl) | ((with_reducible refine (engineStage3_in ..).mono ?_); rfl) | split)

theorem showOwner_in : Within (FP.showOwner) (showOwner : M o _) := by
  unfold showOwner
  try dsimp only
  repeat' (first
    | intro _ | (with_reducible apply within_bind) | (with_reducible exact within_pure _) | (with_reducible exact within_st)
    | (with_reducible exact within_rd _) | (with_reducible exact within_now) | (with_reducible exact wrs_nil_in)
    | ((with_reducible refine wrs_in .RST_SEC rfl ?_ ?_); rfl) | split)

theorem upWor_in (p f) : Within (FP.upWor) (upWor p f : M o _) := by
  unfold upWor
  try dsimp only
  repeat' (first
    | intro _ | (with_reducible apply within_bind) | (with_reducible exact within_pure _) | (with_reducible exact within_st)
    | (with_reducible exact within_rd _) | (with_reducible exact within_now) | ((with_reducible refine eff_in .wor rfl ?_); rfl) | split)

theorem takeNonce_in (port) : Within (FP.upWor) (takeNonce port : M o _) := by
  unfold takeNonce
  try dsimp only
  repeat' (first
    | intro _ | (with_reducible apply within_bind) | (with_reducible exact within_pure _) | (with_reducible exact within_st)
    | (with_reducible exact within_rd _) | (with_reducible exact within_now) | ((with_reducible refine (upWor_in ..).mono ?_); rfl)
    | split)

theorem enroll_in (port slot modulus auth) : Within (FP.enroll) (enroll port slot modulus auth : M o _) := by
  unfold enroll
  try dsimp only
  repeat' (first
    | intro _ | (with_reducible apply within_bind) | (with_reducible exact within_pure _) | (with_reducible exact within_st)
    | (with_reducible exact within_rd _) | (with_reducible exact within_now) | ((with_reducible refine (takeNonce_in ..).mono ?_); rfl)
    | ((with_reducible refine (showOwner_in).mono ?_); rfl) | ((with_reducible refine (ev_in ..).mono ?_); rfl)
    | ((with_reducible refine eff_in .ownerBlow rfl ?_); rfl) | ((with_reducible refine eff_in .super rfl ?_); rfl) | split)

theorem revoke_in (port slot auth) : Within (FP.revoke) (revoke port slot auth : M o _) := by
  unfold revoke
  try dsimp only
  repeat' (first
    | intro _ | (with_reducible apply within_bind) | (with_reducible exact within_pure _) | (with_reducible exact within_st)
    | (with_reducible exact within_rd _) | (with_reducible exact within_now) | ((with_reducible refine (takeNonce_in ..).mono ?_); rfl)
    | ((with_reducible refine (showOwner_in).mono ?_); rfl) | ((with_reducible refine (ev_in ..).mono ?_); rfl)
    | ((with_reducible refine eff_in .ownerRevoke rfl ?_); rfl) | split)

theorem challenge_in (port) : Within (FP.challenge) (challenge port : M o _) := by
  unfold challenge
  try dsimp only
  repeat' (first
    | intro _ | (with_reducible apply within_bind) | (with_reducible exact within_pure _) | (with_reducible exact within_st)
    | (with_reducible exact within_rd _) | (with_reducible exact within_now) | ((with_reducible refine (upWor_in ..).mono ?_); rfl)
    | ((with_reducible refine eff_in .draw rfl ?_); rfl) | split)

theorem clearRecorder_in (port) : Within (FP.clearRecorder) (clearRecorder port : M o _) := by
  unfold clearRecorder
  try dsimp only
  repeat' (first
    | intro _ | (with_reducible apply within_bind) | (with_reducible exact within_pure _) | (with_reducible exact within_st)
    | (with_reducible exact within_rd _) | (with_reducible exact within_now) | (with_reducible exact wrs_nil_in)
    | ((with_reducible refine wrs_in .EVT_CLEARS rfl ?_ ?_); rfl) | ((with_reducible refine wrs_in .EVT_STATUS rfl ?_ ?_); rfl)
    | ((with_reducible refine (ev_in ..).mono ?_); rfl) | ((with_reducible refine eff_in .rcd rfl ?_); rfl)
    | ((with_reducible refine eff_in .super rfl ?_); rfl) | ((with_reducible refine eff_in .wipe rfl ?_); rfl) | split)

theorem pagesDue_in : Within (FP.pagesDue) (pagesDue : M o _) := by
  unfold pagesDue
  try dsimp only
  repeat' (first
    | intro _ | (with_reducible apply within_bind) | (with_reducible exact within_pure _) | (with_reducible exact within_st)
    | (with_reducible exact within_rd _) | (with_reducible exact within_now) | ((with_reducible refine (advTo_in ..).mono ?_); rfl)
    | ((with_reducible refine (closePage_in).mono ?_); rfl) | ((with_reducible refine (writePage_in).mono ?_); rfl)
    | (with_reducible apply within_when) | ((with_reducible refine (mark_in ..).mono ?_); rfl) | ((with_reducible refine eff_in .seen rfl ?_); rfl)
    | (with_reducible apply within_loop) | split)

theorem failStart_in (reason step) : Within (FP.failStart) (failStart reason step : M o _) := by
  unfold failStart
  try dsimp only
  repeat' (first
    | intro _ | (with_reducible apply within_bind) | (with_reducible exact within_pure _) | (with_reducible exact within_st)
    | (with_reducible exact within_rd _) | (with_reducible exact within_now) | ((with_reducible refine (clearWaits_in).mono ?_); rfl)
    | ((with_reducible refine (showRecord_in).mono ?_); rfl) | ((with_reducible refine (mark_in ..).mono ?_); rfl)
    | ((with_reducible refine (ev_in ..).mono ?_); rfl) | ((with_reducible refine eff_in .ctl rfl ?_); rfl)
    | ((with_reducible refine eff_in .hs rfl ?_); rfl) | ((with_reducible refine eff_in .nor rfl ?_); rfl)
    | (with_reducible apply within_when) | split)

theorem restoreWear_in (ok) : Within (FP.wearTake) (restoreWear ok : M o _) := by
  unfold restoreWear
  try dsimp only
  repeat' (first
    | intro _ | (with_reducible apply within_bind) | (with_reducible exact within_pure _) | (with_reducible exact within_st)
    | (with_reducible exact within_rd _) | (with_reducible exact within_now) | ((with_reducible refine eff_in .vlt rfl ?_); rfl) | split)

theorem mountVault_in (ok) : Within (FP.mountVault) (mountVault ok : M o _) := by
  unfold mountVault
  try dsimp only
  repeat' (first
    | intro _ | (with_reducible apply within_bind) | (with_reducible exact within_pure _) | (with_reducible exact within_st)
    | (with_reducible exact within_rd _) | (with_reducible exact within_now) | (with_reducible exact wrs_nil_in)
    | ((with_reducible refine wrs_in .MEM_VLT_STAT rfl ?_ ?_); rfl) | ((with_reducible refine wrs_in .PWR_LIFE_DAMAGE rfl ?_ ?_); rfl)
    | ((with_reducible refine wrs_in .PWR_LIFE_N20 rfl ?_ ?_); rfl) | ((with_reducible refine wrs_in .PWR_LIFE_N40 rfl ?_ ?_); rfl)
    | ((with_reducible refine wrs_in .PWR_LIFE_N60 rfl ?_ ?_); rfl) | ((with_reducible refine eff_in .ctl rfl ?_); rfl)
    | ((with_reducible refine eff_in .pw rfl ?_); rfl) | ((with_reducible refine eff_in .super rfl ?_); rfl)
    | ((with_reducible refine eff_in .vlt rfl ?_); rfl) | split)

theorem enterMinimal_in (reason step) : Within (FP.enterMinimal) (enterMinimal reason step : M o _) := by
  unfold enterMinimal
  try dsimp only
  repeat' (first
    | intro _ | (with_reducible apply within_bind) | (with_reducible exact within_pure _) | (with_reducible exact within_st)
    | (with_reducible exact within_rd _) | (with_reducible exact within_now) | ((with_reducible refine (mountVault_in ..).mono ?_); rfl)
    | ((with_reducible refine (setMode_in ..).mono ?_); rfl) | ((with_reducible refine (setStage_in ..).mono ?_); rfl)
    | ((with_reducible refine (clearWaits_in).mono ?_); rfl) | ((with_reducible refine (showRecord_in).mono ?_); rfl)
    | ((with_reducible refine (setPort_in ..).mono ?_); rfl) | ((with_reducible refine (driveReady_in ..).mono ?_); rfl)
    | ((with_reducible refine (ev_in ..).mono ?_); rfl) | ((with_reducible refine faultCond_in .RST_FAULT rfl ?_ ?_) <;> rfl)
    | ((with_reducible refine wr_in .RST_REFCLK rfl ?_); rfl) | ((with_reducible refine eff_in .ctl rfl ?_); rfl)
    | ((with_reducible refine eff_in .hs rfl ?_); rfl) | ((with_reducible refine eff_in .nor rfl ?_); rfl)
    | (with_reducible apply within_each) | split)

theorem resumeRecorder_in : Within (FP.resumeRecorder) (resumeRecorder : M o _) := by
  unfold resumeRecorder
  try dsimp only
  repeat' (first
    | intro _ | (with_reducible apply within_bind) | (with_reducible exact within_pure _) | (with_reducible exact within_st)
    | (with_reducible exact within_rd _) | (with_reducible exact within_now) | (with_reducible exact wrs_nil_in)
    | ((with_reducible refine wrs_in .EVT_CLEARS rfl ?_ ?_); rfl) | ((with_reducible refine wrs_in .EVT_FIRST_SEQ rfl ?_ ?_); rfl)
    | ((with_reducible refine wrs_in .EVT_LAST_SEQ rfl ?_ ?_); rfl) | ((with_reducible refine wrs_in .EVT_STATUS rfl ?_ ?_); rfl)
    | ((with_reducible refine eff_in .rcd rfl ?_); rfl) | split)

theorem readLatch_in : Within (FP.readLatch) (readLatch : M o _) := by
  unfold readLatch
  try dsimp only
  repeat' (first
    | intro _ | (with_reducible apply within_bind) | (with_reducible exact within_pure _) | (with_reducible exact within_st)
    | (with_reducible exact within_rd _) | (with_reducible exact within_now) | (with_reducible exact wrs_nil_in)
    | ((with_reducible refine wrs_in .RST_LASTOFF rfl ?_ ?_); rfl) | ((with_reducible refine (ev_in ..).mono ?_); rfl)
    | ((with_reducible refine eff_in .hs rfl ?_); rfl) | ((with_reducible refine eff_in .latch rfl ?_); rfl)
    | ((with_reducible refine eff_in .nor rfl ?_); rfl) | split)

theorem startStep2_in (cold clkMode) : Within (FP.startStep2) (startStep2 cold clkMode : M o _) := by
  unfold startStep2
  try dsimp only
  repeat' (first
    | intro _ | (with_reducible apply within_bind) | (with_reducible exact within_pure _) | (with_reducible exact within_st)
    | (with_reducible exact within_rd _) | (with_reducible exact within_now) | ((with_reducible refine (mark_in ..).mono ?_); rfl)
    | ((with_reducible refine (showRecord_in).mono ?_); rfl) | ((with_reducible refine (resumeRecorder_in).mono ?_); rfl)
    | ((with_reducible refine (ev_in ..).mono ?_); rfl) | ((with_reducible refine (readLatch_in).mono ?_); rfl)
    | (with_reducible exact wrs_nil_in) | ((with_reducible refine wrs_in .RST_REFCLK rfl ?_ ?_); rfl)
    | ((with_reducible refine wrs_in .RST_STRAP rfl ?_ ?_); rfl) | ((with_reducible refine (enterMinimal_in ..).mono ?_); rfl)
    | (with_reducible apply within_when) | split)

theorem startStep3_in (ok) : Within (FP.failStart) (startStep3 ok : M o _) := by
  unfold startStep3
  try dsimp only
  repeat' (first
    | intro _ | (with_reducible apply within_bind) | (with_reducible exact within_pure _) | (with_reducible exact within_st)
    | (with_reducible exact within_rd _) | (with_reducible exact within_now) | ((with_reducible refine (setStage_in ..).mono ?_); rfl)
    | ((with_reducible refine (failStart_in ..).mono ?_); rfl) | ((with_reducible refine eff_in .hs rfl ?_); rfl) | split)

theorem startStep4_in : Within (FP.startStep4) (startStep4 : M o _) := by
  unfold startStep4
  try dsimp only
  repeat' (first
    | intro _ | (with_reducible apply within_bind) | (with_reducible exact within_pure _) | (with_reducible exact within_st)
    | (with_reducible exact within_rd _) | (with_reducible exact within_now) | ((with_reducible refine (setStage_in ..).mono ?_); rfl)
    | ((with_reducible refine setF_in .RST_REFCLK rfl ?_) <;> rfl) | ((with_reducible refine (mark_in ..).mono ?_); rfl) | split)

theorem startStep5_in (cold straps) : Within (FP.startStep5) (startStep5 cold straps : M o _) := by
  unfold startStep5
  try dsimp only
  repeat' (first
    | intro _ | (with_reducible apply within_bind) | (with_reducible exact within_pure _) | (with_reducible exact within_st)
    | (with_reducible exact within_rd _) | (with_reducible exact within_now) | ((with_reducible refine (setStage_in ..).mono ?_); rfl)
    | (with_reducible exact wrs_nil_in) | ((with_reducible refine wrs_in .RST_STRAP rfl ?_ ?_); rfl)
    | ((with_reducible refine (failStart_in ..).mono ?_); rfl) | ((with_reducible refine (enterMinimal_in ..).mono ?_); rfl)
    | ((with_reducible refine setF_in .FZ_MEMBER rfl ?_) <;> rfl) | ((with_reducible refine (setMode_in ..).mono ?_); rfl)
    | ((with_reducible refine faultCond_in .RST_FAULT rfl ?_ ?_) <;> rfl) | split)

theorem loadFuses_in : Within (FP.loadFuses) (loadFuses : M o _) := by
  unfold loadFuses
  try dsimp only
  repeat' (first
    | intro _ | (with_reducible apply within_bind) | (with_reducible exact within_pure _) | (with_reducible exact within_st)
    | (with_reducible exact within_rd _) | (with_reducible exact within_now) | (with_reducible exact wrs_nil_in)
    | ((with_reducible refine wrs_in .GRD_THRk rfl ?_ ?_); rfl) | ((with_reducible refine wrs_in .MEM_VLT_FUSE rfl ?_ ?_); rfl)
    | ((with_reducible refine wrs_in .PWR_CLIP_IN rfl ?_ ?_); rfl) | ((with_reducible refine wrs_in .PWR_OP rfl ?_ ?_); rfl)
    | ((with_reducible refine wrs_in .PWR_STAT rfl ?_ ?_); rfl) | ((with_reducible refine wrs_in .RST_PART_ID rfl ?_ ?_); rfl)
    | ((with_reducible refine wrs_in .RST_SEC rfl ?_ ?_); rfl) | ((with_reducible refine wrs_in .RST_SERIAL_HI rfl ?_ ?_); rfl)
    | ((with_reducible refine wrs_in .RST_SERIAL_LO rfl ?_ ?_); rfl) | ((with_reducible refine (refreshClip_in).mono ?_); rfl)
    | ((with_reducible refine wr_in .PWR_OPVk rfl ?_); rfl) | ((with_reducible refine wr_in .PWR_REGION rfl ?_); rfl)
    | (with_reducible apply within_each) | split)

theorem measureLadder_in (l) : Within (FP.measureLadder) (measureLadder l : M o _) := by
  unfold measureLadder
  try dsimp only
  repeat' (first
    | intro _ | (with_reducible apply within_bind) | (with_reducible exact within_pure _) | (with_reducible exact within_st)
    | (with_reducible exact within_rd _) | (with_reducible exact within_now) | (with_reducible exact wrs_nil_in)
    | ((with_reducible refine wrs_in .HIF_BOOT_STATUS rfl ?_ ?_); rfl) | ((with_reducible refine wrs_in .RST_LADDER rfl ?_ ?_); rfl)
    | ((with_reducible refine (ev_in ..).mono ?_); rfl) | ((with_reducible refine eff_in .ctl rfl ?_); rfl)
    | (with_reducible apply within_when) | split)

theorem measureAgain_in (l) : Within (FP.measureAgain) (measureAgain l : M o _) := by
  unfold measureAgain
  try dsimp only
  repeat' (first
    | intro _ | (with_reducible apply within_bind) | (with_reducible exact within_pure _) | (with_reducible exact within_st)
    | (with_reducible exact within_rd _) | (with_reducible exact within_now) | (with_reducible exact wrs_nil_in)
    | ((with_reducible refine wrs_in .RST_LADDER rfl ?_ ?_); rfl) | ((with_reducible refine (ev_in ..).mono ?_); rfl)
    | (with_reducible apply within_when) | split)

theorem sub_FP_loadSettings {k : RegKind} : (FP.putBase).testBit (64 + k.ctorIdx) = true := sub_kind k (by decide +kernel)

theorem loadSettings_in (l : Tbl (BitVec 32)) : Within (FP.putBase) (loadSettings l : M o _) := by
  induction l with
  | nil => exact within_pure _
  | cons u l ih =>
    unfold loadSettings
    dsimp only
    repeat' (first
      | (with_reducible exact ih) | (with_reducible apply within_bind) | (with_reducible exact within_pure _) | (with_reducible exact within_st)
      | (with_reducible exact wr_in _ rfl sub_FP_loadSettings) | intro _ | split)

theorem resetSettings_in : Within (FP.resetSettings) (resetSettings : M o _) := by
  unfold resetSettings
  try dsimp only
  repeat' (first
    | intro _ | (with_reducible apply within_bind) | (with_reducible exact within_pure _) | (with_reducible exact within_st)
    | (with_reducible exact within_rd _) | (with_reducible exact within_now)
    | ((with_reducible refine setF_in .HIF_BOOT_STATUS rfl ?_) <;> rfl) | ((with_reducible refine eff_in .nor rfl ?_); rfl)
    | ((with_reducible refine eff_in .settings rfl ?_); rfl) | split)

theorem failedRecord_in : Within (FP.clearFails) (failedRecord : M o _) := by
  unfold failedRecord
  try dsimp only
  repeat' (first
    | intro _ | (with_reducible apply within_bind) | (with_reducible exact within_pure _) | (with_reducible exact within_st)
    | (with_reducible exact within_rd _) | (with_reducible exact within_now) | ((with_reducible refine (showRecord_in).mono ?_); rfl)
    | ((with_reducible refine eff_in .nor rfl ?_); rfl) | split)

theorem copyBack_in (kind) : Within (FP.copyBack) (copyBack kind : M o _) := by
  unfold copyBack
  try dsimp only
  repeat' (first
    | intro _ | (with_reducible apply within_bind) | (with_reducible exact within_pure _) | (with_reducible exact within_st)
    | (with_reducible exact within_rd _) | (with_reducible exact within_now) | ((with_reducible refine eff_in .nor rfl ?_); rfl) | split)

theorem setFallback_in (b) : Within (FP.setFallback) (setFallback b : M o _) := by
  unfold setFallback
  try dsimp only
  repeat' (first
    | intro _ | (with_reducible apply within_bind) | (with_reducible exact within_pure _) | (with_reducible exact within_st)
    | (with_reducible exact within_rd _) | (with_reducible exact within_now) | ((with_reducible refine wrB_in .UPD_STAT rfl ?_) <;> rfl)
    | ((with_reducible refine eff_in .nor rfl ?_); rfl) | split)

theorem keepFormat_in (fmt) : Within (FP.putSetting) (keepFormat fmt : M o _) := by
  unfold keepFormat
  try dsimp only
  repeat' (first
    | intro _ | (with_reducible apply within_bind) | (with_reducible exact within_pure _) | (with_reducible exact within_st)
    | (with_reducible exact within_rd _) | (with_reducible exact within_now) | ((with_reducible refine eff_in .settings rfl ?_); rfl)
    | split)

theorem updEvent_in (reason version) : Within (FP.evRaw) (updEvent reason version : M o _) := by
  unfold updEvent
  try dsimp only
  repeat' (first
    | intro _ | (with_reducible apply within_bind) | (with_reducible exact within_pure _) | (with_reducible exact within_st)
    | (with_reducible exact within_rd _) | (with_reducible exact within_now) | ((with_reducible refine (ev_in ..).mono ?_); rfl) | split)

theorem revertUpd_in (kind) : Within (FP.revertUpd) (revertUpd kind : M o _) := by
  unfold revertUpd
  try dsimp only
  repeat' (first
    | intro _ | (with_reducible apply within_bind) | (with_reducible exact within_pure _) | (with_reducible exact within_st)
    | (with_reducible exact within_rd _) | (with_reducible exact within_now) | ((with_reducible refine (copyBack_in ..).mono ?_); rfl)
    | ((with_reducible refine (keepFormat_in ..).mono ?_); rfl) | ((with_reducible refine (setFallback_in ..).mono ?_); rfl)
    | ((with_reducible refine (setUpd_in ..).mono ?_); rfl) | ((with_reducible refine (updEvent_in ..).mono ?_); rfl)
    | (with_reducible apply within_when) | split)

theorem convertSettings_in : Within (FP.putSetting) (convertSettings : M o _) := by
  unfold convertSettings
  try dsimp only
  repeat' (first
    | intro _ | (with_reducible apply within_bind) | (with_reducible exact within_pure _) | (with_reducible exact within_st)
    | (with_reducible exact within_rd _) | (with_reducible exact within_now) | ((with_reducible refine eff_in .settings rfl ?_); rfl)
    | (with_reducible apply within_when) | split)

theorem startDeadline_in : Within (FP.startDeadline) (startDeadline : M o _) := by
  unfold startDeadline
  try dsimp only
  repeat' (first
    | intro _ | (with_reducible apply within_bind) | (with_reducible exact within_pure _) | (with_reducible exact within_st)
    | (with_reducible exact within_rd _) | (with_reducible exact within_now) | ((with_reducible refine (convertSettings_in).mono ?_); rfl)
    | ((with_reducible refine (setUpd_in ..).mono ?_); rfl) | ((with_reducible refine (mark_in ..).mono ?_); rfl) | split)

theorem settleSlot_in (kind word counted) : Within (FP.settleSlot) (settleSlot kind word counted : M o _) := by
  unfold settleSlot
  try dsimp only
  repeat' (first
    | intro _ | (with_reducible apply within_bind) | (with_reducible exact within_pure _) | (with_reducible exact within_st)
    | (with_reducible exact within_rd _) | (with_reducible exact within_now) | ((with_reducible refine (copyBack_in ..).mono ?_); rfl)
    | ((with_reducible refine (setFallback_in ..).mono ?_); rfl) | ((with_reducible refine (setUpd_in ..).mono ?_); rfl)
    | ((with_reducible refine (revertUpd_in ..).mono ?_); rfl) | ((with_reducible refine (startDeadline_in).mono ?_); rfl) | split)

theorem bootFirmware_in : Within (FP.bootFirmware) (bootFirmware : M o _) := by
  unfold bootFirmware
  try dsimp only
  repeat' (first
    | intro _ | (with_reducible apply within_bind) | (with_reducible exact within_pure _) | (with_reducible exact within_st)
    | (with_reducible exact within_rd _) | (with_reducible exact within_now) | ((with_reducible refine (settleSlot_in ..).mono ?_); rfl)
    | (with_reducible exact wrs_nil_in) | ((with_reducible refine wrs_in .UPD_STAT rfl ?_ ?_); rfl)
    | ((with_reducible refine wrs_in .UPD_SVN rfl ?_ ?_); rfl) | ((with_reducible refine wrs_in .UPD_VER_RUN rfl ?_ ?_); rfl)
    | ((with_reducible refine (enterMinimal_in ..).mono ?_); rfl) | ((with_reducible refine (failStart_in ..).mono ?_); rfl)
    | ((with_reducible refine eff_in .ctl rfl ?_); rfl) | ((with_reducible refine eff_in .sec rfl ?_); rfl) | split)

theorem startStep6_in (e) : Within (FP.startStep6) (startStep6 e : M o _) := by
  unfold startStep6
  try dsimp only
  repeat' (first
    | intro _ | (with_reducible apply within_bind) | (with_reducible exact within_pure _) | (with_reducible exact within_st)
    | (with_reducible exact within_rd _) | (with_reducible exact within_now) | ((with_reducible refine (setStage_in ..).mono ?_); rfl)
    | ((with_reducible refine (failStart_in ..).mono ?_); rfl) | ((with_reducible refine (loadFuses_in).mono ?_); rfl)
    | ((with_reducible refine (measureLadder_in ..).mono ?_); rfl) | ((with_reducible refine (resetSettings_in).mono ?_); rfl)
    | ((with_reducible refine (showRecord_in).mono ?_); rfl) | ((with_reducible refine (loadSettings_in ..).mono ?_); rfl)
    | ((with_reducible refine wrB_in .RST_SEC rfl ?_) <;> rfl) | ((with_reducible refine setF_in .FZ_VERIFY_CFG rfl ?_) <;> rfl)
    | ((with_reducible refine (setMode_in ..).mono ?_); rfl) | ((with_reducible refine (measureAgain_in ..).mono ?_); rfl)
    | ((with_reducible refine (ev_in ..).mono ?_); rfl) | ((with_reducible refine (failedRecord_in).mono ?_); rfl)
    | ((with_reducible refine (bootFirmware_in).mono ?_); rfl) | ((with_reducible refine (enterMinimal_in ..).mono ?_); rfl)
    | ((with_reducible refine (bringUp_in ..).mono ?_); rfl) | ((with_reducible refine wr_in .RST_QS_STAT rfl ?_); rfl)
    | ((with_reducible refine eff_in .hs rfl ?_); rfl) | ((with_reducible refine eff_in .nor rfl ?_); rfl)
    | (with_reducible apply within_each) | (with_reducible apply within_when) | split)

theorem trainStart_in (cold e) : Within (FP.trainStart) (trainStart cold e : M o _) := by
  unfold trainStart
  try dsimp only
  repeat' (first
    | intro _ | (with_reducible apply within_bind) | (with_reducible exact within_pure _) | (with_reducible exact within_st)
    | (with_reducible exact within_rd _) | (with_reducible exact within_now)
    | ((with_reducible refine wrB_in .HIF_BOOT_STATUS rfl ?_) <;> rfl) | ((with_reducible refine (trainRejects_in ..).mono ?_); rfl)
    | ((with_reducible refine (upTraining_in ..).mono ?_); rfl) | ((with_reducible refine eff_in .ctl rfl ?_); rfl) | split)

theorem startStep7_in (cold e) : Within (FP.startStep7) (startStep7 cold e : M o _) := by
  unfold startStep7
  try dsimp only
  repeat' (first
    | intro _ | (with_reducible apply within_bind) | (with_reducible exact within_pure _) | (with_reducible exact within_st)
    | (with_reducible exact within_rd _) | (with_reducible exact within_now) | ((with_reducible refine (setStage_in ..).mono ?_); rfl)
    | ((with_reducible refine (mountVault_in ..).mono ?_); rfl) | ((with_reducible refine (checkOwner_in).mono ?_); rfl)
    | ((with_reducible refine (trainStart_in ..).mono ?_); rfl) | ((with_reducible refine (failChannels_in ..).mono ?_); rfl)
    | ((with_reducible refine setF_in .RST_ESC_STAT rfl ?_) <;> rfl) | ((with_reducible refine faultCond_in .RST_FAULT rfl ?_ ?_) <;> rfl)
    | ((with_reducible refine (refreshSelf_in).mono ?_); rfl) | ((with_reducible refine (bringUp_in ..).mono ?_); rfl)
    | ((with_reducible refine eff_in .ctl rfl ?_); rfl) | ((with_reducible refine eff_in .fab rfl ?_); rfl)
    | ((with_reducible refine eff_in .settings rfl ?_); rfl) | (with_reducible apply within_each) | split)

theorem testGuard_in (bad) : Within (FP.testGuard) (testGuard bad : M o _) := by
  unfold testGuard
  try dsimp only
  repeat' (first
    | intro _ | (with_reducible apply within_bind) | (with_reducible exact within_pure _) | (with_reducible exact within_st)
    | (with_reducible exact within_rd _) | (with_reducible exact within_now) | (with_reducible exact wrs_nil_in)
    | ((with_reducible refine wrs_in .GRD_CHc rfl ?_ ?_); rfl) | ((with_reducible refine wrs_in .PWR_HSd_h rfl ?_ ?_); rfl)
    | ((with_reducible refine setF_in .PWR_HSd_h rfl ?_) <;> rfl) | ((with_reducible refine (refreshSensors_in).mono ?_); rfl)
    | (with_reducible apply within_each) | (with_reducible apply within_when) | split)

theorem startStep8_in (e) : Within (FP.startStep8) (startStep8 e : M o _) := by
  unfold startStep8
  try dsimp only
  repeat' (first
    | intro _ | (with_reducible apply within_bind) | (with_reducible exact within_pure _) | (with_reducible exact within_st)
    | (with_reducible exact within_rd _) | (with_reducible exact within_now) | ((with_reducible refine (setStage_in ..).mono ?_); rfl)
    | ((with_reducible refine (testGuard_in ..).mono ?_); rfl) | ((with_reducible refine (buildTopiary_in ..).mono ?_); rfl)
    | ((with_reducible refine (ev_in ..).mono ?_); rfl) | ((with_reducible refine (failStart_in ..).mono ?_); rfl)
    | ((with_reducible refine eff_in .ctl rfl ?_); rfl) | ((with_reducible refine eff_in .settings rfl ?_); rfl)
    | (with_reducible apply within_each) | (with_reducible apply within_when) | split)

theorem startStep9_in (e) : Within (FP.startStep9) (startStep9 e : M o _) := by
  unfold startStep9
  try dsimp only
  repeat' (first
    | intro _ | (with_reducible apply within_bind) | (with_reducible exact within_pure _) | (with_reducible exact within_st)
    | (with_reducible exact within_rd _) | (with_reducible exact within_now) | ((with_reducible refine (setStage_in ..).mono ?_); rfl)
    | ((with_reducible refine (setUpd_in ..).mono ?_); rfl) | ((with_reducible refine (beginWait_in ..).mono ?_); rfl)
    | ((with_reducible refine (useCoreFw_in ..).mono ?_); rfl) | ((with_reducible refine (failStart_in ..).mono ?_); rfl)
    | ((with_reducible refine wr_in .HIF_BOOT_STATUS rfl ?_); rfl) | ((with_reducible refine wr_in .RST_QS_STAT rfl ?_); rfl) | split)

theorem startRest_in (cold e) : Within (FP.startStep6) (startRest cold e : M o _) := by
  unfold startRest
  try dsimp only
  repeat' (first
    | intro _ | (with_reducible apply within_bind) | (with_reducible exact within_pure _) | (with_reducible exact within_st)
    | (with_reducible exact within_rd _) | (with_reducible exact within_now) | ((with_reducible refine (failStart_in ..).mono ?_); rfl)
    | ((with_reducible refine (startStep5_in ..).mono ?_); rfl) | ((with_reducible refine (startStep6_in ..).mono ?_); rfl)
    | ((with_reducible refine (startStep7_in ..).mono ?_); rfl) | ((with_reducible refine (startStep8_in ..).mono ?_); rfl)
    | ((with_reducible refine (startStep9_in ..).mono ?_); rfl) | ((with_reducible refine wr_in .RST_REFCLK rfl ?_); rfl) | split)

theorem enterReady_in : Within (FP.enterReady) (enterReady : M o _) := by
  unfold enterReady
  try dsimp only
  repeat' (first
    | intro _ | (with_reducible apply within_bind) | (with_reducible exact within_pure _) | (with_reducible exact within_st)
    | (with_reducible exact within_rd _) | (with_reducible exact within_now) | ((with_reducible refine (setMode_in ..).mono ?_); rfl)
    | ((with_reducible refine (setStage_in ..).mono ?_); rfl) | ((with_reducible refine (endWait_in ..).mono ?_); rfl)
    | ((with_reducible refine (driveReady_in ..).mono ?_); rfl) | ((with_reducible refine (notice_in ..).mono ?_); rfl)
    | ((with_reducible refine wr_in .HIF_BOOT_STATUS rfl ?_); rfl) | ((with_reducible refine eff_in .ctl rfl ?_); rfl)
    | ((with_reducible refine eff_in .host rfl ?_); rfl) | ((with_reducible refine eff_in .nor rfl ?_); rfl)
    | (with_reducible apply within_when) | split)

theorem upOut_in (dst och f) : Within (FP.upPort) (upOut dst och f : M o _) := by
  unfold upOut
  try dsimp only
  repeat' (first
    | intro _ | (with_reducible apply within_bind) | (with_reducible exact within_pure _) | (with_reducible exact within_st)
    | (with_reducible exact within_rd _) | (with_reducible exact within_now) | ((with_reducible refine eff_in .fab rfl ?_); rfl) | split)

theorem pumpStream_in (dst och) : Within (FP.upPort) (pumpStream dst och : M o _) := by
  unfold pumpStream
  try dsimp only
  repeat' (first
    | intro _ | (with_reducible apply within_bind) | (with_reducible exact within_pure _) | (with_reducible exact within_st)
    | (with_reducible exact within_rd _) | (with_reducible exact within_now) | ((with_reducible refine (queuePkt_in ..).mono ?_); rfl)
    | ((with_reducible refine (upOut_in ..).mono ?_); rfl) | (with_reducible apply within_loop) | split)

theorem streamSend_in (dst och dpart k) : Within (FP.streamSend) (streamSend dst och dpart k : M o _) := by
  unfold streamSend
  try dsimp only
  repeat' (first
    | intro _ | (with_reducible apply within_bind) | (with_reducible exact within_pure _) | (with_reducible exact within_st)
    | (with_reducible exact within_rd _) | (with_reducible exact within_now) | ((with_reducible refine (upOut_in ..).mono ?_); rfl)
    | ((with_reducible refine (pumpStream_in ..).mono ?_); rfl) | ((with_reducible refine (freeBits_in ..).mono ?_); rfl)
    | ((with_reducible refine (queuePkt_in ..).mono ?_); rfl) | ((with_reducible refine eff_in .fab rfl ?_); rfl) | split)

theorem closeOut_in (dst och) : Within (FP.upPort) (closeOut dst och : M o _) := by
  unfold closeOut
  try dsimp only
  repeat' (first
    | intro _ | (with_reducible apply within_bind) | (with_reducible exact within_pure _) | (with_reducible exact within_st)
    | (with_reducible exact within_rd _) | (with_reducible exact within_now) | ((with_reducible refine (queuePkt_in ..).mono ?_); rfl)
    | ((with_reducible refine eff_in .fab rfl ?_); rfl) | split)

theorem freeIn_in (src och) : Within (FP.freeIn) (freeIn src och : M o _) := by
  unfold freeIn
  try dsimp only
  repeat' (first
    | intro _ | (with_reducible apply within_bind) | (with_reducible exact within_pure _) | (with_reducible exact within_st)
    | (with_reducible exact within_rd _) | (with_reducible exact within_now) | ((with_reducible refine (refreshInUse_in).mono ?_); rfl)
    | ((with_reducible refine eff_in .fab rfl ?_); rfl) | split)

theorem addCredit_in (p q n) : Within (FP.streamStep) (addCredit p q n : M o _) := by
  unfold addCredit
  try dsimp only
  repeat' (first
    | intro _ | (with_reducible apply within_bind) | (with_reducible exact within_pure _) | (with_reducible exact within_st)
    | (with_reducible exact within_rd _) | (with_reducible exact within_now) | ((with_reducible refine (wakeQ_in ..).mono ?_); rfl)
    | ((with_reducible refine (refreshEnds_in ..).mono ?_); rfl) | ((with_reducible refine (kickQ_in ..).mono ?_); rfl)
    | ((with_reducible refine wr_in .PART_Q_CREDIT rfl ?_); rfl) | split)

theorem setGcred_in (g m v) : Within (FP.upPort) (setGcred g m v : M o _) := by
  unfold setGcred
  try dsimp only
  repeat' (first
    | intro _ | (with_reducible apply within_bind) | (with_reducible exact within_pure _) | (with_reducible exact within_st)
    | (with_reducible exact within_rd _) | (with_reducible exact within_now) | ((with_reducible refine eff_in .fab rfl ?_); rfl) | split)

theorem groupCredit_in (e g fp fq m n) : Within (FP.groupCredit) (groupCredit e g fp fq m n : M o _) := by
  unfold groupCredit
  try dsimp only
  repeat' (first
    | intro _ | (with_reducible apply within_bind) | (with_reducible exact within_pure _) | (with_reducible exact within_st)
    | (with_reducible exact within_rd _) | (with_reducible exact within_now) | ((with_reducible refine (setGcred_in ..).mono ?_); rfl)
    | ((with_reducible refine (addCredit_in ..).mono ?_); rfl) | ((with_reducible refine (queuePkt_in ..).mono ?_); rfl) | split)

theorem strFail_in {fp : Nat} (k : RegKind) {p c : Nat} {f : Fld} {why status detail : Nat} (hk : f.k = k) (h : fp.testBit (64 + k.ctorIdx) = true)
    (hm : FP.arrIllegal &&& fp = FP.arrIllegal) : Within fp (strFail p c f why status detail : M o _) := by
  unfold strFail
  exact within_bind (setF_in k hk h) fun _ => within_bind (within_rd _) fun _ => within_bind
    ((ev_in ..).mono (sub_trans (by rfl) hm)) fun _ => (unitFail_in ..).mono (sub_trans (by rfl) hm)

theorem strIllegal_in (p k) : Within (FP.arrIllegal) (strIllegal p k : M o _) := by
  unfold strIllegal
  try dsimp only
  repeat' (first
    | intro _ | (with_reducible apply within_bind) | (with_reducible exact within_pure _) | (with_reducible exact within_st)
    | (with_reducible exact within_rd _) | (with_reducible exact within_now)
    | ((with_reducible refine strFail_in .PART_STR_STAT rfl ?_ ?_) <;> rfl) | split)

theorem strRefused_in (p k detail) : Within (FP.arrIllegal) (strRefused p k detail : M o _) := by
  unfold strRefused
  try dsimp only
  repeat' (first
    | intro _ | (with_reducible apply within_bind) | (with_reducible exact within_pure _) | (with_reducible exact within_st)
    | (with_reducible exact within_rd _) | (with_reducible exact within_now)
    | ((with_reducible refine strFail_in .PART_STR_STAT rfl ?_ ?_) <;> rfl) | split)

theorem strMemErr_in (p k detail) : Within (FP.arrIllegal) (strMemErr p k detail : M o _) := by
  unfold strMemErr
  try dsimp only
  repeat' (first
    | intro _ | (with_reducible apply within_bind) | (with_reducible exact within_pure _) | (with_reducible exact within_st)
    | (with_reducible exact within_rd _) | (with_reducible exact within_now)
    | ((with_reducible refine strFail_in .PART_STR_STAT rfl ?_ ?_) <;> rfl) | split)

theorem upRun_in (p k f) : Within (FP.upStr) (upRun p k f : M o _) := by
  unfold upRun
  try dsimp only
  repeat' (first
    | intro _ | (with_reducible apply within_bind) | (with_reducible exact within_pure _) | (with_reducible exact within_st)
    | (with_reducible exact within_rd _) | (with_reducible exact within_now) | ((with_reducible refine (upStr_in ..).mono ?_); rfl)
    | split)

theorem strRead_in (p k a len) : Within (FP.coreLoad) (strRead p k a len : M o _) := by
  unfold strRead
  try dsimp only
  repeat' (first
    | intro _ | (with_reducible apply within_bind) | (with_reducible exact within_pure _) | (with_reducible exact within_st)
    | (with_reducible exact within_rd _) | (with_reducible exact within_now) | ((with_reducible refine (strIllegal_in ..).mono ?_); rfl)
    | ((with_reducible refine (readMem_in ..).mono ?_); rfl) | ((with_reducible refine (strMemErr_in ..).mono ?_); rfl) | split)

theorem spillWrite_in (a bs) : Within (FP.spillWrite) (spillWrite a bs : M o _) := by
  unfold spillWrite
  try dsimp only
  repeat' (first
    | intro _ | (with_reducible apply within_bind) | (with_reducible exact within_pure _) | (with_reducible exact within_st)
    | (with_reducible exact within_rd _) | (with_reducible exact within_now)
    | ((with_reducible refine setF_in .MEM_VLT_STAT rfl ?_) <;> rfl) | ((with_reducible refine (wearTake_in ..).mono ?_); rfl)
    | ((with_reducible refine (pageWrite_in ..).mono ?_); rfl) | split)

theorem strWrite_in (p k a bs) : Within (FP.strWrite) (strWrite p k a bs : M o _) := by
  unfold strWrite
  try dsimp only
  repeat' (first
    | intro _ | (with_reducible apply within_bind) | (with_reducible exact within_pure _) | (with_reducible exact within_st)
    | (with_reducible exact within_rd _) | (with_reducible exact within_now) | ((with_reducible refine (strIllegal_in ..).mono ?_); rfl)
    | ((with_reducible refine (spillWrite_in ..).mono ?_); rfl) | ((with_reducible refine (strRefused_in ..).mono ?_); rfl)
    | ((with_reducible refine (writeMem_in ..).mono ?_); rfl) | ((with_reducible refine (strMemErr_in ..).mono ?_); rfl) | split)

theorem strPop_in (p k q) : Within (FP.gatherSide) (strPop p k q : M o _) := by
  unfold strPop
  try dsimp only
  repeat' (first
    | intro _ | (with_reducible apply within_bind) | (with_reducible exact within_pure _) | (with_reducible exact within_st)
    | (with_reducible exact within_rd _) | (with_reducible exact within_now) | ((with_reducible refine (popSlot_in ..).mono ?_); rfl)
    | ((with_reducible refine (stallC_in ..).mono ?_); rfl) | ((with_reducible refine (strMemErr_in ..).mono ?_); rfl) | split)

theorem stallP_in (u p q) : Within (FP.stallP) (stallP u p q : M o _) := by
  unfold stallP
  try dsimp only
  repeat' (first
    | intro _ | (with_reducible apply within_bind) | (with_reducible exact within_pure _) | (with_reducible exact within_st)
    | (with_reducible exact within_rd _) | (with_reducible exact within_now)
    | ((with_reducible refine setF_in .PART_Q_CREDIT rfl ?_) <;> rfl) | ((with_reducible refine (restUnit_in ..).mono ?_); rfl)
    | ((with_reducible refine wr_in .PART_ARR_STAT rfl ?_); rfl) | ((with_reducible refine wr_in .PART_CORE_STAT rfl ?_); rfl)
    | ((with_reducible refine wr_in .PART_STR_STAT rfl ?_); rfl) | exact wr_in _ rfl (stFld_bit _ (by rfl) (by rfl) (by rfl)) | split)

theorem strFlush_in (p k q) : Within (FP.strFlush) (strFlush p k q : M o _) := by
  unfold strFlush
  try dsimp only
  repeat' (first
    | intro _ | (with_reducible apply within_bind) | (with_reducible exact within_pure _) | (with_reducible exact within_st)
    | (with_reducible exact within_rd _) | (with_reducible exact within_now) | ((with_reducible refine (stallP_in ..).mono ?_); rfl)
    | (with_reducible exact strm_in ..) | ((with_reducible refine (pushSlot_in ..).mono ?_); rfl)
    | ((with_reducible refine (upRun_in ..).mono ?_); rfl) | split)

theorem strGather_in (p k q len) : Within (FP.strGather) (strGather p k q len : M o _) := by
  unfold strGather
  try dsimp only
  repeat' (first
    | intro _ | (with_reducible apply within_bind) | (with_reducible exact within_pure _) | (with_reducible exact within_st)
    | (with_reducible exact within_rd _) | (with_reducible exact within_now) | (with_reducible exact strm_in ..)
    | ((with_reducible refine (upRun_in ..).mono ?_); rfl) | ((with_reducible refine (strPop_in ..).mono ?_); rfl) | split)

theorem strGoes_in {fp : Nat} (p k) : Within fp (strGoes p k : M o _) := by
  unfold strGoes
  try dsimp only
  repeat' (first
    | intro _ | (with_reducible apply within_bind) | (with_reducible exact within_pure _) | (with_reducible exact within_st)
    | (with_reducible exact within_rd _) | (with_reducible exact within_now) | split)

theorem strPut_in (p k d at_ bs) : Within (FP.strPut) (strPut p k d at_ bs : M o _) := by
  unfold strPut
  try dsimp only
  repeat' (first
    | intro _ | (with_reducible apply within_bind) | (with_reducible exact within_pure _) | (with_reducible exact within_st)
    | (with_reducible exact within_rd _) | (with_reducible exact within_now) | ((with_reducible refine (upRun_in ..).mono ?_); rfl)
    | ((with_reducible refine (strIllegal_in ..).mono ?_); rfl) | ((with_reducible refine (strWrite_in ..).mono ?_); rfl) | split)

theorem copyRow_in (p k d) : Within (FP.copyRow) (copyRow p k d : M o _) := by
  unfold copyRow
  try dsimp only
  repeat' (first
    | intro _ | (with_reducible apply within_bind) | (with_reducible exact within_pure _) | (with_reducible exact within_st)
    | (with_reducible exact within_rd _) | (with_reducible exact within_now) | (with_reducible exact strm_in ..)
    | ((with_reducible refine (strPut_in ..).mono ?_); rfl) | ((with_reducible refine (strGather_in ..).mono ?_); rfl)
    | (with_reducible exact strGoes_in ..) | ((with_reducible refine (strIllegal_in ..).mono ?_); rfl)
    | ((with_reducible refine (strRead_in ..).mono ?_); rfl) | split)

theorem nextIdx_in (p k d cnt lim) : Within (FP.strGather) (nextIdx p k d cnt lim : M o _) := by
  unfold nextIdx
  try dsimp only
  repeat' (first
    | intro _ | (with_reducible apply within_bind) | (with_reducible exact within_pure _) | (with_reducible exact within_st)
    | (with_reducible exact within_rd _) | (with_reducible exact within_now) | (with_reducible exact strm_in ..)
    | ((with_reducible refine (strPop_in ..).mono ?_); rfl) | ((with_reducible refine (upRun_in ..).mono ?_); rfl)
    | ((with_reducible refine strFail_in .PART_STR_STAT rfl ?_ ?_) <;> rfl) | split)

theorem backIdx_in (p k e) : Within (FP.upStr) (backIdx p k e : M o _) := by
  unfold backIdx
  try dsimp only
  repeat' (first
    | intro _ | (with_reducible apply within_bind) | (with_reducible exact within_pure _) | (with_reducible exact within_st)
    | (with_reducible exact within_rd _) | (with_reducible exact within_now) | ((with_reducible refine (upRun_in ..).mono ?_); rfl)
    | split)

theorem gatherRow_in (p k d) : Within (FP.copyRow) (gatherRow p k d : M o _) := by
  unfold gatherRow
  try dsimp only
  repeat' (first
    | intro _ | (with_reducible apply within_bind) | (with_reducible exact within_pure _) | (with_reducible exact within_st)
    | (with_reducible exact within_rd _) | (with_reducible exact within_now) | (with_reducible exact strm_in ..)
    | ((with_reducible refine (nextIdx_in ..).mono ?_); rfl) | ((with_reducible refine (strPut_in ..).mono ?_); rfl)
    | ((with_reducible refine (strIllegal_in ..).mono ?_); rfl) | ((with_reducible refine (strRead_in ..).mono ?_); rfl) | split)

theorem scatterRow_in (p k d) : Within (FP.copyRow) (scatterRow p k d : M o _) := by
  unfold scatterRow
  try dsimp only
  repeat' (first
    | intro _ | (with_reducible apply within_bind) | (with_reducible exact within_pure _) | (with_reducible exact within_st)
    | (with_reducible exact within_rd _) | (with_reducible exact within_now) | (with_reducible exact strm_in ..)
    | ((with_reducible refine (nextIdx_in ..).mono ?_); rfl) | ((with_reducible refine (upRun_in ..).mono ?_); rfl)
    | ((with_reducible refine (strPut_in ..).mono ?_); rfl) | ((with_reducible refine (strGather_in ..).mono ?_); rfl)
    | ((with_reducible refine (backIdx_in ..).mono ?_); rfl) | (with_reducible exact strGoes_in ..)
    | ((with_reducible refine (strIllegal_in ..).mono ?_); rfl) | ((with_reducible refine (strRead_in ..).mono ?_); rfl) | split)

theorem pgatherLanes_in (p k d b) (l : List Nat) : Within (FP.coreLoad) (pgatherLanes p k d b l : M o _) := by
  induction l with
  | nil => exact within_pure _
  | cons u l ih =>
    unfold pgatherLanes
    repeat' (first
      | (with_reducible exact within_pure _) | (with_reducible exact ih) | ((with_reducible refine (strIllegal_in ..).mono ?_); rfl) | ((with_reducible refine (strRead_in ..).mono ?_); rfl) | (with_reducible apply within_bind)
      | intro _ | split)

theorem pgatherPanel_in (p k d) : Within (FP.strPut) (pgatherPanel p k d : M o _) := by
  unfold pgatherPanel
  try dsimp only
  repeat' (first
    | intro _ | (with_reducible apply within_bind) | (with_reducible exact within_pure _) | (with_reducible exact within_st)
    | (with_reducible exact within_rd _) | (with_reducible exact within_now) | (with_reducible exact strm_in ..)
    | ((with_reducible refine (pgatherLanes_in ..).mono ?_); rfl) | ((with_reducible refine (strPut_in ..).mono ?_); rfl) | split)

theorem pscatterLanes_in (p k d b panel i) (l : List Nat) : Within (FP.strWrite) (pscatterLanes p k d b panel i l : M o _) := by
  induction l generalizing i with
  | nil => unfold pscatterLanes; exact within_pure _
  | cons u l ih =>
    unfold pscatterLanes
    repeat' (first
      | (with_reducible exact within_pure _) | (with_reducible exact ih _) | ((with_reducible refine (strIllegal_in ..).mono ?_); rfl) | ((with_reducible refine (strWrite_in ..).mono ?_); rfl) | (with_reducible apply within_bind)
      | intro _ | split)

theorem scatterPut_in (p k d row idx b) : Within (FP.strPut) (scatterPut p k d row idx b : M o _) := by
  unfold scatterPut
  try dsimp only
  repeat' (first
    | intro _ | (with_reducible apply within_bind) | (with_reducible exact within_pure _) | (with_reducible exact within_st)
    | (with_reducible exact within_rd _) | (with_reducible exact within_now)
    | ((with_reducible refine (pscatterLanes_in ..).mono ?_); rfl) | ((with_reducible refine (upRun_in ..).mono ?_); rfl) | split)

theorem pscatterPanel_in (p k d) : Within (FP.copyRow) (pscatterPanel p k d : M o _) := by
  unfold pscatterPanel
  try dsimp only
  repeat' (first
    | intro _ | (with_reducible apply within_bind) | (with_reducible exact within_pure _) | (with_reducible exact within_st)
    | (with_reducible exact within_rd _) | (with_reducible exact within_now) | (with_reducible exact strm_in ..)
    | ((with_reducible refine (strGather_in ..).mono ?_); rfl) | ((with_reducible refine (scatterPut_in ..).mono ?_); rfl)
    | (with_reducible exact strGoes_in ..) | ((with_reducible refine (strIllegal_in ..).mono ?_); rfl)
    | ((with_reducible refine (strRead_in ..).mono ?_); rfl) | split)

theorem moveStep_in (p k d) : Within (FP.copyRow) (moveStep p k d : M o _) := by
  unfold moveStep
  try dsimp only
  repeat' (first
    | intro _ | (with_reducible apply within_bind) | (with_reducible exact within_pure _) | (with_reducible exact within_st)
    | (with_reducible exact within_rd _) | (with_reducible exact within_now) | (with_reducible exact strm_in ..)
    | ((with_reducible refine (strFlush_in ..).mono ?_); rfl) | ((with_reducible refine (copyRow_in ..).mono ?_); rfl)
    | ((with_reducible refine (gatherRow_in ..).mono ?_); rfl) | ((with_reducible refine (scatterRow_in ..).mono ?_); rfl)
    | ((with_reducible refine (nextIdx_in ..).mono ?_); rfl) | ((with_reducible refine (upRun_in ..).mono ?_); rfl)
    | ((with_reducible refine (pgatherPanel_in ..).mono ?_); rfl) | ((with_reducible refine (pscatterPanel_in ..).mono ?_); rfl) | split)

theorem strNext_in (p k) : Within (FP.strNext) (strNext p k : M o _) := by
  unfold strNext
  try dsimp only
  repeat' (first
    | intro _ | (with_reducible apply within_bind) | (with_reducible exact within_pure _) | (with_reducible exact within_st)
    | (with_reducible exact within_rd _) | (with_reducible exact within_now) | ((with_reducible refine (upRun_in ..).mono ?_); rfl)
    | ((with_reducible refine wr_in .PART_STR_STAT rfl ?_); rfl) | split)

theorem strStep_in (p k d) : Within (FP.strStep) (strStep p k d : M o _) := by
  unfold strStep
  try dsimp only
  repeat' (first
    | intro _ | (with_reducible apply within_bind) | (with_reducible exact within_pure _) | (with_reducible exact within_st)
    | (with_reducible exact within_rd _) | (with_reducible exact within_now) | ((with_reducible refine (stallC_in ..).mono ?_); rfl)
    | ((with_reducible refine (upQue_in ..).mono ?_); rfl) | ((with_reducible refine (releaseSlot_in ..).mono ?_); rfl)
    | ((with_reducible refine (upRun_in ..).mono ?_); rfl) | ((with_reducible refine (kickQ_in ..).mono ?_); rfl)
    | ((with_reducible refine (moveStep_in ..).mono ?_); rfl) | ((with_reducible refine (strFlush_in ..).mono ?_); rfl)
    | ((with_reducible refine (stallP_in ..).mono ?_); rfl) | ((with_reducible refine (pushSlot_in ..).mono ?_); rfl)
    | ((with_reducible refine (strNext_in ..).mono ?_); rfl) | ((with_reducible refine eff_in .vlt rfl ?_); rfl)
    | (with_reducible apply within_when) | split)

theorem strTurn_in {fp : Nat} {p k opc f} {body} (hm : FP.coreTurn &&& fp = FP.coreTurn) (hb : ∀ x, Within fp (body x)) :
    Within fp (strTurn p k opc f body : M o _) := by
  unfold strTurn
  try dsimp only
  repeat' (first
    | with_reducible exact hb | with_reducible exact hb _ | intro _ | (with_reducible apply within_bind)
    | (with_reducible exact within_pure _) | (with_reducible exact within_st) | (with_reducible exact within_rd _)
    | (with_reducible exact within_now) | ((with_reducible refine (applyUps_in ..).mono ?_); exact sub_trans rfl hm)
    | (with_reducible exact mode_in) | ((with_reducible refine (unitTurn_in ..).mono ?_); exact sub_trans rfl hm)
    | (with_reducible exact strm_in ..) | ((with_reducible refine (readMem_in ..).mono ?_); exact sub_trans rfl hm)
    | ((with_reducible refine (strMemErr_in ..).mono ?_); exact sub_trans rfl hm)
    | ((with_reducible refine (strIllegal_in ..).mono ?_); exact sub_trans rfl hm)
    | ((with_reducible refine (runUnit_in ..).mono ?_); exact sub_trans rfl hm) | split)

theorem strRun_in (p k opc f) : Within (FP.strStep) (strRun p k opc f : M o _) := by
  unfold strRun
  try dsimp only
  repeat' (first
    | intro _ | (with_reducible apply within_bind) | (with_reducible exact within_pure _) | (with_reducible exact within_st)
    | (with_reducible exact within_rd _) | (with_reducible exact within_now) | ((with_reducible refine strTurn_in ?_ ?_) <;> [rfl; skip])
    | ((with_reducible refine (strStep_in ..).mono ?_); rfl) | (with_reducible apply within_loop) | split)

theorem strEnd_in (p k d) : Within (FP.strEnd) (strEnd p k d : M o _) := by
  unfold strEnd
  try dsimp only
  repeat' (first
    | intro _ | (with_reducible apply within_bind) | (with_reducible exact within_pure _) | (with_reducible exact within_st)
    | (with_reducible exact within_rd _) | (with_reducible exact within_now) | ((with_reducible refine (stallC_in ..).mono ?_); rfl)
    | ((with_reducible refine (upQue_in ..).mono ?_); rfl) | ((with_reducible refine (releaseSlot_in ..).mono ?_); rfl)
    | ((with_reducible refine (upRun_in ..).mono ?_); rfl) | ((with_reducible refine (kickQ_in ..).mono ?_); rfl)
    | ((with_reducible refine (stallP_in ..).mono ?_); rfl) | ((with_reducible refine (pushSlot_in ..).mono ?_); rfl)
    | ((with_reducible refine (refreshPhase_in ..).mono ?_); rfl) | ((with_reducible refine wr_in .PART_STR_STAT rfl ?_); rfl)
    | (with_reducible apply within_when) | split)

theorem takeAnswer_in (sub) : Within (FP.upPort) (takeAnswer sub : M o _) := by
  unfold takeAnswer
  try dsimp only
  repeat' (first
    | intro _ | (with_reducible apply within_bind) | (with_reducible exact within_pure _) | (with_reducible exact within_st)
    | (with_reducible exact within_rd _) | (with_reducible exact within_now) | ((with_reducible refine (takeInbox_in ..).mono ?_); rfl)
    | split)

theorem passVisit_in (t cw) : Within (FP.passVisit) (passVisit t cw : M o _) := by
  unfold passVisit
  try dsimp only
  repeat' (first
    | intro _ | (with_reducible apply within_bind) | (with_reducible exact within_pure _) | (with_reducible exact within_st)
    | (with_reducible exact within_rd _) | (with_reducible exact within_now)
    | ((with_reducible refine incWrap_in .MEM_SCRUB_STATt rfl ?_) <;> rfl) | ((with_reducible refine (setPass_in ..).mono ?_); rfl)
    | ((with_reducible refine wr_in .MEM_SCRUB_STATt rfl ?_); rfl) | split)

theorem postedWrite_in (l : List (Nat × List Byte)) : Within (FP.checkCw) (postedWrite l : M o _) := by
  induction l with
  | nil => exact within_pure _
  | cons u l ih =>
    unfold postedWrite
    dsimp only
    repeat' (first
      | (with_reducible exact ih) | (with_reducible apply within_bind) | (with_reducible exact within_pure _)
      | ((with_reducible refine (writeMem_in ..).mono ?_); rfl) | ((with_reducible refine setF_in .MEM_STAT rfl ?_); rfl) | intro _ | split)

theorem tableVisit_in (i ups) : Within (FP.evRaw) (tableVisit i ups : M o _) := by
  unfold tableVisit
  try dsimp only
  repeat' (first
    | intro _ | (with_reducible apply within_bind) | (with_reducible exact within_pure _) | (with_reducible exact within_st)
    | (with_reducible exact within_rd _) | (with_reducible exact within_now) | ((with_reducible refine (ev_in ..).mono ?_); rfl) | split)

theorem memVisit_in (cw) : Within (FP.memVisit) (memVisit cw : M o _) := by
  unfold memVisit
  try dsimp only
  repeat' (first
    | intro _ | (with_reducible apply within_bind) | (with_reducible exact within_pure _) | (with_reducible exact within_st)
    | (with_reducible exact within_rd _) | (with_reducible exact within_now) | ((with_reducible refine (checkCw_in ..).mono ?_); rfl)
    | ((with_reducible refine setF_in .MEM_SCRUB_STATt rfl ?_) <;> rfl) | ((with_reducible refine (passVisit_in ..).mono ?_); rfl)
    | ((with_reducible refine eff_in .mem rfl ?_); rfl) | (with_reducible apply within_when) | split)

theorem releaseRead_in (p q) : Within (FP.releaseSlot) (releaseRead p q : M o _) := by
  unfold releaseRead
  try dsimp only
  repeat' (first
    | intro _ | (with_reducible apply within_bind) | (with_reducible exact within_pure _) | (with_reducible exact within_st)
    | (with_reducible exact within_rd _) | (with_reducible exact within_now) | ((with_reducible refine (releaseSlot_in ..).mono ?_); rfl)
    | (with_reducible apply within_loop) | split)

theorem timeTo_in (t) : Within (FP.advTo) (timeTo t : M o _) := by
  unfold timeTo
  try dsimp only
  repeat' (first
    | intro _ | (with_reducible apply within_bind) | (with_reducible exact within_pure _) | (with_reducible exact within_st)
    | (with_reducible exact within_rd _) | (with_reducible exact within_now) | ((with_reducible refine eff_in .pass rfl ?_); rfl) | split)

theorem runFw_in (x) : Within (FP.runFw) (runFw x : M o _) := by
  unfold runFw
  try dsimp only
  repeat' (first
    | intro _ | (with_reducible apply within_bind) | (with_reducible exact within_pure _) | (with_reducible exact within_st)
    | (with_reducible exact within_rd _) | (with_reducible exact within_now) | ((with_reducible refine wr_in .UPD_VER_RUN rfl ?_); rfl)
    | ((with_reducible refine eff_in .ctl rfl ?_); rfl) | ((with_reducible refine eff_in .sec rfl ?_); rfl) | split)

theorem revertNow_in : Within (FP.revertNow) (revertNow : M o _) := by
  unfold revertNow
  try dsimp only
  repeat' (first
    | intro _ | (with_reducible apply within_bind) | (with_reducible exact within_pure _) | (with_reducible exact within_st)
    | (with_reducible exact within_rd _) | (with_reducible exact within_now) | ((with_reducible refine (setUpd_in ..).mono ?_); rfl)
    | ((with_reducible refine (runFw_in ..).mono ?_); rfl) | ((with_reducible refine (revertUpd_in ..).mono ?_); rfl)
    | ((with_reducible refine eff_in .ctl rfl ?_); rfl) | split)

theorem abortAct_in (err) : Within (FP.abortAct) (abortAct err : M o _) := by
  unfold abortAct
  try dsimp only
  repeat' (first
    | intro _ | (with_reducible apply within_bind) | (with_reducible exact within_pure _) | (with_reducible exact within_st)
    | (with_reducible exact within_rd _) | (with_reducible exact within_now) | ((with_reducible refine (updEvent_in ..).mono ?_); rfl)
    | ((with_reducible refine wr_in .UPD_STAT rfl ?_); rfl) | split)

theorem activateFw_in : Within (FP.activateFw) (activateFw : M o _) := by
  unfold activateFw
  try dsimp only
  repeat' (first
    | intro _ | (with_reducible apply within_bind) | (with_reducible exact within_pure _) | (with_reducible exact within_st)
    | (with_reducible exact within_rd _) | (with_reducible exact within_now) | ((with_reducible refine (setUpd_in ..).mono ?_); rfl)
    | ((with_reducible refine (runFw_in ..).mono ?_); rfl) | ((with_reducible refine (setFallback_in ..).mono ?_); rfl)
    | ((with_reducible refine (startDeadline_in).mono ?_); rfl) | ((with_reducible refine (updEvent_in ..).mono ?_); rfl)
    | ((with_reducible refine (revertNow_in).mono ?_); rfl) | split)

theorem activationFires_in (grp secs) : Within (FP.activationFires) (activationFires grp secs : M o _) := by
  unfold activationFires
  try dsimp only
  repeat' (first
    | intro _ | (with_reducible apply within_bind) | (with_reducible exact within_pure _) | (with_reducible exact within_st)
    | (with_reducible exact within_rd _) | (with_reducible exact within_now) | ((with_reducible refine (noteUnlocked_in).mono ?_); rfl)
    | ((with_reducible refine (abortAct_in ..).mono ?_); rfl) | ((with_reducible refine (askModule_in ..).mono ?_); rfl)
    | ((with_reducible refine (activateFw_in).mono ?_); rfl) | ((with_reducible refine eff_in .nor rfl ?_); rfl) | split)

theorem planSwitch_in (slot) : Within (FP.planSwitch) (planSwitch slot : M o _) := by
  unfold planSwitch
  try dsimp only
  repeat' (first
    | intro _ | (with_reducible apply within_bind) | (with_reducible exact within_pure _) | (with_reducible exact within_st)
    | (with_reducible exact within_rd _) | (with_reducible exact within_now) | ((with_reducible refine (commitJournal_in).mono ?_); rfl)
    | ((with_reducible refine (ev_in ..).mono ?_); rfl) | ((with_reducible refine (checkOwner_in).mono ?_); rfl)
    | ((with_reducible refine wr_in .MEM_VLT_STAT rfl ?_); rfl) | ((with_reducible refine eff_in .mem rfl ?_); rfl)
    | ((with_reducible refine eff_in .super rfl ?_); rfl) | split)

theorem answer_in (w cmd a) : Within (FP.answer) (answer w cmd a : M o _) := by
  unfold answer
  try dsimp only
  repeat' (first
    | intro _ | (with_reducible apply within_bind) | (with_reducible exact within_pure _) | (with_reducible exact within_st)
    | (with_reducible exact within_rd _) | (with_reducible exact within_now) | ((with_reducible refine (send_in ..).mono ?_); rfl)
    | ((with_reducible refine (upWor_in ..).mono ?_); rfl) | ((with_reducible refine incWrap_in .RST_WOR_STATp rfl ?_) <;> rfl)
    | (with_reducible apply within_when) | split)

theorem request_in {fp : Nat} {w cmd} {m} (hm : FP.answer &&& fp = FP.answer) (hb : Within fp m) :
    Within fp (request w cmd m : M o _) := by
  unfold request
  try dsimp only
  repeat' (first
    | with_reducible exact hb | with_reducible exact hb _ | intro _ | (with_reducible apply within_bind)
    | (with_reducible exact within_pure _) | (with_reducible exact within_st) | (with_reducible exact within_rd _)
    | (with_reducible exact within_now) | ((with_reducible refine (send_in ..).mono ?_); exact sub_trans rfl hm)
    | ((with_reducible refine (answer_in ..).mono ?_); exact sub_trans rfl hm) | split)

theorem freeCmd_in {fp : Nat} {w cmd} {m} (hm : FP.answer &&& fp = FP.answer) (hb : Within fp m) :
    Within fp (freeCmd w cmd m : M o _) := by
  unfold freeCmd
  try dsimp only
  repeat' (first
    | with_reducible exact hb | with_reducible exact hb _ | intro _ | (with_reducible apply within_bind)
    | (with_reducible exact within_pure _) | (with_reducible exact within_st) | (with_reducible exact within_rd _)
    | (with_reducible exact within_now) | ((with_reducible refine request_in ?_ ?_) <;> [exact sub_trans rfl hm; skip]) | split)

theorem actCmd_in {fp : Nat} {w cmd v} {m} (hm : FP.actCmd &&& fp = FP.actCmd) (hb : Within fp m) :
    Within fp (actCmd w cmd v m : M o _) := by
  unfold actCmd
  try dsimp only
  repeat' (first
    | with_reducible exact hb | with_reducible exact hb _ | intro _ | (with_reducible apply within_bind)
    | (with_reducible exact within_pure _) | (with_reducible exact within_st) | (with_reducible exact within_rd _)
    | (with_reducible exact within_now) | ((with_reducible refine request_in ?_ ?_) <;> [exact sub_trans rfl hm; skip])
    | ((with_reducible refine (cmdRec_in ..).mono ?_); exact sub_trans rfl hm) | split)

theorem leaseEvent_in : Within (FP.evRaw) (leaseEvent : M o _) := by
  unfold leaseEvent
  try dsimp only
  repeat' (first
    | intro _ | (with_reducible apply within_bind) | (with_reducible exact within_pure _) | (with_reducible exact within_st)
    | (with_reducible exact within_rd _) | (with_reducible exact within_now) | ((with_reducible refine (ev_in ..).mono ?_); rfl) | split)

theorem leaseTouch_in : Within (FP.mark) (leaseTouch : M o _) := by
  unfold leaseTouch
  try dsimp only
  repeat' (first
    | intro _ | (with_reducible apply within_bind) | (with_reducible exact within_pure _) | (with_reducible exact within_st)
    | (with_reducible exact within_rd _) | (with_reducible exact within_now) | ((with_reducible refine eff_in .seen rfl ?_); rfl) | split)

theorem leaseClaim_in (port) : Within (FP.leaseClaim) (leaseClaim port : M o _) := by
  unfold leaseClaim
  try dsimp only
  repeat' (first
    | intro _ | (with_reducible apply within_bind) | (with_reducible exact within_pure _) | (with_reducible exact within_st)
    | (with_reducible exact within_rd _) | (with_reducible exact within_now) | (with_reducible exact wrs_nil_in)
    | ((with_reducible refine wrs_in .RST_LEASE rfl ?_ ?_); rfl) | ((with_reducible refine (leaseTouch_in).mono ?_); rfl)
    | ((with_reducible refine (leaseEvent_in).mono ?_); rfl) | split)

theorem leaseEnds_in : Within (FP.leaseClaim) (leaseEnds : M o _) := by
  unfold leaseEnds
  try dsimp only
  repeat' (first
    | intro _ | (with_reducible apply within_bind) | (with_reducible exact within_pure _) | (with_reducible exact within_st)
    | (with_reducible exact within_rd _) | (with_reducible exact within_now) | (with_reducible exact wrs_nil_in)
    | ((with_reducible refine wrs_in .RST_LEASE rfl ?_ ?_); rfl) | ((with_reducible refine (mark_in ..).mono ?_); rfl)
    | ((with_reducible refine (leaseEvent_in).mono ?_); rfl) | ((with_reducible refine (notice_in ..).mono ?_); rfl) | split)

theorem setLevel_in {fp : Nat} (k : RegKind) {f : Fld} {w : Nat} (hk : f.k = k) (h : fp.testBit (64 + k.ctorIdx) = true)
    (hm : FP.setLevel &&& fp = FP.setLevel) : Within fp (setLevel f w : M o _) := by
  unfold setLevel
  dsimp only
  repeat' (first
      | intro _ | (with_reducible apply within_bind) | (with_reducible exact within_pure _) | (with_reducible exact within_st)
      | (with_reducible exact within_rd _) | exact wr_in k hk h | exact (ev_in ..).mono (sub_trans (by rfl) hm)
      | exact refreshClip_in.mono (sub_trans (by rfl) hm) | apply within_when)

theorem setCeil_in (point time) : Within (FP.setCeil) (setCeil point time : M o _) := by
  unfold setCeil
  try dsimp only
  repeat' (first
    | intro _ | (with_reducible apply within_bind) | (with_reducible exact within_pure _) | (with_reducible exact within_st)
    | (with_reducible exact within_rd _) | (with_reducible exact within_now) | ((with_reducible refine (ev_in ..).mono ?_); rfl)
    | ((with_reducible refine wr_in .PWR_OP rfl ?_); rfl) | ((with_reducible refine eff_in .pw rfl ?_); rfl)
    | (with_reducible apply within_when) | split)

theorem flowPut_in (flow) : Within (FP.flowPut) (flowPut flow : M o _) := by
  unfold flowPut
  try dsimp only
  repeat' (first
    | intro _ | (with_reducible apply within_bind) | (with_reducible exact within_pure _) | (with_reducible exact within_st)
    | (with_reducible exact within_rd _) | (with_reducible exact within_now) | ((with_reducible refine setF_in .PWR_STAT rfl ?_) <;> rfl)
    | ((with_reducible refine (ev_in ..).mono ?_); rfl) | (with_reducible exact wrs_nil_in)
    | ((with_reducible refine wrs_in .PWR_CLIP_DER rfl ?_ ?_); rfl) | ((with_reducible refine wrs_in .PWR_STAT rfl ?_ ?_); rfl)
    | ((with_reducible refine (refreshClip_in).mono ?_); rfl) | ((with_reducible refine (refreshFlow_in).mono ?_); rfl)
    | ((with_reducible refine wr_in .PWR_CLIP_DER rfl ?_); rfl) | ((with_reducible refine wr_in .PWR_COOL rfl ?_); rfl)
    | (with_reducible apply within_when) | split)

theorem renewMember_in : Within (FP.renewMember) (renewMember : M o _) := by
  unfold renewMember
  try dsimp only
  repeat' (first
    | intro _ | (with_reducible apply within_bind) | (with_reducible exact within_pure _) | (with_reducible exact within_st)
    | (with_reducible exact within_rd _) | (with_reducible exact within_now)
    | ((with_reducible refine faultCond_in .RST_FAULT rfl ?_ ?_) <;> rfl) | ((with_reducible refine wr_in .FZ_MEMBER rfl ?_); rfl)
    | ((with_reducible refine eff_in .fab rfl ?_); rfl) | split)

theorem readmitNow_in (epoch) : Within (FP.readmitNow) (readmitNow epoch : M o _) := by
  unfold readmitNow
  try dsimp only
  repeat' (first
    | intro _ | (with_reducible apply within_bind) | (with_reducible exact within_pure _) | (with_reducible exact within_st)
    | (with_reducible exact within_rd _) | (with_reducible exact within_now) | ((with_reducible refine (upBank_in ..).mono ?_); rfl)
    | ((with_reducible refine (makeActive_in ..).mono ?_); rfl) | ((with_reducible refine faultCond_in .RST_FAULT rfl ?_ ?_) <;> rfl)
    | ((with_reducible refine (bringUp_in ..).mono ?_); rfl) | ((with_reducible refine wr_in .RST_ESC_STAT rfl ?_); rfl)
    | ((with_reducible refine eff_in .nor rfl ?_); rfl) | (with_reducible apply within_each) | split)

theorem putWords_in (src off) (l : List (BitVec 32)) : Within (FP.regPut) (putWords src off l : M o _) := by
  induction l generalizing off with
  | nil => unfold putWords; exact within_pure _
  | cons u l ih =>
    unfold putWords
    exact within_bind ((barWord_in ..).mono (by rfl)) fun _ => ih _

end Sys2Proof.Machine
end

