-- ==== Sys2Proof/Laws/Frames.lean ====
section
/-!
SUPPORT. What a run with a footprint leaves unchanged, one lemma per part of State: `h.part rfl` for a run `h` whose footprint has none of the
part's tags.
-/

namespace Sys2Proof.Machine

theorem and_zero_bit {n m i : Nat} (h : n &&& m = 0) (hm : m.testBit i = true) : n.testBit i = false := by
  have := congrArg (fun x => x.testBit i) h
  simp only [Nat.testBit_and, hm, Bool.and_true, Nat.zero_testBit] at this
  exact this

theorem apply_keeps_clkMono (e : Eff) (s : State) (h : (0x400 : Nat).testBit e.tag.bit = false) : (apply e s).clk.mono = s.clk.mono := by
  cases e with
  | pass m => exact absurd (show (0x400 : Nat).testBit 10 = false from h) (by decide)
  | wor b f => cases b <;> rfl
  | ownerBlow k d => simp only [apply]; split <;> rfl
  | _ => rfl

theorem Via.clkMono {n : Nat} {s t : State} (h : Via n s t) (hn : n &&& 0x400 = 0) : t.clk.mono = s.clk.mono := by
  induction h with
  | refl => rfl
  | step _ e he ih =>
    rw [apply_keeps_clkMono e _ ?_, ih]
    cases hb : (0x400 : Nat).testBit e.tag.bit with
    | false => rfl
    | true => rw [and_zero_bit hn hb] at he; exact absurd he (by decide)

theorem apply_keeps_time (e : Eff) (s : State) (h : (0x200000c00 : Nat).testBit e.tag.bit = false) : (apply e s).clk.time = s.clk.time := by
  cases e with
  | pass m => exact absurd (show (0x200000c00 : Nat).testBit 10 = false from h) (by decide)
  | setTime t => exact absurd (show (0x200000c00 : Nat).testBit 11 = false from h) (by decide)
  | por => exact absurd (show (0x200000c00 : Nat).testBit 33 = false from h) (by decide)
  | wor b f => cases b <;> rfl
  | ownerBlow k d => simp only [apply]; split <;> rfl
  | _ => rfl

theorem Via.time {n : Nat} {s t : State} (h : Via n s t) (hn : n &&& 0x200000c00 = 0) : t.clk.time = s.clk.time := by
  induction h with
  | refl => rfl
  | step _ e he ih =>
    rw [apply_keeps_time e _ ?_, ih]
    cases hb : (0x200000c00 : Nat).testBit e.tag.bit with
    | false => rfl
    | true => rw [and_zero_bit hn hb] at he; exact absurd he (by decide)

theorem apply_keeps_seen (e : Eff) (s : State) (h : (0x200001000 : Nat).testBit e.tag.bit = false) : (apply e s).clk.seen = s.clk.seen := by
  cases e with
  | seen k a => exact absurd (show (0x200001000 : Nat).testBit 12 = false from h) (by decide)
  | por => exact absurd (show (0x200001000 : Nat).testBit 33 = false from h) (by decide)
  | wor b f => cases b <;> rfl
  | ownerBlow k d => simp only [apply]; split <;> rfl
  | _ => rfl

theorem Via.seen {n : Nat} {s t : State} (h : Via n s t) (hn : n &&& 0x200001000 = 0) : t.clk.seen = s.clk.seen := by
  induction h with
  | refl => rfl
  | step _ e he ih =>
    rw [apply_keeps_seen e _ ?_, ih]
    cases hb : (0x200001000 : Nat).testBit e.tag.bit with
    | false => rfl
    | true => rw [and_zero_bit hn hb] at he; exact absurd he (by decide)

theorem apply_keeps_free (e : Eff) (s : State) (h : (0x2000 : Nat).testBit e.tag.bit = false) : (apply e s).clk.free = s.clk.free := by
  cases e with
  | draw => exact absurd (show (0x2000 : Nat).testBit 13 = false from h) (by decide)
  | wor b f => cases b <;> rfl
  | ownerBlow k d => simp only [apply]; split <;> rfl
  | _ => rfl

theorem Via.free {n : Nat} {s t : State} (h : Via n s t) (hn : n &&& 0x2000 = 0) : t.clk.free = s.clk.free := by
  induction h with
  | refl => rfl
  | step _ e he ih =>
    rw [apply_keeps_free e _ ?_, ih]
    cases hb : (0x2000 : Nat).testBit e.tag.bit with
    | false => rfl
    | true => rw [and_zero_bit hn hb] at he; exact absurd he (by decide)

theorem apply_keeps_fuses (e : Eff) (s : State) (h : (0xe0000000 : Nat).testBit e.tag.bit = false) : (apply e s).nv.fuses = s.nv.fuses := by
  cases e with
  | ownerBlow k d => exact absurd (show (0xe0000000 : Nat).testBit 29 = false from h) (by decide)
  | ownerRevoke k => exact absurd (show (0xe0000000 : Nat).testBit 30 = false from h) (by decide)
  | svnBlow k => exact absurd (show (0xe0000000 : Nat).testBit 31 = false from h) (by decide)
  | wor b f => cases b <;> rfl
  | _ => rfl

theorem Via.fuses {n : Nat} {s t : State} (h : Via n s t) (hn : n &&& 0xe0000000 = 0) : t.nv.fuses = s.nv.fuses := by
  induction h with
  | refl => rfl
  | step _ e he ih =>
    rw [apply_keeps_fuses e _ ?_, ih]
    cases hb : (0xe0000000 : Nat).testBit e.tag.bit with
    | false => rfl
    | true => rw [and_zero_bit hn hb] at he; exact absurd he (by decide)

theorem apply_keeps_nor (e : Eff) (s : State) (h : (0x2000000 : Nat).testBit e.tag.bit = false) : (apply e s).nv.nor = s.nv.nor := by
  cases e with
  | nor f => exact absurd (show (0x2000000 : Nat).testBit 25 = false from h) (by decide)
  | wor b f => cases b <;> rfl
  | ownerBlow k d => simp only [apply]; split <;> rfl
  | _ => rfl

theorem Via.nor {n : Nat} {s t : State} (h : Via n s t) (hn : n &&& 0x2000000 = 0) : t.nv.nor = s.nv.nor := by
  induction h with
  | refl => rfl
  | step _ e he ih =>
    rw [apply_keeps_nor e _ ?_, ih]
    cases hb : (0x2000000 : Nat).testBit e.tag.bit with
    | false => rfl
    | true => rw [and_zero_bit hn hb] at he; exact absurd he (by decide)

theorem apply_keeps_super (e : Eff) (s : State) (h : (0x4000000 : Nat).testBit e.tag.bit = false) : (apply e s).nv.super = s.nv.super := by
  cases e with
  | super f => exact absurd (show (0x4000000 : Nat).testBit 26 = false from h) (by decide)
  | wor b f => cases b <;> rfl
  | ownerBlow k d => simp only [apply]; split <;> rfl
  | _ => rfl

theorem Via.super {n : Nat} {s t : State} (h : Via n s t) (hn : n &&& 0x4000000 = 0) : t.nv.super = s.nv.super := by
  induction h with
  | refl => rfl
  | step _ e he ih =>
    rw [apply_keeps_super e _ ?_, ih]
    cases hb : (0x4000000 : Nat).testBit e.tag.bit with
    | false => rfl
    | true => rw [and_zero_bit hn hb] at he; exact absurd he (by decide)

theorem apply_keeps_settings (e : Eff) (s : State) (h : (0x8000000 : Nat).testBit e.tag.bit = false) : (apply e s).nv.settings = s.nv.settings := by
  cases e with
  | settings f => exact absurd (show (0x8000000 : Nat).testBit 27 = false from h) (by decide)
  | wor b f => cases b <;> rfl
  | ownerBlow k d => simp only [apply]; split <;> rfl
  | _ => rfl

theorem Via.settings {n : Nat} {s t : State} (h : Via n s t) (hn : n &&& 0x8000000 = 0) : t.nv.settings = s.nv.settings := by
  induction h with
  | refl => rfl
  | step _ e he ih =>
    rw [apply_keeps_settings e _ ?_, ih]
    cases hb : (0x8000000 : Nat).testBit e.tag.bit with
    | false => rfl
    | true => rw [and_zero_bit hn hb] at he; exact absurd he (by decide)

theorem apply_keeps_latch (e : Eff) (s : State) (h : (0x10000000 : Nat).testBit e.tag.bit = false) : (apply e s).nv.latch = s.nv.latch := by
  cases e with
  | latch f => exact absurd (show (0x10000000 : Nat).testBit 28 = false from h) (by decide)
  | wor b f => cases b <;> rfl
  | ownerBlow k d => simp only [apply]; split <;> rfl
  | _ => rfl

theorem Via.latch {n : Nat} {s t : State} (h : Via n s t) (hn : n &&& 0x10000000 = 0) : t.nv.latch = s.nv.latch := by
  induction h with
  | refl => rfl
  | step _ e he ih =>
    rw [apply_keeps_latch e _ ?_, ih]
    cases hb : (0x10000000 : Nat).testBit e.tag.bit with
    | false => rfl
    | true => rw [and_zero_bit hn hb] at he; exact absurd he (by decide)

theorem apply_keeps_hs (e : Eff) (s : State) (h : (0x4000 : Nat).testBit e.tag.bit = false) : (apply e s).hs = s.hs := by
  cases e with
  | hs f => exact absurd (show (0x4000 : Nat).testBit 14 = false from h) (by decide)
  | wor b f => cases b <;> rfl
  | ownerBlow k d => simp only [apply]; split <;> rfl
  | _ => rfl

theorem Via.hs {n : Nat} {s t : State} (h : Via n s t) (hn : n &&& 0x4000 = 0) : t.hs = s.hs := by
  induction h with
  | refl => rfl
  | step _ e he ih =>
    rw [apply_keeps_hs e _ ?_, ih]
    cases hb : (0x4000 : Nat).testBit e.tag.bit with
    | false => rfl
    | true => rw [and_zero_bit hn hb] at he; exact absurd he (by decide)

theorem apply_keeps_ctl (e : Eff) (s : State) (h : (0x200008000 : Nat).testBit e.tag.bit = false) : (apply e s).ctl = s.ctl := by
  cases e with
  | ctl f => exact absurd (show (0x200008000 : Nat).testBit 15 = false from h) (by decide)
  | por => exact absurd (show (0x200008000 : Nat).testBit 33 = false from h) (by decide)
  | wor b f => cases b <;> rfl
  | ownerBlow k d => simp only [apply]; split <;> rfl
  | _ => rfl

theorem Via.ctl {n : Nat} {s t : State} (h : Via n s t) (hn : n &&& 0x200008000 = 0) : t.ctl = s.ctl := by
  induction h with
  | refl => rfl
  | step _ e he ih =>
    rw [apply_keeps_ctl e _ ?_, ih]
    cases hb : (0x200008000 : Nat).testBit e.tag.bit with
    | false => rfl
    | true => rw [and_zero_bit hn hb] at he; exact absurd he (by decide)

theorem apply_keeps_bytes (e : Eff) (s : State) (h : (0x200000006 : Nat).testBit e.tag.bit = false) : (apply e s).bytes = s.bytes := by
  cases e with
  | write a bs => exact absurd (show (0x200000006 : Nat).testBit 1 = false from h) (by decide)
  | wipe lo hi => exact absurd (show (0x200000006 : Nat).testBit 2 = false from h) (by decide)
  | por => exact absurd (show (0x200000006 : Nat).testBit 33 = false from h) (by decide)
  | wor b f => cases b <;> rfl
  | ownerBlow k d => simp only [apply]; split <;> rfl
  | _ => rfl

theorem Via.bytes {n : Nat} {s t : State} (h : Via n s t) (hn : n &&& 0x200000006 = 0) : t.bytes = s.bytes := by
  induction h with
  | refl => rfl
  | step _ e he ih =>
    rw [apply_keeps_bytes e _ ?_, ih]
    cases hb : (0x200000006 : Nat).testBit e.tag.bit with
    | false => rfl
    | true => rw [and_zero_bit hn hb] at he; exact absurd he (by decide)

theorem apply_keeps_mem (e : Eff) (s : State) (h : (0x20000000e : Nat).testBit e.tag.bit = false) : (apply e s).mem = s.mem := by
  cases e with
  | write a bs => exact absurd (show (0x20000000e : Nat).testBit 1 = false from h) (by decide)
  | wipe lo hi => exact absurd (show (0x20000000e : Nat).testBit 2 = false from h) (by decide)
  | mem f => exact absurd (show (0x20000000e : Nat).testBit 3 = false from h) (by decide)
  | por => exact absurd (show (0x20000000e : Nat).testBit 33 = false from h) (by decide)
  | wor b f => cases b <;> rfl
  | ownerBlow k d => simp only [apply]; split <;> rfl
  | _ => rfl

theorem Via.mem {n : Nat} {s t : State} (h : Via n s t) (hn : n &&& 0x20000000e = 0) : t.mem = s.mem := by
  induction h with
  | refl => rfl
  | step _ e he ih =>
    rw [apply_keeps_mem e _ ?_, ih]
    cases hb : (0x20000000e : Nat).testBit e.tag.bit with
    | false => rfl
    | true => rw [and_zero_bit hn hb] at he; exact absurd he (by decide)

theorem apply_keeps_vlt (e : Eff) (s : State) (h : (0x200000010 : Nat).testBit e.tag.bit = false) : (apply e s).vlt = s.vlt := by
  cases e with
  | vlt f => exact absurd (show (0x200000010 : Nat).testBit 4 = false from h) (by decide)
  | por => exact absurd (show (0x200000010 : Nat).testBit 33 = false from h) (by decide)
  | wor b f => cases b <;> rfl
  | ownerBlow k d => simp only [apply]; split <;> rfl
  | _ => rfl

theorem Via.vlt {n : Nat} {s t : State} (h : Via n s t) (hn : n &&& 0x200000010 = 0) : t.vlt = s.vlt := by
  induction h with
  | refl => rfl
  | step _ e he ih =>
    rw [apply_keeps_vlt e _ ?_, ih]
    cases hb : (0x200000010 : Nat).testBit e.tag.bit with
    | false => rfl
    | true => rw [and_zero_bit hn hb] at he; exact absurd he (by decide)

theorem apply_keeps_arrs (e : Eff) (s : State) (h : (0x200000220 : Nat).testBit e.tag.bit = false) : (apply e s).arrs = s.arrs := by
  cases e with
  | arr k f => exact absurd (show (0x200000220 : Nat).testBit 5 = false from h) (by decide)
  | unitsReset p => exact absurd (show (0x200000220 : Nat).testBit 9 = false from h) (by decide)
  | por => exact absurd (show (0x200000220 : Nat).testBit 33 = false from h) (by decide)
  | wor b f => cases b <;> rfl
  | ownerBlow k d => simp only [apply]; split <;> rfl
  | _ => rfl

theorem Via.arrs {n : Nat} {s t : State} (h : Via n s t) (hn : n &&& 0x200000220 = 0) : t.arrs = s.arrs := by
  induction h with
  | refl => rfl
  | step _ e he ih =>
    rw [apply_keeps_arrs e _ ?_, ih]
    cases hb : (0x200000220 : Nat).testBit e.tag.bit with
    | false => rfl
    | true => rw [and_zero_bit hn hb] at he; exact absurd he (by decide)

theorem apply_keeps_cores (e : Eff) (s : State) (h : (0x200000240 : Nat).testBit e.tag.bit = false) : (apply e s).cores = s.cores := by
  cases e with
  | core k f => exact absurd (show (0x200000240 : Nat).testBit 6 = false from h) (by decide)
  | unitsReset p => exact absurd (show (0x200000240 : Nat).testBit 9 = false from h) (by decide)
  | por => exact absurd (show (0x200000240 : Nat).testBit 33 = false from h) (by decide)
  | wor b f => cases b <;> rfl
  | ownerBlow k d => simp only [apply]; split <;> rfl
  | _ => rfl

theorem Via.cores {n : Nat} {s t : State} (h : Via n s t) (hn : n &&& 0x200000240 = 0) : t.cores = s.cores := by
  induction h with
  | refl => rfl
  | step _ e he ih =>
    rw [apply_keeps_cores e _ ?_, ih]
    cases hb : (0x200000240 : Nat).testBit e.tag.bit with
    | false => rfl
    | true => rw [and_zero_bit hn hb] at he; exact absurd he (by decide)

theorem apply_keeps_strs (e : Eff) (s : State) (h : (0x200000280 : Nat).testBit e.tag.bit = false) : (apply e s).strs = s.strs := by
  cases e with
  | str k f => exact absurd (show (0x200000280 : Nat).testBit 7 = false from h) (by decide)
  | unitsReset p => exact absurd (show (0x200000280 : Nat).testBit 9 = false from h) (by decide)
  | por => exact absurd (show (0x200000280 : Nat).testBit 33 = false from h) (by decide)
  | wor b f => cases b <;> rfl
  | ownerBlow k d => simp only [apply]; split <;> rfl
  | _ => rfl

theorem Via.strs {n : Nat} {s t : State} (h : Via n s t) (hn : n &&& 0x200000280 = 0) : t.strs = s.strs := by
  induction h with
  | refl => rfl
  | step _ e he ih =>
    rw [apply_keeps_strs e _ ?_, ih]
    cases hb : (0x200000280 : Nat).testBit e.tag.bit with
    | false => rfl
    | true => rw [and_zero_bit hn hb] at he; exact absurd he (by decide)

theorem apply_keeps_ques (e : Eff) (s : State) (h : (0x200000300 : Nat).testBit e.tag.bit = false) : (apply e s).ques = s.ques := by
  cases e with
  | que k f => exact absurd (show (0x200000300 : Nat).testBit 8 = false from h) (by decide)
  | unitsReset p => exact absurd (show (0x200000300 : Nat).testBit 9 = false from h) (by decide)
  | por => exact absurd (show (0x200000300 : Nat).testBit 33 = false from h) (by decide)
  | wor b f => cases b <;> rfl
  | ownerBlow k d => simp only [apply]; split <;> rfl
  | _ => rfl

theorem Via.ques {n : Nat} {s t : State} (h : Via n s t) (hn : n &&& 0x200000300 = 0) : t.ques = s.ques := by
  induction h with
  | refl => rfl
  | step _ e he ih =>
    rw [apply_keeps_ques e _ ?_, ih]
    cases hb : (0x200000300 : Nat).testBit e.tag.bit with
    | false => rfl
    | true => rw [and_zero_bit hn hb] at he; exact absurd he (by decide)

theorem apply_keeps_host (e : Eff) (s : State) (h : (0x200010000 : Nat).testBit e.tag.bit = false) : (apply e s).host = s.host := by
  cases e with
  | host f => exact absurd (show (0x200010000 : Nat).testBit 16 = false from h) (by decide)
  | por => exact absurd (show (0x200010000 : Nat).testBit 33 = false from h) (by decide)
  | wor b f => cases b <;> rfl
  | ownerBlow k d => simp only [apply]; split <;> rfl
  | _ => rfl

theorem Via.host {n : Nat} {s t : State} (h : Via n s t) (hn : n &&& 0x200010000 = 0) : t.host = s.host := by
  induction h with
  | refl => rfl
  | step _ e he ih =>
    rw [apply_keeps_host e _ ?_, ih]
    cases hb : (0x200010000 : Nat).testBit e.tag.bit with
    | false => rfl
    | true => rw [and_zero_bit hn hb] at he; exact absurd he (by decide)

theorem apply_keeps_fab (e : Eff) (s : State) (h : (0x200020000 : Nat).testBit e.tag.bit = false) : (apply e s).fab = s.fab := by
  cases e with
  | fab f => exact absurd (show (0x200020000 : Nat).testBit 17 = false from h) (by decide)
  | por => exact absurd (show (0x200020000 : Nat).testBit 33 = false from h) (by decide)
  | wor b f => cases b <;> rfl
  | ownerBlow k d => simp only [apply]; split <;> rfl
  | _ => rfl

theorem Via.fab {n : Nat} {s t : State} (h : Via n s t) (hn : n &&& 0x200020000 = 0) : t.fab = s.fab := by
  induction h with
  | refl => rfl
  | step _ e he ih =>
    rw [apply_keeps_fab e _ ?_, ih]
    cases hb : (0x200020000 : Nat).testBit e.tag.bit with
    | false => rfl
    | true => rw [and_zero_bit hn hb] at he; exact absurd he (by decide)

theorem apply_keeps_pw (e : Eff) (s : State) (h : (0x200040000 : Nat).testBit e.tag.bit = false) : (apply e s).pw = s.pw := by
  cases e with
  | pw f => exact absurd (show (0x200040000 : Nat).testBit 18 = false from h) (by decide)
  | por => exact absurd (show (0x200040000 : Nat).testBit 33 = false from h) (by decide)
  | wor b f => cases b <;> rfl
  | ownerBlow k d => simp only [apply]; split <;> rfl
  | _ => rfl

theorem Via.pw {n : Nat} {s t : State} (h : Via n s t) (hn : n &&& 0x200040000 = 0) : t.pw = s.pw := by
  induction h with
  | refl => rfl
  | step _ e he ih =>
    rw [apply_keeps_pw e _ ?_, ih]
    cases hb : (0x200040000 : Nat).testBit e.tag.bit with
    | false => rfl
    | true => rw [and_zero_bit hn hb] at he; exact absurd he (by decide)

theorem apply_keeps_watch (e : Eff) (s : State) (h : (0x200080000 : Nat).testBit e.tag.bit = false) : (apply e s).watch = s.watch := by
  cases e with
  | watch f => exact absurd (show (0x200080000 : Nat).testBit 19 = false from h) (by decide)
  | por => exact absurd (show (0x200080000 : Nat).testBit 33 = false from h) (by decide)
  | wor b f => cases b <;> rfl
  | ownerBlow k d => simp only [apply]; split <;> rfl
  | _ => rfl

theorem Via.watch {n : Nat} {s t : State} (h : Via n s t) (hn : n &&& 0x200080000 = 0) : t.watch = s.watch := by
  induction h with
  | refl => rfl
  | step _ e he ih =>
    rw [apply_keeps_watch e _ ?_, ih]
    cases hb : (0x200080000 : Nat).testBit e.tag.bit with
    | false => rfl
    | true => rw [and_zero_bit hn hb] at he; exact absurd he (by decide)

theorem apply_keeps_rcd (e : Eff) (s : State) (h : (0x200100000 : Nat).testBit e.tag.bit = false) : (apply e s).rcd = s.rcd := by
  cases e with
  | rcd f => exact absurd (show (0x200100000 : Nat).testBit 20 = false from h) (by decide)
  | por => exact absurd (show (0x200100000 : Nat).testBit 33 = false from h) (by decide)
  | wor b f => cases b <;> rfl
  | ownerBlow k d => simp only [apply]; split <;> rfl
  | _ => rfl

theorem Via.rcd {n : Nat} {s t : State} (h : Via n s t) (hn : n &&& 0x200100000 = 0) : t.rcd = s.rcd := by
  induction h with
  | refl => rfl
  | step _ e he ih =>
    rw [apply_keeps_rcd e _ ?_, ih]
    cases hb : (0x200100000 : Nat).testBit e.tag.bit with
    | false => rfl
    | true => rw [and_zero_bit hn hb] at he; exact absurd he (by decide)

theorem apply_keeps_worA (e : Eff) (s : State) (h : (0x200200000 : Nat).testBit e.tag.bit = false) : (apply e s).worA = s.worA := by
  cases e with
  | wor b f => exact absurd (show (0x200200000 : Nat).testBit 21 = false from h) (by decide)
  | por => exact absurd (show (0x200200000 : Nat).testBit 33 = false from h) (by decide)
  | ownerBlow k d => simp only [apply]; split <;> rfl
  | _ => rfl

theorem Via.worA {n : Nat} {s t : State} (h : Via n s t) (hn : n &&& 0x200200000 = 0) : t.worA = s.worA := by
  induction h with
  | refl => rfl
  | step _ e he ih =>
    rw [apply_keeps_worA e _ ?_, ih]
    cases hb : (0x200200000 : Nat).testBit e.tag.bit with
    | false => rfl
    | true => rw [and_zero_bit hn hb] at he; exact absurd he (by decide)

theorem apply_keeps_worB (e : Eff) (s : State) (h : (0x200200000 : Nat).testBit e.tag.bit = false) : (apply e s).worB = s.worB := by
  cases e with
  | wor b f => exact absurd (show (0x200200000 : Nat).testBit 21 = false from h) (by decide)
  | por => exact absurd (show (0x200200000 : Nat).testBit 33 = false from h) (by decide)
  | ownerBlow k d => simp only [apply]; split <;> rfl
  | _ => rfl

theorem Via.worB {n : Nat} {s t : State} (h : Via n s t) (hn : n &&& 0x200200000 = 0) : t.worB = s.worB := by
  induction h with
  | refl => rfl
  | step _ e he ih =>
    rw [apply_keeps_worB e _ ?_, ih]
    cases hb : (0x200200000 : Nat).testBit e.tag.bit with
    | false => rfl
    | true => rw [and_zero_bit hn hb] at he; exact absurd he (by decide)

theorem apply_keeps_upd (e : Eff) (s : State) (h : (0x200400000 : Nat).testBit e.tag.bit = false) : (apply e s).upd = s.upd := by
  cases e with
  | upd f => exact absurd (show (0x200400000 : Nat).testBit 22 = false from h) (by decide)
  | por => exact absurd (show (0x200400000 : Nat).testBit 33 = false from h) (by decide)
  | wor b f => cases b <;> rfl
  | ownerBlow k d => simp only [apply]; split <;> rfl
  | _ => rfl

theorem Via.upd {n : Nat} {s t : State} (h : Via n s t) (hn : n &&& 0x200400000 = 0) : t.upd = s.upd := by
  induction h with
  | refl => rfl
  | step _ e he ih =>
    rw [apply_keeps_upd e _ ?_, ih]
    cases hb : (0x200400000 : Nat).testBit e.tag.bit with
    | false => rfl
    | true => rw [and_zero_bit hn hb] at he; exact absurd he (by decide)

theorem apply_keeps_qs (e : Eff) (s : State) (h : (0x200800000 : Nat).testBit e.tag.bit = false) : (apply e s).qs = s.qs := by
  cases e with
  | qs f => exact absurd (show (0x200800000 : Nat).testBit 23 = false from h) (by decide)
  | por => exact absurd (show (0x200800000 : Nat).testBit 33 = false from h) (by decide)
  | wor b f => cases b <;> rfl
  | ownerBlow k d => simp only [apply]; split <;> rfl
  | _ => rfl

theorem Via.qs {n : Nat} {s t : State} (h : Via n s t) (hn : n &&& 0x200800000 = 0) : t.qs = s.qs := by
  induction h with
  | refl => rfl
  | step _ e he ih =>
    rw [apply_keeps_qs e _ ?_, ih]
    cases hb : (0x200800000 : Nat).testBit e.tag.bit with
    | false => rfl
    | true => rw [and_zero_bit hn hb] at he; exact absurd he (by decide)

theorem apply_keeps_sec (e : Eff) (s : State) (h : (0x201000000 : Nat).testBit e.tag.bit = false) : (apply e s).sec = s.sec := by
  cases e with
  | sec f => exact absurd (show (0x201000000 : Nat).testBit 24 = false from h) (by decide)
  | por => exact absurd (show (0x201000000 : Nat).testBit 33 = false from h) (by decide)
  | wor b f => cases b <;> rfl
  | ownerBlow k d => simp only [apply]; split <;> rfl
  | _ => rfl

theorem Via.sec {n : Nat} {s t : State} (h : Via n s t) (hn : n &&& 0x201000000 = 0) : t.sec = s.sec := by
  induction h with
  | refl => rfl
  | step _ e he ih =>
    rw [apply_keeps_sec e _ ?_, ih]
    cases hb : (0x201000000 : Nat).testBit e.tag.bit with
    | false => rfl
    | true => rw [and_zero_bit hn hb] at he; exact absurd he (by decide)

theorem apply_keeps_out (e : Eff) (s : State) (h : (0x100000000 : Nat).testBit e.tag.bit = false) : (apply e s).out = s.out := by
  cases e with
  | out x => exact absurd (show (0x100000000 : Nat).testBit 32 = false from h) (by decide)
  | wor b f => cases b <;> rfl
  | ownerBlow k d => simp only [apply]; split <;> rfl
  | _ => rfl

theorem Via.out {n : Nat} {s t : State} (h : Via n s t) (hn : n &&& 0x100000000 = 0) : t.out = s.out := by
  induction h with
  | refl => rfl
  | step _ e he ih =>
    rw [apply_keeps_out e _ ?_, ih]
    cases hb : (0x100000000 : Nat).testBit e.tag.bit with
    | false => rfl
    | true => rw [and_zero_bit hn hb] at he; exact absurd he (by decide)

theorem apply_keeps_pending (e : Eff) (s : State) (h : (0x0 : Nat).testBit e.tag.bit = false) : (apply e s).pending = s.pending := by
  cases e with
  | wor b f => cases b <;> rfl
  | ownerBlow k d => simp only [apply]; split <;> rfl
  | _ => rfl

theorem Via.pending {n : Nat} {s t : State} (h : Via n s t) (hn : n &&& 0x0 = 0) : t.pending = s.pending := by
  induction h with
  | refl => rfl
  | step _ e he ih =>
    rw [apply_keeps_pending e _ ?_, ih]
    cases hb : (0x0 : Nat).testBit e.tag.bit with
    | false => rfl
    | true => rw [and_zero_bit hn hb] at he; exact absurd he (by decide)

/-- A register of a kind that the footprint leaves out keeps its word. -/
theorem Via.word {n : Nat} {s t : State} (h : Via n s t) (k : RegKind) (ix : List Nat) (hk : n.testBit (64 + k.ctorIdx) = false)
    (hn : n &&& 0x200000001 = 0) : regWord t k ix = regWord s k ix := by
  induction h with
  | refl => rfl
  | step _ e he ih =>
    rw [← ih]
    cases e with
    | reg f v =>
      refine regWord_reg_kind _ f v k ix fun hf => ?_
      subst hf
      rw [show (Eff.reg f v).tag.bit = 64 + f.k.ctorIdx from rfl, hk] at he
      exact absurd he (by decide)
    | regsReset d => exact absurd he (by rw [show (Eff.regsReset d).tag.bit = 0 from rfl, and_zero_bit hn (by decide)]; decide)
    | por => exact absurd he (by rw [show Eff.por.tag.bit = 33 from rfl, and_zero_bit hn (by decide)]; decide)
    | wor b f => cases b <;> rfl
    | ownerBlow m d => simp only [apply]; split <;> rfl
    | _ => rfl

/-- A field of a register of a kind that the footprint leaves out keeps its value. -/
theorem Via.rd {n : Nat} {s t : State} (h : Via n s t) (f : Fld) (hk : n.testBit (64 + f.k.ctorIdx) = false) (hn : n &&& 0x200000001 = 0) :
    t.rd f = s.rd f := by
  unfold State.rd
  rw [h.word f.k f.ix hk hn]

/-- Tags that change a part. -/
def Part.mask : Part → Nat
  | .mono => 0x400
  | .time => 0x200000c00
  | .seen => 0x200001000
  | .free => 0x2000
  | .fuses => 0xe0000000
  | .nor => 0x2000000
  | .super => 0x4000000
  | .settings => 0x8000000
  | .latch => 0x10000000
  | .hs => 0x4000
  | .ctl => 0x200008000
  | .bytes => 0x200000006
  | .mem => 0x20000000e
  | .vlt => 0x200000010
  | .arrs => 0x200000220
  | .cores => 0x200000240
  | .strs => 0x200000280
  | .ques => 0x200000300
  | .host => 0x200010000
  | .fab => 0x200020000
  | .pw => 0x200040000
  | .watch => 0x200080000
  | .rcd => 0x200100000
  | .wor => 0x200200000
  | .upd => 0x200400000
  | .qs => 0x200800000
  | .sec => 0x201000000
  | .out => 0x100000000

theorem Via.same {n : Nat} {s t : State} (h : Via n s t) (p : Part) (hp : n &&& p.mask = 0) : p.same s t := by
  cases p
  case mono => exact h.clkMono hp
  case time => exact h.time hp
  case seen => exact h.seen hp
  case free => exact h.free hp
  case fuses => exact h.fuses hp
  case nor => exact h.nor hp
  case super => exact h.super hp
  case settings => exact h.settings hp
  case latch => exact h.latch hp
  case hs => exact h.hs hp
  case ctl => exact h.ctl hp
  case bytes => exact h.bytes hp
  case mem => exact h.mem hp
  case vlt => exact h.vlt hp
  case arrs => exact h.arrs hp
  case cores => exact h.cores hp
  case strs => exact h.strs hp
  case ques => exact h.ques hp
  case host => exact h.host hp
  case fab => exact h.fab hp
  case pw => exact h.pw hp
  case watch => exact h.watch hp
  case rcd => exact h.rcd hp
  case wor => exact ⟨h.worA hp, h.worB hp⟩
  case upd => exact h.upd hp
  case qs => exact h.qs hp
  case sec => exact h.sec hp
  case out => exact h.out hp

/-- A footprint stays within the parts and kinds listed. -/
def footOk (n : Nat) (l : List Part × List RegKind) : Bool :=
  [Part.mono, Part.time, Part.seen, Part.free, Part.fuses, Part.nor, Part.super, Part.settings, Part.latch, Part.hs, Part.ctl, Part.bytes, Part.mem, Part.vlt, Part.arrs, Part.cores, Part.strs, Part.ques, Part.host, Part.fab, Part.pw, Part.watch, Part.rcd, Part.wor, Part.upd, Part.qs, Part.sec, Part.out].all (fun p => l.1.contains p || n &&& p.mask == 0) &&
    (if n &&& 0x200000001 = 0 then regKinds.all fun k => l.2.contains k || !n.testBit (64 + k.ctorIdx) else regKinds.all l.2.contains)

theorem mem_regKinds (k : RegKind) : k ∈ regKinds := by cases k <;> decide

/-- What a run with a footprint leaves unchanged. -/
theorem Via.frame {n : Nat} {s t : State} {l : List Part × List RegKind} (h : Via n s t) (hl : footOk n l = true) : Frame l s t := by
  simp only [footOk, Bool.and_eq_true, List.all_eq_true] at hl
  refine ⟨h.pending (Nat.and_zero _), fun p hp => h.same p ?_, fun k ix hk => ?_⟩
  · have := hl.1 p (by cases p <;> decide)
    simpa [hp] using this
  · have h2 := hl.2
    split at h2
    · rename_i hn
      have := List.all_eq_true.1 h2 k (mem_regKinds k)
      simp [hk] at this
      exact h.word k ix this hn
    · exact absurd (by simpa using List.all_eq_true.1 h2 k (mem_regKinds k)) hk

/-- A meaning's action with a footprint. -/
theorem act_via {n : Nat} {b : Bool} {s t : State} {m : M s Unit} (h : act b s m = .next t) (hm : Within n m) : Via n s t := by
  obtain ⟨-, rfl⟩ := (act_next b s t m).1 h
  exact hm.via ⟨s, Reach.refl⟩

end Sys2Proof.Machine
end

