-- ==== Sys2Proof/Laws/Run.lean ====
section
/-!
SUPPORT. What each primitive of a meaning does when it runs on a state, and completion of a command from what its do-block leaves. The run
lemmas are rewrite rules for simp; they are no simp lemmas of their own, so that a proof chooses them. What a shared operation leaves alone
follows from its footprint lemma: `(op_in ..).via x` has one statement per part of State.
-/

namespace Sys2Proof.Machine

open Sys2Proof

variable {o : State} {α β : Type}

theorem does_intro {i : Instr} {s : State} {b : Bool} {m : M s Unit} {E : State → Prop} (h : exec i s = act b s m) (hb : b = true)
    (hE : E (m ⟨s, Reach.refl⟩).2.1) : Does i s E := by
  subst hb; exact ⟨_, h, hE⟩

theorem setF_run (f : Fld) (x : Trace o) : (setF f : M o Unit) x = ((), ⟨apply (.reg f 1) x.1, Reach.step x.2 _⟩) := id rfl

theorem wrB_run (f : Fld) (b : Bool) (x : Trace o) : (wrB f b : M o Unit) x =
    ((), ⟨apply (.reg f (if b then 1 else 0)) x.1, Reach.step x.2 _⟩) := id rfl

theorem mark_run (k : Nat) (x : Trace o) : (mark k : M o Unit) x = ((), ⟨apply (.seen k x.1.clk.mono) x.1, Reach.step x.2 _⟩) := id rfl

theorem seenAt_run (k : Nat) (x : Trace o) : (seenAt k : M o Nat) x = (tget 0 x.1.clk.seen k, x) := id rfl

theorem advTo_run (t : Nat) (x : Trace o) : (advTo t : M o Unit) x =
    ((), ⟨apply (.pass (t - x.1.clk.mono)) x.1, Reach.step x.2 _⟩) := id rfl

theorem arr_run (p n : Nat) (x : Trace o) : (arr p n : M o Arr) x = (tget Arr.init x.1.arrs (24*p+n), x) := id rfl

theorem core_run (p n : Nat) (x : Trace o) : (core p n : M o Core) x = (tget Core.init x.1.cores (48*p+n), x) := id rfl

theorem strm_run (p n : Nat) (x : Trace o) : (strm p n : M o Str) x = (tget Str.init x.1.strs (16*p+n), x) := id rfl

theorem que_run (p n : Nat) (x : Trace o) : (que p n : M o Que) x = (tget Que.init x.1.ques (1024*p+n), x) := id rfl

theorem ctx_run (p : Nat) (x : Trace o) : (ctx p : M o Ctx) x = (tget Ctx.init x.1.host.ctx p, x) := id rfl

theorem upArr_run (p n : Nat) (f) (x : Trace o) : (upArr p n f : M o Unit) x =
    ((), ⟨apply (.arr (24*p+n) f) x.1, Reach.step x.2 _⟩) := id rfl

theorem upCore_run (p n : Nat) (f) (x : Trace o) : (upCore p n f : M o Unit) x =
    ((), ⟨apply (.core (48*p+n) f) x.1, Reach.step x.2 _⟩) := id rfl

theorem upStr_run (p n : Nat) (f) (x : Trace o) : (upStr p n f : M o Unit) x =
    ((), ⟨apply (.str (16*p+n) f) x.1, Reach.step x.2 _⟩) := id rfl

theorem upQue_run (p n : Nat) (f) (x : Trace o) : (upQue p n f : M o Unit) x =
    ((), ⟨apply (.que (1024*p+n) f) x.1, Reach.step x.2 _⟩) := id rfl

theorem rd_self (s : State) (f : Fld) (v : Nat) (h : f.plain = true) : (apply (.reg f v) s).rd f = v % 2 ^ f.w := rd_reg_self s f v h

theorem periodic_run (k p : Nat) (x : Trace o) : (periodic k p : M o Unit) x =
    ((), ⟨apply (.seen k (apply (.pass (tget 0 x.1.clk.seen k + p - x.1.clk.mono)) x.1).clk.mono)
      (apply (.pass (tget 0 x.1.clk.seen k + p - x.1.clk.mono)) x.1), Reach.step (Reach.step x.2 _) _⟩) := id rfl

theorem barReg_fin {src : Src} {k : RegKind} {ix : List Nat} {v : Nat} {put : M o Bool} {x : Trace o} (h : Passes x.1 src (regOff k ix))
    (hw : writable k = true) : ∃ r, (barReg src k ix v put x) = (wordRec src (regOff k ix) v r) (put x).2 := by
  obtain ⟨h1, h2, h3, h4, h5, h6⟩ := h
  have h7 : ((decide (src = .worA) || decide (src = .worB)) && commandOnly (regOff k ix)) = false := by
    cases src <;> simp at h5 ⊢ <;> simp_all
  have h8 : ¬ (x.1.ctl.mode = .off ∨ (x.1.ctl.mode = .mfgTest ∧ src ≠ .bar0)) := by
    rintro (h | ⟨h, h'⟩)
    · exact h2 h
    · rcases h3 with h3 | h3
      · exact h' h3
      · exact h3 h
  have h9 : ¬ (src = .bar0 ∧ ideBlocks x.1 = true) := by rintro ⟨h, h'⟩; simp [h4 h] at h'
  refine ⟨if !(put x).1 then WR.REFUSED else if v &&& regMask k = v then WR.APPLIED else WR.RSV, ?_⟩
  simp only [barReg, recorded, barAccess, M.bind_run, st_run, ite_run, if_neg h8, if_neg h9, h7, h6, regResult, hw, M.pure_run]
  cases hp : (put x).1 <;> simp

theorem barReg_does {i : Instr} {s : State} {E : State → Prop} {src : Src} {k : RegKind} {ix : List Nat} {v : Nat} {put : M s Bool}
    (he : exec i s = act i.wf s (barReg src k ix v put)) (hwf : i.wf = true) (h : Passes s src (regOff k ix)) (hw : writable k = true)
    (hE : ∀ r, E ((wordRec src (regOff k ix) v r) (put ⟨s, Reach.refl⟩).2).2.1) : Does i s E := by
  rw [hwf] at he
  refine ⟨_, he, ?_⟩
  obtain ⟨r, hr⟩ := barReg_fin (x := ⟨s, Reach.refl⟩) (put := put) (v := v) h hw
  show E (barReg src k ix v put ⟨s, Reach.refl⟩).2.1
  rw [hr]; exact hE r

theorem putFlds_keep (k : RegKind) (ix : List Nat) (v : Nat) (l : List FldRow) (x : Trace o) :
    (putFlds k ix v l x).2.1.ctl = x.1.ctl ∧ (putFlds k ix v l x).2.1.fab = x.1.fab ∧ (putFlds k ix v l x).2.1.nv = x.1.nv ∧
    (putFlds k ix v l x).2.1.host = x.1.host ∧ (putFlds k ix v l x).2.1.clk = x.1.clk ∧ (putFlds k ix v l x).2.1.qs = x.1.qs ∧
    (∀ f : Fld, f.k ≠ k → (putFlds k ix v l x).2.1.rd f = x.1.rd f) := by
  induction l generalizing x with
  | nil => simp [putFlds, M.pure_run]
  | cons f l ih =>
    unfold putFlds
    simp only [M.bind_run]
    obtain ⟨h1, h2, h3, h4, h5, h6, h7⟩ := ih ((match f.acc with
    | .rw => wr ⟨k, ix, f.lo, f.w⟩ (fget v f.lo f.w)
    | .rw1c => do
      let cur ← rd ⟨k, ix, f.lo, f.w⟩
      wr ⟨k, ix, f.lo, f.w⟩ (cur - (cur &&& (fget v f.lo f.w)))
    | _ => pure () : M o Unit) x).2
    refine ⟨h1.trans ?_, h2.trans ?_, h3.trans ?_, h4.trans ?_, h5.trans ?_, h6.trans ?_, fun g hg => (h7 g hg).trans ?_⟩ <;>
      cases f.acc <;> simp [M.pure_run, M.bind_run, wr_run, rd_run]
    all_goals (rw [rd_reg_kind]; exact hg)

theorem barField_does {i : Instr} {s : State} {E : State → Prop} {src : Src} {f : Fld} {v : Nat} {put : Nat → M s Bool}
    (he : exec i s = act i.wf s (barField src f v put)) (hwf : i.wf = true)
    (h : Passes s src (regOff f.k f.ix)) (hw : writable f.k = true)
    (hE : ∀ r w, w = fset ((regWord s f.k f.ix).toNat &&& rwMask f.k) f.lo f.w v →
      E ((wordRec src (regOff f.k f.ix) w r) (put w ⟨s, Reach.refl⟩).2).2.1) : Does i s E := by
  rw [hwf] at he
  refine ⟨_, he, ?_⟩
  have e : barField src f v put ⟨s, Reach.refl⟩ =
      barReg src f.k f.ix (fset ((regWord s f.k f.ix).toNat &&& rwMask f.k) f.lo f.w v) (put (fset ((regWord s f.k f.ix).toNat &&& rwMask f.k) f.lo f.w v)) ⟨s, Reach.refl⟩ := by
    unfold barField; rfl
  obtain ⟨r, hr⟩ := barReg_fin (x := ⟨s, Reach.refl⟩)
    (put := put (fset ((regWord s f.k f.ix).toNat &&& rwMask f.k) f.lo f.w v)) (v := fset ((regWord s f.k f.ix).toNat &&& rwMask f.k) f.lo f.w v) h hw
  show E (barField src f v put ⟨s, Reach.refl⟩).2.1
  rw [e, hr]; exact hE r _ rfl

end Sys2Proof.Machine
end

