-- ==== Sys2Proof/Tests/Slice0.lean ====
section
/-!
SUPPORT. Tests: every check of WellFormed refuses an ill-formed command, the worked examples of the spec come out as the spec prints them, and
for every statement of Certificates/Slice0/Obligations.lean with hypotheses there are a concrete state and operands that meet them.
-/

set_option Elab.async false

namespace Sys2Proof.Tests

open Sys2Proof Sys2Proof.Machine

/-! Small states. -/

/-- Fields written one after another. -/
def regs1 (l : List (Fld × Nat)) (s : State) : State := l.foldl (fun s x => apply (.reg x.1 x.2) s) s

/-- No unit fails its self-test. -/
def goodTest : TestEnv := ⟨[], [], [], [], [], [], []⟩

/-- A start without a fault, in band 15. -/
def goodStart : StartEnv :=
  { rails := true, pll := true, clkMode := 2, straps := [(0x2C58, 0x2C58)], ladder := [List.replicate 16 62], fuseOk := true, superOk := true,
    trainNor := true, trainVault := true, devs := List.replicate 32 7, ladder2 := [List.replicate 16 62], link := true, test := goodTest,
    guardBad := [], fwOk := true, fwVault := false }

/-- A phase that runs no unit. -/
def ph0 : Phase :=
  { num := 1, opid := 5, decl := 100, fabric := false, pref := 7, args := [], argQ := 0xFFFF, units := [], ended := [], queues := [], timers := [],
    rot := [], admitted := false, enterAt := 0, admitAt := 0, kAdmit := 7, slotPref := (0, 7), held := 0, meas := 0, stopping := false, outcome := none }

/-- Array n of partition p stands at instruction x at program counter 5. -/
def atArr (p n x : Nat) (f : Arr → Arr) (s : State) : State :=
  let s := regs1 [(R.PART_ARR_STAT.PC p n, 5), (R.PART_ARR_STAT.STATE p n, US.RUN), (R.PART_ARR_STAT.PAIR p n, 0), (R.PART_TOP_STAT.UNAVAIL p, 0),
    (R.PART_ENG_RST_STAT.BUSY p, 0)] s
  let s := { s with ctl.rungs := [], mem.errs := [], mem.stale := [] }
  let s := apply (.arr (24 * p + n) fun a => f { a with
    ctx := some 0, tiles := [], outBuf := [], bank0 := Acc.free, bank1 := Acc.free, obank0 := Acc.free, obank1 := Acc.free, len := 100 }) s
  apply (.write (storeBase p n + 80) (leBytes 16 x)) { s with watch := s.watch }

/-- Queue q of partition p, wired between two units, with k published slots and credit c. -/
def wire (p q prod cons k c : Nat) (s : State) : State :=
  let s := regs1 [(R.PART_Q_CFG.VALID p q, 1), (R.PART_Q_CFG.REMOTE p q, 0), (R.PART_Q_CFG.DEPTH_LOG2 p q, 4), (R.PART_Q_CFG.BASE p q, 256),
    (R.PART_Q_ENDS.PROD p q, prod), (R.PART_Q_ENDS.CONS p q, cons), (R.PART_Q_OCC.OCC p q, k), (R.PART_Q_CREDIT.CREDIT p q, c)] s
  apply (.que (1024 * p + q) fun x => { x with rd := 3, rel := 3, pub := 3 + k, wr := 3 + k }) s

/-- Streamer k of partition p stands at descriptor 3 of a list in tier 0. -/
def atStr (p k : Nat) (w : List Nat) (s : State) : State :=
  let s := regs1 [(R.PART_STR_STAT.DESC p k, 3), (R.PART_STR_STAT.STATE p k, US.RUN), (R.PART_TOP_STAT.UNAVAIL p, 0),
    (R.PART_ENG_RST_STAT.BUSY p, 0)] s
  let s := { s with ctl.rungs := [], ctl.mode := .run, mem.errs := [], mem.stale := [], mem.badPages := [] }
  let s := apply (.str (16 * p + k) fun a => { a with list := 0x5000, run := StrRun.init, ctx := some 0 }) s
  apply (.write (0x5000 + 192) (w.flatMap (leBytes 8))) s

/-- General core g of partition p runs at word 9. -/
def atCore (p g : Nat) (f : Core → Core) (s : State) : State :=
  let s := regs1 [(R.PART_CORE_STAT.PC p g, 9), (R.PART_CORE_STAT.STATE p g, US.RUN), (R.PART_CORE_STAT.INH p g, 0), (R.PART_TOP_STAT.UNAVAIL p, 0),
    (R.PART_ENG_RST_STAT.BUSY p, 0)] s
  let s := { s with ctl.rungs := [], ctl.mode := .run, mem.errs := [], mem.stale := [], mem.badPages := [] }
  apply (.core (48 * p + g) fun a => f { a with ctx := some 0, popped := [], acquired := [] }) s

/-- An operation in flight. -/
def mkOp (opid ring : Nat) (st : OpSt) (w : List Nat) : Op :=
  { opid := opid, ring := ring, words := w.map (BitVec.ofNat 64), st := st, status := 0, detail := 0, unit := 0, info0 := 0, info1 := 0, energy := 0,
    moved := 0, ready := false, after := [] }

/-- The operations in flight. -/
def withOps (l : List Op) (s : State) : State := { s with host.ops := l }

/-- This module is FA 9 at location 3, FA 5 is at location 4, and port 3 alone is UP. -/
def fabNet (s : State) : State :=
  let s := regs1 ([(R.FZ_BANK_STAT.ACTIVE, 0), (R.FZ_BANK_STAT.HOLD, 0), (R.FZ_BANK_STAT.READY, 0), (R.FZ_SELF.VALID, 1), (R.FZ_SELF.FA, 9),
    (R.FZ_SELF.GEN, 2), (R.FZ_MEMBER.LAPSED, 0), (R.RST_STRAP.LOC, 3), (R.FZ_RT_CFG.NM_EN, 0), (R.FZ_TIME_STAT.TSTATE, 2)] ++
    (List.range 36).flatMap fun n => [(R.FZ_PORT_STAT.STATE n, if n = 3 then 4 else 0), (R.FZ_PORT_STAT.SUBST n, 0)]) s
  { s with
    ctl.mode := .run
    ctl.rungs := []
    mem.errs := []
    fab := { s.fab with
      down := []
      inbox := []
      toSend := []
      bank0 := { s.fab.bank0 with
        dir := [(5, BitVec.ofNat 64 (2 ^ 63 + 2 ^ 52 + 4 * 2 ^ 32)), (9, BitVec.ofNat 64 (2 ^ 63 + 2 * 2 ^ 52 + 3 * 2 ^ 32))]
        ch := []
        gl := []
        gw := [] } } }

/-- The recorder's open page has room and every bucket is full. -/
def evRoom (s : State) : State :=
  let s := regs1 [(R.EVT_STATUS.FULL, 0)] s
  { s with rcd := { s.rcd with tokens := [], cfg := [], stage := [⟨3, leBytes 4 5, false, 7⟩] } }

/-- A Worisy request with SEQ 7. -/
def wr0 (port lgen : Nat) : WReq := ⟨port, 7, 0x1234, lgen, false, false⟩

/-- Port B holds the lease in generation 0x17. -/
def held (s : State) : State :=
  let s := regs1 [(R.RST_LEASE.HOLDER, 2), (R.RST_LEASE.LGEN, 0x17), (R.RST_LEASE.GUARD, 0), (R.RST_LEASE.LAST, 1), (R.UPD_STAT.STATE, 0)] s
  { s with ctl.mode := .run, worA.kept := [], worB.kept := [] }

/-- An array instruction: opcode and fields as (value, lowest bit). -/
def ins (op : Nat) (l : List (Nat × Nat)) : Nat := l.foldl (fun a e => a + e.1 * 2 ^ e.2) (op * 2 ^ 122)

/-- No register listed: every register reads its reset word, whose RSV bits are 0. -/
theorem regs_wf_reset : Regs.wf { State.reset with pending := [.mate] } := by
  have h4 : ∀ n < 4, (BitVec.ofNat 32 (4 * n)).toNat &&& regMask .MEM_BAR4_WINw = (BitVec.ofNat 32 (4 * n)).toNat := by decide
  intro k ix
  show (BitVec.ofNat 32 (resetWord k ix)).toNat &&& regMask k = (BitVec.ofNat 32 (resetWord k ix)).toNat
  cases k
  case MEM_BAR4_WINw => exact h4 _ (Nat.mod_lt _ (by decide))
  case HIF_MSIX =>
    simp only [resetWord]
    split <;> decide
  all_goals
    show (BitVec.ofNat 32 (resetFlds (regRow _).flds)).toNat &&& _ = (BitVec.ofNat 32 (resetFlds (regRow _).flds)).toNat
    decide

/-! Worked examples of the spec. -/

/-- The record of chapter 1's codebook example: header, scale, eight entries, the first three index bytes. -/
def cb3 : List Byte := [0x20, 0x7B, 0xC0, 0xB8, 0xB0, 0xA0, 0x20, 0x30, 0x38, 0x40, 0xC7, 0x1A, 0x8B]

theorem test_codebook_indices : (List.range 8).map (packedAt 3 (leNat (cb3.drop 10))) = [7, 0, 3, 5, 1, 6, 2, 4] := by decide

theorem test_codebook_entries : (cbElems 0x14 cb3).take 8 =
    [0x40, 0xC0, 0xA0, 0x30, 0xB8, 0x38, 0xB0, 0x20].map (decodeElem F.E4M3) := by decide +kernel

theorem test_tile_word :
    let x := 0x0505002880000083D000008000000000
    insOpc x = 1 ∧ tilePm x = 1 ∧ tileFx x = 0 ∧ tileFw x = 0x14 ∧ tileXk x = false ∧ tileX x = 40 ∧ tileWk x = true ∧ tileW x = 0 ∧
      tileKb x = 32 ∧ tileLsb x = -48 ∧ tileInit x = 0 ∧ tileInitSrc x = 0 ∧ tileBsel x = 1 := by decide

theorem test_block_one : cellUnit F.E4M3 F.E2M1 (-40)
    [⟨[0x3C, 0xAA, 0x54, 0x02].map (decodeElem F.E4M3) ++ List.replicate 28 (.fin false 0), 0x7D⟩]
    [⟨[0x5, 0xC, 0x1, 0x7].map (decodeElem F.E2M1) ++ List.replicate 28 (.fin false 0), 0x80⟩] (⟨0, 0⟩, false, false) =
    (⟨BitVec.ofInt 128 (1427 * 2 ^ 32), 99⟩, false, false) := by decide +kernel

theorem test_block_two : (cellUnit F.E4M3 F.E2M1 (-40)
    [⟨decodeElem F.E4M3 0xFE :: List.replicate 31 (.fin false 0), 0x7F⟩]
    [⟨decodeElem F.E2M1 0x6 :: List.replicate 31 (.fin false 0), 0x7C⟩] (⟨BitVec.ofInt 128 (1427 * 2 ^ 32), 99⟩, false, false)).1 =
    ⟨BitVec.ofInt 128 (-55917 * 2 ^ 32), 43⟩ := by decide +kernel

theorem test_meets_lane_sums_do_not_depend_on_order : ∃ l₁ l₂ : List (BitVec 128), l₁.Perm l₂ ∧ l₁.length ≤ 65534 ∧
    (∀ v ∈ l₁, laneSpecial v = true ∨ (laneInt v).natAbs < 2 ^ 111) := by
  refine ⟨[1#128, specialLane 3, 2596148429267413814265248164610047#128], [2596148429267413814265248164610047#128, specialLane 3, 1#128],
    (List.reverse_perm [1#128, specialLane 3, 2596148429267413814265248164610047#128]).symm, by simp, ?_⟩
  intro v hv
  simp only [List.mem_cons, List.not_mem_nil, or_false] at hv
  rcases hv with rfl | rfl | rfl
  · right; decide
  · left; decide
  · right; decide

theorem test_output_bf16 : (encodeVal F.BF16 .rne (-55917 * 2 ^ 32) (-40)).1 = 0xC35A := by decide +kernel

theorem test_unit_identifiers : uidOf 2 0 0 = 0x4000 ∧ uidOf 2 1 0 = 0x4400 ∧ uidOf 2 1 2 = 0x4402 ∧ uidOf 2 2 0 = 0x4800 ∧ uidOf 2 2 1 = 0x4801 := by
  decide

theorem test_tier0_channel : channel0 0x481234A40 = 56 ∧ (chan0 0x1234A40).2 = 0x123440 ∧ channel0 0x481234B40 = 57 := by decide

/-- R136: every syndrome of a DRAM codeword of 64 data bytes and of an SRAM codeword of 32 is 0. -/
theorem test_codewords : (∀ j < 4, syndrome j (rsWord 4 ((List.range 64).map fun i => BitVec.ofNat 8 (7 * i + 3))) = 0) ∧
    ∀ j < 2, syndrome j (rsWord 2 ((List.range 32).map fun i => BitVec.ofNat 8 (11 * i + 5))) = 0 := by decide +kernel

theorem test_header_word : 0x1 * 2 ^ 60 + 1 * 2 ^ 56 + 0x2C * 2 ^ 48 + 0x32B17 * 2 ^ 28 + 0x091A4 * 2 ^ 8 + 5 * 2 ^ 4 = 0x112C32B17091A450 ∧
    (let k : Pkt := ⟨0x112C32B17091A450#64, 0, 0, 0, [], 0⟩
     hTYPE k = 1 ∧ hVC k = 0 ∧ hEPOCH k = 1 ∧ hGEN k = 0x2C ∧ hDST k = 0x32B17 ∧ hSRC k = 0x091A4 ∧ hOCH k = 5 ∧ hDPART k = 0) := by decide

theorem test_minimal_link : linkIdx 37 812 = 774 ∧ 774 / 4 = 193 ∧ linkLand 774 = 62 ∧ linkIdx 37 500 = 462 ∧ linkIdx 500 812 = 311 := by decide

theorem test_local_ports : localPort (16 * 10 + 7) (16 * 10 + 1) = 1 ∧ localPort (16 * 10 + 1) (16 * 12 + 1) = 26 ∧
    localPort (16 * 3 + 14) (16 * 3 + 8) = 8 ∧ localPort (16 * 3 + 8) (16 * 5 + 8) = 19 := by decide

theorem test_thermal_clip : thermW 240 22000000 = 2954 ∧ thermW 240 29000000 = 2241 := by decide

theorem test_strap_word : (regWord (regs1 [(R.RST_STRAP.VALID, 1), (R.RST_STRAP.CLK_MODE, 0), (R.RST_STRAP.BOOT_SRC, 3), (R.RST_STRAP.LOC, 0x32C58)]
    State.reset) .RST_STRAP []).toNat = 0x8C032C58 := by decide +kernel

theorem test_ladder_word : (regWord (regs1 [(R.RST_LADDER.VALID, 1), (R.RST_LADDER.CODE, 21), (R.RST_LADDER.BAND, 5)] State.reset)
    .RST_LADDER []).toNat = 0x95500000 := by decide +kernel

theorem test_bar4_window : bar4Addr (regs1 [(R.MEM_BAR4_WINw.EN 0, 1), (R.MEM_BAR4_WINw.BASE 0, 0x80)] State.reset) 0x108A10000 256 =
    some (storeBase 2 5 + 0x100 * 256) := by decide +kernel

/-- Table 11-5, step 6: a claim after the lease of generation 0x17 has ended takes 0x18. -/
theorem test_lease_generation : (match exec (.leaseClaim (wr0 0 0)) (regs1 [(R.RST_LEASE.HOLDER, 0)] (held State.reset)) with
    | .next t => decide (t.rd R.RST_LEASE.LGEN = 0x18 ∧ t.rd R.RST_LEASE.HOLDER = 1)
    | _ => false) = true := by decide +kernel

/-- R407: after the holder's release the released port's claim and the other port's claim are in order as frames. -/
theorem test_release_then_claims : (match exec (.leaseRelease (wr0 1 0x17)) (held State.reset) with
    | .next t => decide (FreeReq t { wr0 1 0 with seq := 8 } WC.LEASE_CLAIM) && decide (FreeReq t (wr0 0 0) WC.LEASE_CLAIM)
    | _ => false) = true := by decide +kernel

/-- Chapter 9's example: physical arrays 7 and 12 of P5 bad, A6 stands on 6, A7 on 8, A10 on 11, A12 on 14. -/
theorem test_good_arrays : (goodOf 26 [7, 12]).length = 24 ∧
    [6, 7, 10, 11, 12, 23].map ((goodOf 26 [7, 12])[·]?) = [some 6, some 8, some 11, some 13, some 14, some 25] := by decide

/-! Ill-formed commands are refused, one for each check of WellFormed. -/

theorem test_refused_0 : ∀ i ∈ ([
    .hostFwGo .peer,
    .contextReset .host 64,
    .clrFails .peer,
    .blockIdle (.partition 8),
    .blockIdle (.engine 8),
    .idleTExpiry (.partition 8),
    .idleTExpiry (.engine 8),
    .partitionResetDone 8 goodTest,
    .engineReset .peer 0 0,
    .engineReset .bar0 8 0,
    .arrayNop 8 0,
    .arrayNop 0 24,
    .tile 8 0 Flt.none,
    .tile 0 24 Flt.none,
    .residueSweep 8 0 0 Flt.none,
    .residueSweep 0 24 0 Flt.none,
    .bankComplete 8 0 Flt.none,
    .bankComplete 0 24 Flt.none,
    .emit 8 0 Flt.none,
    .emit 0 24 Flt.none,
    .ldcb 8 0 Flt.none,
    .ldcb 0 24 Flt.none,
    .setseed 8 0,
    .setseed 0 24,
    .setb 8 0,
    .setb 0 24,
    .addb 8 0,
    .addb 0 24,
    .setlc 8 0,
    .setlc 0 24,
    .loop 8 0,
    .loop 0 24] : List Instr), Instr.wf i = false := by decide +kernel

theorem test_refused_1 : ∀ i ∈ ([
    .waitq 8 0,
    .waitq 0 24,
    .postq 8 0,
    .postq 0 24,
    .brq 8 0 Flt.none,
    .brq 0 24 Flt.none,
    .jump 8 0,
    .jump 0 24,
    .arrayRotpt 8 0,
    .arrayRotpt 0 24,
    .arrayEnd 8 0,
    .arrayEnd 0 24,
    .slotPublish 8 0,
    .slotPublish 0 1024,
    .slotRelease 8 0,
    .slotRelease 0 1024,
    .creditBatchReturn 8 0,
    .creditBatchReturn 0 1024,
    .niSlotSend 8 0 Flt.none,
    .niSlotSend 0 1024 Flt.none,
    .streamerNop 8 0,
    .streamerNop 0 16,
    .streamerCopy 8 0 Flt.none,
    .streamerCopy 0 16 Flt.none,
    .gather 8 0 Flt.none,
    .gather 0 16 Flt.none,
    .scatter 8 0 Flt.none,
    .scatter 0 16 Flt.none,
    .pgather 8 0 Flt.none,
    .pgather 0 16 Flt.none,
    .pscatter 8 0 Flt.none,
    .pscatter 0 16 Flt.none] : List Instr), Instr.wf i = false := by decide +kernel

theorem test_refused_2 : ∀ i ∈ ([
    .sync 8 0,
    .sync 0 16,
    .streamerEnd 8 0,
    .streamerEnd 0 16,
    .slopeGrant 2,
    .brambleAction 64 0,
    .ewcInstruction 8 0 .illegal Flt.none,
    .ewcInstruction 0 48 .illegal Flt.none,
    .ewcInstruction 0 0 (.alu .add 32 0 0) Flt.none,
    .ewcInstruction 0 0 (.alu .add 0 32 0) Flt.none,
    .ewcInstruction 0 0 (.alu .add 0 0 32) Flt.none,
    .ewcInstruction 0 0 (.li 32 0) Flt.none,
    .ewcInstruction 0 0 (.load 32 0 0 8) Flt.none,
    .ewcInstruction 0 0 (.load 0 32 0 8) Flt.none,
    .ewcInstruction 0 0 (.store 32 0 0 8) Flt.none,
    .ewcInstruction 0 0 (.store 0 32 0 8) Flt.none,
    .ewcInstruction 0 0 (.vload 32 0 0) Flt.none,
    .ewcInstruction 0 0 (.vload 0 32 0) Flt.none,
    .ewcInstruction 0 0 (.vstore 32 0 0) Flt.none,
    .ewcInstruction 0 0 (.vstore 0 32 0) Flt.none,
    .ewcInstruction 0 0 (.vop .add .i32 false 32 0 0 0) Flt.none,
    .ewcInstruction 0 0 (.vop .add .i32 false 0 32 0 0) Flt.none,
    .ewcInstruction 0 0 (.vop .add .i32 false 0 0 32 0) Flt.none,
    .ewcInstruction 0 0 (.vop .add .i32 false 0 0 0 32) Flt.none,
    .ewcInstruction 0 0 (.vred .i32 false 32 0) Flt.none,
    .ewcInstruction 0 0 (.vred .i32 false 0 32) Flt.none,
    .ewcInstruction 0 0 (.vcvt .i32 .i32 false 32 0) Flt.none,
    .ewcInstruction 0 0 (.vcvt .i32 .i32 false 0 32) Flt.none,
    .ewcInstruction 0 0 (.vunpack 0 false 32 0 0 0) Flt.none,
    .ewcInstruction 0 0 (.vunpack 0 false 0 32 0 0) Flt.none,
    .ewcInstruction 0 0 (.vunpack 0 false 0 0 32 0) Flt.none,
    .ewcInstruction 0 0 (.vunpack 0 false 0 0 0 32) Flt.none] : List Instr), Instr.wf i = false := by decide +kernel

theorem test_refused_3 : ∀ i ∈ ([
    .ewcInstruction 0 0 (.vpack 0 false 32 0 0 0) Flt.none,
    .ewcInstruction 0 0 (.vpack 0 false 0 32 0 0) Flt.none,
    .ewcInstruction 0 0 (.vpack 0 false 0 0 32 0) Flt.none,
    .ewcInstruction 0 0 (.vpack 0 false 0 0 0 32) Flt.none,
    .ewcInstruction 0 0 (.br .eq 32 0 0) Flt.none,
    .ewcInstruction 0 0 (.br .eq 0 32 0) Flt.none,
    .csrr 8 0 0 0 Flt.none,
    .csrr 0 48 0 0 Flt.none,
    .csrr 0 0 32 0 Flt.none,
    .csrw 8 0 0 0 Flt.none,
    .csrw 0 48 0 0 Flt.none,
    .csrw 0 0 0 32 Flt.none,
    .ei 8 0 Flt.none,
    .ei 0 48 Flt.none,
    .di 8 0 Flt.none,
    .di 0 48 Flt.none,
    .iret 8 0 Flt.none,
    .iret 0 48 Flt.none,
    .wfi 8 0 Flt.none,
    .wfi 0 48 Flt.none,
    .qwait 8 0 0 0 Flt.none,
    .qwait 0 48 0 0 Flt.none,
    .qwait 0 0 32 0 Flt.none,
    .qwait 0 0 0 1024 Flt.none,
    .qrel 8 0 0 Flt.none,
    .qrel 0 48 0 Flt.none,
    .qrel 0 0 1024 Flt.none,
    .qacq 8 0 0 0 Flt.none,
    .qacq 0 48 0 0 Flt.none,
    .qacq 0 0 32 0 Flt.none,
    .qacq 0 0 0 1024 Flt.none,
    .qpub 8 0 0 Flt.none] : List Instr), Instr.wf i = false := by decide +kernel

theorem test_refused_4 : ∀ i ∈ ([
    .qpub 0 48 0 Flt.none,
    .qpub 0 0 1024 Flt.none,
    .qpoll 8 0 0 0 Flt.none,
    .qpoll 0 48 0 0 Flt.none,
    .qpoll 0 0 32 0 Flt.none,
    .qpoll 0 0 0 1024 Flt.none,
    .qtry 8 0 0 0 Flt.none,
    .qtry 0 48 0 0 Flt.none,
    .qtry 0 0 32 0 Flt.none,
    .qtry 0 0 0 1024 Flt.none,
    .corePostq 8 0 0 0 Flt.none,
    .corePostq 0 48 0 0 Flt.none,
    .corePostq 0 0 1024 0 Flt.none,
    .corePostq 0 0 0 32 Flt.none,
    .mboxw 8 0 0 0 0 Flt.none,
    .mboxw 0 48 0 0 0 Flt.none,
    .mboxw 0 0 48 0 0 Flt.none,
    .mboxw 0 0 0 4 0 Flt.none,
    .mboxw 0 0 0 0 32 Flt.none,
    .mboxr 8 0 0 0 Flt.none,
    .mboxr 0 48 0 0 Flt.none,
    .mboxr 0 0 32 0 Flt.none,
    .mboxr 0 0 0 4 Flt.none,
    .coreRotpt 8 0 Flt.none,
    .coreRotpt 0 48 Flt.none,
    .coreEnd 8 0 Flt.none,
    .coreEnd 0 48 Flt.none,
    .interruptEntry 8 0 Flt.none,
    .interruptEntry 0 48 Flt.none,
    .timerFire 8 0 0,
    .timerFire 0 48 0,
    .timerFire 0 0 2] : List Instr), Instr.wf i = false := by decide +kernel

theorem test_refused_5 : ∀ i ∈ ([
    .mboxWrite .peer 0 0 0 0,
    .mboxWrite .bar0 8 0 0 0,
    .mboxWrite .bar0 0 48 0 0,
    .mboxWrite .bar0 0 0 4 0,
    .serviceCoreWatchdog 2,
    .lockstepMismatch 2,
    .impedanceCalibration 32,
    .driftCheck 32 false,
    .retune 32 false,
    .scrubLate 3,
    .ringEnable .peer 0,
    .ringEnable .bar0 256,
    .ringDisable .peer 0,
    .ringDisable .bar0 256,
    .sqTail 256 0,
    .cqHead 256 0,
    .msixCoalesceTimer 256,
    .fabricAdmitDeadline 64,
    .phaseEnd 64,
    .bindComplete 64 [],
    .serveStart .peer,
    .serveStop .peer,
    .gateStop .peer false,
    .portEnable .peer 0,
    .portEnable .bar0 36,
    .portDisable .peer 0,
    .portDisable .bar0 36,
    .forceHold .peer 0 false,
    .forceHold .bar0 36 false,
    .berNow .peer 0,
    .berNow .bar0 36,
    .linkTrained 36] : List Instr), Instr.wf i = false := by decide +kernel

theorem test_refused_6 : ∀ i ∈ ([
    .ident 36 0 0,
    .identTimeout 36,
    .identRepeat 36,
    .testReq 36,
    .testAck 36,
    .testResult 36 false,
    .berTestDone 36 0,
    .berInterval 36,
    .keepaliveSend 36,
    .portDown 36 0,
    .fecErrorLimit 36 0,
    .flitTimeout 36,
    .retrain 36,
    .portState 0 0 256 0 false,
    .portState 0 0 0 36 false,
    .packetReceive 36 ⟨0, 0, 0, 0, [], 0⟩ ⟨[], [], false⟩,
    .fazarOpTimeout 64 0,
    .directoryWrite .peer 0 0,
    .bankCopy .peer,
    .sealBank .peer,
    .arm .peer,
    .cancel .peer,
    .timeFrame 36 ⟨0, 0, 0, 0, false, 0, 0, 0, 0⟩,
    .timeRootSet .peer,
    .timeSet .peer 0,
    .droopDetect 2,
    .droopRelease 2,
    .droopLong 2,
    .vrAlert 6,
    .hotspotSample [],
    .throttleStep 2 0 0,
    .throttleStep 0 24 0] : List Instr), Instr.wf i = false := by decide +kernel

theorem test_refused_7 : ∀ i ∈ ([
    .throttleRestore 2 0,
    .throttleRestore 0 24,
    .guardTrip 0 0,
    .guardTrip 5 0,
    .guardTrip 1 8,
    .guardSingle 3 1,
    .guardSingle 0 0,
    .guardSingle 0 5,
    .guardSuspect 3 1,
    .guardSuspect 0 0,
    .guardSuspect 0 5,
    .guardSingleRelease 3 1,
    .guardSingleRelease 0 0,
    .guardSingleRelease 0 5,
    .escalate 0 0,
    .escalate 8 0,
    .escalate 1 65536,
    .sweepFail 8 0 0,
    .sweepFail 0 2 0,
    .sweepFail 0 0 26,
    .sweepFail 0 1 52,
    .worisySignalDetect 2,
    .worisySignalLoss 2,
    .worisyFrameError 2,
    .ping (wr0 2 0),
    .info (wr0 2 0),
    .regRead (wr0 2 0) 0 0,
    .regWrite (wr0 2 0) 0 [],
    .evtRead (wr0 2 0) 0 0,
    .measRead (wr0 2 0) 0,
    .leaseClaim (wr0 2 0),
    .leaseRenew (wr0 2 0)] : List Instr), Instr.wf i = false := by decide +kernel

theorem test_refused_8 : ∀ i ∈ ([
    .leaseRelease (wr0 2 0),
    .leaseStatus (wr0 2 0),
    .setClip (wr0 2 0) 0,
    .setRackClip (wr0 2 0) 0,
    .setOpCeil (wr0 2 0) 0 0,
    .flowReport (wr0 2 0) 0,
    .operatorHold (wr0 2 0),
    .operatorHoldRelease (wr0 2 0),
    .reset (wr0 2 0) 0 0 0 0,
    .memberRenew (wr0 2 0),
    .fenceCommand (wr0 2 0),
    .readmit (wr0 2 0) 0,
    .worisyClrFails (wr0 2 0),
    .activate (wr0 2 0) 0 0 0 0,
    .confirm (wr0 2 0),
    .rollback (wr0 2 0),
    .activatePlan (wr0 2 0) 0 0,
    .evtClear (wr0 2 0),
    .ownerChallenge (wr0 2 0),
    .ownerEnroll (wr0 2 0) 0 [] [],
    .ownerRevoke (wr0 2 0) 0 [],
    .setSecurity (wr0 2 0) 0,
    .updateCheck .peer,
    .updateProgram .peer,
    .updateCancel .peer,
    .stagingWrite .peer 0 0,
    .quicksetGo .peer,
    .quicksetCancel .peer,
    .registerWrite .peer 0 4 0,
    .registerWrite .bar0 0x4000000 4 0,
    .registerWrite .bar0 0 0 0,
    .commandDone 2 0] : List Instr), Instr.wf i = false := by decide +kernel

theorem test_refused_by_name : exec (.ringEnable .bar0 256) State.reset = .refused .malformed := rfl

/-! A concrete state and operands that meet the hypotheses of each statement, clause by clause. -/

theorem test_meets_step_runs_front_command :
    (∃ s : State, s.pending = []) := by
  exact ⟨State.reset, by decide +kernel⟩

theorem test_meets_register_map_round_trip :
    (∃ (k : RegKind) (ix : List Nat), dimOk (regRow k).dims ix = true) := by
  exact ⟨.PART_CORE_MBOXn, [7, 47, 3], by decide +kernel⟩

theorem test_meets_well_formed_commands_complete :
    (∃ i : Instr, Instr.wf i = true) ∧
    (∃ i : Instr, Instr.wf i = false) := by
  refine ⟨?_, ?_⟩
  · exact ⟨.mate, by decide +kernel⟩
  · exact ⟨(.ringEnable .bar0 256), by decide +kernel⟩

theorem test_meets_commands_keep_queue_and_outbox :
    (∃ (i : Instr) (s t : State), exec i s = .next t) := by
  exact ⟨.mate, State.reset, _, rfl⟩

theorem test_meets_step_keeps_memory_canonical :
    (∃ s t : State, Memory.wf s = true ∧ step s = .next t) := by
  exact ⟨{State.reset with pending := [.mate]}, _, by decide +kernel, rfl⟩

theorem test_meets_step_keeps_reserved_bits_zero :
    (∃ s t : State, Regs.wf s ∧ step s = .next t) := by
  exact ⟨{State.reset with pending := [.mate]}, _, regs_wf_reset, rfl⟩

theorem test_meets_step_keeps_fused_ceilings :
    (∃ s t : State, Ceilings.wf s ∧ step s = .next t) := by
  exact ⟨{State.reset with pending := [.mate]}, _, by unfold Ceilings.wf; decide +kernel, rfl⟩

theorem test_meets_step_keeps_wear_budget :
    (∃ s t : State, s.vlt.wear ≤ 305000000 ∧ step s = .next t) := by
  exact ⟨{State.reset with pending := [.mate]}, _, by decide +kernel, rfl⟩

theorem test_meets_step_keeps_fused_keys_and_version :
    (∃ s t : State, step s = .next t) ∧
    (∃ (s : State) (k : Nat), (tget OwnerSlot.empty s.nv.fuses.owner k).valid = true ∧ (tget OwnerSlot.empty s.nv.fuses.owner k).revoked = true) := by
  refine ⟨?_, ?_⟩
  · exact ⟨{State.reset with pending := [.mate]}, _, rfl⟩
  · exact ⟨{State.reset with nv.fuses.owner := [(7, ⟨[1], true, true⟩)]}, 7, by decide +kernel⟩

theorem test_meets_step_keeps_lease_holder_last :
    (∃ s t : State, (s.rd R.RST_LEASE.HOLDER = 0 ∨ s.rd R.RST_LEASE.LAST + 1 = s.rd R.RST_LEASE.HOLDER) ∧ step s = .next t) := by
  exact ⟨{State.reset with pending := [.mate]}, _, by decide +kernel, rfl⟩

theorem test_meets_minimal_mode_left_only_by_reset :
    (∃ s t : State, s.ctl.mode = .minimal ∧ step s = .next t) := by
  exact ⟨{State.reset with ctl.mode := .minimal, pending := [.mate]}, _, by decide +kernel, rfl⟩

theorem test_meets_frame_of_supply_reset_power_heat :
    (∃ (i : Instr) (s t : State), i.family ∈ [Family.supply, Family.rungs, Family.start, Family.points, Family.clips, Family.heat,
      Family.guards] ∧ exec i s = .next t) := by
  exact ⟨.mate, State.reset, _, by decide +kernel, rfl⟩

theorem test_meets_frame_of_access_host_and_memory :
    (∃ (i : Instr) (s t : State), i.family ∈ [Family.access, Family.rings, Family.descriptors, Family.gate, Family.tiers] ∧ exec i s = .next t) := by
  exact ⟨(.patrolRead 7 true), State.reset, _, by decide +kernel, rfl⟩

theorem test_meets_frame_of_engines :
    (∃ (i : Instr) (s t : State), i.family ∈ [Family.arrays, Family.queues, Family.streamers, Family.monitor, Family.cores] ∧ exec i s = .next
      t) := by
  exact ⟨(.arrayNop 0 0), State.reset, _, by decide +kernel, rfl⟩

theorem test_meets_frame_of_fabric_management_update :
    (∃ (i : Instr) (s t : State), i.family ∈ [Family.ports, Family.router, Family.streams, Family.banks, Family.collect, Family.clock,
      Family.links, Family.worisy, Family.security, Family.update, Family.quickset] ∧ exec i s = .next t) := by
  exact ⟨.qsSend, State.reset, _, by decide +kernel, rfl⟩

theorem test_meets_register_only_array_instructions_change_one_array :
    (∃ (s : State) (p n x : Nat), ArrAt s p n x ∧ insOpc x = 0) ∧
    (∃ (s : State) (p n x : Nat), ArrAt s p n x ∧ insOpc x = 5) ∧
    (∃ (s : State) (p n x : Nat), ArrAt s p n x ∧ insOpc x = 6) ∧
    (∃ (s : State) (p n x : Nat), ArrAt s p n x ∧ insOpc x = 7) ∧
    (∃ (s : State) (p n x : Nat), ArrAt s p n x ∧ insOpc x = 8) ∧
    (∃ (s : State) (p n x : Nat), ArrAt s p n x ∧ insOpc x = 9) ∧
    (∃ (s : State) (p n x : Nat), ArrAt s p n x ∧ insOpc x = 13) ∧
    (∃ (s : State) (p n x : Nat), ArrAt s p n x ∧ insOpc x = 4 ∧ s.mem.errs = [] ∧ cbBadEntry (ldcbFmt x) ((peek s (storeBase p n + effSlot
      (arrOf s p n) (ldcbBsel x) (ldcbSrc x) * 256) 256).take (cbEntBytes (ldcbFmt x))) = false) := by
  refine ⟨?_, ?_, ?_, ?_, ?_, ?_, ?_, ?_⟩
  · exact ⟨(atArr 1 2 0 id State.reset), 1, 2, 0, by decide +kernel⟩
  · exact ⟨(atArr 1 2 (ins 5 [(2^64-1, 0)]) id State.reset), 1, 2, (ins 5 [(2^64-1, 0)]), by decide +kernel⟩
  · exact ⟨(atArr 1 2 (ins 6 [(8191, 0), (1, 121)]) id State.reset), 1, 2, (ins 6 [(8191, 0), (1, 121)]), by decide +kernel⟩
  · exact ⟨(atArr 1 2 (ins 7 [(8191, 0), (1, 121)]) id State.reset), 1, 2, (ins 7 [(8191, 0), (1, 121)]), by decide +kernel⟩
  · exact ⟨(atArr 1 2 (ins 8 [(65535, 0), (1, 121)]) id State.reset), 1, 2, (ins 8 [(65535, 0), (1, 121)]), by decide +kernel⟩
  · exact ⟨(atArr 1 2 (ins 9 [(99, 0), (1, 121)]) id State.reset), 1, 2, (ins 9 [(99, 0), (1, 121)]), by decide +kernel⟩
  · exact ⟨(atArr 1 2 (ins 13 [(99, 0)]) id State.reset), 1, 2, (ins 13 [(99, 0)]), by decide +kernel⟩
  · exact ⟨(atArr 1 2 (ins 4 [(17, 117), (300, 104)]) id State.reset), 1, 2, (ins 4 [(17, 117), (300, 104)]), by decide +kernel⟩

theorem test_meets_register_only_core_instructions_change_one_core_1 :
    (∃ (s : State) (p g : Nat) (d : Nat) (v : BitVec 64), CoreAt s p g ∧ d < 32) ∧
    (∃ (s : State) (p g : Nat) (op : AluOp) (d a b : Nat), CoreAt s p g ∧ d < 32 ∧ a < 32 ∧ b < 32 ∧ aluOpen op ((coreOf s p g).getX b) = false) ∧
    (∃ (s : State) (p g : Nat) (d a len m : Nat) (off : Int), CoreAt s p g ∧ d < 32 ∧ a < 32 ∧ (len = 1 ∨ len = 2 ∨ len = 4 ∨ len = 8) ∧
      s.mem.errs = [] ∧ coreAddr p g (effAddr (coreOf s p g) a off) len = some m) ∧
    (∃ (s : State) (p g : Nat) (d a m : Nat) (off : Int), CoreAt s p g ∧ d < 32 ∧ a < 32 ∧ s.mem.errs = [] ∧ coreAddr p g (effAddr (coreOf s p
      g) a off) 64 = some m) ∧
    (∃ (s : State) (p g : Nat) (op : VOp) (ty : VTy) (rtz : Bool) (d a b e : Nat), CoreAt s p g ∧ d < 32 ∧ a < 32 ∧ b < 32 ∧ e < 32) ∧
    (∃ (s : State) (p g : Nat) (op : BrOp) (a b tgt : Nat), CoreAt s p g ∧ a < 32 ∧ b < 32 ∧ tgt < 65536) ∧
    (∃ (s : State) (p g : Nat) (d csr : Nat) (v : BitVec 64), CoreAt s p g ∧ d < 32 ∧ csrVal s p g csr = some v) ∧
    (∃ (s : State) (p g : Nat), CoreAt s p g) := by
  refine ⟨?_, ?_, ?_, ?_, ?_, ?_, ?_, ?_⟩
  · exact ⟨(atCore 7 47 (fun c => ((c.setX 5 0x100).setX 6 0xFFFFFFFFFFFFFFFF).setV 3 0x3F80000040000000BF800000) State.reset), 7, 47, 31, 77,
    by decide +kernel⟩
  · exact ⟨(atCore 7 47 (fun c => ((c.setX 5 0x100).setX 6 0xFFFFFFFFFFFFFFFF).setV 3 0x3F80000040000000BF800000) State.reset), 7, 47, .add, 31,
    5, 6, by decide +kernel⟩
  · exact ⟨(apply (.write (locBase 7 47 + 0x108) [1,2,3,4,5,6,7,8,9]) (atCore 7 47 (fun c => c.setX 5 0x100) State.reset)), 7, 47, 31, 5, 8,
    (locBase 7 47 + 0x108), 8, by decide +kernel⟩
  · exact ⟨(apply (.write (locBase 7 47 + 0x100) [1,2,3,4,5,6,7,8,9]) (atCore 7 47 (fun c => c.setX 5 0x100) State.reset)), 7, 47, 31, 5,
    (locBase 7 47 + 0x100), 0, by decide +kernel⟩
  · exact ⟨(atCore 7 47 (fun c => ((c.setX 5 0x100).setX 6 0xFFFFFFFFFFFFFFFF).setV 3 0x3F80000040000000BF800000) State.reset), 7, 47, .fma,
    .fp32, false, 3, 3, 3, 3, by decide +kernel⟩
  · exact ⟨(atCore 7 47 (fun c => ((c.setX 5 0x100).setX 6 0xFFFFFFFFFFFFFFFF).setV 3 0x3F80000040000000BF800000) State.reset), 7, 47, .lt, 6,
    5, 65535, by decide +kernel⟩
  · exact ⟨(atCore 7 47 id State.reset), 7, 47, 31, 0x024, (BitVec.ofNat 64 (uidOf 7 1 47)), by decide +kernel⟩
  · exact ⟨(atCore 7 47 id State.reset), 7, 47, by decide +kernel⟩

theorem test_meets_register_only_core_instructions_change_one_core_2 :
    (∃ (s : State) (p g : Nat), CoreAt s p g) ∧
    (∃ (s : State) (p g : Nat), CoreAt s p g ∧ (coreOf s p g).epc.toNat % 4 = 0 ∧ (coreOf s p g).epc.toNat < 262144) ∧
    (∃ (s : State) (p g : Nat), CoreAt s p g) := by
  refine ⟨?_, ?_, ?_⟩
  · exact ⟨(atCore 7 47 id State.reset), 7, 47, by decide +kernel⟩
  · exact ⟨(regs1 [(R.PART_CORE_STAT.INH 7 47, 1)] (atCore 7 47 (fun c => {c with epc := 262140}) State.reset)), 7, 47, by decide +kernel⟩
  · exact ⟨(atCore 7 47 id State.reset), 7, 47, by decide +kernel⟩

theorem test_meets_stores_touch_only_their_bytes :
    (∃ (s : State) (p g : Nat) (x a len m : Nat) (off : Int), CoreAt s p g ∧ x < 32 ∧ a < 32 ∧ (len = 1 ∨ len = 2 ∨ len = 4 ∨ len = 8) ∧
      s.mem.errs = [] ∧ coreAddr p g (effAddr (coreOf s p g) a off) len = some m) ∧
    (∃ (s : State) (p g : Nat) (x a m : Nat) (off : Int), CoreAt s p g ∧ x < 32 ∧ a < 32 ∧ s.mem.errs = [] ∧ coreAddr p g (effAddr (coreOf s p
      g) a off) 64 = some m) ∧
    (∃ (s : State) (off a : Nat) (b : List Byte) (ide : Bool), bar4Addr s off b.length = some a ∧ ideRefuses s ide = false ∧ s.mem.errs = [] ∧
      chanFailed s a b.length = false) ∧
    (∃ (s : State) (p n x b : Nat), ArrAt s p n x ∧ insOpc x = 2 ∧ lastBank (arrOf s p n) = some b ∧ ((arrOf s p n).bank b).st = .complete ∧
      ((arrOf s p n).bank b).pm = 0 ∧ residueOk ((arrOf s p n).bank b) 0 16384 = true ∧ emitJoin x = false ∧ emitDk x = true ∧ isCb (emitFmt x)
      = false ∧ s.mem.errs = []) ∧
    (∃ (s : State) (p n x : Nat), ArrAt s p n x ∧ insOpc x = 11 ∧ 0 < s.rd (R.PART_Q_CREDIT.CREDIT p (insQ x)) ∧ s.mem.errs = []) ∧
    (∃ (s : State) (opid : Nat) (x : Op) (b : List Byte), opOf s opid = some x ∧ x.opc = OPC.COPY ∧ mayStart s x = true ∧ x.f 3 32 1 = 0 ∧ x.f 3
      33 1 = 1 ∧ x.f 2 0 64 < vaultBase ∧ s.mem.errs = [] ∧ chanFailed s (x.f 2 0 64) (x.f 3 0 32) = false ∧ b.length = x.f 3 0 32) ∧
    (∃ (s : State) (opid : Nat) (x : Op) (b : List Byte) (i : Install), opOf s opid = some x ∧ x.opc = OPC.LOAD ∧ mayStart s x = true ∧ x.first
      = false ∧ x.last = false ∧ s.vlt.held = false ∧ s.vlt.inst = some i ∧ b.length = x.f 3 0 32 ∧ wearUnits b.length ≤ s.vlt.wear ∧ s.vlt.wear
      ≤ 305000000) ∧
    (∃ (s : State) (p : Page), s.rcd.stage = [p] ∧ p.closed = true ∧ s.ctl.doneTrain = true ∧ p.bytes.length ≤ 4096 ∧ p.idx < 16384 ∧ 0 <
      s.vlt.wear ∧ s.vlt.held = false) := by
  refine ⟨?_, ?_, ?_, ?_, ?_, ?_, ?_, ?_⟩
  · exact ⟨(atCore 7 47 (fun c => (c.setX 5 0x100).setX 6 0x123456789ABCDEF0) State.reset), 7, 47, 6, 5, 4, (locBase 7 47 + 0x108), 8,
    by decide +kernel⟩
  · exact ⟨(atCore 7 47 (fun c => (c.setX 5 0x100).setV 6 0x123456789ABCDEF0) State.reset), 7, 47, 6, 5, (locBase 7 47 + 0x140), 64,
    by decide +kernel⟩
  · exact ⟨(regs1 [(R.PART_TOP_STAT.UNAVAIL 0,0),(R.MEM_BAR4_WINw.EN 3,1),(R.MEM_BAR4_WINw.BASE 3,0)]
    {State.reset with nv.settings.ideReq := false, mem.errs := []}), (3 * 2^34 + 0x5001), 0x5001, [7,8,0,9], false, by decide +kernel⟩
  · exact ⟨(atArr 1 2 (ins 2 [(9, 117), (1, 103), (300, 90)]) (fun a =>
    {a with bank1 := {Acc.free with st := .complete, lanes := [(0, ⟨5, 5⟩), (1, ⟨2, 2⟩)]}}) State.reset), 1, 2, (ins 2 [(9, 117), (1, 103),
    (300, 90)]), 1, by decide +kernel⟩
  · exact ⟨(wire 1 1023 (uidOf 1 0 2) 0x2403 2 7 (atArr 1 2 (ins 11 [(1023, 112), (0xFE123457, 32)]) id State.reset)), 1, 2, (ins 11 [(1023,
    112), (0xFE123457, 32)]), by decide +kernel⟩
  · exact ⟨(withOps [mkOp 5 1 .accepted [2, 0x7000, 0x9000, 2 * 2^32 + 3]] {State.reset with mem.errs := []}), 5, (mkOp 5 1 .accepted [2,
    0x7000, 0x9000, 2 * 2^32 + 3]), [7,8,9], by decide +kernel⟩
  · exact ⟨(withOps [mkOp 5 1 .accepted [3, 0x7000, 0x10000, crc32c [7,8,9] * 2^32 + 3]]
    {State.reset with vlt.held := false, vlt.wear := 1, vlt.inst := some ⟨[], []⟩}), 5, (mkOp 5 1 .accepted [3, 0x7000, 0x10000, crc32c [7,8,9]
    * 2^32 + 3]), [7,8,9], ⟨[], []⟩, by decide +kernel⟩
  · exact ⟨{State.reset with rcd.stage := [⟨3, [1,2], true, 77⟩], ctl.doneTrain := true, vlt.held := false, vlt.wear := 9}, ⟨3, [1,2], true,
    77⟩, by decide +kernel⟩

theorem test_meets_unit_identifier_layout :
    (∃ p k i : Nat, p < 8 ∧ k < 8 ∧ i < 1024) ∧
    (∃ (s : State) (p j : Nat), p < 8 ∧ j < 12 ∧ s.rd (R.PART_ARR_STAT.PAIR p (2 * j + 1)) = 2) := by
  refine ⟨?_, ?_⟩
  · exact ⟨7, 7, 1023, by decide +kernel⟩
  · exact ⟨(regs1 [(R.PART_ARR_STAT.PAIR 7 23, 2)] State.reset), 7, 11, by decide +kernel⟩

theorem test_meets_rounding_modes :
    (∃ n r j x : Nat, r < 2 ^ j ∧ x < 65536 ∧ 0 < j ∧ 2 * r = 2 ^ j) ∧
    (∃ n r j x : Nat, r < 2 ^ j ∧ x < 65536 ∧ 0 < j ∧ 2 ^ j < 2 * r) ∧
    (∃ n r j x : Nat, r < 2 ^ j ∧ x < 65536 ∧ 0 < j ∧ 2 * r < 2 ^ j ∧ r = 0) := by
  refine ⟨?_, ?_, ?_⟩
  · exact ⟨3, 1, 1, 65535, by decide +kernel⟩
  · exact ⟨3, 3, 2, 65535, by decide +kernel⟩
  · exact ⟨3, 0, 1, 0, by decide +kernel⟩

theorem test_meets_integer_elements :
    (∃ x : Nat, x < 256) ∧
    (∃ x : Nat, x < 16) := by
  refine ⟨?_, ?_⟩
  · exact ⟨255, by decide +kernel⟩
  · exact ⟨15, by decide +kernel⟩

theorem test_meets_codebook_index_bits :
    (∃ (f : Nat) (rec_ : List Byte) (k : Nat), isCb f = true ∧ k < 256) := by
  exact ⟨26, [1, 2, 3], 255, by decide +kernel⟩

theorem test_meets_plain_register_write_clears_reserved_bits :
    (∃ (s : State) (src : Src) (k : RegKind) (ix : List Nat) (v : BitVec 32), Passes s src (regOff k ix) ∧ regAt (regOff k ix) = some (k, ix) ∧
      regOff k ix < 0x4000000 ∧ plainReg k = true ∧ tget none s.rcd.merge (Src.kind src) = none) := by
  exact ⟨{State.reset with ctl.mode := .run, sec := Sec.init, rcd.merge := []}, .bar0, .RST_ESC_CFG, [], 0xFFFFFFFF, by decide +kernel⟩

theorem test_meets_lease_release_lets_the_released_port_claim_first :
    (∃ (s : State) (w w2 w3 : WReq), ByHolder s w WC.LEASE_RELEASE ∧ s.rd R.RST_LEASE.LAST = w.port) ∧
    (∃ s : State, s.rd R.RST_LEASE.GUARD = 1) ∧
    (∃ (s : State) (w : WReq), FreeReq s w WC.LEASE_CLAIM ∧ s.rd R.RST_LEASE.HOLDER = 0 ∧ s.rd R.RST_LEASE.GUARD = 0) := by
  refine ⟨?_, ?_, ?_⟩
  · exact ⟨(held State.reset), (wr0 1 0x17), ⟨1, 99, 5, 0, false, false⟩, ⟨0, 99, 5, 0, false, false⟩, by decide +kernel⟩
  · exact ⟨(regs1 [(R.RST_LEASE.GUARD,1)] State.reset), by decide +kernel⟩
  · exact ⟨(regs1 [(R.RST_LEASE.HOLDER,0),(R.RST_LEASE.GUARD,0)] (held State.reset)), ⟨0, 9, 5, 0, false, false⟩, by decide +kernel⟩

theorem test_meets_update_commands_follow_state :
    (∃ (s : State) (src : Src), Passes s src (regOff .UPD_CTL []) ∧ s.rd R.UPD_STAT.STATE ≠ UP.CHECKED) ∧
    (∃ (s : State) (src : Src), Passes s src (regOff .UPD_CTL []) ∧ s.rd R.UPD_STAT.STATE = UP.CHECKED) ∧
    (∃ (s : State) (src : Src), Passes s src (regOff .UPD_CTL []) ∧ (s.rd R.UPD_STAT.STATE = UP.PROGRAMMING ∨ s.rd R.UPD_STAT.STATE =
      UP.ACTIVATING ∨ s.rd R.UPD_STAT.STATE = UP.UNCONFIRMED ∨ s.rd R.UPD_STAT.STATE = UP.REVERTING)) ∧
    (∃ (s : State) (src : Src), Passes s src (regOff .UPD_CTL []) ∧ (s.rd R.UPD_STAT.STATE = UP.CHECKED ∨ s.rd R.UPD_STAT.STATE = UP.REJECTED)) ∧
    (∃ (s : State) (src : Src) (off : Nat) (v : BitVec 32), Passes s src off ∧ off % 4 = 0 ∧ 0x3100000 ≤ off ∧ off < 0x4000000) := by
  refine ⟨?_, ?_, ?_, ?_, ?_⟩
  · exact ⟨(regs1 [(R.UPD_STAT.STATE,7)] {State.reset with ctl.mode := .run, sec := Sec.init}), .bar0, by decide +kernel⟩
  · exact ⟨(regs1 [(R.UPD_STAT.STATE,2)] {State.reset with ctl.mode := .run, sec := Sec.init}), .bar0, by decide +kernel⟩
  · exact ⟨(regs1 [(R.UPD_STAT.STATE,4)] {State.reset with ctl.mode := .run, sec := Sec.init}), .bar0, by decide +kernel⟩
  · exact ⟨(regs1 [(R.UPD_STAT.STATE,3)] {State.reset with ctl.mode := .run, sec := Sec.init}), .bar0, by decide +kernel⟩
  · exact ⟨{State.reset with ctl.mode := .run, sec := Sec.init}, .bar0, 0x3FFFFFC, 5, by decide +kernel⟩

theorem test_meets_refused_actuating_command_changes_nothing :
    (∃ (i : Instr) (w : WReq) (cmd status : Nat) (s : State), leaseOf i = some (w, cmd) ∧ Instr.wf i = true ∧ Heard s w ∧ actRefusal s w cmd =
      some status) := by
  exact ⟨(.setClip (wr0 1 0x16) 500), (wr0 1 0x16), WC.SET_CLIP, WS.STALE_LEASE, (held State.reset), by decide +kernel⟩

theorem test_meets_input_supply_commands_complete_1 :
    (∃ s : State, s.hs.on = true) ∧
    (∃ s : State, s.hs.on = true) ∧
    (∃ (s : State) (vin : Nat), s.hs.mated = true ∧ s.hs.epo = false ∧ s.hs.latched = false ∧ s.hs.on = false ∧ 420 ≤ vin ∧ (s.nv.latch.cause =
      6 → vin < 600)) ∧
    (∃ (s : State) (vin : Nat), s.hs.on = true ∧ s.hs.rails = [] ∧ 400 ≤ vin) ∧
    (∃ s : State, s.hs.on = true ∧ s.hs.porSeen = false) ∧
    (∃ (s : State) (highest : Nat), s.hs.on = true) ∧
    (∃ (s : State) (instant : Bool), s.hs.on = true) ∧
    (∃ s : State, s.hs.on = true ∧ s.hs.rails = []) := by
  refine ⟨?_, ?_, ?_, ?_, ?_, ?_, ?_, ?_⟩
  · exact ⟨{State.reset with hs.on := true}, by decide +kernel⟩
  · exact ⟨{State.reset with hs.on := true}, by decide +kernel⟩
  · exact ⟨{State.reset with hs.mated := true, hs.epo := false, hs.latched := false, hs.on := false}, 599, by decide +kernel⟩
  · exact ⟨{State.reset with hs.on := true, hs.rails := []}, 400, by decide +kernel⟩
  · exact ⟨{State.reset with hs.on := true, hs.porSeen := false}, by decide +kernel⟩
  · exact ⟨{State.reset with hs.on := true}, 700, by decide +kernel⟩
  · exact ⟨{State.reset with hs.on := true}, true, by decide +kernel⟩
  · exact ⟨{State.reset with hs.on := true, hs.rails := []}, by decide +kernel⟩

theorem test_meets_input_supply_commands_complete_2 :
    (∃ s : State, s.hs.on = true) ∧
    (∃ s : State, s.hs.epo = true) ∧
    (∃ s : State, s.hs.on = false) ∧
    (∃ (s : State) (vin : Nat), s.hs.rails ≠ [] ∧ 600 < vin ∧ s.rd R.PWR_STAT.VIN_HIGH = 0) ∧
    (∃ (s : State) (vin : Nat), (s.ctl.mode = .run ∨ s.ctl.mode = .ready ∨ s.ctl.mode = .drain) ∧ s.rd R.PWR_STAT.HOLD_BROWN = 0) ∧
    (∃ (s : State) (vin : Nat), s.rd R.PWR_STAT.HOLD_BROWN = 1) ∧
    (∃ s : State, s.rd R.PWR_STAT.HOLD_BROWN = 1 ∧ s.hs.holdCount = true ∧ s.ctl.mode = .hold ∧ s.rd R.PWR_STAT.HOLD_OPER = 0 ∧ s.ctl.ret ≠
      .drain) := by
  refine ⟨?_, ?_, ?_, ?_, ?_, ?_, ?_⟩
  · exact ⟨{State.reset with hs.on := true}, by decide +kernel⟩
  · exact ⟨{State.reset with hs.epo := true}, by decide +kernel⟩
  · exact ⟨{State.reset with hs.on := false}, by decide +kernel⟩
  · exact ⟨(regs1 [(R.PWR_STAT.VIN_HIGH, 0)] {State.reset with hs.rails := [0]}), 601, by decide +kernel⟩
  · exact ⟨(regs1 [(R.PWR_STAT.HOLD_BROWN, 0)] {State.reset with ctl.mode := .run}), 390, by decide +kernel⟩
  · exact ⟨(regs1 [(R.PWR_STAT.HOLD_BROWN, 1)] State.reset), 400, by decide +kernel⟩
  · exact ⟨(regs1 [(R.PWR_STAT.HOLD_BROWN, 1), (R.PWR_STAT.HOLD_OPER, 0)]
    {State.reset with hs.holdCount := true, ctl.mode := .hold, ctl.ret := .run}), by decide +kernel⟩

theorem test_meets_reset_rungs_complete_1 :
    (∃ (s : State) (ns : Nat), 200 ≤ ns ∧ serving s = true ∧ s.ctl.rungs = []) ∧
    (∃ (s : State) (ns : Nat), ns < 200) ∧
    (∃ s : State, s.ctl.mode = .inReset ∧ moduleBusy s = false) ∧
    (∃ (s : State) (flr : Bool), s.ctl.mode ≠ .off) ∧
    (∃ (s : State) (pair : Nat), pair < 2 ∧ serving s = true ∧ s.ctl.rungs = []) ∧
    (∃ (s : State) (pair : Nat), pair < 2 ∧ serving s = true ∧ s.ctl.rungs = []) ∧
    (∃ (s : State) (r : Rung), rungOf s 4 0 = some r ∧ r.stage = 1 ∧ s.ctl.mrstLow = false) ∧
    (∃ (s : State) (p : Nat) (r : Rung), p < 8 ∧ rungOf s 3 (2 ^ p) = some r ∧ r.stage = 1) := by
  refine ⟨?_, ?_, ?_, ?_, ?_, ?_, ?_, ?_⟩
  · exact ⟨{State.reset with ctl.mode := .run, ctl.rungs := []}, 200, by decide +kernel⟩
  · exact ⟨State.reset, 199, by decide +kernel⟩
  · exact ⟨{State.reset with ctl.mode := .inReset, ctl.rungs := []}, by decide +kernel⟩
  · exact ⟨{State.reset with ctl.mode := .run}, true, by decide +kernel⟩
  · exact ⟨{State.reset with ctl.mode := .hold, ctl.rungs := []}, 1, by decide +kernel⟩
  · exact ⟨{State.reset with ctl.mode := .ready, ctl.rungs := []}, 0, by decide +kernel⟩
  · exact ⟨{State.reset with ctl.mode := .inReset, ctl.mrstLow := false, ctl.rungs := [⟨4, 0, 1, false, 4, 1⟩]}, ⟨4, 0, 1, false, 4, 1⟩,
    by decide +kernel⟩
  · exact ⟨{State.reset with ctl.mode := .run, ctl.rungs := [⟨3, 128, 1, false, 4, 1⟩]}, 7, ⟨3, 128, 1, false, 4, 1⟩, by decide +kernel⟩

theorem test_meets_reset_rungs_complete_2 :
    (∃ (s : State) (p : Nat) (r : Rung), p < 8 ∧ rungOf s 2 (2 ^ p) = some r) ∧
    (∃ (s : State) (p : Nat) (r : Rung), p < 8 ∧ rungOf s 2 (2 ^ p) = some r) ∧
    (∃ (s : State) (p : Nat) (e : TestEnv) (r : Rung), p < 8 ∧ rungOf s 3 (2 ^ p) = some r ∧ r.stage = 3) ∧
    (∃ (s : State) (r : Rung), rungOf s 4 0 = some r ∧ r.stage = 1 ∧ s.ctl.mrstLow = false) ∧
    (∃ (s : State) (p : Nat) (r : Rung), p < 8 ∧ rungOf s 3 (2 ^ p) = some r ∧ r.stage = 1) := by
  refine ⟨?_, ?_, ?_, ?_, ?_⟩
  · exact ⟨{State.reset with ctl.mode := .run, ctl.rungs := [⟨2, 1, 1, false, 4, 1⟩]}, 0, ⟨2, 1, 1, false, 4, 1⟩, by decide +kernel⟩
  · exact ⟨{State.reset with ctl.mode := .run, ctl.rungs := [⟨2, 1, 1, false, 4, 1⟩]}, 0, ⟨2, 1, 1, false, 4, 1⟩, by decide +kernel⟩
  · exact ⟨{State.reset with ctl.mode := .run, ctl.rungs := [⟨3, 128, 3, false, 4, 1⟩]}, 7, goodTest, ⟨3, 128, 3, false, 4, 1⟩,
    by decide +kernel⟩
  · exact ⟨{State.reset with ctl.mode := .inReset, ctl.mrstLow := false, ctl.rungs := [⟨4, 0, 1, false, 4, 1⟩]}, ⟨4, 0, 1, false, 4, 1⟩,
    by decide +kernel⟩
  · exact ⟨{State.reset with ctl.mode := .run, ctl.rungs := [⟨3, 1, 1, false, 4, 1⟩], bytes := [(5, 1), (0x180000000, 7)]}, 0, ⟨3, 1, 1, false,
    4, 1⟩, by decide +kernel⟩

theorem test_meets_start_up_commands_complete_1 :
    (∃ (s : State) (e : StartEnv), s.ctl.mode = .start ∧ s.ctl.failed = false ∧ s.ctl.mrstLow = false ∧ 0 ∈ s.hs.rails ∧ s.rd R.RST_CAUSE.VALID
      = 0 ∧ s.rd R.HIF_BOOT_STATUS.STAGE = 2 ∧ s.rd R.RST_REFCLK.LOCKED = 0 ∧ e.clkMode % 4 < 2 ∧ e.rails = true) ∧
    (∃ (s : State) (e : StartEnv) (x : Nat × Nat), s.ctl.mode = .start ∧ s.ctl.failed = false ∧ s.ctl.mrstLow = false ∧ 0 ∈ s.hs.rails ∧ s.rd
      R.HIF_BOOT_STATUS.STAGE = 4 ∧ s.rd R.RST_REFCLK.LOCKED = 1 ∧ e.pll = true ∧ (e.straps.take 3).find? (fun y => y.1 == y.2) = some x ∧ fget
      x.1 0 19 / 256 ≤ 1024) ∧
    (∃ (s : State) (offset : Int), s.ctl.mode = .start ∧ s.ctl.failed = false ∧ s.rd R.HIF_BOOT_STATUS.STAGE = 4 ∧ s.rd R.RST_REFCLK.LOCKED = 0
      ∧ offset.natAbs ≤ 5000) ∧
    (∃ (s : State) (ok : Bool) (offset : Int), s.ctl.mode = .start ∧ s.ctl.failed = false ∧ s.rd R.HIF_BOOT_STATUS.STAGE = 4 ∧ s.rd
      R.RST_REFCLK.LOCKED = 0 ∧ (ok = false ∨ 5000 < offset.natAbs) ∧ 10 ≤ s.ctl.refTries) ∧
    (∃ (s : State) (bad : List Nat), s.ctl.mode = .start ∧ s.ctl.doneTrain = true ∧ s.ctl.doneTest = true ∧ s.ctl.doneLoad = false ∧
      s.ctl.failed = false ∧ (planRanges s).filter readyRange = []) ∧
    (∃ (s : State) (moved : Bool), s.ctl.mode = .start ∧ s.ctl.failed = false ∧ s.ctl.doneTrain = true ∧ s.ctl.doneTest = true ∧ s.ctl.doneFw =
      true ∧ s.ctl.doneLoad = true ∧ s.rd R.PWR_STAT.HOLD_BROWN = 0 ∧ s.rd R.PWR_STAT.HOLD_OPER = 0 ∧ s.ctl.waits.contains 1 = false ∧ s.rd
      R.PWR_CLIP_DER.THERM_W ≠ 0xFFFF) ∧
    (∃ s : State, s.ctl.mode = .start ∧ s.ctl.failed = false ∧ s.rd R.HIF_BOOT_STATUS.WAIT_EXT = 0) ∧
    (∃ s : State, s.ctl.mode = .start ∧ s.ctl.failed = true ∧ s.ctl.mrstLow = false) := by
  refine ⟨?_, ?_, ?_, ?_, ?_, ?_, ?_, ?_⟩
  · exact ⟨(regs1 [(R.RST_CAUSE.VALID,0),(R.HIF_BOOT_STATUS.STAGE,2),(R.RST_REFCLK.LOCKED,0)]
    {State.reset with ctl.mode := .start, ctl.failed := false, ctl.mrstLow := false, hs.rails := [0]}), {(goodStart) with clkMode := 1},
    by decide +kernel⟩
  · exact ⟨(regs1 [(R.HIF_BOOT_STATUS.STAGE,4),(R.RST_REFCLK.LOCKED,1)]
    {State.reset with ctl.mode := .start, ctl.failed := false, ctl.mrstLow := false, hs.rails := [0]}),
    {(goodStart) with straps := [(5,6),(524293+1024*256,524293+1024*256)]}, (524293+1024*256,524293+1024*256), by decide +kernel⟩
  · exact ⟨(regs1 [(R.HIF_BOOT_STATUS.STAGE,4),(R.RST_REFCLK.LOCKED,0)] {State.reset with ctl.mode := .start, ctl.failed := false}), (-5000),
    by decide +kernel⟩
  · exact ⟨(regs1 [(R.HIF_BOOT_STATUS.STAGE,4),(R.RST_REFCLK.LOCKED,0)]
    {State.reset with ctl.mode := .start, ctl.failed := false, ctl.refTries := 10}), true, 5001, by decide +kernel⟩
  · exact ⟨{State.reset with ctl.mode := .start, ctl.doneTrain := true, ctl.doneTest := true, ctl.doneLoad := false, ctl.failed := false},
    [5000], by decide +kernel⟩
  · exact ⟨(regs1 [(R.PWR_STAT.HOLD_BROWN,0),(R.PWR_STAT.HOLD_OPER,0),(R.PWR_CLIP_DER.THERM_W,500)]
    {State.reset with ctl.mode := .start, ctl.doneTrain := true, ctl.doneTest := true, ctl.doneLoad := true, ctl.doneFw := true, ctl.failed := false, ctl.waits := []}),
    true, by decide +kernel⟩
  · exact ⟨(regs1 [(R.HIF_BOOT_STATUS.WAIT_EXT,0)] {State.reset with ctl.mode := .start, ctl.failed := false}), by decide +kernel⟩
  · exact ⟨{State.reset with ctl.mode := .start, ctl.failed := true, ctl.mrstLow := false}, by decide +kernel⟩

theorem test_meets_start_up_commands_complete_2 :
    (∃ s : State, s.ctl.mode = .start ∧ s.ctl.failed = false ∧ s.ctl.waits.contains 2 = true ∧ s.rd R.HIF_BOOT_STATUS.BOOT_SRC_USED = 1) := by
  exact ⟨(regs1 [(R.HIF_BOOT_STATUS.WAIT_EXT,1),(R.HIF_BOOT_STATUS.BOOT_SRC_USED,1)]
    {State.reset with ctl.mode := .start, ctl.failed := false, ctl.waits := [2]}), by decide +kernel⟩

theorem test_meets_control_register_writes_complete_1 :
    (∃ (s : State) (src : Src), Passes s src (regOff .HIF_CTL []) ∧ (s.ctl.mode = .ready ∨ s.ctl.mode = .drain) ∧ s.rd
      R.RST_ESC_STAT.READMIT_PEND = 0) ∧
    (∃ (s : State) (src : Src), Passes s src (regOff .HIF_CTL []) ∧ s.ctl.mode = .run ∧ s.rd R.RST_ESC_STAT.READMIT_PEND = 0) ∧
    (∃ (s : State) (src : Src) (v : Bool), Passes s src (regOff .HIF_CTL [])) ∧
    (∃ (s : State) (src : Src) (n : Nat), n < 256 ∧ Passes s src (regOff .HIF_RING_CFGn [n]) ∧ s.ctl.mode ≠ .minimal ∧ s.rd (R.HIF_RING_CFGn.EN
      n) = 0 ∧ s.rd (R.HIF_RING_STATn.ACTIVE n) = 0) ∧
    (∃ (s : State) (src : Src) (n : Nat), n < 256 ∧ Passes s src (regOff .HIF_RING_CFGn [n]) ∧ s.rd (R.HIF_RING_CFGn.EN n) = 1 ∧ s.host.ops = []
      ∧ s.rd (R.HIF_RING_STATn.OUTSTANDING n) = 0) ∧
    (∃ (s : State) (src : Src) (k : RegKind) (ix : List Nat) (v : BitVec 64), Passes s src (regOff k ix) ∧ regAt (regOff k ix) = some (k, ix) ∧
      regOff k ix < 0x4000000 ∧ regOff k ix % 4 = 0 ∧ inEvtWin (regOff k ix) = false ∧ inStaging (regOff k ix) = false ∧ inTables (regOff k ix)
      = false ∧ plainReg k = true) ∧
    (∃ (s : State) (k : RegKind) (ix : List Nat) (v : BitVec 32), Passes s .firmware (regOff k ix) ∧ boundRegs.contains k = true ∧ dimOk (regRow
      k).dims ix = true ∧ tget none s.rcd.merge (Src.kind .firmware) = none ∧ s.rcd.stage = [] ∧ s.rd R.EVT_STATUS.FULL = 0 ∧ s.rd
      R.EVT_STATUS.PAGES_USED < 16384) ∧
    (∃ (s : State) (src : Src), Passes s src (regOff .RST_REQ []) ∧ s.ctl.mode = .start ∧ s.ctl.failed = false ∧ s.rd R.HIF_BOOT_STATUS.WAIT_EXT
      = 1 ∧ s.rd R.HIF_BOOT_STATUS.BOOT_SRC_USED = 1) := by
  refine ⟨?_, ?_, ?_, ?_, ?_, ?_, ?_, ?_⟩
  · exact ⟨(regs1 [(R.RST_ESC_STAT.READMIT_PEND,0)] {State.reset with ctl.mode := .drain, sec := Sec.init}), .bar0, by decide +kernel⟩
  · exact ⟨(regs1 [(R.RST_ESC_STAT.READMIT_PEND,0)] {State.reset with ctl.mode := .run, sec := Sec.init}), .bar0, by decide +kernel⟩
  · exact ⟨{State.reset with ctl.mode := .run, sec := Sec.init}, .worA, true, by decide +kernel⟩
  · exact ⟨(regs1 [(R.HIF_RING_CFGn.EN 255,0),(R.HIF_RING_STATn.ACTIVE 255,0)] {State.reset with ctl.mode := .run, sec := Sec.init}), .bar0,
    255, by decide +kernel⟩
  · exact ⟨(regs1 [(R.HIF_RING_CFGn.EN 255,1),(R.HIF_RING_STATn.ACTIVE 255,1)] {State.reset with ctl.mode := .run, sec := Sec.init}), .bar0,
    255, by decide +kernel⟩
  · exact ⟨{State.reset with ctl.mode := .run, sec := Sec.init}, .bar0, .RST_ESC_CFG, [], 0xFFFFFFFFFFFF, by decide +kernel⟩
  · exact ⟨(regs1 [(R.EVT_STATUS.FULL,0),(R.EVT_STATUS.PAGES_USED,77)]
    {State.reset with ctl.mode := .run, sec := Sec.init, rcd.merge := [], rcd.stage := []}), .GRD_THRk, [2], 0x12345, by decide +kernel⟩
  · exact ⟨(regs1 [(R.HIF_BOOT_STATUS.WAIT_EXT,1),(R.HIF_BOOT_STATUS.BOOT_SRC_USED,1)]
    {State.reset with ctl.mode := .start, ctl.failed := false, sec := Sec.init}), .bar0, by decide +kernel⟩

theorem test_meets_control_register_writes_complete_2 :
    (∃ s : State, Passes s .bar0 (regOff .RST_REQ []) ∧ serving s = true ∧ s.ctl.rungs = []) ∧
    (∃ (s : State) (p : Nat), p < 8 ∧ Passes s .bar0 (regOff .RST_REQ []) ∧ serving s = true ∧ s.ctl.rungs = [] ∧ s.host.ops = []) ∧
    (∃ (s : State) (slot : Nat) (ph : Phase), slot < 64 ∧ Passes s .bar0 (regOff .RST_REQ []) ∧ serving s = true ∧ s.ctl.rungs = [] ∧ phaseOf s
      slot = some ph ∧ ph.outcome = none) ∧
    (∃ (s : State) (src : Src), Passes s src (regOff .RST_REQ []) ∧ s.ctl.mode = .minimal) ∧
    (∃ (s : State) (src : Src) (p u : Nat), p < 8 ∧ Passes s src (regOff .PART_ENG_RST [p]) ∧ u < 65536 ∧ uPart u = p ∧ engUnit u = true ∧
      evenOf s u = u ∧ s.rd (R.PART_ENG_RST_STAT.BUSY p) = 0 ∧ s.ctl.rungs = [] ∧ unitCtx s u = none) ∧
    (∃ (s : State) (src : Src) (p g n : Nat) (v : BitVec 32), p < 8 ∧ g < 48 ∧ n < 4 ∧ Passes s src (regOff .PART_CORE_MBOXn [p, g, n])) := by
  refine ⟨?_, ?_, ?_, ?_, ?_, ?_⟩
  · exact ⟨{State.reset with ctl.mode := .run, sec := Sec.init, ctl.rungs := []}, by decide +kernel⟩
  · exact ⟨{State.reset with ctl.mode := .run, sec := Sec.init, ctl.rungs := []}, 7, by decide +kernel⟩
  · exact ⟨{State.reset with ctl.mode := .run, sec := Sec.init, ctl.rungs := [], host.ctx := [(2, {Ctx.init with phase := some ph0})]}, 2, ph0,
    by decide +kernel⟩
  · exact ⟨{State.reset with ctl.mode := .minimal, sec := Sec.init}, .bar0, by decide +kernel⟩
  · exact ⟨(regs1 [(R.PART_ENG_RST_STAT.BUSY 1,0),(R.PART_ARR_STAT.PAIR 1 3,0),(R.RST_PART_AVAIL.AVAIL,255),(R.PART_TOP_STAT.UNAVAIL 1,0)]
    {State.reset with ctl.mode := .run, sec := Sec.init, ctl.rungs := [], arrs := []}), .bar0, 1, (uidOf 1 0 3), by decide +kernel⟩
  · exact ⟨(regs1 [(R.RST_PART_AVAIL.AVAIL,255),(R.PART_TOP_STAT.UNAVAIL 7,0)] {State.reset with ctl.mode := .run, sec := Sec.init}), .bar0, 7,
    47, 3, 0xFFFFFFFF, by decide +kernel⟩

theorem test_meets_fabric_register_writes_complete_1 :
    (∃ (s : State) (src : Src) (n : Nat), n < 34 ∧ Passes s src (regOff .FZ_PORT_CTL [n]) ∧ portsLive s = true ∧ s.rd (R.FZ_PORT_CTL.EN n) = 0 ∧
      s.rd (R.FZ_PORT_CTL.FORCE_HOLD n) = 0 ∧ replaced s n = false) ∧
    (∃ (s : State) (src : Src) (n : Nat), n < 36 ∧ Passes s src (regOff .FZ_PORT_CTL [n]) ∧ s.rd (R.FZ_PORT_CTL.EN n) = 1 ∧ s.rd
      (R.FZ_PORT_CTL.FORCE_HOLD n) = 0) ∧
    (∃ (s : State) (src : Src) (n : Nat), n < 36 ∧ Passes s src (regOff .FZ_PORT_CTL [n]) ∧ portsLive s = true ∧ s.rd (R.FZ_PORT_CTL.EN n) = 1 ∧
      s.rd (R.FZ_PORT_CTL.FORCE_HOLD n) = 0 ∧ replaced s n = false) ∧
    (∃ (s : State) (src : Src) (n : Nat), n < 36 ∧ Passes s src (regOff .FZ_PORT_CTL [n]) ∧ s.rd (R.FZ_PORT_STAT.STATE n) = PS.UP ∧ s.rd
      (R.FZ_PORT_FAR.LOC n) ≤ ownLoc s) ∧
    (∃ (s : State) (src : Src), Passes s src (regOff .FZ_BANK_CTL []) ∧ s.rd R.FZ_BANK_STAT.HOLD = 0) ∧
    (∃ (s : State) (src : Src), Passes s src (regOff .FZ_BANK_CTL [])) ∧
    (∃ (s : State) (src : Src), Passes s src (regOff .FZ_BANK_CTL []) ∧ s.rd R.FZ_BANK_STAT.READY = 1 ∧ s.rd R.FZ_BANK_STAT.HOLD = 0 ∧
      s.clk.time.toNat + 1000000 ≤ layTime s) ∧
    (∃ (s : State) (src : Src), Passes s src (regOff .FZ_BANK_CTL [])) := by
  refine ⟨?_, ?_, ?_, ?_, ?_, ?_, ?_, ?_⟩
  · exact ⟨(regs1 [(R.RST_ESC_STAT.READMIT_PEND,0),(R.FZ_PORT_CTL.EN 0,0),(R.FZ_PORT_CTL.FORCE_HOLD 0,0),(R.FZ_PORT_STAT.SUBST
    34,0),(R.FZ_PORT_STAT.SUBST 35,0),(R.FZ_PORT_MAP.SUBST 34,0),(R.FZ_PORT_MAP.SUBST 35,0)]
    {State.reset with ctl.mode := .run, sec := Sec.init}), .bar0, 0, by decide +kernel⟩
  · exact ⟨(regs1 [(R.FZ_PORT_CTL.EN 35,1),(R.FZ_PORT_CTL.FORCE_HOLD 35,0)] {State.reset with ctl.mode := .run, sec := Sec.init}), .worB, 35,
    by decide +kernel⟩
  · exact ⟨(regs1 [(R.RST_ESC_STAT.READMIT_PEND,0),(R.FZ_PORT_CTL.EN 2,1),(R.FZ_PORT_CTL.FORCE_HOLD 2,0)]
    {State.reset with ctl.mode := .run, sec := Sec.init}), .bar0, 2, by decide +kernel⟩
  · exact ⟨(regs1 [(R.FZ_PORT_STAT.STATE 3,4),(R.FZ_PORT_FAR.LOC 3,0),(R.FZ_PORT_CTL.EN 3,1),(R.FZ_PORT_CTL.FORCE_HOLD 3, 0)]
    {State.reset with ctl.mode := .run, sec := Sec.init}), .bar0, 3, by decide +kernel⟩
  · exact ⟨(regs1 [(R.FZ_BANK_STAT.HOLD,0)] {State.reset with ctl.mode := .run, sec := Sec.init}), .bar0, by decide +kernel⟩
  · exact ⟨{State.reset with ctl.mode := .run, sec := Sec.init}, .bar0, by decide +kernel⟩
  · exact ⟨(regs1 [(R.FZ_BANK_STAT.HOLD,0),(R.FZ_BANK_STAT.READY,1),(R.FZ_LAY_TIME_LO.TIME,1000000),(R.FZ_LAY_TIME_HI.TIME,0)]
    {State.reset with ctl.mode := .run, sec := Sec.init, clk.time := 0}), .bar0, by decide +kernel⟩
  · exact ⟨{State.reset with ctl.mode := .run, sec := Sec.init}, .bar0, by decide +kernel⟩

theorem test_meets_fabric_register_writes_complete_2 :
    (∃ (s : State) (src : Src) (off : Nat) (v : BitVec 32), Passes s src off ∧ off % 4 = 0 ∧ 0x580000 ≤ off ∧ off < 0x5C0000 ∧ s.rd
      R.FZ_BANK_STAT.HOLD = 0) ∧
    (∃ (s : State) (src : Src), Passes s src (regOff .FZ_TIME_CFG []) ∧ serving s = true ∧ s.rd R.FZ_TIME_STAT.TSTATE ≠ TS.ROOT) ∧
    (∃ (s : State) (src : Src) (hi : BitVec 32), Passes s src (regOff .FZ_TIME_SET_HI []) ∧ s.rd R.FZ_TIME_STAT.TSTATE = TS.ROOT) := by
  refine ⟨?_, ?_, ?_⟩
  · exact ⟨(regs1 [(R.FZ_BANK_STAT.HOLD,0)] {State.reset with ctl.mode := .run, sec := Sec.init}), .bar0, 0x5BFFFC, 77, by decide +kernel⟩
  · exact ⟨(regs1 [(R.FZ_TIME_STAT.TSTATE,2)] {State.reset with ctl.mode := .run, sec := Sec.init}), .bar0, by decide +kernel⟩
  · exact ⟨(regs1 [(R.FZ_TIME_STAT.TSTATE,4)] {State.reset with ctl.mode := .run, sec := Sec.init}), .bar0, 0xFFFFFFFF, by decide +kernel⟩

theorem test_meets_update_register_writes_complete :
    (∃ (s : State) (src : Src), Passes s src (regOff .UPD_CTL []) ∧ s.rd R.UPD_STAT.STATE < 4) ∧
    (∃ (s : State) (src : Src), Passes s src (regOff .UPD_CTL []) ∧ s.rd R.UPD_STAT.STATE = UP.CHECKED) ∧
    (∃ (s : State) (src : Src), Passes s src (regOff .UPD_CTL []) ∧ (s.rd R.UPD_STAT.STATE = UP.CHECKED ∨ s.rd R.UPD_STAT.STATE = UP.REJECTED)) ∧
    (∃ (s : State) (src : Src) (off : Nat) (v : BitVec 32), Passes s src off ∧ off % 4 = 0 ∧ 0x3100000 ≤ off ∧ off < 0x4000000) ∧
    (∃ (s : State) (src : Src) (len : Nat), Passes s src (regOff .RST_QS_SRC_CTL []) ∧ s.rd R.RST_QS_SRC_CTL.KIND = 2 ∧ qsLen s 2 = some len ∧
      qsBusy s = false) ∧
    (∃ (s : State) (src : Src), Passes s src (regOff .RST_QS_SRC_CTL [])) := by
  refine ⟨?_, ?_, ?_, ?_, ?_, ?_⟩
  · exact ⟨(regs1 [(R.UPD_STAT.STATE,0)] {State.reset with ctl.mode := .run, sec := Sec.init}), .bar0, by decide +kernel⟩
  · exact ⟨(regs1 [(R.UPD_STAT.STATE,2)] {State.reset with ctl.mode := .run, sec := Sec.init}), .bar0, by decide +kernel⟩
  · exact ⟨(regs1 [(R.UPD_STAT.STATE,3)] {State.reset with ctl.mode := .run, sec := Sec.init}), .bar0, by decide +kernel⟩
  · exact ⟨{State.reset with ctl.mode := .run, sec := Sec.init}, .bar0, 0x3FFFFFC, 5, by decide +kernel⟩
  · exact ⟨(regs1 [((R.RST_QS_SRC_CTL.KIND,2))] {State.reset with ctl.mode := .run, sec := Sec.init, qs := Qs.init}), .bar0, ((qsLen State.reset
    2).getD 0), by decide +kernel⟩
  · exact ⟨{State.reset with ctl.mode := .run, sec := Sec.init}, .bar0, by decide +kernel⟩

theorem test_meets_array_arithmetic_completes_1 :
    (∃ (s : State) (p n x : Nat), ArrAt s p n x ∧ insOpc x = 0) ∧
    (∃ (s : State) (p n x b : Nat), ArrAt s p n x ∧ insOpc x = 1 ∧ slopeOn s p n = false ∧ (arrOf s p n).slope ≠ .filler ∧ tileInit x = 0 ∧
      freeBank (arrOf s p n) = some b) ∧
    (∃ (s : State) (p n x b : Nat), ArrAt s p n x ∧ insOpc x = 1 ∧ slopeOn s p n = false ∧ (arrOf s p n).slope ≠ .filler ∧ tileInit x = 2 ∧
      lastBank (arrOf s p n) = some b) ∧
    (∃ (s : State) (p n x b : Nat), ArrAt s p n x ∧ insOpc x = 1 ∧ slopeOn s p n = true ∧ tileInit x = 0 ∧ freeBank (arrOf s p n) = some b ∧
      tilePm x = 0 ∧ tileXk x = true ∧ tileWk x = true ∧ tileUnits x = 1 ∧ s.mem.errs = [] ∧ unitHeadersOk (tileFx x) (peek s (storeBase p n +
      effSlot (arrOf s p n) (tileBsel x) (tileX x) * 256) (unitSlots x (tileFx x) * 256)) (unitPanels x (tileFx x)) = true ∧ unitHeadersOk
      (tileFw x) (peek s (storeBase p n + effSlot (arrOf s p n) (tileBsel x) (tileW x) * 256) (unitSlots x (tileFw x) * 256)) (unitPanels x
      (tileFw x)) = true) ∧
    (∃ (s : State) (p n lane0 : Nat), p < 8 ∧ n < 24 ∧ lane0 < 16384 ∧ lane0 % 16 = 0 ∧ arrLive s p n = true ∧ (arrOf s p n).bank0.st ≠ .free ∧
      residueOk (arrOf s p n).bank0 lane0 (lane0 + 16) = false) ∧
    (∃ (s : State) (p n lane0 : Nat), p < 8 ∧ n < 24 ∧ lane0 < 16384 ∧ lane0 % 16 = 0 ∧ residueOk (arrOf s p n).bank0 lane0 (lane0 + 16) = true
      ∧ residueOk (arrOf s p n).bank1 lane0 (lane0 + 16) = true ∧ residueOk (arrOf s p n).obank0 lane0 (lane0 + 16) = true ∧ residueOk (arrOf s
      p n).obank1 lane0 (lane0 + 16) = true) ∧
    (∃ (s : State) (p n : Nat), p < 8 ∧ n < 24 ∧ arrLive s p n = true ∧ (arrOf s p n).bank0.st = .streamed ∧ (arrOf s p n).bank1.st ≠ .streamed
      ∧ (arrOf s p n).bank0.pm ≤ 1) ∧
    (∃ (s : State) (p n : Nat), p < 8 ∧ n < 24 ∧ arrLive s p n = true ∧ (arrOf s p n).bank0.st = .streamed ∧ (arrOf s p n).bank1.st ≠ .streamed
      ∧ (arrOf s p n).bank0.pm = 3 ∧ (arrOf s p n).bank0.lanes.map (fun e => (e.1, e.2.v)) ≠ (arrOf s p n).obank0.lanes.map (fun e => (e.1,
      e.2.v))) := by
  refine ⟨?_, ?_, ?_, ?_, ?_, ?_, ?_, ?_⟩
  · exact ⟨(atArr 1 2 0 id State.reset), 1, 2, 0, by decide +kernel⟩
  · exact ⟨(atArr 1 2 (ins 1 [(5, 115), (5, 110), (1, 109), (300, 96), (1, 95), (400, 82), (1, 66), (8, 56)]) (fun a => {a with slope := .idle})
    State.reset), 1, 2, (ins 1 [(5, 115), (5, 110), (1, 109), (300, 96), (1, 95), (400, 82), (1, 66), (8, 56)]), 0, by decide +kernel⟩
  · exact ⟨(atArr 1 2 (ins 1 [(5, 115), (5, 110), (1, 109), (300, 96), (1, 95), (400, 82), (1, 66), (8, 56), (2, 54)]) (fun a =>
    {a with slope := .idle, bank0 := {Acc.free with st := .streamed, fp := false, lsb := 8, kb := 3}}) State.reset), 1, 2, (ins 1 [(5, 115), (5,
    110), (1, 109), (300, 96), (1, 95), (400, 82), (1, 66), (8, 56), (2, 54)]), 0, by decide +kernel⟩
  · exact ⟨(apply (.write (storeBase 1 2 + 300 * 256) [3,4]) (atArr 1 2 (ins 1 [(5, 115), (5, 110), (1, 109), (300, 96), (1, 95), (300, 82), (1,
    66), (8, 56)]) (fun a => {a with slope := .active}) State.reset)), 1, 2, (ins 1 [(5, 115), (5, 110), (1, 109), (300, 96), (1, 95), (300,
    82), (1, 66), (8, 56)]), 0, by decide +kernel⟩
  · exact ⟨(atArr 1 2 0 (fun a => {a with bank0 := {Acc.free with st := .filling, lanes := [(33, ⟨5, 0⟩)]}}) State.reset), 1, 2, 32,
    by decide +kernel⟩
  · exact ⟨(atArr 1 2 0 (fun a => {a with bank0 := {Acc.free with st := .filling, lanes := [(33, ⟨5, 5⟩)]}}) State.reset), 1, 2, 32,
    by decide +kernel⟩
  · exact ⟨(atArr 1 2 0 (fun a => {a with bank0 := {Acc.free with st := .streamed, lanes := [(33, ⟨5, 5⟩)]}}) State.reset), 1, 2,
    by decide +kernel⟩
  · exact ⟨(atArr 1 2 0 (fun a => {a with bank0 := {Acc.free with st := .streamed, pm := 3, lanes := [(33, ⟨5, 5⟩)]}}) State.reset), 1, 2,
    by decide +kernel⟩

theorem test_meets_array_arithmetic_completes_2 :
    (∃ (s : State) (p n x b : Nat), ArrAt s p n x ∧ insOpc x = 2 ∧ lastBank (arrOf s p n) = some b ∧ ((arrOf s p n).bank b).st = .complete ∧
      ((arrOf s p n).bank b).pm = 0 ∧ residueOk ((arrOf s p n).bank b) 0 16384 = true ∧ emitJoin x = false ∧ emitDk x = true ∧ isCb (emitFmt x)
      = false ∧ s.mem.errs = []) ∧
    (∃ (s : State) (p n x b : Nat), ArrAt s p n x ∧ insOpc x = 2 ∧ lastBank (arrOf s p n) = some b ∧ ((arrOf s p n).bank b).st = .complete ∧
      ((arrOf s p n).bank b).pm = 0 ∧ residueOk ((arrOf s p n).bank b) 0 16384 = true ∧ emitJoin x = true) ∧
    (∃ (s : State) (p n x : Nat), ArrAt s p n x ∧ insOpc x = 4 ∧ s.mem.errs = [] ∧ cbBadEntry (ldcbFmt x) ((peek s (storeBase p n + effSlot
      (arrOf s p n) (ldcbBsel x) (ldcbSrc x) * 256) 256).take (cbEntBytes (ldcbFmt x))) = false) := by
  refine ⟨?_, ?_, ?_⟩
  · exact ⟨(atArr 1 2 (ins 2 [(9, 117), (1, 103), (300, 90)]) (fun a =>
    {a with bank1 := {Acc.free with st := .complete, lanes := [(0, ⟨5, 5⟩), (1, ⟨2, 2⟩)]}}) State.reset), 1, 2, (ins 2 [(9, 117), (1, 103),
    (300, 90)]), 1, by decide +kernel⟩
  · exact ⟨(atArr 1 2 (ins 2 [(17, 117), (1, 103), (300, 90), (1,105)]) (fun a =>
    {a with cbFmt := some 17, bank1 := {Acc.free with st := .complete, lanes := [(0, ⟨5, 5⟩), (1, ⟨2, 2⟩)]}}) State.reset), 1, 2, (ins 2 [(17,
    117), (1, 103), (300, 90), (1,105)]), 1, by decide +kernel⟩
  · exact ⟨(atArr 1 2 (ins 4 [(17, 117), (300, 104)]) id State.reset), 1, 2, (ins 4 [(17, 117), (300, 104)]), by decide +kernel⟩

theorem test_meets_array_control_and_queue_instructions_complete_1 :
    (∃ (s : State) (p n x : Nat), ArrAt s p n x ∧ insOpc x = 5) ∧
    (∃ (s : State) (p n x : Nat), ArrAt s p n x ∧ insOpc x = 6) ∧
    (∃ (s : State) (p n x : Nat), ArrAt s p n x ∧ insOpc x = 7) ∧
    (∃ (s : State) (p n x : Nat), ArrAt s p n x ∧ insOpc x = 8) ∧
    (∃ (s : State) (p n x : Nat), ArrAt s p n x ∧ insOpc x = 9) ∧
    (∃ (s : State) (p n x : Nat), ArrAt s p n x ∧ insOpc x = 10 ∧ 0 < qAvail s p (insQ x) ∧ Quiet s (s.rd (R.PART_Q_ENDS.PROD p (insQ x)))) ∧
    (∃ (s : State) (p n x : Nat), ArrAt s p n x ∧ insOpc x = 10 ∧ qAvail s p (insQ x) = 0) ∧
    (∃ (s : State) (p n x : Nat), ArrAt s p n x ∧ insOpc x = 11 ∧ 0 < s.rd (R.PART_Q_CREDIT.CREDIT p (insQ x)) ∧ s.mem.errs = []) := by
  refine ⟨?_, ?_, ?_, ?_, ?_, ?_, ?_, ?_⟩
  · exact ⟨(atArr 1 2 (ins 5 [(2^64-1, 0)]) id State.reset), 1, 2, (ins 5 [(2^64-1, 0)]), by decide +kernel⟩
  · exact ⟨(atArr 1 2 (ins 6 [(8191, 0), (1, 121)]) id State.reset), 1, 2, (ins 6 [(8191, 0), (1, 121)]), by decide +kernel⟩
  · exact ⟨(atArr 1 2 (ins 7 [(8191, 0), (1, 121)]) id State.reset), 1, 2, (ins 7 [(8191, 0), (1, 121)]), by decide +kernel⟩
  · exact ⟨(atArr 1 2 (ins 8 [(65535, 0), (1, 121)]) id State.reset), 1, 2, (ins 8 [(65535, 0), (1, 121)]), by decide +kernel⟩
  · exact ⟨(atArr 1 2 (ins 9 [(99, 0), (1, 121)]) id State.reset), 1, 2, (ins 9 [(99, 0), (1, 121)]), by decide +kernel⟩
  · exact ⟨(wire 1 5 0x2403 (uidOf 1 0 2) 2 7 (atArr 1 2 (ins 10 [(5, 112)]) id State.reset)), 1, 2, (ins 10 [(5, 112)]), by decide +kernel⟩
  · exact ⟨(wire 1 5 0x2403 (uidOf 1 0 2) 0 7 (atArr 1 2 (ins 10 [(5, 112)]) id State.reset)), 1, 2, (ins 10 [(5, 112)]), by decide +kernel⟩
  · exact ⟨(wire 1 1023 (uidOf 1 0 2) 0x2403 2 7 (atArr 1 2 (ins 11 [(1023, 112), (0xFE123457, 32)]) id State.reset)), 1, 2, (ins 11 [(1023,
    112), (0xFE123457, 32)]), by decide +kernel⟩

theorem test_meets_array_control_and_queue_instructions_complete_2 :
    (∃ (s : State) (p n x : Nat), ArrAt s p n x ∧ insOpc x = 12 ∧ 0 < qAvail s p (insQ x) ∧ s.mem.errs = [] ∧ Quiet s (s.rd (R.PART_Q_ENDS.PROD
      p (insQ x)))) ∧
    (∃ (s : State) (p n x : Nat), ArrAt s p n x ∧ insOpc x = 13) ∧
    (∃ (s : State) (p n x : Nat), ArrAt s p n x ∧ insOpc x = 14) ∧
    (∃ (s : State) (p n x : Nat), ArrAt s p n x ∧ insOpc x = 63 ∧ 0 < s.rd (R.PART_Q_CREDIT.CREDIT p (arrOf s p n).endQ) ∧ s.mem.errs = []) ∧
    (∃ (s : State) (p n phys phys2 : Nat), p < 8 ∧ n < 24 ∧ s.rd (R.PART_ARR_STAT.STATE p n) = US.ROTATE ∧ phys < 64 ∧ phys2 < 64 ∧ (n < 23 ∨
      s.rd (R.PART_ARR_STAT.PAIR p n) ≠ 1) ∧ rotTarget s (uidOf p 0 n) phys phys2 = true) ∧
    (∃ (s : State) (p g phys phys2 : Nat), p < 8 ∧ g < 48 ∧ s.rd (R.PART_CORE_STAT.STATE p g) = US.ROTATE ∧ phys < 64 ∧ rotTarget s (uidOf p 1
      g) phys phys2 = true) := by
  refine ⟨?_, ?_, ?_, ?_, ?_, ?_⟩
  · exact ⟨(wire 1 5 0x2403 (uidOf 1 0 2) 2 7 (atArr 1 2 (ins 12 [(5, 112), (77, 0)]) id State.reset)), 1, 2, (ins 12 [(5, 112), (77, 0)]),
    by decide +kernel⟩
  · exact ⟨(atArr 1 2 (ins 13 [(99, 0)]) id State.reset), 1, 2, (ins 13 [(99, 0)]), by decide +kernel⟩
  · exact ⟨(atArr 1 2 (ins 14 []) id State.reset), 1, 2, (ins 14 []), by decide +kernel⟩
  · exact ⟨(wire 1 9 (uidOf 1 0 2) 0x3000 0 7 (atArr 1 2 (ins 63 []) (fun a => { a with endQ := 9, bank0 := {Acc.free with st := .complete} })
    State.reset)), 1, 2, (ins 63 []), by decide +kernel⟩
  · exact ⟨(regs1 [(R.PART_ARR_STAT.STATE 1 2, 4), (R.PART_TOP_BAD_ARR.BAD 1, 0)] (atArr 1 2 0 id State.reset)), 1, 2, 25, 26,
    by decide +kernel⟩
  · exact ⟨(regs1 [(R.PART_CORE_STAT.STATE 1 47, 4), (R.PART_TOP_BAD_CORE_LO.BAD 1, 0), (R.PART_TOP_BAD_CORE_HI.BAD 1, 0)] State.reset), 1, 47,
    51, 0, by decide +kernel⟩

theorem test_meets_queue_slots_and_monitor_complete_1 :
    (∃ (s : State) (p q : Nat), p < 8 ∧ q < 1024 ∧ s.rd (R.PART_Q_CFG.VALID p q) = 1 ∧ uPart (s.rd (R.PART_Q_ENDS.PROD p q)) = p ∧ (uKind (s.rd
      (R.PART_Q_ENDS.PROD p q)) = 0 ∨ uKind (s.rd (R.PART_Q_ENDS.PROD p q)) = 2) ∧ s.rd (stFld (s.rd (R.PART_Q_ENDS.PROD p q))) ≠ US.INVALID ∧
      (queOf s p q).pub < (queOf s p q).wr ∧ uKind (s.rd (R.PART_Q_ENDS.CONS p q)) ≠ 4 ∧ Quiet s (s.rd (R.PART_Q_ENDS.PROD p q)) ∧ Quiet s (s.rd
      (R.PART_Q_ENDS.CONS p q))) ∧
    (∃ (s : State) (p q c : Nat) (ph : Phase), p < 8 ∧ q < 1024 ∧ s.rd (R.PART_Q_CFG.VALID p q) = 1 ∧ uPart (s.rd (R.PART_Q_ENDS.PROD p q)) = p
      ∧ uKind (s.rd (R.PART_Q_ENDS.PROD p q)) = 2 ∧ s.rd (stFld (s.rd (R.PART_Q_ENDS.PROD p q))) ≠ US.INVALID ∧ (queOf s p q).pub < (queOf s p
      q).wr ∧ uKind (s.rd (R.PART_Q_ENDS.CONS p q)) = 4 ∧ unitCtx s (s.rd (R.PART_Q_ENDS.PROD p q)) = some c ∧ phaseOf s c = some ph ∧
      ph.outcome = none ∧ ph.units.all (fun u => ph.ended.contains u || u == s.rd (R.PART_Q_ENDS.PROD p q)) = true) ∧
    (∃ (s : State) (p q : Nat), p < 8 ∧ q < 1024 ∧ s.rd (R.PART_Q_CFG.VALID p q) = 1 ∧ uPart (s.rd (R.PART_Q_ENDS.CONS p q)) = p ∧ (uKind (s.rd
      (R.PART_Q_ENDS.CONS p q)) = 0 ∨ uKind (s.rd (R.PART_Q_ENDS.CONS p q)) = 2) ∧ s.rd (stFld (s.rd (R.PART_Q_ENDS.CONS p q))) ≠ US.INVALID ∧
      (queOf s p q).rel < (queOf s p q).rd ∧ 0 < s.rd (R.PART_Q_OCC.OCC p q) ∧ Quiet s (s.rd (R.PART_Q_ENDS.PROD p q)) ∧ Quiet s (s.rd
      (R.PART_Q_ENDS.CONS p q))) ∧
    (∃ (s : State) (p q : Nat), p < 8 ∧ q < 1024 ∧ 0 < (queOf s p q).owed ∧ (queOf s p q).farFa = 0 ∧ (queOf s p q).farP < 8 ∧ (queOf s p
      q).farQ < 1024 ∧ s.rd (R.PART_Q_CFG.VALID (queOf s p q).farP (queOf s p q).farQ) = 1 ∧ Quiet s (s.rd (R.PART_Q_ENDS.PROD (queOf s p
      q).farP (queOf s p q).farQ)) ∧ Quiet s (s.rd (R.PART_Q_ENDS.CONS (queOf s p q).farP (queOf s p q).farQ))) ∧
    (∃ (s : State) (p q : Nat), p < 8 ∧ q < 1024 ∧ 0 < (queOf s p q).owed ∧ 0 < (queOf s p q).farFa ∧ (queOf s p q).farFa < 0xF0000) ∧
    (∃ (s : State) (p q : Nat), p < 8 ∧ q < 1024 ∧ isStaging s p q = true ∧ 0 < qAvail s p q ∧ s.mem.errs = [] ∧ (queOf s p q).farFa < 0xF0000 ∧
      (findOut s (queOf s p q).farFa (queOf s p q).och).map (·.st) = some 0 ∧ 0 < (queOf s p q).farFa ∧ 0 < s.rd (R.PART_Q_OCC.OCC p q)) ∧
    (∃ s : State, (∀ p < 8, s.rd (R.PART_BRM_CTL.EN p) = 0)) ∧
    (∃ (s : State) (p : Nat) (c : List Edge), p < 8 ∧ s.rd (R.PART_BRM_STAT.CYCLE p) = 0 ∧ c.length < 29 ∧ c ≠ [] ∧ s.rd R.RST_ESC_CFG.BRM_ACT =
      0 ∧ (∀ x < 8, cyclesOf { s with watch := { s.watch with edges := ageEdges s.watch.edges (edgesNow s) } } x = if x = p then [c] else []) ∧
      s.watch.told.contains (c.map Edge.word) = false) := by
  refine ⟨?_, ?_, ?_, ?_, ?_, ?_, ?_, ?_⟩
  · exact ⟨(apply (.que 1029 fun x => {x with wr := x.pub + 1}) (wire 1 5 (uidOf 1 0 2) (uidOf 1 1 3) 2 7 (regs1 [(R.PART_ARR_STAT.STATE 1 2,
    1), (R.PART_Q_OCC.WAIT_C 1 5, 1)] State.reset))), 1, 5, by decide +kernel⟩
  · exact ⟨(apply (.host fun h => { h with ctx := [(0, { Ctx.init with phase := some { ph0 with units := [uidOf 1 2 3] } })] }) (apply (.str 19
    fun x => {x with ctx := some 0}) (apply (.que 1029 fun x => {x with wr := x.pub + 1}) (wire 1 5 (uidOf 1 2 3) (uidOf 1 4 0) 2 7 (regs1
    [(R.PART_STR_STAT.STATE 1 3, 1)] State.reset))))), 1, 5, 0, { ph0 with units := [uidOf 1 2 3] }, by decide +kernel⟩
  · exact ⟨(apply (.que 1029 fun x => {x with rd := x.rel + 1}) (wire 1 5 (uidOf 1 1 2) (uidOf 1 0 3) 2 7 (regs1 [(R.PART_ARR_STAT.STATE 1 3,
    1)] State.reset))), 1, 5, by decide +kernel⟩
  · exact ⟨(apply (.que 1029 fun x => {x with owed := 3, farP := 2, farQ := 9}) (wire 2 9 (uidOf 2 1 2) (uidOf 1 2 3) 2 7 State.reset)), 1, 5,
    by decide +kernel⟩
  · exact ⟨(apply (.que 1029 fun x => {x with owed := 8, farFa := 77, farP := 2, farQ := 9}) State.reset), 1, 5, by decide +kernel⟩
  · exact ⟨(apply (.fab fun f => {f with outs := [⟨77, 3, 5, 0, 0, 0, [], 0⟩]}) (regs1 [(R.PART_Q_CFG.REMOTE 1 5, 1), (R.PART_TOP_STAT.UNAVAIL
    1, 0)] (apply (.que 1029 fun x => {x with och := 3, farFa := 77, farP := 2, farQ := 9}) (wire 1 5 (uidOf 1 2 3) (uidOf 1 5 0) 2 7
    { State.reset with mem.errs := [], mem.stale := [] })))), 1, 5, by decide +kernel⟩
  · exact ⟨(regs1 [(R.PART_BRM_CTL.EN 0,0),(R.PART_BRM_CTL.EN 1,0),(R.PART_BRM_CTL.EN 2,0),(R.PART_BRM_CTL.EN 3,0),(R.PART_BRM_CTL.EN
    4,0),(R.PART_BRM_CTL.EN 5,0),(R.PART_BRM_CTL.EN 6,0),(R.PART_BRM_CTL.EN 7,0)] (apply (.host fun h =>
    { h with ctx := [(0, { Ctx.init with phase := some { ph0 with queues := [(1,5)] } })] }) (wire 1 5 7 (uidOf 1 4 0) 0 7 (regs1
    [(R.PART_Q_OCC.WAIT_C 1 5, 1)] State.reset)))), by decide +kernel⟩
  · exact ⟨(let q := fun (a : Nat) => a; let x := regs1 [(R.RST_ESC_CFG.BRM_ACT,0),(R.PART_BRM_STAT.CYCLE 1,0),(R.PART_BRM_CTL.EN
    0,0),(R.PART_BRM_CTL.EN 1,1),(R.PART_BRM_CTL.T 1,10),(R.PART_BRM_CTL.EN 2,0),(R.PART_BRM_CTL.EN 3,0),(R.PART_BRM_CTL.EN
    4,0),(R.PART_BRM_CTL.EN 5,0),(R.PART_BRM_CTL.EN 6,0),(R.PART_BRM_CTL.EN 7,0)] (apply (.host fun h =>
    { h with ctx := [(0, { Ctx.init with phase := some { ph0 with queues := [(1,5),(1,6)] } })] }) (wire 1 5 (uidOf 1 0 2) (uidOf 1 1 3) 0 7
    (wire 1 6 (uidOf 1 1 3) (uidOf 1 0 2) 0 7 (regs1 [(R.PART_Q_OCC.WAIT_C 1 5, 1), (R.PART_Q_CREDIT.WAIT_P 1 5, 0), (R.PART_Q_OCC.WAIT_C 1 6,
    1), (R.PART_Q_CREDIT.WAIT_P 1 6, 0), (R.PART_ARR_STAT.PAIR 1 2, 0)] State.reset))));
    { x with watch.edges := [⟨uidOf 1 1 3, uidOf 1 0 2, false, 1, 5, 99⟩, ⟨uidOf 1 0 2, uidOf 1 1 3, false, 1, 6, 150⟩], watch.told := [] }), 1,
    [⟨uidOf 1 0 2, uidOf 1 1 3, false, 1, 6, 151⟩, ⟨uidOf 1 1 3, uidOf 1 0 2, false, 1, 5, 100⟩], by decide +kernel⟩

theorem test_meets_queue_slots_and_monitor_complete_2 :
    (∃ (s : State) (slot opid at_ : Nat) (ph : Phase), slot < 64 ∧ s.watch.due = [(slot, opid, at_)] ∧ phaseOf s slot = some ph ∧ ph.opid = opid
      ∧ ph.outcome = none ∧ opid < 2 ^ 32 ∧ serving s = true ∧ s.ctl.rungs = []) := by
  exact ⟨{State.reset with ctl.mode := .run, ctl.rungs := [], watch.due := [(2,5,7)], host.ctx := [(2, {Ctx.init with phase := some ph0})]}, 2,
    5, 7, ph0, by decide +kernel⟩

theorem test_meets_streamer_descriptors_complete_1 :
    (∃ (s : State) (p k : Nat) (d : SDesc), StrAt s p k d ∧ d.opc = 0 ∧ d.reps = 1 ∧ d.preEn = false ∧ d.postEn = false ∧ d.dstKind = 0 ∧
      s.vlt.waiting.contains (strKey (uidOf p 2 k)) = false) ∧
    (∃ (s : State) (p k : Nat) (d : SDesc), StrAt s p k d ∧ d.opc = 1 ∧ d.reps = 1 ∧ d.preEn = false ∧ d.postEn = false ∧ d.srcKind = 0 ∧
      d.dstKind = 0 ∧ d.rows = 1 ∧ 0 < d.rowBytes ∧ PlainSpan s d.src d.rowBytes ∧ PlainSpan s d.dst d.rowBytes ∧ s.vlt.waiting.contains (strKey
      (uidOf p 2 k)) = false) ∧
    (∃ (s : State) (p k : Nat) (d : SDesc), StrAt s p k d ∧ d.opc = 1 ∧ d.reps = 1 ∧ d.preEn = false ∧ d.postEn = false ∧ d.srcKind = 2 ∧
      d.dstKind = 0 ∧ d.rows = 1 ∧ 0 < d.rowBytes ∧ PlainSpan s d.dst d.rowBytes ∧ s.vlt.waiting.contains (strKey (uidOf p 2 k)) = false) ∧
    (∃ (s : State) (p k a : Nat) (d : SDesc) (e : Nat) (r : List Nat), StrAt s p k d ∧ d.opc = 2 ∧ d.reps = 1 ∧ d.preEn = false ∧ d.postEn =
      false ∧ d.dstKind = 0 ∧ 0 < d.rows ∧ 0 < d.rowBytes ∧ 0 < qAvail s p d.idxQ ∧ idxEntries (peek s (qSlot s p d.idxQ (queOf s p d.idxQ).rd)
      256) = e :: IX.END :: r ∧ e < IX.PAD ∧ (d.idxLimit = 0 ∨ e < d.idxLimit) ∧ strAddr d.src e d.srcStride = some a ∧ PlainSpan s a d.rowBytes
      ∧ PlainSpan s d.dst d.rowBytes ∧ s.vlt.waiting.contains (strKey (uidOf p 2 k)) = false) ∧
    (∃ (s : State) (p k a : Nat) (d : SDesc) (e : Nat) (r : List Nat), StrAt s p k d ∧ d.opc = 3 ∧ d.reps = 1 ∧ d.preEn = false ∧ d.postEn =
      false ∧ d.srcKind = 0 ∧ 0 < d.rows ∧ 0 < d.rowBytes ∧ 0 < qAvail s p d.idxQ ∧ idxEntries (peek s (qSlot s p d.idxQ (queOf s p d.idxQ).rd)
      256) = e :: IX.END :: r ∧ e < IX.PAD ∧ (d.idxLimit = 0 ∨ e < d.idxLimit) ∧ strAddr d.dst e d.dstStride = some a ∧ PlainSpan s d.src
      d.rowBytes ∧ PlainSpan s a d.rowBytes ∧ isVault d.dst = false ∧ s.vlt.waiting.contains (strKey (uidOf p 2 k)) = false) ∧
    (∃ (s : State) (p k a : Nat) (d : SDesc) (e : Nat) (r : List Nat), StrAt s p k d ∧ d.opc = 4 ∧ d.reps = 1 ∧ d.preEn = false ∧ d.postEn =
      false ∧ d.dstKind = 0 ∧ d.np = 1 ∧ hasScale d.fmt = false ∧ 0 < qAvail s p d.idxQ ∧ idxEntries (peek s (qSlot s p d.idxQ (queOf s p
      d.idxQ).rd) 256) = e :: IX.END :: r ∧ e < IX.PAD ∧ (d.idxLimit = 0 ∨ e < d.idxLimit) ∧ strAddr d.src (e / 128) d.srcStride = some a ∧
      PlainSpan s (a + e % 128 * laneBytes d.fmt) (laneBytes d.fmt) ∧ PlainSpan s d.dst (panelBytes d.fmt) ∧ d.dst < 2 ^ 56 ∧
      s.vlt.waiting.contains (strKey (uidOf p 2 k)) = false) ∧
    (∃ (s : State) (p k a : Nat) (d : SDesc) (e : Nat) (r : List Nat), StrAt s p k d ∧ d.opc = 5 ∧ d.reps = 1 ∧ d.preEn = false ∧ d.postEn =
      false ∧ d.srcKind = 0 ∧ d.np = 1 ∧ hasScale d.fmt = false ∧ 0 < qAvail s p d.idxQ ∧ idxEntries (peek s (qSlot s p d.idxQ (queOf s p
      d.idxQ).rd) 256) = e :: IX.END :: r ∧ e < IX.PAD ∧ (d.idxLimit = 0 ∨ e < d.idxLimit) ∧ strAddr d.dst (e / 128) d.dstStride = some a ∧
      PlainSpan s (a + e % 128 * laneBytes d.fmt) (laneBytes d.fmt) ∧ PlainSpan s d.src (panelBytes d.fmt) ∧ d.src < 2 ^ 56 ∧
      s.vlt.waiting.contains (strKey (uidOf p 2 k)) = false) ∧
    (∃ (s : State) (p k : Nat) (d : SDesc), StrAt s p k d ∧ d.opc = 6 ∧ d.reps = 1 ∧ d.preEn = false ∧ d.postEn = true ∧ d.dstKind = 0 ∧ 0 <
      s.rd (R.PART_Q_CREDIT.CREDIT p d.postQ) ∧ s.vlt.waiting.contains (strKey (uidOf p 2 k)) = false) := by
  refine ⟨?_, ?_, ?_, ?_, ?_, ?_, ?_, ?_⟩
  · exact ⟨(atStr 1 3 [0,0,0,0,0,0,0,0] State.reset), 1, 3, ⟨0,0,0,0,0,0,0,0⟩, by decide +kernel⟩
  · exact ⟨(apply (.write 0x7000 [1,2,3,4]) (atStr 1 3 [2^58,0x7000,0x9000,2^32+64,0,0,0,0] State.reset)), 1, 3,
    ⟨2^58,0x7000,0x9000,2^32+64,0,0,0,0⟩, by decide +kernel⟩
  · exact ⟨(apply (.write 0x9000 [1,2,3,4]) (atStr 1 3 [2^58+2*2^34,0x7000,0x9000,2^32+64,0,0,0,0] State.reset)), 1, 3,
    ⟨2^58+2*2^34,0x7000,0x9000,2^32+64,0,0,0,0⟩, by decide +kernel⟩
  · exact ⟨(let x := apply (.write (0x7000+7*64) [1,2,3,4]) (apply (.write (poolBase 1 + (256+3)*256) [7,0,0,0,255,255,255,255]) (wire 1 5 0
    (uidOf 1 2 3) 2 7 (atStr 1 3 [2*2^58,0x7000,0x9000,100*2^32+64,64,64,5,0] State.reset))); x), 1, 3, (0x7000+7*64),
    ⟨2*2^58,0x7000,0x9000,100*2^32+64,64,64,5,0⟩, 7, ([IX.END] ++ List.replicate 62 0).tail, by decide +kernel⟩
  · exact ⟨(let x := apply (.write (0x7000) [1,2,3,4]) (apply (.write (poolBase 1 + (256+3)*256) [7,0,0,0,255,255,255,255]) (wire 1 5 0 (uidOf 1
    2 3) 2 7 (atStr 1 3 [3*2^58,0x7000,0x9000,100*2^32+64,64,64,5,0] State.reset))); x), 1, 3, (0x9000+7*64),
    ⟨3*2^58,0x7000,0x9000,100*2^32+64,64,64,5,0⟩, 7, ([IX.END] ++ List.replicate 62 0).tail, by decide +kernel⟩
  · exact ⟨(let x := apply (.write (0x7000+7*64) [1,2,3,4]) (apply (.write (poolBase 1 + (256+3)*256) [7,0,0,0,255,255,255,255]) (wire 1 5 0
    (uidOf 1 2 3) 2 7 (atStr 1 3 [4*2^58,0x7000,0x19000,0,64,0,5+7*2^16+2^21,0] State.reset))); x), 1, 3, 0x7000,
    ⟨4*2^58,0x7000,0x19000,0,64,0,5+7*2^16+2^21,0⟩, 7, ([IX.END] ++ List.replicate 62 0).tail, by decide +kernel⟩
  · exact ⟨(let x := apply (.write (0x7000) [1,2,3,4]) (apply (.write (poolBase 1 + (256+3)*256) [7,0,0,0,255,255,255,255]) (wire 1 5 0 (uidOf 1
    2 3) 2 7 (atStr 1 3 [5*2^58,0x7000,0x19000,0,64,64,5+7*2^16+2^21,0] State.reset))); x), 1, 3, 0x19000,
    ⟨5*2^58,0x7000,0x19000,0,64,64,5+7*2^16+2^21,0⟩, 7, ([IX.END] ++ List.replicate 62 0).tail, by decide +kernel⟩
  · exact ⟨(wire 1 5 (uidOf 1 2 3) 0 2 7 (atStr 1 3 [6*2^58+2^56+5*2^36,0,0,0,0,0,0,0] State.reset)), 1, 3, ⟨6*2^58+2^56+5*2^36,0,0,0,0,0,0,0⟩,
    by decide +kernel⟩

theorem test_meets_streamer_descriptors_complete_2 :
    (∃ (s : State) (p k : Nat) (d : SDesc), StrAt s p k d ∧ d.opc = 6 ∧ d.preEn = true ∧ qAvail s p d.preQ = 0) ∧
    (∃ (s : State) (p k : Nat) (d : SDesc), StrAt s p k d ∧ d.opc = 63 ∧ d.preEn = false ∧ d.postEn = false ∧ 0 < s.rd (R.PART_Q_CREDIT.CREDIT p
      (strOf s p k).endQ)) ∧
    (∃ (s : State) (key : Nat) (r : List (Nat × Bool)), key < 96 ∧ s.pw.grant0 = (key, true) :: r ∧ (tget Arr.init s.arrs key).slope =
      .wantStart ∧ s.rd (R.PART_ARR_STAT.PAIR (key / 24) (key % 24)) = 0 ∧ Quiet s (uidOf (key / 24) 0 (key % 24))) ∧
    (∃ (s : State) (key : Nat) (r : List (Nat × Bool)), s.pw.grant1 = (key, false) :: r ∧ (tget Arr.init s.arrs key).slope = .filler) := by
  refine ⟨?_, ?_, ?_, ?_⟩
  · exact ⟨(wire 1 5 0 (uidOf 1 2 3) 0 7 (atStr 1 3 [6*2^58+2^57+5*2^46,0,0,0,0,0,0,0] State.reset)), 1, 3, ⟨6*2^58+2^57+5*2^46,0,0,0,0,0,0,0⟩,
    by decide +kernel⟩
  · exact ⟨(apply (.str 19 fun x => {x with endQ := 5}) (wire 1 5 (uidOf 1 2 3) (uidOf 1 4 0) 0 7 (atStr 1 3 [63*2^58,0,0,0,0,0,0,0]
    State.reset))), 1, 3, ⟨63*2^58,0,0,0,0,0,0,0⟩, by decide +kernel⟩
  · exact ⟨(regs1 [(R.PART_ARR_STAT.PAIR 1 2, 0)] (apply (.arr 26 fun a => {a with slope := .wantStart, tiles := [], outBuf := []})
    {State.reset with pw.grant0 := [(26, true), (3, false)]})), 26, [(3, false)], by decide +kernel⟩
  · exact ⟨(apply (.arr 126 fun a => {a with slope := .filler, tiles := [], outBuf := []})
    {State.reset with pw.grant1 := [(126, false), (3, false)]}), 126, [(3, false)], by decide +kernel⟩

theorem test_meets_core_operations_complete_1 :
    (∃ (s : State) (p g : Nat) (op : AluOp) (d a b : Nat), CoreAt s p g ∧ d < 32 ∧ a < 32 ∧ b < 32 ∧ aluOpen op ((coreOf s p g).getX b) = false) ∧
    (∃ (s : State) (p g : Nat) (op : AluOp) (d a b : Nat), CoreAt s p g ∧ d < 32 ∧ a < 32 ∧ b < 32 ∧ aluOpen op ((coreOf s p g).getX b) = true) ∧
    (∃ (s : State) (p g : Nat) (d : Nat) (v : BitVec 64), CoreAt s p g ∧ d < 32) ∧
    (∃ (s : State) (p g : Nat) (d a len m : Nat) (off : Int), CoreAt s p g ∧ d < 32 ∧ a < 32 ∧ (len = 1 ∨ len = 2 ∨ len = 4 ∨ len = 8) ∧
      s.mem.errs = [] ∧ coreAddr p g (effAddr (coreOf s p g) a off) len = some m) ∧
    (∃ (s : State) (p g : Nat) (x a len m : Nat) (off : Int), CoreAt s p g ∧ x < 32 ∧ a < 32 ∧ (len = 1 ∨ len = 2 ∨ len = 4 ∨ len = 8) ∧
      s.mem.errs = [] ∧ coreAddr p g (effAddr (coreOf s p g) a off) len = some m) ∧
    (∃ (s : State) (p g : Nat) (d a m : Nat) (off : Int), CoreAt s p g ∧ d < 32 ∧ a < 32 ∧ s.mem.errs = [] ∧ coreAddr p g (effAddr (coreOf s p
      g) a off) 64 = some m) ∧
    (∃ (s : State) (p g : Nat) (x a m : Nat) (off : Int), CoreAt s p g ∧ x < 32 ∧ a < 32 ∧ s.mem.errs = [] ∧ coreAddr p g (effAddr (coreOf s p
      g) a off) 64 = some m) ∧
    (∃ (s : State) (p g : Nat) (op : VOp) (ty : VTy) (rtz : Bool) (d a b e : Nat), CoreAt s p g ∧ d < 32 ∧ a < 32 ∧ b < 32 ∧ e < 32) := by
  refine ⟨?_, ?_, ?_, ?_, ?_, ?_, ?_, ?_⟩
  · exact ⟨(atCore 7 47 (fun c => ((c.setX 5 0x100).setX 6 0xFFFFFFFFFFFFFFFF).setV 3 0x3F80000040000000BF800000) State.reset), 7, 47, .add, 31,
    5, 6, by decide +kernel⟩
  · exact ⟨(atCore 7 47 (fun c => ((c.setX 5 0x100).setX 6 0xFFFFFFFFFFFFFFFF).setV 3 0x3F80000040000000BF800000) State.reset), 7, 47, .sll, 31,
    5, 6, by decide +kernel⟩
  · exact ⟨(atCore 7 47 (fun c => ((c.setX 5 0x100).setX 6 0xFFFFFFFFFFFFFFFF).setV 3 0x3F80000040000000BF800000) State.reset), 7, 47, 31, 77,
    by decide +kernel⟩
  · exact ⟨(apply (.write (locBase 7 47 + 0x108) [1,2,3,4,5,6,7,8,9]) (atCore 7 47 (fun c => c.setX 5 0x100) State.reset)), 7, 47, 31, 5, 8,
    (locBase 7 47 + 0x108), 8, by decide +kernel⟩
  · exact ⟨(atCore 7 47 (fun c => (c.setX 5 0x100).setX 6 0x123456789ABCDEF0) State.reset), 7, 47, 6, 5, 4, (locBase 7 47 + 0x108), 8,
    by decide +kernel⟩
  · exact ⟨(apply (.write (locBase 7 47 + 0x100) [1,2,3,4,5,6,7,8,9]) (atCore 7 47 (fun c => c.setX 5 0x100) State.reset)), 7, 47, 31, 5,
    (locBase 7 47 + 0x100), 0, by decide +kernel⟩
  · exact ⟨(atCore 7 47 (fun c => (c.setX 5 0x100).setV 6 0x123456789ABCDEF0) State.reset), 7, 47, 6, 5, (locBase 7 47 + 0x140), 64,
    by decide +kernel⟩
  · exact ⟨(atCore 7 47 (fun c => ((c.setX 5 0x100).setX 6 0xFFFFFFFFFFFFFFFF).setV 3 0x3F80000040000000BF800000) State.reset), 7, 47, .fma,
    .fp32, false, 3, 3, 3, 3, by decide +kernel⟩

theorem test_meets_core_operations_complete_2 :
    (∃ (s : State) (p g : Nat) (ty : VTy) (rtz : Bool) (d a : Nat), CoreAt s p g ∧ d < 32 ∧ a < 32) ∧
    (∃ (s : State) (p g : Nat) (src dst : VTy) (rtz : Bool) (d a : Nat), CoreAt s p g ∧ d < 32 ∧ a < 32 ∧ s.clk.free < 2 ^ 64 ∧ (∀ k < min
      (vLanes src) (vLanes dst), (vCvtLane src dst (rndMode rtz) (laneOf src ((coreOf s p g).getV a) k)).isSome = true)) ∧
    (∃ (s : State) (p g : Nat) (f : Nat) (rtz : Bool) (d a b x : Nat), CoreAt s p g ∧ d < 32 ∧ a < 32 ∧ b < 32 ∧ x < 32 ∧ packFmt f = true) ∧
    (∃ (s : State) (p g : Nat) (f : Nat) (rtz : Bool) (d a b x : Nat), CoreAt s p g ∧ d < 32 ∧ a < 32 ∧ b < 32 ∧ x < 32 ∧ packFmt f = true) ∧
    (∃ (s : State) (p g : Nat) (op : BrOp) (a b tgt : Nat), CoreAt s p g ∧ a < 32 ∧ b < 32 ∧ tgt < 65536) ∧
    (∃ (s : State) (p g : Nat), CoreAt s p g) := by
  refine ⟨?_, ?_, ?_, ?_, ?_, ?_⟩
  · exact ⟨(atCore 7 47 (fun c => ((c.setX 5 0x100).setX 6 0xFFFFFFFFFFFFFFFF).setV 3 0x3F80000040000000BF800000) State.reset), 7, 47, .fp32,
    false, 3, 3, by decide +kernel⟩
  · exact ⟨(atCore 7 47 (fun c => ((c.setX 5 0x100).setX 6 0xFFFFFFFFFFFFFFFF).setV 3 0x3F80000040000000BF800000) State.reset), 7, 47, .fp32,
    .i32, true, 3, 3, by decide +kernel⟩
  · exact ⟨(atCore 7 47 (fun c => ((c.setX 5 0x100).setX 6 0xFFFFFFFFFFFFFFFF).setV 3 0x3F80000040000000BF800000) State.reset), 7, 47, 4, false,
    3, 3, 4, 5, by decide +kernel⟩
  · exact ⟨(atCore 7 47 (fun c => ((c.setX 5 0x100).setX 6 0xFFFFFFFFFFFFFFFF).setV 3 0x3F80000040000000BF800000) State.reset), 7, 47, 4, false,
    3, 3, 4, 5, by decide +kernel⟩
  · exact ⟨(atCore 7 47 (fun c => ((c.setX 5 0x100).setX 6 0xFFFFFFFFFFFFFFFF).setV 3 0x3F80000040000000BF800000) State.reset), 7, 47, .lt, 6,
    5, 65535, by decide +kernel⟩
  · exact ⟨(atCore 7 47 id State.reset), 7, 47, by decide +kernel⟩

theorem test_meets_core_system_instructions_complete_1 :
    (∃ (s : State) (p g : Nat) (d csr : Nat) (v : BitVec 64), CoreAt s p g ∧ d < 32 ∧ csrVal s p g csr = some v) ∧
    (∃ (s : State) (p g : Nat) (csr x : Nat), CoreAt s p g ∧ x < 32 ∧ (csrVal s p g csr).isSome = true) ∧
    (∃ (s : State) (p g : Nat) (d csr : Nat), CoreAt s p g ∧ d < 32 ∧ csrVal s p g csr = none) ∧
    (∃ (s : State) (p g : Nat), CoreAt s p g) ∧
    (∃ (s : State) (p g : Nat), CoreAt s p g) ∧
    (∃ (s : State) (p g : Nat), CoreAt s p g ∧ (coreOf s p g).epc.toNat % 4 = 0 ∧ (coreOf s p g).epc.toNat < 262144) ∧
    (∃ (s : State) (p g : Nat), CoreAt s p g) ∧
    (∃ (s : State) (p g : Nat) (tgt n x : Nat), CoreAt s p g ∧ tgt < 48 ∧ n < 4 ∧ x < 32) := by
  refine ⟨?_, ?_, ?_, ?_, ?_, ?_, ?_, ?_⟩
  · exact ⟨(atCore 7 47 id State.reset), 7, 47, 31, 0x024, (BitVec.ofNat 64 (uidOf 7 1 47)), by decide +kernel⟩
  · exact ⟨(atCore 7 47 (fun c => ((c.setX 5 0x100).setX 6 0xFFFFFFFFFFFFFFFF).setV 3 0x3F80000040000000BF800000) State.reset), 7, 47, 0x010, 6,
    by decide +kernel⟩
  · exact ⟨(atCore 7 47 id State.reset), 7, 47, 3, 0x025, by decide +kernel⟩
  · exact ⟨(atCore 7 47 id State.reset), 7, 47, by decide +kernel⟩
  · exact ⟨(atCore 7 47 id State.reset), 7, 47, by decide +kernel⟩
  · exact ⟨(regs1 [(R.PART_CORE_STAT.INH 7 47, 1)] (atCore 7 47 (fun c => {c with epc := 262140}) State.reset)), 7, 47, by decide +kernel⟩
  · exact ⟨(atCore 7 47 id State.reset), 7, 47, by decide +kernel⟩
  · exact ⟨(atCore 7 47 (fun c => ((c.setX 5 0x100).setX 6 0xFFFFFFFFFFFFFFFF).setV 3 0x3F80000040000000BF800000) State.reset), 7, 47, 47, 3, 6,
    by decide +kernel⟩

theorem test_meets_core_system_instructions_complete_2 :
    (∃ (s : State) (p g : Nat) (d n : Nat), CoreAt s p g ∧ d < 32 ∧ n < 4) ∧
    (∃ (s : State) (p g : Nat), CoreAt s p g) ∧
    (∃ (s : State) (p g : Nat), CoreAt s p g ∧ s.mem.errs = [] ∧ 0 < s.rd (R.PART_Q_CREDIT.CREDIT p (coreOf s p g).endQ)) ∧
    (∃ (s : State) (p g i : Nat), CoreAt s p g ∧ lowBit (irqOpen s p g) 128 0 = some i ∧ (coreOf s p g).ie = true ∧ s.rd (R.PART_CORE_STAT.INH p
      g) = 0 ∧ (coreOf s p g).shield = false ∧ (coreOf s p g).ivbase.toNat + 32 * i < 262144) ∧
    (∃ (s : State) (p g n : Nat), p < 8 ∧ g < 48 ∧ n < 2 ∧ (if n = 0 then (coreOf s p g).arm0 else (coreOf s p g).arm1) = true) := by
  refine ⟨?_, ?_, ?_, ?_, ?_⟩
  · exact ⟨(regs1 [(R.PART_CORE_MBOXn.VALUE 7 47 3, 0xFFFFFFFE)] (atCore 7 47 (fun c => (c.setX 5 0x100)) State.reset)), 7, 47, 31, 3,
    by decide +kernel⟩
  · exact ⟨(atCore 7 47 id State.reset), 7, 47, by decide +kernel⟩
  · exact ⟨(wire 7 1023 (uidOf 7 1 47) (uidOf 7 4 0) 0 7 (atCore 7 47 (fun c => {c with endQ := 1023}) State.reset)), 7, 47, by decide +kernel⟩
  · exact ⟨(regs1 [(R.PART_CORE_IPENDm.PEND 7 47 0, 0),(R.PART_CORE_IMASKm.MASK 7 47 1, 2),(R.PART_CORE_IPENDm.PEND 7 47 1, 6)] (atCore 7 47
    (fun c => {c with ivbase := 0x3000, ie := true, shield := false}) State.reset)), 7, 47, 34, by decide +kernel⟩
  · exact ⟨(atCore 7 47 (fun c => {c with arm1 := true, tcmp1 := 0xFFFFFFFFFFFFFFFF}) State.reset), 7, 47, 1, by decide +kernel⟩

theorem test_meets_core_queue_instructions_complete_1 :
    (∃ (s : State) (p g : Nat) (d q : Nat), CoreAt s p g ∧ d < 32 ∧ q < 1024 ∧ isCons s p q (uidOf p 1 g) = true ∧ (coreOf s p g).popped = [] ∧
      0 < qAvail s p q) ∧
    (∃ (s : State) (p g : Nat) (d q : Nat), CoreAt s p g ∧ d < 32 ∧ q < 1024 ∧ isCons s p q (uidOf p 1 g) = true ∧ (coreOf s p g).popped = [] ∧
      qAvail s p q = 0) ∧
    (∃ (s : State) (p g : Nat) (d q : Nat), CoreAt s p g ∧ d < 32 ∧ q < 1024 ∧ isCons s p q (uidOf p 1 g) = true ∧ (coreOf s p g).popped = []) ∧
    (∃ (s : State) (p g : Nat) (d q : Nat), CoreAt s p g ∧ d < 32 ∧ q < 1024 ∧ isProd s p q (uidOf p 1 g) = true ∧ (coreOf s p g).acquired = []
      ∧ 0 < s.rd (R.PART_Q_CREDIT.CREDIT p q)) ∧
    (∃ (s : State) (p g : Nat) (d q : Nat), CoreAt s p g ∧ d < 32 ∧ q < 1024 ∧ isProd s p q (uidOf p 1 g) = true ∧ (coreOf s p g).acquired = []
      ∧ s.rd (R.PART_Q_CREDIT.CREDIT p q) = 0) ∧
    (∃ (s : State) (p g : Nat) (d q : Nat), CoreAt s p g ∧ d < 32 ∧ q < 1024 ∧ isProd s p q (uidOf p 1 g) = true ∧ (coreOf s p g).acquired = []) ∧
    (∃ (s : State) (p g : Nat) (q : Nat), CoreAt s p g ∧ q < 1024 ∧ isCons s p q (uidOf p 1 g) = true ∧ (coreOf s p g).popped = [q] ∧ Quiet s
      (s.rd (R.PART_Q_ENDS.PROD p q))) ∧
    (∃ (s : State) (p g : Nat) (q : Nat), CoreAt s p g ∧ q < 1024 ∧ isProd s p q (uidOf p 1 g) = true ∧ (coreOf s p g).acquired = [q] ∧ Quiet s
      (s.rd (R.PART_Q_ENDS.CONS p q))) := by
  refine ⟨?_, ?_, ?_, ?_, ?_, ?_, ?_, ?_⟩
  · exact ⟨(wire 7 1023 (uidOf 7 2 3) (uidOf 7 1 47) 2 7 (atCore 7 47 id State.reset)), 7, 47, 31, 1023, by decide +kernel⟩
  · exact ⟨(wire 7 1023 (uidOf 7 2 3) (uidOf 7 1 47) 0 7 (atCore 7 47 id State.reset)), 7, 47, 31, 1023, by decide +kernel⟩
  · exact ⟨(wire 7 1023 (uidOf 7 2 3) (uidOf 7 1 47) 2 7 (atCore 7 47 id State.reset)), 7, 47, 31, 1023, by decide +kernel⟩
  · exact ⟨(wire 7 1023 (uidOf 7 1 47) (uidOf 7 2 3) 2 7 (atCore 7 47 (fun c => c.setX 6 0x123456789ABCDEF0) State.reset)), 7, 47, 31, 1023,
    by decide +kernel⟩
  · exact ⟨(wire 7 1023 (uidOf 7 1 47) (uidOf 7 2 3) 2 0 (atCore 7 47 id State.reset)), 7, 47, 31, 1023, by decide +kernel⟩
  · exact ⟨(wire 7 1023 (uidOf 7 1 47) (uidOf 7 2 3) 2 7 (atCore 7 47 (fun c => c.setX 6 0x123456789ABCDEF0) State.reset)), 7, 47, 31, 1023,
    by decide +kernel⟩
  · exact ⟨(apply (.core 383 fun c => {c with popped := [1023]}) (wire 7 1023 (uidOf 7 2 3) (uidOf 7 1 47) 2 7 (atCore 7 47 id State.reset))),
    7, 47, 1023, by decide +kernel⟩
  · exact ⟨(apply (.core 383 fun c => {c with acquired := [1023]}) (wire 7 1023 (uidOf 7 1 47) (uidOf 7 2 3) 2 7 (atCore 7 47 id State.reset))),
    7, 47, 1023, by decide +kernel⟩

theorem test_meets_core_queue_instructions_complete_2 :
    (∃ (s : State) (p g : Nat) (q x : Nat), CoreAt s p g ∧ q < 1024 ∧ x < 32 ∧ isProd s p q (uidOf p 1 g) = true ∧ (coreOf s p g).acquired = []
      ∧ 0 < s.rd (R.PART_Q_CREDIT.CREDIT p q) ∧ s.mem.errs = [] ∧ uKind (s.rd (R.PART_Q_ENDS.CONS p q)) ≠ 4 ∧ Quiet s (s.rd (R.PART_Q_ENDS.CONS
      p q))) := by
  exact ⟨(wire 7 1023 (uidOf 7 1 47) (uidOf 7 2 3) 2 7 (atCore 7 47 (fun c => c.setX 6 0x123456789ABCDEF0) State.reset)), 7, 47, 1023, 6,
    by decide +kernel⟩

theorem test_meets_memory_tier_commands_complete_1 :
    (∃ (s : State) (c : Nat), c < 32 ∧ t1Live s c = true) ∧
    (∃ (s : State) (c : Nat) (d : Bool), c < 32 ∧ t1Live s c = true) ∧
    (∃ (s : State) (c : Nat), c < 32 ∧ t1Live s c = true) ∧
    (∃ (s : State) (c : Nat), c < 32 ∧ t1Live s c = true ∧ s.rd (R.MEM_T1_RECAL_c.RETRY c) < 4) ∧
    (∃ (s : State) (a m : Nat), a < 2 ^ 56 ∧ tierCode (regionOf s a) ≤ 2 ∧ regionOf s a ≠ .none ∧ a % cwSize (regionOf s a) = 0 ∧ tget []
      s.mem.errs a = [] ∧ scrubs s (regionOf s a) = true ∧ scrubSkips s a = false ∧ m = scrubIdx (regionOf s a)) ∧
    (∃ (s : State) (a p : Nat), a < 2 ^ 56 ∧ a % 32 = 0 ∧ regionOf s a = .pool p ∧ scrubs s (.pool p) = true ∧ scrubSkips s a = false ∧ tget []
      s.mem.errs a ≠ [] ∧ decSram (tget [] s.mem.errs a) = .bad) ∧
    (∃ (s : State) (a p k v : Nat), a < 2 ^ 56 ∧ a % 32 = 0 ∧ regionOf s a = .pool p ∧ scrubs s (.pool p) = true ∧ scrubSkips s a = false ∧
      decSram (tget [] s.mem.errs a) = .fix k v ∧ tget [] s.mem.errs a ≠ []) ∧
    (∃ (s : State) (n : Nat), n < 3 ∧ (passOf s n).stopped = true ∧ (passOf s n).late = false) := by
  refine ⟨?_, ?_, ?_, ?_, ?_, ?_, ?_, ?_⟩
  · exact ⟨{State.reset with ctl.mode := .run, regs := []}, 31, by decide +kernel⟩
  · exact ⟨{State.reset with ctl.mode := .run, regs := []}, 31, true, by decide +kernel⟩
  · exact ⟨(regs1 [(R.MEM_T1_RECAL_c.FAILED 31, 0)] {State.reset with ctl.mode := .run}), 31, by decide +kernel⟩
  · exact ⟨(regs1 [(R.MEM_T1_RECAL_c.FAILED 31, 0),(R.MEM_T1_RECAL_c.RETRY 31, 3)] {State.reset with ctl.mode := .run}), 31, by decide +kernel⟩
  · exact ⟨{State.reset with ctl.mode := .run, ctl.rungs := [], mem.errs := [], regs := []}, 0x7FC0, 0, by decide +kernel⟩
  · exact ⟨(regs1 [(R.PART_TOP_STAT.UNAVAIL 1,0)]
    {State.reset with ctl.mode := .run, ctl.rungs := [], mem.errs := [(poolBase 1 + 64, [(0, 1), (1, 1)])]}), (poolBase 1 + 64), 1,
    by decide +kernel⟩
  · exact ⟨(regs1 [(R.PART_TOP_STAT.UNAVAIL 1,0),(R.MEM_CE_SR_p.COUNT 1,6)]
    {State.reset with ctl.mode := .run, ctl.rungs := [], mem.errs := [(poolBase 1 + 64, [(5, 1)])]}), (poolBase 1 + 64), 1, 5, 1,
    by decide +kernel⟩
  · exact ⟨{State.reset with mem.scrub := [(2, some ⟨[], 5, true, false⟩)]}, 2, by decide +kernel⟩

theorem test_meets_memory_tier_commands_complete_2 :
    (∃ (s : State) (a v cw : Nat), cw ∈ s.mem.lostCw ∧ cw / 4096 = a / 4096 ∧ tget [] s.mem.errs cw ≠ [] ∧ imageByte s (a / 4096 * 4096) = some
      v ∧ v % 4096 = 0 ∧ tierCode (regionOf s (a / 4096 * 4096)) ≤ 1 ∧ spanOk s (a / 4096 * 4096) 4096 = true ∧ chanFailed s (a / 4096 * 4096)
      4096 = false ∧ s.mem.badPages = []) ∧
    (∃ (s : State) (off len a : Nat) (ide : Bool), bar4Addr s off len = some a ∧ ideRefuses s ide = false ∧ s.mem.errs = [] ∧ chanFailed s a len
      = false) ∧
    (∃ (s : State) (off a : Nat) (b : List Byte) (ide : Bool), bar4Addr s off b.length = some a ∧ ideRefuses s ide = false ∧ s.mem.errs = [] ∧
      chanFailed s a b.length = false) := by
  refine ⟨?_, ?_, ?_⟩
  · exact ⟨(regs1 [(R.PART_TOP_STAT.UNAVAIL 0,0)] (apply (.write (slotBase 0 + 0x2000) [7,8,9])
    {State.reset with nv.super.active := 0, mem.badPages := [], mem.lostCw := [0x5F40], mem.errs := [(0x5F40, [(0, 1), (1, 1)])], host.ctx := [(3, {Ctx.init with ranges := [(0x2000, 0x5000, 0x1000, 0)]})]})),
    0x5FFF, (slotBase 0 + 0x2000), 0x5F40, by decide +kernel⟩
  · exact ⟨(apply (.write 0x5000 [7,8,9]) (regs1 [(R.PART_TOP_STAT.UNAVAIL 0,0),(R.MEM_BAR4_WINw.EN 3,1),(R.MEM_BAR4_WINw.BASE 3,0)]
    {State.reset with nv.settings.ideReq := false, mem.errs := []})), (3 * 2^34 + 0x5001), 7, 0x5001, false, by decide +kernel⟩
  · exact ⟨(regs1 [(R.PART_TOP_STAT.UNAVAIL 0,0),(R.MEM_BAR4_WINw.EN 3,1),(R.MEM_BAR4_WINw.BASE 3,0)]
    {State.reset with nv.settings.ideReq := false, mem.errs := []}), (3 * 2^34 + 0x5001), 0x5001, [7,8,0,9], false, by decide +kernel⟩

theorem test_meets_rings_and_gate_complete_1 :
    (∃ (s : State) (n : Nat) (v : BitVec 32), n < 256 ∧ ideBlocks s = false ∧ s.rd (R.HIF_RING_CFGn.EN n) = 1 ∧ v.toNat < sqSize s n) ∧
    (∃ (s : State) (n : Nat) (v : BitVec 32), n < 256 ∧ ideBlocks s = false ∧ s.rd (R.HIF_RING_CFGn.EN n) = 1 ∧ sqSize s n ≤ v.toNat ∧ s.rd
      (R.HIF_RING_STATn.ERR n) = 0) ∧
    (∃ (s : State) (n k : Nat) (v : BitVec 32), n < 256 ∧ ideBlocks s = false ∧ s.rd (R.HIF_RING_CFGn.EN n) = 1 ∧ v.toNat < cqSize s n ∧ k =
      (v.toNat + cqSize s n - (ringOf s n).cqHead) % cqSize s n ∧ k ≤ (ringOf s n).used) ∧
    (∃ (s : State) (n : Nat) (b : List Byte), nextRing s = some n) ∧
    (∃ (s : State) (n : Nat), nextRing s = some n ∧ s.rd (R.HIF_RING_STATn.ERR n) = 0) ∧
    (∃ (s : State) (opid : Nat) (x : Op), opOf s opid = some x ∧ x.ring < 256 ∧ x.st = .locked ∧ x.ready = true ∧ x.after = [] ∧ s.rd
      (R.HIF_RING_STATn.ERR_CODE x.ring) ≠ 3) ∧
    (∃ (s : State) (n : Nat), n < 256 ∧ 0 < (ringOf s n).unsig ∧ s.rd (R.HIF_RING_IRQn.CE n) = 1) ∧
    (∃ s : State, (s.ctl.mode = .ready ∨ s.ctl.mode = .drain ∨ s.ctl.mode = .hold)) := by
  refine ⟨?_, ?_, ?_, ?_, ?_, ?_, ?_, ?_⟩
  · exact ⟨(regs1 [(R.HIF_RING_CFGn.EN 255, 1),(R.HIF_RING_CFGn.SQ_LOG2 255, 6)] {State.reset with nv.settings.ideReq := false}), 255, 63,
    by decide +kernel⟩
  · exact ⟨(regs1 [(R.HIF_RING_CFGn.EN 255, 1),(R.HIF_RING_CFGn.SQ_LOG2 255, 6),(R.HIF_RING_STATn.ERR 255, 0)]
    {State.reset with nv.settings.ideReq := false}), 255, 64, by decide +kernel⟩
  · exact ⟨(regs1 [(R.HIF_RING_CFGn.EN 255, 1),(R.HIF_RING_CFGn.CQ_LOG2 255, 6)]
    {State.reset with nv.settings.ideReq := false, host.rings := [(255, {Ring.init with cqHead := 60, used := 7})]}), 255, 5, 1,
    by decide +kernel⟩
  · exact ⟨(regs1 [(R.HIF_RING_CFGn.EN 255, 1),(R.HIF_RING_CFGn.CQ_LOG2 255, 6),(R.HIF_RING_POSn.SQ_HEAD 255, 63),(R.HIF_RING_STATn.ERR 255,
    0),(R.HIF_RING_STATn.ERR_CODE 255, 0),(R.HIF_RING_STATn.OUTSTANDING 255, 3)] (withOps []
    {State.reset with ctl.mode := .run, host.rrRing := 255, host.rrCnt := 0, host.rings := [(255, {Ring.init with wraps := 260})]})), 255, [],
    by decide +kernel⟩
  · exact ⟨(regs1 [(R.HIF_RING_CFGn.EN 255, 1),(R.HIF_RING_CFGn.CQ_LOG2 255, 6),(R.HIF_RING_POSn.SQ_HEAD 255, 63),(R.HIF_RING_STATn.ERR 255,
    0),(R.HIF_RING_STATn.ERR_CODE 255, 0),(R.HIF_RING_STATn.OUTSTANDING 255, 3)] (withOps []
    {State.reset with ctl.mode := .run, host.rrRing := 255, host.rrCnt := 0, host.rings := [(255, {Ring.init with wraps := 260})]})), 255,
    by decide +kernel⟩
  · exact ⟨(let x := regs1 [(R.HIF_RING_STATn.ERR_CODE 255, 0),(R.HIF_RING_POSn.CQ_TAIL 255, 63),(R.HIF_RING_CFGn.CQ_LOG2 255, 6)] (withOps
    [{mkOp 5 255 .locked [1] with ready := true}] State.reset); x), 5, {mkOp 5 255 .locked [1] with ready := true}, by decide +kernel⟩
  · exact ⟨(regs1 [(R.HIF_RING_IRQn.CE 255, 1)] {State.reset with host.rings := [(255, {Ring.init with unsig := 2})]}), 255, by decide +kernel⟩
  · exact ⟨{State.reset with ctl.mode := .drain}, by decide +kernel⟩

theorem test_meets_rings_and_gate_complete_2 :
    (∃ (s : State) (c : Nat) (ph : Phase), s.ctl.mode = .run ∧ s.rd R.PWR_STAT.CLIP_LAG = 0 ∧ s.rd R.HIF_CTL.GATE_STOP = 0 ∧ s.host.gateQ = [c]
      ∧ phaseOf s c = some ph ∧ ph.units = [] ∧ ph.argQ = 0xFFFF ∧ ph.fabric = false ∧ (1000 * ph.decl : Nat) ≤ s.host.level ∧ s.host.level ≤
      gateCap) ∧
    (∃ (s : State) (c : Nat) (ph : Phase), c < 64 ∧ gateClosed s = false ∧ s.host.gateQ = [c] ∧ phaseOf s c = some ph ∧ ph.units = [] ∧ ph.argQ
      = 0xFFFF ∧ ph.fabric = true) ∧
    (∃ (s : State) (c status detail unit info0 : Nat) (ph : Phase) (x : Op), c < 64 ∧ phaseOf s c = some ph ∧ ph.outcome = some (status, detail,
      unit, info0) ∧ ph.units.all (ph.ended.contains ·) = true ∧ s.rd (R.HIF_CTX_STATc.STATE c) = CS.RUN ∧ opOf s ph.opid = some x ∧ x.st ≠
      .locked) := by
  refine ⟨?_, ?_, ?_⟩
  · exact ⟨(regs1 [(R.PWR_STAT.CLIP_LAG, 0),(R.HIF_CTL.GATE_STOP,0)]
    {State.reset with ctl.mode := .run, host.gateQ := [63], host.level := 100001, host.ctx := [(63, {Ctx.init with phase := some {ph0 with argQ := 0xFFFF}})]}),
    63, {ph0 with argQ := 0xFFFF}, by decide +kernel⟩
  · exact ⟨(regs1 [(R.PWR_STAT.CLIP_LAG, 0),(R.HIF_CTL.GATE_STOP,0)]
    {State.reset with ctl.mode := .run, host.gateQ := [63], host.level := -7, host.ctx := [(63, {Ctx.init with phase := some {ph0 with argQ := 0xFFFF, fabric := true, enterAt := 9}})]}),
    63, {ph0 with argQ := 0xFFFF, fabric := true, enterAt := 9}, by decide +kernel⟩
  · exact ⟨(regs1 [(R.HIF_CTX_STATc.STATE 63, 3), (R.PART_Q_CFG.VALID 1 5, 1)] (withOps [mkOp 5 1 .started [1]]
    {State.reset with host.level := 77, host.ctx := [(63, {Ctx.init with phase := some {ph0 with outcome := some (4, 7, 3, 2), admitted := true, meas := 99999999999, units := [3], ended := [3], queues := [(1,5)]}})]})),
    63, 4, 7, 3, 2,
    {ph0 with outcome := some (4, 7, 3, 2), admitted := true, meas := 99999999999, units := [3], ended := [3], queues := [(1,5)]}, (mkOp 5 1
    .started [1]), by decide +kernel⟩

theorem test_meets_descriptors_complete_1 :
    (∃ (s : State) (opid : Nat) (x : Op), opOf s opid = some x ∧ x.opc = OPC.NOP ∧ mayStart s x = true) ∧
    (∃ (s : State) (opid : Nat) (x : Op), opOf s opid = some x ∧ x.opc = OPC.RUN ∧ mayStart s x = true ∧ s.rd (R.HIF_CTX_STATc.STATE x.slot) =
      CS.IDLE ∧ x.f 1 0 16 < (tget Ctx.init s.host.ctx x.slot).nPhase ∧ s.rd (R.HIF_CTX_STATc.LOST x.slot) = 0) ∧
    (∃ (s : State) (opid : Nat) (x : Op) (d : HostData), opOf s opid = some x ∧ x.opc = OPC.COPY ∧ mayStart s x = true ∧ x.f 3 32 1 = 1 ∧ x.f 3
      33 1 = 1 ∧ x.f 2 0 64 < vaultBase ∧ s.mem.errs = [] ∧ isVault (x.f 1 0 64) = false ∧ chanFailed s (x.f 1 0 64) (x.f 3 0 32) = false ∧
      chanFailed s (x.f 2 0 64) (x.f 3 0 32) = false) ∧
    (∃ (s : State) (opid : Nat) (x : Op) (b : List Byte), opOf s opid = some x ∧ x.opc = OPC.COPY ∧ mayStart s x = true ∧ x.f 3 32 1 = 0 ∧ x.f 3
      33 1 = 1 ∧ x.f 2 0 64 < vaultBase ∧ s.mem.errs = [] ∧ chanFailed s (x.f 2 0 64) (x.f 3 0 32) = false ∧ b.length = x.f 3 0 32) ∧
    (∃ (s : State) (opid : Nat) (x : Op) (d : HostData), opOf s opid = some x ∧ x.opc = OPC.COPY ∧ mayStart s x = true ∧ x.f 3 32 1 = 1 ∧ x.f 3
      33 1 = 0 ∧ s.mem.errs = [] ∧ isVault (x.f 1 0 64) = false ∧ chanFailed s (x.f 1 0 64) (x.f 3 0 32) = false) ∧
    (∃ (s : State) (opid : Nat) (x : Op) (b : List Byte) (i : Install), opOf s opid = some x ∧ x.opc = OPC.LOAD ∧ mayStart s x = true ∧ x.first
      = false ∧ x.last = false ∧ s.vlt.held = false ∧ s.vlt.inst = some i ∧ b.length = x.f 3 0 32 ∧ wearUnits b.length ≤ s.vlt.wear ∧ s.vlt.wear
      ≤ 305000000) ∧
    (∃ (s : State) (opid : Nat) (x : Op) (i : Install), opOf s opid = some x ∧ x.last = true ∧ x.st = .started ∧ s.vlt.inst = some i ∧
      s.vlt.waiting.contains (opKey opid) = false ∧ i.blocks.contains 0 = true ∧ s.mem.badPages = [] ∧ ((List.range ((leNat (peek s (slotBase (1
      - s.nv.super.active) + 0x10) 8) + 65535) / 65536)).all (i.blocks.contains ·)) = true) ∧
    (∃ (s : State) (opid : Nat) (x : Op), opOf s opid = some x ∧ x.opc = OPC.BIND ∧ x.unbind = false ∧ mayStart s x = true ∧ s.rd
      (R.HIF_CTX_STATc.STATE x.slot) = CS.UNBOUND ∧ planCheck s (x.f 1 0 6) = 0 ∧ planConflict s x.slot (planCtx s (x.f 1 0 6)) = false) := by
  refine ⟨?_, ?_, ?_, ?_, ?_, ?_, ?_, ?_⟩
  · exact ⟨(withOps [mkOp 5 1 .accepted [0]] State.reset), 5, (mkOp 5 1 .accepted [0]), by decide +kernel⟩
  · exact ⟨(regs1 [(R.HIF_CTX_STATc.STATE 63, 2),(R.HIF_CTX_STATc.LOST 63, 0)] (withOps [mkOp 5 1 .accepted [1 + 63 * 65536, 3, 7, 8, 9, 10,
    11]] {State.reset with host.ctx := [(63, {Ctx.init with nPhase := 4})]})), 5, (mkOp 5 1 .accepted [1 + 63 * 65536, 3, 7, 8, 9, 10, 11]),
    by decide +kernel⟩
  · exact ⟨(apply (.write 0x7000 [1,2,3]) (withOps [mkOp 5 1 .accepted [2, 0x7000, 0x9000, 3 * 2^32 + 64]] {State.reset with mem.errs := []})),
    5, (mkOp 5 1 .accepted [2, 0x7000, 0x9000, 3 * 2^32 + 64]), .error, by decide +kernel⟩
  · exact ⟨(withOps [mkOp 5 1 .accepted [2, 0x7000, 0x9000, 2 * 2^32 + 3]] {State.reset with mem.errs := []}), 5, (mkOp 5 1 .accepted [2,
    0x7000, 0x9000, 2 * 2^32 + 3]), [7,8,9], by decide +kernel⟩
  · exact ⟨(apply (.write 0x7000 [1,2,3]) (withOps [mkOp 5 1 .accepted [2, 0x7000, 0x9000, 2^32 + 64]] {State.reset with mem.errs := []})), 5,
    (mkOp 5 1 .accepted [2, 0x7000, 0x9000, 2^32 + 64]), .error, by decide +kernel⟩
  · exact ⟨(withOps [mkOp 5 1 .accepted [3, 0x7000, 0x10000, crc32c [7,8,9] * 2^32 + 3]]
    {State.reset with vlt.held := false, vlt.wear := 1, vlt.inst := some ⟨[], []⟩}), 5, (mkOp 5 1 .accepted [3, 0x7000, 0x10000, crc32c [7,8,9]
    * 2^32 + 3]), [7,8,9], ⟨[], []⟩, by decide +kernel⟩
  · exact ⟨(withOps [mkOp 5 1 .started [3, 0x7000, 0x10000, 3, 2]]
    {State.reset with vlt.inst := some ⟨[0], []⟩, bytes := [], mem.badPages := []}), 5, (mkOp 5 1 .started [3, 0x7000, 0x10000, 3, 2]), ⟨[0],
    []⟩, by decide +kernel⟩
  · exact ⟨(apply (.write (slotBase 0) ((List.range 64).map fun i => if i = 0xA ∨ i = 0x12 then 1 else if i = 0x29 then 2 else 0)) (regs1
    [(R.HIF_CTX_STATc.STATE 63, 0)] (withOps [mkOp 5 1 .accepted [4 + 63 * 65536, 0]]
    {State.reset with bytes := [], nv.super.active := 0, nv.super.verA := true}))), 5, (mkOp 5 1 .accepted [4 + 63 * 65536, 0]),
    by decide +kernel⟩

theorem test_meets_descriptors_complete_2 :
    (∃ (s : State) (slot opid : Nat) (x : Op), slot < 64 ∧ s.rd (R.HIF_CTX_STATc.STATE slot) = CS.BINDING ∧ (tget Ctx.init s.host.ctx
      slot).bindOp = some opid ∧ opOf s opid = some x ∧ x.st ≠ .locked ∧ s.mem.badPages = []) ∧
    (∃ (s : State) (opid : Nat) (x : Op), opOf s opid = some x ∧ x.unbind = true ∧ mayStart s x = true ∧ s.rd (R.HIF_CTX_STATc.STATE x.slot) ≠
      CS.UNBOUND) ∧
    (∃ (s : State) (opid : Nat) (x : Op), opOf s opid = some x ∧ x.opc = OPC.FENCE ∧ mayStart s x = true ∧ fenceScope s x = []) ∧
    (∃ (s : State) (opid w : Nat) (x y : Op), opOf s opid = some x ∧ x.opc = OPC.ABORT ∧ x.f 1 32 1 = 0 ∧ mayStart s x = true ∧ x.f 1 0 32 ≠
      opid ∧ fetchedWrap s (x.f 1 0 32) = some w ∧ (ringOf s (x.f 1 0 32 / 2 ^ 24)).aborts = [] ∧ opOf s (x.f 1 0 32) = some y ∧ isLocked s y =
      false ∧ phaseSlot s (x.f 1 0 32) = none ∧ y.opc = OPC.COPY) ∧
    (∃ (s : State) (opid : Nat) (x y : Op), opOf s opid = some x ∧ x.opc = OPC.ABORT ∧ x.f 1 32 1 = 1 ∧ mayStart s x = true ∧ s.host.ops.filter
      (fun z => z.opc != OPC.ABORT && takesCtx z.words && z.slot == x.slot && !isLocked s z) = [y] ∧ opOf s y.opid = some y ∧ y.opid ≠ opid ∧
      phaseSlot s y.opid = none ∧ y.opc = OPC.PREF) ∧
    (∃ (s : State) (opid : Nat) (x : Op), opOf s opid = some x ∧ x.opc = OPC.QUERY ∧ mayStart s x = true) ∧
    (∃ (s : State) (opid : Nat) (x : Op), opOf s opid = some x ∧ x.opc = OPC.PREF ∧ mayStart s x = true ∧ s.rd (R.HIF_CTX_STATc.STATE x.slot) ≠
      CS.UNBOUND) := by
  refine ⟨?_, ?_, ?_, ?_, ?_, ?_, ?_⟩
  · exact ⟨(regs1 [(R.HIF_CTX_STATc.STATE 63, 1)] (withOps [mkOp 5 1 .started [4 + 63 * 65536, 0]]
    {State.reset with mem.badPages := [], host.ctx := [(63, {Ctx.init with bindOp := some 5, energy := 9})]})), 63, 5, (mkOp 5 1 .started [4 +
    63 * 65536, 0]), by decide +kernel⟩
  · exact ⟨(regs1 [(R.HIF_CTX_STATc.STATE 63, 2)] (withOps [mkOp 5 1 .accepted [4 + 63 * 65536, 256]]
    {State.reset with host.ctx := [(63, {Ctx.init with energy := 9})]})), 5, (mkOp 5 1 .accepted [4 + 63 * 65536, 256]), by decide +kernel⟩
  · exact ⟨(withOps [mkOp 6 2 .started [0], mkOp 5 1 .accepted [5, 0]] State.reset), 5, (mkOp 5 1 .accepted [5, 0]), by decide +kernel⟩
  · exact ⟨(regs1 [(R.HIF_RING_POSn.SQ_HEAD 0, 9)] (withOps [mkOp 6 0 .started [2], mkOp 5 1 .accepted [6, 6]]
    {State.reset with host.ctx := []})), 5, 0, (mkOp 5 1 .accepted [6, 6]), (mkOp 6 0 .started [2]), by decide +kernel⟩
  · exact ⟨(withOps [mkOp 6 0 .accepted [8 + 63 * 65536], mkOp 5 1 .accepted [6 + 63 * 65536, 2^32]] {State.reset with host.ctx := []}), 5,
    (mkOp 5 1 .accepted [6 + 63 * 65536, 2^32]), (mkOp 6 0 .accepted [8 + 63 * 65536]), by decide +kernel⟩
  · exact ⟨(withOps [mkOp 5 1 .accepted [7, 0x1000, 5]] State.reset), 5, (mkOp 5 1 .accepted [7, 0x1000, 5]), by decide +kernel⟩
  · exact ⟨(regs1 [(R.HIF_CTX_STATc.STATE 63, 2)] (withOps [mkOp 5 1 .accepted [8 + 63 * 65536, 1]] {State.reset with nv.fuses.variant := 2})),
    5, (mkOp 5 1 .accepted [8 + 63 * 65536, 1]), by decide +kernel⟩

theorem test_meets_port_commands_complete_1 :
    (∃ (s : State) (n : Nat), n < 36 ∧ s.rd (R.FZ_PORT_STAT.STATE n) = PS.TRAINING ∧ portsLive s = true ∧ s.rd R.FZ_VERIFY_CFG.IDENT_EN = 1) ∧
    (∃ (s : State) (n : Nat), n < 36 ∧ s.rd (R.FZ_PORT_STAT.STATE n) = PS.TRAINING ∧ portsLive s = true ∧ s.rd R.FZ_VERIFY_CFG.IDENT_EN = 0 ∧
      idleSpare s n = false ∧ testWanted s n = false) ∧
    (∃ (s : State) (n loc port : Nat), n < 36 ∧ s.rd (R.FZ_PORT_STAT.STATE n) = PS.IDENT ∧ s.rd R.FZ_VERIFY_CFG.IDENT_EN = 1 ∧ s.rd
      (R.FZ_PORT_MAP.USED n) = 1 ∧ s.rd (R.FZ_PORT_MAP.FAR_LOC n) = loc ∧ s.rd (R.FZ_PORT_MAP.FAR_PORT n) = port ∧ loc ≠ ownLoc s ∧ idleSpare s
      n = false) ∧
    (∃ (s : State) (n loc port : Nat), n < 36 ∧ s.rd (R.FZ_PORT_STAT.STATE n) = PS.IDENT ∧ s.rd R.FZ_VERIFY_CFG.IDENT_EN = 1 ∧ s.rd
      (R.FZ_PORT_MAP.USED n) = 1 ∧ (s.rd (R.FZ_PORT_MAP.FAR_LOC n) ≠ loc ∨ s.rd (R.FZ_PORT_MAP.FAR_PORT n) ≠ port ∨ loc = ownLoc s)) ∧
    (∃ (s : State) (n loc port : Nat), n < 36 ∧ loc < 2 ^ 19 ∧ port < 64 ∧ s.rd (R.FZ_PORT_STAT.STATE n) = PS.IDENT ∧ s.rd
      R.FZ_VERIFY_CFG.IDENT_EN = 1 ∧ s.rd (R.FZ_PORT_MAP.USED n) = 0) ∧
    (∃ (s : State) (n : Nat), n < 36 ∧ (s.rd (R.FZ_PORT_STAT.STATE n) = PS.TRAINING ∨ (s.rd (R.FZ_PORT_STAT.STATE n) = PS.IDENT ∧ s.rd
      R.FZ_VERIFY_CFG.IDENT_EN = 1 ∧ s.rd (R.FZ_PORT_FAR.VALID n) = 0))) ∧
    (∃ (s : State) (n : Nat), n < 36 ∧ (s.rd (R.FZ_PORT_STAT.STATE n) = PS.IDENT ∨ s.rd (R.FZ_PORT_STAT.STATE n) = PS.UP) ∧ s.rd
      (R.FZ_PORT_FAR.VALID n) = 0) ∧
    (∃ (s : State) (n : Nat), n < 36 ∧ (s.rd (R.FZ_PORT_STAT.STATE n) = PS.UP ∨ s.rd (R.FZ_PORT_STAT.STATE n) = PS.IDENT ∨ s.rd
      (R.FZ_PORT_STAT.STATE n) = PS.HELD)) := by
  refine ⟨?_, ?_, ?_, ?_, ?_, ?_, ?_, ?_⟩
  · exact ⟨(regs1 [(R.FZ_PORT_STAT.STATE 35,1),(R.RST_ESC_STAT.READMIT_PEND,0),(R.FZ_VERIFY_CFG.IDENT_EN,1)]
    {State.reset with ctl.mode := .run}), 35, by decide +kernel⟩
  · exact ⟨(regs1 [(R.FZ_PORT_STAT.STATE 33,1),(R.RST_ESC_STAT.READMIT_PEND,0),(R.FZ_VERIFY_CFG.IDENT_EN,0),(R.FZ_VERIFY_CFG.BER_BOOT,0)]
    {State.reset with ctl.mode := .run, fab.ports := []}), 33, by decide +kernel⟩
  · exact ⟨(regs1 [(R.FZ_PORT_STAT.STATE 35,2),(R.FZ_PORT_MAP.USED 35,1),(R.FZ_PORT_MAP.SUBST 35,1),(R.FZ_PORT_MAP.FAR_LOC
    35,0x7FFFF),(R.FZ_PORT_MAP.FAR_PORT 35,63),(R.FZ_VERIFY_CFG.BER_BOOT,0),(R.FZ_VERIFY_CFG.IDENT_EN,1),(R.RST_STRAP.LOC,8)]
    {State.reset with ctl.mode := .run, fab.ports := []}), 35, 0x7FFFF, 63, by decide +kernel⟩
  · exact ⟨(regs1 [(R.FZ_PORT_STAT.STATE 35,2),(R.FZ_PORT_MAP.USED 35,1),(R.FZ_PORT_MAP.FAR_LOC 35,0x7FFFF),(R.FZ_PORT_MAP.FAR_PORT
    35,63),(R.FZ_VERIFY_CFG.BER_BOOT,0),(R.FZ_VERIFY_CFG.IDENT_EN,1),(R.RST_STRAP.LOC,8)] {State.reset with ctl.mode := .run, fab.ports := []}),
    35, 0x7FFFE, 63, by decide +kernel⟩
  · exact ⟨(regs1 [(R.FZ_PORT_STAT.STATE 35,2),(R.FZ_PORT_MAP.USED 35,0),(R.FZ_VERIFY_CFG.IDENT_EN,1)]
    {State.reset with ctl.mode := .run, fab.ports := []}), 35, 0x7FFFE, 63, by decide +kernel⟩
  · exact ⟨(regs1 [(R.FZ_PORT_STAT.STATE 35,1),(R.FZ_PORT_MAP.USED 35,1)] State.reset), 35, by decide +kernel⟩
  · exact ⟨(regs1 [(R.FZ_PORT_STAT.STATE 35,2),(R.FZ_PORT_FAR.VALID 35,0)] State.reset), 35, by decide +kernel⟩
  · exact ⟨(regs1 [(R.FZ_PORT_STAT.STATE 35,5)] State.reset), 35, by decide +kernel⟩

theorem test_meets_port_commands_complete_2 :
    (∃ (s : State) (n why : Nat), n < 36 ∧ (s.rd (R.FZ_PORT_STAT.STATE n) = PS.UP ∨ s.rd (R.FZ_PORT_STAT.STATE n) = PS.TEST)) ∧
    (∃ (s : State) (n cnt : Nat), n < 36 ∧ s.rd (R.FZ_PORT_STAT.STATE n) = PS.UP) ∧
    (∃ (s : State) (n : Nat), n < 36 ∧ s.rd (R.FZ_PORT_STAT.STATE n) = PS.UP) ∧
    (∃ (s : State) (n : Nat), n < 36 ∧ s.rd (R.FZ_PORT_STAT.STATE n) = PS.DOWN) ∧
    (∃ (s : State) (fa gen m port : Nat) (up : Bool), fa < 2 ^ 20 ∧ gen < 256 ∧ m < 256 ∧ port < 36 ∧ genOk s fa gen = true) := by
  refine ⟨?_, ?_, ?_, ?_, ?_⟩
  · exact ⟨(regs1 [(R.FZ_PORT_STAT.STATE 35,4)] State.reset), 35, 8, by decide +kernel⟩
  · exact ⟨(regs1 [(R.FZ_PORT_STAT.STATE 35,4)] State.reset), 35, 1000, by decide +kernel⟩
  · exact ⟨(regs1 [(R.FZ_PORT_STAT.STATE 35,4)] State.reset), 35, by decide +kernel⟩
  · exact ⟨(regs1 [(R.FZ_PORT_STAT.STATE 35,7)] State.reset), 35, by decide +kernel⟩
  · exact ⟨(regs1 []
    {State.reset with fab.bank0 := ⟨[(5, (2^63 ||| 3 <<< 52 : BitVec 64))], [], [], []⟩, fab.bank1 := ⟨[(5, 2^63 ||| 3 <<< 52)], [], [], []⟩}),
    5, 3, 255, 35, false, by decide +kernel⟩

theorem test_meets_port_tests_complete :
    (∃ (s : State) (n : Nat), n < 36 ∧ s.rd (R.FZ_PORT_STAT.STATE n) = PS.UP) ∧
    (∃ (s : State) (n : Nat), n < 36 ∧ s.rd (R.FZ_PORT_STAT.STATE n) = PS.IDENT) ∧
    (∃ (s : State) (n : Nat), n < 36 ∧ s.rd (R.FZ_PORT_STAT.STATE n) = PS.TEST ∧ (tget PortSt.init s.fab.ports n).starter = true ∧ (tget
      PortSt.init s.fab.ports n).agreed = false) ∧
    (∃ (s : State) (n : Nat) (pass : Bool), n < 36 ∧ s.rd (R.FZ_PORT_STAT.STATE n) = PS.TEST) ∧
    (∃ (s : State) (n errs : Nat), n < 36 ∧ s.rd (R.FZ_PORT_STAT.STATE n) = PS.TEST ∧ (tget PortSt.init s.fab.ports n).agreed = true) ∧
    (∃ (s : State) (n : Nat), n < 36 ∧ 0 < s.rd R.FZ_VERIFY_CFG.BER_INTERVAL_H ∧ (∀ m < 36, s.rd (R.FZ_PORT_STAT.STATE m) ≠ PS.TEST) ∧ s.rd
      (R.FZ_PORT_STAT.STATE n) = PS.UP) := by
  refine ⟨?_, ?_, ?_, ?_, ?_, ?_⟩
  · exact ⟨(regs1 [(R.FZ_PORT_STAT.STATE 35,4),(R.RST_STRAP.LOC,8),(R.FZ_PORT_FAR.LOC 35,7)] State.reset), 35, by decide +kernel⟩
  · exact ⟨(regs1 [(R.FZ_PORT_STAT.STATE 35,2)] State.reset), 35, by decide +kernel⟩
  · exact ⟨(regs1 [(R.FZ_PORT_STAT.STATE 35,3)] {State.reset with fab.ports := [(35, {PortSt.init with starter := true})]}), 35,
    by decide +kernel⟩
  · exact ⟨{regs1 [(R.FZ_PORT_STAT.STATE 35,3)] State.reset with fab.ports := [(35, {PortSt.init with passed := true})]}, 35, true,
    by decide +kernel⟩
  · exact ⟨(regs1 [(R.FZ_PORT_STAT.STATE 35,3)]
    {State.reset with fab.ports := [(35, {PortSt.init with agreed := true, farPass := some true})]}), 35, 0, by decide +kernel⟩
  · exact ⟨(regs1 ((List.range 36).map fun m => (R.FZ_PORT_STAT.STATE m, 4)) (regs1 [(R.FZ_VERIFY_CFG.BER_INTERVAL_H,9),(R.FZ_PORT_FAR.LOC
    35,9),(R.RST_STRAP.LOC,8)] State.reset)), 35, by decide +kernel⟩

theorem test_meets_routing_and_collectives_complete_1 :
    (∃ (s : State) (k k1 k2 : Pkt) (e : RouteEnv) (p : Nat), e.dirUe = false ∧ hDST k < 0xF0000 ∧ canInject s = true ∧ lapseOk s (ownHdr s k) =
      true ∧ entUni (dirEnt s (hEPOCH (ownHdr s k)) (hDST (ownHdr s k))) = true ∧ entLoc (dirEnt s (hEPOCH (ownHdr s k)) (hDST (ownHdr s k))) ≠
      ownLoc s ∧ choosePath s (ownHdr s k) e = some k1 ∧ route s k1 true e = some (some p, k2)) ∧
    (∃ (s : State) (k : Pkt) (e : RouteEnv), e.dirUe = false ∧ hDST k < 0xF0000 ∧ canInject s = true ∧ lapseOk s (ownHdr s k) = true ∧ entUni
      (dirEnt s (hEPOCH (ownHdr s k)) (hDST (ownHdr s k))) = true ∧ entLoc (dirEnt s (hEPOCH (ownHdr s k)) (hDST (ownHdr s k))) = ownLoc s ∧
      genOk s (hSRC (sealPkt (ownHdr s k))) (hGEN (sealPkt (ownHdr s k))) = true ∧ hTYPE (sealPkt (ownHdr s k)) ≠ 7) ∧
    (∃ (s : State) (n p : Nat) (k k2 : Pkt) (e : RouteEnv), n < 36 ∧ portUp s n = true ∧ hHCRC k = hcrcOf k ∧ badType k = false ∧ hLH k ≤ 6 ∧
      hGH k ≤ 2 ∧ k.crc = BitVec.ofNat 32 (pktCrc k) ∧ hTYPE k ≠ 6 ∧ hTYPE k ≠ 9 ∧ epochLate s k = false ∧ e.dirUe = false ∧ hDST k ≠ 0xFFFFF ∧
      route s k false e = some (some p, k2)) ∧
    (∃ (s : State) (n : Nat) (k k2 : Pkt) (e : RouteEnv), n < 36 ∧ portUp s n = true ∧ hHCRC k = hcrcOf k ∧ badType k = false ∧ hLH k ≤ 6 ∧ hGH
      k ≤ 2 ∧ k.crc = BitVec.ofNat 32 (pktCrc k) ∧ hTYPE k ≠ 6 ∧ hTYPE k ≠ 9 ∧ epochLate s k = false ∧ e.dirUe = false ∧ hDST k ≠ 0xFFFFF ∧
      route s k false e = some (none, k2) ∧ genOk s (hSRC k2) (hGEN k2) = true ∧ hTYPE k2 ≠ 7) ∧
    (∃ (s : State) (n : Nat) (k : Pkt) (e : RouteEnv), n < 36 ∧ portUp s n = true ∧ hHCRC k ≠ hcrcOf k) ∧
    (∃ (s : State) (k : Pkt) (r : List Pkt) (x : StrIn), s.fab.inbox = k :: r ∧ hTYPE k = 1 ∧ findIn s (hSRC k) (hOCH k) = some x ∧ hTSPEC k 48
      16 = x.nonce ∧ hDPART k = x.part ∧ hSEQ k = x.next ∧ x.got = [] ∧ x.unack < 63 ∧ s.rd (R.PART_Q_CFG.VALID x.part (hDQ k)) = 0) ∧
    (∃ (s : State) (k : Pkt) (r : List Pkt) (x : StrIn) (p q : Nat), s.fab.inbox = k :: r ∧ hTYPE k = 1 ∧ findIn s (hSRC k) (hOCH k) = some x ∧
      hTSPEC k 48 16 = x.nonce ∧ hDPART k = x.part ∧ hSEQ k = x.next ∧ x.got = [] ∧ x.unack < 63 ∧ p = x.part ∧ q = hDQ k ∧ k.pay.length = 256 ∧
      s.rd (R.PART_Q_CFG.VALID p q) = 1 ∧ s.mem.errs = [] ∧ uKind (s.rd (R.PART_Q_ENDS.CONS p q)) ≠ 4 ∧ Quiet s (s.rd (R.PART_Q_ENDS.CONS p q))
      ∧ Quiet s (s.rd (R.PART_Q_ENDS.PROD p q)) ∧ p < 8) ∧
    (∃ (s : State) (k : Pkt) (r : List Pkt) (p q : Nat), s.fab.inbox = k :: r ∧ hTYPE k = 2 ∧ p = hTSPEC k 26 3 ∧ q = hTSPEC k 16 10 ∧ (bankOf s
      (activeEpoch s)).dir.all (fun e => !entGrp e.2.toNat) = true ∧ s.rd (R.PART_Q_CFG.VALID p q) = 1 ∧ Quiet s (s.rd (R.PART_Q_ENDS.CONS p q))
      ∧ Quiet s (s.rd (R.PART_Q_ENDS.PROD p q))) := by
  refine ⟨?_, ?_, ?_, ?_, ?_, ?_, ?_, ?_⟩
  · exact ⟨(let x := fabNet State.reset; x), (mkPkt 1 5 0 0 0 0 0 []), ((choosePath (fabNet State.reset) (ownHdr (fabNet State.reset) (mkPkt 1 5
    0 0 0 0 0 [])) ⟨[],[],false⟩).getD ⟨0,0,0,0,[],0⟩), (((route (fabNet State.reset) ((choosePath (fabNet State.reset) (ownHdr (fabNet
    State.reset) (mkPkt 1 5 0 0 0 0 0 [])) ⟨[],[],false⟩).getD ⟨0,0,0,0,[],0⟩) true ⟨[],[],false⟩).map (·.2)).getD ⟨0,0,0,0,[],0⟩),
    ⟨[],[],false⟩, 3, by decide +kernel⟩
  · exact ⟨(let x := fabNet State.reset; x), (mkPkt 1 9 0 0 0 0 0 []), ⟨[],[],false⟩, by decide +kernel⟩
  · exact ⟨(let x := fabNet State.reset; x), 3, 3, (sealPkt (mkPkt 1 5 0 0 0 0 0 [])), (((route (fabNet State.reset) (sealPkt (mkPkt 1 5 0 0 0 0
    0 [])) false ⟨[],[],false⟩).map (·.2)).getD ⟨0,0,0,0,[],0⟩), ⟨[],[],false⟩, by decide +kernel⟩
  · exact ⟨(let x := fabNet State.reset; x), 3, (sealPkt (setH0 48 8 1 (setH0 8 20 5 (mkPkt 1 9 0 0 0 0 0 [])))), (sealPkt (setH0 48 8 1 (setH0
    8 20 5 (mkPkt 1 9 0 0 0 0 0 [])))), ⟨[],[],false⟩, by decide +kernel⟩
  · exact ⟨(let x := fabNet State.reset; x), 3, (mkPkt 1 9 0 0 0 0 0 []), ⟨[],[],false⟩, by decide +kernel⟩
  · exact ⟨(regs1 [(R.PART_Q_CFG.VALID 1 5,0)]
    {State.reset with fab.inbox := [setH0 8 20 77 (mkPkt 1 9 3 1 5 65535 (7 * 2^48) [])], fab.ins := [⟨77, 3, 1, 7, 65535, [], 2, 0, 0⟩]}),
    (setH0 8 20 77 (mkPkt 1 9 3 1 5 65535 (7 * 2^48) [])), [], ⟨77, 3, 1, 7, 65535, [], 2, 0, 0⟩, by decide +kernel⟩
  · exact ⟨(wire 1 5 (uidOf 2 1 2) (uidOf 1 1 3) 2 7
    {State.reset with mem.errs := [], fab.inbox := [setH0 8 20 77 (mkPkt 1 9 3 1 5 65535 (7 * 2^48) ((List.range 256).map (BitVec.ofNat 8)))], fab.ins := [⟨77, 3, 1, 7, 65535, [], 2, 0, 0⟩]}),
    (setH0 8 20 77 (mkPkt 1 9 3 1 5 65535 (7 * 2^48) ((List.range 256).map (BitVec.ofNat 8)))), [], ⟨77, 3, 1, 7, 65535, [], 2, 0, 0⟩, 1, 5,
    by decide +kernel⟩
  · exact ⟨(wire 1 5 (uidOf 1 1 2) (uidOf 2 1 3) 2 7
    {State.reset with fab.bank0 := Fab.init.bank0, fab.bank1 := Fab.init.bank0, fab.inbox := [setH0 8 20 77 (mkPkt 2 9 3 1 5 0 (1 * 2^26 + 5 * 2^16 + 9) [])]}),
    (setH0 8 20 77 (mkPkt 2 9 3 1 5 0 (1 * 2^26 + 5 * 2^16 + 9) [])), [], 1, 5, by decide +kernel⟩

theorem test_meets_routing_and_collectives_complete_2 :
    (∃ (s : State) (k : Pkt) (r : List Pkt) (e : RouteEnv) (g p q : Nat), s.fab.inbox = k :: r ∧ hTYPE k = 3 ∧ g = 0xF0000 + hTSPEC k 48 16 ∧
      entGrp (dirEnt s (activeEpoch s) g) = true ∧ fget (dirEnt s (activeEpoch s) g) 61 1 = 1 ∧ (treeNext s (activeEpoch s) (dirEnt s
      (activeEpoch s) g)).filter (fun x => decide (x ≠ hSRC k)) = [] ∧ p = hDPART k ∧ q = hDQ k ∧ k.pay.length = 256 ∧ s.rd (R.PART_Q_CFG.VALID
      p q) = 1 ∧ s.mem.errs = [] ∧ uKind (s.rd (R.PART_Q_ENDS.CONS p q)) ≠ 4 ∧ Quiet s (s.rd (R.PART_Q_ENDS.CONS p q)) ∧ Quiet s (s.rd
      (R.PART_Q_ENDS.PROD p q))) ∧
    (∃ (s : State) (k k1 k2 : Pkt) (r : List Pkt) (e : RouteEnv) (g fa n : Nat), s.fab.inbox = k :: r ∧ hTYPE k = 3 ∧ g = 0xF0000 + hTSPEC k 48
      16 ∧ entGrp (dirEnt s (activeEpoch s) g) = true ∧ fget (dirEnt s (activeEpoch s) g) 61 1 = 0 ∧ (treeNext s (activeEpoch s) (dirEnt s
      (activeEpoch s) g)).filter (fun x => decide (x ≠ hSRC k)) = [fa] ∧ canInject s = true ∧ lapseOk s (ownHdr s (setH0 28 20 fa k)) = true ∧
      entUni (dirEnt s (hEPOCH (ownHdr s (setH0 28 20 fa k))) (hDST (ownHdr s (setH0 28 20 fa k)))) = true ∧ entLoc (dirEnt s (hEPOCH (ownHdr s
      (setH0 28 20 fa k))) (hDST (ownHdr s (setH0 28 20 fa k)))) ≠ ownLoc s ∧ choosePath s (ownHdr s (setH0 28 20 fa k)) e = some k1 ∧ route s
      k1 true e = some (some n, k2)) ∧
    (∃ (s : State) (k k0 : Pkt), canInject s = true ∧ hBSCOPE k = 1 ∧ k0 = sealPkt (ownHdr s (setH1 13 2 0 (setH1 15 2 0 (setH1 17 3 0 (setH0 28
      20 0xFFFFF k))))) ∧ lapseOk s (ownHdr s (setH1 13 2 0 (setH1 15 2 0 (setH1 17 3 0 (setH0 28 20 0xFFFFF k))))) = true) ∧
    (∃ (s : State) (k : Pkt) (r : List Pkt) (e : RouteEnv) (g : Nat), s.fab.inbox = k :: r ∧ hTYPE k = 4 ∧ g = 0xF0000 + hTSPEC k 48 16 ∧ hTSPEC
      k 14 2 ≠ 3 ∧ entGrp (dirEnt s (activeEpoch s) g) = true ∧ fget (dirEnt s (activeEpoch s) g) 55 6 ≠ 0 ∧ fget (dirEnt s (activeEpoch s) g)
      61 1 = 1 ∧ hSRC k ≠ ownFa s ∧ (treeKids s (activeEpoch s) (dirEnt s (activeEpoch s) g)).contains (hSRC k) = true ∧ s.fab.reds.find? (isRed
      g (hTSPEC k 32 16) (hTSPEC k 16 16)) = none) ∧
    (∃ (s : State) (k : Pkt) (r : List Pkt) (e : RouteEnv) (g fmt : Nat) (c : RedCtx), s.fab.inbox = k :: r ∧ hTYPE k = 4 ∧ g = 0xF0000 + hTSPEC
      k 48 16 ∧ fmt = hTSPEC k 14 2 ∧ fmt ≠ 3 ∧ entGrp (dirEnt s (activeEpoch s) g) = true ∧ fget (dirEnt s (activeEpoch s) g) 55 6 ≠ 0 ∧ fget
      (dirEnt s (activeEpoch s) g) 61 1 = 1 ∧ hSRC k ≠ ownFa s ∧ (treeKids s (activeEpoch s) (dirEnt s (activeEpoch s) g)).contains (hSRC k) =
      true ∧ s.fab.reds = [c] ∧ isRed g (hTSPEC k 32 16) (hTSPEC k 16 16) c = true ∧ c.kids.contains (hSRC k) = false ∧ c.localDone = false) ∧
    (∃ (s : State) (k : Pkt) (r : List Pkt) (e : RouteEnv) (g p q : Nat), s.fab.inbox = k :: r ∧ hTYPE k = 5 ∧ g = 0xF0000 + hTSPEC k 48 16 ∧
      entGrp (dirEnt s (activeEpoch s) g) = true ∧ fget (dirEnt s (activeEpoch s) g) 35 20 = hSRC k ∧ fget (dirEnt s (activeEpoch s) g) 61 1 = 1
      ∧ treeKids s (activeEpoch s) (dirEnt s (activeEpoch s) g) = [] ∧ s.fab.reds = [] ∧ p = hDPART k ∧ q = hDQ k ∧ k.pay.length = 256 ∧ s.rd
      (R.PART_Q_CFG.VALID p q) = 1 ∧ s.mem.errs = [] ∧ uKind (s.rd (R.PART_Q_ENDS.CONS p q)) ≠ 4 ∧ Quiet s (s.rd (R.PART_Q_ENDS.CONS p q)) ∧
      Quiet s (s.rd (R.PART_Q_ENDS.PROD p q))) ∧
    (∃ (s : State) (g rs sg : Nat) (c : RedCtx), s.fab.reds = [c] ∧ isRed g rs sg c = true ∧ redFull s (activeEpoch s) g c = false) := by
  refine ⟨?_, ?_, ?_, ?_, ?_, ?_, ?_⟩
  · exact ⟨(wire 1 5 (uidOf 2 1 2) (uidOf 1 1 3) 2 7 (regs1 [(R.FZ_BANK_STAT.ACTIVE,0)]
    {State.reset with mem.errs := [], fab.bank0 := { State.reset.fab.bank0 with dir := [(0xF0007, BitVec.ofNat 64 (2^63 + 2^62 + 2^61 + 77 * 2^35))] }, fab.inbox := [setH0 8 20 77 (mkPkt 3 9 3 1 5 0 (7 * 2^48) ((List.range 256).map (BitVec.ofNat 8)))]})),
    (setH0 8 20 77 (mkPkt 3 9 3 1 5 0 (7 * 2^48) ((List.range 256).map (BitVec.ofNat 8)))), [], ⟨[],[],false⟩, 0xF0007, 1, 5, by decide +kernel⟩
  · exact ⟨(let State.reset := fabNet State.reset;
    {State.reset with fab.bank0 := { State.reset.fab.bank0 with dir := State.reset.fab.bank0.dir ++ [(0xF0007, BitVec.ofNat 64 (2^63 + 2^62 + 5 * 2^35))] }, fab.inbox := [setH0 8 20 77 (mkPkt 3 9 3 1 5 0 (7 * 2^48) [])]}),
    (setH0 8 20 77 (mkPkt 3 9 3 1 5 0 (7 * 2^48) [])), ((choosePath (fabNet State.reset) (ownHdr (fabNet State.reset) (setH0 28 20 5 (setH0 8 20
    77 (mkPkt 3 9 3 1 5 0 (7 * 2^48) [])))) ⟨[],[],false⟩).getD ⟨0,0,0,0,[],0⟩), (((route (fabNet State.reset) ((choosePath (fabNet State.reset)
    (ownHdr (fabNet State.reset) (setH0 28 20 5 (setH0 8 20 77 (mkPkt 3 9 3 1 5 0 (7 * 2^48) [])))) ⟨[],[],false⟩).getD ⟨0,0,0,0,[],0⟩) true
    ⟨[],[],false⟩).map (·.2)).getD ⟨0,0,0,0,[],0⟩), [], ⟨[],[],false⟩, 0xF0007, 5, 3, by decide +kernel⟩
  · exact ⟨(let State.reset := fabNet State.reset; regs1 [(R.FZ_PORT_STAT.STATE 17,4)] State.reset), (setH1 12 1 1 (mkPkt 1 9 3 1 5 0 (7 * 2^48)
    [])), (sealPkt (ownHdr (fabNet State.reset) (setH1 13 2 0 (setH1 15 2 0 (setH1 17 3 0 (setH0 28 20 0xFFFFF (setH1 12 1 1 (mkPkt 1 9 3 1 5 0
    (7 * 2^48) [])))))))), by decide +kernel⟩
  · exact ⟨(regs1 [(R.FZ_BANK_STAT.ACTIVE,0),(R.FZ_SELF.FA,9)]
    {State.reset with fab.bank0 := { State.reset.fab.bank0 with ch := [(3, BitVec.ofNat 32 (2^31+77))], dir := [(0xF0007, BitVec.ofNat 64 (2^63 + 2^62 + 2^61 + 2 * 2^55 + 2^23 + 3 * 2^7))] }, fab.reds := [], fab.inbox := [setH0 8 20 77 (mkPkt 4 9 3 1 5 0 (7 * 2^48 + 5 * 2^32 + 9 * 2^16 + 2^14) (leBytes 4 0x3F800000))]}),
    (setH0 8 20 77 (mkPkt 4 9 3 1 5 0 (7 * 2^48 + 5 * 2^32 + 9 * 2^16 + 2^14) (leBytes 4 0x3F800000))), [], ⟨[],[],false⟩, 0xF0007,
    by decide +kernel⟩
  · exact ⟨(regs1 [(R.FZ_BANK_STAT.ACTIVE,0),(R.FZ_SELF.FA,9)]
    {State.reset with fab.bank0 := { State.reset.fab.bank0 with ch := [(3, BitVec.ofNat 32 (2^31+77))], dir := [(0xF0007, BitVec.ofNat 64 (2^63 + 2^62 + 2^61 + 2 * 2^55 + 2^23 + 3 * 2^7))] }, fab.reds := [⟨0xF0007, 5, 9, 1, [], false, leBytes 4 0x40000000, 3⟩], fab.inbox := [setH0 8 20 77 (mkPkt 4 9 3 1 5 0 (7 * 2^48 + 5 * 2^32 + 9 * 2^16 + 2^14) (leBytes 4 0x3F800000))]}),
    (setH0 8 20 77 (mkPkt 4 9 3 1 5 0 (7 * 2^48 + 5 * 2^32 + 9 * 2^16 + 2^14) (leBytes 4 0x3F800000))), [], ⟨[],[],false⟩, 0xF0007, 1, ⟨0xF0007,
    5, 9, 1, [], false, leBytes 4 0x40000000, 3⟩, by decide +kernel⟩
  · exact ⟨(wire 1 5 (uidOf 2 1 2) (uidOf 1 1 3) 2 7 (regs1 [(R.FZ_BANK_STAT.ACTIVE,0)]
    {State.reset with mem.errs := [], fab.reds := [], fab.bank0 := { State.reset.fab.bank0 with dir := [(0xF0007, BitVec.ofNat 64 (2^63 + 2^62 + 2^61 + 2^55 + 77 * 2^35))] }, fab.inbox := [setH0 8 20 77 (mkPkt 5 9 3 1 5 0 (7 * 2^48 + 5 * 2^32 + 9 * 2^16 + 2^14) ((List.range 256).map (BitVec.ofNat 8)))]})),
    (setH0 8 20 77 (mkPkt 5 9 3 1 5 0 (7 * 2^48 + 5 * 2^32 + 9 * 2^16 + 2^14) ((List.range 256).map (BitVec.ofNat 8)))), [], ⟨[],[],false⟩,
    0xF0007, 1, 5, by decide +kernel⟩
  · exact
    ⟨{State.reset with fab.bank0 := ⟨[(0xF0007, 7 * 2^61)], [], [], []⟩, fab.bank1 := ⟨[(0xF0007, 7 * 2^61)], [], [], []⟩, fab.reds := [⟨0xF0007, 5, 9, 1, [], false, leBytes 4 0x40000000, 3⟩]},
    0xF0007, 5, 9, ⟨0xF0007, 5, 9, 1, [], false, leBytes 4 0x40000000, 3⟩, by decide +kernel⟩

theorem test_meets_stream_commands_complete_1 :
    (∃ (s : State) (k : Pkt) (r : List Pkt), s.fab.inbox = k :: r ∧ isStream SB.OPEN k = true ∧ findIn s (hSRC k) (hOCH k) = none ∧ inUse s
      (hDPART k) < 8192) ∧
    (∃ (s : State) (k : Pkt) (r : List Pkt), s.fab.inbox = k :: r ∧ isStream SB.OPEN k = true ∧ findIn s (hSRC k) (hOCH k) = none ∧ 8192 ≤ inUse
      s (hDPART k)) ∧
    (∃ (s : State) (dst och : Nat) (x : StrOut), findOut s dst och = some x ∧ x.st ≠ 1 ∧ x.waiting = []) ∧
    (∃ (s : State) (k w : Pkt) (r : List Pkt) (x : StrOut), s.fab.inbox = k :: r ∧ isStream SB.GRANT k = true ∧ findOut s (hSRC k) (hOCH k) =
      some x ∧ x.nonce = hTSPEC k 48 16 ∧ x.waiting = [w] ∧ x.next < x.acked + 256) ∧
    (∃ (s : State) (k : Pkt) (r : List Pkt) (x : StrOut), s.fab.inbox = k :: r ∧ isStream SB.BUSY k = true ∧ findOut s (hSRC k) (hOCH k) = some
      x ∧ x.nonce = hTSPEC k 48 16 ∧ x.st = 0) ∧
    (∃ (s : State) (k : Pkt) (r : List Pkt) (x : StrOut) (n : Nat), s.fab.inbox = k :: r ∧ isStream SB.ACK k = true ∧ findOut s (hSRC k) (hOCH
      k) = some x ∧ x.nonce = hTSPEC k 48 16 ∧ x.waiting = [] ∧ n < 65536 ∧ hTSPEC k 0 16 = (x.acked + n + 65535) % 65536 ∧ x.acked + n ≤
      x.next) ∧
    (∃ (s : State) (fa och : Nat) (x : StrIn), findIn s fa och = some x ∧ 0 < x.unack) ∧
    (∃ (s : State) (k : Pkt) (r : List Pkt) (x : StrIn), s.fab.inbox = k :: r ∧ isStream SB.CLOSE k = true ∧ findIn s (hSRC k) (hOCH k) = some x
      ∧ x.nonce = hTSPEC k 48 16) := by
  refine ⟨?_, ?_, ?_, ?_, ?_, ?_, ?_, ?_⟩
  · exact ⟨{State.reset with fab.inbox := [setH0 8 20 77 (streamPkt 9 3 7 0xFFFF SB.OPEN 0)], fab.ins := []}, (setH0 8 20 77 (streamPkt 9 3 7
    0xFFFF SB.OPEN 0)), [], by decide +kernel⟩
  · exact
    ⟨{State.reset with fab.inbox := [setH0 8 20 77 (streamPkt 9 3 7 0xFFFF SB.OPEN 0)], fab.ins := List.replicate 8192 ⟨1, 3, 7, 0, 0, [], 0, 0, 0⟩},
    (setH0 8 20 77 (streamPkt 9 3 7 0xFFFF SB.OPEN 0)), [], by decide +kernel⟩
  · exact ⟨{State.reset with fab.outs := [⟨77, 3, 5, 2, 0, 0, [], 9⟩]}, 77, 3, ⟨77, 3, 5, 2, 0, 0, [], 9⟩, by decide +kernel⟩
  · exact
    ⟨{State.reset with fab.inbox := [setH0 8 20 77 (streamPkt 9 3 7 0xFFFF SB.GRANT 0)], fab.outs := [⟨77, 3, 0xFFFF, 0, 4, 2, [mkPkt 1 77 3 0 0 0 0 []], 9⟩]},
    (setH0 8 20 77 (streamPkt 9 3 7 0xFFFF SB.GRANT 0)), (mkPkt 1 77 3 0 0 0 0 []), [], ⟨77, 3, 0xFFFF, 0, 4, 2, [mkPkt 1 77 3 0 0 0 0 []], 9⟩,
    by decide +kernel⟩
  · exact
    ⟨{State.reset with fab.inbox := [setH0 8 20 77 (streamPkt 9 3 7 0xFFFF SB.BUSY 0)], fab.outs := [⟨77, 3, 0xFFFF, 0, 4, 2, [mkPkt 1 77 3 0 0 0 0 []], 9⟩]},
    (setH0 8 20 77 (streamPkt 9 3 7 0xFFFF SB.BUSY 0)), [], ⟨77, 3, 0xFFFF, 0, 4, 2, [mkPkt 1 77 3 0 0 0 0 []], 9⟩, by decide +kernel⟩
  · exact
    ⟨{State.reset with fab.inbox := [setH0 8 20 77 (streamPkt 9 3 7 0xFFFF SB.ACK 5)], fab.outs := [⟨77, 3, 0xFFFF, 1, 65544, 65530, [], 9⟩]},
    (setH0 8 20 77 (streamPkt 9 3 7 0xFFFF SB.ACK 5)), [], ⟨77, 3, 0xFFFF, 1, 65544, 65530, [], 9⟩, 12, by decide +kernel⟩
  · exact ⟨{State.reset with fab.ins := [⟨77, 3, 7, 8, 0, [], 2, 100, 0⟩]}, 77, 3, ⟨77, 3, 7, 8, 0, [], 2, 100, 0⟩, by decide +kernel⟩
  · exact
    ⟨{State.reset with fab.inbox := [setH0 8 20 77 (streamPkt 9 3 7 0xFFFF SB.CLOSE 0)], fab.ins := [⟨77, 3, 7, 0xFFFF, 0, [], 2, 100, 0⟩, ⟨78, 3, 7, 0xFFFF, 0, [], 2, 100, 0⟩]},
    (setH0 8 20 77 (streamPkt 9 3 7 0xFFFF SB.CLOSE 0)), [], ⟨77, 3, 7, 0xFFFF, 0, [], 2, 100, 0⟩, by decide +kernel⟩

theorem test_meets_stream_commands_complete_2 :
    (∃ (s : State) (dst och : Nat) (x : StrOut), findOut s dst och = some x ∧ x.st = 1 ∧ x.waiting = []) ∧
    (∃ (s : State) (fa och : Nat) (x : StrIn), findIn s fa och = some x) ∧
    (∃ (s : State) (slot idx : Nat) (ph : Phase) (x : Timer), slot < 64 ∧ phaseOf s slot = some ph) := by
  refine ⟨?_, ?_, ?_⟩
  · exact ⟨{State.reset with fab.outs := [⟨77, 3, 5, 1, 0, 0, [], 9⟩]}, 77, 3, ⟨77, 3, 5, 1, 0, 0, [], 9⟩, by decide +kernel⟩
  · exact ⟨{State.reset with fab.ins := [⟨77, 3, 7, 8, 0, [], 2, 100, 0⟩]}, 77, 3, ⟨77, 3, 7, 8, 0, [], 2, 100, 0⟩, by decide +kernel⟩
  · exact
    ⟨{State.reset with ctl.mode := .run, fab.outs := [⟨77, 3, 5, 1, 0, 0, [], 9⟩], host.ctx := [(63, {Ctx.init with phase := some {ph0 with admitted := true, admitAt := 7, timers := [⟨4, 77, 5, 3, 10, 2, false⟩]}})]},
    63, 4, {ph0 with admitted := true, admitAt := 7, timers := [⟨4, 77, 5, 3, 10, 2, false⟩]}, ⟨4, 77, 5, 3, 10, 2, false⟩, by decide +kernel⟩

theorem test_meets_operating_points_and_droop_complete_1 :
    (∃ s : State, mayMove s = true ∧ s.rd R.PWR_STAT.OP_TARGET ≠ s.rd R.PWR_STAT.OP_NOW) ∧
    (∃ (s : State) (src dst : Nat), s.pw.move = some ⟨src, dst, 0, false⟩ ∧ s.pw.vcore ≤ opMv s dst) ∧
    (∃ (s : State) (src dst k : Nat), s.pw.move = some ⟨src, dst, k, false⟩ ∧ 1 ≤ k ∧ dst < 8) ∧
    (∃ (s : State) (t0 : Nat), s.pw.forcedAt = some t0) ∧
    (∃ s : State, s.pw.restoring = true ∧ forced s = false ∧ s.rd R.PWR_STAT.CLIP_LAG = 0) ∧
    (∃ (s : State) (d : Nat), d < 2 ∧ s.rd (droopFld d) = 0) ∧
    (∃ (s : State) (d : Nat), d < 2 ∧ s.rd (droopFld d) = 1) ∧
    (∃ (s : State) (d : Nat), d < 2 ∧ s.rd (droopFld d) = 1 ∧ s.pw.droopTold.contains d = false ∧ EvReady s E.DROOP_LONG) := by
  refine ⟨?_, ?_, ?_, ?_, ?_, ?_, ?_, ?_⟩
  · exact ⟨(regs1
    [(R.PWR_STAT.F_ALERT,0),(R.PWR_STAT.F_RATE,0),(R.PWR_STAT.F_HOT,0),(R.PWR_STAT.HOLD_BROWN,0),(R.PWR_STAT.HOLD_OPER,0),(R.GRD_STAT.FORCE,0),(R.PWR_STAT.DROOP0,0),(R.PWR_STAT.DROOP1,0),(R.PWR_STAT.OP_NOW,7),(R.PWR_STAT.OP_TARGET,2)]
    { State.reset with pw.restoring := false, pw.move := none }), by decide +kernel⟩
  · exact ⟨{ State.reset with pw.vcore := 550, pw.move := some ⟨6, 5, 0, false⟩ }, 6, 5, by decide +kernel⟩
  · exact ⟨{ State.reset with pw.move := some ⟨6, 5, 16, false⟩ }, 6, 5, 16, by decide +kernel⟩
  · exact ⟨{ State.reset with pw.forcedAt := some 77 }, 77, by decide +kernel⟩
  · exact ⟨(regs1
    [(R.PWR_STAT.F_ALERT,0),(R.PWR_STAT.F_RATE,0),(R.PWR_STAT.F_HOT,0),(R.PWR_STAT.HOLD_BROWN,0),(R.PWR_STAT.HOLD_OPER,0),(R.GRD_STAT.FORCE,0),(R.PWR_STAT.CLIP_LAG,0)]
    { State.reset with pw.restoring := true }), by decide +kernel⟩
  · exact ⟨(regs1 [(R.PWR_STAT.DROOP1,0)] State.reset), 1, by decide +kernel⟩
  · exact ⟨(regs1 [(R.PWR_STAT.DROOP1,1)] State.reset), 1, by decide +kernel⟩
  · exact ⟨(regs1 [(R.PWR_STAT.DROOP1,1)] { evRoom State.reset with pw.droopTold := [0] }), 1, by decide +kernel⟩

theorem test_meets_operating_points_and_droop_complete_2 :
    (∃ (s : State) (m : Move), s.pw.move = some m ∧ m.paused = true ∧ stretched s = false) ∧
    (∃ (s : State) (cond : Nat), cond < 6 ∧ s.pw.alerts = [] ∧ EvReady s E.VR_ALERT) ∧
    (∃ s : State, s.pw.alerts ≠ []) := by
  refine ⟨?_, ?_, ?_⟩
  · exact ⟨(regs1 [(R.PWR_STAT.DROOP0,0),(R.PWR_STAT.DROOP1,0)] { State.reset with pw.move := some ⟨6,5,3,true⟩ }), ⟨6,5,3,true⟩,
    by decide +kernel⟩
  · exact ⟨{ evRoom State.reset with pw.alerts := [] }, 5, by decide +kernel⟩
  · exact ⟨{ State.reset with pw.alerts := [3] }, by decide +kernel⟩

theorem test_meets_power_clips_complete :
    (∃ s : State, s.rd R.PWR_STAT.CLIP_LAG = 1 ∧ fabricRunning s = false ∧ mayMove s = true ∧ s.rd R.PWR_STAT.OP_TARGET ≤ s.rd R.PWR_STAT.OP_NOW
      ∧ s.rd R.PWR_STAT.OP_NOW < 6 ∧ s.rd R.PWR_CLIP.EFF_W < s.pw.runW + s.host.otherW) ∧
    (∃ s : State, s.rd R.PWR_STAT.CLIP_LAG = 1 ∧ tget 0 s.clk.seen K.clipLag = s.pw.lagAt ∧ EvReady s E.CLIP_LAG_LONG) ∧
    (∃ (s : State) (a : Activity), running s = []) ∧
    (∃ (s : State) (c : Nat) (l o : List Nat), c ∈ running s) ∧
    (∃ (s : State) (at_ k : Nat), s.pw.ceilAt = some (at_, k) ∧ k < 8) := by
  refine ⟨?_, ?_, ?_, ?_, ?_⟩
  · exact ⟨(regs1
    [(R.PWR_STAT.F_ALERT,0),(R.PWR_STAT.F_RATE,0),(R.PWR_STAT.F_HOT,0),(R.PWR_STAT.HOLD_BROWN,0),(R.PWR_STAT.HOLD_OPER,0),(R.GRD_STAT.FORCE,0),(R.PWR_STAT.DROOP0,0),(R.PWR_STAT.DROOP1,0),(R.PWR_STAT.OP_NOW,5),(R.PWR_STAT.OP_TARGET,2),(R.PWR_STAT.CLIP_LAG,1),(R.PWR_CLIP.EFF_W,1200)]
    { State.reset with pw.restoring := false, pw.move := none, pw.runW := 1201, host.otherW := 0, host.ctx := [] }), by decide +kernel⟩
  · exact ⟨(regs1 [(R.PWR_STAT.CLIP_LAG,1)] { evRoom State.reset with pw.lagAt := tget 0 State.reset.clk.seen K.clipLag }), by decide +kernel⟩
  · exact ⟨{ State.reset with host.ctx := [] }, ⟨[(3, [1000000, 50, 2000000]), (0, [7])], [5000, 6000000]⟩, by decide +kernel⟩
  · exact ⟨{ State.reset with host.ctx := [(3, {Ctx.init with phase := some {ph0 with admitted := true}})] }, 3, [1000000, 50, 2000000], [9],
    by decide +kernel⟩
  · exact ⟨{ State.reset with pw.ceilAt := some (12345678901, 5) }, 12345678901, 5, by decide +kernel⟩

theorem test_meets_heat_commands_complete_1 :
    (∃ (s : State) (r : List (Int × Int × Int)), r.length = 48) ∧
    (∃ s : State, (∀ i < 48, hsExcl s i = [false, false, false])) ∧
    (∃ (s : State) (unit : Nat), unit < 65536 ∧ uKind unit = 0 ∧ uIdx unit < 24 ∧ named s unit = true ∧ rotWanted s unit = true ∧ s.pw.rotReq =
      [] ∧ (arrOf s (uPart unit) (uIdx unit)).rotAt = none) ∧
    (∃ (s : State) (d h k : Nat), d < 2 ∧ h < 24 ∧ spotArrays s (24 * d + h) = [k] ∧ 800 ≤ hsTemp s (24 * d + h) ∧ (tget Arr.init s.arrs k).duty
      = 16 ∧ k < 192) ∧
    (∃ (s : State) (d h k : Nat), d < 2 ∧ h < 24 ∧ spotArrays s (24 * d + h) = [k] ∧ hsTemp s (24 * d + h) ≤ 784 ∧ (tget Arr.init s.arrs k).duty
      < 16 ∧ k < 192) ∧
    (∃ s : State, s.rd R.PWR_STAT.F_HOT = 1 ∧ s.pw.tj ≤ 800) ∧
    (∃ s : State, s.rd R.PWR_STAT.F_RATE = 1 ∧ s.pw.tj ≤ 760) ∧
    (∃ (s : State) (tin tout : Int), controlUp s = true) := by
  refine ⟨?_, ?_, ?_, ?_, ?_, ?_, ?_, ?_⟩
  · exact ⟨State.reset, ((List.range 48).map fun (i : Nat) => (((700 + 3 * (i : Int)), 850, 800))), by decide +kernel⟩
  · exact ⟨(regs1 ((List.range 48).flatMap fun i => [(R.PWR_HSd_h.EXCL_A (i / 24) (i % 24),0),(R.PWR_HSd_h.EXCL_B (i / 24) (i %
    24),0),(R.PWR_HSd_h.EXCL_C (i / 24) (i % 24),0)])
    {State.reset with pw.chCnt := 1, pw.chSum := [(0,(400,400,441)),(1,(400,440,420)),(2,(0,100,200)),(3,(500,400,400)),(4,(400,500,410))]}),
    by decide +kernel⟩
  · exact ⟨(apply (.host fun h => { h with ctx := [(0, { Ctx.init with units := [uidOf 1 0 2] })] }) (apply (.seen (K.warm 0) 0) (regs1
    ([(R.PART_TOP_ARRn.PHYS 1 2,0),(R.PWR_HSd_h.TEMP 0 0,800),(R.PART_ARR_STAT.PAIR 1 2,0)] ++ ((List.range 23).map fun n => (R.PWR_HSd_h.TEMP 0
    (n+1),400)) ++ (List.range 24).map fun n => (R.PART_TOP_ARRn.VALID 1 n, if n = 2 then 1 else 0)) (apply (.arr 26 fun a =>
    {a with rotAt := none})
    {State.reset with pw.rotReq := [], clk.mono := 6000000, nv.fuses.region := (List.range 24).map fun n => (128 + n, BitVec.ofNat 8 n)})))),
    (uidOf 1 0 2), by decide +kernel⟩
  · exact ⟨(regs1 ([(R.PWR_HSd_h.TEMP 0 4,800),(R.PART_TOP_ARRn.PHYS 0 0,0)] ++ (List.range 192).map fun k => (R.PART_TOP_ARRn.VALID (k/24)
    (k%24), if k = 0 then 1 else 0)) (apply (.arr 0 fun a => {a with duty := 16}) {State.reset with nv.fuses.region := [(0, 4)]})), 0, 4, 0,
    by decide +kernel⟩
  · exact ⟨(regs1 ([(R.PWR_HSd_h.TEMP 0 4,784),(R.PART_TOP_ARRn.PHYS 0 0,0)] ++ (List.range 192).map fun k => (R.PART_TOP_ARRn.VALID (k/24)
    (k%24), if k = 0 then 1 else 0)) (apply (.arr 0 fun a => {a with duty := 7}) {State.reset with nv.fuses.region := [(0, 4)]})), 0, 4, 0,
    by decide +kernel⟩
  · exact ⟨(regs1 [(R.PWR_STAT.F_HOT,1)] {State.reset with pw.tj := 800}), by decide +kernel⟩
  · exact ⟨(regs1 [(R.PWR_STAT.F_RATE,1)] {State.reset with pw.tj := 760}), by decide +kernel⟩
  · exact ⟨(regs1 [(R.HIF_BOOT_STATUS.STAGE,11)]
    {State.reset with ctl.mode := .run, pw.tjSum := 7000, pw.tjCnt := 10, pw.pwSum := 15000, pw.pwCnt := 10}), 240, 320, by decide +kernel⟩

theorem test_meets_heat_commands_complete_2 :
    (∃ (s : State) (t0 : Nat), s.pw.flowBad = some t0 ∧ s.pw.flowTold = false ∧ EvReady s E.FLOW_MISMATCH) ∧
    (∃ s : State, s.pw.stack.length ≤ 2 ∧ s.rd R.PWR_LIFE_N20.HALF = 0 ∧ s.rd R.PWR_LIFE_N40.HALF = 0 ∧ s.rd R.PWR_LIFE_N60.HALF = 0) ∧
    (∃ (s : State) (a b c x : Int), s.pw.stack = [c, b, a] ∧ s.pw.tj = x ∧ a < c ∧ c < b ∧ b < x ∧ b - c = 320 ∧ b - a < 480 ∧ a + 16 ≤ c ∧ s.rd
      R.PWR_LIFE_N40.HALF < 2 ^ 31) ∧
    (∃ s : State, s.ctl.doneTrain = true) := by
  refine ⟨?_, ?_, ?_, ?_⟩
  · exact ⟨(evRoom {State.reset with pw.flowBad := some 77, pw.flowTold := false}), 77, by decide +kernel⟩
  · exact ⟨(regs1 [(R.PWR_LIFE_N20.HALF,0),(R.PWR_LIFE_N40.HALF,0),(R.PWR_LIFE_N60.HALF,0)]
    {State.reset with pw.stack := [480, 240], pw.tj := 700}), by decide +kernel⟩
  · exact ⟨(regs1 [(R.PWR_LIFE_N40.HALF,7)] {State.reset with pw.stack := [380, 700, 240], pw.tj := 720}), 240, 700, 380, 720,
    by decide +kernel⟩
  · exact ⟨{State.reset with ctl.doneTrain := true}, by decide +kernel⟩

theorem test_meets_guards_and_worisy_links_complete_1 :
    (∃ (s : State) (kind channels : Nat), 2 ≤ popCount 3 channels ∧ s.hs.on = true ∧ 1 ≤ kind ∧ kind ≤ 4 ∧ channels < 8) ∧
    (∃ (s : State) (ch kind : Nat), ch < 3 ∧ 1 ≤ kind ∧ kind ≤ 4 ∧ s.hs.rails ≠ [] ∧ asserted s kind = []) ∧
    (∃ (s : State) (ch other kind : Nat), ch < 3 ∧ 1 ≤ kind ∧ kind ≤ 4 ∧ s.hs.rails ≠ [] ∧ asserted s kind = [other] ∧ other ≠ ch ∧ s.hs.on =
      true) ∧
    (∃ (s : State) (ch kind : Nat), ch < 3 ∧ 1 ≤ kind ∧ kind ≤ 4 ∧ asserted s kind = [ch] ∧ tget 0 s.clk.seen (K.single ch kind) ≠ 0) ∧
    (∃ (s : State) (ch kind : Nat), ch < 3 ∧ 1 ≤ kind ∧ kind ≤ 4 ∧ (asserted s kind).contains ch = true) ∧
    (∃ (s : State) (code unit : Nat), 5 ≤ code ∧ code ≤ 7 ∧ unit < 65536 ∧ serving s = true ∧ unavail s (uPart unit) = false ∧ s.ctl.rungs = []
      ∧ s.watch.faults.contains (code, unit) = true ∧ entryWaits s code unit = false) ∧
    (∃ (s : State) (code unit : Nat), (code = 1 ∨ code = 3) ∧ unit < 65536 ∧ serving s = true ∧ unavail s (uPart unit) = false ∧ s.ctl.rungs =
      [] ∧ s.watch.faults.contains (code, unit) = true ∧ entryWaits s code unit = false ∧ engUnit unit = true ∧ uKind unit ≤ 1 ∧ unitCtx s
      (evenOf s unit) = none ∧ s.rd (R.PART_ENG_RST_STAT.BUSY (uPart unit)) = 0 ∧ (∀ k ∈ physKeys s (evenOf s unit), inWindow s 2 k + 1 <
      limitOf s R.RST_ESC_CFG.ENG_LIMIT)) ∧
    (∃ (s : State) (p n : Nat), p < 8 ∧ n + 1 < 24 ∧ serving s = true ∧ unavail s p = false ∧ s.ctl.rungs = [] ∧ s.watch.faults.contains (2,
      uidOf p 0 n) = true ∧ entryWaits s 2 (uidOf p 0 n) = false ∧ s.rd (R.PART_ARR_STAT.PAIR p n) = 1 ∧ unitCtx s (uidOf p 0 n) = none ∧ s.rd
      (R.PART_ENG_RST_STAT.BUSY p) = 0 ∧ (∀ k ∈ physKeys s (uidOf p 0 n), inWindow s 2 k + 1 < limitOf s R.RST_ESC_CFG.ENG_LIMIT)) := by
  refine ⟨?_, ?_, ?_, ?_, ?_, ?_, ?_, ?_⟩
  · exact ⟨{ State.reset with hs.on := true }, 4, 5, by decide +kernel⟩
  · exact ⟨(regs1 [(R.GRD_CHc.A_CLK 0,0),(R.GRD_CHc.A_CLK 1,0),(R.GRD_CHc.A_CLK 2,0)] {State.reset with hs.rails := [0]}), 2, 4,
    by decide +kernel⟩
  · exact ⟨(regs1 [(R.GRD_CHc.A_CLK 0,1),(R.GRD_CHc.A_CLK 1,0),(R.GRD_CHc.A_CLK 2,0)] {State.reset with hs.rails := [0], hs.on := true}), 2, 0,
    4, by decide +kernel⟩
  · exact ⟨(regs1 [(R.GRD_CHc.A_CURR 0,0),(R.GRD_CHc.A_CURR 1,1),(R.GRD_CHc.A_CURR 2,0)] (apply (.seen (K.single 1 2) 99) State.reset)), 1, 2,
    by decide +kernel⟩
  · exact ⟨(regs1 [(R.GRD_CHc.A_CURR 0,0),(R.GRD_CHc.A_CURR 1,1),(R.GRD_CHc.A_CURR 2,1)] State.reset), 1, 2, by decide +kernel⟩
  · exact ⟨(regs1 [(R.PART_TOP_STAT.UNAVAIL 5,0)]
    {State.reset with ctl.mode := .run, ctl.rungs := [], watch.faults := [(7, 0xA000)], host.ops := []}), 7, 0xA000, by decide +kernel⟩
  · exact ⟨(regs1 [(R.PART_TOP_STAT.UNAVAIL 5,0),(R.PART_ENG_RST_STAT.BUSY 5,0),(R.PART_ARR_STAT.PAIR 5 9,0),(R.RST_ESC_CFG.ENG_LIMIT,3)]
    {State.reset with ctl.mode := .run, ctl.rungs := [], arrs := [], watch.counts := [], watch.faults := [(1, 0xA009)], host.ops := []}), 1,
    0xA009, by decide +kernel⟩
  · exact ⟨(regs1 [(R.PART_TOP_STAT.UNAVAIL 5,0),(R.PART_ENG_RST_STAT.BUSY 5,0),(R.PART_ARR_STAT.PAIR 5 8,1),(R.PART_TOP_ARRn.PHYS 5
    9,12),(R.RST_ESC_CFG.ENG_LIMIT,3)]
    {State.reset with ctl.mode := .run, ctl.rungs := [], arrs := [], watch.counts := [], watch.faults := [(2, 0xA008)], host.ops := []}), 5, 8,
    by decide +kernel⟩

theorem test_meets_guards_and_worisy_links_complete_2 :
    (∃ (s : State) (code unit : Nat), (code = 1 ∨ code = 3) ∧ unit < 65536 ∧ serving s = true ∧ unavail s (uPart unit) = false ∧ s.ctl.rungs =
      [] ∧ s.watch.faults.contains (code, unit) = true ∧ entryWaits s code unit = false ∧ engUnit unit = true ∧ uKind unit ≤ 1 ∧ unitCtx s
      (evenOf s unit) = none ∧ s.rd (R.PART_ENG_RST_STAT.BUSY (uPart unit)) = 0 ∧ (∃ k ∈ physKeys s (evenOf s unit), limitOf s
      R.RST_ESC_CFG.ENG_LIMIT ≤ inWindow s 2 k + 1)) ∧
    (∃ (s : State) (code unit : Nat), unit < 65536 ∧ entryWaits s code unit = true) ∧
    (∃ (s : State) (p kind phys : Nat), p < 8 ∧ kind < 2 ∧ phys < (if kind = 0 then 26 else 52) ∧ serving s = true ∧ unavail s p = false ∧
      physFree s p kind phys = true) ∧
    (∃ (s : State) (port : Nat), port < 2 ∧ s.ctl.mode ≠ .off) ∧
    (∃ (s : State) (port : Nat), port < 2 ∧ s.ctl.mode ≠ .off) ∧
    (∃ (s : State) (port : Nat), port < 2 ∧ s.ctl.mode ≠ .off) ∧
    (∃ s : State, s.rd R.RST_LEASE.HOLDER ≠ 0) ∧
    (∃ s : State, s.rd R.RST_LEASE.GUARD = 1) := by
  refine ⟨?_, ?_, ?_, ?_, ?_, ?_, ?_, ?_⟩
  · exact ⟨(regs1 [(R.PART_TOP_STAT.UNAVAIL 5,0),(R.PART_ENG_RST_STAT.BUSY 5,0),(R.PART_ARR_STAT.PAIR 5 9,0),(R.RST_ESC_CFG.ENG_LIMIT,1)]
    {State.reset with ctl.mode := .run, ctl.rungs := [], arrs := [], watch.counts := [], watch.faults := [(1, 0xA009)], host.ops := []}), 1,
    0xA009, by decide +kernel⟩
  · exact ⟨{State.reset with host.ops := [{ mkOp 5 1 .locked [0] with detail := D.PACKAGE_PATH }]}, 7, 0xA000, by decide +kernel⟩
  · exact ⟨(regs1 ((R.PART_TOP_STAT.UNAVAIL 5,0) :: (List.range 24).map fun n => (R.PART_TOP_ARRn.VALID 5 n, 0))
    {State.reset with ctl.mode := .run, pw.withheld := []}), 5, 0, 20, by decide +kernel⟩
  · exact ⟨{State.reset with ctl.mode := .start}, 1, by decide +kernel⟩
  · exact ⟨(regs1 [(R.RST_PIN_STAT.WOR_B_SD,1)] {State.reset with ctl.mode := .start}), 1, by decide +kernel⟩
  · exact ⟨{State.reset with ctl.mode := .minimal}, 1, by decide +kernel⟩
  · exact ⟨(regs1 [(R.RST_LEASE.HOLDER,2)] State.reset), by decide +kernel⟩
  · exact ⟨(regs1 [(R.RST_LEASE.GUARD,1)] State.reset), by decide +kernel⟩

theorem test_meets_guards_and_worisy_links_complete_3 :
    (∃ (s : State) (port seq cmd : Nat), port < 2 ∧ (worPort s port).open_.find? (fun x => x.1 == seq) = some (seq, cmd)) ∧
    (∃ (s : State) (port : Nat), port < 2 ∧ s.ctl.mode = .off) := by
  refine ⟨?_, ?_⟩
  · exact ⟨{State.reset with worA.open_ := [(4, 0x23), (7, 0x30)]}, 0, 7, 0x30, by decide +kernel⟩
  · exact ⟨{State.reset with ctl.mode := .off}, 1, by decide +kernel⟩

theorem test_meets_worisy_requests_and_lease_complete :
    (∃ (s : State) (w : WReq), FreeReq s w WC.LEASE_CLAIM ∧ s.rd R.RST_LEASE.HOLDER = 0 ∧ (s.rd R.RST_LEASE.GUARD = 0 ∨ s.rd R.RST_LEASE.LAST =
      w.port)) ∧
    (∃ (s : State) (w : WReq), FreeReq s w WC.LEASE_CLAIM ∧ s.rd R.RST_LEASE.HOLDER = 0 ∧ s.rd R.RST_LEASE.GUARD = 1 ∧ s.rd R.RST_LEASE.LAST ≠
      w.port) ∧
    (∃ (s : State) (w : WReq), ByHolder s w WC.LEASE_RENEW) ∧
    (∃ (s : State) (w : WReq) (status : Nat), Heard s w ∧ actRefusal s w WC.LEASE_RENEW = some status) ∧
    (∃ (s : State) (w : WReq), ByHolder s w WC.LEASE_RELEASE) ∧
    (∃ (s : State) (w : WReq), FreeReq s w WC.LEASE_STATUS) := by
  refine ⟨?_, ?_, ?_, ?_, ?_, ?_⟩
  · exact ⟨(regs1 [(R.RST_LEASE.HOLDER,0),(R.RST_LEASE.LGEN,0x17)] (held State.reset)), (wr0 0 0), by decide +kernel⟩
  · exact ⟨(regs1 [(R.RST_LEASE.HOLDER,0),(R.RST_LEASE.GUARD,1)] (held State.reset)), (wr0 0 0), by decide +kernel⟩
  · exact ⟨(held State.reset), (wr0 1 0x17), by decide +kernel⟩
  · exact ⟨(held State.reset), (wr0 0 0x17), WS.NOT_HOLDER, by decide +kernel⟩
  · exact ⟨(held State.reset), (wr0 1 0x17), by decide +kernel⟩
  · exact ⟨(held State.reset), (wr0 0 0), by decide +kernel⟩

theorem test_meets_worisy_reads_and_writes_complete_1 :
    (∃ (s : State) (w : WReq), FreeReq s w WC.PING) ∧
    (∃ (s : State) (w : WReq) (a : Ans), w.port < 2 ∧ s.ctl.mode ≠ .off ∧ s.ctl.mode ≠ .mfgTest ∧ keptAnswer s w = some a) ∧
    (∃ (s : State) (w : WReq), FreeReq s w WC.INFO) ∧
    (∃ (s : State) (w : WReq) (off cnt : Nat), FreeReq s w WC.REG_READ ∧ regRange off cnt = true ∧ (∀ i < cnt, off + 4 * i ≠ regOff .FZ_TIME_LO
      [])) ∧
    (∃ (s : State) (w : WReq), FreeReq s w WC.REG_READ) ∧
    (∃ (s : State) (w : WReq) (off cnt : Nat), FreeReq s w WC.REG_READ ∧ regRange off cnt = false) ∧
    (∃ (s : State) (w : WReq) (k : RegKind) (ix : List Nat) (v : BitVec 32), Heard s w ∧ w.rsv = false ∧ w.lgen = 0 ∧ w.badLen = false ∧ worBusy
      s WC.REG_WRITE = false ∧ plainReg k = true ∧ regAt (regOff k ix) = some (k, ix) ∧ Passes s (portSrc w.port) (regOff k ix)) ∧
    (∃ (s : State) (w : WReq) (k : RegKind) (ix : List Nat) (v : BitVec 32), Heard s w ∧ w.rsv = false ∧ w.lgen = 0 ∧ w.badLen = false ∧ worBusy
      s WC.REG_WRITE = false ∧ regAt (regOff k ix) = some (k, ix) ∧ commandOnly (regOff k ix) = true) := by
  refine ⟨?_, ?_, ?_, ?_, ?_, ?_, ?_, ?_⟩
  · exact ⟨(held State.reset), (wr0 0 0), by decide +kernel⟩
  · exact ⟨{State.reset with ctl.mode := .run, worB.kept := [(6,1,0,[]),(7,0x1234,5,[3])]}, (wr0 1 0), (5,[3]), by decide +kernel⟩
  · exact ⟨(held State.reset), (wr0 0 0), by decide +kernel⟩
  · exact ⟨(held State.reset), (wr0 0 0), (regOff .RST_LEASE []), 1, by decide +kernel⟩
  · exact ⟨(held State.reset), (wr0 0 0), by decide +kernel⟩
  · exact ⟨(held State.reset), (wr0 0 0), 0x3FFFFFC, 2, by decide +kernel⟩
  · exact ⟨(held State.reset), (wr0 0 0), .PART_BRM_CTL, [3], 0xFFFFFFFF#32, by decide +kernel⟩
  · exact ⟨(held State.reset), (wr0 0 0), .RST_REQ, [], 0x805A0000#32, by decide +kernel⟩

theorem test_meets_worisy_reads_and_writes_complete_2 :
    (∃ (s : State) (w : WReq) (off : Nat) (ws : List (BitVec 32)), Heard s w ∧ w.rsv = false ∧ w.lgen = 0 ∧ w.badLen = false ∧ worBusy s
      WC.REG_WRITE = false ∧ regRange off ws.length = false) ∧
    (∃ (s : State) (w : WReq) (off len : Nat), FreeReq s w WC.EVT_READ ∧ ¬ (len % 8 = 0 ∧ len ≤ 2048 ∧ off + len ≤ 16384 * 4096)) ∧
    (∃ (s : State) (w : WReq) (off len : Nat), FreeReq s w WC.EVT_READ ∧ len % 8 = 0 ∧ len ≤ 2048 ∧ off + len ≤ 16384 * 4096) := by
  refine ⟨?_, ?_, ?_⟩
  · exact ⟨(held State.reset), (wr0 0 0), 0x3FFFFFC, [1, 2], by decide +kernel⟩
  · exact ⟨(held State.reset), (wr0 0 0), 4088, 15, by decide +kernel⟩
  · exact ⟨(held State.reset), (wr0 0 0), 4088, 16, by decide +kernel⟩

theorem test_meets_worisy_actuating_commands_complete_1 :
    (∃ (s : State) (w : WReq) (watts : Nat), ByHolder s w WC.SET_CLIP) ∧
    (∃ (s : State) (w : WReq) (watts : Nat), ByHolder s w WC.SET_RACK_CLIP) ∧
    (∃ (s : State) (w : WReq) (point time : Nat), ByHolder s w WC.SET_OP_CEIL ∧ point < 8 ∧ (time = 0 ∨ s.clk.time.toNat < time)) ∧
    (∃ (s : State) (w : WReq) (flow : Nat), ByHolder s w WC.FLOW_REPORT ∧ flow < 255) ∧
    (∃ (s : State) (w : WReq), ByHolder s w WC.HOLD ∧ (s.ctl.mode = .run ∨ s.ctl.mode = .ready ∨ s.ctl.mode = .drain)) ∧
    (∃ (s : State) (w : WReq), ByHolder s w WC.HOLD ∧ s.ctl.mode = .hold ∧ s.rd R.PWR_STAT.HOLD_BROWN = 0 ∧ s.ctl.ret = .run) ∧
    (∃ (s : State) (w : WReq), ByHolder s w WC.RESET ∧ moduleBusy s = false) ∧
    (∃ (s : State) (w : WReq) (p : Nat), p < 8 ∧ ByHolder s w WC.RESET ∧ s.ctl.mode = .run ∧ s.ctl.rungs = []) := by
  refine ⟨?_, ?_, ?_, ?_, ?_, ?_, ?_, ?_⟩
  · exact ⟨(held State.reset), (wr0 1 0x17), 99999, by decide +kernel⟩
  · exact ⟨(held State.reset), (wr0 1 0x17), 99999, by decide +kernel⟩
  · exact ⟨(held State.reset), (wr0 1 0x17), 3, 0, by decide +kernel⟩
  · exact ⟨(held State.reset), (wr0 1 0x17), 59, by decide +kernel⟩
  · exact ⟨{held State.reset with ctl.mode := .drain}, (wr0 1 0x17), by decide +kernel⟩
  · exact ⟨(regs1 [(R.PWR_STAT.HOLD_OPER,1),(R.PWR_STAT.HOLD_BROWN,0)] {held State.reset with ctl.mode := .hold, ctl.ret := .run}), (wr0 1
    0x17), by decide +kernel⟩
  · exact ⟨{held State.reset with ctl.rungs := []}, (wr0 1 0x17), by decide +kernel⟩
  · exact ⟨{held State.reset with ctl.rungs := []}, (wr0 1 0x17), 5, by decide +kernel⟩

theorem test_meets_worisy_actuating_commands_complete_2 :
    (∃ (s : State) (w : WReq), ByHolder s w WC.MEMBER_RENEW) ∧
    (∃ (s : State) (w : WReq), ByHolder s w WC.FENCE ∧ s.ctl.mode ≠ .fenced ∧ s.ctl.mode ≠ .minimal) ∧
    (∃ (s : State) (w : WReq), ByHolder s w WC.FENCE ∧ s.ctl.mode = .minimal) ∧
    (∃ (s : State) (w : WReq) (e : Nat), ByHolder s w WC.READMIT ∧ e < 2 ∧ s.rd R.RST_ESC_STAT.READMIT_PEND = 1 ∧ s.rd R.FZ_BANK_STAT.READY = 1
      ∧ s.fab.renewed.isSome = true ∧ s.rd R.FZ_MEMBER.LAPSED = 0) ∧
    (∃ (s : State) (w : WReq), ByHolder s w WC.CLR_FAILS) := by
  refine ⟨?_, ?_, ?_, ?_, ?_⟩
  · exact ⟨(regs1 [(R.FZ_MEMBER.LAPSED,1)] (held State.reset)), (wr0 1 0x17), by decide +kernel⟩
  · exact ⟨(held State.reset), (wr0 1 0x17), by decide +kernel⟩
  · exact ⟨{held State.reset with ctl.mode := .minimal}, (wr0 1 0x17), by decide +kernel⟩
  · exact ⟨(regs1 [(R.RST_ESC_STAT.READMIT_PEND,1),(R.FZ_BANK_STAT.READY,1),(R.FZ_MEMBER.LAPSED,0)]
    {held State.reset with fab.renewed := some 5, fab.bank0.dir := [(4, 77)]}), (wr0 1 0x17), 1, by decide +kernel⟩
  · exact ⟨(held State.reset), (wr0 1 0x17), by decide +kernel⟩

theorem test_meets_security_and_recorder_complete_1 :
    (∃ (s : State) (w : WReq) (idx : Nat), FreeReq s w WC.MEAS_READ ∧ 1 ≤ idx ∧ idx ≤ 6) ∧
    (∃ (s : State) (w : WReq), ByHolder s w WC.EVT_CLEAR) ∧
    (∃ (s : State) (w : WReq), FreeReq s w WC.OWNER_CHALLENGE) ∧
    (∃ (s : State) (w : WReq) (slot : Nat) (modulus auth n : List Byte) (at_ : Nat), ByHolder s w WC.OWNER_ENROLL ∧ nextSlot s = some slot ∧
      modulus.length = 512 ∧ auth.length = 512 ∧ (worPort s w.port).nonce = some (n, at_) ∧ s.clk.mono ≤ at_ + 60000000000) ∧
    (∃ (s : State) (w : WReq) (slot : Nat) (auth n : List Byte) (at_ : Nat), ByHolder s w WC.OWNER_REVOKE ∧ slot < 8 ∧ (usableSlots s).contains
      slot = true ∧ usableSlots s ≠ [slot] ∧ auth.length = 512 ∧ (worPort s w.port).nonce = some (n, at_) ∧ s.clk.mono ≤ at_ + 60000000000) ∧
    (∃ (s : State) (w : WReq) (v : Nat), ByHolder s w WC.SET_SECURITY ∧ v < 2) ∧
    (∃ (s : State) (p : Page), s.rcd.stage = [p] ∧ p.closed = false ∧ s.ctl.doneTrain = false) ∧
    (∃ (s : State) (p : Page), s.rcd.stage = [p] ∧ p.closed = true ∧ s.ctl.doneTrain = true ∧ p.bytes.length ≤ 4096 ∧ p.idx < 16384 ∧ 0 <
      s.vlt.wear ∧ s.vlt.held = false) := by
  refine ⟨?_, ?_, ?_, ?_, ?_, ?_, ?_, ?_⟩
  · exact ⟨(held State.reset), (wr0 0 0), 4, by decide +kernel⟩
  · exact ⟨(held State.reset), (wr0 1 0x17), by decide +kernel⟩
  · exact ⟨(held State.reset), (wr0 0 0), by decide +kernel⟩
  · exact ⟨{held State.reset with worB.nonce := some ([1], State.reset.clk.mono)}, (wr0 1 0x17), 0, (List.replicate 512 5), (List.replicate 512
    0), [1], State.reset.clk.mono, by decide +kernel⟩
  · exact
    ⟨{held State.reset with worB.nonce := some ([1], State.reset.clk.mono), nv.fuses.owner := [(0, ⟨[3], true, false⟩), (1, ⟨[4], true, false⟩)]},
    (wr0 1 0x17), 1, (List.replicate 512 0), [1], State.reset.clk.mono, by decide +kernel⟩
  · exact ⟨(held State.reset), (wr0 1 0x17), 1, by decide +kernel⟩
  · exact ⟨{State.reset with rcd.stage := [⟨3, [1,2], false, 77⟩], ctl.doneTrain := false}, ⟨3, [1,2], false, 77⟩, by decide +kernel⟩
  · exact ⟨{State.reset with rcd.stage := [⟨3, [1,2], true, 77⟩], ctl.doneTrain := true, vlt.held := false, vlt.wear := 9}, ⟨3, [1,2], true,
    77⟩, by decide +kernel⟩

theorem test_meets_security_and_recorder_complete_2 :
    (∃ (s : State) (req : List Byte), s.ctl.mode ≠ .off) ∧
    (∃ (s : State) (stream : Nat) (key : List Byte), stream < 4) := by
  refine ⟨?_, ?_⟩
  · exact ⟨{State.reset with ctl.mode := .run}, [1,2], by decide +kernel⟩
  · exact ⟨State.reset, 1, [1,2], by decide +kernel⟩

theorem test_meets_update_commands_complete_1 :
    (∃ (s : State) (ok : Bool), s.rd R.UPD_STAT.STATE = UP.PROGRAMMING ∧ s.nv.nor.updKind = 1) ∧
    (∃ (s : State) (w : WReq) (tA grp n secs : Nat), ByHolder s w WC.ACTIVATE ∧ s.rd R.UPD_STAT.STATE = UP.PROGRAMMED ∧ s.clk.time.toNat +
      20000000 ≤ tA ∧ 60 ≤ secs ∧ secs ≤ 86400) ∧
    (∃ (s : State) (w : WReq) (tA grp n : Nat), ByHolder s w WC.ACTIVATE ∧ s.rd R.UPD_STAT.STATE = UP.PROGRAMMED ∧ 0 < tA ∧ tA <
      s.clk.time.toNat + 20000000) ∧
    (∃ (s : State) (tA grp n secs : Nat), s.upd.armed = some (tA, grp, n, secs) ∧ grp ≠ 0 ∧ updReady s = true) ∧
    (∃ (s : State) (fa gen tA grp n secs : Nat), genOk s fa gen = true ∧ s.upd.armed = some (tA, grp, n, secs) ∧ s.clk.time.toNat + 1000000 ≤ tA
      ∧ s.upd.voted = false ∧ s.upd.votes.contains fa = false) ∧
    (∃ (s : State) (fa gen tA grp n secs : Nat) (ready : Bool), genOk s fa gen = true ∧ s.upd.armed = some (tA, grp, n, secs) ∧ tA <
      s.clk.time.toNat + 1000000) ∧
    (∃ (s : State) (tA grp n secs : Nat), s.upd.armed = some (tA, grp, n, secs) ∧ grp ≠ 0) ∧
    (∃ (s : State) (tA n secs : Nat), s.upd.armed = some (tA, 0, n, secs) ∧ s.rd R.UPD_STAT.STATE = UP.PROGRAMMED ∧ s.ctl.mode = .ready ∧ s.rd
      R.HIF_CTL.SERVE = 0 ∧ running s = [] ∧ s.nv.nor.updKind = 1 ∧ slotOk s s.nv.nor.slotR = true) := by
  refine ⟨?_, ?_, ?_, ?_, ?_, ?_, ?_, ?_⟩
  · exact ⟨(regs1 [(R.UPD_STAT.STATE,4)] {State.reset with nv.nor.updKind := 1}), true, by decide +kernel⟩
  · exact ⟨(regs1 [(R.UPD_STAT.STATE,5)] (held State.reset)), (wr0 1 0x17), (State.reset.clk.time.toNat + 20000000), 5, 3, 60,
    by decide +kernel⟩
  · exact ⟨(regs1 [(R.UPD_STAT.STATE,5)] (held State.reset)), (wr0 1 0x17), (State.reset.clk.time.toNat + 19999999), 5, 3, by decide +kernel⟩
  · exact ⟨{State.reset with ctl.mode := .minimal, upd.armed := some (State.reset.clk.time.toNat + 50000000, 5, 3, 60)},
    (State.reset.clk.time.toNat + 50000000), 5, 3, 60, by decide +kernel⟩
  · exact ⟨{fabNet State.reset with upd.armed := some (State.reset.clk.time.toNat + 1000000, 5, 3, 60), upd.voted := false, upd.votes := [9]},
    5, 1, (State.reset.clk.time.toNat + 1000000), 5, 3, 60, by decide +kernel⟩
  · exact ⟨{fabNet State.reset with upd.armed := some (State.reset.clk.time.toNat + 999999, 5, 3, 60), upd.voted := false, upd.votes := [9]}, 5,
    1, (State.reset.clk.time.toNat + 999999), 5, 3, 60, true, by decide +kernel⟩
  · exact ⟨{State.reset with upd.armed := some (State.reset.clk.time.toNat + 50000000, 5, 2, 60), upd.votes := [9, 5]},
    (State.reset.clk.time.toNat + 50000000), 5, 2, 60, by decide +kernel⟩
  · exact ⟨(regs1 [(R.UPD_STAT.STATE,5),(R.HIF_CTL.SERVE,0)]
    {State.reset with ctl.mode := .ready, host.ctx := [], upd.armed := some (State.reset.clk.time.toNat + 50000000, 0, 3, 60), nv.nor.updKind := 1, nv.nor.slotR.ok := true, nv.nor.slotR.svn := 70, nv.nor.slotR.version := 0x10203}),
    (State.reset.clk.time.toNat + 50000000), 3, 60, by decide +kernel⟩

theorem test_meets_update_commands_complete_2 :
    (∃ (s : State) (tA grp n secs : Nat), s.upd.armed = some (tA, grp, n, secs) ∧ grp ≠ 0 ∧ s.upd.voted = false ∧ s.rd R.UPD_STAT.STATE =
      UP.PROGRAMMED ∧ updReady s = true) ∧
    (∃ (s : State) (w : WReq), ByHolder s w WC.CONFIRM ∧ s.rd R.UPD_STAT.STATE = UP.UNCONFIRMED ∧ s.nv.nor.updKind = 1) ∧
    (∃ (s : State) (w : WReq), ByHolder s w WC.ROLLBACK ∧ s.rd R.UPD_STAT.STATE = UP.UNCONFIRMED ∧ s.nv.nor.updKind = 1) ∧
    (∃ s : State, s.rd R.UPD_STAT.STATE = UP.UNCONFIRMED ∧ s.nv.nor.updKind = 1) ∧
    (∃ (s : State) (w : WReq) (tA slot : Nat), ByHolder s w WC.ACTIVATE_PLAN ∧ slot < 2 ∧ s.clk.time.toNat < tA) ∧
    (∃ (s : State) (w : WReq) (slot : Nat), ByHolder s w WC.ACTIVATE_PLAN ∧ slot < 2 ∧ planReady s slot = true) ∧
    (∃ (s : State) (tA slot : Nat), s.upd.planAt = some (tA, slot) ∧ slot < 2 ∧ planReady s slot = true) := by
  refine ⟨?_, ?_, ?_, ?_, ?_, ?_, ?_⟩
  · exact ⟨(regs1 [(R.UPD_STAT.STATE,5)]
    {State.reset with ctl.mode := .minimal, upd.voted := false, upd.armed := some (State.reset.clk.time.toNat + 50000000, 5, 3, 60)}),
    (State.reset.clk.time.toNat + 50000000), 5, 3, 60, by decide +kernel⟩
  · exact ⟨(regs1 [(R.UPD_STAT.STATE,7)] {held State.reset with nv.nor.updKind := 1, nv.nor.slotR.svn := 70}), (wr0 1 0x17), by decide +kernel⟩
  · exact ⟨(regs1 [(R.UPD_STAT.STATE,7)] {held State.reset with nv.nor.updKind := 1, nv.nor.slotF.version := 3}), (wr0 1 0x17),
    by decide +kernel⟩
  · exact ⟨(regs1 [(R.UPD_STAT.STATE,7)] {State.reset with nv.nor.updKind := 1, nv.nor.slotF.version := 3}), by decide +kernel⟩
  · exact ⟨(held State.reset), (wr0 1 0x17), (State.reset.clk.time.toNat + 1), 1, by decide +kernel⟩
  · exact ⟨(regs1 ((List.range 64).map fun c => (R.HIF_CTX_STATc.STATE c, 0)) {held State.reset with nv.super.verB := true}), (wr0 1 0x17), 1,
    by decide +kernel⟩
  · exact ⟨(regs1 ((List.range 64).map fun c => (R.HIF_CTX_STATc.STATE c, 0))
    {State.reset with nv.super.verB := true, upd.planAt := some (State.reset.clk.time.toNat + 5, 1)}), (State.reset.clk.time.toNat + 5), 1,
    by decide +kernel⟩

theorem test_meets_quickset_complete_1 :
    (∃ (s : State) (a : QsAnn), s.qs.src = some a ∧ qsBusy s = true) ∧
    (∃ (s : State) (a : QsAnn), s.qs.src = some a ∧ qsBusy s = true ∧ a.dst ≠ 0xFFFFF ∧ canInject s = true ∧ s.rd R.FZ_MEMBER.LAPSED = 0) ∧
    (∃ (s : State) (gen : Nat) (a : QsAnn), gen < 256 ∧ genOk s a.src gen = true ∧ qsNamed s a = true ∧ qsTakes s a.kind = true ∧ s.rd
      R.RST_QS_STAT.STATE = QX.LISTEN ∧ 0 < a.nData ∧ a.kind ≠ 1) ∧
    (∃ (s : State) (fa gen : Nat) (a : QsAnn) (b i : Nat) (data : List Byte), fa < 2 ^ 20 ∧ gen < 256 ∧ genOk s fa gen = true ∧ s.qs.ann = some
      a ∧ s.rd R.RST_QS_STAT.STATE = QX.RECEIVE ∧ b < a.nData ∧ a.nData < 2 ^ 25 ∧ i < 4 ∧ data.length = 1024 ∧ s.qs.have_ = [] ∧ qsWaiting s =
      false ∧ a.nTable = 1) ∧
    (∃ (s : State) (fa gen : Nat) (a : QsAnn), fa < 2 ^ 20 ∧ gen < 256 ∧ genOk s fa gen = true ∧ s.qs.ann = some a ∧ s.rd R.RST_QS_STAT.STATE =
      QX.RECEIVE ∧ (∀ n < 36, portUp s n = false)) ∧
    (∃ (s : State) (a : QsAnn), s.qs.ann = some a ∧ s.rd R.RST_QS_STAT.STATE = QX.RECEIVE ∧ (∀ n < 36, portUp s n = false)) ∧
    (∃ (s : State) (fa gen session : Nat) (blocks : List (Bool × Nat)), fa < 2 ^ 20 ∧ gen < 256 ∧ genOk s fa gen = true ∧ 0 < blocks.length ∧
      blocks.length ≤ 240 ∧ (∀ b ∈ blocks, b.2 < 2 ^ 25 ∧ qsHeld s session b = none) ∧ canInject s = true ∧ s.rd R.FZ_MEMBER.LAPSED = 0) ∧
    (∃ (s : State) (fa gen : Nat) (a : QsAnn) (b i : Nat) (data : List Byte), fa < 2 ^ 20 ∧ gen < 256 ∧ genOk s fa gen = true ∧ s.qs.ann = some
      a ∧ s.rd R.RST_QS_STAT.STATE = QX.FETCH ∧ b < a.nData ∧ a.nData < 2 ^ 25 ∧ i < 3 ∧ data.length = 1024 ∧ s.qs.have_ = [] ∧ qsWaiting s =
      false ∧ a.nTable = 1) := by
  refine ⟨?_, ?_, ?_, ?_, ?_, ?_, ?_, ?_⟩
  · exact ⟨{State.reset with qs.src := some ⟨5, 0xFFFFF, 3, 2, false, 0, 65536, 0, 16, 1⟩, qs.sent := 19}, ⟨5, 0xFFFFF, 3, 2, false, 0, 65536,
    0, 16, 1⟩, by decide +kernel⟩
  · exact ⟨{fabNet State.reset with qs.src := some ⟨5, 0x90000, 3, 2, false, 0, 65536, 0, 16, 1⟩, qs.sent := 4}, ⟨5, 0x90000, 3, 2, false, 0,
    65536, 0, 16, 1⟩, by decide +kernel⟩
  · exact ⟨(regs1 [(R.RST_QS_STAT.STATE,1)] {fabNet State.reset with ctl.mode := .recovery}), 1, ⟨5, 0xFFFFF, 3, 2, false, 0, 65536, 0, 16, 1⟩,
    by decide +kernel⟩
  · exact ⟨(regs1 [(R.RST_QS_STAT.STATE,2)]
    {fabNet State.reset with ctl.mode := .recovery, qs.have_ := [], qs.parts := [], qs.ann := some ⟨5, 0xFFFFF, 3, 2, false, 0, 65536, 0, 16, 1⟩}),
    5, 1, ⟨5, 0xFFFFF, 3, 2, false, 0, 65536, 0, 16, 1⟩, 15, 3, (List.replicate 1024 5), by decide +kernel⟩
  · exact ⟨(regs1 ((R.RST_QS_STAT.STATE,2) :: (List.range 36).map fun n => (R.FZ_PORT_STAT.STATE n, 0))
    {fabNet State.reset with qs.have_ := [], qs.ann := some ⟨5, 0xFFFFF, 3, 2, false, 0, 65536, 0, 16, 1⟩}), 5, 1, ⟨5, 0xFFFFF, 3, 2, false, 0,
    65536, 0, 16, 1⟩, by decide +kernel⟩
  · exact ⟨(regs1 ((R.RST_QS_STAT.STATE,2) :: (List.range 36).map fun n => (R.FZ_PORT_STAT.STATE n, 0))
    {State.reset with qs.have_ := [], qs.ann := some ⟨5, 0xFFFFF, 3, 2, false, 0, 65536, 0, 16, 1⟩}), ⟨5, 0xFFFFF, 3, 2, false, 0, 65536, 0, 16,
    1⟩, by decide +kernel⟩
  · exact ⟨{fabNet State.reset with qs.src := none, qs.ann := none}, 5, 1, 3, [(false, 3), (true, 0)], by decide +kernel⟩
  · exact ⟨(regs1 [(R.RST_QS_STAT.STATE,4)]
    {fabNet State.reset with ctl.mode := .recovery, qs.have_ := [], qs.parts := [], qs.ann := some ⟨5, 0xFFFFF, 3, 2, false, 0, 65536, 0, 16, 1⟩}),
    5, 1, ⟨5, 0xFFFFF, 3, 2, false, 0, 65536, 0, 16, 1⟩, 15, 2, (List.replicate 1024 5), by decide +kernel⟩

theorem test_meets_quickset_complete_2 :
    (∃ (s : State) (fa gen : Nat) (blocks : List (Bool × Nat)), fa < 2 ^ 20 ∧ gen < 256 ∧ genOk s fa gen = true ∧ s.rd R.RST_QS_STAT.STATE ≠
      QX.REPAIR) ∧
    (∃ (s : State) (a : QsAnn), s.qs.ann = some a ∧ s.rd R.RST_QS_STAT.STATE = QX.REPAIR ∧ (∀ n < 36, portUp s n = false)) ∧
    (∃ s : State, s.rd R.RST_QS_STAT.STATE = QX.FETCH ∧ qsWaiting s = false) ∧
    (∃ (s : State) (a : QsAnn), s.qs.ann = some a ∧ s.rd R.RST_QS_STAT.STATE = QX.VERIFY ∧ a.kind = 1 ∧ a.base + 4096 * a.nData < a.imageLen) := by
  refine ⟨?_, ?_, ?_, ?_⟩
  · exact ⟨(regs1 [(R.RST_QS_STAT.STATE,4)] {fabNet State.reset with qs.asked := [(false,3),(true,0)]}), 5, 1, [(false,3)], by decide +kernel⟩
  · exact ⟨(regs1 ((R.RST_QS_STAT.STATE,3) :: (List.range 36).map fun n => (R.FZ_PORT_STAT.STATE n, 0))
    {State.reset with qs.have_ := [], qs.ann := some ⟨5, 0xFFFFF, 3, 2, false, 0, 65536, 0, 16, 1⟩}), ⟨5, 0xFFFFF, 3, 2, false, 0, 65536, 0, 16,
    1⟩, by decide +kernel⟩
  · exact ⟨(regs1 [(R.RST_QS_STAT.STATE,4)] {State.reset with ctl.mode := .run}), by decide +kernel⟩
  · exact ⟨(regs1 [(R.RST_QS_STAT.STATE,5)] {State.reset with ctl.mode := .run, qs.ann := some ⟨5, 0xFFFFF, 3, 1, false, 0, 65537, 0, 16, 1⟩}),
    ⟨5, 0xFFFFF, 3, 1, false, 0, 65537, 0, 16, 1⟩, by decide +kernel⟩

theorem test_meets_banks_and_fabric_clock_complete_1 :
    (∃ (s : State) (fa gen f : Nat) (hi : Bool) (v : BitVec 32), genOk s fa gen = true ∧ entMgr (dirEnt s (activeEpoch s) fa) = true ∧ f < 2 ^
      20 ∧ s.rd R.FZ_BANK_STAT.HOLD = 0 ∧ s.rd R.FZ_SELF.VALID = 0 ∧ entGrp (setWord (tget 0 (bankOf s (1 - activeEpoch s)).dir f) hi v).toNat =
      false) ∧
    (∃ (s : State) (fa gen a : Nat) (v : BitVec 32), genOk s fa gen = true ∧ entMgr (dirEnt s (activeEpoch s) fa) = true ∧ s.rd
      R.FZ_BANK_STAT.HOLD = 1 ∧ s.rd R.FZ_SELF.VALID = 0) ∧
    (∃ (s : State) (at_ : Nat), s.fab.armed = some at_ ∧ s.rd R.FZ_BANK_STAT.READY = 1) ∧
    (∃ (s : State) (at_ : Nat), s.fab.armed = some at_ ∧ s.rd R.FZ_BANK_STAT.READY = 0) ∧
    (∃ s : State, s.rd R.FZ_BANK_STAT.HOLD = 1) ∧
    (∃ (s : State) (at_ : Nat), s.fab.renewed = some at_ ∧ s.rd R.FZ_MEMBER.LAPSED = 0) ∧
    (∃ s : State, s.rd R.FZ_TIME_STAT.TSTATE = TS.ROOT) ∧
    (∃ (s : State) (n : Nat) (f : TimeFrame), n < 36 ∧ portUp s n = true ∧ (∀ m < 36, m ≠ n → portUp s m = false) ∧ frameCounts s (tget
      PortSt.init s.fab.ports n) f = true ∧ s.rd R.FZ_TIME_STAT.TSTATE = TS.FREE) := by
  refine ⟨?_, ?_, ?_, ?_, ?_, ?_, ?_, ?_⟩
  · exact ⟨(regs1 [(R.FZ_BANK_STAT.ACTIVE,0),(R.FZ_BANK_STAT.HOLD,0),(R.FZ_SELF.VALID,0)]
    {State.reset with fab.bank0 := { State.reset.fab.bank0 with dir := [(5, BitVec.ofNat 64 (2^63 + 2^52 + 2^51 + 4 * 2^32))] } }), 5, 1,
    0xFFFFF, true, 0x80000001, by decide +kernel⟩
  · exact ⟨(regs1 [(R.FZ_BANK_STAT.ACTIVE,0),(R.FZ_BANK_STAT.HOLD,1),(R.FZ_SELF.VALID,0)]
    {State.reset with fab.bank0 := { State.reset.fab.bank0 with dir := [(5, BitVec.ofNat 64 (2^63 + 2^52 + 2^51 + 4 * 2^32))] } }), 5, 1,
    0x600004, 0x80000001, by decide +kernel⟩
  · exact ⟨(regs1 [(R.FZ_BANK_STAT.READY,1),(R.FZ_BANK_STAT.ACTIVE,1)] {State.reset with fab.armed := some 5000000, clk.time := 77}), 5000000,
    by decide +kernel⟩
  · exact ⟨(regs1 [(R.FZ_BANK_STAT.READY,0),(R.FZ_BANK_STAT.ACTIVE,1)] {State.reset with fab.armed := some 5000000, clk.time := 77}), 5000000,
    by decide +kernel⟩
  · exact ⟨(regs1 [(R.FZ_BANK_STAT.HOLD,1)] State.reset), by decide +kernel⟩
  · exact ⟨(regs1 [(R.FZ_MEMBER.LAPSED,0)] {State.reset with fab.renewed := some 7}), 7, by decide +kernel⟩
  · exact ⟨(regs1 [(R.FZ_TIME_STAT.TSTATE,4),(R.FZ_PORT_STAT.STATE 3,4),(R.FZ_PORT_STAT.STATE 35,4)] {State.reset with fab.rseq := 65535}),
    by decide +kernel⟩
  · exact ⟨(regs1 ((R.FZ_TIME_STAT.TSTATE,0) :: (List.range 36).map fun m => (R.FZ_PORT_STAT.STATE m, if m = 35 then 4 else 0))
    {State.reset with fab.ports := [(35, {PortSt.init with rootFa := 77, repoch := 3, rseq := 8})]}), 35, ⟨6, 77, 3, 9, true, 100, 250, 300,
    380⟩, by decide +kernel⟩

theorem test_meets_banks_and_fabric_clock_complete_2 :
    (∃ s : State, (s.rd R.FZ_TIME_STAT.TSTATE = TS.ACQUIRE ∨ s.rd R.FZ_TIME_STAT.TSTATE = TS.LOCKED)) ∧
    (∃ s : State, s.rd R.FZ_TIME_STAT.TSTATE = TS.HOLDOVER ∧ 0 < s.rd R.FZ_TIME_CFG.BACKUP) ∧
    (∃ s : State, s.rd R.FZ_TIME_CFG.ROOT = 1 ∧ s.rd R.FZ_TIME_STAT.TSTATE = TS.FREE ∧ (List.range 36).any (portUp s) = true ∧ timeParent s =
      none) := by
  refine ⟨?_, ?_, ?_⟩
  · exact ⟨(regs1 [(R.FZ_TIME_STAT.TSTATE,2)] State.reset), by decide +kernel⟩
  · exact ⟨(regs1 [(R.FZ_TIME_STAT.TSTATE,3),(R.FZ_TIME_CFG.BACKUP,3)] {State.reset with fab.newest := some 255}), by decide +kernel⟩
  · exact ⟨(regs1 [(R.FZ_TIME_STAT.TSTATE,0),(R.FZ_TIME_CFG.ROOT,1),(R.FZ_PORT_STAT.STATE 3,4)] {State.reset with fab.ports := []}),
    by decide +kernel⟩

end Sys2Proof.Tests
end

section
/-!
PROOFS. Bits of little-endian byte strings, the codebook indices cut from them (R24), and the rounding modes (R42).
-/

namespace Sys2Proof.Machine

/-! Bits of a little-endian byte string. -/

@[simp] theorem leNat_nil : leNat [] = 0 := rfl

@[simp] theorem leNat_cons (b : Byte) (bs : List Byte) : leNat (b :: bs) = b.toNat + 256 * leNat bs := rfl

/-- Below bit 8 a byte string's number shows its first byte, from there on the rest of the string. -/
theorem testBit_leNat_cons (b : Byte) (bs : List Byte) (i : Nat) :
    (leNat (b :: bs)).testBit i = if i < 8 then b.toNat.testBit i else (leNat bs).testBit (i - 8) := by
  rw [leNat_cons, Nat.add_comm]
  exact Nat.testBit_two_pow_mul_add (i := 8) (leNat bs) b.isLt i

theorem testBit_leNat (bs : List Byte) (i : Nat) : (leNat bs).testBit i = (bs.getD (i / 8) 0).toNat.testBit (i % 8) := by
  induction bs generalizing i with
  | nil => simp
  | cons b bs ih =>
    rw [testBit_leNat_cons]
    split
    · next h => rw [Nat.div_eq_of_lt h, Nat.mod_eq_of_lt h, List.getD_cons_zero]
    · next h =>
      have hdiv : i / 8 = (i - 8) / 8 + 1 := by omega
      have hmod : i % 8 = (i - 8) % 8 := by omega
      rw [ih, hdiv, hmod, List.getD_cons_succ]

/-- `testBit_leNat` in the quotients that `stringBits` is defined with. -/
theorem leNat_div_two_pow_mod_two (bs : List Byte) (i : Nat) :
    leNat bs / 2 ^ i % 2 = (bs.getD (i / 8) 0).toNat / 2 ^ (i % 8) % 2 := by
  rw [← Nat.toNat_testBit, ← Nat.toNat_testBit, testBit_leNat]

theorem stringBits_eq (bs : List Byte) (lo n : Nat) : stringBits bs lo n = leNat bs / 2 ^ lo % 2 ^ n := by
  induction n with
  | zero => simp [stringBits, Nat.mod_one]
  | succ n ih =>
    rw [stringBits, ih, ← leNat_div_two_pow_mod_two, Nat.mod_pow_succ, Nat.div_div_eq_div_mul, ← Nat.pow_add, Nat.mul_comm (2 ^ n)]

/-! Codebook records (R24). -/

/-- Packed element k of width w stands in bits k w + w - 1 down to k w of the string (R19, R24). -/
theorem packedAt_leNat (w : Nat) (bs : List Byte) (k : Nat) : packedAt w (leNat bs) k = stringBits bs (k * w) w := by
  rw [stringBits_eq, packedAt, Nat.mul_comm]

/-- Settles O24: packed index k of width b is the b bits of the index string from bit k b on. -/
theorem codebookIndexBits : Obligations.CodebookIndexBits := by
  unfold Obligations.CodebookIndexBits
  intro f rec_ k _ hk
  have hidx := packedAt_leNat (cbWidth f) (rec_.drop (2 + cbEntBytes f)) k
  simp [cbElems, hk, hidx]

/-! Rounding (R42). -/

/-- m 2^e is a multiple of every unit no larger than 2^e, so that no mode rounds it. -/
theorem roundTo_finer_unit (md : Rnd) (m k : Nat) (e : Int) : roundTo md m e (e - k) = m * 2 ^ k := by
  have hle : e - k ≤ e := by omega
  simp [roundTo, hle]

section Coarser

variable {r j : Nat} (n : Nat) (e : Int) (hr : r < 2 ^ j) (hj : 0 < j)

include hr in
theorem mul_two_pow_add_div : (n * 2 ^ j + r) / 2 ^ j = n := by
  rw [Nat.add_comm, Nat.add_mul_div_right _ _ (Nat.two_pow_pos j), Nat.div_eq_of_lt hr, Nat.zero_add]

include hj in
theorem not_coarser_unit_le : ¬ e + j ≤ e := by omega

include hr hj

theorem roundTo_rne : roundTo .rne (n * 2 ^ j + r) e (e + j) =
    if 2 ^ j < 2 * r then n + 1 else if 2 * r < 2 ^ j then n else if n % 2 = 0 then n else n + 1 := by
  simp [roundTo, not_coarser_unit_le e hj, mul_two_pow_add_div n hr, Nat.mul_add_mod_of_lt hr]

theorem roundTo_rtz : roundTo .rtz (n * 2 ^ j + r) e (e + j) = n := by
  simp [roundTo, not_coarser_unit_le e hj, mul_two_pow_add_div n hr]

theorem roundTo_sr (x : Nat) : roundTo (.sr x) (n * 2 ^ j + r) e (e + j) =
    if 65536 ≤ 65536 * r / 2 ^ j + x then n + 1 else n := by
  simp [roundTo, not_coarser_unit_le e hj, mul_two_pow_add_div n hr, Nat.mul_add_mod_of_lt hr, Nat.mul_comm r]

/-- A random value of 16 bits never rounds an exact multiple of the unit up. -/
theorem roundTo_sr_exact {x : Nat} (hx : x < 65536) (h0 : r = 0) :
    roundTo (.sr x) (n * 2 ^ j + r) e (e + j) = n := by
  have hno : ¬ 65536 ≤ x := by omega
  rw [roundTo_sr n e hr hj]
  simp [h0, hno]

end Coarser

/-- Settles O22, mode by mode: the quotient by 2^j is n and the remainder r. -/
theorem roundingModes : Obligations.RoundingModes := by
  unfold Obligations.RoundingModes
  refine ⟨fun n r j x e hr hx hj => ⟨fun hup => ?_, fun hdown => ?_, fun htie => ?_, roundTo_rtz n e hr hj,
    roundTo_sr n e hr hj x, roundTo_sr_exact n e hr hj hx⟩, roundTo_finer_unit⟩
  · rw [roundTo_rne n e hr hj, if_pos hup]
  · rw [roundTo_rne n e hr hj, if_neg hdown.not_gt, if_pos hdown]
  · rw [roundTo_rne n e hr hj, if_neg htie.not_gt, if_neg htie.not_lt]

end Sys2Proof.Machine
end

section
/-!
PROOFS. The layout of unit identifiers (R59, Table 02-2) and the name of a pleached pair.
-/

namespace Sys2Proof.Machine

section UnitIdentifier

variable {p k i : Nat} (hp : p < 8) (hk : k < 8) (hi : i < 1024)

include hp hk hi in
theorem uidOf_lt : uidOf p k i < 2 ^ 16 := by unfold uidOf; omega

include hi

/-- Above INDEX stand PART and KIND: no index below 1,024 reaches into them. -/
theorem uidOf_div_two_pow_ten : uidOf p k i / 2 ^ 10 = p * 8 + k := by unfold uidOf; omega

@[simp] theorem uIdx_uidOf : uIdx (uidOf p k i) = i := by unfold uIdx uidOf; omega

include hk

@[simp] theorem uKind_uidOf : uKind (uidOf p k i) = k := by
  have hdiv : uidOf p k i / 1024 = p * 8 + k := uidOf_div_two_pow_ten hi
  rw [uKind, hdiv, Nat.mul_add_mod_of_lt hk]

theorem uidOf_div_two_pow_thirteen : uidOf p k i / 2 ^ 13 = p := by
  calc uidOf p k i / 2 ^ 13 = uidOf p k i / 2 ^ 10 / 8 := (Nat.div_div_eq_div_mul _ (2 ^ 10) 8).symm
    _ = (p * 8 + k) / 8 := by rw [uidOf_div_two_pow_ten hi]
    _ = p := by omega

include hp

@[simp] theorem uPart_uidOf : uPart (uidOf p k i) = p := by
  have hdiv : uidOf p k i / 8192 = p := uidOf_div_two_pow_thirteen hk hi
  rw [uPart, hdiv, Nat.mod_eq_of_lt hp]

end UnitIdentifier

/-- An array's own PAIR field alone says whether its name is the one before. -/
theorem evenOf_array (s : State) {p n : Nat} (hp : p < 8) (hn : n < 1024) :
    evenOf s (uidOf p 0 n) = if s.rd (R.PART_ARR_STAT.PAIR p n) = 2 then uidOf p 0 n - 1 else uidOf p 0 n := by
  simp [evenOf, hp, hn]

theorem uidOf_succ_sub_one (p k i : Nat) : uidOf p k (i + 1) - 1 = uidOf p k i := rfl

/-- Settles O21: each field read back from an identifier is the number it was built from, and an odd array of a pair, PAIR 2, takes the name
before its own. -/
theorem unitIdentifierLayout : Obligations.UnitIdentifierLayout := by
  unfold Obligations.UnitIdentifierLayout
  refine ⟨fun p k i hp hk hi => ?_, fun s p j hp hj hodd => ?_⟩
  · exact ⟨uidOf_lt hp hk hi, uidOf_div_two_pow_thirteen hk hi, uKind_uidOf hk hi, uIdx_uidOf hi,
      uPart_uidOf hp hk hi, uKind_uidOf hk hi, uIdx_uidOf hi⟩
  · have hn : 2 * j + 1 < 1024 := by omega
    rw [evenOf_array s hp hn, if_pos hodd, uidOf_succ_sub_one]

end Sys2Proof.Machine
end

section
/-!
PROOFS. What a Worisy request in order does (R398, R399, R402), the lease's end and its claims (R405 to R407).
-/

namespace Sys2Proof.Machine

section Worisy

variable {o : State} {w : WReq} {cmd : Nat}

/-- `M.pure_run` for the state alone: to reduce the pair that it leaves, the kernel would unfold the action run before. -/
theorem M.pure_snd {α : Type} (a : α) (x : Trace o) : ((pure a : M o α) x).2 = x := id rfl

/-- `Within.via` with the state that the run starts from in another form. -/
theorem Within.viaFrom {α : Type} {n : Nat} {m : M o α} (h : Within n m) {x : Trace o} {s : State} (hs : x.1 = s) : Via n s (m x).2.1 :=
  hs ▸ h.via x

/-! Requests that the module hears. -/

section Requests

variable (x : Trace o)

theorem request_run (m : M o Ans) (h : Heard x.1 w) : request w cmd m x = answer w cmd (m x).1 (m x).2 := by
  obtain ⟨-, hoff, hmfg, hnew⟩ := h
  simp [request, M.bind_run, st_run, hoff, hmfg, hnew]

theorem freeCmd_run (m : M o Ans) (h : FreeReq x.1 w cmd) : freeCmd w cmd m x = answer w cmd (m x).1 (m x).2 := by
  obtain ⟨hheard, hrsv, hlgen, hlen, hbusy⟩ := h
  rw [freeCmd, request_run x _ hheard]
  simp [M.bind_run, st_run, hrsv, hlgen, hlen, hbusy]

theorem actCmd_run (v : Nat) (m : M o Ans) (h : ByHolder x.1 w cmd) : actCmd w cmd v m x =
    answer w cmd (m x).1 (cmdRec (portKind w.port) cmd v (cmdResult (m x).1.1) (m x).2).2 := by
  obtain ⟨hheard, haccepted⟩ := h
  rw [actCmd, request_run x _ hheard]
  simp [M.bind_run, st_run, M.map_run, haccepted]

end Requests

/-! The response (R399). -/

/-- The state in which the response has gone out and is kept, before a request carried out is counted. -/
def responded (w : WReq) (cmd : Nat) (a : Ans) (s : State) : State :=
  apply (.wor (w.port == 1) fun p => { p with
      kept := ((w.seq, w.crc, a.1, a.2) :: p.kept).take 4
      open_ := if a.1 = WS.IN_PROGRESS then p.open_ ++ [(w.seq, cmd)] else p.open_ })
    (apply (.out (.worisy w.port w.seq cmd a.1 0 a.2)) s)

theorem responded_out (a : Ans) (s : State) : (responded w cmd a s).out = s.out ++ [.worisy w.port w.seq cmd a.1 0 a.2] := by
  unfold responded
  cases w.port == 1 <;> simp

theorem worPort_wor (s : State) (p : Nat) (f : WorPort → WorPort) : worPort (apply (.wor (p == 1) f) s) p = f (worPort s p) := by
  by_cases h : p = 1
  · simp [worPort, h]
  · have hb : (p == 1) = false := by simp [h]
    simp [worPort, h, hb]

theorem keptAnswer_responded (a : Ans) (s : State) : keptAnswer (responded w cmd a s) w = some a := by
  rw [keptAnswer, responded, worPort_wor]
  simp

theorem answer_via (a : Ans) (x : Trace o) : Via (foot [.kind .RST_WOR_STATp]) (responded w cmd a x.1) (answer w cmd a x).2.1 := by
  have hcount : Within (foot [.kind .RST_WOR_STATp]) (when_ (carried a.1) (incWrap (R.RST_WOR_STATp.REQUESTS w.port)) : M o _) :=
    within_when (incWrap_in .RST_WOR_STATp rfl rfl)
  simp only [answer, upWor, M.bind_run, send_run, eff_run]
  exact hcount.viaFrom rfl

theorem Via.keptAnswer {n : Nat} {s t : State} (h : Via n s t) (hn : n &&& 0x200200000 = 0) : keptAnswer t w = keptAnswer s w := by
  rw [Machine.keptAnswer, Machine.keptAnswer, worPort, worPort, h.worA hn, h.worB hn]

theorem answer_answered (a : Ans) (x : Trace o) : Answered x.1 (answer w cmd a x).2.1 w cmd a.1 a.2 := by
  have hvia := answer_via (w := w) (cmd := cmd) a x
  have hout := (hvia.out rfl).trans (responded_out a x.1)
  exact ⟨by simp [Sent, hout], (hvia.keptAnswer rfl).trans (keptAnswer_responded a x.1)⟩

/-- After the meaning come the command's record and the response. -/
theorem actCmd_via (v : Nat) (m : M o Ans) {s : State} {x : Trace o} (h : ByHolder x.1 w cmd) (hm : Via FP.actCmd s (m x).2.1) :
    Via FP.actCmd s (actCmd w cmd v m x).2.1 := by
  have hrecord (res : Nat) : Within FP.actCmd (cmdRec (portKind w.port) cmd v res : M o _) := (cmdRec_in ..).mono rfl
  have hanswer (a : Ans) : Within FP.actCmd (answer w cmd a : M o _) := (answer_in ..).mono rfl
  rw [actCmd_run _ _ _ h]
  exact (hm.trans ((hrecord _).via _)).trans ((hanswer _).via _)

/-! The lease's commands. -/

/-- The lease is claimed by a port, its change not yet recorded (R405). -/
def leaseTaken (port : Nat) (s : State) : State :=
  apply (.seen K.lease (s.clk.mono + 1)) (apply (.reg R.RST_LEASE.LGEN ((s.rd R.RST_LEASE.LGEN + 1) % 256))
    (apply (.reg R.RST_LEASE.LAST port) (apply (.reg R.RST_LEASE.GUARD 0) (apply (.reg R.RST_LEASE.HOLDER (port + 1)) s))))

/-- The lease has ended, its change not yet recorded (R407). -/
def leaseEnded (s : State) : State :=
  apply (.seen K.leaseEnd s.clk.mono) (apply (.reg R.RST_LEASE.GUARD 1) (apply (.reg R.RST_LEASE.HOLDER 0) s))

theorem leaseTaken_holder {port : Nat} (hport : port < 2) (s : State) : (leaseTaken port s).rd R.RST_LEASE.HOLDER = port + 1 := by
  have hfits : (port + 1) % 2 ^ 2 = port + 1 := Nat.mod_eq_of_lt (by omega)
  simp (disch := decide) only [leaseTaken, apply_seen, rd_reg_other, rd_reg_self, hfits]

section LeaseEnded

variable (s : State)

theorem leaseEnded_holder : (leaseEnded s).rd R.RST_LEASE.HOLDER = 0 := by
  simp (disch := decide) only [leaseEnded, apply_seen, rd_reg_other, rd_reg_self, Nat.zero_mod]

theorem leaseEnded_guard : (leaseEnded s).rd R.RST_LEASE.GUARD = 1 := by
  simp (disch := decide) only [leaseEnded, apply_seen, rd_reg_self, Nat.mod_eq_of_lt]

theorem leaseEnded_last : (leaseEnded s).rd R.RST_LEASE.LAST = s.rd R.RST_LEASE.LAST := by
  simp (disch := decide) only [leaseEnded, apply_seen, rd_reg_other]

theorem leaseEnded_mono : (leaseEnded s).clk.mono = s.clk.mono := by
  simp only [leaseEnded, apply_seen, apply_reg]

theorem leaseEnded_seen : tget 0 (leaseEnded s).clk.seen K.leaseEnd = s.clk.mono := by
  simp only [leaseEnded, apply_seen, tget_tset_self]

end LeaseEnded

/-- After the lease's end come its event and the notice LEASE_LOST. -/
theorem leaseEnds_via (x : Trace o) : Via FP.evRaw (leaseEnded x.1) (leaseEnds x).2.1 := by
  have hnotice : Within FP.evRaw (notice 0x8001 [] : M o _) := (notice_in ..).mono rfl
  simp only [leaseEnds, wrs, M.bind_run, M.pure_snd, wr_run, mark_run]
  refine (leaseEvent_in.viaFrom ?_).trans (hnotice.via _)
  simp only [leaseEnded, apply_reg]

theorem leaseClaim_guarded (x : Trace o) {port : Nat} (hfree : x.1.rd R.RST_LEASE.HOLDER = 0) (hguard : x.1.rd R.RST_LEASE.GUARD = 1)
    (hlast : x.1.rd R.RST_LEASE.LAST ≠ port) : leaseClaim port x = (plain WS.GUARD_TIME, x) := by
  simp [leaseClaim, M.bind_run, M.pure_run, st_run, hfree, hguard, hlast]

/-- After the claim comes its event. -/
theorem leaseClaim_via (x : Trace o) {port : Nat} (hfree : x.1.rd R.RST_LEASE.HOLDER = 0)
    (hguard : x.1.rd R.RST_LEASE.GUARD = 1 → x.1.rd R.RST_LEASE.LAST = port) :
    Via FP.evRaw (leaseTaken port x.1) (leaseClaim port x).2.1 := by
  have hopen : ¬ (x.1.rd R.RST_LEASE.GUARD = 1 ∧ x.1.rd R.RST_LEASE.LAST ≠ port) := fun ⟨hg, hl⟩ => hl (hguard hg)
  rw [leaseClaim, M.bind_run, st_run, if_neg (not_not.2 hfree), if_neg hopen]
  simp only [wrs, leaseTouch, M.bind_run, M.pure_snd, now_run, wr_run, eff_run]
  refine leaseEvent_in.viaFrom ?_
  simp only [leaseTaken, apply_reg]

/-! The commands on the module. -/

section Commands

variable {s : State}

theorem leaseRelease_does (h : ByHolder s w WC.LEASE_RELEASE) : Does (.leaseRelease w) s (Via FP.actCmd (leaseEnded s)) := by
  have ⟨⟨hport, _⟩, _⟩ := h
  refine does_intro (m := actCmd w WC.LEASE_RELEASE 0 (leaseEnds >>= fun _ => pure (plain WS.OK))) rfl (decide_eq_true hport) ?_
  refine actCmd_via 0 _ h ?_
  rw [M.bind_run, M.pure_snd]
  exact (leaseEnds_via ⟨s, Reach.refl⟩).mono rfl

theorem leaseClaim_does {E : State → Prop} (h : FreeReq s w WC.LEASE_CLAIM)
    (hE : E (answer w WC.LEASE_CLAIM (leaseClaim w.port ⟨s, Reach.refl⟩).1 (leaseClaim w.port ⟨s, Reach.refl⟩).2).2.1) :
    Does (.leaseClaim w) s E := by
  have ⟨⟨hport, _⟩, _⟩ := h
  refine does_intro (m := freeCmd w WC.LEASE_CLAIM (leaseClaim w.port)) rfl (decide_eq_true hport) ?_
  rwa [freeCmd_run _ _ h]

/-- The guard time keeps the other port off alone (R406, R407). -/
theorem leaseClaim_holder (h : FreeReq s w WC.LEASE_CLAIM) (hfree : s.rd R.RST_LEASE.HOLDER = 0)
    (hguard : s.rd R.RST_LEASE.GUARD = 1 → s.rd R.RST_LEASE.LAST = w.port) :
    Does (.leaseClaim w) s fun t => t.rd R.RST_LEASE.HOLDER = w.port + 1 := by
  have ⟨⟨hport, _⟩, _⟩ := h
  refine leaseClaim_does h ?_
  calc State.rd _ R.RST_LEASE.HOLDER
    _ = (leaseClaim w.port ⟨s, Reach.refl⟩).2.1.rd R.RST_LEASE.HOLDER := ((answer_in ..).via _).rd _ rfl rfl
    _ = (leaseTaken w.port s).rd R.RST_LEASE.HOLDER := (leaseClaim_via _ hfree hguard).rd _ rfl rfl
    _ = w.port + 1 := leaseTaken_holder hport s

theorem leaseClaim_guardTime (h : FreeReq s w WC.LEASE_CLAIM) (hfree : s.rd R.RST_LEASE.HOLDER = 0)
    (hguard : s.rd R.RST_LEASE.GUARD = 1) (hlast : s.rd R.RST_LEASE.LAST ≠ w.port) :
    Does (.leaseClaim w) s fun t => t.rd R.RST_LEASE.HOLDER = 0 ∧ Answered s t w WC.LEASE_CLAIM WS.GUARD_TIME [] := by
  refine leaseClaim_does h ?_
  rw [leaseClaim_guarded _ hfree hguard hlast]
  have hholder := ((answer_in w WC.LEASE_CLAIM (plain WS.GUARD_TIME)).via ⟨s, Reach.refl⟩).rd R.RST_LEASE.HOLDER rfl rfl
  exact ⟨hholder.trans hfree, answer_answered (plain WS.GUARD_TIME) ⟨s, Reach.refl⟩⟩

/-- R406, R407; log entry 3. -/
theorem leaseGuardEnd_does (hguard : s.rd R.RST_LEASE.GUARD = 1) : Does .leaseGuardEnd s fun t =>
    t.rd R.RST_LEASE.GUARD = 0 ∧ t.clk.mono = max s.clk.mono (tget 0 s.clk.seen K.leaseEnd + 100000000) := by
  refine ⟨_, rfl, ?_⟩
  simp (disch := decide) only [runFrom, M.bind_run, st_run, ite_run, hguard, advTo_run, wr_run, one_ne_zero, if_false, rd_reg_self,
    apply_reg, apply_pass]
  omega

end Commands

end Worisy

/-- Settles O26: the release leaves the lease free, its guard time running and its LAST port as it was, and a claim in the guard time turns on
LAST alone. -/
theorem leaseReleaseLetsTheReleasedPortClaimFirst : Obligations.LeaseReleaseLetsTheReleasedPortClaimFirst := by
  unfold Obligations.LeaseReleaseLetsTheReleasedPortClaimFirst
  refine ⟨fun s w w2 w3 hrelease hlast => ?_, fun s hguard => leaseGuardEnd_does hguard, fun s w hclaim hfree hguard => ?_⟩
  · obtain ⟨t, hnext, hvia⟩ := leaseRelease_does hrelease
    have hfree : t.rd R.RST_LEASE.HOLDER = 0 := (hvia.rd _ rfl rfl).trans (leaseEnded_holder s)
    have hguard : t.rd R.RST_LEASE.GUARD = 1 := (hvia.rd _ rfl rfl).trans (leaseEnded_guard s)
    have hlast' : t.rd R.RST_LEASE.LAST = w.port := (hvia.rd _ rfl rfl).trans ((leaseEnded_last s).trans hlast)
    have hmono : t.clk.mono = s.clk.mono := (hvia.clkMono rfl).trans (leaseEnded_mono s)
    have hseen : tget 0 t.clk.seen K.leaseEnd = s.clk.mono := by rw [hvia.seen rfl, leaseEnded_seen]
    refine ⟨t, hnext, hfree, hmono, hseen.trans hmono.symm, hguard, fun ⟨hclaim, hsame⟩ => ?_, fun ⟨hclaim, hother⟩ => ?_⟩
    · rw [← hsame]
      exact leaseClaim_holder hclaim hfree fun _ => hlast'.trans hsame.symm
    · exact leaseClaim_guardTime hclaim hfree hguard (hlast' ▸ hother.symm)
  · exact leaseClaim_holder hclaim hfree fun hrunning => by omega

end Sys2Proof.Machine
end

section
/-!
PROOFS. UPD_CTL and the staging window (R416): CHECK, PROGRAM and CANCEL follow the update's state.
-/

namespace Sys2Proof.Machine

section Update

variable {o : State} (x : Trace o)

/-! The update's state. -/

/-- The update's state is set, its change not yet noticed. -/
def updSet (v : Nat) (s : State) : State :=
  apply (.reg R.UPD_STAT.STATE v) (apply (.nor fun n => { n with updState := v }) s)

theorem updSet_state {v : Nat} (hv : v < 16) (s : State) : (updSet v s).rd R.UPD_STAT.STATE = v := by
  have hfits : v % 2 ^ 4 = v := Nat.mod_eq_of_lt hv
  simp (disch := decide) only [updSet, rd_reg_self, hfits]

theorem updSet_nor (v : Nat) (s : State) : (updSet v s).nv.nor = { s.nv.nor with updState := v } := by
  simp only [updSet, apply_reg, apply_nor]

theorem Via.updState {v : Nat} {s t : State} (h : Via FP.evRaw (updSet v s) t) (hv : v < 16) : t.rd R.UPD_STAT.STATE = v :=
  (h.rd _ rfl rfl).trans (updSet_state hv s)

variable {x} in
theorem setUpd_via {v : Nat} {s : State} (hs : x.1 = s) : Via FP.notice (updSet v s) (setUpd v x).2.1 := by
  subst hs
  have hnotice : Within FP.notice (when_ (decide (x.1.rd R.UPD_STAT.STATE ≠ v)) (notice 0x8004 []) : M o _) := within_when (notice_in ..)
  simp only [setUpd, M.bind_run, st_run, eff_run, wr_run]
  exact hnotice.viaFrom rfl

/-! Requests refused. -/

/-- A request has been refused with ERR STATE. -/
def updRefused (s : State) : State := apply (.reg R.UPD_STAT.ERR UE.STATE) s

theorem updRefused_state (s : State) : (updRefused s).rd R.UPD_STAT.STATE = s.rd R.UPD_STAT.STATE := by
  simp (disch := decide) only [updRefused, rd_reg_other]

theorem updRefused_err (s : State) : (updRefused s).rd R.UPD_STAT.ERR = UE.STATE := by
  simp (disch := decide) only [updRefused, rd_reg_self, Nat.mod_eq_of_lt]

theorem updRefused_nor (s : State) : (updRefused s).nv.nor = s.nv.nor := by
  simp only [updRefused, apply_reg]

theorem updRefuse_fin : (updRefuse x).2.1 = updRefused x.1 := by
  simp only [updRefuse, updRefused, M.bind_run, M.pure_snd, wr_run]

theorem updProgram_refused (h : x.1.rd R.UPD_STAT.STATE ≠ UP.CHECKED) : (updProgram x).2.1 = updRefused x.1 := by
  rw [updProgram, M.bind_run, st_run, if_pos h, updRefuse_fin]

theorem updCheck_refused (h : x.1.rd R.UPD_STAT.STATE = UP.PROGRAMMING ∨ x.1.rd R.UPD_STAT.STATE = UP.ACTIVATING ∨
    x.1.rd R.UPD_STAT.STATE = UP.UNCONFIRMED ∨ x.1.rd R.UPD_STAT.STATE = UP.REVERTING) : (updCheck x).2.1 = updRefused x.1 := by
  rw [updCheck, M.bind_run, st_run, if_pos h, updRefuse_fin]

/-! Requests accepted. -/

/-- Slot R of the image's kind is being written (R414). -/
def norProgramming (x : FwImg) (n : Nor) : Nor :=
  if x.kind = 2 then { n with coreR := x, coreWord := .writing, updKind := 2 } else { n with slotR := x, slotWord := .writing, updKind := 1 }

theorem norProgramming_writing (x : FwImg) (n : Nor) :
    if x.kind = 2 then (norProgramming x n).coreWord = .writing else (norProgramming x n).slotWord = .writing := by
  by_cases hcore : x.kind = 2
  · simp [norProgramming, hcore]
  · simp [norProgramming, hcore]

theorem updProgram_via (h : x.1.rd R.UPD_STAT.STATE = UP.CHECKED) : Via FP.notice
    (updSet UP.PROGRAMMING (apply (.nor (norProgramming { imageOf x.1.upd.staging with ok := false })) x.1)) (updProgram x).2.1 := by
  rw [updProgram, M.bind_run, st_run, if_neg (not_not.2 h)]
  simp only [M.bind_run, M.pure_snd, eff_run]
  exact setUpd_via rfl

theorem updCancel_via (h : x.1.rd R.UPD_STAT.STATE = UP.CHECKED ∨ x.1.rd R.UPD_STAT.STATE = UP.REJECTED) :
    Via FP.notice (updSet UP.IDLE x.1) (updCancel x).2.1 := by
  simp only [updCancel, M.bind_run, rd_run, h, decide_true, when_run, if_true]
  exact setUpd_via rfl

/-! Writes of UPD_CTL, each of whose fields reads 0. -/

theorem updCtl_word (s : State) (lo : Nat) : fset ((regWord s .UPD_CTL []).toNat &&& rwMask .UPD_CTL) lo 1 1 = 2 ^ lo := by
  have hmask : rwMask .UPD_CTL = 0 := by decide
  simp [hmask, fset]

theorem putUpdCtl_check : (putUpdCtl (2 ^ 31) x).2 = (updCheck x).2 := by
  simp [putUpdCtl, fget, M.bind_run, M.map_run, when_run]

theorem putUpdCtl_program : (putUpdCtl (2 ^ 30) x).2 = (updProgram x).2 := by
  simp [putUpdCtl, fget, M.bind_run, M.map_run, when_run]

theorem putUpdCtl_cancel : (putUpdCtl (2 ^ 29) x).2 = (updCancel x).2 := by
  simp [putUpdCtl, fget, M.map_run, when_run]

end Update

section UpdateCommands

variable {s : State} {src : Src}

theorem Passes.src_wf {off : Nat} (h : Passes s src off) : src.wf = true := decide_eq_true h.1

/-- The write of one bit of UPD_CTL runs that bit's request `m`; after it comes the write's record (R404). -/
theorem updCtl_does {i : Instr} {lo : Nat} {α : Type} {m : M s α} (he : exec i s = act i.wf s (barField src ⟨.UPD_CTL, [], lo, 1⟩ 1 putUpdCtl))
    (hwf : i.wf = true) (hm : (putUpdCtl (2 ^ lo) ⟨s, Reach.refl⟩).2 = (m ⟨s, Reach.refl⟩).2) (h : Passes s src (regOff .UPD_CTL [])) :
    Does i s (Via FP.evRaw (m ⟨s, Reach.refl⟩).2.1) := by
  have hwritable : writable .UPD_CTL = true := by decide
  refine barField_does he hwf h hwritable fun r v hv => ?_
  rw [hv.trans (updCtl_word s lo), hm]
  exact (wordRec_in ..).via _

theorem updateCheck_does (h : Passes s src (regOff .UPD_CTL [])) :
    Does (.updateCheck src) s (Via FP.evRaw (updCheck ⟨s, Reach.refl⟩).2.1) :=
  updCtl_does rfl (Passes.src_wf h) (putUpdCtl_check _) h

theorem updateProgram_does (h : Passes s src (regOff .UPD_CTL [])) :
    Does (.updateProgram src) s (Via FP.evRaw (updProgram ⟨s, Reach.refl⟩).2.1) :=
  updCtl_does rfl (Passes.src_wf h) (putUpdCtl_program _) h

theorem updateCancel_does (h : Passes s src (regOff .UPD_CTL [])) :
    Does (.updateCancel src) s (Via FP.evRaw (updCancel ⟨s, Reach.refl⟩).2.1) :=
  updCtl_does rfl (Passes.src_wf h) (putUpdCtl_cancel _) h

/-! Writes of the staging window. -/

theorem recorded_run {o : State} {off v : Nat} {put : M o Nat} {x : Trace o} (h : Passes x.1 src off) :
    recorded src off v put x = wordRec src off v (put x).1 (put x).2 := by
  obtain ⟨-, hon, hmfg, hide, hcmd, -⟩ := h
  have hreaches : ¬ (x.1.ctl.mode = .off ∨ (x.1.ctl.mode = .mfgTest ∧ src ≠ .bar0)) := by
    rintro (hoff | ⟨htest, hnot⟩)
    · exact hon hoff
    · exact hmfg.elim hnot fun hother => hother htest
  have hpasses : ¬ (src = .bar0 ∧ ideBlocks x.1 = true) := fun ⟨hbar, hblocks⟩ => by simp [hide hbar] at hblocks
  have hallowed : ((decide (src = .worA) || decide (src = .worB)) && commandOnly off) = false := by
    by_cases hwor : src = .worA ∨ src = .worB
    · rw [hcmd hwor, Bool.and_false]
    · simp [not_or.1 hwor]
  rw [recorded, barAccess, M.bind_run, st_run, if_neg hreaches, if_neg hpasses, hallowed]
  rfl

/-- The staging window's word at `off` holds `v`. -/
def staged (off : Nat) (v : BitVec 32) (s : State) : State :=
  apply (.upd fun u => { u with staging := tset 0 u.staging ((off - 0x3100000) / 4) v }) s

theorem staged_state (off : Nat) (v : BitVec 32) (s : State) : (staged off v s).rd R.UPD_STAT.STATE = s.rd R.UPD_STAT.STATE := by
  simp only [staged, apply_upd]

theorem staged_upd (off : Nat) (v : BitVec 32) (s : State) :
    (staged off v s).upd = { s.upd with staging := tset 0 s.upd.staging ((off - 0x3100000) / 4) v } := by
  simp only [staged, apply_upd]

section Staging

variable {o : State} (x : Trace o) (off : Nat) (v : BitVec 32)

theorem stagingPut_run : stagingPut off v x =
    when_ (decide ((staged off v x.1).rd R.UPD_STAT.STATE = UP.CHECKED)) (setUpd UP.IDLE) ⟨staged off v x.1, Reach.step x.2 _⟩ := id rfl

theorem stagingPut_via : Via FP.setUpd (staged off v x.1) (stagingPut off v x).2.1 := by
  rw [stagingPut_run]
  exact (within_when (setUpd_in ..)).viaFrom rfl

theorem stagingPut_checked (h : x.1.rd R.UPD_STAT.STATE = UP.CHECKED) :
    Via FP.notice (updSet UP.IDLE (staged off v x.1)) (stagingPut off v x).2.1 := by
  rw [stagingPut_run, staged_state, when_run, if_pos (decide_eq_true h)]
  exact setUpd_via rfl

end Staging

theorem stagingWrite_does {off : Nat} (v : BitVec 32) (h : Passes s src off) (halign : off % 4 = 0) (hlo : 0x3100000 ≤ off)
    (hhi : off < 0x4000000) : Does (.stagingWrite src off v) s (Via FP.evRaw (stagingPut off v ⟨s, Reach.refl⟩).2.1) := by
  have hwindow : inStaging off = true := by simp [inStaging, hlo, hhi]
  refine does_intro rfl (Passes.src_wf h) ?_
  rw [if_pos ⟨halign, hwindow⟩, recorded_run h, putStaging, M.bind_run, M.pure_snd, BitVec.ofNat_toNat, BitVec.setWidth_eq]
  exact (wordRec_in ..).via _

end UpdateCommands

/-- Settles O27: the field written says which request is made, the state read first whether it is refused. -/
theorem updateCommandsFollowState : Obligations.UpdateCommandsFollowState := by
  unfold Obligations.UpdateCommandsFollowState
  refine ⟨fun s src hpass hstate => ?program_refused, fun s src hpass hstate => ?program, fun s src hpass hstate => ?check_refused,
    fun s src hpass hstate => ?cancel, fun s src off v hpass halign hlo hhi => ?staging⟩
  case program_refused =>
    obtain ⟨t, hnext, hvia⟩ := updateProgram_does hpass
    rw [updProgram_refused _ hstate] at hvia
    exact ⟨t, hnext, (hvia.rd _ rfl rfl).trans (updRefused_state s), (hvia.nor rfl).trans (updRefused_nor s),
      (hvia.rd _ rfl rfl).trans (updRefused_err s)⟩
  case program =>
    obtain ⟨t, hnext, hvia⟩ := updateProgram_does hpass
    have hset := ((updProgram_via ⟨s, Reach.refl⟩ hstate).mono rfl).trans hvia
    refine ⟨t, hnext, hset.updState (by decide), ?_⟩
    rw [hset.nor rfl, updSet_nor]
    exact norProgramming_writing { imageOf s.upd.staging with ok := false } s.nv.nor
  case check_refused =>
    obtain ⟨t, hnext, hvia⟩ := updateCheck_does hpass
    rw [updCheck_refused _ hstate] at hvia
    exact ⟨t, hnext, (hvia.rd _ rfl rfl).trans (updRefused_state s), (hvia.rd _ rfl rfl).trans (updRefused_err s)⟩
  case cancel =>
    obtain ⟨t, hnext, hvia⟩ := updateCancel_does hpass
    have hset := ((updCancel_via ⟨s, Reach.refl⟩ hstate).mono rfl).trans hvia
    exact ⟨t, hnext, hset.updState (by decide), by rw [hset.nor rfl, updSet_nor]⟩
  case staging =>
    obtain ⟨t, hnext, hvia⟩ := stagingWrite_does v hpass halign hlo hhi
    refine ⟨t, hnext, ?_, fun hchecked => ?_⟩
    · rw [hvia.upd rfl, (stagingPut_via _ off v).upd rfl, staged_upd]
    · have hset := ((stagingPut_checked ⟨s, Reach.refl⟩ off v hchecked).mono rfl).trans hvia
      exact hset.updState (by decide)

end Sys2Proof.Machine
end

section
/-!
PROOFS. What every primitive effect keeps, every step keeps: canonical memory (R151), RSV bits (R9), the fused ceilings (R3, R267, R412), the
wear budget (R157), fuses that only burn (R415, R435 to R437), the queue and the outbox.
-/

namespace Sys2Proof.Machine

/-! The register file after one write. -/

/-- A key that was set reads its value, or the reader's default where the entry was dropped. -/
theorem tget_tset_at {α : Type} [DecidableEq α] (d d' : α) (t : Tbl α) (k : Nat) (v : α) :
    tget d' (tset d t k v) k = v ∨ tget d' (tset d t k v) k = d' := by
  unfold tset
  split
  · exact .inr (tget_filter_drop _ (fun x => decide (x ≠ k)) _ _ (by simp))
  · exact .inl (tget_tput_self _ _ _ _)

/-- What a register reads after a write of a field at its key: the word written, or its own reset word where the entry was dropped. -/
theorem regWord_reg_at (s : State) (f : Fld) (v : Nat) {k : RegKind} {ix : List Nat} (h : regKey k ix = regKey f.k f.ix) :
    regWord (apply (.reg f v) s) k ix = BitVec.ofNat 32 (regNew s.nv.fuses.variant (regWord s f.k f.ix).toNat f v) ∨
      regWord (apply (.reg f v) s) k ix = BitVec.ofNat 32 (resetWord k ix) := by
  rw [regWord, h]
  exact tget_tset_at _ _ _ _ _

/-- What a register reads after a reset of the registers that a test names. -/
theorem regWord_regsReset (s : State) (d : RegKind → List Nat → Bool) (k : RegKind) (ix : List Nat) :
    regWord (apply (.regsReset d) s) k ix = BitVec.ofNat 32 (resetWord k ix) ∨ regWord (apply (.regsReset d) s) k ix = regWord s k ix := by
  cases h : d k (keyIx (regKey k ix)) with
  | true => exact .inl (regWord_regsReset_in s d k ix h)
  | false => exact .inr (regWord_regsReset_out s d k ix h)

/-- An effect that is no register write and no reset leaves the register file. -/
theorem regWord_apply (e : Eff) (s : State) (k : RegKind) (ix : List Nat) : regWord (apply e s) k ix = regWord s k ix ∨
    regWord (apply e s) k ix = BitVec.ofNat 32 (resetWord k ix) ∨
    ∃ f v, e = .reg f v ∧ f.k = k ∧ regKey k ix = regKey f.k f.ix ∧
      regWord (apply e s) k ix = BitVec.ofNat 32 (regNew s.nv.fuses.variant (regWord s f.k f.ix).toNat f v) := by
  cases e with
  | reg f v =>
    by_cases h : regKey k ix = regKey f.k f.ix
    · have hk : f.k = k := by rw [← keyKind_regKey f.k f.ix, ← h, keyKind_regKey]
      rcases regWord_reg_at s f v h with hnew | hreset
      · exact .inr (.inr ⟨f, v, rfl, hk, h, hnew⟩)
      · exact .inr (.inl hreset)
    · exact .inl (regWord_reg_key s f v k ix h)
  | regsReset d => exact (regWord_regsReset s d k ix).elim (fun h => .inr (.inl h)) .inl
  | por => exact .inr (.inl rfl)
  | wor b f => cases b <;> exact .inl rfl
  | ownerBlow n d =>
    simp only [apply]
    split <;> exact .inl rfl
  | _ => exact .inl rfl

/-! RSV bits. -/

/-- A reset word has its RSV bits 0 (R9, R10). -/
theorem resetWord_masked (k : RegKind) (ix : List Nat) :
    (BitVec.ofNat 32 (resetWord k ix)).toNat &&& regMask k = (BitVec.ofNat 32 (resetWord k ix)).toNat := by
  have hwin : ∀ n < 4, (BitVec.ofNat 32 (4 * n)).toNat &&& regMask .MEM_BAR4_WINw = (BitVec.ofNat 32 (4 * n)).toNat := by decide
  cases k
  case MEM_BAR4_WINw => exact hwin _ (Nat.mod_lt _ (by decide))
  case HIF_MSIX =>
    simp only [resetWord]
    split <;> decide
  all_goals
    show (BitVec.ofNat 32 (resetFlds (regRow _).flds)).toNat &&& _ = (BitVec.ofNat 32 (resetFlds (regRow _).flds)).toNat
    decide

theorem regNew_masked (n old : Nat) (f : Fld) (v : Nat) :
    (BitVec.ofNat 32 (regNew n old f v)).toNat &&& regMask f.k = (BitVec.ofNat 32 (regNew n old f v)).toNat := by
  rw [toNat_regNew, regNew, Nat.land_assoc, Nat.and_self]

theorem apply_regsWf (e : Eff) (s : State) (h : Regs.wf s) : Regs.wf (apply e s) := by
  intro k ix
  rcases regWord_apply e s k ix with hsame | hreset | ⟨f, v, -, rfl, -, hnew⟩
  · rw [hsame]; exact h k ix
  · rw [hreset]; exact resetWord_masked k ix
  · rw [hnew]; exact regNew_masked ..

/-! Fused ceilings. -/

/-- The fused variant is never blown. -/
theorem apply_variant (e : Eff) (s : State) : (apply e s).nv.fuses.variant = s.nv.fuses.variant := by
  cases e with
  | wor b f => cases b <;> rfl
  | ownerBlow n d =>
    simp only [apply]
    split <;> rfl
  | _ => rfl

/-- A field in a register without indices meets a bound that its reset value and every word written there meet. -/
theorem rd_apply_bound {P : Nat → Prop} (e : Eff) (s : State) (g : Fld) (hg : P (s.rd g))
    (hreset : P (fget (BitVec.ofNat 32 (resetWord g.k g.ix)).toNat g.lo g.w))
    (hnew : ∀ x, P (fget (clampWord s.nv.fuses.variant g.k x &&& regMask g.k) g.lo g.w)) : P ((apply e s).rd g) := by
  unfold State.rd
  rcases regWord_apply e s g.k g.ix with h | h | ⟨f, v, -, hk, -, h⟩
  · rw [h]; exact hg
  · rw [h]; exact hreset
  · rw [h, toNat_regNew, regNew, hk]; exact hnew _

theorem fget_clamp_mgmt (n x : Nat) : fget (clampWord n .PWR_CLIP_IN x &&& regMask .PWR_CLIP_IN) 0 16 ≤ Config.contCeiling n := by
  rw [fget_and (by decide), clampWord, fget_fset_self]
  exact (Nat.mod_le _ _).trans (Nat.min_le_right _ _)

theorem fget_clamp_rack (n x : Nat) : fget (clampWord n .PWR_CLIP_IN x &&& regMask .PWR_CLIP_IN) 16 16 ≤ Config.contCeiling n := by
  rw [fget_and (by decide), clampWord, fget_fset_other _ _ _ _ _ _ (by decide), fget_fset_self]
  exact (Nat.mod_le _ _).trans (Nat.min_le_right _ _)

theorem fget_clamp_eff (n x : Nat) : fget (clampWord n .PWR_CLIP x &&& regMask .PWR_CLIP) 0 16 ≤ Config.contCeiling n := by
  rw [fget_and (by decide), clampWord, fget_fset_self]
  exact (Nat.mod_le _ _).trans (Nat.min_le_right _ _)

/-- A three-bit field raised to the highest point still fits. -/
theorem topPoint_le_clamped (n x lo : Nat) : Config.topPoint n ≤ max (fget x lo 3) (Config.topPoint n) % 2 ^ 3 := by
  have hx := fget_lt x lo 3
  have htop := topPoint_lt n
  rw [Nat.mod_eq_of_lt (by omega)]
  exact le_max_right _ _

theorem fget_clamp_now (n x : Nat) : Config.topPoint n ≤ fget (clampWord n .PWR_STAT x &&& regMask .PWR_STAT) 16 3 := by
  rw [fget_and (by decide), clampWord, fget_fset_other _ _ _ _ _ _ (by decide), fget_fset_self]
  exact topPoint_le_clamped ..

theorem fget_clamp_target (n x : Nat) : Config.topPoint n ≤ fget (clampWord n .PWR_STAT x &&& regMask .PWR_STAT) 13 3 := by
  rw [fget_and (by decide), clampWord, fget_fset_self]
  exact topPoint_le_clamped ..

theorem apply_ceilings (e : Eff) (s : State) (h : Ceilings.wf s) : Ceilings.wf (apply e s) := by
  obtain ⟨hmgmt, hrack, heff, hnow, htarget⟩ := h
  have htop := (topPoint_lt s.nv.fuses.variant).le
  unfold Ceilings.wf
  rw [apply_variant]
  exact ⟨rd_apply_bound (P := (· ≤ _)) e s R.PWR_CLIP_IN.MGMT_W hmgmt (Nat.zero_le _) (fget_clamp_mgmt _),
    rd_apply_bound (P := (· ≤ _)) e s R.PWR_CLIP_IN.RACK_W hrack (Nat.zero_le _) (fget_clamp_rack _),
    rd_apply_bound (P := (· ≤ _)) e s R.PWR_CLIP.EFF_W heff (Nat.zero_le _) (fget_clamp_eff _),
    rd_apply_bound (P := (_ ≤ ·)) e s R.PWR_STAT.OP_NOW hnow (Nat.le_of_lt_succ (topPoint_lt _)) (fget_clamp_now _),
    rd_apply_bound (P := (_ ≤ ·)) e s R.PWR_STAT.OP_TARGET htarget (Nat.le_of_lt_succ (topPoint_lt _)) (fget_clamp_target _)⟩

/-! The wear budget. -/

theorem apply_wear (e : Eff) (s : State) (h : s.vlt.wear ≤ 305000000) : (apply e s).vlt.wear ≤ 305000000 := by
  cases e with
  | vlt f => exact Nat.min_le_right _ _
  | por => exact Nat.le_refl _
  | wor b f => cases b <;> exact h
  | ownerBlow n d =>
    simp only [apply]
    split <;> exact h
  | _ => exact h

/-! Fuses. -/

/-- Fuses only burn: a valid owner slot keeps its digest, a revocation stays, and the security version does not fall (R415, R435, R437). -/
def Burns (a b : Fuses) : Prop :=
  (∀ k, (tget OwnerSlot.empty a.owner k).valid = true → (tget OwnerSlot.empty b.owner k).valid = true ∧
      (tget OwnerSlot.empty b.owner k).digest = (tget OwnerSlot.empty a.owner k).digest ∧
      ((tget OwnerSlot.empty a.owner k).revoked = true → (tget OwnerSlot.empty b.owner k).revoked = true)) ∧
    a.svn ≤ b.svn ∧ (a.svn ≤ 64 → b.svn ≤ 64)

theorem Burns.refl (a : Fuses) : Burns a a := ⟨fun _ h => ⟨h, rfl, id⟩, Nat.le_refl _, id⟩

theorem Burns.trans {a b c : Fuses} (h : Burns a b) (h' : Burns b c) : Burns a c := by
  obtain ⟨hkeys, hsvn, hmax⟩ := h
  obtain ⟨hkeys', hsvn', hmax'⟩ := h'
  refine ⟨fun k hk => ?_, hsvn.trans hsvn', hmax' ∘ hmax⟩
  obtain ⟨hv, hd, hr⟩ := hkeys k hk
  obtain ⟨hv', hd', hr'⟩ := hkeys' k hv
  exact ⟨hv', hd'.trans hd, hr' ∘ hr⟩

theorem Burns.ownerBlow (a : Fuses) (n : Nat) (x : OwnerSlot) (h : (tget OwnerSlot.empty a.owner n).valid = false) :
    Burns a { a with owner := tset OwnerSlot.empty a.owner n x } := by
  refine ⟨fun k hk => ?_, Nat.le_refl _, id⟩
  have hne : k ≠ n := fun e => by rw [e, h] at hk; cases hk
  dsimp only
  rw [tget_tset_ne _ _ _ _ _ hne]
  exact ⟨hk, rfl, id⟩

theorem Burns.ownerRevoke (a : Fuses) (n : Nat) :
    Burns a { a with owner := tset OwnerSlot.empty a.owner n { tget OwnerSlot.empty a.owner n with revoked := true } } := by
  refine ⟨fun k hk => ?_, Nat.le_refl _, id⟩
  by_cases hkn : k = n
  · subst hkn
    simp [hk]
  · dsimp only
    rw [tget_tset_ne _ _ _ _ _ hkn]
    exact ⟨hk, rfl, id⟩

theorem Burns.svnBlow (a : Fuses) (n : Nat) : Burns a { a with svn := max a.svn (min n 64) } :=
  ⟨fun _ hk => ⟨hk, rfl, id⟩, le_max_left _ _, fun h => max_le h (Nat.min_le_right _ _)⟩

theorem apply_burns (e : Eff) (s : State) : Burns s.nv.fuses (apply e s).nv.fuses := by
  cases e with
  | wor b f => cases b <;> exact .refl _
  | ownerBlow n d =>
    cases h : (tget OwnerSlot.empty s.nv.fuses.owner n).valid with
    | true => rw [apply_ownerBlow_blown s n d h]; exact .refl _
    | false => rw [apply_ownerBlow_empty s n d h]; exact .ownerBlow _ _ _ h
  | ownerRevoke n => exact .ownerRevoke _ n
  | svnBlow n => exact .svnBlow _ n
  | _ => exact .refl _

/-! The queue, the outbox and the clock. -/

theorem apply_queue_outbox (e : Eff) (s : State) :
    (apply e s).pending = s.pending ∧ s.out <+: (apply e s).out ∧ s.clk.mono ≤ (apply e s).clk.mono := by
  cases e with
  | out x => exact ⟨rfl, List.prefix_append _ _, Nat.le_refl _⟩
  | pass n => exact ⟨rfl, List.prefix_refl _, Nat.le_add_right _ _⟩
  | wor b f => cases b <;> exact ⟨rfl, List.prefix_refl _, Nat.le_refl _⟩
  | ownerBlow n d =>
    simp only [apply]
    split <;> exact ⟨rfl, List.prefix_refl _, Nat.le_refl _⟩
  | _ => exact ⟨rfl, List.prefix_refl _, Nat.le_refl _⟩

/-- Settles O6: writing, zeroing and losing memory keep its canonical form, and no other effect touches it. -/
theorem stepKeepsMemoryCanonical : Obligations.StepKeepsMemoryCanonical :=
  fun _ _ hs h => step_keeps (P := fun u => Memory.wf u = true) (fun _ _ h => h) apply_memory h hs

/-- Settles O7: a register holds a word that a write masked, or its reset word. -/
theorem stepKeepsReservedBitsZero : Obligations.StepKeepsReservedBitsZero :=
  fun _ _ hs h => step_keeps (P := Regs.wf) (fun _ _ h => h) apply_regsWf h hs

/-- Settles O8: every word written is clamped to the fused ceilings. -/
theorem stepKeepsFusedCeilings : Obligations.StepKeepsFusedCeilings :=
  fun _ _ hs h => step_keeps (P := Ceilings.wf) (fun _ _ h => h) apply_ceilings h hs

/-- Settles O9: every change of the vault caps its wear budget. -/
theorem stepKeepsWearBudget : Obligations.StepKeepsWearBudget :=
  fun _ _ hs h => step_keeps (P := fun u => u.vlt.wear ≤ 305000000) (fun _ _ h => h) apply_wear h hs

/-- Settles O10: three effects alone change fuses, each by burning. -/
theorem stepKeepsFusedKeysAndVersion : Obligations.StepKeepsFusedKeysAndVersion :=
  fun s _ h => step_keeps (P := fun u => Burns s.nv.fuses u.nv.fuses) (fun _ _ h => h) (fun e u hu => hu.trans (apply_burns e u)) h (.refl _)

/-- Settles O5: no effect reaches the queue, shortens the outbox or turns the clock back. -/
theorem commandsKeepQueueAndOutbox : Obligations.CommandsKeepQueueAndOutbox := by
  intro i s t h
  refine (exec_reach h).rel (R := fun a b => b.pending = a.pending ∧ a.out <+: b.out ∧ a.clk.mono ≤ b.clk.mono)
    (fun u => ⟨rfl, List.prefix_refl _, Nat.le_refl _⟩) ?_ (fun e u => apply_queue_outbox e u)
  intro a b c ⟨hqueue, hout, hclock⟩ ⟨hqueue', hout', hclock'⟩
  exact ⟨hqueue'.trans hqueue, hout.trans hout', hclock.trans hclock'⟩

end Sys2Proof.Machine
end

section
/-!
PROOFS. A step and its front command, the values at reset, refusal of ill-formed commands, and the integer element formats (R18).
-/

namespace Sys2Proof.Machine

/-! Commands and steps. -/

/-- Every meaning is an action behind the check of its command's operands. -/
theorem exec_act (i : Instr) (s : State) : ∃ m : M s Unit, exec i s = act i.wf s m := by
  cases i <;> exact ⟨_, rfl⟩

/-- Settles O1: a step takes the front command off the queue; an idle step passes 1 us before anything else. -/
theorem stepRunsFrontCommand : Obligations.StepRunsFrontCommand := by
  refine ⟨fun c s => rfl, fun s hempty => ⟨idleStep s, step_nil s hempty, ?_⟩⟩
  have hflush : Via FP.evRaw (apply (.pass 1000) s) (idleStep s) := (flushOld_in (o := s)).via ⟨_, .step .refl (.pass 1000)⟩
  exact ⟨hflush.clkMono rfl, (hflush.pending rfl).trans hempty⟩

/-- Settles O4: the operands' check alone decides whether a command completes. -/
theorem wellFormedCommandsComplete : Obligations.WellFormedCommandsComplete := by
  refine ⟨fun i s hwf => ?_, fun i s hwf => ?_⟩
  all_goals
    obtain ⟨m, hm⟩ := exec_act i s
    rw [hm, hwf]
  · exact ⟨_, act_true s m⟩
  · exact act_false s m

/-! Reset. -/

/-- Settles O2: every register reads its reset word. -/
theorem resetValues : Obligations.ResetValues := by
  have hbramble : ∀ p < 8, State.reset.rd (R.PART_BRM_CTL.T p) = 100 := by decide
  exact ⟨rfl, rfl, rfl, rfl, rfl, hbramble, rfl, rfl, rfl, rfl, rfl, rfl, rfl⟩

/-- Settles O13. -/
theorem invariantsHoldAtReset : Obligations.InvariantsHoldAtReset := by
  have hceilings : Ceilings.wf State.reset := by unfold Ceilings.wf; decide
  exact ⟨rfl, resetWord_masked, hceilings, Nat.le_refl _, Nat.zero_le _, rfl⟩

/-! Integer elements. -/

/-- The two's complement value of a `w`-bit code, as sign and magnitude. -/
theorem sx_signed {w x : Nat} (hx : x < 2 ^ w) : sx w x < 0 ↔ 2 ^ (w - 1) ≤ x := by
  unfold sx
  rw [Nat.mod_eq_of_lt hx]
  split <;> omega

theorem sx_natAbs {w x : Nat} (hx : x < 2 ^ w) : (sx w x).natAbs = if x < 2 ^ (w - 1) then x else 2 ^ w - x := by
  unfold sx
  rw [Nat.mod_eq_of_lt hx]
  split <;> omega

theorem decodeElem_int {f x : Nat} (hf : isInt f = true) (hx : x < 2 ^ elemBits f) : decodeElem f x =
    .fin (decide (2 ^ (elemBits f - 1) ≤ x)) (if x < 2 ^ (elemBits f - 1) then x else 2 ^ elemBits f - x) := by
  rw [decodeElem, if_pos hf]
  simp only [sx_signed hx, sx_natAbs hx]

/-- Settles O23: the format alone decides whether an element is an integer, and its sign bit how it reads. -/
theorem integerElements : Obligations.IntegerElements := by
  refine ⟨fun x hx => decodeElem_int (f := F.INT8) rfl hx, fun x hx => decodeElem_int (f := F.INT4) rfl hx,
    rfl, rfl, rfl, rfl, fun f => ?_⟩
  simp [isInt]

end Sys2Proof.Machine
end

section
/-!
PROOFS. The BAR0 register map (R441): a register's offset gives back its indices, and no two registers share an offset.
-/

namespace Sys2Proof.Machine

/-! One register array. -/

/-- Offsets of an array's registers stay below its span. -/
def dimSpan : List (Nat × Nat) → Nat
  | [] => 1
  | (st, n) :: ds => st * (n - 1) + dimSpan ds

/-- The registers of the inner dimensions fit between two indices of each dimension. -/
def nested : List (Nat × Nat) → Bool
  | [] => true
  | (st, _) :: ds => decide (dimSpan ds ≤ st) && nested ds

theorem dimOff_lt {ds : List (Nat × Nat)} {ix : List Nat} (h : dimOk ds ix = true) : dimOff ds ix < dimSpan ds := by
  induction ds, ix using dimOk.induct with
  | case1 => exact Nat.one_pos
  | case2 st n ds i is ih =>
    simp only [dimOk, Bool.and_eq_true, decide_eq_true_eq] at h
    have hinner := ih h.2
    have houter : st * i ≤ st * (n - 1) := Nat.mul_le_mul_left _ (by omega)
    simp only [dimOff, dimSpan]
    omega
  | case3 ds ix h1 h2 => simp [dimOk] at h

/-- The search of an array by offset finds the indices. -/
theorem dimAt_dimOff {ds : List (Nat × Nat)} {ix : List Nat} (hn : nested ds = true) (h : dimOk ds ix = true) :
    dimAt ds (dimOff ds ix) = some ix := by
  induction ds, ix using dimOk.induct with
  | case1 => rfl
  | case2 st n ds i is ih =>
    simp only [dimOk, nested, Bool.and_eq_true, decide_eq_true_eq] at h hn
    have hlt : dimOff ds is < st := (dimOff_lt h.2).trans_le hn.1
    have hdiv : (st * i + dimOff ds is) / st = i := by
      rw [Nat.mul_add_div (by omega), Nat.div_eq_of_lt hlt, Nat.add_zero]
    have hmod : (st * i + dimOff ds is) % st = dimOff ds is := by
      rw [Nat.mul_add_mod, Nat.mod_eq_of_lt hlt]
    simp only [dimAt, dimOff, hdiv, hmod, h.1, if_true, ih hn.2 h.2, Option.map_some]
  | case3 ds ix h1 h2 => simp [dimOk] at h

/-- What the search of an array answers stands at the offset. -/
theorem dimAt_sound {ds : List (Nat × Nat)} {o : Nat} {ix : List Nat} (h : dimAt ds o = some ix) : dimOk ds ix = true ∧ dimOff ds ix = o := by
  induction ds generalizing o ix with
  | nil =>
    cases o with
    | zero => cases h; exact ⟨rfl, rfl⟩
    | succ o => cases h
  | cons d ds ih =>
    obtain ⟨st, n⟩ := d
    simp only [dimAt] at h
    split at h
    · rename_i hi
      obtain ⟨is, his, rfl⟩ := Option.map_eq_some_iff.1 h
      obtain ⟨hok, hoff⟩ := ih his
      refine ⟨by simp [dimOk, hi, hok], ?_⟩
      rw [dimOff, hoff, Nat.div_add_mod]
    · cases h

/-! Two register arrays. -/

/-- Two arrays share no offset: one ends before the other begins, or they interleave with one stride, within which their inner dimensions share
none. -/
def apart : Nat → List (Nat × Nat) → Nat → List (Nat × Nat) → Bool
  | a, (st, n) :: ds, b, (st', m) :: es =>
    decide (a + dimSpan ((st, n) :: ds) ≤ b) || decide (b + dimSpan ((st', m) :: es) ≤ a) ||
      (decide (st = st') && decide (a % st + dimSpan ds ≤ st) && decide (b % st + dimSpan es ≤ st) && apart (a % st) ds (b % st) es)
  | a, ds, b, es => decide (a + dimSpan ds ≤ b) || decide (b + dimSpan es ≤ a)

theorem apart_of_ranges {a b : Nat} {ds es : List (Nat × Nat)} {ix jx : List Nat} (h : a + dimSpan ds ≤ b ∨ b + dimSpan es ≤ a)
    (hix : dimOk ds ix = true) (hjx : dimOk es jx = true) : a + dimOff ds ix ≠ b + dimOff es jx := by
  have hi := dimOff_lt hix
  have hj := dimOff_lt hjx
  omega

theorem apart_sound {a b : Nat} {ds es : List (Nat × Nat)} {ix jx : List Nat} (h : apart a ds b es = true) (hix : dimOk ds ix = true)
    (hjx : dimOk es jx = true) : a + dimOff ds ix ≠ b + dimOff es jx := by
  induction a, ds, b, es using apart.induct generalizing ix jx with
  | case1 a st n ds b st' m es ih =>
    simp only [apart, Bool.or_eq_true, Bool.and_eq_true, decide_eq_true_eq] at h
    rcases h with hranges | ⟨⟨⟨rfl, hfit⟩, hfit'⟩, hinner⟩
    · exact apart_of_ranges hranges hix hjx
    · obtain _ | ⟨i, is⟩ := ix
      · simp [dimOk] at hix
      obtain _ | ⟨j, js⟩ := jx
      · simp [dimOk] at hjx
      simp only [dimOk, Bool.and_eq_true] at hix hjx
      have hne := ih hinner hix.2 hjx.2
      have hi := dimOff_lt hix.2
      have hj := dimOff_lt hjx.2
      intro heq
      have hmod (c k x : Nat) (hc : c % st + x < st) : (c + (st * k + x)) % st = c % st + x := by
        rw [show c + (st * k + x) = c + x + st * k by omega, Nat.add_mul_mod_self_left, Nat.add_mod, Nat.add_mod_mod,
          Nat.mod_eq_of_lt hc]
      have := congrArg (· % st) heq
      simp only [dimOff] at this
      rw [hmod _ _ _ (by omega), hmod _ _ _ (by omega)] at this
      exact hne this
  | case2 a ds b es hshape =>
    have hranges : a + dimSpan ds ≤ b ∨ b + dimSpan es ≤ a := by
      rw [apart] at h
      · simpa using h
      · exact hshape
    exact apart_of_ranges hranges hix hjx

/-! The map. -/

theorem rows_nested (k : RegKind) : nested (regRow k).dims = true := by cases k <;> decide

theorem rows_apart : regKinds.Pairwise fun j k => apart (regRow j).base (regRow j).dims (regRow k).base (regRow k).dims = true := by
  decide +kernel

/-- No register of kind `j` shares its offset with one of kind `k`. -/
def OffsetsApart (j k : RegKind) : Prop :=
  ∀ jx ix, dimOk (regRow j).dims jx = true → dimOk (regRow k).dims ix = true → regOff j jx ≠ regOff k ix

theorem offsetsApart {j k : RegKind} (hne : j ≠ k) : OffsetsApart j k := by
  have : Std.Symm OffsetsApart := ⟨fun _ _ h jx ix hjx hix => (h ix jx hix hjx).symm⟩
  have hpairs : regKinds.Pairwise OffsetsApart := rows_apart.imp fun hrows _ _ hjx hix => apart_sound hrows hjx hix
  exact hpairs.forall (mem_regKinds j) (mem_regKinds k) hne

theorem regFind_sound {ks : List RegKind} {o : Nat} {k : RegKind} {ix : List Nat} (h : regFind ks o = some (k, ix)) :
    dimOk (regRow k).dims ix = true ∧ regOff k ix = o := by
  induction ks with
  | nil => cases h
  | cons j ks ih =>
    simp only [regFind] at h
    split at h
    · rename_i hle
      split at h
      · rename_i jx hjx
        cases h
        obtain ⟨hok, hoff⟩ := dimAt_sound hjx
        exact ⟨hok, by rw [regOff, hoff]; omega⟩
      · exact ih h
    · exact ih h

theorem regFind_complete {ks : List RegKind} {k : RegKind} {ix : List Nat} (hk : k ∈ ks) (hix : dimOk (regRow k).dims ix = true) :
    (regFind ks (regOff k ix)).isSome = true := by
  induction ks with
  | nil => cases hk
  | cons j ks ih =>
    rw [regFind]
    split
    · split
      · rfl
      · rename_i hnone
        rcases List.mem_cons.1 hk with rfl | hk
        · rw [regOff, Nat.add_sub_cancel_left, dimAt_dimOff (rows_nested k) hix] at hnone
          cases hnone
        · exact ih hk
    · rename_i hlt
      rcases List.mem_cons.1 hk with rfl | hk
      · exact absurd (Nat.le_add_right _ _) hlt
      · exact ih hk

/-- Settles O3: the search finds some register at the offset, and no two kinds and no two index vectors share one. -/
theorem registerMapRoundTrip : Obligations.RegisterMapRoundTrip := by
  intro k ix hix
  obtain ⟨⟨j, jx⟩, hfound⟩ := Option.isSome_iff_exists.1 (regFind_complete (mem_regKinds k) hix)
  obtain ⟨hjx, hoff⟩ := regFind_sound hfound
  obtain rfl : j = k := by_contra fun hne => offsetsApart hne jx ix hjx hix hoff
  have hindex := dimAt_dimOff (rows_nested j) hix
  rw [← Nat.add_left_cancel hoff, dimAt_dimOff (rows_nested j) hjx] at hindex
  rw [regAt, hfound, Option.some.inj hindex]

end Sys2Proof.Machine
end

section
/-!
PROOFS. Sums of accumulator lanes (R34, R35): a sum is the 128-bit sum of its terms, or the special lane of all their flags.
-/

namespace Sys2Proof.Machine

theorem laneInt_toInt (v : BitVec 128) : laneInt v = v.toInt := by
  have hlt := v.isLt
  unfold laneInt sx
  rw [BitVec.toInt_eq_toNat_cond, Nat.mod_eq_of_lt hlt]
  split <;> split <;> omega

/-- The special pattern lies at the bottom of the 128-bit range. -/
theorem laneSpecial_iff (v : BitVec 128) : laneSpecial v = true ↔ v.toInt < -2 ^ 127 + 2 ^ 112 := by
  have hlt := v.isLt
  rw [laneSpecial, decide_eq_true_iff, BitVec.toInt_eq_toNat_cond]
  split <;> omega

theorem laneFlags_lt (v : BitVec 128) : laneFlags v < 32 := by
  unfold laneFlags
  split <;> omega

theorem laneFlags_finite {v : BitVec 128} (h : laneSpecial v = false) : laneFlags v = 0 := by
  simp [laneFlags, h]

theorem toNat_specialLane (fl : Nat) : (specialLane fl).toNat = 0x8000 * 2 ^ 112 + fl % 32 := by
  rw [specialLane, BitVec.toNat_ofNat]
  exact Nat.mod_eq_of_lt (by omega)

theorem laneSpecial_specialLane (fl : Nat) : laneSpecial (specialLane fl) = true := by
  rw [laneSpecial, toNat_specialLane, decide_eq_true_iff]
  omega

theorem laneFlags_specialLane {fl : Nat} (h : fl < 32) : laneFlags (specialLane fl) = fl := by
  rw [laneFlags, laneSpecial_specialLane, if_pos rfl, toNat_specialLane]
  omega

/-- The flags that the lanes of a list contribute. -/
def listFlags (l : List (BitVec 128)) : Nat := l.foldr (fun v fl => laneFlags v ||| fl) 0

theorem listFlags_lt (l : List (BitVec 128)) : listFlags l < 32 := by
  induction l with
  | nil => decide
  | cons v l ih => exact Nat.or_lt_two_pow (n := 5) (laneFlags_lt v) ih

theorem listFlags_append (l : List (BitVec 128)) (v : BitVec 128) : listFlags (l ++ [v]) = listFlags l ||| laneFlags v := by
  induction l with
  | nil => simp [listFlags]
  | cons u l ih =>
    show laneFlags u ||| listFlags (l ++ [v]) = laneFlags u ||| listFlags l ||| laneFlags v
    rw [ih, Nat.lor_assoc]

theorem listFlags_finite {l : List (BitVec 128)} (h : ∀ v ∈ l, laneSpecial v = false) : listFlags l = 0 := by
  induction l with
  | nil => rfl
  | cons v l ih =>
    show laneFlags v ||| listFlags l = 0
    rw [laneFlags_finite (h v (by simp)), ih fun u hu => h u (by simp [hu]), Nat.or_self]

theorem laneSum_append (l : List (BitVec 128)) (v : BitVec 128) : laneSum (l ++ [v]) = laneAdd (laneSum l) v := by
  simp [laneSum]

/-- Finite lanes add up as integers: no partial sum meets the special pattern. -/
theorem laneSum_finite {l : List (BitVec 128)} (hlen : l.length ≤ 65534) (hspecial : ∀ v ∈ l, laneSpecial v = false)
    (hsmall : ∀ v ∈ l, (laneInt v).natAbs < 2 ^ 111) : laneSum l = l.sum ∧ l.sum.toInt.natAbs ≤ l.length * (2 ^ 111 - 1) := by
  induction l using List.reverseRecOn with
  | nil => exact ⟨rfl, by simp⟩
  | append_singleton l v ih =>
    rw [List.length_append, List.length_singleton] at hlen ⊢
    obtain ⟨hsum, hbound⟩ := ih (by omega) (fun u hu => hspecial u (by simp [hu])) (fun u hu => hsmall u (by simp [hu]))
    have hv := hsmall v (by simp)
    rw [laneInt_toInt] at hv
    have hfinite : laneSpecial l.sum = false := by
      rw [Bool.eq_false_iff, Ne, laneSpecial_iff]
      omega
    have hadd : (l.sum + v).toInt = l.sum.toInt + v.toInt := by
      rw [BitVec.toInt_add, Int.bmod_eq_of_le] <;> omega
    rw [laneSum_append, hsum, List.sum_append, List.sum_singleton, hadd]
    refine ⟨?_, by omega⟩
    rw [laneAdd, hfinite, hspecial v (by simp)]
    rfl

/-- A special lane among the terms leaves the special lane of all flags. -/
theorem laneSum_special {l : List (BitVec 128)} (hlen : l.length ≤ 65534) (h : ∀ v ∈ l, laneSpecial v = true ∨ (laneInt v).natAbs < 2 ^ 111)
    (hany : l.any laneSpecial = true) : laneSum l = specialLane (listFlags l) := by
  induction l using List.reverseRecOn with
  | nil => cases hany
  | append_singleton l v ih =>
    have hlen' : l.length ≤ 65534 := by rw [List.length_append] at hlen; omega
    have hl : ∀ u ∈ l, laneSpecial u = true ∨ (laneInt u).natAbs < 2 ^ 111 := fun u hu => h u (by simp [hu])
    rw [laneSum_append, listFlags_append]
    cases hsome : l.any laneSpecial with
    | true =>
      rw [ih hlen' hl hsome, laneAdd, laneSpecial_specialLane, laneFlags_specialLane (listFlags_lt l)]
      rfl
    | false =>
      have hfinite : ∀ u ∈ l, laneSpecial u = false := by simpa using hsome
      have hv : laneSpecial v = true := by simpa [hsome] using hany
      obtain ⟨hsum, hbound⟩ := laneSum_finite hlen' hfinite fun u hu => (hl u hu).resolve_left (by simp [hfinite u hu])
      have hzero : laneFlags l.sum = 0 := by
        refine laneFlags_finite ?_
        rw [Bool.eq_false_iff, Ne, laneSpecial_iff]
        omega
      rw [hsum, laneAdd, hv, hzero, listFlags_finite hfinite, Bool.or_true, if_pos rfl]

theorem listFlags_perm {l₁ l₂ : List (BitVec 128)} (h : l₁.Perm l₂) : listFlags l₁ = listFlags l₂ :=
  h.foldr_eq' (fun u _ v _ fl => by rw [← Nat.lor_assoc, ← Nat.lor_assoc, Nat.lor_comm (laneFlags v)]) 0

/-- Settles O28: with a special term the sum is the OR of flags, without one the 128-bit sum, and neither depends on the order. -/
theorem laneSumsDoNotDependOnOrder : Obligations.LaneSumsDoNotDependOnOrder := by
  intro l₁ l₂ hperm hlen h
  have hlen₂ : l₂.length ≤ 65534 := hperm.length_eq ▸ hlen
  have h₂ : ∀ v ∈ l₂, laneSpecial v = true ∨ (laneInt v).natAbs < 2 ^ 111 := fun v hv => h v (hperm.mem_iff.2 hv)
  cases hany : l₁.any laneSpecial with
  | true =>
    have hany₂ : l₂.any laneSpecial = true := hperm.any_eq ▸ hany
    rw [laneSum_special hlen h hany, laneSum_special hlen₂ h₂ hany₂, listFlags_perm hperm]
  | false =>
    have hfinite : ∀ v ∈ l₁, laneSpecial v = false := by simpa using hany
    have hsmall : ∀ v ∈ l₁, (laneInt v).natAbs < 2 ^ 111 := fun v hv => (h v hv).resolve_left (by simp [hfinite v hv])
    have hfinite₂ : ∀ v ∈ l₂, laneSpecial v = false := fun v hv => hfinite v (hperm.mem_iff.2 hv)
    have hsmall₂ : ∀ v ∈ l₂, (laneInt v).natAbs < 2 ^ 111 := fun v hv => hsmall v (hperm.mem_iff.2 hv)
    rw [(laneSum_finite hlen hfinite hsmall).1, (laneSum_finite hlen₂ hfinite₂ hsmall₂).1, hperm.sum_eq]

end Sys2Proof.Machine
end

section
/-!
PROOFS. Two frames that fail: LATCH_CLEAR and RECORDER_PAGE_WRITE note the instant of a timed rule, a part of State that Instr.touches does not
list for them.
-/

namespace Sys2Proof.Machine

/-- A command whose list leaves out the notes of timed rules keeps them where its frame holds. -/
theorem Frame.seen {l : List Part × List RegKind} {s t : State} (h : Frame l s t) (hl : Part.seen ∉ l.1) : t.clk.seen = s.clk.seen := by
  obtain ⟨-, hparts, -⟩ := h
  exact hparts .seen hl

/-- The module at reset with its input switched off. -/
def inputOff : State := { State.reset with hs.on := false }

/-- The module at reset with one closed page of the recorder waiting. -/
def pageWaits : State := { State.reset with rcd.stage := [⟨0, [], true, 0⟩] }

/-- LATCH_CLEAR notes the instant from which the next switching on counts its 10 ms (R314, R316). -/
theorem latchClear_notes_instant : ∃ t, exec .latchClear inputOff = .next t ∧ t.clk.seen = [(K.mate, 100000000)] := ⟨_, rfl, by decide⟩

/-- RECORDER_PAGE_WRITE notes how many closed pages it has seen (R429). -/
theorem recorderPageWrite_notes_pages : ∃ t, exec .recorderPageWrite pageWaits = .next t ∧ t.clk.seen = [(K.pages, 1)] :=
  ⟨_, rfl, by decide⟩

/-- Refutes O14: LATCH_CLEAR with the input off notes an instant. -/
theorem not_frameOfSupplyResetPowerHeat : ¬ Obligations.FrameOfSupplyResetPowerHeat := by
  intro h
  obtain ⟨t, hnext, hseen⟩ := latchClear_notes_instant
  have hsame := (h .latchClear inputOff t (by decide) hnext).seen (by decide)
  rw [hseen] at hsame
  cases hsame

/-- Refutes O17: RECORDER_PAGE_WRITE with a closed page waiting notes the number of closed pages. -/
theorem not_frameOfFabricManagementUpdate : ¬ Obligations.FrameOfFabricManagementUpdate := by
  intro h
  obtain ⟨t, hnext, hseen⟩ := recorderPageWrite_notes_pages
  have hsame := (h .recorderPageWrite pageWaits t (by decide) hnext).seen (by decide)
  rw [hseen] at hsame
  cases hsame

end Sys2Proof.Machine
end

section
/-!
PROOFS. What every command can write: `Instr.foot` gives each command's footprint (the bits of Act's `Tag`, and bit 64 + k for register kind k),
`exec_via` says that a command that completes ran within it, and the frames of two groups of families follow.
-/

set_option Elab.async false

namespace Sys2Proof

/-- The tags of the effects and the register kinds that a command may write. -/
def Instr.foot : Instr → Nat
  | .hotSwapOn _ | .latchClear => 0x5400
  | .inputGood _ => 0x400c000
  | .overvoltageOff _ | .overcurrentOff _ | .guardTrip _ _ | .powerOnReset | .unmate | .undervoltageOff | .epo => 0x800000000000000020000000000000314b1f01a
  | .vinHigh _ => 0x1b000000000800000000400000000000000000000100300000
  | .brownout _ => 0x1000000000040000040000000000000000000000485d010
  | .inputRecover _ | .mate | .epoRelease => 0x5000
  | .mrst _ => 0x101b00000000084009b400000000000000000000000107ff9a1d
  | .hostInterfaceReset _ => 0x1b0000000008000000000000081000b0f00000000101358031
  | .startUp _ => 0x1fffffffffffffffffffffffffffffffffff000000011f37d010
  | .refclkQualify _ _ => 0x1b00000000080001800000000000000000000000010230d400
  | .weightLoad _ => 0x41b0000030008000100000000000326a000000000010238d04a
  | .readyEntry _ => 0x1100000000000000000000000010a219000
  | .hostFwGo _ | .moduleReset _ _ | .partitionReset _ _ _ | .contextReset _ _ | .clrFails _ => 0x101b0000000008c019b4006000080000b0f00000000107ff9a3d
  | .blockIdle _ => 0x101b00000000084019b4006000080001f8c00000000107ffbafd
  | .idleTExpiry _ => 0x101b00000000084019b4006000080001f8c00000000107ffbefd
  | .partitionResetDone _ _ => 0x141b7c00030008439030000000000366a000000000010a38804a
  | .engineReset _ _ _ => 0x1b0000000008000000000000000000b8f00000000100359028
  | .arrayNop _ _ | .tile _ _ _ | .emit _ _ _ | .ldcb _ _ _ | .setseed _ _ | .setb _ _ | .addb _ _ | .setlc _ _ | .loop _ _ | .waitq
    _ _ | .postq _ _ | .brq _ _ _ | .jump _ _ | .arrayRotpt _ _ | .arrayEnd _ _ | .slotPublish _ _ | .slotRelease _ _ | .qrel _ _ _ _
    | .qpub _ _ _ _ | .corePostq _ _ _ _ _ => 0x41b0000030008000000000000000326b0f300000001003d116a
  | .residueSweep _ _ _ _ => 0x1b0000000008000000000000000000b0f300000001003d0020
  | .bankComplete _ _ _ => 0x1b0000000008000000000000000000b0f000000001003d0020
  | .rotationComplete _ _ _ => 0x1b0400000008010000004000000000b0f000000001003d0060
  | .creditBatchReturn _ _ => 0x41b0000030008000000000000000326b0f300000001003f056a
  | .niSlotSend _ _ _ => 0x41b0000030008000000000000000326b0f300000001003f316a
  | .streamerNop _ _ | .streamerCopy _ _ _ | .gather _ _ _ | .scatter _ _ _ | .pgather _ _ _ | .pscatter _ _ _ | .sync _ _ => 0x41b0000030008000000000000000326b0f300000001003d11fa
  | .streamerEnd _ _ => 0x41b0000030008000000000000000326b0f300000001003d11ea
  | .slopeGrant _ => 0x41b0000030008000000000000000326b0f300000001003d156a
  | .brambleAction _ _ => 0x1b0000000008c00000000000000000b0f000000001003d0420
  | .ewcInstruction _ _ _ _ => 0x41b0000030008000000000000000326b0f000000001003d316a
  | .csrr _ _ _ _ _ | .ei _ _ _ | .di _ _ _ | .iret _ _ _ | .wfi _ _ _ | .qwait _ _ _ _ _ | .qacq _ _ _ _ _ | .qpoll _ _ _ _ _ |
    .qtry _ _ _ _ _ | .coreRotpt _ _ _ | .coreEnd _ _ _ => 0x41b0000030008000000000000000326b0f000000001003d116a
  | .csrw _ _ _ _ _ => 0x41b0000030008000000000000000326f0f000000001003d116a
  | .mboxw _ _ _ _ _ _ | .mboxr _ _ _ _ _ => 0x41b0000030008000000000000000327b0f000000001003d116a
  | .interruptEntry _ _ _ => 0x1b0000000008000000000000000000b0f000000001003d0060
  | .timerFire _ _ _ => 0xa0000000000000000440
  | .mboxWrite _ _ _ _ _ => 0x1b0000000008000000000000000003a0000000000100300000
  | .serviceCoreWatchdog _ | .lockstepMismatch _ => 0x101b0000000008c009b400000000000000000000000107ff9a1d
  | .impedanceCalibration _ => 0x1400
  | .driftCheck _ _ => 0x1408
  | .retune _ _ => 0x101b0000000008c01030006000080044b0f000000001003f963d
  | .scrubVisit _ _ => 0x41b0000030008000000000000000136a000000000010038004a
  | .scrubLate _ => 0x1b000000000800000000000000001000000000000100300408
  | .memRestored _ | .bar4Read _ _ _ _ => 0x41b0000030008000000000000000326a000000000010038004a
  | .patrolRead _ _ => 0x8
  | .bar4Write _ _ _ => 0x41b0000030008000000000000000126a000000000010038004a
  | .ringEnable _ _ | .ringDisable _ _ => 0x1b00000000080000000000000e8000b0f00000000100352030
  | .sqTail _ _ | .cqHead _ _ => 0x1b000000000800000000000002000000000000000100310000
  | .descriptorFetch _ => 0x6000000000000000000010000
  | .completionWrite _ _ => 0x101b000000000800000000000006000000000000000100313000
  | .msixCoalesceTimer _ => 0x1000000000000000000000000000000000000000000100010400
  | .nop _ | .fence _ => 0x10000
  | .runPhase _ => 0x41b0000030008000000000000080326b0fc00000001003901ea
  | .fabricAdmitDeadline _ | .gateTick => 0x41b0000030008000000004000000326b0f300000001003d156a
  | .phaseEnd _ => 0x1b0000000008000000004000080000a01400000001003581e0
  | .copy _ _ _ => 0x41b0000030008000000000000000326a000000000010039004a
  | .loadImage _ _ => 0x2000000000000000401001a
  | .imageVerify _ => 0x41b000000000800000000000000030400000000000104310018
  | .bindContext _ => 0x41b000000000800000000000008030400000000000100350008
  | .bindComplete _ _ => 0x41b0000030008000000000000080326a000000000010039004a
  | .unbindContext _ => 0x8000000000000000000010000
  | .abort _ | .abortContext _ => 0x80000b0f00000000000050030
  | .queryEnergy _ => 0x100010000
  | .setOpPref _ => 0x1b000000000800000000000008000000000000000100310000
  | .serveStart _ | .serveStop _ | .gateStop _ _ => 0x1b000000000800000000000000100000000000000100308000
  | .portEnable _ _ | .portDisable _ _ | .forceHold _ _ _ | .berNow _ _ => 0x101b0000000008000130000000b0000000000000000108329000
  | .linkTrained _ | .testReq _ => 0x1000000000000000013000000020000000000000000100229000
  | .ident _ _ _ | .portDown _ _ | .flitTimeout _ => 0x101b0000000008000130000000a0000000000000000100329000
  | .identTimeout _ => 0x101b000000000800013000000020000000000000000100329400
  | .identRepeat _ | .keepaliveSend _ => 0x100000400
  | .testAck _ | .timeLoRead => 0x100020000
  | .testResult _ _ => 0x101b000000000800013000000020000000000000000100329000
  | .berTestDone _ _ => 0x101b000000000800013000000220000000000000000100329400
  | .berInterval _ => 0x1000000000000000013000000020000000000000000100229400
  | .fecErrorLimit _ _ => 0x101b0000000008000130000001a0000000000000000100329000
  | .retrain _ => 0x10000000000000000130000000a0000000000000000100229400
  | .portState _ _ _ _ _ => 0x100000000000000000000000020000
  | .packetInject _ _ => 0x1b000000000800000000100000000000000000000100320000
  | .packetReceive _ _ _ | .broadcast _ _ => 0x1b000000000800000000100100000000000000000100320000
  | .streamOpenRetry _ _ | .streamAckTimer _ _ | .streamIdleClose _ _ => 0x20400
  | .streamContextExpiry _ _ => 0x200000000000000000000000020400
  | .fazarOpTimeout _ _ => 0xb0f00000000000070420
  | .directoryWrite _ _ _ => 0x1b000000000800000000004000000000000000000100320000
  | .dirUpdate _ _ _ => 0x101b000000000800013000114020000000000000000102329008
  | .bankCopy _ | .sealBank _ | .arm _ | .cancel _ => 0x1b000010000800000000004000000000000000000100320000
  | .mcast _ | .reduceDown _ | .qslot => 0x41b0000030008000000001000000326b0f300000001003f116a
  | .reduceUp _ _ => 0x41b0000030008000000001000000326b0f300000001003f316a
  | .redContextExpiry _ _ _ => 0x100000000000000000000000020400
  | .timeFrame _ _ => 0x40000000000000000000000021800
  | .timeRootSet _ => 0x1b000000000800000000060000000000000000000108320000
  | .timeSet _ _ => 0x1b000400000800000000000000000000000000000100300800
  | .droopDetect _ => 0x80400000000000000000000000041000
  | .droopRelease _ => 0x400000000000000000000000041000
  | .droopLong _ | .flowMismatch => 0x1b000000000800000000000000000000000000000100340400
  | .vrAlert _ => 0x1b000000000800001000400000000000000000000100340000
  | .powerSample _ _ => 0x4400000000000000000000000055400
  | .estimatorTick _ => 0x51400
  | .gainRefit => 0x1b000000000800000040000000000000000000000100341400
  | .hotspotSample _ => 0x80002004000000000a0000000000000041460
  | .sensorCompare => 0x101b000000000800003200400000000000000000000100341400
  | .rotationRequest _ => 0xa0000000000000040060
  | .throttleStep _ _ _ => 0x400000000000000000000000041420
  | .throttleRestore _ _ => 0x4000000000a0000000000000041460
  | .thermalUpdate _ _ => 0x1b000000000800000032c00000000000000000000100351400
  | .guardSingle _ _ => 0x1b00000000080c000000400000020000000000000314b5f01a
  | .guardSuspect _ _ => 0x4000000400000000000000000000000041400
  | .guardSingleRelease _ _ => 0xc000000400000000000000000000000041000
  | .escalate _ _ => 0x1b0000000008c01000006000080000b8f000000001003f923d
  | .sweepFail _ _ _ => 0x1b000000000800000000000000000000000000000100341400
  | .worisySignalDetect _ | .worisySignalLoss _ => 0x1000000000000000000000000000000000
  | .worisyFrameError _ => 0x200000000000000000000000000000000000000
  | .ping _ | .info _ | .evtRead _ _ _ | .measRead _ _ | .leaseStatus _ => 0x200000000000000000000000000000100200000
  | .regRead _ _ _ => 0x200000000000000000000000000000100220000
  | .regWrite _ _ _ | .registerWrite _ _ _ _ => 0x1fffffffffffffffffffffffffffffffffff000000010fffba3d
  | .leaseClaim _ | .leaseRelease _ => 0x1b000000000b00000000000000000000000000000100301000
  | .leaseRenew _ => 0x1b000000000a00000000000000000000000000000100301000
  | .setClip _ _ | .setRackClip _ _ => 0x1b000000000a00000001c00000000000000000000100351000
  | .setOpCeil _ _ _ => 0x1b000000000a00000008000000000000000000000100340000
  | .flowReport _ _ => 0x1b000000000a00000012c00000000000000000000100351000
  | .operatorHold _ => 0x1b000000000a00000000400000000000000000000100349000
  | .operatorHoldRelease _ => 0x1b000000000a00000000400000000000000000000100359000
  | .reset _ _ _ _ _ => 0x101b000000000ac019b4006000080000b0f00000000107ff9a3d
  | .memberRenew _ => 0x101b000000000a00003000010000000000000000000100320000
  | .fenceCommand _ => 0x101b000000000a00013000010020000000000000000102329008
  | .readmit _ _ => 0x101b000000000a400130000048a000000000000000010a329000
  | .worisyClrFails _ => 0x1b000000000a00010000000000000000000000000102300000
  | .activate _ _ _ _ _ => 0x1b000000010a00000000000000000000000000000100700000
  | .updVote _ _ _ => 0x100000000000000000000000400000
  | .confirm _ => 0x1b000000010e0000000000000000000000000000018a300000
  | .rollback _ => 0x5b000000010a0000000000000000000000000000010b308000
  | .activatePlan _ _ _ => 0x1b000000000a00000000000000020000000000000104f11018
  | .evtClear _ => 0x1f000000000a00000000000000000000000000000104300004
  | .ownerChallenge _ => 0x200000000000000000000000000000100202000
  | .ownerEnroll _ _ _ _ => 0x1b000000000e00000000000000000000000000000124300000
  | .ownerRevoke _ _ _ => 0x1b000000000e00000000000000000000000000000140300000
  | .setSecurity _ _ => 0x1b000000000e00000000000000000000000000000108300000
  | .updateCheck _ | .updateProgram _ | .updateCancel _ => 0x1b000000010800000000000000000000000000000102300000
  | .programDone _ => 0x10000000000000000000000000000000102200000
  | .stagingWrite _ _ _ => 0x1b000000010800000000000000000000000000000102700000
  | .spdmRequest _ => 0x100000000
  | .ideKeyProg _ _ => 0x1000000
  | .quicksetGo _ | .quicksetCancel _ => 0x1b000000000800200000000000000000000000000100b03000
  | .qsAnnounce _ _ => 0x10000000000400000100000000000000000000004801010
  | .qsBlock _ _ _ _ => 0x1000000000041000010000002000000000000000080901a
  | .qsEnd _ _ _ | .qsNak _ _ _ => 0x400000100000000000000000000100801000
  | .qsReq _ _ _ _ => 0x100000000000000000000100000000
  | .qsData _ _ _ _ => 0x1000000000041000010000002000000000000010080901a
  | .commandDone _ _ => 0x100200000
  | .inrushFault => 0x800000000000000020000000000000314b1f41a
  | .brownoutEnd => 0x1b000000000800400000400000020000000000000100b5d41a
  | .startTimeout | .hostFwTimeout => 0x1b00000000080001000000000000000000000000010230d400
  | .startRetry => 0x101b00000000084009b400000000000000000000000107ff9e1d
  | .brambleSample => 0x1b800000000800000000000000000002000000000100381400
  | .journalCommit => 0x10000000000400000000000000000000000000004811410
  | .wearRefill | .lifeSave => 0x1410
  | .credit => 0x41b0000030008000000000000000326b0f300000001003f016a
  | .streamOpen | .streamClose => 0x200000000000000000000000020000
  | .streamGrant | .streamBusy | .streamAck => 0x20000
  | .laying => 0x101b00000000080001300001482000000000000000010a329408
  | .epochHoldEnd => 0x4000000000000000000000000400
  | .membershipLapse => 0x101b000000000800003000010000000000000000000100300400
  | .timeFrameSend => 0x100021c00
  | .rootLoss => 0x40000000000000000000000021400
  | .rootPromotion => 0x1b000000000800000000040000000000000000000100320400
  | .rootStartWait => 0x40000000000000000000000020400
  | .opMove | .vcoreSettled | .clipLagStep | .hotRelease | .rateRelease => 0x400000000000000000000000041400
  | .blendStep => 0x8400000000000000000000000041400
  | .forcedVcoreFall => 0x40400
  | .forcedRelease => 0x400000000000000000000000040400
  | .blendResume => 0x41400
  | .vrAlertRelease => 0x1000400000000000000000000000041000
  | .clipLagLong => 0x1b000000000800000000000000000000000000000100301400
  | .opCeilApply => 0x1b000000000800000008000000000000000000000100340400
  | .cycleSample => 0x1b007800000800000000000000000000000000000100341400
  | .leaseExpiry => 0x1b000000000900000000000000000000000000000100301400
  | .leaseGuardEnd => 0x100000000000000000000000000000000000400
  | .updVoteSend => 0x100400400
  | .voteCount => 0x1b000000000800000000000000000000000000000100700400
  | .firmwareActivation => 0x105b00000001084009b40000000000000000000000010fff9e1d
  | .confirmDeadline => 0x5b00000001080000000000000000000000000000010b308400
  | .planActivation => 0x1b000000000800000000000000020000000000000104f11418
  | .recorderPageWrite => 0x80000000000000002000000000000010430141a
  | .qsSend => 0x100000000000000000000100821400
  | .qsAnnounceSend => 0x100000000000000000000100001400
  | .qsRepairTimeout | .qsRoundEnd => 0x400000000000000000000000000100801400
  | .qsFetchEnd => 0x101b000000000800413000000000000000000000000102309400
  | .qsVerify => 0x101b00000000084049b400000000020000000000000107ffba1d
  | .evtTokenRefill => 0x101400
  | .mrstRelease => 0x8000


namespace Machine

theorem received_in {o : State} {n : Nat} {m : M o Unit} (h : Within n m) : Within n (received m) :=
  within_bind mode_in fun _ => within_when h

theorem within_ite {o : State} {α : Type} {n : Nat} {c : Prop} [Decidable c] {a b : M o α} (ha : Within n a) (hb : Within n b) :
    Within n (if c then a else b) := by
  split
  · exact ha
  · exact hb

theorem execHotSwapOn_via {vin : Nat} {x y : State} (hn : execHotSwapOn vin x = .next y) : Via (Instr.hotSwapOn vin).foot x y := by
  refine act_via (n := 0x5400) hn ?_
  try dsimp only
  repeat' (first
    | intro _ | (with_reducible apply within_bind) | (with_reducible exact within_pure _) | (with_reducible exact within_st)
    | ((with_reducible refine within_eff _ ?_); dsimp only [Eff.tag]; rfl) | split | ((with_reducible refine (advTo_in ..).mono ?_); rfl)
    | ((with_reducible refine (mark_in ..).mono ?_); rfl))

theorem execInputGood_via {vin : Nat} {x y : State} (hn : execInputGood vin x = .next y) : Via (Instr.inputGood vin).foot x y := by
  refine act_via (n := 0x400c000) hn ?_
  try dsimp only
  repeat' (first
    | intro _ | (with_reducible apply within_bind) | (with_reducible exact within_pure _) | (with_reducible exact within_st)
    | ((with_reducible refine within_eff _ ?_); dsimp only [Eff.tag]; rfl) | split
    | ((with_reducible refine (setMode_in ..).mono ?_); rfl))

theorem execOvervoltageOff_via {highest : Nat} {x y : State} (hn : execOvervoltageOff highest x = .next y) :
    Via (Instr.overvoltageOff highest).foot x y := by
  refine act_via (n := 0x800000000000000020000000000000314b1f01a) hn ?_
  try dsimp only
  ((with_reducible refine (switchOff_in ..).mono ?_); rfl)

theorem execOvercurrentOff_via {instant : Bool} {x y : State} (hn : execOvercurrentOff instant x = .next y) :
    Via (Instr.overcurrentOff instant).foot x y := by
  refine act_via (n := 0x800000000000000020000000000000314b1f01a) hn ?_
  try dsimp only
  ((with_reducible refine (switchOff_in ..).mono ?_); rfl)

theorem execVinHigh_via {vin : Nat} {x y : State} (hn : execVinHigh vin x = .next y) : Via (Instr.vinHigh vin).foot x y := by
  refine act_via (n := 0x1b000000000800000000400000000000000000000100300000) hn ?_
  try dsimp only
  repeat' (first
    | intro _ | (with_reducible apply within_bind) | (with_reducible exact within_pure _) | (with_reducible exact within_st)
    | ((with_reducible refine setF_in _ rfl ?_); dsimp only; rfl) | split | ((with_reducible refine (ev_in ..).mono ?_); rfl))

theorem execBrownout_via {vin : Nat} {x y : State} (hn : execBrownout vin x = .next y) : Via (Instr.brownout vin).foot x y := by
  refine act_via (n := 0x1000000000040000040000000000000000000000485d010) hn ?_
  try dsimp only
  repeat' (first
    | intro _ | (with_reducible apply within_bind) | (with_reducible exact within_pure _) | (with_reducible exact within_st)
    | (with_reducible apply within_when) | ((with_reducible refine within_eff _ ?_); dsimp only [Eff.tag]; rfl) | split
    | ((with_reducible refine (commitServing_in).mono ?_); rfl)
    | ((with_reducible refine enterHold_in _ rfl ?_ ?_) <;> [(dsimp only; rfl); rfl]))

theorem execInputRecover_via {vin : Nat} {x y : State} (hn : execInputRecover vin x = .next y) : Via (Instr.inputRecover vin).foot x y := by
  refine act_via (n := 0x5000) hn ?_
  try dsimp only
  repeat' (first
    | intro _ | (with_reducible apply within_bind) | (with_reducible exact within_pure _) | (with_reducible exact within_st)
    | (with_reducible apply within_when) | ((with_reducible refine within_eff _ ?_); dsimp only [Eff.tag]; rfl) | split
    | ((with_reducible refine (mark_in ..).mono ?_); rfl))

theorem execMrst_via {ns : Nat} {x y : State} (hn : execMrst ns x = .next y) : Via (Instr.mrst ns).foot x y := by
  refine act_via (n := 0x101b00000000084009b400000000000000000000000107ff9a1d) hn ?_
  try dsimp only
  repeat' (first
    | intro _ | (with_reducible apply within_bind) | (with_reducible exact within_pure _)
    | ((with_reducible refine within_eff _ ?_); dsimp only [Eff.tag]; rfl) | split
    | ((with_reducible refine (askModule_in ..).mono ?_); rfl))

theorem execHostInterfaceReset_via {flr : Bool} {x y : State} (hn : execHostInterfaceReset flr x = .next y) :
    Via (Instr.hostInterfaceReset flr).foot x y := by
  refine act_via (n := 0x1b0000000008000000000000081000b0f00000000101358031) hn ?_
  try dsimp only
  repeat' (first
    | intro _ | (with_reducible apply within_bind) | (with_reducible exact within_pure _) | (with_reducible exact within_st)
    | (with_reducible apply within_each) | ((with_reducible refine within_eff _ ?_); dsimp only [Eff.tag]; rfl) | split
    | ((with_reducible refine (endOp_in ..).mono ?_); rfl) | ((with_reducible refine (resetEvent_in ..).mono ?_); rfl)
    | ((with_reducible refine (setServe_in ..).mono ?_); rfl))

theorem execStartUp_via {e : StartEnv} {x y : State} (hn : execStartUp e x = .next y) : Via (Instr.startUp e).foot x y := by
  refine act_via (n := 0x1fffffffffffffffffffffffffffffffffff000000011f37d010) hn ?_
  try dsimp only
  repeat' (first
    | intro _ | (with_reducible apply within_bind) | (with_reducible exact within_pure _) | (with_reducible exact within_st) | split
    | ((with_reducible refine (restoreWear_in ..).mono ?_); rfl) | ((with_reducible refine (startRest_in ..).mono ?_); rfl)
    | ((with_reducible refine (startStep2_in ..).mono ?_); rfl) | ((with_reducible refine (startStep3_in ..).mono ?_); rfl)
    | ((with_reducible refine (startStep4_in).mono ?_); rfl) | ((with_reducible refine (startStep6_in ..).mono ?_); rfl)
    | ((with_reducible refine (startStep7_in ..).mono ?_); rfl) | ((with_reducible refine (startStep8_in ..).mono ?_); rfl)
    | ((with_reducible refine (startStep9_in ..).mono ?_); rfl))

theorem execRefclkQualify_via {ok : Bool} {offset : Int} {x y : State} (hn : execRefclkQualify ok offset x = .next y) :
    Via (Instr.refclkQualify ok offset).foot x y := by
  refine act_via (n := 0x1b00000000080001800000000000000000000000010230d400) hn ?_
  try dsimp only
  repeat' (first
    | intro _ | (with_reducible apply within_bind) | (with_reducible exact within_pure _) | (with_reducible exact within_st)
    | (with_reducible apply within_when) | ((with_reducible refine within_eff _ ?_); dsimp only [Eff.tag]; rfl)
    | (with_reducible exact wrs_nil_in) | ((with_reducible refine wrs_in _ rfl ?_ ?_); focus (dsimp only; rfl)) | split
    | ((with_reducible refine (advTo_in ..).mono ?_); rfl) | ((with_reducible refine (failStart_in ..).mono ?_); rfl))

theorem execWeightLoad_via {bad : List Nat} {x y : State} (hn : execWeightLoad bad x = .next y) : Via (Instr.weightLoad bad).foot x y := by
  refine act_via (n := 0x41b0000030008000100000000000326a000000000010238d04a) hn ?_
  try dsimp only
  repeat' (first
    | intro _ | (with_reducible apply within_bind) | (with_reducible exact within_pure _) | (with_reducible exact within_st)
    | ((with_reducible refine within_eff _ ?_); dsimp only [Eff.tag]; rfl) | split
    | ((with_reducible refine (failStart_in ..).mono ?_); rfl) | ((with_reducible refine (loadRanges_in ..).mono ?_); rfl))

theorem execReadyEntry_via {moved : Bool} {x y : State} (hn : execReadyEntry moved x = .next y) :
    Via (Instr.readyEntry moved).foot x y := by
  refine act_via (n := 0x1100000000000000000000000010a219000) hn ?_
  try dsimp only
  repeat' (first
    | intro _ | (with_reducible apply within_bind) | (with_reducible exact within_pure _) | (with_reducible exact within_st)
    | (with_reducible apply within_when) | ((with_reducible refine within_eff _ ?_); dsimp only [Eff.tag]; rfl) | split
    | ((with_reducible refine (enterReady_in).mono ?_); rfl) | ((with_reducible refine (upTraining_in ..).mono ?_); rfl))

theorem execHostFwGo_via {src : Src} {x y : State} (hn : execHostFwGo src x = .next y) : Via (Instr.hostFwGo src).foot x y := by
  refine act_via (n := 0x101b0000000008c019b4006000080000b0f00000000107ff9a3d) hn ?_
  try dsimp only
  ((with_reducible refine (rstReq_in ..).mono ?_); rfl)

theorem execModuleReset_via {why : ResetWhy} {key : Nat} {x y : State} (hn : execModuleReset why key x = .next y) :
    Via (Instr.moduleReset why key).foot x y := by
  refine act_via (n := 0x101b0000000008c019b4006000080000b0f00000000107ff9a3d) hn ?_
  try dsimp only
  repeat' (first
    | split | ((with_reducible refine (otherRung_in ..).mono ?_); rfl) | ((with_reducible refine (rstReq_in ..).mono ?_); rfl))

theorem execPartitionReset_via {why : ResetWhy} {key : Nat} {pmask : Nat} {x y : State} (hn : execPartitionReset why key pmask x = .next y) :
    Via (Instr.partitionReset why key pmask).foot x y := by
  refine act_via (n := 0x101b0000000008c019b4006000080000b0f00000000107ff9a3d) hn ?_
  try dsimp only
  repeat' (first
    | split | ((with_reducible refine (otherRung_in ..).mono ?_); rfl) | ((with_reducible refine (rstReq_in ..).mono ?_); rfl))

theorem execContextReset_via {why : ResetWhy} {slot : Nat} {x y : State} (hn : execContextReset why slot x = .next y) :
    Via (Instr.contextReset why slot).foot x y := by
  refine act_via (n := 0x101b0000000008c019b4006000080000b0f00000000107ff9a3d) hn ?_
  try dsimp only
  repeat' (first
    | split | ((with_reducible refine (otherRung_in ..).mono ?_); rfl) | ((with_reducible refine (rstReq_in ..).mono ?_); rfl))

theorem execClrFails_via {src : Src} {x y : State} (hn : execClrFails src x = .next y) : Via (Instr.clrFails src).foot x y := by
  refine act_via (n := 0x101b0000000008c019b4006000080000b0f00000000107ff9a3d) hn ?_
  try dsimp only
  ((with_reducible refine (rstReq_in ..).mono ?_); rfl)

theorem execBlockIdle_via {d : Domain} {x y : State} (hn : execBlockIdle d x = .next y) : Via (Instr.blockIdle d).foot x y := by
  refine act_via (n := 0x101b00000000084019b4006000080001f8c00000000107ffbafd) hn ?_
  try dsimp only
  ((with_reducible refine (stage3_in ..).mono ?_); rfl)

theorem execIdleTExpiry_via {d : Domain} {x y : State} (hn : execIdleTExpiry d x = .next y) : Via (Instr.idleTExpiry d).foot x y := by
  refine act_via (n := 0x101b00000000084019b4006000080001f8c00000000107ffbefd) hn ?_
  try dsimp only
  repeat' (first
    | intro _ | (with_reducible apply within_bind) | (with_reducible exact within_pure _) | (with_reducible exact within_st) | split
    | ((with_reducible refine (advTo_in ..).mono ?_); rfl) | ((with_reducible refine (stage3_in ..).mono ?_); rfl))

theorem execPartitionResetDone_via {p : Nat} {t : TestEnv} {x y : State} (hn : execPartitionResetDone p t x = .next y) :
    Via (Instr.partitionResetDone p t).foot x y := by
  refine act_via (n := 0x141b7c00030008439030000000000366a000000000010a38804a) hn ?_
  try dsimp only
  repeat' (first
    | intro _ | (with_reducible apply within_bind) | (with_reducible exact within_pure _) | (with_reducible exact within_st) | split
    | ((with_reducible refine (partitionDone_in ..).mono ?_); rfl))

theorem execEngineReset_via {src : Src} {p unit : Nat} {x y : State} (hn : execEngineReset src p unit x = .next y) :
    Via (Instr.engineReset src p unit).foot x y := by
  refine act_via (n := 0x1b0000000008000000000000000000b8f00000000100359028) hn ?_
  try dsimp only
  repeat' (first
    | ((with_reducible refine (putEngRst_in ..).mono ?_); rfl) | ((with_reducible refine barReg_in ?_ ?_) <;> [rfl; skip]))

theorem execArrayNop_via {p n : Nat} {x y : State} (hn : execArrayNop p n x = .next y) : Via (Instr.arrayNop p n).foot x y := by
  refine act_via (n := 0x41b0000030008000000000000000326b0f300000001003d116a) hn ?_
  try dsimp only
  repeat' (first
    | intro _ | ((with_reducible refine (retire_in ..).mono ?_); rfl) | ((with_reducible refine arrTurn_in ?_ ?_) <;> [rfl; skip]))

theorem execTile_via {p n : Nat} {f : Flt} {x y : State} (hn : execTile p n f x = .next y) : Via (Instr.tile p n f).foot x y := by
  refine act_via (n := 0x41b0000030008000000000000000326b0f300000001003d116a) hn ?_
  try dsimp only
  repeat' (first
    | intro _ | (with_reducible apply within_bind) | (with_reducible exact within_pure _) | split
    | ((with_reducible refine (arrDataLoss_in ..).mono ?_); rfl) | ((with_reducible refine (arrWork_in ..).mono ?_); rfl)
    | ((with_reducible refine (initLanes_in ..).mono ?_); rfl) | ((with_reducible refine (issueTile_in ..).mono ?_); rfl)
    | ((with_reducible refine arrTurn_in ?_ ?_) <;> [rfl; skip]) | (with_reducible exact arr_in ..))

theorem execResidueSweep_via {p n : Nat} {lane0 : Nat} {f : Flt} {x y : State} (hn : execResidueSweep p n lane0 f x = .next y) :
    Via (Instr.residueSweep p n lane0 f).foot x y := by
  refine act_via (n := 0x1b0000000008000000000000000000b0f300000001003d0020) hn ?_
  try dsimp only
  repeat' (first
    | intro _ | (with_reducible apply within_bind) | (with_reducible exact within_pure _) | (with_reducible exact within_st) | split
    | ((with_reducible refine (applyCells_in ..).mono ?_); rfl) | ((with_reducible refine (resFail_in ..).mono ?_); rfl)
    | (with_reducible exact arr_in ..))

theorem execBankComplete_via {p n : Nat} {f : Flt} {x y : State} (hn : execBankComplete p n f x = .next y) :
    Via (Instr.bankComplete p n f).foot x y := by
  refine act_via (n := 0x1b0000000008000000000000000000b0f000000001003d0020) hn ?_
  try dsimp only
  repeat' (first
    | intro _ | (with_reducible apply within_bind) | (with_reducible exact within_pure _) | (with_reducible exact within_st) | split
    | ((with_reducible refine (applyCells_in ..).mono ?_); rfl) | ((with_reducible refine (shadowFail_in ..).mono ?_); rfl)
    | ((with_reducible refine (upArr_in ..).mono ?_); rfl) | (with_reducible exact arr_in ..))

theorem execEmit_via {p n : Nat} {f : Flt} {x y : State} (hn : execEmit p n f x = .next y) : Via (Instr.emit p n f).foot x y := by
  refine act_via (n := 0x41b0000030008000000000000000326b0f300000001003d116a) hn ?_
  try dsimp only
  repeat' (first
    | intro _ | (with_reducible apply within_bind) | (with_reducible exact within_pure _) | split
    | ((with_reducible refine (arrWork_in ..).mono ?_); rfl) | ((with_reducible refine (emitStore_in ..).mono ?_); rfl)
    | ((with_reducible refine (excFlags_in ..).mono ?_); rfl) | ((with_reducible refine (resFail_in ..).mono ?_); rfl)
    | ((with_reducible refine (retire_in ..).mono ?_); rfl) | ((with_reducible refine (shadowFail_in ..).mono ?_); rfl)
    | ((with_reducible refine (upArr_in ..).mono ?_); rfl) | ((with_reducible refine arrTurn_in ?_ ?_) <;> [rfl; skip])
    | (with_reducible exact arr_in ..))

theorem execLdcb_via {p n : Nat} {f : Flt} {x y : State} (hn : execLdcb p n f x = .next y) : Via (Instr.ldcb p n f).foot x y := by
  refine act_via (n := 0x41b0000030008000000000000000326b0f300000001003d116a) hn ?_
  try dsimp only
  repeat' (first
    | intro _ | (with_reducible apply within_bind) | (with_reducible exact within_pure _) | split
    | ((with_reducible refine (arrDataLoss_in ..).mono ?_); rfl) | ((with_reducible refine (arrIllegal_in ..).mono ?_); rfl)
    | ((with_reducible refine (readStore_in ..).mono ?_); rfl) | ((with_reducible refine (retire_in ..).mono ?_); rfl)
    | ((with_reducible refine (upPair_in ..).mono ?_); rfl) | ((with_reducible refine arrTurn_in ?_ ?_) <;> [rfl; skip])
    | (with_reducible exact arr_in ..))

theorem execSetseed_via {p n : Nat} {x y : State} (hn : execSetseed p n x = .next y) : Via (Instr.setseed p n).foot x y := by
  refine act_via (n := 0x41b0000030008000000000000000326b0f300000001003d116a) hn ?_
  try dsimp only
  repeat' (first
    | intro _ | (with_reducible apply within_bind) | (with_reducible exact within_pure _) | split
    | ((with_reducible refine (retire_in ..).mono ?_); rfl) | ((with_reducible refine (upPair_in ..).mono ?_); rfl)
    | ((with_reducible refine arrTurn_in ?_ ?_) <;> [rfl; skip]) | (with_reducible exact arr_in ..))

theorem execSetb_via {p n : Nat} {x y : State} (hn : execSetb p n x = .next y) : Via (Instr.setb p n).foot x y := by
  refine act_via (n := 0x41b0000030008000000000000000326b0f300000001003d116a) hn ?_
  try dsimp only
  repeat' (first
    | intro _ | (with_reducible apply within_bind) | ((with_reducible refine (retire_in ..).mono ?_); rfl)
    | ((with_reducible refine (upPair_in ..).mono ?_); rfl) | ((with_reducible refine arrTurn_in ?_ ?_) <;> [rfl; skip]))

theorem execAddb_via {p n : Nat} {x y : State} (hn : execAddb p n x = .next y) : Via (Instr.addb p n).foot x y := by
  refine act_via (n := 0x41b0000030008000000000000000326b0f300000001003d116a) hn ?_
  try dsimp only
  repeat' (first
    | intro _ | (with_reducible apply within_bind) | ((with_reducible refine (retire_in ..).mono ?_); rfl)
    | ((with_reducible refine (upArr_in ..).mono ?_); rfl) | ((with_reducible refine arrTurn_in ?_ ?_) <;> [rfl; skip]))

theorem execSetlc_via {p n : Nat} {x y : State} (hn : execSetlc p n x = .next y) : Via (Instr.setlc p n).foot x y := by
  refine act_via (n := 0x41b0000030008000000000000000326b0f300000001003d116a) hn ?_
  try dsimp only
  repeat' (first
    | intro _ | (with_reducible apply within_bind) | ((with_reducible refine (retire_in ..).mono ?_); rfl)
    | ((with_reducible refine (upPair_in ..).mono ?_); rfl) | ((with_reducible refine arrTurn_in ?_ ?_) <;> [rfl; skip]))

theorem execLoop_via {p n : Nat} {x y : State} (hn : execLoop p n x = .next y) : Via (Instr.loop p n).foot x y := by
  refine act_via (n := 0x41b0000030008000000000000000326b0f300000001003d116a) hn ?_
  try dsimp only
  repeat' (first
    | intro _ | (with_reducible apply within_bind) | split | ((with_reducible refine (jumpTo_in ..).mono ?_); rfl)
    | ((with_reducible refine (retire_in ..).mono ?_); rfl) | ((with_reducible refine (upArr_in ..).mono ?_); rfl)
    | ((with_reducible refine arrTurn_in ?_ ?_) <;> [rfl; skip]) | (with_reducible exact arr_in ..))

theorem execWaitq_via {p n : Nat} {x y : State} (hn : execWaitq p n x = .next y) : Via (Instr.waitq p n).foot x y := by
  refine act_via (n := 0x41b0000030008000000000000000326b0f300000001003d116a) hn ?_
  try dsimp only
  repeat' (first
    | intro _ | (with_reducible apply within_bind) | (with_reducible exact within_st) | split
    | ((with_reducible refine (kickQ_in ..).mono ?_); rfl) | ((with_reducible refine (releaseSlot_in ..).mono ?_); rfl)
    | ((with_reducible refine (retire_in ..).mono ?_); rfl) | ((with_reducible refine (stallC_in ..).mono ?_); rfl)
    | ((with_reducible refine (upQue_in ..).mono ?_); rfl) | ((with_reducible refine arrTurn_in ?_ ?_) <;> [rfl; skip]))

theorem execPostq_via {p n : Nat} {x y : State} (hn : execPostq p n x = .next y) : Via (Instr.postq p n).foot x y := by
  refine act_via (n := 0x41b0000030008000000000000000326b0f300000001003d116a) hn ?_
  try dsimp only
  repeat' (first
    | intro _ | (with_reducible apply within_bind) | (with_reducible exact within_rd _) | split
    | ((with_reducible refine (pushSlot_in ..).mono ?_); rfl) | ((with_reducible refine (retire_in ..).mono ?_); rfl)
    | ((with_reducible refine (stallP_in ..).mono ?_); rfl) | ((with_reducible refine arrTurn_in ?_ ?_) <;> [rfl; skip]))

theorem execBrq_via {p n : Nat} {f : Flt} {x y : State} (hn : execBrq p n f x = .next y) : Via (Instr.brq p n f).foot x y := by
  refine act_via (n := 0x41b0000030008000000000000000326b0f300000001003d116a) hn ?_
  try dsimp only
  repeat' (first
    | intro _ | (with_reducible apply within_bind) | split | ((with_reducible refine (arrDataLoss_in ..).mono ?_); rfl)
    | ((with_reducible refine (jumpTo_in ..).mono ?_); rfl) | ((with_reducible refine (kickQ_in ..).mono ?_); rfl)
    | ((with_reducible refine (popSlot_in ..).mono ?_); rfl) | ((with_reducible refine (releaseSlot_in ..).mono ?_); rfl)
    | ((with_reducible refine (retire_in ..).mono ?_); rfl) | ((with_reducible refine (stallC_in ..).mono ?_); rfl)
    | ((with_reducible refine arrTurn_in ?_ ?_) <;> [rfl; skip]))

theorem execJump_via {p n : Nat} {x y : State} (hn : execJump p n x = .next y) : Via (Instr.jump p n).foot x y := by
  refine act_via (n := 0x41b0000030008000000000000000326b0f300000001003d116a) hn ?_
  try dsimp only
  repeat' (first
    | intro _ | ((with_reducible refine (jumpTo_in ..).mono ?_); rfl) | ((with_reducible refine arrTurn_in ?_ ?_) <;> [rfl; skip]))

theorem execArrayRotpt_via {p n : Nat} {x y : State} (hn : execArrayRotpt p n x = .next y) : Via (Instr.arrayRotpt p n).foot x y := by
  refine act_via (n := 0x41b0000030008000000000000000326b0f300000001003d116a) hn ?_
  try dsimp only
  repeat' (first
    | intro _ | (with_reducible apply within_bind) | (with_reducible exact within_pure _) | (with_reducible exact within_st)
    | ((with_reducible refine within_wr _ _ ?_); dsimp only; rfl) | split | ((with_reducible refine (restUnit_in ..).mono ?_); rfl)
    | ((with_reducible refine (retire_in ..).mono ?_); rfl) | ((with_reducible refine arrTurn_in ?_ ?_) <;> [rfl; skip])
    | (with_reducible exact arr_in ..))

theorem execArrayEnd_via {p n : Nat} {x y : State} (hn : execArrayEnd p n x = .next y) : Via (Instr.arrayEnd p n).foot x y := by
  refine act_via (n := 0x41b0000030008000000000000000326b0f300000001003d116a) hn ?_
  try dsimp only
  repeat' (first
    | intro _ | (with_reducible apply within_bind) | (with_reducible exact within_pure _) | (with_reducible exact within_rd _)
    | ((with_reducible refine within_wr _ _ ?_); dsimp only; rfl) | split | ((with_reducible refine (pushSlot_in ..).mono ?_); rfl)
    | ((with_reducible refine (refreshPhase_in ..).mono ?_); rfl) | ((with_reducible refine (restUnit_in ..).mono ?_); rfl)
    | ((with_reducible refine (stallP_in ..).mono ?_); rfl) | ((with_reducible refine (upArr_in ..).mono ?_); rfl)
    | ((with_reducible refine arrTurn_in ?_ ?_) <;> [rfl; skip]) | (with_reducible exact arr_in ..))

theorem execRotationComplete_via {unit : Nat} {phys : Nat} {phys2 : Nat} {x y : State} (hn : execRotationComplete unit phys phys2 x = .next y) :
    Via (Instr.rotationComplete unit phys phys2).foot x y := by
  refine act_via (n := 0x1b0400000008010000004000000000b0f000000001003d0060) hn ?_
  try dsimp only
  repeat' (first
    | intro _ | (with_reducible apply within_bind) | (with_reducible exact within_pure _) | (with_reducible exact within_st) | split
    | ((with_reducible refine (rotateArr_in ..).mono ?_); rfl) | ((with_reducible refine (rotateCore_in ..).mono ?_); rfl))

theorem execSlotPublish_via {p q : Nat} {x y : State} (hn : execSlotPublish p q x = .next y) : Via (Instr.slotPublish p q).foot x y := by
  refine act_via (n := 0x41b0000030008000000000000000326b0f300000001003d116a) hn ?_
  try dsimp only
  repeat' (first
    | intro _ | (with_reducible apply within_bind) | (with_reducible exact within_pure _) | (with_reducible exact within_st) | split
    | ((with_reducible refine (kickQ_in ..).mono ?_); rfl) | ((with_reducible refine (publishSlot_in ..).mono ?_); rfl))

theorem execSlotRelease_via {p q : Nat} {x y : State} (hn : execSlotRelease p q x = .next y) : Via (Instr.slotRelease p q).foot x y := by
  refine act_via (n := 0x41b0000030008000000000000000326b0f300000001003d116a) hn ?_
  try dsimp only
  repeat' (first
    | intro _ | (with_reducible apply within_bind) | (with_reducible exact within_pure _) | (with_reducible exact within_st) | split
    | ((with_reducible refine (kickQ_in ..).mono ?_); rfl) | ((with_reducible refine (releaseSlot_in ..).mono ?_); rfl))

theorem execCreditBatchReturn_via {p q : Nat} {x y : State} (hn : execCreditBatchReturn p q x = .next y) :
    Via (Instr.creditBatchReturn p q).foot x y := by
  refine act_via (n := 0x41b0000030008000000000000000326b0f300000001003f056a) hn ?_
  try dsimp only
  repeat' (first
    | intro _ | (with_reducible apply within_bind) | (with_reducible exact within_pure _) | (with_reducible exact within_st) | split
    | ((with_reducible refine (addCredit_in ..).mono ?_); rfl) | ((with_reducible refine (advTo_in ..).mono ?_); rfl)
    | ((with_reducible refine (groupCredit_in ..).mono ?_); rfl) | ((with_reducible refine (queuePkt_in ..).mono ?_); rfl)
    | ((with_reducible refine (upQue_in ..).mono ?_); rfl) | (with_reducible exact que_in ..) | (with_reducible exact seenAt_in ..))

theorem execNiSlotSend_via {p q : Nat} {f : Flt} {x y : State} (hn : execNiSlotSend p q f x = .next y) :
    Via (Instr.niSlotSend p q f).foot x y := by
  refine act_via (n := 0x41b0000030008000000000000000326b0f300000001003f316a) hn ?_
  try dsimp only
  repeat' (first
    | intro _ | (with_reducible apply within_bind) | (with_reducible exact within_pure _) | (with_reducible exact within_st)
    | ((with_reducible refine within_wr _ _ ?_); dsimp only; rfl) | split | ((with_reducible refine (applyUps_in ..).mono ?_); rfl)
    | ((with_reducible refine (deliverSlots_in ..).mono ?_); rfl) | ((with_reducible refine (lockPhase_in ..).mono ?_); rfl)
    | ((with_reducible refine (noteFault_in ..).mono ?_); rfl) | ((with_reducible refine (queuePkt_in ..).mono ?_); rfl)
    | ((with_reducible refine (readMem_in ..).mono ?_); rfl) | ((with_reducible refine (refreshEnds_in ..).mono ?_); rfl)
    | ((with_reducible refine (streamSend_in ..).mono ?_); rfl) | ((with_reducible refine (upQue_in ..).mono ?_); rfl))

theorem execStreamerNop_via {p k : Nat} {x y : State} (hn : execStreamerNop p k x = .next y) : Via (Instr.streamerNop p k).foot x y := by
  refine act_via (n := 0x41b0000030008000000000000000326b0f300000001003d11fa) hn ?_
  try dsimp only
  ((with_reducible refine (strRun_in ..).mono ?_); rfl)

theorem execStreamerCopy_via {p k : Nat} {f : Flt} {x y : State} (hn : execStreamerCopy p k f x = .next y) :
    Via (Instr.streamerCopy p k f).foot x y := by
  refine act_via (n := 0x41b0000030008000000000000000326b0f300000001003d11fa) hn ?_
  try dsimp only
  ((with_reducible refine (strRun_in ..).mono ?_); rfl)

theorem execGather_via {p k : Nat} {f : Flt} {x y : State} (hn : execGather p k f x = .next y) : Via (Instr.gather p k f).foot x y := by
  refine act_via (n := 0x41b0000030008000000000000000326b0f300000001003d11fa) hn ?_
  try dsimp only
  ((with_reducible refine (strRun_in ..).mono ?_); rfl)

theorem execScatter_via {p k : Nat} {f : Flt} {x y : State} (hn : execScatter p k f x = .next y) : Via (Instr.scatter p k f).foot x y := by
  refine act_via (n := 0x41b0000030008000000000000000326b0f300000001003d11fa) hn ?_
  try dsimp only
  ((with_reducible refine (strRun_in ..).mono ?_); rfl)

theorem execPgather_via {p k : Nat} {f : Flt} {x y : State} (hn : execPgather p k f x = .next y) : Via (Instr.pgather p k f).foot x y := by
  refine act_via (n := 0x41b0000030008000000000000000326b0f300000001003d11fa) hn ?_
  try dsimp only
  ((with_reducible refine (strRun_in ..).mono ?_); rfl)

theorem execPscatter_via {p k : Nat} {f : Flt} {x y : State} (hn : execPscatter p k f x = .next y) :
    Via (Instr.pscatter p k f).foot x y := by
  refine act_via (n := 0x41b0000030008000000000000000326b0f300000001003d11fa) hn ?_
  try dsimp only
  ((with_reducible refine (strRun_in ..).mono ?_); rfl)

theorem execSync_via {p k : Nat} {x y : State} (hn : execSync p k x = .next y) : Via (Instr.sync p k).foot x y := by
  refine act_via (n := 0x41b0000030008000000000000000326b0f300000001003d11fa) hn ?_
  try dsimp only
  ((with_reducible refine (strRun_in ..).mono ?_); rfl)

theorem execStreamerEnd_via {p k : Nat} {x y : State} (hn : execStreamerEnd p k x = .next y) : Via (Instr.streamerEnd p k).foot x y := by
  refine act_via (n := 0x41b0000030008000000000000000326b0f300000001003d11ea) hn ?_
  try dsimp only
  repeat' (first
    | intro _ | ((with_reducible refine (strEnd_in ..).mono ?_); rfl) | ((with_reducible refine strTurn_in ?_ ?_) <;> [rfl; skip]))

theorem execSlopeGrant_via {d : Nat} {x y : State} (hn : execSlopeGrant d x = .next y) : Via (Instr.slopeGrant d).foot x y := by
  refine act_via (n := 0x41b0000030008000000000000000326b0f300000001003d156a) hn ?_
  try dsimp only
  repeat' (first
    | intro _ | (with_reducible apply within_bind) | (with_reducible exact within_pure _) | (with_reducible exact within_st)
    | (with_reducible exact within_rd _) | (with_reducible apply within_when)
    | ((with_reducible refine within_eff _ ?_); dsimp only [Eff.tag]; rfl) | split | ((with_reducible refine (advTo_in ..).mono ?_); rfl)
    | ((with_reducible refine (arrWork_in ..).mono ?_); rfl) | ((with_reducible refine (mark_in ..).mono ?_); rfl))

theorem execBrambleAction_via {slot opid : Nat} {x y : State} (hn : execBrambleAction slot opid x = .next y) :
    Via (Instr.brambleAction slot opid).foot x y := by
  refine act_via (n := 0x1b0000000008c00000000000000000b0f000000001003d0420) hn ?_
  try dsimp only
  repeat' (first
    | intro _ | (with_reducible apply within_bind) | (with_reducible exact within_pure _) | (with_reducible exact within_st)
    | ((with_reducible refine within_eff _ ?_); dsimp only [Eff.tag]; rfl) | split | ((with_reducible refine (advTo_in ..).mono ?_); rfl)
    | ((with_reducible refine (contextRung_in ..).mono ?_); rfl) | ((with_reducible refine (rungTaken_in ..).mono ?_); rfl))

theorem execEwcInstruction_via {p g : Nat} {op : EwcOp} {f : Flt} {x y : State} (hn : execEwcInstruction p g op f x = .next y) :
    Via (Instr.ewcInstruction p g op f).foot x y := by
  refine act_via (n := 0x41b0000030008000000000000000326b0f000000001003d316a) hn ?_
  try dsimp only
  repeat' (first
    | ((with_reducible refine (ewcBody_in ..).mono ?_); rfl) | ((with_reducible refine coreTurn_in ?_ ?_) <;> [rfl; skip]))

theorem execCsrr_via {p g : Nat} {xd csr : Nat} {f : Flt} {x y : State} (hn : execCsrr p g xd csr f x = .next y) :
    Via (Instr.csrr p g xd csr f).foot x y := by
  refine act_via (n := 0x41b0000030008000000000000000326b0f000000001003d116a) hn ?_
  try dsimp only
  repeat' (first
    | intro _ | (with_reducible apply within_bind) | (with_reducible exact within_st) | split
    | ((with_reducible refine (coreIllegal_in ..).mono ?_); rfl) | ((with_reducible refine (coreNext_in ..).mono ?_); rfl)
    | ((with_reducible refine (upCore_in ..).mono ?_); rfl) | ((with_reducible refine coreTurn_in ?_ ?_) <;> [rfl; skip]))

theorem execCsrw_via {p g : Nat} {csr xs : Nat} {f : Flt} {x y : State} (hn : execCsrw p g csr xs f x = .next y) :
    Via (Instr.csrw p g csr xs f).foot x y := by
  refine act_via (n := 0x41b0000030008000000000000000326f0f000000001003d116a) hn ?_
  try dsimp only
  repeat' (first
    | intro _ | (with_reducible apply within_bind) | (with_reducible exact within_st) | split
    | ((with_reducible refine (coreIllegal_in ..).mono ?_); rfl) | ((with_reducible refine (coreNext_in ..).mono ?_); rfl)
    | ((with_reducible refine (csrPut_in ..).mono ?_); rfl) | ((with_reducible refine coreTurn_in ?_ ?_) <;> [rfl; skip])
    | (with_reducible exact core_in ..))

theorem execEi_via {p g : Nat} {f : Flt} {x y : State} (hn : execEi p g f x = .next y) : Via (Instr.ei p g f).foot x y := by
  refine act_via (n := 0x41b0000030008000000000000000326b0f000000001003d116a) hn ?_
  try dsimp only
  repeat' (first
    | intro _ | (with_reducible apply within_bind) | ((with_reducible refine (coreNext_in ..).mono ?_); rfl)
    | ((with_reducible refine (upCore_in ..).mono ?_); rfl) | ((with_reducible refine coreTurn_in ?_ ?_) <;> [rfl; skip]))

theorem execDi_via {p g : Nat} {f : Flt} {x y : State} (hn : execDi p g f x = .next y) : Via (Instr.di p g f).foot x y := by
  refine act_via (n := 0x41b0000030008000000000000000326b0f000000001003d116a) hn ?_
  try dsimp only
  repeat' (first
    | intro _ | (with_reducible apply within_bind) | ((with_reducible refine (coreNext_in ..).mono ?_); rfl)
    | ((with_reducible refine (upCore_in ..).mono ?_); rfl) | ((with_reducible refine coreTurn_in ?_ ?_) <;> [rfl; skip]))

theorem execIret_via {p g : Nat} {f : Flt} {x y : State} (hn : execIret p g f x = .next y) : Via (Instr.iret p g f).foot x y := by
  refine act_via (n := 0x41b0000030008000000000000000326b0f000000001003d116a) hn ?_
  try dsimp only
  repeat' (first
    | intro _ | (with_reducible apply within_bind) | ((with_reducible refine within_wr _ _ ?_); dsimp only; rfl) | split
    | ((with_reducible refine (coreIllegal_in ..).mono ?_); rfl) | ((with_reducible refine (coreJump_in ..).mono ?_); rfl)
    | ((with_reducible refine (upCore_in ..).mono ?_); rfl) | ((with_reducible refine coreTurn_in ?_ ?_) <;> [rfl; skip])
    | (with_reducible exact core_in ..))

theorem execWfi_via {p g : Nat} {f : Flt} {x y : State} (hn : execWfi p g f x = .next y) : Via (Instr.wfi p g f).foot x y := by
  refine act_via (n := 0x41b0000030008000000000000000326b0f000000001003d116a) hn ?_
  try dsimp only
  repeat' (first
    | intro _ | (with_reducible apply within_bind) | (with_reducible exact within_rd _) | (with_reducible apply within_when)
    | ((with_reducible refine within_wr _ _ ?_); dsimp only; rfl) | ((with_reducible refine (coreNext_in ..).mono ?_); rfl)
    | ((with_reducible refine coreTurn_in ?_ ?_) <;> [rfl; skip]))

theorem execQwait_via {p g : Nat} {xd q : Nat} {f : Flt} {x y : State} (hn : execQwait p g xd q f x = .next y) :
    Via (Instr.qwait p g xd q f).foot x y := by
  refine act_via (n := 0x41b0000030008000000000000000326b0f000000001003d116a) hn ?_
  try dsimp only
  repeat' (first
    | intro _ | (with_reducible apply within_bind) | (with_reducible exact within_st) | split
    | ((with_reducible refine (coreIllegal_in ..).mono ?_); rfl) | ((with_reducible refine (coreTake_in ..).mono ?_); rfl)
    | ((with_reducible refine (stallC_in ..).mono ?_); rfl) | ((with_reducible refine coreTurn_in ?_ ?_) <;> [rfl; skip])
    | (with_reducible exact core_in ..))

theorem execQrel_via {p g : Nat} {q : Nat} {f : Flt} {x y : State} (hn : execQrel p g q f x = .next y) :
    Via (Instr.qrel p g q f).foot x y := by
  refine act_via (n := 0x41b0000030008000000000000000326b0f300000001003d116a) hn ?_
  try dsimp only
  repeat' (first
    | intro _ | (with_reducible apply within_bind) | (with_reducible exact within_st) | split
    | ((with_reducible refine (coreIllegal_in ..).mono ?_); rfl) | ((with_reducible refine (coreNext_in ..).mono ?_); rfl)
    | ((with_reducible refine (kickQ_in ..).mono ?_); rfl) | ((with_reducible refine (releaseSlot_in ..).mono ?_); rfl)
    | ((with_reducible refine (upCore_in ..).mono ?_); rfl) | ((with_reducible refine coreTurn_in ?_ ?_) <;> [rfl; skip])
    | (with_reducible exact core_in ..))

theorem execQacq_via {p g : Nat} {xd q : Nat} {f : Flt} {x y : State} (hn : execQacq p g xd q f x = .next y) :
    Via (Instr.qacq p g xd q f).foot x y := by
  refine act_via (n := 0x41b0000030008000000000000000326b0f000000001003d116a) hn ?_
  try dsimp only
  repeat' (first
    | intro _ | (with_reducible apply within_bind) | (with_reducible exact within_st) | split
    | ((with_reducible refine (coreAcquire_in ..).mono ?_); rfl) | ((with_reducible refine (coreIllegal_in ..).mono ?_); rfl)
    | ((with_reducible refine (stallP_in ..).mono ?_); rfl) | ((with_reducible refine coreTurn_in ?_ ?_) <;> [rfl; skip])
    | (with_reducible exact core_in ..))

theorem execQpub_via {p g : Nat} {q : Nat} {f : Flt} {x y : State} (hn : execQpub p g q f x = .next y) :
    Via (Instr.qpub p g q f).foot x y := by
  refine act_via (n := 0x41b0000030008000000000000000326b0f300000001003d116a) hn ?_
  try dsimp only
  repeat' (first
    | intro _ | (with_reducible apply within_bind) | (with_reducible exact within_st) | split
    | ((with_reducible refine (coreIllegal_in ..).mono ?_); rfl) | ((with_reducible refine (coreNext_in ..).mono ?_); rfl)
    | ((with_reducible refine (kickQ_in ..).mono ?_); rfl) | ((with_reducible refine (publishSlot_in ..).mono ?_); rfl)
    | ((with_reducible refine (upCore_in ..).mono ?_); rfl) | ((with_reducible refine coreTurn_in ?_ ?_) <;> [rfl; skip])
    | (with_reducible exact core_in ..))

theorem execQpoll_via {p g : Nat} {xd q : Nat} {f : Flt} {x y : State} (hn : execQpoll p g xd q f x = .next y) :
    Via (Instr.qpoll p g xd q f).foot x y := by
  refine act_via (n := 0x41b0000030008000000000000000326b0f000000001003d116a) hn ?_
  try dsimp only
  repeat' (first
    | intro _ | (with_reducible apply within_bind) | (with_reducible exact within_st) | split
    | ((with_reducible refine (coreIllegal_in ..).mono ?_); rfl) | ((with_reducible refine (coreNext_in ..).mono ?_); rfl)
    | ((with_reducible refine (coreTake_in ..).mono ?_); rfl) | ((with_reducible refine (upCore_in ..).mono ?_); rfl)
    | ((with_reducible refine coreTurn_in ?_ ?_) <;> [rfl; skip]) | (with_reducible exact core_in ..))

theorem execQtry_via {p g : Nat} {xd q : Nat} {f : Flt} {x y : State} (hn : execQtry p g xd q f x = .next y) :
    Via (Instr.qtry p g xd q f).foot x y := by
  refine act_via (n := 0x41b0000030008000000000000000326b0f000000001003d116a) hn ?_
  try dsimp only
  repeat' (first
    | intro _ | (with_reducible apply within_bind) | (with_reducible exact within_st) | split
    | ((with_reducible refine (coreAcquire_in ..).mono ?_); rfl) | ((with_reducible refine (coreIllegal_in ..).mono ?_); rfl)
    | ((with_reducible refine (coreNext_in ..).mono ?_); rfl) | ((with_reducible refine (upCore_in ..).mono ?_); rfl)
    | ((with_reducible refine coreTurn_in ?_ ?_) <;> [rfl; skip]) | (with_reducible exact core_in ..))

theorem execCorePostq_via {p g : Nat} {q xs : Nat} {f : Flt} {x y : State} (hn : execCorePostq p g q xs f x = .next y) :
    Via (Instr.corePostq p g q xs f).foot x y := by
  refine act_via (n := 0x41b0000030008000000000000000326b0f300000001003d116a) hn ?_
  try dsimp only
  repeat' (first
    | intro _ | (with_reducible apply within_bind) | (with_reducible exact within_st) | split
    | ((with_reducible refine (coreIllegal_in ..).mono ?_); rfl) | ((with_reducible refine (coreNext_in ..).mono ?_); rfl)
    | ((with_reducible refine (kickQ_in ..).mono ?_); rfl) | ((with_reducible refine (publishSlot_in ..).mono ?_); rfl)
    | ((with_reducible refine (pushSlot_in ..).mono ?_); rfl) | ((with_reducible refine (stallP_in ..).mono ?_); rfl)
    | ((with_reducible refine coreTurn_in ?_ ?_) <;> [rfl; skip]) | (with_reducible exact core_in ..))

theorem execMboxw_via {p g : Nat} {tgt n xs : Nat} {f : Flt} {x y : State} (hn : execMboxw p g tgt n xs f x = .next y) :
    Via (Instr.mboxw p g tgt n xs f).foot x y := by
  refine act_via (n := 0x41b0000030008000000000000000327b0f000000001003d116a) hn ?_
  try dsimp only
  repeat' (first
    | intro _ | (with_reducible apply within_bind) | ((with_reducible refine (coreNext_in ..).mono ?_); rfl)
    | ((with_reducible refine (mboxPut_in ..).mono ?_); rfl) | ((with_reducible refine coreTurn_in ?_ ?_) <;> [rfl; skip])
    | (with_reducible exact core_in ..))

theorem execMboxr_via {p g : Nat} {xd n : Nat} {f : Flt} {x y : State} (hn : execMboxr p g xd n f x = .next y) :
    Via (Instr.mboxr p g xd n f).foot x y := by
  refine act_via (n := 0x41b0000030008000000000000000327b0f000000001003d116a) hn ?_
  try dsimp only
  repeat' (first
    | intro _ | (with_reducible apply within_bind) | (with_reducible exact within_rd _)
    | ((with_reducible refine within_wr _ _ ?_); dsimp only; rfl) | ((with_reducible refine (coreNext_in ..).mono ?_); rfl)
    | ((with_reducible refine (refreshCore_in ..).mono ?_); rfl) | ((with_reducible refine (upCore_in ..).mono ?_); rfl)
    | ((with_reducible refine coreTurn_in ?_ ?_) <;> [rfl; skip]))

theorem execCoreRotpt_via {p g : Nat} {f : Flt} {x y : State} (hn : execCoreRotpt p g f x = .next y) :
    Via (Instr.coreRotpt p g f).foot x y := by
  refine act_via (n := 0x41b0000030008000000000000000326b0f000000001003d116a) hn ?_
  try dsimp only
  repeat' (first
    | intro _ | (with_reducible apply within_bind) | (with_reducible exact within_st) | split
    | ((with_reducible refine (coreNext_in ..).mono ?_); rfl) | ((with_reducible refine coreTurn_in ?_ ?_) <;> [rfl; skip])
    | (with_reducible exact core_in ..) | exact wr_in _ rfl (stFld_bit _ (by rfl) (by rfl) (by rfl)))

theorem execCoreEnd_via {p g : Nat} {f : Flt} {x y : State} (hn : execCoreEnd p g f x = .next y) : Via (Instr.coreEnd p g f).foot x y := by
  refine act_via (n := 0x41b0000030008000000000000000326b0f000000001003d116a) hn ?_
  try dsimp only
  repeat' (first
    | intro _ | (with_reducible apply within_bind) | (with_reducible exact within_pure _) | (with_reducible exact within_st)
    | (with_reducible exact within_rd _) | split | ((with_reducible refine (coreIllegal_in ..).mono ?_); rfl)
    | ((with_reducible refine (publishSlot_in ..).mono ?_); rfl) | ((with_reducible refine (pushSlot_in ..).mono ?_); rfl)
    | ((with_reducible refine (refreshPhase_in ..).mono ?_); rfl) | ((with_reducible refine (stallP_in ..).mono ?_); rfl)
    | ((with_reducible refine (upCore_in ..).mono ?_); rfl) | ((with_reducible refine coreTurn_in ?_ ?_) <;> [rfl; skip])
    | (with_reducible exact core_in ..) | exact wr_in _ rfl (stFld_bit _ (by rfl) (by rfl) (by rfl)))

theorem execInterruptEntry_via {p g : Nat} {f : Flt} {x y : State} (hn : execInterruptEntry p g f x = .next y) :
    Via (Instr.interruptEntry p g f).foot x y := by
  refine act_via (n := 0x1b0000000008000000000000000000b0f000000001003d0060) hn ?_
  try dsimp only
  repeat' (first
    | intro _ | (with_reducible apply within_bind) | (with_reducible exact within_pure _) | (with_reducible exact within_st)
    | ((with_reducible refine within_wr _ _ ?_); dsimp only; rfl) | ((with_reducible refine setF_in _ rfl ?_); dsimp only; rfl) | split
    | ((with_reducible refine (coreJump_in ..).mono ?_); rfl) | ((with_reducible refine (coreUnwait_in ..).mono ?_); rfl)
    | ((with_reducible refine (upCore_in ..).mono ?_); rfl)
    | ((with_reducible refine coreFail_in _ rfl ?_ ?_) <;> [(dsimp only; rfl); rfl]) | (with_reducible exact core_in ..))

theorem execTimerFire_via {p g t : Nat} {x y : State} (hn : execTimerFire p g t x = .next y) : Via (Instr.timerFire p g t).foot x y := by
  refine act_via (n := 0xa0000000000000000440) hn ?_
  try dsimp only
  repeat' (first
    | intro _ | (with_reducible apply within_bind) | (with_reducible exact within_pure _) | (with_reducible exact within_st)
    | ((with_reducible refine within_eff _ ?_); dsimp only [Eff.tag]; rfl) | split
    | ((with_reducible refine (refreshCore_in ..).mono ?_); rfl) | ((with_reducible refine (upCore_in ..).mono ?_); rfl)
    | (with_reducible exact core_in ..))

theorem execMboxWrite_via {src : Src} {p g n : Nat} {v : BitVec 32} {x y : State} (hn : execMboxWrite src p g n v x = .next y) :
    Via (Instr.mboxWrite src p g n v).foot x y := by
  refine act_via (n := 0x1b0000000008000000000000000003a0000000000100300000) hn ?_
  try dsimp only
  repeat' (first
    | ((with_reducible refine (putMbox_in ..).mono ?_); rfl) | ((with_reducible refine barReg_in ?_ ?_) <;> [rfl; skip]))

theorem execServiceCoreWatchdog_via {pair : Nat} {x y : State} (hn : execServiceCoreWatchdog pair x = .next y) :
    Via (Instr.serviceCoreWatchdog pair).foot x y := by
  refine act_via (n := 0x101b0000000008c009b400000000000000000000000107ff9a1d) hn ?_
  try dsimp only
  ((with_reducible refine (servicePair_in ..).mono ?_); rfl)

theorem execLockstepMismatch_via {pair : Nat} {x y : State} (hn : execLockstepMismatch pair x = .next y) :
    Via (Instr.lockstepMismatch pair).foot x y := by
  refine act_via (n := 0x101b0000000008c009b400000000000000000000000107ff9a1d) hn ?_
  try dsimp only
  ((with_reducible refine (servicePair_in ..).mono ?_); rfl)

theorem execImpedanceCalibration_via {c : Nat} {x y : State} (hn : execImpedanceCalibration c x = .next y) :
    Via (Instr.impedanceCalibration c).foot x y := by
  refine act_via (n := 0x1400) hn ?_
  try dsimp only
  repeat' (first
    | intro _ | (with_reducible apply within_bind) | (with_reducible exact within_st) | (with_reducible apply within_when)
    | ((with_reducible refine (periodic_in ..).mono ?_); rfl))

theorem execDriftCheck_via {c : Nat} {drifted : Bool} {x y : State} (hn : execDriftCheck c drifted x = .next y) :
    Via (Instr.driftCheck c drifted).foot x y := by
  refine act_via (n := 0x1408) hn ?_
  try dsimp only
  repeat' (first
    | intro _ | (with_reducible apply within_bind) | (with_reducible exact within_pure _) | (with_reducible exact within_st)
    | (with_reducible apply within_when) | ((with_reducible refine within_eff _ ?_); dsimp only [Eff.tag]; rfl) | split
    | ((with_reducible refine (periodic_in ..).mono ?_); rfl))

theorem execRetune_via {c : Nat} {ok : Bool} {x y : State} (hn : execRetune c ok x = .next y) : Via (Instr.retune c ok).foot x y := by
  refine act_via (n := 0x101b0000000008c01030006000080044b0f000000001003f963d) hn ?_
  try dsimp only
  repeat' (first
    | intro _ | (with_reducible apply within_bind) | (with_reducible exact within_pure _) | (with_reducible exact within_st)
    | (with_reducible apply within_when) | ((with_reducible refine within_eff _ ?_); dsimp only [Eff.tag]; rfl)
    | ((with_reducible refine within_wr _ _ ?_); dsimp only; rfl) | ((with_reducible refine setF_in _ rfl ?_); dsimp only; rfl)
    | ((with_reducible refine incWrap_in _ rfl ?_); dsimp only; rfl) | split | ((with_reducible refine (advTo_in ..).mono ?_); rfl)
    | ((with_reducible refine (climbPartition_in ..).mono ?_); rfl) | ((with_reducible refine (mark_in ..).mono ?_); rfl)
    | ((with_reducible refine faultCond_in _ rfl ?_ ?_) <;> [(dsimp only; rfl); rfl]))

theorem execScrubVisit_via {a : Nat} {ups : List Upset} {x y : State} (hn : execScrubVisit a ups x = .next y) :
    Via (Instr.scrubVisit a ups).foot x y := by
  refine act_via (n := 0x41b0000030008000000000000000136a000000000010038004a) hn ?_
  try dsimp only
  repeat' (first
    | intro _ | (with_reducible apply within_bind) | (with_reducible exact within_st) | split
    | ((with_reducible refine (applyUps_in ..).mono ?_); rfl) | ((with_reducible refine (memVisit_in ..).mono ?_); rfl)
    | ((with_reducible refine (tableVisit_in ..).mono ?_); rfl))

theorem execScrubLate_via {t : Nat} {x y : State} (hn : execScrubLate t x = .next y) : Via (Instr.scrubLate t).foot x y := by
  refine act_via (n := 0x1b000000000800000000000000001000000000000100300408) hn ?_
  try dsimp only
  repeat' (first
    | intro _ | (with_reducible apply within_bind) | (with_reducible exact within_pure _) | (with_reducible exact within_st)
    | ((with_reducible refine setF_in _ rfl ?_); dsimp only; rfl) | split | ((with_reducible refine (advTo_in ..).mono ?_); rfl)
    | ((with_reducible refine (ev_in ..).mono ?_); rfl) | ((with_reducible refine (setPass_in ..).mono ?_); rfl))

theorem execMemRestored_via {a : Nat} {x y : State} (hn : execMemRestored a x = .next y) : Via (Instr.memRestored a).foot x y := by
  refine act_via (n := 0x41b0000030008000000000000000326a000000000010038004a) hn ?_
  try dsimp only
  repeat' (first
    | intro _ | (with_reducible apply within_bind) | (with_reducible exact within_pure _) | (with_reducible exact within_st)
    | ((with_reducible refine within_eff _ ?_); dsimp only [Eff.tag]; rfl) | split | ((with_reducible refine (ev_in ..).mono ?_); rfl)
    | ((with_reducible refine (readVault_in ..).mono ?_); rfl) | ((with_reducible refine (writeMem_in ..).mono ?_); rfl))

theorem execPatrolRead_via {page : Nat} {beyond : Bool} {x y : State} (hn : execPatrolRead page beyond x = .next y) :
    Via (Instr.patrolRead page beyond).foot x y := by
  refine act_via (n := 0x8) hn ?_
  try dsimp only
  repeat' (first
    | (with_reducible apply within_when) | ((with_reducible refine within_eff _ ?_); dsimp only [Eff.tag]; rfl))

theorem execBar4Read_via {off len : Nat} {ide : Bool} {ups : List Upset} {x y : State} (hn : execBar4Read off len ide ups x = .next y) :
    Via (Instr.bar4Read off len ide ups).foot x y := by
  refine act_via (n := 0x41b0000030008000000000000000326a000000000010038004a) hn ?_
  try dsimp only
  repeat' (first
    | intro _ | (with_reducible apply within_bind) | (with_reducible exact within_st)
    | ((with_reducible refine setF_in _ rfl ?_); dsimp only; rfl) | split | ((with_reducible refine (applyUps_in ..).mono ?_); rfl)
    | ((with_reducible refine (readMem_in ..).mono ?_); rfl) | ((with_reducible refine (send_in ..).mono ?_); rfl)
    | ((with_reducible refine (writeRec_in ..).mono ?_); rfl))

theorem execBar4Write_via {off : Nat} {data : List Byte} {ide : Bool} {x y : State} (hn : execBar4Write off data ide x = .next y) :
    Via (Instr.bar4Write off data ide).foot x y := by
  refine act_via (n := 0x41b0000030008000000000000000126a000000000010038004a) hn ?_
  try dsimp only
  repeat' (first
    | intro _ | (with_reducible apply within_bind) | (with_reducible exact within_pure _) | (with_reducible exact within_st)
    | ((with_reducible refine setF_in _ rfl ?_); dsimp only; rfl) | split | ((with_reducible refine (postedWrite_in ..).mono ?_); rfl)
    | ((with_reducible refine (send_in ..).mono ?_); rfl) | ((with_reducible refine (writeMem_in ..).mono ?_); rfl)
    | ((with_reducible refine (writeRec_in ..).mono ?_); rfl))

theorem execRingEnable_via {src : Src} {n : Nat} {x y : State} (hn : execRingEnable src n x = .next y) :
    Via (Instr.ringEnable src n).foot x y := by
  refine act_via (n := 0x1b00000000080000000000000e8000b0f00000000100352030) hn ?_
  try dsimp only
  repeat' (first
    | intro _ | ((with_reducible refine (putRingCfg_in ..).mono ?_); rfl) | ((with_reducible refine barField_in ?_ ?_) <;> [rfl; skip]))

theorem execRingDisable_via {src : Src} {n : Nat} {x y : State} (hn : execRingDisable src n x = .next y) :
    Via (Instr.ringDisable src n).foot x y := by
  refine act_via (n := 0x1b00000000080000000000000e8000b0f00000000100352030) hn ?_
  try dsimp only
  repeat' (first
    | intro _ | ((with_reducible refine (putRingCfg_in ..).mono ?_); rfl) | ((with_reducible refine barField_in ?_ ?_) <;> [rfl; skip]))

theorem execSqTail_via {n : Nat} {v : BitVec 32} {x y : State} (hn : execSqTail n v x = .next y) : Via (Instr.sqTail n v).foot x y := by
  refine act_via (n := 0x1b000000000800000000000002000000000000000100310000) hn ?_
  try dsimp only
  repeat' (first
    | intro _ | (with_reducible apply within_bind) | (with_reducible exact within_st) | split
    | ((with_reducible refine (ringError_in ..).mono ?_); rfl) | ((with_reducible refine (upRing_in ..).mono ?_); rfl)
    | ((with_reducible refine doorbell_in ?_ ?_) <;> [rfl; skip]))

theorem execCqHead_via {n : Nat} {v : BitVec 32} {x y : State} (hn : execCqHead n v x = .next y) : Via (Instr.cqHead n v).foot x y := by
  refine act_via (n := 0x1b000000000800000000000002000000000000000100310000) hn ?_
  try dsimp only
  repeat' (first
    | intro _ | (with_reducible apply within_bind) | (with_reducible exact within_st) | split
    | ((with_reducible refine (ringError_in ..).mono ?_); rfl) | ((with_reducible refine (upRing_in ..).mono ?_); rfl)
    | ((with_reducible refine doorbell_in ?_ ?_) <;> [rfl; skip]))

theorem execDescriptorFetch_via {d : HostData} {x y : State} (hn : execDescriptorFetch d x = .next y) :
    Via (Instr.descriptorFetch d).foot x y := by
  refine act_via (n := 0x6000000000000000000010000) hn ?_
  try dsimp only
  repeat' (first
    | intro _ | (with_reducible apply within_bind) | (with_reducible exact within_pure _) | (with_reducible exact within_st)
    | (with_reducible apply within_when) | ((with_reducible refine within_eff _ ?_); dsimp only [Eff.tag]; rfl)
    | ((with_reducible refine within_wr _ _ ?_); dsimp only; rfl) | split | ((with_reducible refine (failOp_in ..).mono ?_); rfl)
    | ((with_reducible refine (ringError_in ..).mono ?_); rfl) | ((with_reducible refine (upRing_in ..).mono ?_); rfl))

theorem execCompletionWrite_via {opid : Nat} {refused : Bool} {x y : State} (hn : execCompletionWrite opid refused x = .next y) :
    Via (Instr.completionWrite opid refused).foot x y := by
  refine act_via (n := 0x101b000000000800000000000006000000000000000100313000) hn ?_
  try dsimp only
  repeat' (first
    | intro _ | (with_reducible apply within_bind) | (with_reducible exact within_pure _) | (with_reducible exact within_st)
    | (with_reducible apply within_when) | ((with_reducible refine within_wr _ _ ?_); dsimp only; rfl) | split
    | ((with_reducible refine (discardOp_in ..).mono ?_); rfl) | ((with_reducible refine (dropOp_in ..).mono ?_); rfl)
    | ((with_reducible refine (entryIrq_in ..).mono ?_); rfl) | ((with_reducible refine (ringError_in ..).mono ?_); rfl)
    | ((with_reducible refine (send_in ..).mono ?_); rfl) | ((with_reducible refine (upRing_in ..).mono ?_); rfl))

theorem execMsixCoalesceTimer_via {n : Nat} {x y : State} (hn : execMsixCoalesceTimer n x = .next y) :
    Via (Instr.msixCoalesceTimer n).foot x y := by
  refine act_via (n := 0x1000000000000000000000000000000000000000000100010400) hn ?_
  try dsimp only
  repeat' (first
    | intro _ | (with_reducible apply within_bind) | (with_reducible exact within_pure _) | (with_reducible exact within_st) | split
    | ((with_reducible refine (advTo_in ..).mono ?_); rfl) | ((with_reducible refine (ringMessage_in ..).mono ?_); rfl)
    | (with_reducible exact seenAt_in ..))

theorem execNop_via {opid : Nat} {x y : State} (hn : execNop opid x = .next y) : Via (Instr.nop opid).foot x y := by
  refine act_via (n := 0x10000) hn ?_
  try dsimp only
  repeat' (first
    | intro _ | ((with_reducible refine (doneOp_in ..).mono ?_); rfl) | ((with_reducible refine withOp_in ?_ ?_) <;> [rfl; skip]))

theorem execRunPhase_via {opid : Nat} {x y : State} (hn : execRunPhase opid x = .next y) : Via (Instr.runPhase opid).foot x y := by
  refine act_via (n := 0x41b0000030008000000000000080326b0fc00000001003901ea) hn ?_
  try dsimp only
  repeat' (first
    | intro _ | (with_reducible apply within_bind) | (with_reducible exact within_st) | split
    | ((with_reducible refine (bindPhase_in ..).mono ?_); rfl) | ((with_reducible refine (failOp_in ..).mono ?_); rfl)
    | ((with_reducible refine withOp_in ?_ ?_) <;> [rfl; skip]))

theorem execFabricAdmitDeadline_via {slot : Nat} {x y : State} (hn : execFabricAdmitDeadline slot x = .next y) :
    Via (Instr.fabricAdmitDeadline slot).foot x y := by
  refine act_via (n := 0x41b0000030008000000004000000326b0f300000001003d156a) hn ?_
  try dsimp only
  repeat' (first
    | intro _ | (with_reducible apply within_bind) | (with_reducible exact within_pure _) | (with_reducible exact within_st) | split
    | ((with_reducible refine (admitPhase_in ..).mono ?_); rfl) | ((with_reducible refine (advTo_in ..).mono ?_); rfl))

theorem execPhaseEnd_via {slot : Nat} {x y : State} (hn : execPhaseEnd slot x = .next y) : Via (Instr.phaseEnd slot).foot x y := by
  refine act_via (n := 0x1b0000000008000000004000080000a01400000001003581e0) hn ?_
  try dsimp only
  repeat' (first
    | intro _ | (with_reducible apply within_bind) | (with_reducible exact within_pure _) | (with_reducible exact within_st)
    | (with_reducible apply within_when) | (with_reducible apply within_each) | split
    | ((with_reducible refine (drainDone_in).mono ?_); rfl) | ((with_reducible refine (dropQueue_in ..).mono ?_); rfl)
    | ((with_reducible refine (lockOp_in ..).mono ?_); rfl) | ((with_reducible refine (retarget_in).mono ?_); rfl)
    | ((with_reducible refine (settle_in ..).mono ?_); rfl) | ((with_reducible refine (slotAfter_in ..).mono ?_); rfl)
    | ((with_reducible refine (unbindUnit_in ..).mono ?_); rfl) | ((with_reducible refine (upCtx_in ..).mono ?_); rfl))

theorem execCopy_via {opid : Nat} {d : HostData} {f : Flt} {x y : State} (hn : execCopy opid d f x = .next y) :
    Via (Instr.copy opid d f).foot x y := by
  refine act_via (n := 0x41b0000030008000000000000000326a000000000010039004a) hn ?_
  try dsimp only
  repeat' (first
    | intro _ | (with_reducible apply within_bind) | (with_reducible exact within_pure _)
    | ((with_reducible refine setF_in _ rfl ?_); dsimp only; rfl) | split | ((with_reducible refine (applyUps_in ..).mono ?_); rfl)
    | ((with_reducible refine (doneOp_in ..).mono ?_); rfl) | ((with_reducible refine (failOp_in ..).mono ?_); rfl)
    | ((with_reducible refine (readMem_in ..).mono ?_); rfl) | ((with_reducible refine (send_in ..).mono ?_); rfl)
    | ((with_reducible refine (writeMem_in ..).mono ?_); rfl) | ((with_reducible refine withOp_in ?_ ?_) <;> [rfl; skip]))

theorem execLoadImage_via {opid : Nat} {d : HostData} {x y : State} (hn : execLoadImage opid d x = .next y) :
    Via (Instr.loadImage opid d).foot x y := by
  refine act_via (n := 0x2000000000000000401001a) hn ?_
  try dsimp only
  repeat' (first
    | intro _ | (with_reducible apply within_bind) | (with_reducible exact within_pure _) | (with_reducible exact within_st)
    | (with_reducible apply within_when) | ((with_reducible refine within_eff _ ?_); dsimp only [Eff.tag]; rfl)
    | ((with_reducible refine setF_in _ rfl ?_); dsimp only; rfl) | split | ((with_reducible refine (beginInstall_in ..).mono ?_); rfl)
    | ((with_reducible refine (failOp_in ..).mono ?_); rfl) | ((with_reducible refine (lockOp_in ..).mono ?_); rfl)
    | ((with_reducible refine (pageWrite_in ..).mono ?_); rfl) | ((with_reducible refine (upOp_in ..).mono ?_); rfl)
    | ((with_reducible refine (wearTake_in ..).mono ?_); rfl) | ((with_reducible refine withOp_in ?_ ?_) <;> [rfl; skip]))

theorem execImageVerify_via {opid : Nat} {x y : State} (hn : execImageVerify opid x = .next y) : Via (Instr.imageVerify opid).foot x y := by
  refine act_via (n := 0x41b000000000800000000000000030400000000000104310018) hn ?_
  try dsimp only
  repeat' (first
    | intro _ | (with_reducible apply within_bind) | (with_reducible exact within_pure _) | (with_reducible exact within_st)
    | ((with_reducible refine within_eff _ ?_); dsimp only [Eff.tag]; rfl) | split | ((with_reducible refine (doneOp_in ..).mono ?_); rfl)
    | ((with_reducible refine (failOp_in ..).mono ?_); rfl) | ((with_reducible refine (markSlot_in ..).mono ?_); rfl)
    | ((with_reducible refine (readVault_in ..).mono ?_); rfl))

theorem execBindContext_via {opid : Nat} {x y : State} (hn : execBindContext opid x = .next y) : Via (Instr.bindContext opid).foot x y := by
  refine act_via (n := 0x41b000000000800000000000008030400000000000100350008) hn ?_
  try dsimp only
  repeat' (first
    | intro _ | (with_reducible apply within_bind) | (with_reducible exact within_st)
    | ((with_reducible refine within_eff _ ?_); dsimp only [Eff.tag]; rfl) | (with_reducible exact wrs_nil_in)
    | ((with_reducible refine wrs_in _ rfl ?_ ?_); focus (dsimp only; rfl)) | split
    | ((with_reducible refine (failOp_in ..).mono ?_); rfl) | ((with_reducible refine (readSpans_in ..).mono ?_); rfl)
    | ((with_reducible refine (upCtx_in ..).mono ?_); rfl) | ((with_reducible refine withOp_in ?_ ?_) <;> [rfl; skip]))

theorem execBindComplete_via {slot : Nat} {bad : List Nat} {x y : State} (hn : execBindComplete slot bad x = .next y) :
    Via (Instr.bindComplete slot bad).foot x y := by
  refine act_via (n := 0x41b0000030008000000000000080326a000000000010039004a) hn ?_
  try dsimp only
  repeat' (first
    | intro _ | (with_reducible apply within_bind) | (with_reducible exact within_pure _) | (with_reducible exact within_st)
    | ((with_reducible refine within_eff _ ?_); dsimp only [Eff.tag]; rfl) | (with_reducible exact wrs_nil_in)
    | ((with_reducible refine wrs_in _ rfl ?_ ?_); focus (dsimp only; rfl)) | split
    | ((with_reducible refine (doneOp_in ..).mono ?_); rfl) | ((with_reducible refine (failOp_in ..).mono ?_); rfl)
    | ((with_reducible refine (freeSlot_in ..).mono ?_); rfl) | ((with_reducible refine (loadRanges_in ..).mono ?_); rfl)
    | ((with_reducible refine (upCtx_in ..).mono ?_); rfl))

theorem execUnbindContext_via {opid : Nat} {x y : State} (hn : execUnbindContext opid x = .next y) :
    Via (Instr.unbindContext opid).foot x y := by
  refine act_via (n := 0x8000000000000000000010000) hn ?_
  try dsimp only
  repeat' (first
    | intro _ | (with_reducible apply within_bind) | (with_reducible exact within_st)
    | ((with_reducible refine within_wr _ _ ?_); dsimp only; rfl) | split | ((with_reducible refine (doneOp_in ..).mono ?_); rfl)
    | ((with_reducible refine (failOp_in ..).mono ?_); rfl) | ((with_reducible refine (freeSlot_in ..).mono ?_); rfl)
    | ((with_reducible refine (upCtx_in ..).mono ?_); rfl) | ((with_reducible refine withOp_in ?_ ?_) <;> [rfl; skip]))

theorem execFence_via {opid : Nat} {x y : State} (hn : execFence opid x = .next y) : Via (Instr.fence opid).foot x y := by
  refine act_via (n := 0x10000) hn ?_
  try dsimp only
  repeat' (first
    | intro _ | (with_reducible apply within_bind) | (with_reducible exact within_st)
    | ((with_reducible refine (doneOp_in ..).mono ?_); rfl) | ((with_reducible refine withOp_in ?_ ?_) <;> [rfl; skip]))

theorem execAbort_via {opid : Nat} {x y : State} (hn : execAbort opid x = .next y) : Via (Instr.abort opid).foot x y := by
  refine act_via (n := 0x80000b0f00000000000050030) hn ?_
  try dsimp only
  repeat' (first
    | intro _ | (with_reducible apply within_bind) | (with_reducible exact within_st) | split
    | ((with_reducible refine (doneOp_in ..).mono ?_); rfl) | ((with_reducible refine (endOp_in ..).mono ?_); rfl)
    | ((with_reducible refine (failOp_in ..).mono ?_); rfl) | ((with_reducible refine (upOp_in ..).mono ?_); rfl)
    | ((with_reducible refine withOp_in ?_ ?_) <;> [rfl; skip]))

theorem execAbortContext_via {opid : Nat} {x y : State} (hn : execAbortContext opid x = .next y) :
    Via (Instr.abortContext opid).foot x y := by
  refine act_via (n := 0x80000b0f00000000000050030) hn ?_
  try dsimp only
  repeat' (first
    | intro _ | (with_reducible apply within_bind) | (with_reducible exact within_st) | (with_reducible apply within_each)
    | ((with_reducible refine (doneOp_in ..).mono ?_); rfl) | ((with_reducible refine (endOp_in ..).mono ?_); rfl)
    | ((with_reducible refine (lockPhase_in ..).mono ?_); rfl) | ((with_reducible refine (upOp_in ..).mono ?_); rfl)
    | ((with_reducible refine withOp_in ?_ ?_) <;> [rfl; skip]))

theorem execQueryEnergy_via {opid : Nat} {x y : State} (hn : execQueryEnergy opid x = .next y) : Via (Instr.queryEnergy opid).foot x y := by
  refine act_via (n := 0x100010000) hn ?_
  try dsimp only
  repeat' (first
    | intro _ | (with_reducible apply within_bind) | (with_reducible exact within_st)
    | ((with_reducible refine (doneOp_in ..).mono ?_); rfl) | ((with_reducible refine (send_in ..).mono ?_); rfl)
    | ((with_reducible refine withOp_in ?_ ?_) <;> [rfl; skip]))

theorem execSetOpPref_via {opid : Nat} {x y : State} (hn : execSetOpPref opid x = .next y) : Via (Instr.setOpPref opid).foot x y := by
  refine act_via (n := 0x1b000000000800000000000008000000000000000100310000) hn ?_
  try dsimp only
  repeat' (first
    | intro _ | (with_reducible apply within_bind) | (with_reducible exact within_st) | (with_reducible apply within_when)
    | (with_reducible exact wrs_nil_in) | ((with_reducible refine wrs_in _ rfl ?_ ?_); focus (dsimp only; rfl)) | split
    | ((with_reducible refine (doneOp_in ..).mono ?_); rfl) | ((with_reducible refine (evRaw_in ..).mono ?_); rfl)
    | ((with_reducible refine (failOp_in ..).mono ?_); rfl) | ((with_reducible refine withOp_in ?_ ?_) <;> [rfl; skip]))

theorem execServeStart_via {src : Src} {x y : State} (hn : execServeStart src x = .next y) : Via (Instr.serveStart src).foot x y := by
  refine act_via (n := 0x1b000000000800000000000000100000000000000100308000) hn ?_
  try dsimp only
  repeat' (first
    | intro _ | ((with_reducible refine (putHifCtl_in ..).mono ?_); rfl) | ((with_reducible refine barField_in ?_ ?_) <;> [rfl; skip]))

theorem execServeStop_via {src : Src} {x y : State} (hn : execServeStop src x = .next y) : Via (Instr.serveStop src).foot x y := by
  refine act_via (n := 0x1b000000000800000000000000100000000000000100308000) hn ?_
  try dsimp only
  repeat' (first
    | intro _ | ((with_reducible refine (putHifCtl_in ..).mono ?_); rfl) | ((with_reducible refine barField_in ?_ ?_) <;> [rfl; skip]))

theorem execGateStop_via {src : Src} {v : Bool} {x y : State} (hn : execGateStop src v x = .next y) :
    Via (Instr.gateStop src v).foot x y := by
  refine act_via (n := 0x1b000000000800000000000000100000000000000100308000) hn ?_
  try dsimp only
  repeat' (first
    | intro _ | ((with_reducible refine (putHifCtl_in ..).mono ?_); rfl) | ((with_reducible refine barField_in ?_ ?_) <;> [rfl; skip]))

theorem execPortEnable_via {src : Src} {n : Nat} {x y : State} (hn : execPortEnable src n x = .next y) :
    Via (Instr.portEnable src n).foot x y := by
  refine act_via (n := 0x101b0000000008000130000000b0000000000000000108329000) hn ?_
  try dsimp only
  repeat' (first
    | intro _ | ((with_reducible refine (putPortCtl_in ..).mono ?_); rfl) | ((with_reducible refine barField_in ?_ ?_) <;> [rfl; skip]))

theorem execPortDisable_via {src : Src} {n : Nat} {x y : State} (hn : execPortDisable src n x = .next y) :
    Via (Instr.portDisable src n).foot x y := by
  refine act_via (n := 0x101b0000000008000130000000b0000000000000000108329000) hn ?_
  try dsimp only
  repeat' (first
    | intro _ | ((with_reducible refine (putPortCtl_in ..).mono ?_); rfl) | ((with_reducible refine barField_in ?_ ?_) <;> [rfl; skip]))

theorem execForceHold_via {src : Src} {n : Nat} {v : Bool} {x y : State} (hn : execForceHold src n v x = .next y) :
    Via (Instr.forceHold src n v).foot x y := by
  refine act_via (n := 0x101b0000000008000130000000b0000000000000000108329000) hn ?_
  try dsimp only
  repeat' (first
    | intro _ | ((with_reducible refine (putPortCtl_in ..).mono ?_); rfl) | ((with_reducible refine barField_in ?_ ?_) <;> [rfl; skip]))

theorem execBerNow_via {src : Src} {n : Nat} {x y : State} (hn : execBerNow src n x = .next y) : Via (Instr.berNow src n).foot x y := by
  refine act_via (n := 0x101b0000000008000130000000b0000000000000000108329000) hn ?_
  try dsimp only
  repeat' (first
    | intro _ | ((with_reducible refine (putPortCtl_in ..).mono ?_); rfl) | ((with_reducible refine barField_in ?_ ?_) <;> [rfl; skip]))

theorem execLinkTrained_via {n : Nat} {x y : State} (hn : execLinkTrained n x = .next y) : Via (Instr.linkTrained n).foot x y := by
  refine act_via (n := 0x1000000000000000013000000020000000000000000100229000) hn ?_
  try dsimp only
  repeat' (first
    | intro _ | (with_reducible apply within_bind) | (with_reducible exact within_pure _) | (with_reducible exact within_st)
    | (with_reducible apply within_when) | split | ((with_reducible refine (afterIdent_in ..).mono ?_); rfl)
    | ((with_reducible refine (sendIdent_in ..).mono ?_); rfl) | ((with_reducible refine (setPort_in ..).mono ?_); rfl))

theorem execIdent_via {n : Nat} {loc port : Nat} {x y : State} (hn : execIdent n loc port x = .next y) :
    Via (Instr.ident n loc port).foot x y := by
  refine act_via (n := 0x101b0000000008000130000000a0000000000000000100329000) hn ?_
  try dsimp only
  repeat' (first
    | intro _ | (with_reducible apply within_bind) | (with_reducible exact within_pure _) | (with_reducible exact within_st)
    | (with_reducible exact wrs_nil_in) | ((with_reducible refine wrs_in _ rfl ?_ ?_); focus (dsimp only; rfl)) | split
    | ((with_reducible refine (afterIdent_in ..).mono ?_); rfl) | ((with_reducible refine (portCheck_in ..).mono ?_); rfl)
    | ((with_reducible refine (setPort_in ..).mono ?_); rfl))

theorem execIdentTimeout_via {n : Nat} {x y : State} (hn : execIdentTimeout n x = .next y) : Via (Instr.identTimeout n).foot x y := by
  refine act_via (n := 0x101b000000000800013000000020000000000000000100329400) hn ?_
  try dsimp only
  repeat' (first
    | intro _ | (with_reducible apply within_bind) | (with_reducible exact within_pure _) | (with_reducible exact within_st) | split
    | ((with_reducible refine (advTo_in ..).mono ?_); rfl) | ((with_reducible refine (portCheck_in ..).mono ?_); rfl)
    | ((with_reducible refine (setPort_in ..).mono ?_); rfl) | (with_reducible exact seenAt_in ..))

theorem execIdentRepeat_via {n : Nat} {x y : State} (hn : execIdentRepeat n x = .next y) : Via (Instr.identRepeat n).foot x y := by
  refine act_via (n := 0x100000400) hn ?_
  try dsimp only
  repeat' (first
    | intro _ | (with_reducible apply within_bind) | (with_reducible exact within_pure _) | (with_reducible exact within_st)
    | ((with_reducible refine within_eff _ ?_); dsimp only [Eff.tag]; rfl) | split
    | ((with_reducible refine (sendIdent_in ..).mono ?_); rfl))

theorem execTestReq_via {n : Nat} {x y : State} (hn : execTestReq n x = .next y) : Via (Instr.testReq n).foot x y := by
  refine act_via (n := 0x1000000000000000013000000020000000000000000100229000) hn ?_
  try dsimp only
  repeat' (first
    | intro _ | (with_reducible apply within_bind) | (with_reducible exact within_pure _) | (with_reducible exact within_st) | split
    | ((with_reducible refine (enterTest_in ..).mono ?_); rfl) | ((with_reducible refine (runPrbs_in ..).mono ?_); rfl)
    | ((with_reducible refine (send_in ..).mono ?_); rfl) | ((with_reducible refine (setPort_in ..).mono ?_); rfl)
    | ((with_reducible refine (upPort_in ..).mono ?_); rfl) | (with_reducible exact portSt_in ..))

theorem execTestAck_via {n : Nat} {x y : State} (hn : execTestAck n x = .next y) : Via (Instr.testAck n).foot x y := by
  refine act_via (n := 0x100020000) hn ?_
  try dsimp only
  repeat' (first
    | intro _ | (with_reducible apply within_bind) | (with_reducible exact within_pure _) | (with_reducible exact within_rd _) | split
    | ((with_reducible refine (runPrbs_in ..).mono ?_); rfl) | (with_reducible exact portSt_in ..))

theorem execTestResult_via {n : Nat} {pass : Bool} {x y : State} (hn : execTestResult n pass x = .next y) :
    Via (Instr.testResult n pass).foot x y := by
  refine act_via (n := 0x101b000000000800013000000020000000000000000100329000) hn ?_
  try dsimp only
  repeat' (first
    | intro _ | (with_reducible apply within_bind) | (with_reducible exact within_pure _) | (with_reducible exact within_rd _) | split
    | ((with_reducible refine (testOutcome_in ..).mono ?_); rfl) | ((with_reducible refine (upPort_in ..).mono ?_); rfl)
    | (with_reducible exact portSt_in ..))

theorem execBerTestDone_via {n : Nat} {errs : Nat} {x y : State} (hn : execBerTestDone n errs x = .next y) :
    Via (Instr.berTestDone n errs).foot x y := by
  refine act_via (n := 0x101b000000000800013000000220000000000000000100329400) hn ?_
  try dsimp only
  repeat' (first
    | intro _ | (with_reducible apply within_bind) | (with_reducible exact within_pure _) | (with_reducible exact within_st)
    | ((with_reducible refine within_eff _ ?_); dsimp only [Eff.tag]; rfl) | ((with_reducible refine within_wr _ _ ?_); dsimp only; rfl)
    | ((with_reducible refine setF_in _ rfl ?_); dsimp only; rfl) | ((with_reducible refine wrB_in _ rfl ?_); dsimp only; rfl) | split
    | ((with_reducible refine (send_in ..).mono ?_); rfl) | ((with_reducible refine (testOutcome_in ..).mono ?_); rfl)
    | ((with_reducible refine (upPort_in ..).mono ?_); rfl) | (with_reducible exact portSt_in ..))

theorem execBerInterval_via {n : Nat} {x y : State} (hn : execBerInterval n x = .next y) : Via (Instr.berInterval n).foot x y := by
  refine act_via (n := 0x1000000000000000013000000020000000000000000100229400) hn ?_
  try dsimp only
  repeat' (first
    | intro _ | (with_reducible apply within_bind) | (with_reducible exact within_pure _) | (with_reducible exact within_st) | split
    | ((with_reducible refine (askTest_in ..).mono ?_); rfl) | ((with_reducible refine (periodic_in ..).mono ?_); rfl))

theorem execKeepaliveSend_via {n : Nat} {x y : State} (hn : execKeepaliveSend n x = .next y) : Via (Instr.keepaliveSend n).foot x y := by
  refine act_via (n := 0x100000400) hn ?_
  try dsimp only
  repeat' (first
    | intro _ | (with_reducible apply within_bind) | (with_reducible exact within_pure _) | (with_reducible exact within_rd _)
    | ((with_reducible refine within_eff _ ?_); dsimp only [Eff.tag]; rfl) | split | ((with_reducible refine (send_in ..).mono ?_); rfl))

theorem execPortDown_via {n why : Nat} {x y : State} (hn : execPortDown n why x = .next y) : Via (Instr.portDown n why).foot x y := by
  refine act_via (n := 0x101b0000000008000130000000a0000000000000000100329000) hn ?_
  try dsimp only
  ((with_reducible refine (losePort_in ..).mono ?_); rfl)

theorem execFecErrorLimit_via {n cnt : Nat} {x y : State} (hn : execFecErrorLimit n cnt x = .next y) :
    Via (Instr.fecErrorLimit n cnt).foot x y := by
  refine act_via (n := 0x101b0000000008000130000001a0000000000000000100329000) hn ?_
  try dsimp only
  repeat' (first
    | intro _ | (with_reducible apply within_bind) | (with_reducible exact within_pure _) | split
    | ((with_reducible refine (losePort_in ..).mono ?_); rfl) | ((with_reducible refine addSat_in _ rfl ?_); dsimp only; rfl))

theorem execFlitTimeout_via {n : Nat} {x y : State} (hn : execFlitTimeout n x = .next y) : Via (Instr.flitTimeout n).foot x y := by
  refine act_via (n := 0x101b0000000008000130000000a0000000000000000100329000) hn ?_
  try dsimp only
  ((with_reducible refine (losePort_in ..).mono ?_); rfl)

theorem execRetrain_via {n : Nat} {x y : State} (hn : execRetrain n x = .next y) : Via (Instr.retrain n).foot x y := by
  refine act_via (n := 0x10000000000000000130000000a0000000000000000100229400) hn ?_
  try dsimp only
  repeat' (first
    | intro _ | (with_reducible apply within_bind) | (with_reducible exact within_pure _) | (with_reducible exact within_rd _) | split
    | ((with_reducible refine (advTo_in ..).mono ?_); rfl) | ((with_reducible refine (startTraining_in ..).mono ?_); rfl)
    | (with_reducible exact seenAt_in ..))

theorem execPortState_via {fa gen m port : Nat} {up : Bool} {x y : State} (hn : execPortState fa gen m port up x = .next y) :
    Via (Instr.portState fa gen m port up).foot x y := by
  refine act_via (n := 0x100000000000000000000000020000) hn ?_
  try dsimp only
  repeat' (first
    | ((with_reducible refine within_eff _ ?_); dsimp only [Eff.tag]; rfl) | ((with_reducible refine fromPeer_in ?_ ?_) <;> [rfl; skip]))

theorem execPacketInject_via {k : Pkt} {e : RouteEnv} {x y : State} (hn : execPacketInject k e x = .next y) :
    Via (Instr.packetInject k e).foot x y := by
  refine act_via (n := 0x1b000000000800000000100000000000000000000100320000) hn ?_
  try dsimp only
  repeat' (first
    | intro _ | (with_reducible apply within_bind) | ((with_reducible refine within_eff _ ?_); dsimp only [Eff.tag]; rfl) | split
    | ((with_reducible refine (dropPkt_in ..).mono ?_); rfl) | ((with_reducible refine (ev_in ..).mono ?_); rfl)
    | ((with_reducible refine (inject_in ..).mono ?_); rfl))

theorem execPacketReceive_via {port : Nat} {k : Pkt} {e : RouteEnv} {x y : State} (hn : execPacketReceive port k e x = .next y) :
    Via (Instr.packetReceive port k e).foot x y := by
  refine act_via (n := 0x1b000000000800000000100100000000000000000100320000) hn ?_
  try dsimp only
  ((with_reducible refine (receivePkt_in ..).mono ?_); rfl)

theorem execStreamOpenRetry_via {dst och : Nat} {x y : State} (hn : execStreamOpenRetry dst och x = .next y) :
    Via (Instr.streamOpenRetry dst och).foot x y := by
  refine act_via (n := 0x20400) hn ?_
  try dsimp only
  repeat' (first
    | intro _ | (with_reducible apply within_bind) | (with_reducible exact within_pure _) | (with_reducible exact within_st)
    | (with_reducible exact within_now) | split | ((with_reducible refine (advTo_in ..).mono ?_); rfl)
    | ((with_reducible refine (queuePkt_in ..).mono ?_); rfl) | ((with_reducible refine (upOut_in ..).mono ?_); rfl))

theorem execStreamAckTimer_via {fa och : Nat} {x y : State} (hn : execStreamAckTimer fa och x = .next y) :
    Via (Instr.streamAckTimer fa och).foot x y := by
  refine act_via (n := 0x20400) hn ?_
  try dsimp only
  repeat' (first
    | intro _ | (with_reducible apply within_bind) | (with_reducible exact within_pure _) | (with_reducible exact within_st) | split
    | ((with_reducible refine (advTo_in ..).mono ?_); rfl) | ((with_reducible refine (sendAck_in ..).mono ?_); rfl))

theorem execStreamIdleClose_via {dst och : Nat} {x y : State} (hn : execStreamIdleClose dst och x = .next y) :
    Via (Instr.streamIdleClose dst och).foot x y := by
  refine act_via (n := 0x20400) hn ?_
  try dsimp only
  repeat' (first
    | intro _ | (with_reducible apply within_bind) | (with_reducible exact within_pure _) | (with_reducible exact within_st) | split
    | ((with_reducible refine (advTo_in ..).mono ?_); rfl) | ((with_reducible refine (closeOut_in ..).mono ?_); rfl))

theorem execStreamContextExpiry_via {fa och : Nat} {x y : State} (hn : execStreamContextExpiry fa och x = .next y) :
    Via (Instr.streamContextExpiry fa och).foot x y := by
  refine act_via (n := 0x200000000000000000000000020400) hn ?_
  try dsimp only
  repeat' (first
    | intro _ | (with_reducible apply within_bind) | (with_reducible exact within_pure _) | (with_reducible exact within_st) | split
    | ((with_reducible refine (advTo_in ..).mono ?_); rfl) | ((with_reducible refine (freeIn_in ..).mono ?_); rfl))

theorem execFazarOpTimeout_via {slot idx : Nat} {x y : State} (hn : execFazarOpTimeout slot idx x = .next y) :
    Via (Instr.fazarOpTimeout slot idx).foot x y := by
  refine act_via (n := 0xb0f00000000000070420) hn ?_
  try dsimp only
  repeat' (first
    | intro _ | (with_reducible apply within_bind) | (with_reducible exact within_pure _) | (with_reducible exact within_st)
    | (with_reducible exact mode_in) | (with_reducible apply within_each) | split | ((with_reducible refine (advTo_in ..).mono ?_); rfl)
    | ((with_reducible refine (closeOut_in ..).mono ?_); rfl) | ((with_reducible refine (lockPhase_in ..).mono ?_); rfl))

theorem execDirectoryWrite_via {src : Src} {off : Nat} {v : BitVec 32} {x y : State} (hn : execDirectoryWrite src off v x = .next y) :
    Via (Instr.directoryWrite src off v).foot x y := by
  refine act_via (n := 0x1b000000000800000000004000000000000000000100320000) hn ?_
  try dsimp only
  repeat' (first
    | (with_reducible exact within_pure _) | split | ((with_reducible refine (putTable_in ..).mono ?_); rfl)
    | ((with_reducible refine recorded_in ?_ ?_) <;> [rfl; skip]))

theorem execDirUpdate_via {fa gen : Nat} {ws : List (Nat × BitVec 32)} {x y : State} (hn : execDirUpdate fa gen ws x = .next y) :
    Via (Instr.dirUpdate fa gen ws).foot x y := by
  refine act_via (n := 0x101b000000000800013000114020000000000000000102329008) hn ?_
  try dsimp only
  repeat' (first
    | intro _ | (with_reducible apply within_bind) | (with_reducible exact within_pure _) | (with_reducible exact within_st) | split
    | ((with_reducible refine (dirWords_in ..).mono ?_); rfl) | ((with_reducible refine (dropPkt_in ..).mono ?_); rfl)
    | ((with_reducible refine (enterFenced_in ..).mono ?_); rfl))

theorem execBankCopy_via {src : Src} {x y : State} (hn : execBankCopy src x = .next y) : Via (Instr.bankCopy src).foot x y := by
  refine act_via (n := 0x1b000010000800000000004000000000000000000100320000) hn ?_
  try dsimp only
  repeat' (first
    | intro _ | ((with_reducible refine (putBankCtl_in ..).mono ?_); rfl) | ((with_reducible refine barField_in ?_ ?_) <;> [rfl; skip]))

theorem execSealBank_via {src : Src} {x y : State} (hn : execSealBank src x = .next y) : Via (Instr.sealBank src).foot x y := by
  refine act_via (n := 0x1b000010000800000000004000000000000000000100320000) hn ?_
  try dsimp only
  repeat' (first
    | intro _ | ((with_reducible refine (putBankCtl_in ..).mono ?_); rfl) | ((with_reducible refine barField_in ?_ ?_) <;> [rfl; skip]))

theorem execArm_via {src : Src} {x y : State} (hn : execArm src x = .next y) : Via (Instr.arm src).foot x y := by
  refine act_via (n := 0x1b000010000800000000004000000000000000000100320000) hn ?_
  try dsimp only
  repeat' (first
    | intro _ | ((with_reducible refine (putBankCtl_in ..).mono ?_); rfl) | ((with_reducible refine barField_in ?_ ?_) <;> [rfl; skip]))

theorem execCancel_via {src : Src} {x y : State} (hn : execCancel src x = .next y) : Via (Instr.cancel src).foot x y := by
  refine act_via (n := 0x1b000010000800000000004000000000000000000100320000) hn ?_
  try dsimp only
  repeat' (first
    | intro _ | ((with_reducible refine (putBankCtl_in ..).mono ?_); rfl) | ((with_reducible refine barField_in ?_ ?_) <;> [rfl; skip]))

theorem execMcast_via {e : RouteEnv} {x y : State} (hn : execMcast e x = .next y) : Via (Instr.mcast e).foot x y := by
  refine act_via (n := 0x41b0000030008000000001000000326b0f300000001003f116a) hn ?_
  try dsimp only
  repeat' (first
    | intro _ | (with_reducible apply within_bind) | (with_reducible exact within_pure _) | (with_reducible exact within_st)
    | (with_reducible apply within_when) | split | ((with_reducible refine (deliverSlots_in ..).mono ?_); rfl)
    | ((with_reducible refine (dropUe_in ..).mono ?_); rfl) | ((with_reducible refine (mcastCopies_in ..).mono ?_); rfl)
    | ((with_reducible refine (takeInbox_in ..).mono ?_); rfl))

theorem execBroadcast_via {k : Pkt} {port : Option Nat} {x y : State} (hn : execBroadcast k port x = .next y) :
    Via (Instr.broadcast k port).foot x y := by
  refine act_via (n := 0x1b000000000800000000100100000000000000000100320000) hn ?_
  try dsimp only
  repeat' (first
    | (with_reducible apply within_when) | split | ((with_reducible refine (bcastSource_in ..).mono ?_); rfl)
    | ((with_reducible refine (receivePkt_in ..).mono ?_); rfl))

theorem execReduceUp_via {mismatch : Bool} {e : RouteEnv} {x y : State} (hn : execReduceUp mismatch e x = .next y) :
    Via (Instr.reduceUp mismatch e).foot x y := by
  refine act_via (n := 0x41b0000030008000000001000000326b0f300000001003f316a) hn ?_
  try dsimp only
  repeat' (first
    | intro _ | (with_reducible apply within_bind) | (with_reducible exact within_pure _) | (with_reducible exact within_st)
    | ((with_reducible refine within_eff _ ?_); dsimp only [Eff.tag]; rfl) | split
    | ((with_reducible refine (dropPkt_in ..).mono ?_); rfl) | ((with_reducible refine (dropUe_in ..).mono ?_); rfl)
    | ((with_reducible refine (ev_in ..).mono ?_); rfl) | ((with_reducible refine (freeBits_in ..).mono ?_); rfl)
    | ((with_reducible refine (freeRed_in ..).mono ?_); rfl) | ((with_reducible refine (redTry_in ..).mono ?_); rfl)
    | ((with_reducible refine (takeInbox_in ..).mono ?_); rfl) | ((with_reducible refine (upRed_in ..).mono ?_); rfl))

theorem execReduceDown_via {e : RouteEnv} {x y : State} (hn : execReduceDown e x = .next y) : Via (Instr.reduceDown e).foot x y := by
  refine act_via (n := 0x41b0000030008000000001000000326b0f300000001003f116a) hn ?_
  try dsimp only
  repeat' (first
    | intro _ | (with_reducible apply within_bind) | (with_reducible exact within_pure _) | (with_reducible exact within_st) | split
    | ((with_reducible refine (dropPkt_in ..).mono ?_); rfl) | ((with_reducible refine (dropUe_in ..).mono ?_); rfl)
    | ((with_reducible refine (redTotal_in ..).mono ?_); rfl) | ((with_reducible refine (redTry_in ..).mono ?_); rfl)
    | ((with_reducible refine (takeInbox_in ..).mono ?_); rfl))

theorem execRedContextExpiry_via {grp rseq sg : Nat} {x y : State} (hn : execRedContextExpiry grp rseq sg x = .next y) :
    Via (Instr.redContextExpiry grp rseq sg).foot x y := by
  refine act_via (n := 0x100000000000000000000000020400) hn ?_
  try dsimp only
  repeat' (first
    | intro _ | (with_reducible apply within_bind) | (with_reducible exact within_pure _) | (with_reducible exact within_st) | split
    | ((with_reducible refine (advTo_in ..).mono ?_); rfl) | ((with_reducible refine (dropPkt_in ..).mono ?_); rfl)
    | ((with_reducible refine (freeRed_in ..).mono ?_); rfl))

theorem execTimeFrame_via {port : Nat} {t : TimeFrame} {x y : State} (hn : execTimeFrame port t x = .next y) :
    Via (Instr.timeFrame port t).foot x y := by
  refine act_via (n := 0x40000000000000000000000021800) hn ?_
  try dsimp only
  repeat' (first
    | intro _ | (with_reducible apply within_bind) | (with_reducible exact within_pure _) | (with_reducible exact within_st)
    | (with_reducible apply within_when) | ((with_reducible refine setF_in _ rfl ?_); dsimp only; rfl) | split
    | ((with_reducible refine (exchange_in ..).mono ?_); rfl) | ((with_reducible refine (follow_in ..).mono ?_); rfl)
    | ((with_reducible refine (mark_in ..).mono ?_); rfl) | ((with_reducible refine (seeEpoch_in ..).mono ?_); rfl)
    | ((with_reducible refine (upPort_in ..).mono ?_); rfl))

theorem execTimeRootSet_via {src : Src} {x y : State} (hn : execTimeRootSet src x = .next y) : Via (Instr.timeRootSet src).foot x y := by
  refine act_via (n := 0x1b000000000800000000060000000000000000000108320000) hn ?_
  try dsimp only
  repeat' (first
    | intro _ | ((with_reducible refine (putTimeCfg_in ..).mono ?_); rfl) | ((with_reducible refine barField_in ?_ ?_) <;> [rfl; skip]))

theorem execTimeSet_via {src : Src} {hi : BitVec 32} {x y : State} (hn : execTimeSet src hi x = .next y) :
    Via (Instr.timeSet src hi).foot x y := by
  refine act_via (n := 0x1b000400000800000000000000000000000000000100300800) hn ?_
  try dsimp only
  repeat' (first
    | ((with_reducible refine (putTimeHi_in ..).mono ?_); rfl) | ((with_reducible refine barReg_in ?_ ?_) <;> [rfl; skip]))

theorem execDroopDetect_via {d : Nat} {x y : State} (hn : execDroopDetect d x = .next y) : Via (Instr.droopDetect d).foot x y := by
  refine act_via (n := 0x80400000000000000000000000041000) hn ?_
  try dsimp only
  repeat' (first
    | intro _ | (with_reducible apply within_bind) | (with_reducible exact within_pure _) | (with_reducible exact within_rd _)
    | ((with_reducible refine within_eff _ ?_); dsimp only [Eff.tag]; rfl)
    | ((with_reducible refine incWrap_in _ rfl ?_); dsimp only; rfl) | split | ((with_reducible refine (mark_in ..).mono ?_); rfl)
    | exact wr_in _ (droopFld_k _) rfl)

theorem execDroopRelease_via {d : Nat} {x y : State} (hn : execDroopRelease d x = .next y) : Via (Instr.droopRelease d).foot x y := by
  refine act_via (n := 0x400000000000000000000000041000) hn ?_
  try dsimp only
  repeat' (first
    | intro _ | (with_reducible apply within_bind) | (with_reducible exact within_pure _) | (with_reducible exact within_rd _)
    | ((with_reducible refine within_eff _ ?_); dsimp only [Eff.tag]; rfl) | split | ((with_reducible refine (mark_in ..).mono ?_); rfl)
    | exact wr_in _ (droopFld_k _) rfl)

theorem execDroopLong_via {d : Nat} {x y : State} (hn : execDroopLong d x = .next y) : Via (Instr.droopLong d).foot x y := by
  refine act_via (n := 0x1b000000000800000000000000000000000000000100340400) hn ?_
  try dsimp only
  repeat' (first
    | intro _ | (with_reducible apply within_bind) | (with_reducible exact within_pure _) | (with_reducible exact within_st)
    | ((with_reducible refine within_eff _ ?_); dsimp only [Eff.tag]; rfl) | split | ((with_reducible refine (advTo_in ..).mono ?_); rfl)
    | ((with_reducible refine (ev_in ..).mono ?_); rfl))

theorem execVrAlert_via {cond : Nat} {x y : State} (hn : execVrAlert cond x = .next y) : Via (Instr.vrAlert cond).foot x y := by
  refine act_via (n := 0x1b000000000800001000400000000000000000000100340000) hn ?_
  try dsimp only
  repeat' (first
    | intro _ | (with_reducible apply within_bind) | (with_reducible exact within_pure _) | (with_reducible exact within_st)
    | ((with_reducible refine within_eff _ ?_); dsimp only [Eff.tag]; rfl) | ((with_reducible refine within_wr _ _ ?_); dsimp only; rfl)
    | ((with_reducible refine setF_in _ rfl ?_); dsimp only; rfl) | split | ((with_reducible refine (ev_in ..).mono ?_); rfl)
    | ((with_reducible refine (forceDrop_in).mono ?_); rfl))

theorem execPowerSample_via {watts decivolts : Nat} {x y : State} (hn : execPowerSample watts decivolts x = .next y) :
    Via (Instr.powerSample watts decivolts).foot x y := by
  refine act_via (n := 0x4400000000000000000000000055400) hn ?_
  try dsimp only
  repeat' (first
    | intro _ | (with_reducible apply within_bind) | (with_reducible exact within_pure _) | (with_reducible exact within_st)
    | (with_reducible apply within_when) | ((with_reducible refine within_eff _ ?_); dsimp only [Eff.tag]; rfl)
    | ((with_reducible refine within_wr _ _ ?_); dsimp only; rfl) | (with_reducible exact wrs_nil_in)
    | ((with_reducible refine wrs_in _ rfl ?_ ?_); focus (dsimp only; rfl)) | split
    | ((with_reducible refine (periodic_in ..).mono ?_); rfl) | ((with_reducible refine (refreshFlow_in).mono ?_); rfl))

theorem execEstimatorTick_via {a : Activity} {x y : State} (hn : execEstimatorTick a x = .next y) :
    Via (Instr.estimatorTick a).foot x y := by
  refine act_via (n := 0x51400) hn ?_
  try dsimp only
  repeat' (first
    | intro _ | (with_reducible apply within_bind) | (with_reducible exact within_st) | (with_reducible apply within_each)
    | ((with_reducible refine within_eff _ ?_); dsimp only [Eff.tag]; rfl) | ((with_reducible refine (periodic_in ..).mono ?_); rfl)
    | ((with_reducible refine (upPhase_in ..).mono ?_); rfl))

theorem execGainRefit_via {x y : State} (hn : execGainRefit x = .next y) : Via (Instr.gainRefit).foot x y := by
  refine act_via (n := 0x1b000000000800000040000000000000000000000100341400) hn ?_
  try dsimp only
  repeat' (first
    | intro _ | (with_reducible apply within_bind) | (with_reducible exact within_st) | (with_reducible apply within_when)
    | ((with_reducible refine within_eff _ ?_); dsimp only [Eff.tag]; rfl) | ((with_reducible refine within_wr _ _ ?_); dsimp only; rfl)
    | ((with_reducible refine incSat_in _ rfl ?_); dsimp only; rfl) | split | ((with_reducible refine (ev_in ..).mono ?_); rfl)
    | ((with_reducible refine (periodic_in ..).mono ?_); rfl))

theorem execHotspotSample_via {r : List (Int × Int × Int)} {x y : State} (hn : execHotspotSample r x = .next y) :
    Via (Instr.hotspotSample r).foot x y := by
  refine act_via (n := 0x80002004000000000a0000000000000041460) hn ?_
  try dsimp only
  repeat' (first
    | intro _ | (with_reducible apply within_bind) | (with_reducible exact within_st) | (with_reducible apply within_when)
    | (with_reducible apply within_each) | ((with_reducible refine within_eff _ ?_); dsimp only [Eff.tag]; rfl)
    | ((with_reducible refine within_wr _ _ ?_); dsimp only; rfl) | ((with_reducible refine (forceDrop_in).mono ?_); rfl)
    | ((with_reducible refine (periodic_in ..).mono ?_); rfl) | ((with_reducible refine (sampleSpot_in ..).mono ?_); rfl)
    | ((with_reducible refine (withdraw_in).mono ?_); rfl))

theorem execSensorCompare_via {x y : State} (hn : execSensorCompare x = .next y) : Via (Instr.sensorCompare).foot x y := by
  refine act_via (n := 0x101b000000000800003200400000000000000000000100341400) hn ?_
  try dsimp only
  repeat' (first
    | intro _ | (with_reducible apply within_bind) | (with_reducible apply within_each)
    | ((with_reducible refine within_eff _ ?_); dsimp only [Eff.tag]; rfl) | ((with_reducible refine (compareSpot_in ..).mono ?_); rfl)
    | ((with_reducible refine (periodic_in ..).mono ?_); rfl) | ((with_reducible refine (refreshSensors_in).mono ?_); rfl))

theorem execRotationRequest_via {unit : Nat} {x y : State} (hn : execRotationRequest unit x = .next y) :
    Via (Instr.rotationRequest unit).foot x y := by
  refine act_via (n := 0xa0000000000000040060) hn ?_
  try dsimp only
  repeat' (first
    | intro _ | (with_reducible apply within_bind) | (with_reducible exact within_pure _) | (with_reducible exact within_st) | split
    | ((with_reducible refine (setRot_in ..).mono ?_); rfl))

theorem execThrottleStep_via {d h : Nat} {unit : Nat} {x y : State} (hn : execThrottleStep d h unit x = .next y) :
    Via (Instr.throttleStep d h unit).foot x y := by
  refine act_via (n := 0x400000000000000000000000041420) hn ?_
  try dsimp only
  repeat' (first
    | intro _ | (with_reducible apply within_bind) | (with_reducible exact within_pure _) | (with_reducible exact within_st)
    | (with_reducible apply within_when) | ((with_reducible refine within_eff _ ?_); dsimp only [Eff.tag]; rfl) | split
    | ((with_reducible refine (mark_in ..).mono ?_); rfl) | ((with_reducible refine (periodic_in ..).mono ?_); rfl)
    | ((with_reducible refine (refreshThrottle_in).mono ?_); rfl))

theorem execThrottleRestore_via {d h : Nat} {x y : State} (hn : execThrottleRestore d h x = .next y) :
    Via (Instr.throttleRestore d h).foot x y := by
  refine act_via (n := 0x4000000000a0000000000000041460) hn ?_
  try dsimp only
  repeat' (first
    | intro _ | (with_reducible apply within_bind) | (with_reducible exact within_pure _) | (with_reducible exact within_st)
    | (with_reducible apply within_when) | (with_reducible apply within_each)
    | ((with_reducible refine within_eff _ ?_); dsimp only [Eff.tag]; rfl) | split
    | ((with_reducible refine (periodic_in ..).mono ?_); rfl) | ((with_reducible refine (refreshThrottle_in).mono ?_); rfl)
    | ((with_reducible refine (withdraw_in).mono ?_); rfl))

theorem execThermalUpdate_via {tin tout : Int} {x y : State} (hn : execThermalUpdate tin tout x = .next y) :
    Via (Instr.thermalUpdate tin tout).foot x y := by
  refine act_via (n := 0x1b000000000800000032c00000000000000000000100351400) hn ?_
  try dsimp only
  repeat' (first
    | intro _ | (with_reducible apply within_bind) | (with_reducible exact within_pure _) | (with_reducible exact within_st)
    | (with_reducible apply within_when) | ((with_reducible refine within_eff _ ?_); dsimp only [Eff.tag]; rfl)
    | ((with_reducible refine within_wr _ _ ?_); dsimp only; rfl) | ((with_reducible refine setF_in _ rfl ?_); dsimp only; rfl)
    | (with_reducible exact wrs_nil_in) | ((with_reducible refine wrs_in _ rfl ?_ ?_); focus (dsimp only; rfl)) | split
    | ((with_reducible refine (ev_in ..).mono ?_); rfl) | ((with_reducible refine (periodic_in ..).mono ?_); rfl)
    | ((with_reducible refine (refreshClip_in).mono ?_); rfl) | ((with_reducible refine (refreshFlow_in).mono ?_); rfl))

theorem execFlowMismatch_via {x y : State} (hn : execFlowMismatch x = .next y) : Via (Instr.flowMismatch).foot x y := by
  refine act_via (n := 0x1b000000000800000000000000000000000000000100340400) hn ?_
  try dsimp only
  repeat' (first
    | intro _ | (with_reducible apply within_bind) | (with_reducible exact within_pure _) | (with_reducible exact within_st)
    | ((with_reducible refine within_eff _ ?_); dsimp only [Eff.tag]; rfl) | split | ((with_reducible refine (advTo_in ..).mono ?_); rfl)
    | ((with_reducible refine (ev_in ..).mono ?_); rfl))

theorem execGuardTrip_via {kind channels : Nat} {x y : State} (hn : execGuardTrip kind channels x = .next y) :
    Via (Instr.guardTrip kind channels).foot x y := by
  refine act_via (n := 0x800000000000000020000000000000314b1f01a) hn ?_
  try dsimp only
  repeat' (first
    | (with_reducible apply within_when) | ((with_reducible refine (guardTripOff_in ..).mono ?_); rfl))

theorem execGuardSingle_via {ch kind : Nat} {x y : State} (hn : execGuardSingle ch kind x = .next y) :
    Via (Instr.guardSingle ch kind).foot x y := by
  refine act_via (n := 0x1b00000000080c000000400000020000000000000314b5f01a) hn ?_
  try dsimp only
  repeat' (first
    | intro _ | (with_reducible apply within_bind) | (with_reducible exact within_pure _) | (with_reducible exact within_st)
    | ((with_reducible refine within_eff _ ?_); dsimp only [Eff.tag]; rfl) | ((with_reducible refine incSat_in _ rfl ?_); dsimp only; rfl)
    | split | ((with_reducible refine (ev_in ..).mono ?_); rfl) | ((with_reducible refine (guardTripOff_in ..).mono ?_); rfl)
    | ((with_reducible refine (refreshGuard_in).mono ?_); rfl) | exact wr_in _ (assertFld_k ..) rfl)

theorem execGuardSuspect_via {ch kind : Nat} {x y : State} (hn : execGuardSuspect ch kind x = .next y) :
    Via (Instr.guardSuspect ch kind).foot x y := by
  refine act_via (n := 0x4000000400000000000000000000000041400) hn ?_
  try dsimp only
  repeat' (first
    | intro _ | (with_reducible apply within_bind) | (with_reducible exact within_pure _) | (with_reducible exact within_st)
    | ((with_reducible refine within_eff _ ?_); dsimp only [Eff.tag]; rfl) | split | ((with_reducible refine (advTo_in ..).mono ?_); rfl)
    | ((with_reducible refine (refreshGuard_in).mono ?_); rfl) | exact setF_in _ (suspectFld_k _) rfl)

theorem execGuardSingleRelease_via {ch kind : Nat} {x y : State} (hn : execGuardSingleRelease ch kind x = .next y) :
    Via (Instr.guardSingleRelease ch kind).foot x y := by
  refine act_via (n := 0xc000000400000000000000000000000041000) hn ?_
  try dsimp only
  repeat' (first
    | intro _ | (with_reducible apply within_bind) | (with_reducible exact within_pure _) | (with_reducible exact within_st)
    | ((with_reducible refine within_eff _ ?_); dsimp only [Eff.tag]; rfl) | split
    | ((with_reducible refine (refreshGuard_in).mono ?_); rfl) | exact wr_in _ (assertFld_k ..) rfl)

theorem execEscalate_via {code unit : Nat} {x y : State} (hn : execEscalate code unit x = .next y) :
    Via (Instr.escalate code unit).foot x y := by
  refine act_via (n := 0x1b0000000008c01000006000080000b8f000000001003f923d) hn ?_
  try dsimp only
  repeat' (first
    | intro _ | (with_reducible apply within_bind) | (with_reducible exact within_pure _) | (with_reducible exact within_st)
    | (with_reducible apply within_when) | split | ((with_reducible refine (climbEngine_in ..).mono ?_); rfl)
    | ((with_reducible refine (climbPartition_in ..).mono ?_); rfl))

theorem execSweepFail_via {p kind phys : Nat} {x y : State} (hn : execSweepFail p kind phys x = .next y) :
    Via (Instr.sweepFail p kind phys).foot x y := by
  refine act_via (n := 0x1b000000000800000000000000000000000000000100341400) hn ?_
  try dsimp only
  repeat' (first
    | intro _ | (with_reducible apply within_bind) | (with_reducible exact within_pure _) | (with_reducible exact within_st)
    | (with_reducible apply within_when) | ((with_reducible refine within_eff _ ?_); dsimp only [Eff.tag]; rfl) | split
    | ((with_reducible refine (ev_in ..).mono ?_); rfl) | ((with_reducible refine (periodic_in ..).mono ?_); rfl))

theorem execWorisySignalDetect_via {port : Nat} {x y : State} (hn : execWorisySignalDetect port x = .next y) :
    Via (Instr.worisySignalDetect port).foot x y := by
  refine act_via (n := 0x1000000000000000000000000000000000) hn ?_
  try dsimp only
  repeat' (first
    | intro _ | (with_reducible apply within_bind) | (with_reducible exact within_pure _) | (with_reducible exact within_st)
    | (with_reducible exact within_rd _) | (with_reducible exact within_now) | (with_reducible exact mode_in)
    | (with_reducible apply within_when) | (with_reducible apply within_each) | (with_reducible apply within_loop)
    | (with_reducible exact wrs_nil_in) | (with_reducible refine within_ite ?_ ?_) | split | exact wr_in _ (sdFld_k _) rfl
    | exact setF_in _ (sdFld_k _) rfl | (with_reducible apply received_in))

theorem execWorisySignalLoss_via {port : Nat} {x y : State} (hn : execWorisySignalLoss port x = .next y) :
    Via (Instr.worisySignalLoss port).foot x y := by
  refine act_via (n := 0x1000000000000000000000000000000000) hn ?_
  try dsimp only
  repeat' (first
    | exact wr_in _ (sdFld_k _) rfl | (with_reducible apply received_in))

theorem execWorisyFrameError_via {port : Nat} {x y : State} (hn : execWorisyFrameError port x = .next y) :
    Via (Instr.worisyFrameError port).foot x y := by
  refine act_via (n := 0x200000000000000000000000000000000000000) hn ?_
  try dsimp only
  repeat' (first
    | ((with_reducible refine incSat_in _ rfl ?_); dsimp only; rfl) | (with_reducible apply received_in))

theorem execPing_via {w : WReq} {x y : State} (hn : execPing w x = .next y) : Via (Instr.ping w).foot x y := by
  refine act_via (n := 0x200000000000000000000000000000100200000) hn ?_
  try dsimp only
  repeat' (first
    | (with_reducible exact within_pure _) | ((with_reducible refine freeCmd_in ?_ ?_) <;> [rfl; skip]))

theorem execInfo_via {w : WReq} {x y : State} (hn : execInfo w x = .next y) : Via (Instr.info w).foot x y := by
  refine act_via (n := 0x200000000000000000000000000000100200000) hn ?_
  try dsimp only
  repeat' (first
    | intro _ | (with_reducible apply within_bind) | (with_reducible exact within_pure _) | (with_reducible exact within_st)
    | ((with_reducible refine freeCmd_in ?_ ?_) <;> [rfl; skip]))

theorem execRegRead_via {w : WReq} {off cnt : Nat} {x y : State} (hn : execRegRead w off cnt x = .next y) :
    Via (Instr.regRead w off cnt).foot x y := by
  refine act_via (n := 0x200000000000000000000000000000100220000) hn ?_
  try dsimp only
  repeat' (first
    | intro _ | (with_reducible apply within_bind) | (with_reducible exact within_pure _) | split
    | ((with_reducible refine (fetchWords_in ..).mono ?_); rfl) | ((with_reducible refine freeCmd_in ?_ ?_) <;> [rfl; skip]))

theorem execRegWrite_via {w : WReq} {off : Nat} {ws : List (BitVec 32)} {x y : State} (hn : execRegWrite w off ws x = .next y) :
    Via (Instr.regWrite w off ws).foot x y := by
  refine act_via (n := 0x1fffffffffffffffffffffffffffffffffff000000010fffba3d) hn ?_
  try dsimp only
  repeat' (first
    | intro _ | (with_reducible apply within_bind) | (with_reducible exact within_pure _) | (with_reducible exact within_st)
    | (with_reducible apply within_each) | split | ((with_reducible refine (cmdRec_in ..).mono ?_); rfl)
    | ((with_reducible refine (putWords_in ..).mono ?_); rfl) | ((with_reducible refine (wordRec_in ..).mono ?_); rfl)
    | ((with_reducible refine request_in ?_ ?_) <;> [rfl; skip]))

theorem execEvtRead_via {w : WReq} {off len : Nat} {x y : State} (hn : execEvtRead w off len x = .next y) :
    Via (Instr.evtRead w off len).foot x y := by
  refine act_via (n := 0x200000000000000000000000000000100200000) hn ?_
  try dsimp only
  repeat' (first
    | intro _ | (with_reducible apply within_bind) | (with_reducible exact within_pure _) | (with_reducible exact within_st) | split
    | ((with_reducible refine freeCmd_in ?_ ?_) <;> [rfl; skip]))

theorem execMeasRead_via {w : WReq} {idx : Nat} {x y : State} (hn : execMeasRead w idx x = .next y) :
    Via (Instr.measRead w idx).foot x y := by
  refine act_via (n := 0x200000000000000000000000000000100200000) hn ?_
  try dsimp only
  repeat' (first
    | intro _ | (with_reducible apply within_bind) | (with_reducible exact within_pure _) | (with_reducible exact within_st) | split
    | ((with_reducible refine freeCmd_in ?_ ?_) <;> [rfl; skip]))

theorem execLeaseClaim_via {w : WReq} {x y : State} (hn : execLeaseClaim w x = .next y) : Via (Instr.leaseClaim w).foot x y := by
  refine act_via (n := 0x1b000000000b00000000000000000000000000000100301000) hn ?_
  try dsimp only
  repeat' (first
    | ((with_reducible refine (leaseClaim_in ..).mono ?_); rfl) | ((with_reducible refine freeCmd_in ?_ ?_) <;> [rfl; skip]))

theorem execLeaseRenew_via {w : WReq} {x y : State} (hn : execLeaseRenew w x = .next y) : Via (Instr.leaseRenew w).foot x y := by
  refine act_via (n := 0x1b000000000a00000000000000000000000000000100301000) hn ?_
  try dsimp only
  repeat' (first
    | intro _ | (with_reducible apply within_bind) | (with_reducible exact within_pure _)
    | ((with_reducible refine (leaseTouch_in).mono ?_); rfl) | ((with_reducible refine actCmd_in ?_ ?_) <;> [rfl; skip]))

theorem execLeaseRelease_via {w : WReq} {x y : State} (hn : execLeaseRelease w x = .next y) : Via (Instr.leaseRelease w).foot x y := by
  refine act_via (n := 0x1b000000000b00000000000000000000000000000100301000) hn ?_
  try dsimp only
  repeat' (first
    | intro _ | (with_reducible apply within_bind) | (with_reducible exact within_pure _)
    | ((with_reducible refine (leaseEnds_in).mono ?_); rfl) | ((with_reducible refine actCmd_in ?_ ?_) <;> [rfl; skip]))

theorem execLeaseStatus_via {w : WReq} {x y : State} (hn : execLeaseStatus w x = .next y) : Via (Instr.leaseStatus w).foot x y := by
  refine act_via (n := 0x200000000000000000000000000000100200000) hn ?_
  try dsimp only
  repeat' (first
    | intro _ | (with_reducible apply within_bind) | (with_reducible exact within_pure _) | (with_reducible exact within_st)
    | ((with_reducible refine freeCmd_in ?_ ?_) <;> [rfl; skip]))

theorem execSetClip_via {w : WReq} {watts : Nat} {x y : State} (hn : execSetClip w watts x = .next y) :
    Via (Instr.setClip w watts).foot x y := by
  refine act_via (n := 0x1b000000000a00000001c00000000000000000000100351000) hn ?_
  try dsimp only
  repeat' (first
    | ((with_reducible refine actCmd_in ?_ ?_) <;> [rfl; skip])
    | ((with_reducible refine setLevel_in _ rfl ?_ ?_) <;> [(dsimp only; rfl); rfl]))

theorem execSetRackClip_via {w : WReq} {watts : Nat} {x y : State} (hn : execSetRackClip w watts x = .next y) :
    Via (Instr.setRackClip w watts).foot x y := by
  refine act_via (n := 0x1b000000000a00000001c00000000000000000000100351000) hn ?_
  try dsimp only
  repeat' (first
    | ((with_reducible refine actCmd_in ?_ ?_) <;> [rfl; skip])
    | ((with_reducible refine setLevel_in _ rfl ?_ ?_) <;> [(dsimp only; rfl); rfl]))

theorem execSetOpCeil_via {w : WReq} {point time : Nat} {x y : State} (hn : execSetOpCeil w point time x = .next y) :
    Via (Instr.setOpCeil w point time).foot x y := by
  refine act_via (n := 0x1b000000000a00000008000000000000000000000100340000) hn ?_
  try dsimp only
  repeat' (first
    | ((with_reducible refine (setCeil_in ..).mono ?_); rfl) | ((with_reducible refine actCmd_in ?_ ?_) <;> [rfl; skip]))

theorem execFlowReport_via {w : WReq} {flow : Nat} {x y : State} (hn : execFlowReport w flow x = .next y) :
    Via (Instr.flowReport w flow).foot x y := by
  refine act_via (n := 0x1b000000000a00000012c00000000000000000000100351000) hn ?_
  try dsimp only
  repeat' (first
    | ((with_reducible refine (flowPut_in ..).mono ?_); rfl) | ((with_reducible refine actCmd_in ?_ ?_) <;> [rfl; skip]))

theorem execOperatorHold_via {w : WReq} {x y : State} (hn : execOperatorHold w x = .next y) : Via (Instr.operatorHold w).foot x y := by
  refine act_via (n := 0x1b000000000a00000000400000000000000000000100349000) hn ?_
  try dsimp only
  repeat' (first
    | intro _ | (with_reducible apply within_bind) | (with_reducible exact within_pure _)
    | ((with_reducible refine actCmd_in ?_ ?_) <;> [rfl; skip])
    | ((with_reducible refine enterHold_in _ rfl ?_ ?_) <;> [(dsimp only; rfl); rfl]))

theorem execOperatorHoldRelease_via {w : WReq} {x y : State} (hn : execOperatorHoldRelease w x = .next y) :
    Via (Instr.operatorHoldRelease w).foot x y := by
  refine act_via (n := 0x1b000000000a00000000400000000000000000000100359000) hn ?_
  try dsimp only
  repeat' (first
    | intro _ | (with_reducible apply within_bind) | (with_reducible exact within_pure _)
    | ((with_reducible refine within_wr _ _ ?_); dsimp only; rfl) | ((with_reducible refine (leaveHold_in).mono ?_); rfl)
    | ((with_reducible refine actCmd_in ?_ ?_) <;> [rfl; skip]))

theorem execReset_via {w : WReq} {rung pmask slot rsv0 : Nat} {x y : State} (hn : execReset w rung pmask slot rsv0 x = .next y) :
    Via (Instr.reset w rung pmask slot rsv0).foot x y := by
  refine act_via (n := 0x101b000000000ac019b4006000080000b0f00000000107ff9a3d) hn ?_
  try dsimp only
  repeat' (first
    | intro _ | (with_reducible apply within_bind) | (with_reducible exact within_pure _) | split
    | ((with_reducible refine (askRung_in ..).mono ?_); rfl) | ((with_reducible refine actCmd_in ?_ ?_) <;> [rfl; skip]))

theorem execMemberRenew_via {w : WReq} {x y : State} (hn : execMemberRenew w x = .next y) : Via (Instr.memberRenew w).foot x y := by
  refine act_via (n := 0x101b000000000a00003000010000000000000000000100320000) hn ?_
  try dsimp only
  repeat' (first
    | ((with_reducible refine (renewMember_in).mono ?_); rfl) | ((with_reducible refine actCmd_in ?_ ?_) <;> [rfl; skip]))

theorem execFenceCommand_via {w : WReq} {x y : State} (hn : execFenceCommand w x = .next y) : Via (Instr.fenceCommand w).foot x y := by
  refine act_via (n := 0x101b000000000a00013000010020000000000000000102329008) hn ?_
  try dsimp only
  repeat' (first
    | intro _ | (with_reducible apply within_bind) | (with_reducible exact within_pure _)
    | ((with_reducible refine (enterFenced_in ..).mono ?_); rfl) | ((with_reducible refine actCmd_in ?_ ?_) <;> [rfl; skip]))

theorem execReadmit_via {w : WReq} {epoch : Nat} {x y : State} (hn : execReadmit w epoch x = .next y) :
    Via (Instr.readmit w epoch).foot x y := by
  refine act_via (n := 0x101b000000000a400130000048a000000000000000010a329000) hn ?_
  try dsimp only
  repeat' (first
    | ((with_reducible refine (readmitNow_in ..).mono ?_); rfl) | ((with_reducible refine actCmd_in ?_ ?_) <;> [rfl; skip]))

theorem execWorisyClrFails_via {w : WReq} {x y : State} (hn : execWorisyClrFails w x = .next y) :
    Via (Instr.worisyClrFails w).foot x y := by
  refine act_via (n := 0x1b000000000a00010000000000000000000000000102300000) hn ?_
  try dsimp only
  repeat' (first
    | intro _ | (with_reducible apply within_bind) | (with_reducible exact within_pure _)
    | ((with_reducible refine (clearFails_in).mono ?_); rfl) | ((with_reducible refine actCmd_in ?_ ?_) <;> [rfl; skip]))

theorem execActivate_via {w : WReq} {tA grp nMembers confirmS : Nat} {x y : State} (hn : execActivate w tA grp nMembers confirmS x = .next y) :
    Via (Instr.activate w tA grp nMembers confirmS).foot x y := by
  refine act_via (n := 0x1b000000010a00000000000000000000000000000100700000) hn ?_
  try dsimp only
  repeat' (first
    | intro _ | (with_reducible apply within_bind) | (with_reducible exact within_pure _) | (with_reducible exact within_st)
    | ((with_reducible refine within_eff _ ?_); dsimp only [Eff.tag]; rfl) | ((with_reducible refine within_wr _ _ ?_); dsimp only; rfl)
    | split | ((with_reducible refine actCmd_in ?_ ?_) <;> [rfl; skip]))

theorem execUpdVote_via {fa gen : Nat} {ready : Bool} {x y : State} (hn : execUpdVote fa gen ready x = .next y) :
    Via (Instr.updVote fa gen ready).foot x y := by
  refine act_via (n := 0x100000000000000000000000400000) hn ?_
  try dsimp only
  repeat' (first
    | intro _ | (with_reducible apply within_bind) | (with_reducible exact within_st) | (with_reducible apply within_when)
    | ((with_reducible refine within_eff _ ?_); dsimp only [Eff.tag]; rfl) | split
    | ((with_reducible refine (dropPkt_in ..).mono ?_); rfl))

theorem execConfirm_via {w : WReq} {x y : State} (hn : execConfirm w x = .next y) : Via (Instr.confirm w).foot x y := by
  refine act_via (n := 0x1b000000010e0000000000000000000000000000018a300000) hn ?_
  try dsimp only
  repeat' (first
    | intro _ | (with_reducible apply within_bind) | (with_reducible exact within_pure _) | (with_reducible exact within_st)
    | (with_reducible apply within_when) | ((with_reducible refine within_eff _ ?_); dsimp only [Eff.tag]; rfl) | split
    | ((with_reducible refine (keepFormat_in ..).mono ?_); rfl) | ((with_reducible refine (setUpd_in ..).mono ?_); rfl)
    | ((with_reducible refine (showOwner_in).mono ?_); rfl) | ((with_reducible refine actCmd_in ?_ ?_) <;> [rfl; skip]))

theorem execRollback_via {w : WReq} {x y : State} (hn : execRollback w x = .next y) : Via (Instr.rollback w).foot x y := by
  refine act_via (n := 0x5b000000010a0000000000000000000000000000010b308000) hn ?_
  try dsimp only
  repeat' (first
    | intro _ | (with_reducible apply within_bind) | (with_reducible exact within_pure _) | (with_reducible exact within_rd _) | split
    | ((with_reducible refine (revertNow_in).mono ?_); rfl) | ((with_reducible refine actCmd_in ?_ ?_) <;> [rfl; skip]))

theorem execActivatePlan_via {w : WReq} {tA slot : Nat} {x y : State} (hn : execActivatePlan w tA slot x = .next y) :
    Via (Instr.activatePlan w tA slot).foot x y := by
  refine act_via (n := 0x1b000000000a00000000000000020000000000000104f11018) hn ?_
  try dsimp only
  repeat' (first
    | intro _ | (with_reducible apply within_bind) | (with_reducible exact within_pure _) | (with_reducible exact within_st)
    | ((with_reducible refine within_eff _ ?_); dsimp only [Eff.tag]; rfl) | split
    | ((with_reducible refine (planSwitch_in ..).mono ?_); rfl) | ((with_reducible refine actCmd_in ?_ ?_) <;> [rfl; skip]))

theorem execEvtClear_via {w : WReq} {x y : State} (hn : execEvtClear w x = .next y) : Via (Instr.evtClear w).foot x y := by
  refine act_via (n := 0x1f000000000a00000000000000000000000000000104300004) hn ?_
  try dsimp only
  repeat' (first
    | ((with_reducible refine (clearRecorder_in ..).mono ?_); rfl) | ((with_reducible refine actCmd_in ?_ ?_) <;> [rfl; skip]))

theorem execOwnerChallenge_via {w : WReq} {x y : State} (hn : execOwnerChallenge w x = .next y) :
    Via (Instr.ownerChallenge w).foot x y := by
  refine act_via (n := 0x200000000000000000000000000000100202000) hn ?_
  try dsimp only
  repeat' (first
    | ((with_reducible refine (challenge_in ..).mono ?_); rfl) | ((with_reducible refine freeCmd_in ?_ ?_) <;> [rfl; skip]))

theorem execOwnerEnroll_via {w : WReq} {slot : Nat} {modulus auth : List Byte} {x y : State} (hn : execOwnerEnroll w slot modulus auth x = .next y) :
    Via (Instr.ownerEnroll w slot modulus auth).foot x y := by
  refine act_via (n := 0x1b000000000e00000000000000000000000000000124300000) hn ?_
  try dsimp only
  repeat' (first
    | ((with_reducible refine (enroll_in ..).mono ?_); rfl) | ((with_reducible refine actCmd_in ?_ ?_) <;> [rfl; skip]))

theorem execOwnerRevoke_via {w : WReq} {slot : Nat} {auth : List Byte} {x y : State} (hn : execOwnerRevoke w slot auth x = .next y) :
    Via (Instr.ownerRevoke w slot auth).foot x y := by
  refine act_via (n := 0x1b000000000e00000000000000000000000000000140300000) hn ?_
  try dsimp only
  repeat' (first
    | ((with_reducible refine (revoke_in ..).mono ?_); rfl) | ((with_reducible refine actCmd_in ?_ ?_) <;> [rfl; skip]))

theorem execSetSecurity_via {w : WReq} {ideReq : Nat} {x y : State} (hn : execSetSecurity w ideReq x = .next y) :
    Via (Instr.setSecurity w ideReq).foot x y := by
  refine act_via (n := 0x1b000000000e00000000000000000000000000000108300000) hn ?_
  try dsimp only
  repeat' (first
    | intro _ | (with_reducible apply within_bind) | (with_reducible exact within_pure _)
    | ((with_reducible refine within_eff _ ?_); dsimp only [Eff.tag]; rfl) | ((with_reducible refine within_wr _ _ ?_); dsimp only; rfl)
    | split | ((with_reducible refine actCmd_in ?_ ?_) <;> [rfl; skip]))

theorem execUpdateCheck_via {src : Src} {x y : State} (hn : execUpdateCheck src x = .next y) : Via (Instr.updateCheck src).foot x y := by
  refine act_via (n := 0x1b000000010800000000000000000000000000000102300000) hn ?_
  try dsimp only
  repeat' (first
    | intro _ | ((with_reducible refine (putUpdCtl_in ..).mono ?_); rfl) | ((with_reducible refine barField_in ?_ ?_) <;> [rfl; skip]))

theorem execUpdateProgram_via {src : Src} {x y : State} (hn : execUpdateProgram src x = .next y) :
    Via (Instr.updateProgram src).foot x y := by
  refine act_via (n := 0x1b000000010800000000000000000000000000000102300000) hn ?_
  try dsimp only
  repeat' (first
    | intro _ | ((with_reducible refine (putUpdCtl_in ..).mono ?_); rfl) | ((with_reducible refine barField_in ?_ ?_) <;> [rfl; skip]))

theorem execProgramDone_via {verify : Bool} {x y : State} (hn : execProgramDone verify x = .next y) :
    Via (Instr.programDone verify).foot x y := by
  refine act_via (n := 0x10000000000000000000000000000000102200000) hn ?_
  try dsimp only
  repeat' (first
    | intro _ | (with_reducible apply within_bind) | (with_reducible exact within_pure _) | (with_reducible exact within_rd _)
    | ((with_reducible refine within_eff _ ?_); dsimp only [Eff.tag]; rfl) | ((with_reducible refine within_wr _ _ ?_); dsimp only; rfl)
    | split | ((with_reducible refine (setUpd_in ..).mono ?_); rfl))

theorem execUpdateCancel_via {src : Src} {x y : State} (hn : execUpdateCancel src x = .next y) : Via (Instr.updateCancel src).foot x y := by
  refine act_via (n := 0x1b000000010800000000000000000000000000000102300000) hn ?_
  try dsimp only
  repeat' (first
    | intro _ | ((with_reducible refine (putUpdCtl_in ..).mono ?_); rfl) | ((with_reducible refine barField_in ?_ ?_) <;> [rfl; skip]))

theorem execStagingWrite_via {src : Src} {off : Nat} {v : BitVec 32} {x y : State} (hn : execStagingWrite src off v x = .next y) :
    Via (Instr.stagingWrite src off v).foot x y := by
  refine act_via (n := 0x1b000000010800000000000000000000000000000102700000) hn ?_
  try dsimp only
  repeat' (first
    | (with_reducible exact within_pure _) | split | ((with_reducible refine (putStaging_in ..).mono ?_); rfl)
    | ((with_reducible refine recorded_in ?_ ?_) <;> [rfl; skip]))

theorem execSpdmRequest_via {req : List Byte} {x y : State} (hn : execSpdmRequest req x = .next y) :
    Via (Instr.spdmRequest req).foot x y := by
  refine act_via (n := 0x100000000) hn ?_
  try dsimp only
  repeat' (first
    | intro _ | (with_reducible apply within_bind) | (with_reducible exact within_pure _) | (with_reducible exact mode_in) | split
    | ((with_reducible refine (send_in ..).mono ?_); rfl))

theorem execIdeKeyProg_via {stream : Nat} {key : List Byte} {x y : State} (hn : execIdeKeyProg stream key x = .next y) :
    Via (Instr.ideKeyProg stream key).foot x y := by
  refine act_via (n := 0x1000000) hn ?_
  try dsimp only
  ((with_reducible refine within_eff _ ?_); dsimp only [Eff.tag]; rfl)

theorem execQuicksetGo_via {src : Src} {x y : State} (hn : execQuicksetGo src x = .next y) : Via (Instr.quicksetGo src).foot x y := by
  refine act_via (n := 0x1b000000000800200000000000000000000000000100b03000) hn ?_
  try dsimp only
  repeat' (first
    | intro _ | ((with_reducible refine (putQsCtl_in ..).mono ?_); rfl) | ((with_reducible refine barField_in ?_ ?_) <;> [rfl; skip]))

theorem execQuicksetCancel_via {src : Src} {x y : State} (hn : execQuicksetCancel src x = .next y) :
    Via (Instr.quicksetCancel src).foot x y := by
  refine act_via (n := 0x1b000000000800200000000000000000000000000100b03000) hn ?_
  try dsimp only
  repeat' (first
    | intro _ | ((with_reducible refine (putQsCtl_in ..).mono ?_); rfl) | ((with_reducible refine barField_in ?_ ?_) <;> [rfl; skip]))

theorem execQsAnnounce_via {gen : Nat} {a : QsAnn} {x y : State} (hn : execQsAnnounce gen a x = .next y) :
    Via (Instr.qsAnnounce gen a).foot x y := by
  refine act_via (n := 0x10000000000400000100000000000000000000004801010) hn ?_
  try dsimp only
  repeat' (first
    | intro _ | (with_reducible apply within_bind) | (with_reducible exact within_pure _) | (with_reducible exact within_st) | split
    | ((with_reducible refine (qsJoin_in ..).mono ?_); rfl) | ((with_reducible refine fromPeer_in ?_ ?_) <;> [rfl; skip]))

theorem execQsBlock_via {fa gen user : Nat} {data : List Byte} {x y : State} (hn : execQsBlock fa gen user data x = .next y) :
    Via (Instr.qsBlock fa gen user data).foot x y := by
  refine act_via (n := 0x1000000000041000010000002000000000000000080901a) hn ?_
  try dsimp only
  repeat' (first
    | intro _ | (with_reducible apply within_bind) | ((with_reducible refine (mark_in ..).mono ?_); rfl)
    | ((with_reducible refine (qsTake_in ..).mono ?_); rfl) | ((with_reducible refine fromPeer_in ?_ ?_) <;> [rfl; skip]))

theorem execQsEnd_via {fa gen session : Nat} {x y : State} (hn : execQsEnd fa gen session x = .next y) :
    Via (Instr.qsEnd fa gen session).foot x y := by
  refine act_via (n := 0x400000100000000000000000000100801000) hn ?_
  try dsimp only
  repeat' (first
    | intro _ | (with_reducible apply within_bind) | (with_reducible exact within_pure _) | (with_reducible exact within_st) | split
    | ((with_reducible refine (qsRoundFrom_in ..).mono ?_); rfl) | ((with_reducible refine fromPeer_in ?_ ?_) <;> [rfl; skip]))

theorem execQsReq_via {fa gen session : Nat} {blocks : List (Bool × Nat)} {x y : State} (hn : execQsReq fa gen session blocks x = .next y) :
    Via (Instr.qsReq fa gen session blocks).foot x y := by
  refine act_via (n := 0x100000000000000000000100000000) hn ?_
  try dsimp only
  repeat' (first
    | intro _ | (with_reducible apply within_bind) | (with_reducible exact within_pure _) | (with_reducible exact within_st)
    | (with_reducible apply within_when) | (with_reducible apply within_each) | split | ((with_reducible refine (svc_in ..).mono ?_); rfl)
    | ((with_reducible refine fromPeer_in ?_ ?_) <;> [rfl; skip]))

theorem execQsData_via {fa gen user : Nat} {data : List Byte} {x y : State} (hn : execQsData fa gen user data x = .next y) :
    Via (Instr.qsData fa gen user data).foot x y := by
  refine act_via (n := 0x1000000000041000010000002000000000000010080901a) hn ?_
  try dsimp only
  repeat' (first
    | intro _ | (with_reducible apply within_bind) | (with_reducible apply within_when)
    | ((with_reducible refine (qsAnswered_in).mono ?_); rfl) | ((with_reducible refine (qsTake_in ..).mono ?_); rfl)
    | ((with_reducible refine (qsUnask_in ..).mono ?_); rfl) | ((with_reducible refine fromPeer_in ?_ ?_) <;> [rfl; skip]))

theorem execQsNak_via {fa gen : Nat} {blocks : List (Bool × Nat)} {x y : State} (hn : execQsNak fa gen blocks x = .next y) :
    Via (Instr.qsNak fa gen blocks).foot x y := by
  refine act_via (n := 0x400000100000000000000000000100801000) hn ?_
  try dsimp only
  repeat' (first
    | intro _ | (with_reducible apply within_bind) | ((with_reducible refine (qsAnswered_in).mono ?_); rfl)
    | ((with_reducible refine (qsUnask_in ..).mono ?_); rfl) | ((with_reducible refine fromPeer_in ?_ ?_) <;> [rfl; skip]))

theorem execRegisterWrite_via {src : Src} {off : Nat} {len : Nat} {v : BitVec 64} {x y : State} (hn : execRegisterWrite src off len v x = .next y) :
    Via (Instr.registerWrite src off len v).foot x y := by
  refine act_via (n := 0x1fffffffffffffffffffffffffffffffffff000000010fffba3d) hn ?_
  try dsimp only
  ((with_reducible refine (barBytes_in ..).mono ?_); rfl)

theorem execCommandDone_via {port seq : Nat} {x y : State} (hn : execCommandDone port seq x = .next y) :
    Via (Instr.commandDone port seq).foot x y := by
  refine act_via (n := 0x100200000) hn ?_
  try dsimp only
  repeat' (first
    | intro _ | (with_reducible apply within_bind) | (with_reducible exact within_pure _) | (with_reducible exact within_st) | split
    | ((with_reducible refine (notice_in ..).mono ?_); rfl) | ((with_reducible refine (upWor_in ..).mono ?_); rfl))

theorem execPowerOnReset_via {x y : State} (hn : execPowerOnReset x = .next y) : Via (Instr.powerOnReset).foot x y := by
  refine act_via (n := 0x800000000000000020000000000000314b1f01a) hn ?_
  try dsimp only
  repeat' (first
    | intro _ | (with_reducible apply within_bind) | (with_reducible exact within_pure _) | (with_reducible exact within_st)
    | ((with_reducible refine within_eff _ ?_); dsimp only [Eff.tag]; rfl) | split
    | ((with_reducible refine (latchWrite_in ..).mono ?_); rfl) | ((with_reducible refine (losePower_in).mono ?_); rfl))

theorem execMate_via {x y : State} (hn : execMate x = .next y) : Via (Instr.mate).foot x y := by
  refine act_via (n := 0x5000) hn ?_
  try dsimp only
  repeat' (first
    | intro _ | (with_reducible apply within_bind) | ((with_reducible refine within_eff _ ?_); dsimp only [Eff.tag]; rfl)
    | ((with_reducible refine (mark_in ..).mono ?_); rfl))

theorem execUnmate_via {x y : State} (hn : execUnmate x = .next y) : Via (Instr.unmate).foot x y := by
  refine act_via (n := 0x800000000000000020000000000000314b1f01a) hn ?_
  try dsimp only
  repeat' (first
    | intro _ | (with_reducible apply within_bind) | ((with_reducible refine within_eff _ ?_); dsimp only [Eff.tag]; rfl)
    | ((with_reducible refine (switchOff_in ..).mono ?_); rfl))

theorem execUndervoltageOff_via {x y : State} (hn : execUndervoltageOff x = .next y) : Via (Instr.undervoltageOff).foot x y := by
  refine act_via (n := 0x800000000000000020000000000000314b1f01a) hn ?_
  try dsimp only
  ((with_reducible refine (switchOff_in ..).mono ?_); rfl)

theorem execInrushFault_via {x y : State} (hn : execInrushFault x = .next y) : Via (Instr.inrushFault).foot x y := by
  refine act_via (n := 0x800000000000000020000000000000314b1f41a) hn ?_
  try dsimp only
  repeat' (first
    | intro _ | (with_reducible apply within_bind) | (with_reducible exact within_pure _) | (with_reducible exact within_st)
    | ((with_reducible refine within_eff _ ?_); dsimp only [Eff.tag]; rfl) | split | ((with_reducible refine (advTo_in ..).mono ?_); rfl)
    | ((with_reducible refine (switchOff_in ..).mono ?_); rfl))

theorem execEpo_via {x y : State} (hn : execEpo x = .next y) : Via (Instr.epo).foot x y := by
  refine act_via (n := 0x800000000000000020000000000000314b1f01a) hn ?_
  try dsimp only
  repeat' (first
    | intro _ | (with_reducible apply within_bind) | ((with_reducible refine within_eff _ ?_); dsimp only [Eff.tag]; rfl)
    | ((with_reducible refine (switchOff_in ..).mono ?_); rfl))

theorem execEpoRelease_via {x y : State} (hn : execEpoRelease x = .next y) : Via (Instr.epoRelease).foot x y := by
  refine act_via (n := 0x5000) hn ?_
  try dsimp only
  repeat' (first
    | intro _ | (with_reducible apply within_bind) | (with_reducible exact within_pure _) | (with_reducible exact within_st)
    | ((with_reducible refine within_eff _ ?_); dsimp only [Eff.tag]; rfl) | split | ((with_reducible refine (mark_in ..).mono ?_); rfl))

theorem execLatchClear_via {x y : State} (hn : execLatchClear x = .next y) : Via (Instr.latchClear).foot x y := by
  refine act_via (n := 0x5400) hn ?_
  try dsimp only
  repeat' (first
    | intro _ | (with_reducible apply within_bind) | (with_reducible exact within_pure _) | (with_reducible exact within_st)
    | ((with_reducible refine within_eff _ ?_); dsimp only [Eff.tag]; rfl) | split | ((with_reducible refine (advTo_in ..).mono ?_); rfl)
    | ((with_reducible refine (mark_in ..).mono ?_); rfl))

theorem execBrownoutEnd_via {x y : State} (hn : execBrownoutEnd x = .next y) : Via (Instr.brownoutEnd).foot x y := by
  refine act_via (n := 0x1b000000000800400000400000020000000000000100b5d41a) hn ?_
  try dsimp only
  repeat' (first
    | intro _ | (with_reducible apply within_bind) | (with_reducible exact within_pure _) | (with_reducible exact within_st)
    | (with_reducible exact within_now) | ((with_reducible refine within_eff _ ?_); dsimp only [Eff.tag]; rfl)
    | ((with_reducible refine within_wr _ _ ?_); dsimp only; rfl) | split | ((with_reducible refine (advTo_in ..).mono ?_); rfl)
    | ((with_reducible refine (ev_in ..).mono ?_); rfl) | ((with_reducible refine (leaveHold_in).mono ?_); rfl)
    | ((with_reducible refine (qsResume_in).mono ?_); rfl))

theorem execStartTimeout_via {x y : State} (hn : execStartTimeout x = .next y) : Via (Instr.startTimeout).foot x y := by
  refine act_via (n := 0x1b00000000080001000000000000000000000000010230d400) hn ?_
  try dsimp only
  repeat' (first
    | intro _ | (with_reducible apply within_bind) | (with_reducible exact within_pure _) | (with_reducible exact within_st) | split
    | ((with_reducible refine (advTo_in ..).mono ?_); rfl) | ((with_reducible refine (failStart_in ..).mono ?_); rfl))

theorem execStartRetry_via {x y : State} (hn : execStartRetry x = .next y) : Via (Instr.startRetry).foot x y := by
  refine act_via (n := 0x101b00000000084009b400000000000000000000000107ff9e1d) hn ?_
  try dsimp only
  repeat' (first
    | intro _ | (with_reducible apply within_bind) | (with_reducible exact within_pure _) | (with_reducible exact within_st) | split
    | ((with_reducible refine (advTo_in ..).mono ?_); rfl) | ((with_reducible refine (moduleStage3_in ..).mono ?_); rfl))

theorem execHostFwTimeout_via {x y : State} (hn : execHostFwTimeout x = .next y) : Via (Instr.hostFwTimeout).foot x y := by
  refine act_via (n := 0x1b00000000080001000000000000000000000000010230d400) hn ?_
  try dsimp only
  repeat' (first
    | intro _ | (with_reducible apply within_bind) | (with_reducible exact within_pure _) | (with_reducible exact within_st) | split
    | ((with_reducible refine (advTo_in ..).mono ?_); rfl) | ((with_reducible refine (failStart_in ..).mono ?_); rfl))

theorem execBrambleSample_via {x y : State} (hn : execBrambleSample x = .next y) : Via (Instr.brambleSample).foot x y := by
  refine act_via (n := 0x1b800000000800000000000000000002000000000100381400) hn ?_
  try dsimp only
  repeat' (first
    | intro _ | (with_reducible apply within_bind) | (with_reducible exact within_st) | (with_reducible apply within_each)
    | ((with_reducible refine within_eff _ ?_); dsimp only [Eff.tag]; rfl) | ((with_reducible refine (periodic_in ..).mono ?_); rfl)
    | ((with_reducible refine (reportCycle_in ..).mono ?_); rfl))

theorem execJournalCommit_via {x y : State} (hn : execJournalCommit x = .next y) : Via (Instr.journalCommit).foot x y := by
  refine act_via (n := 0x10000000000400000000000000000000000000004811410) hn ?_
  try dsimp only
  repeat' (first
    | intro _ | (with_reducible apply within_bind) | (with_reducible exact within_st) | split
    | ((with_reducible refine (commitServing_in).mono ?_); rfl) | ((with_reducible refine (periodic_in ..).mono ?_); rfl))

theorem execWearRefill_via {x y : State} (hn : execWearRefill x = .next y) : Via (Instr.wearRefill).foot x y := by
  refine act_via (n := 0x1410) hn ?_
  try dsimp only
  repeat' (first
    | intro _ | (with_reducible apply within_bind) | ((with_reducible refine within_eff _ ?_); dsimp only [Eff.tag]; rfl)
    | ((with_reducible refine (periodic_in ..).mono ?_); rfl))

theorem execGateTick_via {x y : State} (hn : execGateTick x = .next y) : Via (Instr.gateTick).foot x y := by
  refine act_via (n := 0x41b0000030008000000004000000326b0f300000001003d156a) hn ?_
  try dsimp only
  repeat' (first
    | intro _ | (with_reducible apply within_bind) | (with_reducible exact within_pure _) | (with_reducible exact within_st)
    | (with_reducible apply within_loop) | ((with_reducible refine within_eff _ ?_); dsimp only [Eff.tag]; rfl) | split
    | ((with_reducible refine (admitPhase_in ..).mono ?_); rfl) | ((with_reducible refine (periodic_in ..).mono ?_); rfl))

theorem execQslot_via {x y : State} (hn : execQslot x = .next y) : Via (Instr.qslot).foot x y := by
  refine act_via (n := 0x41b0000030008000000001000000326b0f300000001003f116a) hn ?_
  try dsimp only
  repeat' (first
    | intro _ | (with_reducible apply within_bind) | (with_reducible exact within_pure _) | split
    | ((with_reducible refine (takeInbox_in ..).mono ?_); rfl) | ((with_reducible refine (takeQslot_in ..).mono ?_); rfl))

theorem execCredit_via {x y : State} (hn : execCredit x = .next y) : Via (Instr.credit).foot x y := by
  refine act_via (n := 0x41b0000030008000000000000000326b0f300000001003f016a) hn ?_
  try dsimp only
  repeat' (first
    | intro _ | (with_reducible apply within_bind) | (with_reducible exact within_pure _) | (with_reducible exact within_st) | split
    | ((with_reducible refine (addCredit_in ..).mono ?_); rfl) | ((with_reducible refine (groupCredit_in ..).mono ?_); rfl)
    | ((with_reducible refine (takeInbox_in ..).mono ?_); rfl))

theorem execStreamOpen_via {x y : State} (hn : execStreamOpen x = .next y) : Via (Instr.streamOpen).foot x y := by
  refine act_via (n := 0x200000000000000000000000020000) hn ?_
  try dsimp only
  repeat' (first
    | intro _ | (with_reducible apply within_bind) | (with_reducible exact within_pure _) | (with_reducible exact within_st)
    | ((with_reducible refine within_eff _ ?_); dsimp only [Eff.tag]; rfl) | ((with_reducible refine incSat_in _ rfl ?_); dsimp only; rfl)
    | split | ((with_reducible refine (queuePkt_in ..).mono ?_); rfl) | ((with_reducible refine (refreshInUse_in).mono ?_); rfl)
    | ((with_reducible refine (takeInbox_in ..).mono ?_); rfl) | ((with_reducible refine (upIn_in ..).mono ?_); rfl))

theorem execStreamGrant_via {x y : State} (hn : execStreamGrant x = .next y) : Via (Instr.streamGrant).foot x y := by
  refine act_via (n := 0x20000) hn ?_
  try dsimp only
  repeat' (first
    | intro _ | (with_reducible apply within_bind) | (with_reducible exact within_pure _) | (with_reducible exact within_now) | split
    | ((with_reducible refine (pumpStream_in ..).mono ?_); rfl) | ((with_reducible refine (takeAnswer_in ..).mono ?_); rfl)
    | ((with_reducible refine (upOut_in ..).mono ?_); rfl))

theorem execStreamBusy_via {x y : State} (hn : execStreamBusy x = .next y) : Via (Instr.streamBusy).foot x y := by
  refine act_via (n := 0x20000) hn ?_
  try dsimp only
  repeat' (first
    | intro _ | (with_reducible apply within_bind) | (with_reducible exact within_pure _) | (with_reducible exact within_now) | split
    | ((with_reducible refine (takeAnswer_in ..).mono ?_); rfl) | ((with_reducible refine (upOut_in ..).mono ?_); rfl))

theorem execStreamAck_via {x y : State} (hn : execStreamAck x = .next y) : Via (Instr.streamAck).foot x y := by
  refine act_via (n := 0x20000) hn ?_
  try dsimp only
  repeat' (first
    | intro _ | (with_reducible apply within_bind) | (with_reducible exact within_pure _) | (with_reducible exact within_now) | split
    | ((with_reducible refine (pumpStream_in ..).mono ?_); rfl) | ((with_reducible refine (takeAnswer_in ..).mono ?_); rfl)
    | ((with_reducible refine (upOut_in ..).mono ?_); rfl))

theorem execStreamClose_via {x y : State} (hn : execStreamClose x = .next y) : Via (Instr.streamClose).foot x y := by
  refine act_via (n := 0x200000000000000000000000020000) hn ?_
  try dsimp only
  repeat' (first
    | intro _ | (with_reducible apply within_bind) | (with_reducible exact within_pure _) | (with_reducible exact within_st) | split
    | ((with_reducible refine (freeIn_in ..).mono ?_); rfl) | ((with_reducible refine (takeInbox_in ..).mono ?_); rfl))

theorem execLaying_via {x y : State} (hn : execLaying x = .next y) : Via (Instr.laying).foot x y := by
  refine act_via (n := 0x101b00000000080001300001482000000000000000010a329408) hn ?_
  try dsimp only
  repeat' (first
    | intro _ | (with_reducible apply within_bind) | (with_reducible exact within_pure _) | (with_reducible exact within_st)
    | ((with_reducible refine within_eff _ ?_); dsimp only [Eff.tag]; rfl) | ((with_reducible refine setF_in _ rfl ?_); dsimp only; rfl)
    | split | ((with_reducible refine (bankCancel_in).mono ?_); rfl) | ((with_reducible refine (ev_in ..).mono ?_); rfl)
    | ((with_reducible refine (layNow_in).mono ?_); rfl))

theorem execEpochHoldEnd_via {x y : State} (hn : execEpochHoldEnd x = .next y) : Via (Instr.epochHoldEnd).foot x y := by
  refine act_via (n := 0x4000000000000000000000000400) hn ?_
  try dsimp only
  repeat' (first
    | intro _ | (with_reducible apply within_bind) | (with_reducible exact within_pure _) | (with_reducible exact within_st)
    | ((with_reducible refine within_wr _ _ ?_); dsimp only; rfl) | split | ((with_reducible refine (advTo_in ..).mono ?_); rfl)
    | (with_reducible exact seenAt_in ..))

theorem execMembershipLapse_via {x y : State} (hn : execMembershipLapse x = .next y) : Via (Instr.membershipLapse).foot x y := by
  refine act_via (n := 0x101b000000000800003000010000000000000000000100300400) hn ?_
  try dsimp only
  repeat' (first
    | intro _ | (with_reducible apply within_bind) | (with_reducible exact within_pure _) | (with_reducible exact within_st)
    | (with_reducible exact within_rd _) | ((with_reducible refine setF_in _ rfl ?_); dsimp only; rfl) | split
    | ((with_reducible refine (advTo_in ..).mono ?_); rfl) | ((with_reducible refine (ev_in ..).mono ?_); rfl)
    | ((with_reducible refine faultCond_in _ rfl ?_ ?_) <;> [(dsimp only; rfl); rfl]))

theorem execTimeFrameSend_via {x y : State} (hn : execTimeFrameSend x = .next y) : Via (Instr.timeFrameSend).foot x y := by
  refine act_via (n := 0x100021c00) hn ?_
  try dsimp only
  repeat' (first
    | intro _ | (with_reducible apply within_bind) | (with_reducible exact within_pure _) | (with_reducible exact within_st)
    | (with_reducible apply within_when) | (with_reducible apply within_each)
    | ((with_reducible refine within_eff _ ?_); dsimp only [Eff.tag]; rfl) | split
    | ((with_reducible refine (periodic_in ..).mono ?_); rfl) | ((with_reducible refine (send_in ..).mono ?_); rfl))

theorem execRootLoss_via {x y : State} (hn : execRootLoss x = .next y) : Via (Instr.rootLoss).foot x y := by
  refine act_via (n := 0x40000000000000000000000021400) hn ?_
  try dsimp only
  repeat' (first
    | intro _ | (with_reducible apply within_bind) | (with_reducible exact within_pure _) | (with_reducible exact within_rd _)
    | (with_reducible apply within_each) | ((with_reducible refine within_wr _ _ ?_); dsimp only; rfl) | split
    | ((with_reducible refine (advTo_in ..).mono ?_); rfl) | ((with_reducible refine (mark_in ..).mono ?_); rfl)
    | ((with_reducible refine (upPort_in ..).mono ?_); rfl) | (with_reducible exact seenAt_in ..))

theorem execRootPromotion_via {x y : State} (hn : execRootPromotion x = .next y) : Via (Instr.rootPromotion).foot x y := by
  refine act_via (n := 0x1b000000000800000000040000000000000000000100320400) hn ?_
  try dsimp only
  repeat' (first
    | intro _ | (with_reducible apply within_bind) | (with_reducible exact within_pure _) | (with_reducible exact within_st) | split
    | ((with_reducible refine (advTo_in ..).mono ?_); rfl) | ((with_reducible refine (becomeRoot_in ..).mono ?_); rfl)
    | ((with_reducible refine (ev_in ..).mono ?_); rfl) | (with_reducible exact seenAt_in ..))

theorem execRootStartWait_via {x y : State} (hn : execRootStartWait x = .next y) : Via (Instr.rootStartWait).foot x y := by
  refine act_via (n := 0x40000000000000000000000020400) hn ?_
  try dsimp only
  repeat' (first
    | intro _ | (with_reducible apply within_bind) | (with_reducible exact within_pure _) | (with_reducible exact within_st) | split
    | ((with_reducible refine (advTo_in ..).mono ?_); rfl) | ((with_reducible refine (becomeRoot_in ..).mono ?_); rfl)
    | (with_reducible exact seenAt_in ..))

theorem execTimeLoRead_via {x y : State} (hn : execTimeLoRead x = .next y) : Via (Instr.timeLoRead).foot x y := by
  refine act_via (n := 0x100020000) hn ?_
  try dsimp only
  repeat' (first
    | intro _ | (with_reducible apply within_bind) | (with_reducible exact within_st)
    | ((with_reducible refine within_eff _ ?_); dsimp only [Eff.tag]; rfl) | ((with_reducible refine (send_in ..).mono ?_); rfl))

theorem execOpMove_via {x y : State} (hn : execOpMove x = .next y) : Via (Instr.opMove).foot x y := by
  refine act_via (n := 0x400000000000000000000000041400) hn ?_
  try dsimp only
  repeat' (first
    | intro _ | (with_reducible apply within_bind) | (with_reducible exact within_pure _) | (with_reducible exact within_st) | split
    | ((with_reducible refine (afterDroop_in).mono ?_); rfl) | ((with_reducible refine (beginMove_in ..).mono ?_); rfl))

theorem execVcoreSettled_via {x y : State} (hn : execVcoreSettled x = .next y) : Via (Instr.vcoreSettled).foot x y := by
  refine act_via (n := 0x400000000000000000000000041400) hn ?_
  try dsimp only
  repeat' (first
    | intro _ | (with_reducible apply within_bind) | (with_reducible exact within_pure _) | (with_reducible exact within_st)
    | ((with_reducible refine within_eff _ ?_); dsimp only [Eff.tag]; rfl) | split | ((with_reducible refine (advTo_in ..).mono ?_); rfl)
    | ((with_reducible refine (startBlend_in ..).mono ?_); rfl))

theorem execBlendStep_via {x y : State} (hn : execBlendStep x = .next y) : Via (Instr.blendStep).foot x y := by
  refine act_via (n := 0x8400000000000000000000000041400) hn ?_
  try dsimp only
  repeat' (first
    | intro _ | (with_reducible apply within_bind) | (with_reducible exact within_pure _) | (with_reducible exact within_st)
    | ((with_reducible refine within_eff _ ?_); dsimp only [Eff.tag]; rfl) | split | ((with_reducible refine (advTo_in ..).mono ?_); rfl)
    | ((with_reducible refine (endMove_in ..).mono ?_); rfl) | ((with_reducible refine (mark_in ..).mono ?_); rfl))

theorem execForcedVcoreFall_via {x y : State} (hn : execForcedVcoreFall x = .next y) : Via (Instr.forcedVcoreFall).foot x y := by
  refine act_via (n := 0x40400) hn ?_
  try dsimp only
  repeat' (first
    | intro _ | (with_reducible apply within_bind) | (with_reducible exact within_pure _) | (with_reducible exact within_st)
    | ((with_reducible refine within_eff _ ?_); dsimp only [Eff.tag]; rfl) | split | ((with_reducible refine (advTo_in ..).mono ?_); rfl))

theorem execForcedRelease_via {x y : State} (hn : execForcedRelease x = .next y) : Via (Instr.forcedRelease).foot x y := by
  refine act_via (n := 0x400000000000000000000000040400) hn ?_
  try dsimp only
  repeat' (first
    | intro _ | (with_reducible apply within_bind) | (with_reducible exact within_pure _) | (with_reducible exact within_st)
    | ((with_reducible refine within_eff _ ?_); dsimp only [Eff.tag]; rfl) | split | ((with_reducible refine (advTo_in ..).mono ?_); rfl)
    | ((with_reducible refine (retarget_in).mono ?_); rfl))

theorem execBlendResume_via {x y : State} (hn : execBlendResume x = .next y) : Via (Instr.blendResume).foot x y := by
  refine act_via (n := 0x41400) hn ?_
  try dsimp only
  repeat' (first
    | intro _ | (with_reducible apply within_bind) | (with_reducible exact within_pure _) | (with_reducible exact within_st)
    | ((with_reducible refine within_eff _ ?_); dsimp only [Eff.tag]; rfl) | split | ((with_reducible refine (advTo_in ..).mono ?_); rfl)
    | ((with_reducible refine (mark_in ..).mono ?_); rfl))

theorem execVrAlertRelease_via {x y : State} (hn : execVrAlertRelease x = .next y) : Via (Instr.vrAlertRelease).foot x y := by
  refine act_via (n := 0x1000400000000000000000000000041000) hn ?_
  try dsimp only
  repeat' (first
    | intro _ | (with_reducible apply within_bind) | (with_reducible exact within_pure _) | (with_reducible exact within_st)
    | ((with_reducible refine within_eff _ ?_); dsimp only [Eff.tag]; rfl) | ((with_reducible refine within_wr _ _ ?_); dsimp only; rfl)
    | split | ((with_reducible refine (forcedOff_in).mono ?_); rfl))

theorem execClipLagStep_via {x y : State} (hn : execClipLagStep x = .next y) : Via (Instr.clipLagStep).foot x y := by
  refine act_via (n := 0x400000000000000000000000041400) hn ?_
  try dsimp only
  repeat' (first
    | intro _ | (with_reducible apply within_bind) | (with_reducible exact within_pure _) | (with_reducible exact within_st)
    | ((with_reducible refine within_wr _ _ ?_); dsimp only; rfl) | split | ((with_reducible refine (afterDroop_in).mono ?_); rfl)
    | ((with_reducible refine (beginMove_in ..).mono ?_); rfl))

theorem execClipLagLong_via {x y : State} (hn : execClipLagLong x = .next y) : Via (Instr.clipLagLong).foot x y := by
  refine act_via (n := 0x1b000000000800000000000000000000000000000100301400) hn ?_
  try dsimp only
  repeat' (first
    | intro _ | (with_reducible apply within_bind) | (with_reducible exact within_pure _) | (with_reducible exact within_st)
    | ((with_reducible refine within_eff _ ?_); dsimp only [Eff.tag]; rfl) | split | ((with_reducible refine (advTo_in ..).mono ?_); rfl)
    | ((with_reducible refine (ev_in ..).mono ?_); rfl))

theorem execOpCeilApply_via {x y : State} (hn : execOpCeilApply x = .next y) : Via (Instr.opCeilApply).foot x y := by
  refine act_via (n := 0x1b000000000800000008000000000000000000000100340400) hn ?_
  try dsimp only
  repeat' (first
    | intro _ | (with_reducible apply within_bind) | (with_reducible exact within_pure _) | (with_reducible exact within_st)
    | ((with_reducible refine within_eff _ ?_); dsimp only [Eff.tag]; rfl) | ((with_reducible refine within_wr _ _ ?_); dsimp only; rfl)
    | split | ((with_reducible refine (noteUnlocked_in).mono ?_); rfl))

theorem execHotRelease_via {x y : State} (hn : execHotRelease x = .next y) : Via (Instr.hotRelease).foot x y := by
  refine act_via (n := 0x400000000000000000000000041400) hn ?_
  try dsimp only
  repeat' (first
    | intro _ | (with_reducible apply within_bind) | (with_reducible exact within_pure _) | (with_reducible exact within_st)
    | ((with_reducible refine within_wr _ _ ?_); dsimp only; rfl) | split | ((with_reducible refine (advTo_in ..).mono ?_); rfl)
    | ((with_reducible refine (forcedOff_in).mono ?_); rfl))

theorem execRateRelease_via {x y : State} (hn : execRateRelease x = .next y) : Via (Instr.rateRelease).foot x y := by
  refine act_via (n := 0x400000000000000000000000041400) hn ?_
  try dsimp only
  repeat' (first
    | intro _ | (with_reducible apply within_bind) | (with_reducible exact within_pure _) | (with_reducible exact within_st)
    | ((with_reducible refine within_wr _ _ ?_); dsimp only; rfl) | split | ((with_reducible refine (advTo_in ..).mono ?_); rfl)
    | ((with_reducible refine (forcedOff_in).mono ?_); rfl))

theorem execCycleSample_via {x y : State} (hn : execCycleSample x = .next y) : Via (Instr.cycleSample).foot x y := by
  refine act_via (n := 0x1b007800000800000000000000000000000000000100341400) hn ?_
  try dsimp only
  repeat' (first
    | intro _ | (with_reducible apply within_bind) | ((with_reducible refine within_eff _ ?_); dsimp only [Eff.tag]; rfl)
    | ((with_reducible refine (closeCycles_in).mono ?_); rfl) | ((with_reducible refine (periodic_in ..).mono ?_); rfl)
    | ((with_reducible refine (refreshLife_in).mono ?_); rfl) | ((with_reducible refine (trimStack_in).mono ?_); rfl))

theorem execLifeSave_via {x y : State} (hn : execLifeSave x = .next y) : Via (Instr.lifeSave).foot x y := by
  refine act_via (n := 0x1410) hn ?_
  try dsimp only
  repeat' (first
    | intro _ | (with_reducible apply within_bind) | (with_reducible exact within_st) | (with_reducible apply within_when)
    | ((with_reducible refine within_eff _ ?_); dsimp only [Eff.tag]; rfl) | ((with_reducible refine (periodic_in ..).mono ?_); rfl))

theorem execLeaseExpiry_via {x y : State} (hn : execLeaseExpiry x = .next y) : Via (Instr.leaseExpiry).foot x y := by
  refine act_via (n := 0x1b000000000900000000000000000000000000000100301400) hn ?_
  try dsimp only
  repeat' (first
    | intro _ | (with_reducible apply within_bind) | (with_reducible exact within_pure _) | (with_reducible exact within_st) | split
    | ((with_reducible refine (advTo_in ..).mono ?_); rfl) | ((with_reducible refine (leaseEnds_in).mono ?_); rfl))

theorem execLeaseGuardEnd_via {x y : State} (hn : execLeaseGuardEnd x = .next y) : Via (Instr.leaseGuardEnd).foot x y := by
  refine act_via (n := 0x100000000000000000000000000000000000400) hn ?_
  try dsimp only
  repeat' (first
    | intro _ | (with_reducible apply within_bind) | (with_reducible exact within_pure _) | (with_reducible exact within_st)
    | ((with_reducible refine within_wr _ _ ?_); dsimp only; rfl) | split | ((with_reducible refine (advTo_in ..).mono ?_); rfl))

theorem execUpdVoteSend_via {x y : State} (hn : execUpdVoteSend x = .next y) : Via (Instr.updVoteSend).foot x y := by
  refine act_via (n := 0x100400400) hn ?_
  try dsimp only
  repeat' (first
    | intro _ | (with_reducible apply within_bind) | (with_reducible exact within_pure _) | (with_reducible exact within_st)
    | (with_reducible apply within_when) | ((with_reducible refine within_eff _ ?_); dsimp only [Eff.tag]; rfl) | split
    | ((with_reducible refine (svc_in ..).mono ?_); rfl) | ((with_reducible refine (timeTo_in ..).mono ?_); rfl))

theorem execVoteCount_via {x y : State} (hn : execVoteCount x = .next y) : Via (Instr.voteCount).foot x y := by
  refine act_via (n := 0x1b000000000800000000000000000000000000000100700400) hn ?_
  try dsimp only
  repeat' (first
    | intro _ | (with_reducible apply within_bind) | (with_reducible exact within_pure _) | (with_reducible exact within_st)
    | (with_reducible apply within_when) | ((with_reducible refine within_eff _ ?_); dsimp only [Eff.tag]; rfl) | split
    | ((with_reducible refine (ev_in ..).mono ?_); rfl) | ((with_reducible refine (timeTo_in ..).mono ?_); rfl))

theorem execFirmwareActivation_via {x y : State} (hn : execFirmwareActivation x = .next y) : Via (Instr.firmwareActivation).foot x y := by
  refine act_via (n := 0x105b00000001084009b40000000000000000000000010fff9e1d) hn ?_
  try dsimp only
  repeat' (first
    | intro _ | (with_reducible apply within_bind) | (with_reducible exact within_pure _) | (with_reducible exact within_st)
    | ((with_reducible refine within_eff _ ?_); dsimp only [Eff.tag]; rfl) | split
    | ((with_reducible refine (activationFires_in ..).mono ?_); rfl) | ((with_reducible refine (timeTo_in ..).mono ?_); rfl))

theorem execConfirmDeadline_via {x y : State} (hn : execConfirmDeadline x = .next y) : Via (Instr.confirmDeadline).foot x y := by
  refine act_via (n := 0x5b00000001080000000000000000000000000000010b308400) hn ?_
  try dsimp only
  repeat' (first
    | intro _ | (with_reducible apply within_bind) | (with_reducible exact within_pure _) | (with_reducible exact within_st) | split
    | ((with_reducible refine (advTo_in ..).mono ?_); rfl) | ((with_reducible refine (revertNow_in).mono ?_); rfl))

theorem execPlanActivation_via {x y : State} (hn : execPlanActivation x = .next y) : Via (Instr.planActivation).foot x y := by
  refine act_via (n := 0x1b000000000800000000000000020000000000000104f11418) hn ?_
  try dsimp only
  repeat' (first
    | intro _ | (with_reducible apply within_bind) | (with_reducible exact within_pure _) | (with_reducible exact within_st)
    | ((with_reducible refine within_eff _ ?_); dsimp only [Eff.tag]; rfl) | split | ((with_reducible refine (ev_in ..).mono ?_); rfl)
    | ((with_reducible refine (noteUnlocked_in).mono ?_); rfl) | ((with_reducible refine (planSwitch_in ..).mono ?_); rfl)
    | ((with_reducible refine (timeTo_in ..).mono ?_); rfl))

theorem execRecorderPageWrite_via {x y : State} (hn : execRecorderPageWrite x = .next y) : Via (Instr.recorderPageWrite).foot x y := by
  refine act_via (n := 0x80000000000000002000000000000010430141a) hn ?_
  try dsimp only
  ((with_reducible refine (pagesDue_in).mono ?_); rfl)

theorem execQsSend_via {x y : State} (hn : execQsSend x = .next y) : Via (Instr.qsSend).foot x y := by
  refine act_via (n := 0x100000000000000000000100821400) hn ?_
  try dsimp only
  repeat' (first
    | intro _ | (with_reducible apply within_bind) | (with_reducible exact within_pure _) | (with_reducible exact within_st)
    | ((with_reducible refine within_eff _ ?_); dsimp only [Eff.tag]; rfl) | split | ((with_reducible refine (advTo_in ..).mono ?_); rfl)
    | ((with_reducible refine (mark_in ..).mono ?_); rfl) | ((with_reducible refine (qsSendBlock_in ..).mono ?_); rfl)
    | ((with_reducible refine (qsSvc_in ..).mono ?_); rfl))

theorem execQsAnnounceSend_via {x y : State} (hn : execQsAnnounceSend x = .next y) : Via (Instr.qsAnnounceSend).foot x y := by
  refine act_via (n := 0x100000000000000000000100001400) hn ?_
  try dsimp only
  repeat' (first
    | intro _ | (with_reducible apply within_bind) | (with_reducible exact within_pure _) | (with_reducible exact within_st) | split
    | ((with_reducible refine (advTo_in ..).mono ?_); rfl) | ((with_reducible refine (mark_in ..).mono ?_); rfl)
    | ((with_reducible refine (qsSvc_in ..).mono ?_); rfl))

theorem execQsRepairTimeout_via {x y : State} (hn : execQsRepairTimeout x = .next y) : Via (Instr.qsRepairTimeout).foot x y := by
  refine act_via (n := 0x400000000000000000000000000100801400) hn ?_
  try dsimp only
  repeat' (first
    | intro _ | (with_reducible apply within_bind) | (with_reducible exact within_pure _) | (with_reducible exact within_st) | split
    | ((with_reducible refine (advTo_in ..).mono ?_); rfl) | ((with_reducible refine (qsRoundFrom_in ..).mono ?_); rfl))

theorem execQsRoundEnd_via {x y : State} (hn : execQsRoundEnd x = .next y) : Via (Instr.qsRoundEnd).foot x y := by
  refine act_via (n := 0x400000000000000000000000000100801400) hn ?_
  try dsimp only
  repeat' (first
    | intro _ | (with_reducible apply within_bind) | (with_reducible exact within_pure _) | (with_reducible exact within_st) | split
    | ((with_reducible refine (advTo_in ..).mono ?_); rfl) | ((with_reducible refine (qsRoundFrom_in ..).mono ?_); rfl))

theorem execQsFetchEnd_via {x y : State} (hn : execQsFetchEnd x = .next y) : Via (Instr.qsFetchEnd).foot x y := by
  refine act_via (n := 0x101b000000000800413000000000000000000000000102309400) hn ?_
  try dsimp only
  repeat' (first
    | intro _ | (with_reducible apply within_bind) | (with_reducible exact within_pure _) | (with_reducible exact within_st) | split
    | ((with_reducible refine (advTo_in ..).mono ?_); rfl) | ((with_reducible refine (qsIncomplete_in).mono ?_); rfl))

theorem execQsVerify_via {x y : State} (hn : execQsVerify x = .next y) : Via (Instr.qsVerify).foot x y := by
  refine act_via (n := 0x101b00000000084049b400000000020000000000000107ffba1d) hn ?_
  try dsimp only
  repeat' (first
    | intro _ | (with_reducible apply within_bind) | (with_reducible exact within_pure _) | (with_reducible exact within_st) | split
    | ((with_reducible refine (qsFail_in ..).mono ?_); rfl) | ((with_reducible refine (qsPass_in ..).mono ?_); rfl))

theorem execEvtTokenRefill_via {x y : State} (hn : execEvtTokenRefill x = .next y) : Via (Instr.evtTokenRefill).foot x y := by
  refine act_via (n := 0x101400) hn ?_
  try dsimp only
  repeat' (first
    | intro _ | (with_reducible apply within_bind) | (with_reducible exact within_st)
    | ((with_reducible refine within_eff _ ?_); dsimp only [Eff.tag]; rfl) | ((with_reducible refine (periodic_in ..).mono ?_); rfl))

theorem execMrstRelease_via {x y : State} (hn : execMrstRelease x = .next y) : Via (Instr.mrstRelease).foot x y := by
  refine act_via (n := 0x8000) hn ?_
  try dsimp only
  repeat' (first
    | intro _ | (with_reducible apply within_bind) | (with_reducible exact within_st) | (with_reducible apply within_when)
    | ((with_reducible refine within_eff _ ?_); dsimp only [Eff.tag]; rfl) | ((with_reducible refine (setMode_in ..).mono ?_); rfl))

/-- A command that completes ran within its footprint. -/
theorem exec_via {i : Instr} {s t : State} (h : exec i s = .next t) : Via i.foot s t := by
  cases i
  case hotSwapOn => exact execHotSwapOn_via h
  case inputGood => exact execInputGood_via h
  case overvoltageOff => exact execOvervoltageOff_via h
  case overcurrentOff => exact execOvercurrentOff_via h
  case vinHigh => exact execVinHigh_via h
  case brownout => exact execBrownout_via h
  case inputRecover => exact execInputRecover_via h
  case mrst => exact execMrst_via h
  case hostInterfaceReset => exact execHostInterfaceReset_via h
  case startUp => exact execStartUp_via h
  case refclkQualify => exact execRefclkQualify_via h
  case weightLoad => exact execWeightLoad_via h
  case readyEntry => exact execReadyEntry_via h
  case hostFwGo => exact execHostFwGo_via h
  case moduleReset => exact execModuleReset_via h
  case partitionReset => exact execPartitionReset_via h
  case contextReset => exact execContextReset_via h
  case clrFails => exact execClrFails_via h
  case blockIdle => exact execBlockIdle_via h
  case idleTExpiry => exact execIdleTExpiry_via h
  case partitionResetDone => exact execPartitionResetDone_via h
  case engineReset => exact execEngineReset_via h
  case arrayNop => exact execArrayNop_via h
  case tile => exact execTile_via h
  case residueSweep => exact execResidueSweep_via h
  case bankComplete => exact execBankComplete_via h
  case emit => exact execEmit_via h
  case ldcb => exact execLdcb_via h
  case setseed => exact execSetseed_via h
  case setb => exact execSetb_via h
  case addb => exact execAddb_via h
  case setlc => exact execSetlc_via h
  case loop => exact execLoop_via h
  case waitq => exact execWaitq_via h
  case postq => exact execPostq_via h
  case brq => exact execBrq_via h
  case jump => exact execJump_via h
  case arrayRotpt => exact execArrayRotpt_via h
  case arrayEnd => exact execArrayEnd_via h
  case rotationComplete => exact execRotationComplete_via h
  case slotPublish => exact execSlotPublish_via h
  case slotRelease => exact execSlotRelease_via h
  case creditBatchReturn => exact execCreditBatchReturn_via h
  case niSlotSend => exact execNiSlotSend_via h
  case streamerNop => exact execStreamerNop_via h
  case streamerCopy => exact execStreamerCopy_via h
  case gather => exact execGather_via h
  case scatter => exact execScatter_via h
  case pgather => exact execPgather_via h
  case pscatter => exact execPscatter_via h
  case sync => exact execSync_via h
  case streamerEnd => exact execStreamerEnd_via h
  case slopeGrant => exact execSlopeGrant_via h
  case brambleAction => exact execBrambleAction_via h
  case ewcInstruction => exact execEwcInstruction_via h
  case csrr => exact execCsrr_via h
  case csrw => exact execCsrw_via h
  case ei => exact execEi_via h
  case di => exact execDi_via h
  case iret => exact execIret_via h
  case wfi => exact execWfi_via h
  case qwait => exact execQwait_via h
  case qrel => exact execQrel_via h
  case qacq => exact execQacq_via h
  case qpub => exact execQpub_via h
  case qpoll => exact execQpoll_via h
  case qtry => exact execQtry_via h
  case corePostq => exact execCorePostq_via h
  case mboxw => exact execMboxw_via h
  case mboxr => exact execMboxr_via h
  case coreRotpt => exact execCoreRotpt_via h
  case coreEnd => exact execCoreEnd_via h
  case interruptEntry => exact execInterruptEntry_via h
  case timerFire => exact execTimerFire_via h
  case mboxWrite => exact execMboxWrite_via h
  case serviceCoreWatchdog => exact execServiceCoreWatchdog_via h
  case lockstepMismatch => exact execLockstepMismatch_via h
  case impedanceCalibration => exact execImpedanceCalibration_via h
  case driftCheck => exact execDriftCheck_via h
  case retune => exact execRetune_via h
  case scrubVisit => exact execScrubVisit_via h
  case scrubLate => exact execScrubLate_via h
  case memRestored => exact execMemRestored_via h
  case patrolRead => exact execPatrolRead_via h
  case bar4Read => exact execBar4Read_via h
  case bar4Write => exact execBar4Write_via h
  case ringEnable => exact execRingEnable_via h
  case ringDisable => exact execRingDisable_via h
  case sqTail => exact execSqTail_via h
  case cqHead => exact execCqHead_via h
  case descriptorFetch => exact execDescriptorFetch_via h
  case completionWrite => exact execCompletionWrite_via h
  case msixCoalesceTimer => exact execMsixCoalesceTimer_via h
  case nop => exact execNop_via h
  case runPhase => exact execRunPhase_via h
  case fabricAdmitDeadline => exact execFabricAdmitDeadline_via h
  case phaseEnd => exact execPhaseEnd_via h
  case copy => exact execCopy_via h
  case loadImage => exact execLoadImage_via h
  case imageVerify => exact execImageVerify_via h
  case bindContext => exact execBindContext_via h
  case bindComplete => exact execBindComplete_via h
  case unbindContext => exact execUnbindContext_via h
  case fence => exact execFence_via h
  case abort => exact execAbort_via h
  case abortContext => exact execAbortContext_via h
  case queryEnergy => exact execQueryEnergy_via h
  case setOpPref => exact execSetOpPref_via h
  case serveStart => exact execServeStart_via h
  case serveStop => exact execServeStop_via h
  case gateStop => exact execGateStop_via h
  case portEnable => exact execPortEnable_via h
  case portDisable => exact execPortDisable_via h
  case forceHold => exact execForceHold_via h
  case berNow => exact execBerNow_via h
  case linkTrained => exact execLinkTrained_via h
  case ident => exact execIdent_via h
  case identTimeout => exact execIdentTimeout_via h
  case identRepeat => exact execIdentRepeat_via h
  case testReq => exact execTestReq_via h
  case testAck => exact execTestAck_via h
  case testResult => exact execTestResult_via h
  case berTestDone => exact execBerTestDone_via h
  case berInterval => exact execBerInterval_via h
  case keepaliveSend => exact execKeepaliveSend_via h
  case portDown => exact execPortDown_via h
  case fecErrorLimit => exact execFecErrorLimit_via h
  case flitTimeout => exact execFlitTimeout_via h
  case retrain => exact execRetrain_via h
  case portState => exact execPortState_via h
  case packetInject => exact execPacketInject_via h
  case packetReceive => exact execPacketReceive_via h
  case streamOpenRetry => exact execStreamOpenRetry_via h
  case streamAckTimer => exact execStreamAckTimer_via h
  case streamIdleClose => exact execStreamIdleClose_via h
  case streamContextExpiry => exact execStreamContextExpiry_via h
  case fazarOpTimeout => exact execFazarOpTimeout_via h
  case directoryWrite => exact execDirectoryWrite_via h
  case dirUpdate => exact execDirUpdate_via h
  case bankCopy => exact execBankCopy_via h
  case sealBank => exact execSealBank_via h
  case arm => exact execArm_via h
  case cancel => exact execCancel_via h
  case mcast => exact execMcast_via h
  case broadcast => exact execBroadcast_via h
  case reduceUp => exact execReduceUp_via h
  case reduceDown => exact execReduceDown_via h
  case redContextExpiry => exact execRedContextExpiry_via h
  case timeFrame => exact execTimeFrame_via h
  case timeRootSet => exact execTimeRootSet_via h
  case timeSet => exact execTimeSet_via h
  case droopDetect => exact execDroopDetect_via h
  case droopRelease => exact execDroopRelease_via h
  case droopLong => exact execDroopLong_via h
  case vrAlert => exact execVrAlert_via h
  case powerSample => exact execPowerSample_via h
  case estimatorTick => exact execEstimatorTick_via h
  case gainRefit => exact execGainRefit_via h
  case hotspotSample => exact execHotspotSample_via h
  case sensorCompare => exact execSensorCompare_via h
  case rotationRequest => exact execRotationRequest_via h
  case throttleStep => exact execThrottleStep_via h
  case throttleRestore => exact execThrottleRestore_via h
  case thermalUpdate => exact execThermalUpdate_via h
  case flowMismatch => exact execFlowMismatch_via h
  case guardTrip => exact execGuardTrip_via h
  case guardSingle => exact execGuardSingle_via h
  case guardSuspect => exact execGuardSuspect_via h
  case guardSingleRelease => exact execGuardSingleRelease_via h
  case escalate => exact execEscalate_via h
  case sweepFail => exact execSweepFail_via h
  case worisySignalDetect => exact execWorisySignalDetect_via h
  case worisySignalLoss => exact execWorisySignalLoss_via h
  case worisyFrameError => exact execWorisyFrameError_via h
  case ping => exact execPing_via h
  case info => exact execInfo_via h
  case regRead => exact execRegRead_via h
  case regWrite => exact execRegWrite_via h
  case evtRead => exact execEvtRead_via h
  case measRead => exact execMeasRead_via h
  case leaseClaim => exact execLeaseClaim_via h
  case leaseRenew => exact execLeaseRenew_via h
  case leaseRelease => exact execLeaseRelease_via h
  case leaseStatus => exact execLeaseStatus_via h
  case setClip => exact execSetClip_via h
  case setRackClip => exact execSetRackClip_via h
  case setOpCeil => exact execSetOpCeil_via h
  case flowReport => exact execFlowReport_via h
  case operatorHold => exact execOperatorHold_via h
  case operatorHoldRelease => exact execOperatorHoldRelease_via h
  case reset => exact execReset_via h
  case memberRenew => exact execMemberRenew_via h
  case fenceCommand => exact execFenceCommand_via h
  case readmit => exact execReadmit_via h
  case worisyClrFails => exact execWorisyClrFails_via h
  case activate => exact execActivate_via h
  case updVote => exact execUpdVote_via h
  case confirm => exact execConfirm_via h
  case rollback => exact execRollback_via h
  case activatePlan => exact execActivatePlan_via h
  case evtClear => exact execEvtClear_via h
  case ownerChallenge => exact execOwnerChallenge_via h
  case ownerEnroll => exact execOwnerEnroll_via h
  case ownerRevoke => exact execOwnerRevoke_via h
  case setSecurity => exact execSetSecurity_via h
  case updateCheck => exact execUpdateCheck_via h
  case updateProgram => exact execUpdateProgram_via h
  case programDone => exact execProgramDone_via h
  case updateCancel => exact execUpdateCancel_via h
  case stagingWrite => exact execStagingWrite_via h
  case spdmRequest => exact execSpdmRequest_via h
  case ideKeyProg => exact execIdeKeyProg_via h
  case quicksetGo => exact execQuicksetGo_via h
  case quicksetCancel => exact execQuicksetCancel_via h
  case qsAnnounce => exact execQsAnnounce_via h
  case qsBlock => exact execQsBlock_via h
  case qsEnd => exact execQsEnd_via h
  case qsReq => exact execQsReq_via h
  case qsData => exact execQsData_via h
  case qsNak => exact execQsNak_via h
  case registerWrite => exact execRegisterWrite_via h
  case commandDone => exact execCommandDone_via h
  case powerOnReset => exact execPowerOnReset_via h
  case mate => exact execMate_via h
  case unmate => exact execUnmate_via h
  case undervoltageOff => exact execUndervoltageOff_via h
  case inrushFault => exact execInrushFault_via h
  case epo => exact execEpo_via h
  case epoRelease => exact execEpoRelease_via h
  case latchClear => exact execLatchClear_via h
  case brownoutEnd => exact execBrownoutEnd_via h
  case startTimeout => exact execStartTimeout_via h
  case startRetry => exact execStartRetry_via h
  case hostFwTimeout => exact execHostFwTimeout_via h
  case brambleSample => exact execBrambleSample_via h
  case journalCommit => exact execJournalCommit_via h
  case wearRefill => exact execWearRefill_via h
  case gateTick => exact execGateTick_via h
  case qslot => exact execQslot_via h
  case credit => exact execCredit_via h
  case streamOpen => exact execStreamOpen_via h
  case streamGrant => exact execStreamGrant_via h
  case streamBusy => exact execStreamBusy_via h
  case streamAck => exact execStreamAck_via h
  case streamClose => exact execStreamClose_via h
  case laying => exact execLaying_via h
  case epochHoldEnd => exact execEpochHoldEnd_via h
  case membershipLapse => exact execMembershipLapse_via h
  case timeFrameSend => exact execTimeFrameSend_via h
  case rootLoss => exact execRootLoss_via h
  case rootPromotion => exact execRootPromotion_via h
  case rootStartWait => exact execRootStartWait_via h
  case timeLoRead => exact execTimeLoRead_via h
  case opMove => exact execOpMove_via h
  case vcoreSettled => exact execVcoreSettled_via h
  case blendStep => exact execBlendStep_via h
  case forcedVcoreFall => exact execForcedVcoreFall_via h
  case forcedRelease => exact execForcedRelease_via h
  case blendResume => exact execBlendResume_via h
  case vrAlertRelease => exact execVrAlertRelease_via h
  case clipLagStep => exact execClipLagStep_via h
  case clipLagLong => exact execClipLagLong_via h
  case opCeilApply => exact execOpCeilApply_via h
  case hotRelease => exact execHotRelease_via h
  case rateRelease => exact execRateRelease_via h
  case cycleSample => exact execCycleSample_via h
  case lifeSave => exact execLifeSave_via h
  case leaseExpiry => exact execLeaseExpiry_via h
  case leaseGuardEnd => exact execLeaseGuardEnd_via h
  case updVoteSend => exact execUpdVoteSend_via h
  case voteCount => exact execVoteCount_via h
  case firmwareActivation => exact execFirmwareActivation_via h
  case confirmDeadline => exact execConfirmDeadline_via h
  case planActivation => exact execPlanActivation_via h
  case recorderPageWrite => exact execRecorderPageWrite_via h
  case qsSend => exact execQsSend_via h
  case qsAnnounceSend => exact execQsAnnounceSend_via h
  case qsRepairTimeout => exact execQsRepairTimeout_via h
  case qsRoundEnd => exact execQsRoundEnd_via h
  case qsFetchEnd => exact execQsFetchEnd_via h
  case qsVerify => exact execQsVerify_via h
  case evtTokenRefill => exact execEvtTokenRefill_via h
  case mrstRelease => exact execMrstRelease_via h

theorem foot_ok_host {i : Instr} (hi : i.family ∈ [Family.access, Family.rings, Family.descriptors, Family.gate, Family.tiers]) :
    footOk i.foot i.touches = true := by
  cases i
  all_goals first
    | exact absurd (decide_eq_true hi) Bool.false_ne_true
    | (clear hi; unfold Instr.foot Instr.touches; dsimp only; decide +kernel)

theorem foot_ok_engines {i : Instr} (hi : i.family ∈ [Family.arrays, Family.queues, Family.streamers, Family.monitor, Family.cores]) :
    footOk i.foot i.touches = true := by
  cases i
  all_goals first
    | exact absurd (decide_eq_true hi) Bool.false_ne_true
    | (clear hi; unfold Instr.foot Instr.touches; dsimp only; decide +kernel)

/-- Settles O15: a run within a footprint keeps every part and register kind outside it. -/
theorem frameOfAccessHostAndMemory : Obligations.FrameOfAccessHostAndMemory := by
  intro i s t hi h
  exact (exec_via h).frame (foot_ok_host hi)

/-- Settles O16: a run within a footprint keeps every part and register kind outside it. -/
theorem frameOfEngines : Obligations.FrameOfEngines := by
  intro i s t hi h
  exact (exec_via h).frame (foot_ok_engines hi)

end Machine
end Sys2Proof
end

section
/-!
PROOFS. MINIMAL may be left without a module rung: over a shallower rung a module reset starts from stage 3 at once (R346), so the step ends in
the new start although no module rung was running and the rails were up.
-/

namespace Sys2Proof.Machine

/-- A module in MINIMAL with a partition rung running; a tray controller's module reset waits. -/
def minimalOverRung : State :=
  { State.reset with
    pending := [.moduleReset .worA 0]
    ctl := { State.reset.ctl with mode := .minimal, rungs := [⟨3, 1, 1, false, 0, 0⟩] } }

theorem minimalOverRung_starts : ∃ t, step minimalOverRung = .next t ∧ t.ctl.mode = .start ∧ moduleBusy t = false :=
  ⟨_, rfl, by decide +kernel⟩

/-- Refutes O12: a module reset over a partition rung leads from MINIMAL straight into a start. -/
theorem not_minimalModeLeftOnlyByReset : ¬ Obligations.MinimalModeLeftOnlyByReset := by
  intro h
  obtain ⟨t, hnext, hstart, hidle⟩ := minimalOverRung_starts
  have hleft := h minimalOverRung t rfl hnext
  rw [hstart, hidle] at hleft
  obtain hm | hm | hm | hm | ⟨-, hrung | hrails⟩ := hleft
  · cases hm
  · cases hm
  · cases hm
  · cases hm
  · exact absurd hrung (by decide)
  · exact absurd hrails (by decide)

end Sys2Proof.Machine
end

section
/-!
PROOFS. The lease stays with its last claimant. A command whose footprint leaves RST_LEASE alone keeps the word or loses it to its reset word;
of the others, LEASE_CLAIM, LEASE_RELEASE and LEASE_EXPIRY write holder and last claimant together, the settings store holds no bit of
RST_LEASE, and a register write meets read-only fields there.
-/

set_option Elab.async false

namespace Sys2Proof.Machine

/-- RST_LEASE names no holder, or its last claimant as holder. -/
def leaseWordOk (w : Nat) : Prop := fget w 30 2 = 0 ∨ fget w 28 1 + 1 = fget w 30 2

def LeaseOk (s : State) : Prop := leaseWordOk (regWord s .RST_LEASE []).toNat

/-- Every effect but a write of RST_LEASE. -/
def leaseFree : Nat := 0x1ffffffffffffeffffffffffffffffffffffffffffffffffffff

theorem kind_leaseFree {k : RegKind} (h : k ≠ .RST_LEASE) : leaseFree.testBit (64 + k.ctorIdx) = true := by
  cases k
  case RST_LEASE => exact absurd rfl h
  all_goals rfl

theorem apply_leaseOk {e : Eff} {s : State} (he : leaseFree.testBit e.tag.bit = true) (h : LeaseOk s) : LeaseOk (apply e s) := by
  unfold LeaseOk
  rcases regWord_apply e s .RST_LEASE [] with hsame | hreset | ⟨f, v, rfl, hk, -, -⟩
  · rw [hsame]; exact h
  · rw [hreset]; exact .inl (by decide)
  · have hbit : leaseFree.testBit (64 + f.k.ctorIdx) = true := he
    rw [hk] at hbit
    exact absurd hbit (by decide)

theorem Via.leaseOk {s t : State} (h : Via leaseFree s t) (hs : LeaseOk s) : LeaseOk t := by
  induction h with
  | refl => exact hs
  | step _ e he ih => exact apply_leaseOk he ih

/-! Actions that keep the lease. -/

section

variable {o : State} {α β : Type}

/-- An action keeps the lease with its last claimant. -/
structure KeepsLease (m : M o α) : Prop where
  keep : ∀ x, LeaseOk x.1 → LeaseOk (m x).2.1

theorem Within.keepsLease {n : Nat} {m : M o α} (h : Within n m) (hn : n &&& leaseFree = n) : KeepsLease m :=
  ⟨fun x hx => ((h.via x).mono hn).leaseOk hx⟩

theorem keepsLease_bind {m : M o α} {f : α → M o β} (hm : KeepsLease m) (hf : ∀ a, KeepsLease (f a)) : KeepsLease (m >>= f) :=
  ⟨fun x hx => (hf _).keep _ (hm.keep x hx)⟩

theorem keepsLease_pure (a : α) : KeepsLease (pure a : M o α) := ⟨fun _ hx => hx⟩

theorem keepsLease_st : KeepsLease (st : M o State) := ⟨fun _ hx => hx⟩

theorem keepsLease_when {c : Bool} {m : M o Unit} (h : KeepsLease m) : KeepsLease (when_ c m) := by
  cases c
  · exact keepsLease_pure _
  · exact h

theorem keepsLease_each {l : List α} {f : α → M o Unit} (h : ∀ a, KeepsLease (f a)) : KeepsLease (each l f) := by
  induction l with
  | nil => exact keepsLease_pure _
  | cons a l ih => exact keepsLease_bind (h a) fun _ => ih

end

section

variable {o : State}

/-! Register writes (R8, R403, R442). -/

theorem putReg_lease (ix : List Nat) (v : Nat) (x : Trace o) : putReg .RST_LEASE ix v x = ((), x) := rfl

theorem putReg_keepsLease (k : RegKind) (ix : List Nat) (v : Nat) : KeepsLease (putReg k ix v : M o _) := by
  by_cases hk : k = .RST_LEASE
  · subst hk
    refine ⟨fun x hx => ?_⟩
    rw [putReg_lease]
    exact hx
  · exact (putReg_in k (fp := leaseFree) (kind_leaseFree hk)).keepsLease rfl

theorem putBase_keepsLease (k : RegKind) (n v : Nat) : KeepsLease (putBase k n v : M o _) := by
  unfold putBase
  refine keepsLease_bind keepsLease_st fun s => ?_
  split
  · exact keepsLease_pure _
  · exact keepsLease_bind (putReg_keepsLease ..) fun _ => keepsLease_pure _

theorem regPut_keepsLease (k : RegKind) (ix : List Nat) (v src kind : Nat) : KeepsLease (regPut k ix v src kind : M o _) := by
  unfold regPut
  dsimp only
  split
  case h_1 => exact (putRingCfg_in ..).keepsLease rfl
  case h_2 | h_3 | h_4 | h_5 => exact putBase_keepsLease ..
  case h_6 => exact (putBankCtl_in ..).keepsLease rfl
  case h_7 => exact (putRstReq_in ..).keepsLease rfl
  case h_8 => exact (putQsCtl_in ..).keepsLease rfl
  case h_9 => exact (putEngRst_in ..).keepsLease rfl
  case h_10 => exact (putCodeCfg_in ..).keepsLease rfl
  case h_11 => exact (putUpdCtl_in ..).keepsLease rfl
  case h_12 => exact (putHifCtl_in ..).keepsLease rfl
  case h_13 => exact (putPortCtl_in ..).keepsLease rfl
  case h_14 => exact (putTimeCfg_in ..).keepsLease rfl
  case h_15 => exact (putTimeHi_in ..).keepsLease rfl
  case h_16 => exact (putMbox_in ..).keepsLease rfl
  case h_17 =>
    refine keepsLease_bind ?_ fun _ => keepsLease_pure _
    split
    case h_1 => exact (putMsix_in ..).keepsLease rfl
    case h_2 | h_3 | h_4 => exact keepsLease_bind (putReg_keepsLease ..) fun _ => (putSetting_in ..).keepsLease rfl
    case h_5 => exact (putQsStat_in ..).keepsLease rfl
    case h_6 => exact (putErrLog_in ..).keepsLease rfl
    case h_7 | h_8 => exact keepsLease_bind (putReg_keepsLease ..) fun _ => (refreshCore_in ..).keepsLease rfl
    case h_9 => exact putReg_keepsLease ..

theorem regResult_keepsLease (k : RegKind) (v : Nat) {put : M o Bool} (h : KeepsLease put) : KeepsLease (regResult k v put) := by
  unfold regResult
  split
  · exact keepsLease_pure _
  · refine keepsLease_bind h fun b => ?_
    split <;> exact keepsLease_pure _

theorem putWord_keepsLease (off v src kind : Nat) : KeepsLease (putWord off v src kind : M o _) := by
  unfold putWord
  refine keepsLease_bind keepsLease_st fun s => ?_
  split
  · exact keepsLease_pure _
  · split
    · exact (putStaging_in ..).keepsLease rfl
    · split
      · exact (putTable_in ..).keepsLease rfl
      · split
        · exact keepsLease_pure _
        · exact regResult_keepsLease _ _ (regPut_keepsLease ..)

theorem wordRec_keepsLease (src : Src) (off v res : Nat) : KeepsLease (wordRec src off v res : M o _) := (wordRec_in ..).keepsLease rfl

theorem barWord_keepsLease (src : Src) (off v : Nat) : KeepsLease (barWord src off v : M o _) := by
  unfold barWord
  dsimp only
  split
  · exact keepsLease_bind (keepsLease_pure _) fun _ => wordRec_keepsLease ..
  · exact keepsLease_bind (putWord_keepsLease ..) fun _ => wordRec_keepsLease ..

theorem barAccess_keepsLease (src : Src) (off v : Nat) {m : M o Unit} (h : KeepsLease m) : KeepsLease (barAccess src off v m) := by
  unfold barAccess
  refine keepsLease_bind keepsLease_st fun s => ?_
  split
  · exact keepsLease_pure _
  · split
    · exact keepsLease_bind (wordRec_keepsLease ..) fun _ => (send_in ..).keepsLease rfl
    · exact h

theorem barBytes_keepsLease (src : Src) (off len v : Nat) : KeepsLease (barBytes src off len v : M o _) := by
  refine barAccess_keepsLease _ _ _ ?_
  split
  · exact barWord_keepsLease ..
  · split
    · exact keepsLease_bind (barWord_keepsLease ..) fun _ => barWord_keepsLease ..
    · exact wordRec_keepsLease ..

theorem putWords_keepsLease (src : Src) (off : Nat) (ws : List (BitVec 32)) : KeepsLease (putWords src off ws : M o _) := by
  induction ws generalizing off with
  | nil => exact keepsLease_pure _
  | cons w ws ih => exact keepsLease_bind (barWord_keepsLease ..) fun _ => ih _

/-! The start (R446): the settings store holds no bit of RST_LEASE. -/

/-- RST_LEASE written with its own word keeps holder and last claimant. -/
theorem rewrite_keepsLease (ix : List Nat) (s : State) (h : LeaseOk s) :
    LeaseOk (apply (.reg ⟨.RST_LEASE, ix, 0, 32⟩ (regWord s .RST_LEASE ix).toNat) s) := by
  unfold LeaseOk
  rcases regWord_apply (.reg ⟨.RST_LEASE, ix, 0, 32⟩ (regWord s .RST_LEASE ix).toNat) s .RST_LEASE [] with
    hsame | hreset | ⟨f, v, heq, -, hkey, hnew⟩
  · rw [hsame]; exact h
  · rw [hreset]; exact .inl (by decide)
  · obtain ⟨rfl, rfl⟩ := Eff.reg.inj heq
    have hword : regWord s .RST_LEASE ix = regWord s .RST_LEASE [] := by
      unfold regWord
      rw [hkey]
      rfl
    have hlt := (regWord s .RST_LEASE []).isLt
    have hset : regNew s.nv.fuses.variant (regWord s .RST_LEASE []).toNat ⟨.RST_LEASE, ix, 0, 32⟩ (regWord s .RST_LEASE []).toNat =
        (regWord s .RST_LEASE []).toNat &&& regMask .RST_LEASE := by
      simp only [regNew, clampWord, fset]
      congr 1
      omega
    rw [hnew, toNat_regNew, hword, hset, leaseWordOk, fget_and (by decide), fget_and (by decide)]
    exact h

theorem loadSettings_keepsLease (l : Tbl (BitVec 32)) : KeepsLease (loadSettings l : M o _) := by
  induction l with
  | nil => exact keepsLease_pure _
  | cons u l ih =>
    unfold loadSettings
    dsimp only
    split
    · next k ix _ =>
      by_cases hk : k = .RST_LEASE
      · subst hk
        refine ⟨fun x hx => ?_⟩
        have hmask : settingsMask .RST_LEASE = 0 := rfl
        simp only [M.bind_run, st_run, wr_run, hmask, Nat.and_zero, Nat.sub_zero, Nat.add_zero]
        exact ih.keep _ (rewrite_keepsLease ix x.1 hx)
      · have hother (v : Nat) : Within leaseFree (wr ⟨k, ix, 0, 32⟩ v : M o _) := wr_in k rfl (kind_leaseFree hk)
        exact keepsLease_bind keepsLease_st fun s => keepsLease_bind ((hother _).keepsLease rfl) fun _ => ih
    · exact ih

/-- Step 6 of a start reaches RST_LEASE only through the settings store (R347, R446). -/
theorem startStep6_keepsLease (e : StartEnv) : KeepsLease (startStep6 e : M o _) := by
  unfold startStep6
  refine keepsLease_bind ((setStage_in ..).keepsLease rfl) fun _ => ?_
  split
  · exact keepsLease_bind ((failStart_in ..).keepsLease rfl) fun _ => keepsLease_pure _
  refine keepsLease_bind (loadFuses_in.keepsLease rfl) fun _ => keepsLease_bind ((measureLadder_in ..).keepsLease rfl) fun b => ?_
  have hreset : KeepsLease (resetSettings : M o _) := resetSettings_in.keepsLease rfl
  have hclear : Within leaseFree (do eff (.nor fun n => { n with fails := 0, pending := false }); showRecord : M o _) :=
    within_bind (within_eff _ rfl) fun _ => showRecord_in.mono rfl
  refine keepsLease_bind (keepsLease_when hreset) fun _ => keepsLease_bind (keepsLease_when (hclear.keepsLease rfl)) fun _ => ?_
  refine keepsLease_bind keepsLease_st fun s => keepsLease_bind (loadSettings_keepsLease _) fun _ => ?_
  refine Within.keepsLease (n := leaseFree) ?_ rfl
  repeat' (first
    | intro _ | (with_reducible apply within_bind) | (with_reducible exact within_pure _) | (with_reducible exact within_st)
    | (with_reducible exact within_rd _) | (with_reducible exact within_now) | ((with_reducible refine (setStage_in ..).mono ?_); rfl)
    | ((with_reducible refine wrB_in .RST_SEC rfl ?_) <;> rfl) | ((with_reducible refine setF_in .FZ_VERIFY_CFG rfl ?_) <;> rfl)
    | ((with_reducible refine (setMode_in ..).mono ?_); rfl) | ((with_reducible refine (measureAgain_in ..).mono ?_); rfl)
    | ((with_reducible refine (ev_in ..).mono ?_); rfl) | ((with_reducible refine (failedRecord_in).mono ?_); rfl)
    | ((with_reducible refine (bootFirmware_in).mono ?_); rfl) | ((with_reducible refine (enterMinimal_in ..).mono ?_); rfl)
    | ((with_reducible refine (bringUp_in ..).mono ?_); rfl) | ((with_reducible refine wr_in .RST_QS_STAT rfl ?_); rfl)
    | ((with_reducible refine eff_in .hs rfl ?_); rfl)
    | (with_reducible apply within_each) | (with_reducible apply within_when) | split)

/-- The start from step 7 on. -/
theorem startStep7On_keepsLease (cold : Bool) (e : StartEnv) :
    KeepsLease (do startStep7 cold e; if !(← startStep8 e) then pure () else startStep9 e : M o _) := by
  refine keepsLease_bind ((startStep7_in ..).keepsLease rfl) fun _ => keepsLease_bind ((startStep8_in ..).keepsLease rfl) fun b => ?_
  split
  · exact keepsLease_pure _
  · exact (startStep9_in ..).keepsLease rfl

/-- The start from step 6 on. -/
theorem startStep6On_keepsLease (cold : Bool) (e : StartEnv) :
    KeepsLease (do if !(← startStep6 e) then pure () else do
      startStep7 cold e
      if !(← startStep8 e) then pure () else startStep9 e : M o _) := by
  refine keepsLease_bind (startStep6_keepsLease e) fun b => ?_
  split
  · exact keepsLease_pure _
  · exact startStep7On_keepsLease cold e

theorem startRest_keepsLease (cold : Bool) (e : StartEnv) : KeepsLease (startRest cold e : M o _) := by
  have hunlock : Within leaseFree (wr R.RST_REFCLK.LOCKED 0 : M o _) := wr_in .RST_REFCLK rfl rfl
  unfold startRest
  split
  · exact keepsLease_bind (hunlock.keepsLease rfl) fun _ => (failStart_in ..).keepsLease rfl
  · refine keepsLease_bind ((startStep5_in ..).keepsLease rfl) fun b => ?_
    split
    · exact keepsLease_pure _
    · exact startStep6On_keepsLease cold e

/-! Requests (R398). -/

theorem request_keepsLease (w : WReq) (cmd : Nat) {m : M o Ans} (h : KeepsLease m) : KeepsLease (request w cmd m) := by
  unfold request
  refine keepsLease_bind keepsLease_st fun s => ?_
  split
  · exact keepsLease_pure _
  · split
    · exact (send_in ..).keepsLease rfl
    · exact keepsLease_bind h fun a => (answer_in ..).keepsLease rfl

theorem freeCmd_keepsLease (w : WReq) (cmd : Nat) {m : M o Ans} (h : KeepsLease m) : KeepsLease (freeCmd w cmd m) := by
  refine request_keepsLease w cmd (keepsLease_bind keepsLease_st fun s => ?_)
  split
  · exact keepsLease_pure _
  · split
    · exact keepsLease_pure _
    · split
      · exact keepsLease_pure _
      · exact h

theorem actCmd_keepsLease (w : WReq) (cmd v : Nat) {m : M o Ans} (h : KeepsLease m) : KeepsLease (actCmd w cmd v m) := by
  refine request_keepsLease w cmd (keepsLease_bind keepsLease_st fun s => ?_)
  have hrecord (a : Ans) : KeepsLease (cmdRec (portKind w.port) cmd v (cmdResult a.1) >>= fun _ => pure a : M o Ans) :=
    keepsLease_bind ((cmdRec_in ..).keepsLease rfl) fun _ => keepsLease_pure _
  dsimp only
  split
  · exact keepsLease_bind (keepsLease_pure _) hrecord
  · exact keepsLease_bind h hrecord

/-! The lease's own commands (R405 to R407). -/

theorem evRaw_leaseFree : FP.evRaw &&& leaseFree = FP.evRaw := rfl

theorem leaseTaken_last {port : Nat} (hport : port < 2) (s : State) : (leaseTaken port s).rd R.RST_LEASE.LAST = port := by
  have hfits : port % 2 ^ 1 = port := Nat.mod_eq_of_lt hport
  simp (disch := decide) only [leaseTaken, apply_seen, rd_reg_other, rd_reg_self, hfits]

theorem leaseTaken_leaseOk {port : Nat} (hport : port < 2) (s : State) : LeaseOk (leaseTaken port s) :=
  .inr ((congrArg (· + 1) (leaseTaken_last hport s)).trans (leaseTaken_holder hport s).symm)

theorem leaseClaim_keepsLease {port : Nat} (hport : port < 2) : KeepsLease (leaseClaim port : M o _) := by
  refine ⟨fun x hx => ?_⟩
  by_cases hfree : x.1.rd R.RST_LEASE.HOLDER = 0
  · by_cases hguard : x.1.rd R.RST_LEASE.GUARD = 1 ∧ x.1.rd R.RST_LEASE.LAST ≠ port
    · rw [leaseClaim_guarded x hfree hguard.1 hguard.2]
      exact hx
    · have hlast (hg : x.1.rd R.RST_LEASE.GUARD = 1) : x.1.rd R.RST_LEASE.LAST = port := by
        by_contra hl
        exact hguard ⟨hg, hl⟩
      exact ((leaseClaim_via x hfree hlast).mono evRaw_leaseFree).leaseOk (leaseTaken_leaseOk hport _)
  · have hheld : leaseClaim port x = (plain WS.LEASE_HELD, x) := by simp [leaseClaim, M.bind_run, M.pure_run, st_run, hfree]
    rw [hheld]
    exact hx

theorem leaseEnds_keepsLease : KeepsLease (leaseEnds : M o _) :=
  ⟨fun x _ => ((leaseEnds_via x).mono evRaw_leaseFree).leaseOk (.inl (leaseEnded_holder x.1))⟩

end

/-! Steps. -/

theorem act_leaseOk {b : Bool} {s t : State} {m : M s Unit} (h : act b s m = .next t) (hm : KeepsLease m) (hs : LeaseOk s) : LeaseOk t := by
  obtain ⟨-, rfl⟩ := (act_next b s t m).1 h
  exact hm.keep ⟨s, Reach.refl⟩ hs

theorem startUp_leaseOk {e : StartEnv} {s t : State} (h : exec (.startUp e) s = .next t) (hs : LeaseOk s) : LeaseOk t := by
  unfold exec execStartUp at h
  refine act_leaseOk h (keepsLease_bind keepsLease_st fun s => ?_) hs
  dsimp only
  split
  · exact keepsLease_pure _
  split
  · refine keepsLease_bind ((restoreWear_in ..).keepsLease rfl) fun _ => keepsLease_bind ((startStep2_in ..).keepsLease rfl) fun b2 => ?_
    split
    · exact keepsLease_pure _
    refine keepsLease_bind ((startStep3_in ..).keepsLease rfl) fun b3 => ?_
    split
    · exact keepsLease_pure _
    refine keepsLease_bind (startStep4_in.keepsLease rfl) fun b4 => ?_
    split
    · exact keepsLease_pure _
    · exact startRest_keepsLease ..
  · split
    · exact startRest_keepsLease ..
    · exact keepsLease_pure _
  · exact startStep6On_keepsLease ..
  · exact keepsLease_pure _

theorem regWrite_leaseOk {w : WReq} {off : Nat} {ws : List (BitVec 32)} {s t : State} (h : exec (.regWrite w off ws) s = .next t)
    (hs : LeaseOk s) : LeaseOk t := by
  unfold exec execRegWrite at h
  refine act_leaseOk h (request_keepsLease _ _ (keepsLease_bind keepsLease_st fun s => ?_)) hs
  dsimp only
  split
  · exact keepsLease_bind ((cmdRec_in ..).keepsLease rfl) fun _ => keepsLease_pure _
  · split
    · exact keepsLease_bind (keepsLease_each fun _ => wordRec_keepsLease ..) fun _ => keepsLease_pure _
    · exact keepsLease_bind (putWords_keepsLease ..) fun _ => keepsLease_pure _

theorem leaseExpiry_leaseOk {s t : State} (h : exec .leaseExpiry s = .next t) (hs : LeaseOk s) : LeaseOk t := by
  unfold exec execLeaseExpiry at h
  refine act_leaseOk h (keepsLease_bind keepsLease_st fun s => ?_) hs
  split
  · exact keepsLease_pure _
  · exact keepsLease_bind ((advTo_in ..).keepsLease rfl) fun _ => leaseEnds_keepsLease

/-- The guard time's end leaves holder and last claimant. -/
theorem guardEnd_leaseOk {s : State} (h : LeaseOk s) : LeaseOk (apply (.reg R.RST_LEASE.GUARD 0) s) := by
  have hholder : (apply (.reg R.RST_LEASE.GUARD 0) s).rd R.RST_LEASE.HOLDER = s.rd R.RST_LEASE.HOLDER := by
    simp (disch := decide) only [rd_reg_other]
  have hlast : (apply (.reg R.RST_LEASE.GUARD 0) s).rd R.RST_LEASE.LAST = s.rd R.RST_LEASE.LAST := by
    simp (disch := decide) only [rd_reg_other]
  show _ = _ ∨ _ = _
  exact h.imp (hholder.trans ·) (fun hl => (congrArg (· + 1) hlast).trans (hl.trans hholder.symm))

theorem leaseGuardEnd_leaseOk {s t : State} (h : exec .leaseGuardEnd s = .next t) (hs : LeaseOk s) : LeaseOk t := by
  unfold exec execLeaseGuardEnd at h
  refine act_leaseOk h (keepsLease_bind keepsLease_st fun s => ?_) hs
  split
  · exact keepsLease_pure _
  · exact keepsLease_bind ((advTo_in ..).keepsLease rfl) fun _ => ⟨fun x hx => guardEnd_leaseOk hx⟩

theorem leaseClaim_leaseOk {w : WReq} {s t : State} (h : exec (.leaseClaim w) s = .next t) (hs : LeaseOk s) : LeaseOk t := by
  have hwf := ((act_next (Instr.wf (.leaseClaim w)) s t _).1 h).1
  exact act_leaseOk h (freeCmd_keepsLease _ _ (leaseClaim_keepsLease (of_decide_eq_true hwf))) hs

theorem leaseRelease_leaseOk {w : WReq} {s t : State} (h : exec (.leaseRelease w) s = .next t) (hs : LeaseOk s) : LeaseOk t :=
  act_leaseOk h (actCmd_keepsLease _ _ _ (keepsLease_bind leaseEnds_keepsLease fun _ => keepsLease_pure _)) hs

theorem idle_leaseOk {s : State} (h : LeaseOk s) : LeaseOk (idleStep s) := by
  have hidle : KeepsLease (eff (.pass 1000) >>= fun _ => flushOld : M s _) :=
    keepsLease_bind ((within_eff (n := leaseFree) _ rfl).keepsLease rfl) fun _ => flushOld_in.keepsLease rfl
  exact hidle.keep ⟨s, Reach.refl⟩ h

/-- The commands that may write RST_LEASE. -/
def writesLease : Instr → Bool
  | .startUp _ | .regWrite _ _ _ | .registerWrite _ _ _ _ | .leaseExpiry | .leaseGuardEnd | .leaseClaim _ | .leaseRelease _ => true
  | _ => false

theorem foot_leaseFree (i : Instr) (h : writesLease i = false) : i.foot &&& leaseFree = i.foot := by
  cases i
  case startUp | regWrite | registerWrite | leaseExpiry | leaseGuardEnd | leaseClaim | leaseRelease => cases h
  all_goals unfold Instr.foot; dsimp only; rfl

theorem exec_leaseOk {i : Instr} {s t : State} (h : exec i s = .next t) (hs : LeaseOk s) : LeaseOk t := by
  cases hw : writesLease i with
  | false => exact ((exec_via h).mono (foot_leaseFree i hw)).leaseOk hs
  | true =>
    unfold writesLease at hw
    split at hw
    · exact startUp_leaseOk h hs
    · exact regWrite_leaseOk h hs
    · exact act_leaseOk h (barBytes_keepsLease ..) hs
    · exact leaseExpiry_leaseOk h hs
    · exact leaseGuardEnd_leaseOk h hs
    · exact leaseClaim_leaseOk h hs
    · exact leaseRelease_leaseOk h hs
    · cases hw

/-- Settles O11: no command and no passage of time parts the holder from the last claimant. -/
theorem stepKeepsLeaseHolderLast : Obligations.StepKeepsLeaseHolderLast := by
  intro s t hs h
  cases hq : s.pending with
  | nil =>
    rw [step_nil s hq] at h
    cases h
    exact idle_leaseOk hs
  | cons i rest =>
    rw [step, hq] at h
    exact exec_leaseOk h hs

end Sys2Proof.Machine
end

section
/-!
PROOFS. Claims of completion that fail in a corner of the state: a general core's END on a queue it does not produce for, a rotated core at the
last word of its local memory, LIFE_SAVE over an overfull wear budget, a module reset asked for while the module is starting, and the module
reset of hidden state that stands under no array.
-/

set_option Elab.async false

namespace Sys2Proof.Machine

/-- Fields written one after another. -/
def withFields (l : List (Fld × Nat)) (s : State) : State := l.foldl (fun s x => apply (.reg x.1 x.2) s) s

/-- Core 0 of partition 0 runs at END with a credit of queue 0, which another unit produces for. -/
def coreEndsForeignQueue : State :=
  let s := withFields [(R.PART_CORE_STAT.STATE 0 0, US.RUN), (R.PART_CORE_STAT.PC 0 0, 0), (R.PART_TOP_STAT.UNAVAIL 0, 0),
    (R.PART_ENG_RST_STAT.BUSY 0, 0), (R.PART_Q_CREDIT.CREDIT 0 0, 1), (R.PART_Q_ENDS.PROD 0 0, uidOf 0 1 1)] State.reset
  { s with cores := [(0, { Core.init with ctx := some 0, endQ := 0 })] }

theorem coreEndsForeignQueue_ready : CoreAt coreEndsForeignQueue 0 0 ∧ coreEndsForeignQueue.mem.errs = [] ∧
    0 < coreEndsForeignQueue.rd (R.PART_Q_CREDIT.CREDIT 0 (coreOf coreEndsForeignQueue 0 0).endQ) := by decide +kernel

/-- The core stops as illegal (R101): END needs the producer's end. -/
theorem coreEnd_foreign_queue_stops : ∃ t, exec (.coreEnd 0 0 Flt.none) coreEndsForeignQueue = .next t ∧
    t.rd (R.PART_CORE_STAT.STATE 0 0) = US.STOPPED := ⟨_, rfl, by decide +kernel⟩

/-- Refutes O41: END of a core that does not produce for its end queue stops the core. -/
theorem not_coreSystemInstructionsComplete : ¬ Obligations.CoreSystemInstructionsComplete := by
  rintro ⟨-, -, -, -, -, -, -, -, -, -, hend, -⟩
  obtain ⟨hat, herrs, hcredit⟩ := coreEndsForeignQueue_ready
  obtain ⟨t, hnext, hidle, -⟩ := hend coreEndsForeignQueue 0 0 hat herrs hcredit
  obtain ⟨t', hnext', hstopped⟩ := coreEnd_foreign_queue_stops
  obtain rfl : t' = t := by injection hnext'.symm.trans hnext
  exact absurd (hidle.symm.trans hstopped) (by decide)

/-- Core 0 of partition 0 rotates at the last word of its local memory. -/
def coreRotatesAtLastWord : State :=
  withFields [(R.PART_CORE_STAT.STATE 0 0, US.ROTATE), (R.PART_CORE_STAT.PC 0 0, 65535)] State.reset

/-- Its rotation ends with the core stopped: there is no next word (R104). -/
theorem rotated_core_at_last_word_stops : ∃ t, exec (.rotationComplete (uidOf 0 1 0) 0 0) coreRotatesAtLastWord = .next t ∧
    t.rd (R.PART_CORE_STAT.STATE 0 0) ≠ US.RUN := ⟨_, rfl, by decide +kernel⟩

/-- Refutes O37: a core that rotates at its last word does not run again. -/
theorem not_arrayControlAndQueueInstructionsComplete : ¬ Obligations.ArrayControlAndQueueInstructionsComplete := by
  rintro ⟨-, -, -, -, -, -, -, -, -, -, -, -, -, hrot⟩
  obtain ⟨t, hnext, -, hrun, -⟩ := hrot coreRotatesAtLastWord 0 0 0 0 (by decide) (by decide) (by decide +kernel) (by decide) (by decide +kernel)
  obtain ⟨t', hnext', hstops⟩ := rotated_core_at_last_word_stops
  obtain rfl : t' = t := by injection hnext'.symm.trans hnext
  exact hstops hrun

/-- A trained module whose wear budget holds one unit more than its size. -/
def wearOverfull : State :=
  { State.reset with ctl.doneTrain := true, vlt.wear := 305000001 }

/-- LIFE_SAVE brings the budget back to its size (R157). -/
theorem lifeSave_caps_wear : ∃ t, exec .lifeSave wearOverfull = .next t ∧ t.vlt.wear = 305000000 := ⟨_, rfl, by decide +kernel⟩

/-- Refutes O52: LIFE_SAVE over an overfull wear budget changes the budget too. -/
theorem not_heatCommandsComplete : ¬ Obligations.HeatCommandsComplete := by
  rintro ⟨-, -, -, -, -, -, -, -, -, -, -, hsave⟩
  obtain ⟨t, hnext, -, -, hvlt⟩ := hsave wearOverfull rfl
  obtain ⟨t', hnext', hwear⟩ := lifeSave_caps_wear
  obtain rfl : t' = t := by injection hnext'.symm.trans hnext
  rw [hvlt] at hwear
  exact absurd hwear (by decide)

/-- The holder of the lease asks at port A. -/
def resetRequest : WReq := ⟨0, 0, 0, 1, false, false⟩

/-- The module starts; port A holds the lease in generation 1. -/
def startingUnderLease : State :=
  withFields [(R.RST_LEASE.HOLDER, 1), (R.RST_LEASE.LGEN, 1)] State.reset

/-- RESET rung 4 of a starting module starts no module rung. -/
theorem reset_of_starting_module : ∃ t, exec (.reset resetRequest 4 0 0 0) startingUnderLease = .next t ∧ moduleBusy t = false :=
  ⟨_, rfl, by decide +kernel⟩

/-- Refutes O56: RESET rung 4 while the module starts leaves no module rung running. -/
theorem not_worisyActuatingCommandsComplete : ¬ Obligations.WorisyActuatingCommandsComplete := by
  rintro ⟨-, -, -, -, -, -, hreset, -⟩
  obtain ⟨t, hnext, -, hbusy⟩ := hreset startingUnderLease resetRequest (by decide +kernel) (by decide +kernel)
  obtain ⟨t', hnext', hidle⟩ := reset_of_starting_module
  obtain rfl : t' = t := by injection hnext'.symm.trans hnext
  exact absurd (hidle.symm.trans hbusy) (by decide)

/-- The module rung runs; hidden state stands under number 192, behind the last array. -/
def resetWithStrayArray : State :=
  { State.reset with ctl.rungs := [⟨4, 0, 1, false, 1, 0⟩], arrs := [(192, { Arr.init with duty := 3 })] }

/-- The module rung's reset leaves it. -/
theorem blockIdle_keeps_stray_array : ∃ t, exec (.blockIdle .module) resetWithStrayArray = .next t ∧ t.arrs.length = 1 := ⟨_, rfl, by decide +kernel⟩

/-- Refutes O31: the module rung's reset clears the hidden state of the 192 arrays, not an entry under a further number. -/
theorem not_resetRungsComplete : ¬ Obligations.ResetRungsComplete := by
  rintro ⟨-, -, -, -, -, -, hidle, -⟩
  obtain ⟨t, hnext, -, -, harrs, -⟩ := hidle resetWithStrayArray _ rfl rfl rfl
  obtain ⟨t', hnext', hlen⟩ := blockIdle_keeps_stray_array
  obtain rfl : t' = t := by injection hnext'.symm.trans hnext
  rw [harrs] at hlen
  cases hlen

/-- A failed start with the same stray hidden state. -/
def failedWithStrayArray : State :=
  { State.reset with ctl.failed := true, arrs := [(192, { Arr.init with duty := 3 })] }

/-- The new try's module rung leaves it. -/
theorem startRetry_keeps_stray_array : ∃ t, exec .startRetry failedWithStrayArray = .next t ∧ t.arrs.length = 1 := ⟨_, rfl, by decide +kernel⟩

/-- Refutes O32: START_RETRY clears the hidden state of the 192 arrays, not an entry under a further number. -/
theorem not_startUpCommandsComplete : ¬ Obligations.StartUpCommandsComplete := by
  rintro ⟨-, -, -, -, -, -, -, hretry, -⟩
  obtain ⟨t, hnext, -, -, harrs, -⟩ := hretry failedWithStrayArray rfl rfl rfl
  obtain ⟨t', hnext', hlen⟩ := startRetry_keeps_stray_array
  obtain rfl : t' = t := by injection hnext'.symm.trans hnext
  rw [harrs] at hlen
  cases hlen

end Sys2Proof.Machine
end

section
/-!
PROOFS. The answers of the lease's commands (R398, R399, R405 to R407), on top of what a Worisy request in order does.
-/

set_option Elab.async false

namespace Sys2Proof.Machine

/-! What is sent stays sent. -/

/-- No effect takes back what has gone out. -/
theorem Reach.out_prefix {s t : State} (h : Reach s t) : s.out <+: t.out :=
  h.rel (R := fun a b => a.out <+: b.out) (fun _ => List.prefix_refl _) (fun _ _ _ hab hbc => hab.trans hbc)
    fun e u => (apply_queue_outbox e u).2.1

theorem Via.reach {n : Nat} {s t : State} (h : Via n s t) : Reach s t := by
  induction h with
  | refl => exact .refl
  | step _ e _ ih => exact .step ih e

/-- What a later state has sent since a state in between, it has sent since the beginning. -/
theorem drop_out_subset {s u t : State} (hsu : Reach s u) : t.out.drop u.out.length ⊆ t.out.drop s.out.length := by
  have hlen : s.out.length ≤ u.out.length := hsu.out_prefix.length_le
  intro y hy
  rw [← Nat.add_sub_cancel' hlen, ← List.drop_drop] at hy
  exact List.mem_of_mem_drop hy

/-- What has been sent by a state in between is still there at the end. -/
theorem drop_out_mono {s u t : State} (hut : Reach u t) : u.out.drop s.out.length ⊆ t.out.drop s.out.length := by
  obtain ⟨l, hl⟩ := hut.out_prefix
  intro y hy
  rw [← hl, List.drop_append]
  exact List.mem_append_left _ hy

theorem Sent.of_later {s u t : State} {y : Out} (h : Sent u t y) (hsu : Reach s u) : Sent s t y := drop_out_subset hsu h

theorem Sent.of_earlier {s u t : State} {y : Out} (h : Sent s u y) (hut : Reach u t) : Sent s t y := drop_out_mono hut h

theorem Noticed.of_earlier {s u t : State} {code : Nat} {pay : List Byte} (h : Noticed s u code pay) (hut : Reach u t) :
    Noticed s t code pay := by
  intro q hq
  obtain ⟨y, hy, hcode⟩ := List.any_eq_true.1 (h q hq)
  exact List.any_eq_true.2 ⟨y, drop_out_mono hut hy, hcode⟩

theorem Noticed.of_later {s u t : State} {code : Nat} {pay : List Byte} (h : Noticed u t code pay) (hsu : Reach s u) :
    Noticed s t code pay := by
  intro q hq
  obtain ⟨y, hy, hcode⟩ := List.any_eq_true.1 (h q hq)
  exact List.any_eq_true.2 ⟨y, drop_out_subset hsu hy, hcode⟩

theorem notice_noticed {o : State} (code : Nat) (pay : List Byte) (x : Trace o) : Noticed x.1 (notice code pay x).2.1 code pay := by
  intro q hq
  have hq : q = 0 ∨ q = 1 := by omega
  obtain rfl | rfl := hq <;> simp [notice, M.bind_run, st_run, send_run, eff_run]

section Answers

variable {s : State} {w : WReq} {cmd : Nat}

/-- The answer to a request that the module has worked on from `s` on. -/
theorem answer_answered_from (a : Ans) (x : Trace s) : Answered s (answer w cmd a x).2.1 w cmd a.1 a.2 := by
  obtain ⟨hsent, hkept⟩ := answer_answered (w := w) (cmd := cmd) a x
  exact ⟨hsent.of_later x.2, hkept⟩

theorem freeCmd_answered (m : M s Ans) (h : FreeReq s w cmd) :
    Answered s (freeCmd w cmd m ⟨s, .refl⟩).2.1 w cmd (m ⟨s, .refl⟩).1.1 (m ⟨s, .refl⟩).1.2 := by
  rw [freeCmd_run _ _ h]
  exact answer_answered_from _ _

theorem actCmd_answered (v : Nat) (m : M s Ans) (h : ByHolder s w cmd) :
    Answered s (actCmd w cmd v m ⟨s, .refl⟩).2.1 w cmd (m ⟨s, .refl⟩).1.1 (m ⟨s, .refl⟩).1.2 := by
  rw [actCmd_run _ _ _ h]
  exact answer_answered_from _ _

/-- A request without the lease, or out of order, is refused before its meaning: only its record and the response follow. -/
theorem actCmd_refused_run {o : State} (x : Trace o) (v : Nat) (m : M o Ans) {status : Nat} (h : Heard x.1 w)
    (hrefused : actRefusal x.1 w cmd = some status) :
    actCmd w cmd v m x = answer w cmd (plain status) (cmdRec (portKind w.port) cmd v (cmdResult status) x).2 := by
  rw [actCmd, request_run x _ h]
  simp [M.bind_run, st_run, M.map_run, hrefused, plain]

theorem actCmd_refused_via {o : State} (x : Trace o) (v : Nat) (m : M o Ans) {status : Nat} (h : Heard x.1 w)
    (hrefused : actRefusal x.1 w cmd = some status) : Via FP.actCmd x.1 (actCmd w cmd v m x).2.1 := by
  have hrecord (res : Nat) : Within FP.actCmd (cmdRec (portKind w.port) cmd v res : M o _) := (cmdRec_in ..).mono rfl
  have hanswer (a : Ans) : Within FP.actCmd (answer w cmd a : M o _) := (answer_in ..).mono rfl
  rw [actCmd_refused_run x v m h hrefused]
  exact ((hrecord _).via _).trans ((hanswer _).via _)

theorem actCmd_refused_answered (v : Nat) (m : M s Ans) {status : Nat} (h : Heard s w) (hrefused : actRefusal s w cmd = some status) :
    Answered s (actCmd w cmd v m ⟨s, .refl⟩).2.1 w cmd status [] := by
  rw [actCmd_refused_run _ _ _ h hrefused]
  exact answer_answered_from (plain status) _

end Answers

/-! The lease's claim. -/

section Claim

variable {s : State}

theorem leaseTaken_guard (port : Nat) : (leaseTaken port s).rd R.RST_LEASE.GUARD = 0 := by
  simp (disch := decide) only [leaseTaken, apply_seen, rd_reg_other, rd_reg_self, Nat.zero_mod]

theorem leaseTaken_lgen (port : Nat) : (leaseTaken port s).rd R.RST_LEASE.LGEN = (s.rd R.RST_LEASE.LGEN + 1) % 256 := by
  simp (disch := decide) only [leaseTaken, apply_seen, rd_reg_self]
  exact Nat.mod_mod _ _

theorem leaseTaken_seen (port : Nat) : tget 0 (leaseTaken port s).clk.seen K.lease = s.clk.mono + 1 := by
  simp only [leaseTaken, apply_seen, tget_tset_self]

/-- A claim that is not in the other port's guard time is answered with the next generation. -/
theorem leaseClaim_answer {o : State} (x : Trace o) {port : Nat} (hfree : x.1.rd R.RST_LEASE.HOLDER = 0)
    (hguard : ¬ (x.1.rd R.RST_LEASE.GUARD = 1 ∧ x.1.rd R.RST_LEASE.LAST ≠ port)) :
    (leaseClaim port x).1 = (WS.OK, word4 ((x.1.rd R.RST_LEASE.LGEN + 1) % 256)) := by
  rw [leaseClaim, M.bind_run, st_run, if_neg (not_not.2 hfree), if_neg hguard]
  simp only [M.bind_run, M.pure_run]

end Claim

/-- A meaning that ends with an answer of its own gives that answer. -/
theorem actCmd_answered_after {s : State} {w : WReq} {cmd : Nat} (v : Nat) {α : Type} (m : M s α) (a : Ans) (h : ByHolder s w cmd) :
    Answered s (actCmd w cmd v (m >>= fun _ => pure a) ⟨s, .refl⟩).2.1 w cmd a.1 a.2 := by
  rw [actCmd_run _ _ _ h]
  exact answer_answered_from _ _

theorem leaseEnds_noticed {s : State} (x : Trace s) : Noticed s (leaseEnds x).2.1 0x8001 [] := by
  simp only [leaseEnds, M.bind_run]
  exact (notice_noticed _ _ _).of_later (Subtype.property _)

section Commands

variable {s : State} {w : WReq}

theorem leaseClaim_granted (hreq : FreeReq s w WC.LEASE_CLAIM) (hfree : s.rd R.RST_LEASE.HOLDER = 0)
    (hguard : s.rd R.RST_LEASE.GUARD = 0 ∨ s.rd R.RST_LEASE.LAST = w.port) :
    Does (.leaseClaim w) s fun t => Answered s t w WC.LEASE_CLAIM WS.OK (word4 ((s.rd R.RST_LEASE.LGEN + 1) % 256)) ∧
      Via FP.actCmd (leaseTaken w.port s) t := by
  have hopen : s.rd R.RST_LEASE.GUARD = 1 → s.rd R.RST_LEASE.LAST = w.port := fun hrunning => hguard.resolve_left (by omega)
  have hanswer := leaseClaim_answer (port := w.port) ⟨s, Reach.refl⟩ hfree fun ⟨hrunning, hother⟩ => hother (hopen hrunning)
  have hvia := leaseClaim_via (port := w.port) ⟨s, Reach.refl⟩ hfree hopen
  refine leaseClaim_does hreq ?_
  rw [hanswer]
  exact ⟨answer_answered_from _ _, (hvia.mono rfl).trans (((answer_in ..).mono rfl).via _)⟩

/-- What LEASE_RENEW does for the lease's holder. -/
theorem leaseRenew_does (hreq : ByHolder s w WC.LEASE_RENEW) :
    Does (.leaseRenew w) s fun t => Answered s t w WC.LEASE_RENEW WS.OK [] ∧ Via FP.actCmd (apply (.seen K.lease (s.clk.mono + 1)) s) t := by
  obtain ⟨⟨hport, -⟩, -⟩ := id hreq
  refine does_intro (m := actCmd w WC.LEASE_RENEW 0 (leaseTouch >>= fun _ => pure (plain WS.OK))) rfl (decide_eq_true hport) ?_
  have hvia : Via FP.actCmd (apply (.seen K.lease (s.clk.mono + 1)) s) ((leaseTouch >>= fun _ => pure (plain WS.OK)) ⟨s, Reach.refl⟩).2.1 := by
    simp only [leaseTouch, M.bind_run, M.pure_snd, now_run, eff_run]
    exact .refl
  exact ⟨actCmd_answered_after 0 _ (plain WS.OK) hreq, actCmd_via 0 _ hreq hvia⟩

theorem leaseRenew_refused {status : Nat} (hheard : Heard s w) (hrefused : actRefusal s w WC.LEASE_RENEW = some status) :
    Does (.leaseRenew w) s fun t => Answered s t w WC.LEASE_RENEW status [] ∧ Via FP.actCmd s t := by
  obtain ⟨hport, -⟩ := id hheard
  refine does_intro (m := actCmd w WC.LEASE_RENEW 0 (leaseTouch >>= fun _ => pure (plain WS.OK))) rfl (decide_eq_true hport) ?_
  exact ⟨actCmd_refused_answered 0 _ hheard hrefused, actCmd_refused_via ⟨s, Reach.refl⟩ 0 _ hheard hrefused⟩

theorem leaseRelease_answered (hreq : ByHolder s w WC.LEASE_RELEASE) :
    Does (.leaseRelease w) s fun t => (Answered s t w WC.LEASE_RELEASE WS.OK [] ∧ Noticed s t 0x8001 []) ∧ Via FP.actCmd (leaseEnded s) t := by
  obtain ⟨⟨hport, -⟩, -⟩ := id hreq
  refine does_intro (m := actCmd w WC.LEASE_RELEASE 0 (leaseEnds >>= fun _ => pure (plain WS.OK))) rfl (decide_eq_true hport) ?_
  have hvia : Via FP.actCmd (leaseEnded s) ((leaseEnds >>= fun _ => pure (plain WS.OK)) ⟨s, Reach.refl⟩).2.1 := by
    rw [M.bind_run, M.pure_snd]
    exact (leaseEnds_via ⟨s, Reach.refl⟩).mono rfl
  refine ⟨⟨actCmd_answered_after 0 _ (plain WS.OK) hreq, ?_⟩, actCmd_via 0 _ hreq hvia⟩
  rw [actCmd_run _ _ _ hreq, M.bind_run, M.pure_snd]
  exact (leaseEnds_noticed ⟨s, Reach.refl⟩).of_earlier (((cmdRec_in ..).via _).reach.trans ((answer_in w WC.LEASE_RELEASE _).via _).reach)

theorem leaseStatus_answered (hreq : FreeReq s w WC.LEASE_STATUS) :
    Does (.leaseStatus w) s fun t => Answered s t w WC.LEASE_STATUS WS.OK (word4 (readWord s (regOff .RST_LEASE [])).toNat) := by
  obtain ⟨⟨hport, -⟩, -⟩ := id hreq
  refine does_intro (m := freeCmd w WC.LEASE_STATUS (st >>= fun s => pure (WS.OK, word4 (readWord s (regOff .RST_LEASE [])).toNat))) rfl
    (decide_eq_true hport) ?_
  exact freeCmd_answered _ hreq

end Commands

/-- Settles O54: each command's meaning runs where its request is in order, and its answer is sent and kept last. -/
theorem worisyRequestsAndLeaseComplete : Obligations.WorisyRequestsAndLeaseComplete := by
  refine ⟨fun s w hreq hfree hguard => ?claim, fun s w hreq hfree hguard hlast => ?guarded, fun s w hreq => ?renew,
    fun s w status hheard hrefused => ?refused, fun s w hreq => ?release, fun s w hreq => leaseStatus_answered hreq⟩
  case claim =>
    obtain ⟨⟨hport, -⟩, -⟩ := id hreq
    obtain ⟨t, hnext, hanswered, hvia⟩ := leaseClaim_granted hreq hfree hguard
    exact ⟨t, hnext, hanswered, (hvia.rd _ rfl rfl).trans (leaseTaken_holder hport s), (hvia.rd _ rfl rfl).trans (leaseTaken_lgen _),
      (hvia.rd _ rfl rfl).trans (leaseTaken_last hport s), (hvia.rd _ rfl rfl).trans (leaseTaken_guard _), by rw [hvia.seen rfl, leaseTaken_seen]⟩
  case guarded =>
    obtain ⟨t, hnext, hholder, hanswered⟩ := leaseClaim_guardTime hreq hfree hguard hlast
    exact ⟨t, hnext, hanswered, hholder⟩
  case renew =>
    obtain ⟨t, hnext, hanswered, hvia⟩ := leaseRenew_does hreq
    refine ⟨t, hnext, hanswered, ?_, (hvia.rd _ rfl rfl).trans (by simp only [apply_seen])⟩
    rw [hvia.seen rfl]
    simp only [apply_seen, tget_tset_self]
  case refused =>
    obtain ⟨t, hnext, hanswered, hvia⟩ := leaseRenew_refused hheard hrefused
    exact ⟨t, hnext, hanswered, hvia.rd _ rfl rfl, hvia.seen rfl⟩
  case release =>
    obtain ⟨t, hnext, ⟨hanswered, hnoticed⟩, hvia⟩ := leaseRelease_answered hreq
    exact ⟨t, hnext, hanswered, (hvia.rd _ rfl rfl).trans (leaseEnded_holder s), (hvia.rd _ rfl rfl).trans (leaseEnded_guard s),
      by rw [hvia.seen rfl, leaseEnded_seen], hnoticed⟩

end Sys2Proof.Machine
end

section
/-!
PROOFS. Two more claims of completion that fail in a corner of the state: OP_MOVE within the microsecond after a droop, and IMAGE_VERIFY where the
supervisor's active slot is neither of the two.
-/

set_option Elab.async false

namespace Sys2Proof.Machine

/-- The module at reset, 1 ns before the end of a droop that its notes name, with a lower operating point aimed at. -/
def moveAfterDroop : State :=
  let s := apply (.reg R.PWR_STAT.OP_TARGET 6) State.reset
  { s with clk.seen := [(K.droopOff, 1)] }

/-- OP_MOVE lets the microsecond after the droop pass before it moves (R276). -/
theorem opMove_waits_for_droop : ∃ t, exec .opMove moveAfterDroop = .next t ∧ tget 0 t.clk.seen K.move = 1001 := ⟨_, rfl, by decide +kernel⟩

/-- Refutes O50: the move is noted when the wait after the droop is over, not when the command comes. -/
theorem not_operatingPointsAndDroopComplete : ¬ Obligations.OperatingPointsAndDroopComplete := by
  rintro ⟨hmove, -⟩
  obtain ⟨t, hnext, -, hseen, -⟩ := hmove moveAfterDroop (by decide +kernel) (by decide +kernel)
  obtain ⟨t', hnext', hwaited⟩ := opMove_waits_for_droop
  obtain rfl : t' = t := by injection hnext'.symm.trans hnext
  exact absurd (hseen.symm.trans hwaited) (by decide +kernel)

/-- The last LOAD_IMAGE of an installation, started. -/
def lastBlock : Op :=
  { opid := 5, ring := 1, words := [3, 0, 0, 0, 2].map (BitVec.ofNat 64), st := .started, status := 0, detail := 0, unit := 0, info0 := 0,
    info1 := 0, energy := 0, moved := 0, ready := false, after := [] }

/-- An installation is complete; the supervisor's active slot reads 2, and slot A counts as verified. -/
def verifyThirdSlot : State :=
  { State.reset with host.ops := [lastBlock], vlt.inst := some ⟨[0], []⟩, nv.super.active := 2, nv.super.verA := true }

/-- The inactive slot is 1 - 2 = 0, slot A, whose bytes are no plan image. -/
theorem imageVerify_marks_slot_a : ∃ t, exec (.imageVerify 5) verifyThirdSlot = .next t ∧ t.nv.super.verA = false := ⟨_, rfl, by decide +kernel⟩

/-- Refutes O45: with an active slot beyond 1, IMAGE_VERIFY marks slot A and not slot B. -/
theorem not_descriptorsComplete : ¬ Obligations.DescriptorsComplete := by
  rintro ⟨-, -, -, -, -, -, hverify, -⟩
  obtain ⟨t, hnext, -, -, hsuper⟩ := hverify verifyThirdSlot 5 lastBlock ⟨[0], []⟩ (by decide +kernel) (by decide +kernel) rfl rfl
    (by decide +kernel) rfl rfl (by decide +kernel)
  obtain ⟨t', hnext', hmarked⟩ := imageVerify_marks_slot_a
  obtain rfl : t' = t := by injection hnext'.symm.trans hnext
  rw [hsuper, if_neg (by decide)] at hmarked
  cases hmarked

end Sys2Proof.Machine
end

section
/-!
PROOFS. The escalation to an engine reset counts a pair whose two arrays name the same physical array twice, so that the limit is met earlier than
each place's own count says.
-/

set_option Elab.async false

namespace Sys2Proof.Machine

/-- Arrays 0 and 1 of partition 0 are a pair, both on physical array 0; a fault of the pair is noted, and two engine resets are the limit. -/
def pairOnOneArray : State :=
  let s := withFields [(R.PART_ARR_STAT.PAIR 0 0, 1), (R.PART_ARR_STAT.PAIR 0 1, 2), (R.PART_TOP_STAT.UNAVAIL 0, 0), (R.PART_TOP_ARRn.PHYS 0 0, 0),
    (R.PART_TOP_ARRn.PHYS 0 1, 0), (R.RST_ESC_CFG.ENG_LIMIT, 2)] State.reset
  { s with ctl.mode := .run, watch.faults := [(1, uidOf 0 0 0)] }

/-- The one reset counts twice, and the partition rung starts (R384). -/
theorem pair_on_one_array_climbs : ∃ t, exec (.escalate 1 (uidOf 0 0 0)) pairOnOneArray = .next t ∧ t.rd R.RST_ESC_STAT.LAST_RUNG = 3 :=
  ⟨_, rfl, by decide +kernel⟩

/-- Refutes O53: each place of the pair is below the engine limit, yet the escalation asks for the partition's reset. -/
theorem not_guardsAndWorisyLinksComplete : ¬ Obligations.GuardsAndWorisyLinksComplete := by
  rintro ⟨-, -, -, -, -, -, hengine, -⟩
  obtain ⟨t, hnext, -, -, -, hrung, -⟩ := hengine pairOnOneArray 1 (uidOf 0 0 0) (.inl rfl) (by decide) (by decide +kernel) (by decide +kernel)
    rfl (by decide +kernel) (by decide +kernel) (by decide +kernel) (by decide) (by decide +kernel) (by decide +kernel) (by decide +kernel)
  obtain ⟨t', hnext', hclimbed⟩ := pair_on_one_array_climbs
  obtain rfl : t' = t := by injection hnext'.symm.trans hnext
  exact absurd (hrung.symm.trans hclimbed) (by decide)

end Sys2Proof.Machine
end

section
/-!
PROOFS. The even array of a pleached pair runs for both: SETSEED at an even array sets the odd array's seed too.
-/

set_option Elab.async false

namespace Sys2Proof.Machine

/-- SETSEED 7. -/
def setseedSeven : Nat := 5 * 2 ^ 122 + 7

/-- Arrays 0 and 1 of partition 0 are a pair and stand at SETSEED. -/
def pairAtSetseed : State :=
  let s := withFields [(R.PART_ARR_STAT.STATE 0 0, US.RUN), (R.PART_ARR_STAT.PAIR 0 0, 1), (R.PART_ARR_STAT.STATE 0 1, US.RUN),
    (R.PART_ARR_STAT.PAIR 0 1, 2), (R.PART_TOP_STAT.UNAVAIL 0, 0)] State.reset
  apply (.write (storeBase 0 0) (leBytes 16 setseedSeven))
    { s with arrs := [(0, { Arr.init with ctx := some 0, len := 100 }), (1, { Arr.init with ctx := some 0, len := 100 })] }

theorem pairAtSetseed_ready : ArrAt pairAtSetseed 0 0 setseedSeven := by decide +kernel

/-- SETSEED writes the seeds of both arrays of the pair (R70, R76). -/
theorem setseed_seeds_odd_array : ∃ t, exec (.setseed 0 0) pairAtSetseed = .next t ∧ (tget Arr.init t.arrs 1).seed = 7 :=
  ⟨_, rfl, by decide +kernel⟩

/-- Refutes O18: at a pleached pair SETSEED changes the odd array as well. -/
theorem not_registerOnlyArrayInstructionsChangeOneArray : ¬ Obligations.RegisterOnlyArrayInstructionsChangeOneArray := by
  rintro ⟨hone, -⟩
  obtain ⟨-, hsetseed, -⟩ := hone pairAtSetseed 0 0 setseedSeven pairAtSetseed_ready
  obtain ⟨t, hnext, -, -, hothers, -⟩ := hsetseed (by decide)
  obtain ⟨t', hnext', hseeded⟩ := setseed_seeds_odd_array
  obtain rfl : t' = t := by injection hnext'.symm.trans hnext
  rw [hothers 1 (by decide)] at hseeded
  exact absurd hseeded (by decide +kernel)

end Sys2Proof.Machine
end

section
/-!
PROOFS. A general core's turn (R96, R104): where its fetch is clean the body alone runs; a jump's effect; what stays in one core's registers and
PART_CORE_STAT changes nothing else of the module.
-/

set_option Elab.async false

namespace Sys2Proof.Machine

/-! Keys of registers within their dimensions. -/

theorem dimFlat_inj {ds : List (Nat × Nat)} : ∀ {ix jx : List Nat}, dimOk ds ix = true → dimOk ds jx = true → dimFlat ds ix = dimFlat ds jx →
    ix = jx := by
  induction ds with
  | nil =>
    rintro (_ | _) (_ | _) hi hj -
    · rfl
    all_goals simp [dimOk] at hi hj
  | cons d ds ih =>
    rintro (_ | ⟨i, ix⟩) (_ | ⟨j, jx⟩) hi hj h
    any_goals simp [dimOk] at hi hj
    obtain ⟨hi, his⟩ := hi
    obtain ⟨hj, hjs⟩ := hj
    simp only [dimFlat, Nat.mod_eq_of_lt hi, Nat.mod_eq_of_lt hj] at h
    have hmod := congrArg (· % d.2) h
    have hdiv := congrArg (· / d.2) h
    have hpos : 0 < d.2 := by omega
    simp only [Nat.add_mul_mod_self_left, Nat.mod_eq_of_lt hi, Nat.mod_eq_of_lt hj] at hmod
    simp only [Nat.add_mul_div_left _ _ hpos, Nat.div_eq_of_lt hi, Nat.div_eq_of_lt hj, Nat.zero_add] at hdiv
    rw [hmod, ih his hjs hdiv]

/-- Two registers within their dimensions that share a key are one. -/
theorem regKey_inj {k j : RegKind} {ix jx : List Nat} (hi : dimOk (regRow k).dims ix = true) (hj : dimOk (regRow j).dims jx = true)
    (h : regKey k ix = regKey j jx) : k = j ∧ ix = jx := by
  obtain rfl : k = j := by
    by_contra hne
    exact regKey_ne ix jx hne h
  exact ⟨rfl, dimFlat_inj hi hj (by simpa [regKey] using h)⟩

/-! Fields of one register kind, by their places. -/

section Fields

variable (s : State) {k k' : RegKind} (ix ix' : List Nat) {lo w lo' w' : Nat} (v : Nat)

theorem rd_reg_same (h : Fld.plain ⟨k, [], lo, w⟩ = true) : (apply (.reg ⟨k, ix, lo, w⟩ v) s).rd ⟨k, ix, lo, w⟩ = v % 2 ^ w := rd_reg_self _ _ _ h

theorem rd_reg_apart (h : Fld.plain ⟨k, [], lo', w'⟩ = true) (hapart : lo + w ≤ lo' ∨ lo' + w' ≤ lo) :
    (apply (.reg ⟨k, ix, lo, w⟩ v) s).rd ⟨k, ix, lo', w'⟩ = s.rd ⟨k, ix, lo', w'⟩ := rd_reg_other _ _ _ _ h rfl rfl hapart.symm

theorem rd_reg_elsewhere (h : k' ≠ k) : (apply (.reg ⟨k, ix, lo, w⟩ v) s).rd ⟨k', ix', lo', w'⟩ = s.rd ⟨k', ix', lo', w'⟩ := rd_reg_kind _ _ _ _ h

end Fields

/-! Clean reads of on-chip memory. -/

/-- An address of tier 2: shared SRAM, stores and local memories. -/
def onChip (a : Nat) : Prop := 0x20000000000 ≤ a ∧ a < 0x100000000000

theorem regionRaw_onChip {a : Nat} (h : onChip a) : (∀ p, regionRaw a ≠ .tier1 p) ∧ ∀ o, regionRaw a ≠ .vault o := by
  obtain ⟨hlo, hhi⟩ := h
  have htier0 : ¬ a < 0xC00000000 := by omega
  have hgap : ¬ a < 0x10000000000 := by omega
  have htier1 : ¬ a < 0x20000000000 := by omega
  simp only [regionRaw, htier0, hgap, htier1, hhi, if_false, if_true]
  constructor <;> intro _ <;> repeat' split
  all_goals simp

theorem regionOf_onChip (s : State) {a : Nat} (h : onChip a) : (∀ p, regionOf s a ≠ .tier1 p) ∧ ∀ o, regionOf s a ≠ .vault o := by
  obtain ⟨htier, hvault⟩ := regionRaw_onChip h
  unfold regionOf
  split
  · split
    · simp
    · exact ⟨htier, hvault⟩
  · exact ⟨htier, hvault⟩

theorem chanFailed_onChip (s : State) {a : Nat} (len : Nat) (h : onChip a) : chanFailed s a len = false := by
  have hregion := (regionOf_onChip s h).1
  unfold chanFailed
  split
  · next p heq => exact absurd heq (hregion p)
  · rfl

theorem errCws_of_no_errs {s : State} (h : s.mem.errs = []) (a len : Nat) : errCws s a len = [] := by simp [errCws, h]

theorem readMem_clean {o : State} (x : Trace o) {rdr unit a len : Nat} (h : onChip a) (hclean : errCws x.1 a len = []) :
    readMem rdr unit a len x = (.ok (peek x.1 a len), x) := by
  have hvault := (regionOf_onChip x.1 h).2
  rw [readMem, M.bind_run, st_run, chanFailed_onChip _ _ h, if_neg Bool.false_ne_true, hclean]
  cases hregion : regionOf x.1 a with
  | vault off => exact absurd hregion (hvault off)
  | _ => rfl

theorem onChip_locBase {p g a : Nat} (hp : p < 8) (hg : g < 48) (ha : a < 0x40000) : onChip (locBase p g + a) := by
  unfold onChip locBase
  omega

theorem onChip_coreAddr {p g a len m : Nat} (hp : p < 8) (hg : g < 48) (h : coreAddr p g a len = some m) (hlen : 0 < len) : onChip m := by
  unfold coreAddr at h
  split_ifs at h with hmod hloc hpool
  · obtain rfl := Option.some.inj h
    exact onChip_locBase hp hg (by omega)
  · obtain rfl := Option.some.inj h
    unfold onChip
    unfold poolBase at hpool
    omega

/-! The turn. -/

theorem CoreAt.unitTurn {o : State} {p g : Nat} (x : Trace o) (h : CoreAt x.1 p g) : unitTurn (uidOf p 1 g) x = (true, x) := by
  obtain ⟨hp, hg, hissue, hreset, hctx, hrun, -, -⟩ := h
  have hkind : uKind (uidOf p 1 g) = 1 := uKind_uidOf (by decide) (by omega)
  have hidx : uIdx (uidOf p 1 g) = g := uIdx_uidOf (by omega)
  have hpart : uPart (uidOf p 1 g) = p := uPart_uidOf hp (by decide) (by omega)
  have hbound : unitCtx x.1 (uidOf p 1 g) ≠ none := by
    rw [unitCtx, hkind, hidx, hpart]
    exact Option.isSome_iff_ne_none.1 hctx
  simp [Machine.unitTurn, M.bind_run, M.pure_run, st_run, hpart, hissue, hreset, hbound, stFld, hkind, hidx, hrun]

theorem coreTurn_run {o : State} {p g : Nat} (x : Trace o) (body : M o Unit) (h : CoreAt x.1 p g) : coreTurn p g Flt.none body x = body x := by
  obtain ⟨hp, hg, -, -, -, -, hpc, hclean⟩ := id h
  have hread := readMem_clean x (rdr := RC.core) (unit := uidOf p 1 g) (onChip_locBase hp hg (a := 4 * x.1.rd (R.PART_CORE_STAT.PC p g)) (by omega))
    hclean
  simp [coreTurn, Flt.none, applyUps, M.bind_run, M.pure_run, rd_run, h.unitTurn x, hread]

/-- A command whose meaning is a core's turn runs the body alone. -/
theorem coreTurn_does {i : Instr} {s : State} {p g : Nat} {body : M s Unit} {E : State → Prop} (h : CoreAt s p g)
    (he : exec i s = act i.wf s (coreTurn p g Flt.none body)) (hwf : i.wf = true) (hE : E (body ⟨s, Reach.refl⟩).2.1) : Does i s E := by
  refine does_intro he hwf ?_
  rwa [coreTurn_run _ _ h]

/-! Jumps. -/

theorem stFld_core {p g : Nat} (hp : p < 8) (hg : g < 48) : stFld (uidOf p 1 g) = R.PART_CORE_STAT.STATE p g := by
  have hkind : uKind (uidOf p 1 g) = 1 := uKind_uidOf (by decide) (by omega)
  have hidx : uIdx (uidOf p 1 g) = g := uIdx_uidOf (by omega)
  have hpart : uPart (uidOf p 1 g) = p := uPart_uidOf hp (by decide) (by omega)
  simp [stFld, hkind, hidx, hpart]

/-- Core g of partition p runs at word `pc`, its shield gone. -/
def jumped (p g pc : Nat) (s : State) : State :=
  apply (.reg (R.PART_CORE_STAT.STATE p g) US.RUN)
    (apply (.core (48 * p + g) fun c => { c with shield := false }) (apply (.reg (R.PART_CORE_STAT.PC p g) pc) s))

section Jumps

variable {p g pc : Nat}

theorem coreJump_fin {o : State} (x : Trace o) (hp : p < 8) (hg : g < 48) (hpc : pc < 65536) : (coreJump p g pc x).2.1 = jumped p g pc x.1 := by
  rw [coreJump, stFld_core hp hg]
  simp only [M.bind_run, wr_run, upCore_run, if_pos hpc, jumped]

theorem coreNext_fin {o : State} (x : Trace o) (hp : p < 8) (hg : g < 48) (hpc : x.1.rd (R.PART_CORE_STAT.PC p g) < 65535) :
    (coreNext p g x).2.1 = jumped p g (x.1.rd (R.PART_CORE_STAT.PC p g) + 1) x.1 := by
  rw [coreNext, M.bind_run, rd_run, coreJump_fin _ hp hg (by omega)]

theorem jumped_pc (s : State) (hpc : pc < 65536) : (jumped p g pc s).rd (R.PART_CORE_STAT.PC p g) = pc := by
  simp (disch := decide) only [jumped, rd_reg_apart, apply_core, rd_reg_same]
  exact Nat.mod_eq_of_lt hpc

theorem jumped_state (s : State) : (jumped p g pc s).rd (R.PART_CORE_STAT.STATE p g) = US.RUN := by
  simp (disch := decide) only [jumped, rd_reg_same, Nat.mod_eq_of_lt]

end Jumps

/-! What stays in one core. -/

/-- Writes of one core's hidden state and of its PART_CORE_STAT lead from `s` to `t`. -/
inductive CoreSteps (p g : Nat) (s : State) : State → Prop where
  | refl : CoreSteps p g s s
  | core {t : State} (f : Core → Core) (h : CoreSteps p g s t) : CoreSteps p g s (apply (.core (48 * p + g) f) t)
  | stat {t : State} (lo w v : Nat) (h : CoreSteps p g s t) : CoreSteps p g s (apply (.reg ⟨.PART_CORE_STAT, [p, g], lo, w⟩ v) t)

theorem CoreSteps.jumped {p g : Nat} {s t : State} (pc : Nat) (h : CoreSteps p g s t) : CoreSteps p g s (jumped p g pc t) :=
  ((h.stat 0 16 pc).core _).stat 24 4 _

theorem dimOk_coreStat {p g : Nat} (hp : p < 8) (hg : g < 48) : dimOk (regRow .PART_CORE_STAT).dims [p, g] = true := by
  simp [regRow, dimOk, hp, hg]

theorem CoreSteps.only {p g : Nat} {s t : State} (hp : p < 8) (hg : g < 48) (h : CoreSteps p g s t) : OnlyCore s t p g := by
  induction h with
  | refl => exact ⟨⟨rfl, rfl, rfl, rfl, rfl, rfl, rfl, rfl, rfl, rfl, rfl, rfl, rfl⟩, rfl, rfl, fun _ _ => rfl, fun _ _ _ _ => rfl⟩
  | @core t f _ ih =>
    obtain ⟨hrest, hpw, harrs, hcores, hregs⟩ := ih
    exact ⟨hrest, hpw, harrs, fun k hk => (tget_tset_ne _ _ _ _ _ hk).trans (hcores k hk), hregs⟩
  | @stat t lo w v _ ih =>
    obtain ⟨hrest, hpw, harrs, hcores, hregs⟩ := ih
    refine ⟨hrest, hpw, harrs, hcores, fun k ix hix hother => ?_⟩
    rw [regWord_reg_key _ _ _ _ _ ?_]
    · exact hregs k ix hix hother
    · intro hkey
      obtain ⟨rfl, rfl⟩ := regKey_inj hix (dimOk_coreStat hp hg) hkey
      exact hother (List.mem_singleton_self _)

/-! One write of the core's registers, then the next word. -/

section Commits

variable {s : State} {p g : Nat}

/-- The core has changed its registers by `f` and goes on at the next word. -/
def committed (p g : Nat) (f : Core → Core) (s : State) : State :=
  jumped p g (s.rd (R.PART_CORE_STAT.PC p g) + 1) (apply (.core (48 * p + g) f) s)

theorem committed_only (h : CoreAt s p g) (f : Core → Core) : OnlyCore s (committed p g f s) p g := by
  obtain ⟨hp, hg, -⟩ := h
  exact ((CoreSteps.refl.core f).jumped _).only hp hg

theorem upNext_fin {o : State} (x : Trace o) (h : CoreAt x.1 p g) (f : Core → Core) :
    ((upCore p g f >>= fun _ => coreNext p g) x).2.1 = committed p g f x.1 := by
  obtain ⟨hp, hg, -, -, -, -, hpc, -⟩ := h
  rw [M.bind_run, upCore_run, coreNext_fin _ hp hg] <;> simp only [apply_core, committed]
  exact hpc

theorem coreLoad_run {o : State} (x : Trace o) (h : CoreAt x.1 p g) (herrs : x.1.mem.errs = []) {a len m : Nat} (hlen : 0 < len)
    (hm : coreAddr p g a len = some m) : coreLoad p g a len x = (some (peek x.1 m len), x) := by
  obtain ⟨hp, hg, -⟩ := h
  have hread := readMem_clean x (rdr := RC.core) (unit := uidOf p 1 g) (onChip_coreAddr hp hg hm hlen) (errCws_of_no_errs herrs m len)
  simp only [coreLoad, hm, M.bind_run, hread, M.pure_run]

/-! The ordinary instructions. -/

theorem ewc_does (h : CoreAt s p g) {op : EwcOp} (hwf : op.wf = true) {E : State → Prop} (hE : E (ewcBody p g op ⟨s, Reach.refl⟩).2.1) :
    Does (.ewcInstruction p g op Flt.none) s E := by
  refine coreTurn_does h rfl ?_ hE
  obtain ⟨hp, hg, -⟩ := h
  simp [Instr.wf, hp, hg, hwf]

/-- A command without further operands whose turn changes the core's registers by `f`. -/
theorem upNext_does (h : CoreAt s p g) {i : Instr} (f : Core → Core)
    (he : exec i s = act i.wf s (coreTurn p g Flt.none (upCore p g f >>= fun _ => coreNext p g))) (hwf : i.wf = true) :
    Does i s (· = committed p g f s) := coreTurn_does h he hwf (upNext_fin _ h f)

theorem core_run_coreOf {o : State} (x : Trace o) (p g : Nat) : (core p g : M o Core) x = (coreOf x.1 p g, x) := core_run p g x

theorem li_does (h : CoreAt s p g) {d : Nat} (v : BitVec 64) (hd : d < 32) :
    Does (.ewcInstruction p g (.li d v) Flt.none) s (· = committed p g (fun c => c.setX d v) s) := by
  refine ewc_does h (by simp [EwcOp.wf, hd]) ?_
  rw [ewcBody, M.bind_run, core_run_coreOf]
  exact upNext_fin _ h _

theorem alu_does (h : CoreAt s p g) {op : AluOp} {d a b : Nat} (hd : d < 32) (ha : a < 32) (hb : b < 32)
    (hclosed : aluOpen op ((coreOf s p g).getX b) = false) : Does (.ewcInstruction p g (.alu op d a b) Flt.none) s
      (· = committed p g (fun c => c.setX d (aluOp op (c.getX a) (c.getX b) 0)) s) := by
  refine ewc_does h (by simp [EwcOp.wf, hd, ha, hb]) ?_
  rw [ewcBody, M.bind_run, core_run_coreOf]
  simp only [hclosed, Bool.false_eq_true, if_false]
  rw [M.bind_run, M.pure_run]
  exact upNext_fin _ h _

theorem load_does (h : CoreAt s p g) {d a len m : Nat} {off : Int} (hd : d < 32) (ha : a < 32)
    (hlen : len = 1 ∨ len = 2 ∨ len = 4 ∨ len = 8) (herrs : s.mem.errs = []) (hm : coreAddr p g (effAddr (coreOf s p g) a off) len = some m) :
    Does (.ewcInstruction p g (.load d a off len) Flt.none) s
      (· = committed p g (fun c => c.setX d (BitVec.ofNat 64 (leNat (peek s m len)))) s) := by
  have hload := coreLoad_run ⟨s, Reach.refl⟩ h herrs (by omega) hm
  refine ewc_does h (by simp [EwcOp.wf, hd, ha]) ?_
  rw [ewcBody, M.bind_run, core_run_coreOf]
  simp only [if_pos hlen]
  rw [M.bind_run, hload]
  exact upNext_fin _ h _

theorem vload_does (h : CoreAt s p g) {d a m : Nat} {off : Int} (hd : d < 32) (ha : a < 32) (herrs : s.mem.errs = [])
    (hm : coreAddr p g (effAddr (coreOf s p g) a off) 64 = some m) :
    Does (.ewcInstruction p g (.vload d a off) Flt.none) s
      (· = committed p g (fun c => c.setV d (BitVec.ofNat 512 (leNat (peek s m 64)))) s) := by
  have hload := coreLoad_run ⟨s, Reach.refl⟩ h herrs (by omega) hm
  refine ewc_does h (by simp [EwcOp.wf, hd, ha]) ?_
  rw [ewcBody, M.bind_run, core_run_coreOf]
  simp only []
  rw [M.bind_run, hload]
  exact upNext_fin _ h _

theorem vop_does (h : CoreAt s p g) (op : VOp) (ty : VTy) (rtz : Bool) {d a b e : Nat} (hd : d < 32) (ha : a < 32) (hb : b < 32) (he : e < 32) :
    Does (.ewcInstruction p g (.vop op ty rtz d a b e) Flt.none) s
      (· = committed p g (fun c => c.setV d (vOp op ty (rndMode rtz) (c.getV a) (c.getV b) (c.getV e))) s) := by
  refine ewc_does h (by simp [EwcOp.wf, hd, ha, hb, he]) ?_
  rw [ewcBody, M.bind_run, core_run_coreOf]
  exact upNext_fin _ h _

theorem br_does (h : CoreAt s p g) (op : BrOp) {a b tgt : Nat} (ha : a < 32) (hb : b < 32) (htgt : tgt < 65536) :
    Does (.ewcInstruction p g (.br op a b tgt) Flt.none) s
      (· = jumped p g (if brTaken op ((coreOf s p g).getX a) ((coreOf s p g).getX b) then tgt else s.rd (R.PART_CORE_STAT.PC p g) + 1) s) := by
  refine ewc_does h (by simp [EwcOp.wf, ha, hb]) ?_
  obtain ⟨hp, hg, -, -, -, -, hpc, -⟩ := h
  rw [ewcBody, M.bind_run, core_run_coreOf]
  simp only []
  split
  · rw [coreJump_fin _ hp hg htgt]
  · rw [coreNext_fin _ hp hg hpc]

theorem csrr_does (h : CoreAt s p g) {d csr : Nat} {v : BitVec 64} (hd : d < 32) (hv : csrVal s p g csr = some v) :
    Does (.csrr p g d csr Flt.none) s (· = committed p g (fun c => c.setX d v) s) := by
  refine coreTurn_does h rfl ?_ ?_
  · obtain ⟨hp, hg, -⟩ := h
    simp [Instr.wf, hp, hg, hd]
  · rw [M.bind_run, st_run]
    simp only [hv]
    exact upNext_fin _ h _

theorem iret_does (h : CoreAt s p g) (halign : (coreOf s p g).epc.toNat % 4 = 0) (hin : (coreOf s p g).epc.toNat < 262144) :
    Does (.iret p g Flt.none) s (· = apply (.core (48 * p + g) fun c => { c with shield := true })
      (jumped p g ((coreOf s p g).epc.toNat / 4) (apply (.reg (R.PART_CORE_STAT.INH p g) 0) s))) := by
  obtain ⟨hp, hg, -⟩ := id h
  refine coreTurn_does h rfl (by simp [Instr.wf, hp, hg]) ?_
  rw [M.bind_run, core_run_coreOf]
  simp only [halign, hin, and_self, if_true]
  have hpc : (coreOf s p g).epc.toNat / 4 < 65536 := by omega
  simp only [M.bind_run, upCore_run, wr_run, coreJump_fin _ hp hg hpc]

theorem wfi_does (h : CoreAt s p g) : Does (.wfi p g Flt.none) s
    (· = apply (.reg (R.PART_CORE_STAT.STATE p g) US.WFI) (jumped p g (s.rd (R.PART_CORE_STAT.PC p g) + 1) s)) := by
  obtain ⟨hp, hg, -, -, -, -, hpc, -⟩ := id h
  refine coreTurn_does h rfl (by simp [Instr.wf, hp, hg]) ?_
  have hnext := coreNext_fin ⟨s, Reach.refl⟩ hp hg hpc
  simp only [M.bind_run, rd_run, when_run, hnext, jumped_state, decide_true, if_true, wr_run]

end Commits

/-- Settles O19: each of these instructions writes the core's registers and its PART_CORE_STAT alone. -/
theorem registerOnlyCoreInstructionsChangeOneCore : Obligations.RegisterOnlyCoreInstructionsChangeOneCore := by
  have honly {s : State} {p g : Nat} {i : Instr} {t : State} (h : CoreAt s p g) (ht : CoreSteps p g s t) (hdo : Does i s (· = t)) :
      Does i s (OnlyCore s · p g) := by
    obtain ⟨hp, hg, -⟩ := h
    obtain ⟨_, hnext, rfl⟩ := hdo
    exact ⟨_, hnext, ht.only hp hg⟩
  have hcommitted {s : State} {p g : Nat} (f : Core → Core) : CoreSteps p g s (committed p g f s) := (CoreSteps.refl.core f).jumped _
  refine ⟨fun s p g d v h hd => ?_, fun s p g op d a b h hd ha hb hclosed => ?_, fun s p g d a len m off h hd ha hlen herrs hm => ?_,
    fun s p g d a m off h hd ha herrs hm => ?_, fun s p g op ty rtz d a b e h hd ha hb he => ?_, fun s p g op a b tgt h ha hb htgt => ?_,
    fun s p g d csr v h hd hv => ?_, fun s p g h => ?_, fun s p g h => ?_, fun s p g h halign hin => ?_, fun s p g h => ?_⟩
  · exact honly h (hcommitted _) (li_does h v hd)
  · exact honly h (hcommitted _) (alu_does h hd ha hb hclosed)
  · exact honly h (hcommitted _) (load_does h hd ha hlen herrs hm)
  · exact honly h (hcommitted _) (vload_does h hd ha herrs hm)
  · exact honly h (hcommitted _) (vop_does h op ty rtz hd ha hb he)
  · exact honly h (CoreSteps.refl.jumped _) (br_does h op ha hb htgt)
  · exact honly h (hcommitted _) (csrr_does h hd hv)
  · obtain ⟨hp, hg, -⟩ := id h
    exact honly h (hcommitted _) (upNext_does h _ rfl (by simp [Instr.wf, hp, hg]))
  · obtain ⟨hp, hg, -⟩ := id h
    exact honly h (hcommitted _) (upNext_does h _ rfl (by simp [Instr.wf, hp, hg]))
  · exact honly h (((CoreSteps.refl.stat 23 1 0).jumped _).core _) (iret_does h halign hin)
  · exact honly h ((CoreSteps.refl.jumped _).stat 24 4 _) (wfi_does h)

end Sys2Proof.Machine
end

section
/-!
PROOFS. TILE with INIT 2 goes on in the bank whose order is that of the last fill; where two banks share that order it is bank 0, while the last
bank of the claim is bank 1.
-/

set_option Elab.async false

namespace Sys2Proof.Machine

/-- TILE with INIT 2: exact operands in slots 300 and 400, one K unit, unit exponent 8. -/
def tileOnward : Nat :=
  2 ^ 122 + 5 * 2 ^ 115 + 5 * 2 ^ 110 + 2 ^ 109 + 300 * 2 ^ 96 + 2 ^ 95 + 400 * 2 ^ 82 + 2 ^ 66 + 8 * 2 ^ 56 + 2 * 2 ^ 54

/-- A bank that has streamed its tiles. -/
def streamedBank : Acc := { Acc.free with st := .streamed, fp := false, lsb := 8, kb := 3 }

/-- Array 0 of partition 0 stands at the tile, with two streamed banks of the same order. -/
def twoBanksOfOneOrder : State :=
  let s := withFields [(R.PART_ARR_STAT.STATE 0 0, US.RUN), (R.PART_TOP_STAT.UNAVAIL 0, 0)] State.reset
  apply (.write (storeBase 0 0) (leBytes 16 tileOnward))
    { s with arrs := [(0, { Arr.init with ctx := some 0, len := 100, slope := .idle, bank0 := streamedBank, bank1 := streamedBank })] }

theorem twoBanksOfOneOrder_ready : ArrAt twoBanksOfOneOrder 0 0 tileOnward ∧ slopeOn twoBanksOfOneOrder 0 0 = false ∧
    (arrOf twoBanksOfOneOrder 0 0).slope ≠ .filler ∧ lastBank (arrOf twoBanksOfOneOrder 0 0) = some 1 := by decide +kernel

theorem tile_goes_on_in_bank_zero : ∃ t, exec (.tile 0 0 Flt.none) twoBanksOfOneOrder = .next t ∧ ((arrOf t 0 0).bank 1).st = .streamed :=
  ⟨_, rfl, by decide +kernel⟩

/-- Refutes O36: of two banks of one order the tile takes bank 0. -/
theorem not_arrayArithmeticCompletes : ¬ Obligations.ArrayArithmeticCompletes := by
  rintro ⟨-, -, honward, -⟩
  obtain ⟨hat, hslope, hfiller, hlast⟩ := twoBanksOfOneOrder_ready
  obtain ⟨t, hnext, -, hfilling, -⟩ := honward twoBanksOfOneOrder 0 0 tileOnward 1 hat (by decide) hslope hfiller (by decide) hlast
  obtain ⟨t', hnext', hstreamed⟩ := tile_goes_on_in_bank_zero
  obtain rfl : t' = t := by injection hnext'.symm.trans hnext
  rw [hstreamed] at hfilling
  cases hfilling

end Sys2Proof.Machine
end

section
/-!
PROOFS. Writes of UPD_CTL, the staging window and RST_QS_SRC_CTL (R361, R416): what the requests they make leave.
-/

set_option Elab.async false

namespace Sys2Proof.Machine

/-! CHECK. -/

section Check

variable {o : State} (x : Trace o)

/-- The state that CHECK ends in. -/
def checkEnds (s : State) : Nat := if (checkImage s s.upd.staging).1 = UE.NONE then UP.CHECKED else UP.REJECTED

/-- The finding of a CHECK is shown where the image is rejected. -/
def checkShown (s : State) : State :=
  if (checkImage s s.upd.staging).1 = UE.NONE then s
  else apply (.reg R.UPD_STAT.BLOCK (checkImage s s.upd.staging).2) (apply (.reg R.UPD_STAT.ERR (checkImage s s.upd.staging).1) s)

theorem updCheck_via (h : x.1.rd R.UPD_STAT.STATE < 4) :
    Via FP.notice (updSet (checkEnds x.1) (checkShown x.1)) (updCheck x).2.1 := by
  have hopen : ¬ (x.1.rd R.UPD_STAT.STATE = UP.PROGRAMMING ∨ x.1.rd R.UPD_STAT.STATE = UP.ACTIVATING ∨
      x.1.rd R.UPD_STAT.STATE = UP.UNCONFIRMED ∨ x.1.rd R.UPD_STAT.STATE = UP.REVERTING) := by
    simp only [UP.PROGRAMMING, UP.ACTIVATING, UP.UNCONFIRMED, UP.REVERTING]
    omega
  rw [updCheck, M.bind_run, st_run, if_neg hopen, M.bind_run, M.pure_snd, checkEnds, checkShown]
  by_cases hgood : (checkImage x.1 x.1.upd.staging).1 = UE.NONE
  · simp only [if_pos hgood]
    exact setUpd_via rfl
  · simp only [if_neg hgood, wrs, M.bind_run, M.pure_snd, wr_run]
    exact setUpd_via rfl

end Check

theorem checkEnds_lt (s : State) : checkEnds s < 16 := by
  unfold checkEnds
  split <;> decide

/-! Quickset sessions. -/

/-- A field that a mask leaves out reads 0 behind it. -/
theorem fget_and_out {x lo w m : Nat} (h : ((2 ^ w - 1) * 2 ^ lo) &&& m = 0) : fget (x &&& m) lo w = 0 := by
  refine Nat.eq_of_testBit_eq fun i => ?_
  rw [testBit_fget, Nat.zero_testBit]
  by_cases hi : i < w
  · have hbit := congrArg (Nat.testBit · (lo + i)) h
    simp only [Nat.testBit_and, Nat.zero_testBit, Nat.testBit_mul_two_pow, Nat.testBit_two_pow_sub_one, Nat.le_add_right, decide_true,
      Nat.add_sub_cancel_left, hi, Bool.true_and] at hbit
    rw [Nat.testBit_and, hbit]
    simp
  · simp [hi]

section Quickset

variable {s : State} {src : Src}

/-- A write of RST_QS_SRC_CTL's GO or CANCEL: the word that goes to the register. -/
def qsCtlWord (s : State) (lo : Nat) : Nat := fset ((regWord s .RST_QS_SRC_CTL []).toNat &&& rwMask .RST_QS_SRC_CTL) lo 1 1

theorem rwMask_qsCtl : rwMask .RST_QS_SRC_CTL = 0x3FEFFFFF := by decide

/-- It leaves the other fields as they are. -/
theorem qsCtlWord_kept (s : State) {lo lo' w' : Nat} (hlo : lo' + w' ≤ lo)
    (hmask : ((2 ^ w' - 1) * 2 ^ lo') &&& 0x3FEFFFFF = (2 ^ w' - 1) * 2 ^ lo') :
    fget (qsCtlWord s lo) lo' w' = s.rd ⟨.RST_QS_SRC_CTL, [], lo', w'⟩ := by
  rw [qsCtlWord, fget_fset_other _ _ _ _ _ _ (.inl hlo), rwMask_qsCtl, fget_and hmask]
  rfl

theorem qsCtlWord_self (s : State) (lo : Nat) : fget (qsCtlWord s lo) lo 1 = 1 := by rw [qsCtlWord, fget_fset_self, Nat.pow_one]

theorem qsCtlWord_clear (s : State) {lo lo' : Nat} (h : lo' + 1 ≤ lo ∨ lo + 1 ≤ lo') (hmask : ((2 ^ 1 - 1) * 2 ^ lo') &&& 0x3FEFFFFF = 0) :
    fget (qsCtlWord s lo) lo' 1 = 0 := by
  rw [qsCtlWord, fget_fset_other _ _ _ _ _ _ h, rwMask_qsCtl, fget_and_out hmask]

/-- After the fields of the word `w` have gone to RST_QS_SRC_CTL. -/
theorem putQsFields_keeps {o : State} (x : Trace o) (w : Nat) :
    (putReg .RST_QS_SRC_CTL [] w x).2.1.rd R.RST_QS_SRC_CTL.KIND = fget w 28 2 ∧
    (putReg .RST_QS_SRC_CTL [] w x).2.1.rd R.RST_QS_SRC_CTL.DST_FA = fget w 0 20 := by
  simp (disch := decide) only [putReg, regRow, putFlds, M.bind_run, wr_run, M.pure_run, rd_reg_apart, rd_reg_same, Nat.mod_eq_of_lt (fget_lt _ _ _),
    and_self]

/-- Quickset's own state after a session of kind 2 has begun. -/
theorem qsStart_session {o : State} (x : Trace o) {len : Nat} (hkind : x.1.rd R.RST_QS_SRC_CTL.KIND = 2) (hlen : qsLen x.1 2 = some len)
    (hfree : qsBusy x.1 = false) : (qsStart x).2.1.qs.sent = 0 ∧ (qsStart x).2.1.qs.session = (x.1.qs.session + 1) % 65536 ∧
      (qsStart x).2.1.qs.src.map (fun a => (a.src, a.dst, a.kind, a.imageLen)) =
        some (ownFa x.1, x.1.rd R.RST_QS_SRC_CTL.DST_FA, 2, len) := by
  simp [qsStart, M.bind_run, st_run, hkind, hlen, hfree, freeBits, eff_run, mark_run, M.map_run]

theorem putQsCtl_go {o : State} (x : Trace o) : (putQsCtl (qsCtlWord s 31) x).2.1 = (qsStart (putReg .RST_QS_SRC_CTL [] (qsCtlWord s 31) x).2).2.1 := by
  have hgo := qsCtlWord_self s 31
  have hstay : fget (qsCtlWord s 31) 30 1 = 0 := qsCtlWord_clear s (.inl (by decide)) (by decide)
  simp only [putQsCtl, M.bind_run, M.pure_snd, when_run, hgo, hstay, Nat.reduceBEq, Bool.false_eq_true, beq_self_eq_true, if_false, if_true]

theorem putQsCtl_cancel {o : State} (x : Trace o) : (putQsCtl (qsCtlWord s 30) x).2.1 =
    apply (.qs fun q => { q with src := none, sent := 0 }) (putReg .RST_QS_SRC_CTL [] (qsCtlWord s 30) x).2.1 := by
  have hcancel := qsCtlWord_self s 30
  have hstay : fget (qsCtlWord s 30) 31 1 = 0 := qsCtlWord_clear s (.inr (by decide)) (by decide)
  simp only [putQsCtl, M.bind_run, M.pure_snd, when_run, hcancel, hstay, Nat.reduceBEq, Bool.false_eq_true, beq_self_eq_true, if_false, if_true, qsCancel, eff_run]

theorem quicksetGo_does (h : Passes s src (regOff .RST_QS_SRC_CTL [])) {len : Nat} (hkind : s.rd R.RST_QS_SRC_CTL.KIND = 2)
    (hlen : qsLen s 2 = some len) (hfree : qsBusy s = false) : Does (.quicksetGo src) s fun t => t.qs.sent = 0 ∧
      t.qs.session = (s.qs.session + 1) % 65536 ∧
      t.qs.src.map (fun a => (a.src, a.dst, a.kind, a.imageLen)) = some (ownFa s, s.rd R.RST_QS_SRC_CTL.DST_FA, 2, len) := by
  refine barField_does rfl (Passes.src_wf h) h (by decide) fun r w hw => ?_
  obtain rfl : w = qsCtlWord s 31 := hw
  obtain ⟨hctl, -, -, -, -, hqs, hother⟩ := putFlds_keep .RST_QS_SRC_CTL [] (qsCtlWord s 31) (regRow .RST_QS_SRC_CTL).flds ⟨s, Reach.refl⟩
  obtain ⟨hkind', hdst'⟩ := putQsFields_keeps ⟨s, Reach.refl⟩ (qsCtlWord s 31)
  rw [qsCtlWord_kept s (by decide) (by decide)] at hkind' hdst'
  have hlen' : qsLen (putReg .RST_QS_SRC_CTL [] (qsCtlWord s 31) ⟨s, Reach.refl⟩).2.1 2 = some len := by
    rw [← hlen]
    simp [qsLen, qsWords, putReg, hctl]
  have hfree' : qsBusy (putReg .RST_QS_SRC_CTL [] (qsCtlWord s 31) ⟨s, Reach.refl⟩).2.1 = false := by
    rw [← hfree, qsBusy, qsBusy, putReg, hqs]
  obtain ⟨hsent, hsession, hann⟩ := qsStart_session _ (hkind'.trans hkind) hlen' hfree'
  have hown : ownFa (putReg .RST_QS_SRC_CTL [] (qsCtlWord s 31) ⟨s, Reach.refl⟩).2.1 = ownFa s := hother _ (by decide)
  have hqs' : (putReg .RST_QS_SRC_CTL [] (qsCtlWord s 31) ⟨s, Reach.refl⟩).2.1.qs = s.qs := hqs
  rw [hqs'] at hsession
  rw [hown, hdst'] at hann
  rw [((wordRec_in ..).via _).qs rfl, putQsCtl_go]
  exact ⟨hsent, hsession, hann⟩

theorem quicksetCancel_does (h : Passes s src (regOff .RST_QS_SRC_CTL [])) :
    Does (.quicksetCancel src) s fun t => t.qs = { s.qs with src := none, sent := 0 } := by
  refine barField_does rfl (Passes.src_wf h) h (by decide) fun r w hw => ?_
  obtain rfl : w = qsCtlWord s 30 := hw
  obtain ⟨-, -, -, -, -, hqs, -⟩ := putFlds_keep .RST_QS_SRC_CTL [] (qsCtlWord s 30) (regRow .RST_QS_SRC_CTL).flds ⟨s, Reach.refl⟩
  rw [((wordRec_in ..).via _).qs rfl, putQsCtl_cancel]
  simp only [apply_qs, putReg, hqs]

end Quickset

/-- Settles O35: the field written says which request is made; a CHECK ends in the state that its finding gives. -/
theorem updateRegisterWritesComplete : Obligations.UpdateRegisterWritesComplete := by
  refine ⟨fun s src hpass hstate => ?check, fun s src hpass hstate => ?program, fun s src hpass hstate => ?cancel,
    fun s src off v hpass halign hlo hhi => ?staging, fun s src len hpass hkind hlen hfree => quicksetGo_does hpass hkind hlen hfree,
    fun s src hpass => quicksetCancel_does hpass⟩
  case check =>
    obtain ⟨t, hnext, hvia⟩ := updateCheck_does hpass
    have hset := ((updCheck_via ⟨s, Reach.refl⟩ hstate).mono rfl).trans hvia
    have hends := hset.updState (checkEnds_lt s)
    refine ⟨t, hnext, hends, ?_⟩
    rw [hset.nor rfl, updSet_nor, hends]
  case program =>
    obtain ⟨t, hnext, hvia⟩ := updateProgram_does hpass
    have hset := ((updProgram_via ⟨s, Reach.refl⟩ hstate).mono rfl).trans hvia
    refine ⟨t, hnext, hset.updState (by decide), ?_⟩
    rw [hset.nor rfl, updSet_nor]
    exact norProgramming_writing { imageOf s.upd.staging with ok := false } s.nv.nor
  case cancel =>
    obtain ⟨t, hnext, hvia⟩ := updateCancel_does hpass
    have hset := ((updCancel_via ⟨s, Reach.refl⟩ hstate).mono rfl).trans hvia
    exact ⟨t, hnext, hset.updState (by decide), by rw [hset.nor rfl, updSet_nor]⟩
  case staging =>
    obtain ⟨t, hnext, hvia⟩ := stagingWrite_does v hpass halign hlo hhi
    refine ⟨t, hnext, ?_, fun hchecked => ?_⟩
    · rw [hvia.upd rfl, (stagingPut_via _ off v).upd rfl, staged_upd]
    · have hset := ((stagingPut_checked ⟨s, Reach.refl⟩ off v hchecked).mono rfl).trans hvia
      exact hset.updState (by decide)

end Sys2Proof.Machine
end

section
/-!
PROOFS. An actuating command that is not in order (R402): every one of Table 11-3 is an `actCmd`, and a refused one is its record and its response.
-/

set_option Elab.async false

namespace Sys2Proof.Machine

/-- Every actuating command is a request that its lease guards. -/
theorem exec_leaseOf {i : Instr} {w : WReq} {cmd : Nat} (h : leaseOf i = some (w, cmd)) (s : State) :
    ∃ (v : Nat) (m : M s Ans), exec i s = act i.wf s (actCmd w cmd v m) := by
  cases i
  case leaseRenew | leaseRelease | setClip | setRackClip | setOpCeil | flowReport | operatorHold | operatorHoldRelease | reset | memberRenew |
    fenceCommand | readmit | worisyClrFails | activate | confirm | rollback | activatePlan | evtClear | ownerEnroll | ownerRevoke | setSecurity =>
    obtain ⟨rfl, rfl⟩ := Prod.mk.inj (Option.some.inj h)
    exact ⟨_, _, rfl⟩
  all_goals cases h

/-- The statuses of a refusal. -/
theorem actRefusal_not_carried {s : State} {w : WReq} {cmd status : Nat} (h : actRefusal s w cmd = some status) : carried status = false := by
  unfold actRefusal at h
  split_ifs at h <;> obtain rfl := Option.some.inj h <;> rfl

/-- A response that carries nothing out counts no request. -/
theorem answer_uncarried_via {o : State} {w : WReq} {cmd : Nat} {a : Ans} (h : carried a.1 = false) (x : Trace o) :
    Via FP.evRaw x.1 (answer w cmd a x).2.1 := by
  have hout : FP.evRaw.testBit Tag.out.bit = true := by decide
  have hwor : FP.evRaw.testBit Tag.wor.bit = true := by decide
  have hresponded : Via FP.evRaw x.1 (responded w cmd a x.1) := (Via.refl.step (.out _) hout).step (.wor _ _) hwor
  simp only [answer, upWor, M.bind_run, send_run, eff_run, when_run, h, Bool.false_eq_true, if_false]
  exact hresponded

/-- Settles O29: the refused command's record and response write the recorder, the ports and the outbox alone. -/
theorem refusedActuatingCommandChangesNothing : Obligations.RefusedActuatingCommandChangesNothing := by
  intro i w cmd status s hlease hwf hheard hrefused
  obtain ⟨v, m, hexec⟩ := exec_leaseOf hlease s
  refine does_intro hexec hwf ⟨actCmd_refused_answered v m hheard hrefused, ?_⟩
  have hanswer := answer_uncarried_via (w := w) (cmd := cmd) (a := plain status) (actRefusal_not_carried hrefused)
    (cmdRec (portKind w.port) cmd v (cmdResult status) ⟨s, Reach.refl⟩).2
  rw [actCmd_refused_run _ v m hheard hrefused]
  exact (((cmdRec_in ..).via _).trans hanswer).frame (by decide)

end Sys2Proof.Machine
end

section
/-!
PROOFS. A register whose fields are all plain read-write fields takes a written word with its RSV bits 0, and the write is recorded with its source
(R9, R404, R448): O25.
-/
set_option Elab.async false

namespace Sys2Proof.Machine

variable {o : State}

/-! What a word written field by field leaves. -/

/-- Some field of the rows holds bit `i`. -/
def heldBit (l : List FldRow) (i : Nat) : Bool := l.any fun f => decide (f.lo ≤ i ∧ i < f.lo + f.w)

theorem clampWord_plain {k : RegKind} (h : clampMask k = 0) (n x : Nat) : clampWord n k x = x := by
  unfold clampWord
  split
  all_goals first | cases h | rfl

/-- A bit of the word that a field write leaves, where no fused ceiling clamps. -/
theorem testBit_reg_self {f : Fld} (h : clampMask f.k = 0) (s : State) (v i : Nat) :
    (regWord (apply (.reg f v) s) f.k f.ix).toNat.testBit i =
      ((if f.lo ≤ i ∧ i < f.lo + f.w then v.testBit (i - f.lo) else (regWord s f.k f.ix).toNat.testBit i) && (regMask f.k).testBit i) := by
  rw [regWord_reg_self, regNew, clampWord_plain h, BitVec.toNat_ofNat, Nat.mod_eq_of_lt (Nat.and_le_right.trans_lt (regMask_lt f.k)),
    Nat.testBit_and, testBit_fset]

theorem putFlds_cons_rw (k : RegKind) (ix : List Nat) (v : Nat) {f : FldRow} (hf : f.acc = .rw) (l : List FldRow) (x : Trace o) :
    putFlds k ix v (f :: l) x =
      putFlds k ix v l ⟨apply (.reg ⟨k, ix, f.lo, f.w⟩ (fget v f.lo f.w)) x.1, Reach.step x.2 _⟩ := by
  rw [putFlds, M.bind_run, hf]
  rfl

/-- A bit that some field holds comes from the written word; another bit of the register stays; an RSV bit that read 0 reads 0. -/
theorem testBit_putFlds {k : RegKind} (hk : clampMask k = 0) (ix : List Nat) (v : Nat) {l : List FldRow} (hl : ∀ f ∈ l, f.acc = .rw) (x : Trace o)
    (i : Nat) (hold : (regMask k).testBit i = false → (regWord x.1 k ix).toNat.testBit i = false ∨ l ≠ []) :
    (regWord (putFlds k ix v l x).2.1 k ix).toNat.testBit i =
      ((if heldBit l i then v.testBit i else (regWord x.1 k ix).toNat.testBit i) && (regMask k).testBit i) := by
  induction l generalizing x with
  | nil =>
    cases hm : (regMask k).testBit i
    · simpa [putFlds, M.pure_run] using hold hm
    · simp [putFlds, M.pure_run, heldBit]
  | cons f l ih =>
    have hself := testBit_reg_self (f := ⟨k, ix, f.lo, f.w⟩) hk x.1 (fget v f.lo f.w) i
    rw [putFlds_cons_rw k ix v (hl f List.mem_cons_self), ih (fun g hg => hl g (List.mem_cons_of_mem f hg)) _
      fun hm => .inl (by rw [hself, hm, Bool.and_false]), hself]
    have hbit : f.lo ≤ i ∧ i < f.lo + f.w → (fget v f.lo f.w).testBit (i - f.lo) = v.testBit i := fun ⟨hlo, hhi⟩ => by
      rw [testBit_fget, Nat.add_sub_of_le hlo, decide_eq_true (by omega), Bool.true_and]
    by_cases hin : f.lo ≤ i ∧ i < f.lo + f.w
    · cases (regMask k).testBit i <;> simp [heldBit, hin, hbit hin]
    · cases (regMask k).testBit i <;> simp [heldBit, hin]

theorem putFlds_rcd (k : RegKind) (ix : List Nat) (v : Nat) {l : List FldRow} (hl : ∀ f ∈ l, f.acc = .rw) (x : Trace o) :
    (putFlds k ix v l x).2.1.rcd = x.1.rcd := by
  induction l generalizing x with
  | nil => rfl
  | cons f l ih =>
    rw [putFlds_cons_rw k ix v (hl f List.mem_cons_self), ih fun g hg => hl g (List.mem_cons_of_mem f hg)]
    rfl

/-! The plain kinds. -/

/-- The register kinds that no rule gives an effect beyond their fields. -/
def plainKinds : List RegKind :=
  [.PART_BRM_CTL, .MEM_BAR4_WINw, .MEM_LM_THR, .HIF_RING_IRQn, .FZ_PORT_MAP, .FZ_PORT_ASYM, .FZ_RT_CFG, .FZ_DIR_WIN, .FZ_VERIFY_CFG, .RST_CFG,
    .RST_ESC_CFG, .EVT_WIN, .EVT_CODE_SEL, .FZ_LAY_TIME_LO, .FZ_LAY_TIME_HI, .FZ_TIME_SET_LO, .RST_QS_SRC_BASE]

theorem mem_plainKinds {k : RegKind} (h : plainReg k = true) : k ∈ plainKinds :=
  (by decide +kernel : ∀ k ∈ regKinds, plainReg k = true → k ∈ plainKinds) k (mem_regKinds k) h

/-- The fields of a plain register are read-write, no ceiling clamps them, and they hold exactly its implemented bits. -/
theorem plain_fields {k : RegKind} (h : k ∈ plainKinds) :
    (∀ f ∈ (regRow k).flds, f.acc = .rw) ∧ clampMask k = 0 ∧ writable k = true ∧ (regRow k).flds ≠ [] ∧
      ∀ i < 32, (regMask k).testBit i = true → heldBit (regRow k).flds i = true := by
  revert k
  decide +kernel

/-- The windows of BAR0: where each begins and where it has ended. -/
def windowRanges : List (Nat × Nat) :=
  [(0x480000, 0x500000), (0x540000, 0x540000 + 4 * 1025), (0x542000, 0x543000), (0x580000, 0x5C0000), (0x600000, 0x700000), (0x3100000, 0x4000000)]

theorem outside_windows {off : Nat} (h : ∀ w ∈ windowRanges, off < w.1 ∨ w.2 ≤ off) :
    inEvtWin off = false ∧ inStaging off = false ∧ inTables off = false := by
  simp only [windowRanges, List.forall_mem_cons] at h
  obtain ⟨hevt, hdir, hsub, hgate, htable, hstaging, -⟩ := h
  simp only [inEvtWin, inStaging, inTables, Bool.and_eq_false_iff, Bool.or_eq_false_iff, decide_eq_false_iff_not]
  omega

/-- Where a plain register stands no window is. -/
theorem plain_outside {k : RegKind} (h : k ∈ plainKinds) {ix : List Nat} (hix : dimOk (regRow k).dims ix = true) :
    inEvtWin (regOff k ix) = false ∧ inStaging (regOff k ix) = false ∧ inTables (regOff k ix) = false := by
  have hspan : ∀ j ∈ plainKinds, ∀ w ∈ windowRanges, (regRow j).base + dimSpan (regRow j).dims ≤ w.1 ∨ w.2 ≤ (regRow j).base := by
    decide +kernel
  have hoff := dimOff_lt hix
  refine outside_windows fun w hw => ?_
  rw [regOff]
  rcases hspan k h w hw with hbelow | habove
  · exact .inl (by omega)
  · exact .inr (by omega)

/-- The word that a plain register holds after a write: the written word with its RSV bits 0 (R9). -/
theorem regWord_putReg_plain {k : RegKind} (h : k ∈ plainKinds) (ix : List Nat) (v : Nat) (x : Trace o) :
    (regWord (putReg k ix v x).2.1 k ix).toNat = v &&& regMask k := by
  obtain ⟨hrw, hclamp, -, hne, hmask⟩ := plain_fields h
  apply Nat.eq_of_testBit_eq
  intro i
  rw [putReg, testBit_putFlds hclamp ix v hrw x i fun _ => .inr hne, Nat.testBit_and]
  cases hm : (regMask k).testBit i
  · simp
  · have hi : i < 32 := by
      by_contra hge
      rw [Nat.testBit_lt_two_pow ((regMask_lt k).trans_le (Nat.pow_le_pow_right (by decide) (by omega)))] at hm
      cases hm
    rw [hmask i hi hm, if_pos rfl]

/-- A plain register takes a word as its fields do; some are also kept in the settings store (log entry 46). -/
theorem regPut_eq {k : RegKind} (h : k ∈ plainKinds) (ix : List Nat) (v c d : Nat) :
    regPut (o := o) k ix v c d = (do putReg k ix v; return true) ∨
      regPut (o := o) k ix v c d = (do (do putReg k ix v; putSetting k ix); return true) := by
  simp only [plainKinds, List.mem_cons, List.not_mem_nil, or_false] at h
  rcases h with rfl | rfl | rfl | rfl | rfl | rfl | rfl | rfl | rfl | rfl | rfl | rfl | rfl | rfl | rfl | rfl | rfl
  case inr.inr.inr.inr.inl => exact .inr rfl
  case inr.inr.inr.inr.inr.inl => exact .inr rfl
  case inr.inr.inr.inr.inr.inr.inr.inr.inl => exact .inr rfl
  all_goals exact .inl rfl

theorem putSetting_run (k : RegKind) (ix : List Nat) (x : Trace o) : ∃ f, putSetting k ix x = ((), ⟨apply (.settings f) x.1, Reach.step x.2 _⟩) :=
  ⟨_, rfl⟩

/-- What a plain register's write leaves. -/
theorem regPut_plain {k : RegKind} (h : k ∈ plainKinds) (ix : List Nat) (v c d : Nat) (x : Trace o) :
    (regPut k ix v c d x).1 = true ∧ (regPut k ix v c d x).2.1.rcd = x.1.rcd ∧ (regPut k ix v c d x).2.1.clk = x.1.clk ∧
      (regWord (regPut k ix v c d x).2.1 k ix).toNat = v &&& regMask k := by
  obtain ⟨-, -, -, -, hclk, -⟩ := putFlds_keep k ix v (regRow k).flds x
  have hrcd := putFlds_rcd k ix v (plain_fields h).1 x
  have hword := regWord_putReg_plain h ix v x
  rcases regPut_eq (o := o) h ix v c d with heq | heq
  · rw [heq, M.bind_run, M.pure_run]
    exact ⟨rfl, hrcd, hclk, hword⟩
  · obtain ⟨f, hf⟩ := putSetting_run k ix (putReg k ix v x).2
    rw [heq, M.bind_run, M.bind_run, hf, M.pure_run]
    exact ⟨rfl, hrcd, hclk, hword⟩

/-! The record. -/

/-- A write that names no window and was not refused opens its source's record where none is open (R404). -/
theorem wordRec_run {src : Src} {off v res : Nat} {x : Trace o} (hwin : windowOf off = none) (hres : res ≠ WR.REFUSED)
    (hnone : tget none x.1.rcd.merge (Src.kind src) = none) :
    wordRec src off v res x = ((), ⟨apply (.rcd fun r => { r with merge := tset none r.merge (Src.kind src) (some ⟨off, v, v, 1, res, x.1.clk.mono⟩) }) x.1,
      Reach.step x.2 _⟩) := by
  have hcross : crossesBound src off res = false := by simp [crossesBound, hres]
  have hrec : writeRec (Src.kind src) off v res x = ((), ⟨apply (.rcd fun r => { r with
      merge := tset none r.merge (Src.kind src) (some ⟨off, v, v, 1, res, x.1.clk.mono⟩) }) x.1, Reach.step x.2 _⟩) := by
    rw [writeRec, M.bind_run, st_run]
    simp only [hnone]
    rw [eff_run]
  rw [wordRec, hwin, M.bind_run]
  simp only [hrec]
  rw [when_run, hcross]
  rfl

theorem windowOf_outside {off : Nat} (h : inEvtWin off = false ∧ inStaging off = false ∧ inTables off = false) : windowOf off = none := by
  obtain ⟨hevt, hstaging, htables⟩ := h
  simp [windowOf, hevt, hstaging, htables]

/-- The result of a write of a plain register, and what it leaves. -/
theorem putWord_plain {k : RegKind} (h : k ∈ plainKinds) {ix : List Nat} (hat : regAt (regOff k ix) = some (k, ix)) {v c d : Nat} {x : Trace o}
    (hseen : partHidden x.1 (regOff k ix) = false) :
    (putWord (regOff k ix) v c d x).1 ≠ WR.REFUSED ∧ (putWord (regOff k ix) v c d x).2.1.rcd = x.1.rcd ∧
      (putWord (regOff k ix) v c d x).2.1.clk = x.1.clk ∧ (regWord (putWord (regOff k ix) v c d x).2.1 k ix).toNat = v &&& regMask k := by
  obtain ⟨hevt, hstaging, htables⟩ := plain_outside h (regFind_sound hat).1
  obtain ⟨htaken, hrcd, hclk, hword⟩ := regPut_plain h ix v c d x
  have hw := (plain_fields h).2.2.1
  have hrun : putWord (regOff k ix) v c d x = (if v &&& regMask k = v then WR.APPLIED else WR.RSV, (regPut k ix v c d x).2) := by
    simp only [putWord, M.bind_run, st_run, ite_run, hseen, hevt, hstaging, htables, hat, regResult, hw, htaken, M.pure_run, Bool.or_self,
      Bool.not_true, Bool.false_eq_true, if_false]
  rw [hrun]
  refine ⟨?_, hrcd, hclk, hword⟩
  show (if v &&& regMask k = v then WR.APPLIED else WR.RSV) ≠ WR.REFUSED
  split <;> decide

/-- A recorded write of a plain register: the register and the record. -/
theorem barBytes_plain {k : RegKind} (h : k ∈ plainKinds) {ix : List Nat} (hat : regAt (regOff k ix) = some (k, ix)) {src : Src} {v : Nat}
    {x : Trace o} (hp : Passes x.1 src (regOff k ix)) (hal : regOff k ix % 4 = 0) (hv : v < 2 ^ 32)
    (hnone : tget none x.1.rcd.merge (Src.kind src) = none) :
    (regWord (barBytes src (regOff k ix) 4 v x).2.1 k ix).toNat = v &&& regMask k ∧
      (tget none (barBytes src (regOff k ix) 4 v x).2.1.rcd.merge (Src.kind src)).map (fun m => (m.target, m.last, m.at_)) =
        some (regOff k ix, v, x.1.clk.mono) := by
  obtain ⟨-, -, -, -, -, hseen⟩ := id hp
  obtain ⟨hres, hrcd, hclk, hword⟩ := putWord_plain h hat (v := v) (c := srcCode src) (d := Src.kind src) hseen
  have hrun : barBytes src (regOff k ix) 4 v x = recorded src (regOff k ix) v (putWord (regOff k ix) v (srcCode src) (Src.kind src)) x := by
    rw [barBytes, if_pos ⟨hal, rfl⟩, Nat.mod_eq_of_lt hv]; rfl
  have hwin := windowOf_outside (plain_outside h (regFind_sound hat).1)
  rw [hrun, recorded_run hp, wordRec_run hwin hres (by rw [hrcd]; exact hnone)]
  refine ⟨hword, ?_⟩
  simp only [apply_rcd, tget_tset_self, hclk, Option.map_some]

theorem dimOff_aligned {ds : List (Nat × Nat)} (h : ∀ d ∈ ds, d.1 % 4 = 0) (ix : List Nat) : dimOff ds ix % 4 = 0 := by
  induction ds, ix using dimOff.induct with
  | case1 st n ds i is ih =>
    have hst : st % 4 = 0 := h (st, n) List.mem_cons_self
    rw [dimOff, Nat.add_mod, Nat.mul_mod, hst, ih fun d hd => h d (List.mem_cons_of_mem _ hd)]
    simp
  | case2 ds is hshape => rw [dimOff.eq_2 _ _ hshape]

/-- Every register stands at a multiple of 4. -/
theorem regOff_aligned (k : RegKind) (ix : List Nat) : regOff k ix % 4 = 0 := by
  have hrows : ∀ j ∈ regKinds, (regRow j).base % 4 = 0 ∧ ∀ d ∈ (regRow j).dims, d.1 % 4 = 0 := by decide +kernel
  obtain ⟨hbase, hdims⟩ := hrows k (mem_regKinds k)
  rw [regOff, Nat.add_mod, hbase, dimOff_aligned hdims]

/-- Settles O25: the fields of a plain register take the word's bits one by one, the source's record opens with it, and nothing else follows. -/
theorem plainRegisterWriteClearsReservedBits : Obligations.PlainRegisterWriteClearsReservedBits := by
  unfold Obligations.PlainRegisterWriteClearsReservedBits
  intro s src k ix v hp hat hlt hplain hnone
  have hk := mem_plainKinds hplain
  have hwf : (Instr.registerWrite src (regOff k ix) 4 (v.setWidth 64)).wf = true := by
    have hsrc : src.wf = true := by cases src <;> simp_all [Src.wf, Passes]
    simp [Instr.wf, hsrc, hlt]
  have hv : (v.setWidth 64).toNat = v.toNat := by simp; omega
  refine does_intro rfl hwf ?_
  rw [hv]
  exact barBytes_plain hk hat hp (regOff_aligned k ix) v.isLt hnone

end Sys2Proof.Machine
end

section
/-!
PROOFS. A phase whose units are stopping takes no further outcome (R77), whether or not it has one yet: what CONTEXT_RESET, BRAMBLE_ACTION and
FAZAR_OP_TIMEOUT are said to lock is then not locked.
-/

set_option Elab.async false

namespace Sys2Proof.Machine

/-- A phase that is stopping and has no outcome, of operation 5. -/
def stoppingPhase : Phase :=
  { num := 0, opid := 5, decl := 0, fabric := true, pref := 3, args := [], argQ := 0, units := [], ended := [], queues := [],
    timers := [⟨0, 0, 0, 0, 0, 0, false⟩], rot := [], admitted := true, enterAt := 0, admitAt := 0, slotPref := (0, 0), kAdmit := 7, held := 0,
    meas := 0, stopping := true, outcome := none }

/-- The module in RUN; the phase stops in context 0, and the monitor's deadline for it is due. -/
def stoppingInRun : State :=
  { State.reset with ctl.mode := .run, host.ctx := [(0, { Ctx.init with phase := some stoppingPhase })], watch.due := [(0, 5, 0)] }

theorem contextReset_leaves_stopping : ∃ t, exec (.contextReset .host 0) stoppingInRun = .next t ∧ (phaseOf t 0).bind (·.outcome) = none :=
  ⟨_, rfl, by decide +kernel⟩

/-- Refutes O33: a CONTEXT_RESET locks no outcome on a phase that is stopping without one. -/
theorem not_controlRegisterWritesComplete : ¬ Obligations.ControlRegisterWritesComplete := by
  rintro ⟨-, -, -, -, -, -, -, -, -, -, hreset, -⟩
  obtain ⟨t, hnext, hlocked⟩ := hreset stoppingInRun 0 stoppingPhase (by decide) (by decide +kernel) (by decide +kernel) rfl rfl rfl
  obtain ⟨t', hnext', hopen⟩ := contextReset_leaves_stopping
  obtain rfl : t' = t := by injection hnext'.symm.trans hnext
  cases hlocked.symm.trans hopen

theorem brambleAction_leaves_stopping : ∃ t, exec (.brambleAction 0 5) stoppingInRun = .next t ∧ (phaseOf t 0).bind (·.outcome) = none :=
  ⟨_, rfl, by decide +kernel⟩

/-- Refutes O38: BRAMBLE_ACTION locks no outcome on a phase that is stopping without one. -/
theorem not_queueSlotsAndMonitorComplete : ¬ Obligations.QueueSlotsAndMonitorComplete := by
  rintro ⟨-, -, -, -, -, -, -, -, haction⟩
  obtain ⟨t, hnext, -, -, hlocked⟩ := haction stoppingInRun 0 5 0 stoppingPhase (by decide) rfl rfl rfl rfl (by decide) (by decide +kernel) rfl
  obtain ⟨t', hnext', hopen⟩ := brambleAction_leaves_stopping
  obtain rfl : t' = t := by injection hnext'.symm.trans hnext
  cases hlocked.symm.trans hopen

theorem fazarOpTimeout_leaves_stopping : ∃ t, exec (.fazarOpTimeout 0 0) stoppingInRun = .next t ∧ (phaseOf t 0).bind (·.outcome) = none :=
  ⟨_, rfl, by decide +kernel⟩

/-- Refutes O49: FAZAR_OP_TIMEOUT locks no outcome on a phase that is stopping without one. -/
theorem not_streamCommandsComplete : ¬ Obligations.StreamCommandsComplete := by
  rintro ⟨-, -, -, -, -, -, -, -, -, -, htimeout⟩
  obtain ⟨t, hnext, -, hlocked, -⟩ := htimeout stoppingInRun 0 0 stoppingPhase ⟨0, 0, 0, 0, 0, 0, false⟩ (by decide) rfl rfl rfl rfl (by decide)
  obtain ⟨t', hnext', hopen⟩ := fazarOpTimeout_leaves_stopping
  obtain rfl : t' = t := by injection hnext'.symm.trans hnext
  cases hlocked.symm.trans hopen

end Sys2Proof.Machine
end

section
/-!
PROOFS. A write of one field of PWR_STAT brings both operating points to the fused highest one (R3): a point above it, which no step from reset
reaches, is changed by the write of the other.
-/

set_option Elab.async false

namespace Sys2Proof.Machine

/-- The clip lags at point 0, on a module whose fuses allow no point above 2. -/
def lagAboveTop : State :=
  let s := withFields [(R.PWR_STAT.OP_NOW, 0), (R.PWR_STAT.OP_TARGET, 0), (R.PWR_STAT.CLIP_LAG, 1), (R.PWR_CLIP.EFF_W, 0)]
    { State.reset with nv.fuses.variant := 0 }
  { s with nv.fuses.variant := 2, pw.restoring := false, pw.runW := 1 }

/-- The target aimed at is point 1; the word written holds 2 in both fields. -/
theorem clipLagStep_clamps : ∃ t, exec .clipLagStep lagAboveTop = .next t ∧ t.rd R.PWR_STAT.OP_NOW = 2 := ⟨_, rfl, by decide +kernel⟩

/-- Refutes O51: CLIP_LAG_STEP does not keep an operating point above the fused highest one. -/
theorem not_powerClipsComplete : ¬ Obligations.PowerClipsComplete := by
  rintro ⟨-, hstep, -⟩
  obtain ⟨t, hnext, -, -, hkept⟩ := hstep lagAboveTop (by decide +kernel) (by decide +kernel) (by decide +kernel) (by decide +kernel)
    (by decide +kernel) (by decide +kernel)
  obtain ⟨t', hnext', hclamped⟩ := clipLagStep_clamps
  obtain rfl : t' = t := by injection hnext'.symm.trans hnext
  exact absurd (hkept.symm.trans hclamped) (by decide +kernel)

end Sys2Proof.Machine
end

section
/-!
PROOFS. A packet whose directory entry reads uncorrectable is dropped (R223): the claims on MCAST, REDUCE_UP and REDUCE_DOWN leave that case open.
-/

set_option Elab.async false

namespace Sys2Proof.Machine

/-- An MCAST packet of group 0 to queue 0 of partition 0. -/
def groupPacket : Pkt := ⟨BitVec.ofNat 64 (3 * 2 ^ 60), 0, 0, 0, List.replicate 256 0, 0⟩

/-- The packet waits; group 0 ends in this module, and its queue is valid. -/
def groupWaits : State :=
  let s := withFields [(R.PART_Q_CFG.VALID 0 0, 1)] State.reset
  { s with fab.inbox := [groupPacket], fab.bank0.dir := [(0xF0000, BitVec.ofNat 64 (7 * 2 ^ 61))] }

/-- No slot is published where the group's entry cannot be read. -/
theorem mcast_drops : ∃ t, exec (.mcast ⟨[], [], true⟩) groupWaits = .next t ∧ (queOf t 0 0).pub = 0 := ⟨_, rfl, by decide +kernel⟩

/-- Refutes O48: MCAST of a packet whose directory entry is unreadable writes and publishes nothing. -/
theorem not_routingAndCollectivesComplete : ¬ Obligations.RoutingAndCollectivesComplete := by
  rintro ⟨-, -, -, -, -, -, -, -, hmcast, -⟩
  obtain ⟨t, hnext, -, hpub, -⟩ := hmcast groupWaits groupPacket [] ⟨[], [], true⟩ 0xF0000 0 0 rfl (by decide +kernel) (by decide +kernel)
    (by decide +kernel) (by decide +kernel) (by decide +kernel) (by decide +kernel) (by decide +kernel) List.length_replicate (by decide +kernel) rfl
    (by decide +kernel) (by decide +kernel) (by decide +kernel)
  obtain ⟨t', hnext', hdropped⟩ := mcast_drops
  obtain rfl : t' = t := by injection hnext'.symm.trans hnext
  exact absurd (hdropped.symm.trans hpub) (by decide)

end Sys2Proof.Machine
end

section
/-!
PROOFS. Quickset announcements, blocks, repair, source fetch and verification (R361 to R367).
-/

set_option Elab.async false

namespace Sys2Proof.Machine

variable {o s t : State}

/-- A well-formed command completes with what its action leaves. -/
theorem does_run {i : Instr} {m : M s Unit} {E : State → Prop} (h : exec i s = act i.wf s m) (hwf : i.wf = true)
    (hE : E (m ⟨s, Reach.refl⟩).2.1) : Does i s E := does_intro h hwf hE

/-- What is left by a part of an action that does not run, and by one that does. The trace is named alone: a projection of a pair would have
the kernel run the whole action before it. -/
theorem when_off {c : Bool} (h : c = false) (m : M o Unit) (x : Trace o) : (when_ c m x).2 = x := by
  subst h
  rfl

theorem when_on {c : Bool} (h : c = true) (m : M o Unit) (x : Trace o) : (when_ c m x).2 = (m x).2 := by
  subst h
  rfl

/-! What an effect that is no register effect leaves of the registers, and the clock after a wait. -/

section Reads

variable (f : Fld)

@[simp] theorem rd_pass (n : Nat) : (apply (.pass n) s).rd f = s.rd f := id rfl

@[simp] theorem rd_seen (k a : Nat) : (apply (.seen k a) s).rd f = s.rd f := id rfl

@[simp] theorem rd_draw : (apply .draw s).rd f = s.rd f := id rfl

@[simp] theorem rd_qs (g : Qs → Qs) : (apply (.qs g) s).rd f = s.rd f := id rfl

@[simp] theorem rd_fab (g : Fab → Fab) : (apply (.fab g) s).rd f = s.rd f := id rfl

@[simp] theorem rd_vlt (g : Vault → Vault) : (apply (.vlt g) s).rd f = s.rd f := id rfl

@[simp] theorem rd_out (y : Out) : (apply (.out y) s).rd f = s.rd f := id rfl

@[simp] theorem rd_ctl (g : Ctl → Ctl) : (apply (.ctl g) s).rd f = s.rd f := id rfl

@[simp] theorem rd_super (g : Super → Super) : (apply (.super g) s).rd f = s.rd f := id rfl

end Reads

/-- A wait until an instant ends then, or at once where the instant has passed. -/
theorem mono_until (s : State) (i : Nat) : (apply (.pass (i - s.clk.mono)) s).clk.mono = max s.clk.mono i := by
  simp only [apply_pass]
  omega

/-- A wait until an instant, whose end is noted under a key. -/
def waitNoted (k i : Nat) (s : State) : State := apply (.seen k (max s.clk.mono i)) (apply (.pass (i - s.clk.mono)) s)

theorem waitNoted_run (k i : Nat) (s : State) :
    apply (.seen k (apply (.pass (i - s.clk.mono)) s).clk.mono) (apply (.pass (i - s.clk.mono)) s) = waitNoted k i s := by
  rw [mono_until, waitNoted]

@[simp] theorem waitNoted_mono (k i : Nat) (s : State) : (waitNoted k i s).clk.mono = max s.clk.mono i := by
  rw [waitNoted, ← mono_until]
  simp only [apply_seen]

@[simp] theorem waitNoted_seen (k i : Nat) (s : State) : tget 0 (waitNoted k i s).clk.seen k = max s.clk.mono i := by
  simp only [waitNoted, apply_seen, tget_tset_self]

@[simp] theorem waitNoted_qs (k i : Nat) (s : State) : (waitNoted k i s).qs = s.qs := id rfl

@[simp] theorem waitNoted_ctl (k i : Nat) (s : State) : (waitNoted k i s).ctl = s.ctl := id rfl

@[simp] theorem waitNoted_out (k i : Nat) (s : State) : (waitNoted k i s).out = s.out := id rfl

@[simp] theorem waitNoted_fab (k i : Nat) (s : State) : (waitNoted k i s).fab = s.fab := id rfl

@[simp] theorem waitNoted_rd (k i : Nat) (s : State) (f : Fld) : (waitNoted k i s).rd f = s.rd f := id rfl

/-- Fields written one after another. -/
def putAll (l : List (Fld × Nat)) (s : State) : State := l.foldl (fun s x => apply (.reg x.1 x.2) s) s

theorem putAll_reach (l : List (Fld × Nat)) (h : Reach o s) : Reach o (putAll l s) := by
  induction l generalizing s with
  | nil => exact h
  | cons x l ih => exact ih (.step h _)

theorem wrs_run (l : List (Fld × Nat)) (x : Trace o) : (wrs l : M o Unit) x = ((), ⟨putAll l x.1, putAll_reach l x.2⟩) := by
  induction l generalizing x with
  | nil => rfl
  | cons y l ih => exact ih _

theorem putAll_keeps {α : Type} {p : State → α} (hp : ∀ s f v, p (apply (.reg f v) s) = p s) (l : List (Fld × Nat)) (s : State) :
    p (putAll l s) = p s := by
  induction l generalizing s with
  | nil => rfl
  | cons x l ih => exact (ih _).trans (hp s x.1 x.2)

@[simp] theorem putAll_qs (l : List (Fld × Nat)) (s : State) : (putAll l s).qs = s.qs := putAll_keeps (fun _ _ _ => rfl) l s

@[simp] theorem putAll_clk (l : List (Fld × Nat)) (s : State) : (putAll l s).clk = s.clk := putAll_keeps (fun _ _ _ => rfl) l s

@[simp] theorem putAll_ctl (l : List (Fld × Nat)) (s : State) : (putAll l s).ctl = s.ctl := putAll_keeps (fun _ _ _ => rfl) l s

@[simp] theorem putAll_out (l : List (Fld × Nat)) (s : State) : (putAll l s).out = s.out := putAll_keeps (fun _ _ _ => rfl) l s

/-! Sources. -/

section Source

variable {a : QsAnn}

/-- What QS_SEND sends: a block of the tables, a block of the data, or QS_END. -/
def qsItem (a : QsAnn) (s : State) : M o Unit :=
  if s.qs.sent < a.nTable then qsSendBlock a true s.qs.sent (qsTable s a s.qs.sent)
  else if s.qs.sent < qsTotal a then qsSendBlock a false (s.qs.sent - a.nTable) (qsData s a (s.qs.sent - a.nTable))
  else qsSvc a.dst SV.QS_END [a.session, a.nData]

theorem qsItem_in (a : QsAnn) (s : State) : Within (FP.upPort ||| FP.qsSvc) (qsItem a s : M o Unit) := by
  unfold qsItem
  split
  · exact (qsSendBlock_in ..).mono rfl
  split
  · exact (qsSendBlock_in ..).mono rfl
  · exact (qsSvc_in ..).mono rfl

theorem qsSend_does (hsrc : s.qs.src = some a) (hbusy : qsBusy s = true) :
    Does .qsSend s fun t => t.qs = { s.qs with sent := s.qs.sent + 1 } ∧ tget 0 t.clk.seen K.qsBlock = t.clk.mono ∧
      (qsTotal a < s.qs.sent → t.clk.mono = max s.clk.mono (tget 0 s.clk.seen K.qsBlock + 1000000)) := by
  refine does_run rfl rfl ?_
  simp only [M.bind_run, st_run, hsrc, hbusy, Bool.not_true, Bool.false_eq_true, if_false, advTo_run, mark_run, waitNoted_run, eff_run, apply_qs]
  have hvia := fun x : Trace s => (qsItem_in a s).via x
  unfold qsItem at hvia
  simp only [(hvia _).qs rfl, (hvia _).seen rfl, (hvia _).clkMono rfl, waitNoted_mono, waitNoted_seen, waitNoted_qs, true_and]
  refine ⟨by rw [hsrc], fun hlast => ?_⟩
  rw [if_neg (by omega)]

/-- A source's message to a group of its own leaves at once. -/
theorem svc_sent {x : Trace o} (hinject : canInject x.1 = true) (hlapsed : x.1.rd R.FZ_MEMBER.LAPSED = 0) (dst scope code : Nat) (fields : List Nat) :
    (svc dst scope code fields x).2.1 = apply (.out (.svc dst scope code fields)) x.1 := by
  simp only [svc, M.bind_run, st_run, hinject, hlapsed, true_or, and_self, if_true, send_run]

theorem qsAnnounceSend_does (hsrc : s.qs.src = some a) (hbusy : qsBusy s = true) (hdst : a.dst ≠ 0xFFFFF) (hinject : canInject s = true)
    (hlapsed : s.rd R.FZ_MEMBER.LAPSED = 0) :
    Does .qsAnnounceSend s fun t =>
      t.clk.mono = max s.clk.mono (tget 0 s.clk.seen K.qsAnn + if s.qs.sent ≤ a.nTable then 10000000 else 1000000000) ∧
      tget 0 t.clk.seen K.qsAnn = t.clk.mono ∧ t.qs = s.qs ∧
      t.out = s.out ++ [.svc a.dst (s.rd R.RST_QS_SRC_CTL.SCOPE_H) SV.QS_ANNOUNCE (qsAnnFields a)] := by
  refine does_run rfl rfl ?_
  simp only [M.bind_run, st_run, hsrc, hbusy, Bool.not_true, Bool.false_eq_true, if_false, advTo_run, mark_run, waitNoted_run, qsSvc, hdst, false_and]
  rw [svc_sent (x := ⟨waitNoted _ _ s, _⟩) hinject hlapsed]
  simp only [apply_out, waitNoted_mono, waitNoted_seen, waitNoted_qs, waitNoted_out, waitNoted_rd, and_self]

end Source

/-! Receivers. -/

section Receiver

variable {a : QsAnn} {fa gen : Nat}

/-- A message of a sender that passes the GEN check is acted on. -/
theorem fromPeer_run {x : Trace o} (hgen : genOk x.1 fa gen = true) (m : M o Unit) : fromPeer fa gen m x = m x := by
  simp only [fromPeer, M.bind_run, st_run, hgen, if_true]

/-- Fields of the first word of a part: its kind, quarter and block (Table 09-11). -/
theorem fget_qsUser (table : Bool) {i b : Nat} (hi : i < 4) (hb : b < 2 ^ 25) :
    fget (qsUser table i b) 27 1 = (if table then 1 else 0) ∧ fget (qsUser table i b) 0 25 = b ∧ fget (qsUser table i b) 25 2 = i := by
  unfold fget qsUser
  cases table <;> simp only [if_true, if_false, Bool.false_eq_true] <;> omega

/-- With no block held, every block that the announcement names is missing. -/
theorem qsMissing_all (hann : s.qs.ann = some a) (hnone : s.qs.have_ = []) : (qsMissing s).length = a.nTable + a.nData := by
  simp [qsMissing, hann, hnone]

/-- While a block is missing the receiver goes on as it is. -/
theorem qsRefresh_missing {x : Trace o} (hmiss : 0 < (qsMissing x.1).length) :
    (qsRefresh x).2.1 = apply (.reg R.RST_QS_MISS.MISS (qsMissing x.1).length) x.1 := by
  simp only [qsRefresh, M.bind_run, st_run, wr_run, when_run, decide_eq_false (Nat.ne_of_gt hmiss), Bool.false_and, Bool.false_eq_true, if_false]

/-- A data block of which a table is not held is not checked. -/
theorem qsCheckData_unheld {x : Trace o} (hnone : x.1.qs.have_ = []) (b : Nat) : (qsCheckData a b x).2.1 = x.1 := by
  have href : qsRef x.1 b = none := by simp [qsRef, hnone]
  simp only [qsCheckData, M.bind_run, st_run, href, ite_run]
  split
  · rfl
  · cases qsWhole x.1 false b <;> rfl

/-- Quickset's own state with a part of data block `b` kept. -/
def keepPart (b i : Nat) (data : List Byte) (q : Qs) : Qs :=
  { q with parts := (q.parts.filter fun x => !(x.1 == false && x.2.1 == b && x.2.2.1 == i)) ++ [(false, b, i, data)] }

theorem qsTake_run {x : Trace o} {b i : Nat} {data : List Byte} (hann : x.1.qs.ann = some a) (hopen : QX.RECEIVE ≤ x.1.rd R.RST_QS_STAT.STATE)
    (hfetch : x.1.rd R.RST_QS_STAT.STATE ≤ QX.FETCH) (hb : b < a.nData) (hn : a.nData < 2 ^ 25) (hi : i < 4) (hlen : data.length = 1024)
    (hnone : x.1.qs.have_ = []) (hwait : qsWaiting x.1 = false) :
    (qsTake (qsUser false i b) data x).2.1 =
      apply (.reg R.RST_QS_MISS.MISS (a.nTable + a.nData)) (apply (.qs (keepPart b i data)) x.1) := by
  obtain ⟨htable, hblock, hquarter⟩ := fget_qsUser false hi (hb.trans hn)
  have hgo : ¬ (x.1.rd R.RST_QS_STAT.STATE < QX.RECEIVE ∨ QX.FETCH < x.1.rd R.RST_QS_STAT.STATE ∨ a.nData ≤ b ∨ data.length ≠ 1024 ∨
      x.1.qs.have_.contains (false, b)) := by
    rw [hnone, hlen]
    exact fun h => h.elim (not_lt.2 hopen) fun h => h.elim (not_lt.2 hfetch) fun h => h.elim (not_le.2 hb) (by simp)
  have hcheck : ∀ y : Trace o, y.1 = apply (.qs (keepPart b i data)) x.1 →
      (qsRefresh (qsCheckData a b y).2).2.1 = apply (.reg R.RST_QS_MISS.MISS (a.nTable + a.nData)) y.1 := by
    intro y hy
    have hheld : y.1.qs.have_ = [] := by rw [hy]; exact hnone
    have hmiss := qsMissing_all (s := y.1) (a := a) (by rw [hy]; exact hann) hheld
    have hsame := qsCheckData_unheld (a := a) hheld b
    rw [qsRefresh_missing (by rw [hsame, hmiss]; omega), hsame, hmiss]
  simp only [qsTake, M.bind_run, st_run, hann, htable, hblock, hquarter, Bool.false_eq_true, if_false, Nat.reduceBEq]
  rw [ite_run, if_neg hgo, M.bind_run, when_run, hwait, if_neg Bool.false_ne_true, M.bind_run, eff_run, M.bind_run]
  exact hcheck _ rfl

theorem qsJoin_run {x : Trace o} (hdata : 0 < a.nData) (hkind : a.kind ≠ 1) :
    (qsJoin a x).2.1.qs = { x.1.qs with ann := some a, have_ := [], parts := [], img := [], asked := [] } ∧
    (qsJoin a x).2.1.rd R.RST_QS_STAT.STATE = QX.RECEIVE ∧ (qsJoin a x).2.1.rd R.RST_QS_STAT.SESSION = a.session % 65536 ∧
    (qsJoin a x).2.1.rd R.RST_QS_MISS.MISS = (a.nTable + a.nData) % 2 ^ (R.RST_QS_MISS.MISS).w := by
  have hrest : ∀ y : Trace o, y.1.qs = { x.1.qs with ann := some a, have_ := [], parts := [], img := [], asked := [] } →
      (qsRefresh y).2.1 = apply (.reg R.RST_QS_MISS.MISS (a.nTable + a.nData)) y.1 := by
    intro y hy
    have hmiss := qsMissing_all (s := y.1) (a := a) (by rw [hy]) (by rw [hy])
    rw [qsRefresh_missing (by omega), hmiss]
  simp only [qsJoin, qsDrop, M.bind_run, eff_run, wrs_run, st_run, when_run, decide_eq_false hkind, Bool.false_eq_true, if_false, mark_run]
  rw [hrest _ (by simp only [apply_seen, putAll_qs, apply_vlt, apply_qs])]
  simp (disch := decide) only [apply_reg, apply_seen, putAll_qs, apply_vlt, apply_qs, rd_reg_elsewhere, rd_reg_same, rd_seen, putAll, List.foldl,
    rd_reg_apart, QX.RECEIVE, and_self, Nat.reducePow, Nat.reduceMod]

theorem qsAnnounce_does (hok : genOk s a.src gen = true) (hnamed : qsNamed s a = true) (htakes : qsTakes s a.kind = true)
    (hlisten : s.rd R.RST_QS_STAT.STATE = QX.LISTEN) (hdata : 0 < a.nData) (hkind : a.kind ≠ 1) :
    Does (.qsAnnounce gen a) s fun t => t.qs = { s.qs with ann := some a, have_ := [], parts := [], img := [], asked := [] } ∧
      t.rd R.RST_QS_STAT.STATE = QX.RECEIVE ∧ t.rd R.RST_QS_STAT.SESSION = a.session % 65536 ∧
      t.rd R.RST_QS_MISS.MISS = (a.nTable + a.nData) % 2 ^ (R.RST_QS_MISS.MISS).w := by
  refine does_run rfl rfl ?_
  rw [fromPeer_run (x := ⟨s, Reach.refl⟩) hok]
  simp only [M.bind_run, st_run, hnamed, htakes, hlisten, Bool.not_true, Bool.or_self, Bool.false_eq_true, if_false, ne_eq, not_true_eq_false,
    and_false, decide_false, Bool.and_false, or_true, true_or, decide_true, Bool.or_true, if_true, reduceCtorEq]
  exact qsJoin_run hdata hkind

/-- With no port UP no neighbour can repair, whatever the round. -/
theorem qsRoundFrom_alone {x : Trace o} (halone : ∀ n < 36, portUp x.1 n = false) (n : Nat) : qsRoundFrom a n x = qsFetch a x := by
  have hserving : ∀ p < 30, portUp x.1 (servingPort x.1 p) = false := by
    intro p hp
    have hspare : ([34, 35].find? fun r => x.1.rd (R.FZ_PORT_STAT.SUBST r) == 1 && x.1.rd (R.FZ_PORT_STAT.FOR r) == p && portUp x.1 r) = none := by
      simp [halone 34 (by decide), halone 35 (by decide)]
    rw [servingPort, hspare]
    exact halone p (by omega)
  have hports : ∀ lo m, lo + m ≤ 30 → upPorts x.1 lo m = [] := by
    intro lo m hm
    refine List.filter_eq_nil_iff.2 fun p hp => ?_
    obtain ⟨d, hd, rfl⟩ := List.mem_map.1 hp
    rw [hserving _ (by have := List.mem_range.1 hd; omega)]
    exact Bool.false_ne_true
  have hneighbours : ∀ r, (!(qsNeighbours x.1 r).isEmpty) = false := by
    intro r
    rw [qsNeighbours, hports 0 15 (by decide), hports 15 15 (by decide), hports 0 30 (by decide)]
    simp
  simp only [qsRoundFrom, M.bind_run, st_run, hneighbours, Bool.and_false, List.find?_cons_of_neg, Bool.false_eq_true, not_false_eq_true, List.find?_nil]

theorem qsFetch_run (x : Trace o) : (qsFetch a x).2.1.rd R.RST_QS_STAT.STATE = QX.FETCH ∧ tget 0 (qsFetch a x).2.1.clk.seen K.qsNew = x.1.clk.mono ∧
    (qsFetch a x).2.1.clk.mono = x.1.clk.mono := by
  simp only [qsFetch, M.bind_run, wrs_run, st_run, mark_run, apply_seen, tget_tset_self]
  rw [((qsAsk_in ..).via _).clkMono rfl, ((qsAsk_in ..).via _).rd _ rfl rfl]
  simp (disch := decide) only [putAll, List.foldl, apply_reg, rd_reg_apart, rd_reg_same, QX.FETCH, and_self, Nat.reducePow, Nat.reduceMod]

/-- A round that is due at an instant, without neighbours. -/
theorem qsRoundFrom_due {x : Trace o} {i : Nat} (hx : x.1 = apply (.pass (i - s.clk.mono)) s) (halone : ∀ n < 36, portUp s n = false) (n : Nat) :
    (qsRoundFrom a n x).2.1.clk.mono = max s.clk.mono i ∧ (qsRoundFrom a n x).2.1.rd R.RST_QS_STAT.STATE = QX.FETCH := by
  have hports : ∀ n < 36, portUp x.1 n = false := by
    rw [hx]
    exact halone
  obtain ⟨hfetch, -, hmono⟩ := qsFetch_run (a := a) x
  rw [qsRoundFrom_alone hports, hmono, hx, mono_until]
  exact ⟨rfl, hfetch⟩

theorem qsEnd_does (hok : genOk s fa gen = true) (hann : s.qs.ann = some a) (hstate : s.rd R.RST_QS_STAT.STATE = QX.RECEIVE)
    (halone : ∀ n < 36, portUp s n = false) :
    Does (.qsEnd fa gen a.session) s fun t => t.rd R.RST_QS_STAT.STATE = QX.FETCH ∧ tget 0 t.clk.seen K.qsNew = s.clk.mono := by
  refine does_run rfl rfl ?_
  rw [fromPeer_run (x := ⟨s, Reach.refl⟩) hok]
  simp only [M.bind_run, st_run, hann, hstate, and_self, if_true]
  rw [qsRoundFrom_alone halone]
  obtain ⟨hfetch, hnew, -⟩ := qsFetch_run (a := a) ⟨s, Reach.refl⟩
  exact ⟨hfetch, hnew⟩

theorem qsRepairTimeout_does (hann : s.qs.ann = some a) (hstate : s.rd R.RST_QS_STAT.STATE = QX.RECEIVE) (halone : ∀ n < 36, portUp s n = false) :
    Does .qsRepairTimeout s fun t =>
      t.clk.mono = max s.clk.mono (tget 0 s.clk.seen K.qsData + 100000000) ∧ t.rd R.RST_QS_STAT.STATE = QX.FETCH := by
  refine does_run rfl rfl ?_
  simp only [M.bind_run, st_run, hann, hstate, if_true, advTo_run]
  exact qsRoundFrom_due rfl halone _

theorem qsRoundEnd_does (hann : s.qs.ann = some a) (hstate : s.rd R.RST_QS_STAT.STATE = QX.REPAIR) (halone : ∀ n < 36, portUp s n = false) :
    Does .qsRoundEnd s fun t =>
      t.clk.mono = max s.clk.mono (tget 0 s.clk.seen K.qsReq + 20000000) ∧ t.rd R.RST_QS_STAT.STATE = QX.FETCH := by
  refine does_run rfl rfl ?_
  simp only [M.bind_run, st_run, hann, hstate, if_true, advTo_run]
  exact qsRoundFrom_due rfl halone _

/-- An answer matters only to a receiver in REPAIR. -/
theorem qsAnswered_elsewhere {x : Trace o} (hstate : x.1.rd R.RST_QS_STAT.STATE ≠ QX.REPAIR) : qsAnswered x = ((), x) := by
  rw [qsAnswered, M.bind_run, st_run]
  cases x.1.qs.ann with
  | none => rfl
  | some a => simp only [hstate, false_and, if_false, M.pure_run]

section Parts

variable {b i : Nat} {data : List Byte}

/-- After a part of a data block has been kept, as the receiver was. -/
theorem keptPart (s : State) (n : Nat) : let t := apply (.reg R.RST_QS_MISS.MISS n) (apply (.qs (keepPart b i data)) s)
    (false, b, i, data) ∈ t.qs.parts ∧ t.qs.have_ = s.qs.have_ ∧ t.qs.asked = s.qs.asked ∧
      t.rd R.RST_QS_STAT.STATE = s.rd R.RST_QS_STAT.STATE ∧ t.clk = s.clk := by
  simp (disch := decide) only [apply_reg, apply_qs, keepPart, rd_reg_elsewhere, rd_qs, List.mem_append, List.mem_singleton, or_true, and_self]

theorem qsBlock_does (hok : genOk s fa gen = true) (hann : s.qs.ann = some a)
    (hstate : s.rd R.RST_QS_STAT.STATE = QX.RECEIVE) (hb : b < a.nData) (hn : a.nData < 2 ^ 25) (hi : i < 4) (hlen : data.length = 1024)
    (hnone : s.qs.have_ = []) (hwait : qsWaiting s = false) :
    Does (.qsBlock fa gen (qsUser false i b) data) s fun t => tget 0 t.clk.seen K.qsData = s.clk.mono ∧ (false, b, i, data) ∈ t.qs.parts ∧
      t.qs.have_ = [] ∧ t.rd R.RST_QS_STAT.STATE = QX.RECEIVE := by
  refine does_run rfl rfl ?_
  rw [fromPeer_run (x := ⟨s, Reach.refl⟩) hok, M.bind_run, mark_run,
    qsTake_run (x := ⟨apply (.seen _ _) s, _⟩) hann (Nat.le_of_eq hstate.symm) (hstate.trans_le (by decide)) hb hn hi hlen hnone hwait]
  obtain ⟨hmem, hheld, -, hstay, hclk⟩ := keptPart (b := b) (i := i) (data := data) (apply (.seen K.qsData s.clk.mono) s) (a.nTable + a.nData)
  rw [hclk]
  exact ⟨tget_tset_self .., hmem, hheld.trans hnone, hstay.trans hstate⟩

theorem qsData_does (hok : genOk s fa gen = true) (hann : s.qs.ann = some a)
    (hstate : s.rd R.RST_QS_STAT.STATE = QX.FETCH) (hb : b < a.nData) (hn : a.nData < 2 ^ 25) (hi : i < 3) (hlen : data.length = 1024)
    (hnone : s.qs.have_ = []) (hwait : qsWaiting s = false) :
    Does (.qsData fa gen (qsUser false i b) data) s fun t => (false, b, i, data) ∈ t.qs.parts ∧ t.qs.asked = s.qs.asked ∧
      t.rd R.RST_QS_STAT.STATE = QX.FETCH := by
  refine does_run rfl rfl ?_
  have hquarter : fget (qsUser false i b) 25 2 = i := (fget_qsUser false (hi.trans (by decide)) (hb.trans hn)).2.2
  obtain ⟨hmem, -, hasked, hstay, -⟩ := keptPart (b := b) (i := i) (data := data) s (a.nTable + a.nData)
  have htake := qsTake_run (x := ⟨s, Reach.refl⟩) hann (hstate.symm ▸ by decide) (Nat.le_of_eq hstate) hb hn (hi.trans (by decide)) hlen hnone hwait
  rw [← htake] at hmem hasked hstay
  have hrest : (qsAnswered (qsTake (qsUser false i b) data ⟨s, Reach.refl⟩).2).2.1 = (qsTake (qsUser false i b) data ⟨s, Reach.refl⟩).2.1 := by
    rw [qsAnswered_elsewhere]
    rw [hstay, hstate]
    decide
  rw [fromPeer_run (x := ⟨s, Reach.refl⟩) hok, M.bind_run, M.bind_run, when_run, hquarter, if_neg (by simpa using Nat.ne_of_lt hi), hrest]
  exact ⟨hmem, hasked, hstay.trans hstate⟩

end Parts

theorem qsNak_does {blocks : List (Bool × Nat)} (hok : genOk s fa gen = true) (hstate : s.rd R.RST_QS_STAT.STATE ≠ QX.REPAIR) :
    Does (.qsNak fa gen blocks) s fun t => t.qs = { s.qs with asked := s.qs.asked.filter fun b => !blocks.contains b } := by
  refine does_run rfl rfl ?_
  rw [fromPeer_run (x := ⟨s, Reach.refl⟩) hok, M.bind_run, qsAnswered_elsewhere]
  · rfl
  · exact hstate

theorem each_idle {α : Type} {l : List α} {f : α → M o Unit} (h : ∀ b ∈ l, f b = pure ()) (x : Trace o) : each l f x = ((), x) := by
  induction l with
  | nil => rfl
  | cons b l ih =>
    rw [each_cons, M.bind_run, h b List.mem_cons_self]
    exact ih fun c hc => h c (List.mem_cons_of_mem _ hc)

/-- Blocks of which none is held are all named in QS_NAK. -/
theorem qsReq_does {session : Nat} {blocks : List (Bool × Nat)} (hok : genOk s fa gen = true) (hsome : 0 < blocks.length)
    (hno : ∀ b ∈ blocks, qsHeld s session b = none) (hinject : canInject s = true) (hlapsed : s.rd R.FZ_MEMBER.LAPSED = 0)
    (hwf : (Instr.qsReq fa gen session blocks).wf = true) :
    Does (.qsReq fa gen session blocks) s fun t => t.qs = s.qs ∧ t.out = s.out ++ [.svc fa 0 SV.QS_NAK (blocks.map fun b => qsUser b.1 0 b.2)] := by
  refine does_run rfl hwf ?_
  have hnone : (blocks.filter fun b => (qsHeld s session b).isNone) = blocks := List.filter_eq_self.2 fun b hb => by rw [hno b hb]; rfl
  have hne : (!blocks.isEmpty) = true := by
    cases blocks with
    | nil => exact absurd hsome (by decide)
    | cons b l => rfl
  rw [fromPeer_run (x := ⟨s, Reach.refl⟩) hok]
  simp only [M.bind_run, st_run]
  rw [each_idle fun b hb => by simp only [hno b hb], when_run, hnone, if_pos hne, svc_sent (x := ⟨s, Reach.refl⟩) hinject hlapsed]
  exact ⟨rfl, rfl⟩

/-- A fault condition shown or taken back, up to FAULT_N and its notices. -/
theorem faultCond_via (f : Fld) (c : Bool) (x : Trace o) : Via FP.refreshFault (apply (.reg f (if c then 1 else 0)) x.1) (faultCond f c x).2.1 :=
  refreshFault_in.via ⟨apply (.reg f (if c then 1 else 0)) x.1, Reach.step x.2 _⟩

theorem qsIncomplete_run {x : Trace o} (hwait : qsWaiting x.1 = false) : (qsIncomplete x).2.1.clk.mono = x.1.clk.mono ∧
    (qsIncomplete x).2.1.rd R.RST_QS_STAT.INCOMPLETE = 1 ∧ (qsIncomplete x).2.1.rd R.RST_QS_STAT.STATE = QX.LISTEN ∧
    (qsIncomplete x).2.1.rd R.RST_FAULT.QUICKSET = 1 := by
  have hshown : ∀ n, ∀ y : Trace o, let t := (faultCond R.RST_FAULT.QUICKSET true (ev E.QUICKSET_INCOMPLETE SK.fw 0 [I.COUNT n] y).2).2.1
      t.clk.mono = y.1.clk.mono ∧ t.rd R.RST_QS_STAT.INCOMPLETE = y.1.rd R.RST_QS_STAT.INCOMPLETE ∧
        t.rd R.RST_QS_STAT.STATE = y.1.rd R.RST_QS_STAT.STATE ∧ t.rd R.RST_FAULT.QUICKSET = 1 := by
    intro n y
    have hev := (ev_in (o := o) E.QUICKSET_INCOMPLETE SK.fw 0 [I.COUNT n]).via y
    have hfault := faultCond_via R.RST_FAULT.QUICKSET true (ev E.QUICKSET_INCOMPLETE SK.fw 0 [I.COUNT n] y).2
    simp (disch := decide) only [hfault.clkMono rfl, hfault.rd R.RST_QS_STAT.INCOMPLETE rfl rfl, hfault.rd R.RST_QS_STAT.STATE rfl rfl,
      hfault.rd R.RST_FAULT.QUICKSET rfl rfl, apply_reg, rd_reg_elsewhere, rd_reg_same, if_true, Nat.reducePow, Nat.reduceMod, hev.clkMono rfl,
      hev.rd R.RST_QS_STAT.INCOMPLETE rfl rfl, hev.rd R.RST_QS_STAT.STATE rfl rfl, and_self]
  simp only [qsIncomplete, M.bind_run, st_run, setF_run, wrs_run, when_off hwait, hshown]
  simp (disch := decide) only [putAll, List.foldl, apply_reg, rd_reg_apart, rd_reg_same, QX.LISTEN, and_self, Nat.reducePow, Nat.reduceMod]

theorem qsIncomplete_due {x : Trace o} {i : Nat} (hx : x.1 = apply (.pass (i - s.clk.mono)) s) (hwait : qsWaiting s = false) :
    (qsIncomplete x).2.1.clk.mono = max s.clk.mono i ∧ (qsIncomplete x).2.1.rd R.RST_QS_STAT.INCOMPLETE = 1 ∧
    (qsIncomplete x).2.1.rd R.RST_QS_STAT.STATE = QX.LISTEN ∧ (qsIncomplete x).2.1.rd R.RST_FAULT.QUICKSET = 1 := by
  have hwait' : qsWaiting x.1 = false := by
    rw [hx, ← hwait]
    simp only [qsWaiting, apply_pass, rd_pass]
  rw [(qsIncomplete_run hwait').1, hx, mono_until]
  exact ⟨rfl, (qsIncomplete_run hwait').2⟩

theorem qsFetchEnd_does (hstate : s.rd R.RST_QS_STAT.STATE = QX.FETCH) (hwait : qsWaiting s = false) :
    Does .qsFetchEnd s fun t => t.clk.mono = max s.clk.mono (tget 0 s.clk.seen K.qsNew + 1000000000) ∧ t.rd R.RST_QS_STAT.INCOMPLETE = 1 ∧
      t.rd R.RST_QS_STAT.STATE = QX.LISTEN ∧ t.rd R.RST_FAULT.QUICKSET = 1 := by
  refine does_run rfl rfl ?_
  simp only [M.bind_run, st_run, hstate, if_true, advTo_run]
  exact qsIncomplete_due rfl hwait

/-- A part of a plan image that is not its last ends the session without a slot marked. -/
theorem qsPass_part {x : Trace o} (hkind : a.kind = 1) (hpart : a.base + 4096 * a.nData < a.imageLen) :
    (qsPass a x).2.1.rd R.RST_QS_STAT.STATE = QX.DONE ∧ (qsPass a x).2.1.rd R.RST_QS_STAT.DONE = 1 ∧
    (qsPass a x).2.1.rd R.RST_FAULT.QUICKSET = 0 := by
  have hclear : ∀ y : Trace o, let t := (faultCond R.RST_FAULT.QUICKSET false y).2.1
      t.rd R.RST_QS_STAT.STATE = y.1.rd R.RST_QS_STAT.STATE ∧ t.rd R.RST_QS_STAT.DONE = y.1.rd R.RST_QS_STAT.DONE ∧
        t.rd R.RST_FAULT.QUICKSET = 0 := by
    intro y
    have hfault := faultCond_via R.RST_FAULT.QUICKSET false y
    simp (disch := decide) only [hfault.rd R.RST_QS_STAT.STATE rfl rfl, hfault.rd R.RST_QS_STAT.DONE rfl rfl, hfault.rd R.RST_FAULT.QUICKSET rfl rfl,
      rd_reg_elsewhere, rd_reg_same, Bool.false_eq_true, if_false, and_self, Nat.reducePow, Nat.reduceMod]
  have h0 : a.kind ≠ 0 := by omega
  have h2 : a.kind ≠ 2 := by omega
  simp only [qsPass, M.bind_run, st_run, wrs_run, if_neg h0, if_neg h2, when_off (decide_eq_false (not_le.2 hpart)), hclear]
  simp (disch := decide) only [putAll, List.foldl, rd_reg_apart, rd_reg_same, QX.DONE, and_self, Nat.reducePow, Nat.reduceMod]

/-- The last part alone carries a signature to check. -/
theorem qsVerify_does (hann : s.qs.ann = some a) (hstate : s.rd R.RST_QS_STAT.STATE = QX.VERIFY) (hkind : a.kind = 1)
    (hpart : a.base + 4096 * a.nData < a.imageLen) :
    Does .qsVerify s fun t => t.rd R.RST_QS_STAT.STATE = QX.DONE ∧ t.rd R.RST_QS_STAT.DONE = 1 ∧ t.rd R.RST_FAULT.QUICKSET = 0 := by
  refine does_run rfl rfl ?_
  simp only [M.bind_run, st_run, hann, hstate, hkind, ne_eq, not_true_eq_false, if_false, if_true, decide_eq_true hpart, Bool.true_or]
  exact qsPass_part hkind hpart

end Receiver

/-- Settles O59: the session's state says what each message and each expiry does. -/
theorem quicksetComplete : Obligations.QuicksetComplete := by
  refine ⟨fun s a hsrc hbusy => qsSend_does hsrc hbusy,
    fun s a hsrc hbusy hdst hinject hlapsed => qsAnnounceSend_does hsrc hbusy hdst hinject hlapsed,
    fun s gen a _ hok hnamed htakes hlisten hdata hkind => qsAnnounce_does hok hnamed htakes hlisten hdata hkind,
    fun s fa gen a b i data _ _ hok hann hstate hb hn hi hlen hnone hwait _ => qsBlock_does hok hann hstate hb hn hi hlen hnone hwait,
    fun s fa gen a _ _ hok hann hstate halone => qsEnd_does hok hann hstate halone,
    fun s a hann hstate halone => qsRepairTimeout_does hann hstate halone,
    fun s fa gen session blocks hfa hgen hok hsome hmany hno hinject hlapsed => ?req,
    fun s fa gen a b i data _ _ hok hann hstate hb hn hi hlen hnone hwait _ => qsData_does hok hann hstate hb hn hi hlen hnone hwait,
    fun s fa gen blocks _ _ hok hstate => qsNak_does hok hstate,
    fun s a hann hstate halone => qsRoundEnd_does hann hstate halone,
    fun s hstate hwait => qsFetchEnd_does hstate hwait,
    fun s a hann hstate hkind hpart => qsVerify_does hann hstate hkind hpart⟩
  case req => exact qsReq_does hok hsome (fun b hb => (hno b hb).2) hinject hlapsed rfl

end Sys2Proof.Machine
end

section
/-!
PROOFS. Worisy requests that read or write the module (R400 to R404): PING, INFO, REG_READ, REG_WRITE and EVT_READ.
-/

set_option Elab.async false

namespace Sys2Proof.Machine

variable {o s : State} {w : WReq} {cmd : Nat}

/-! Requests that only read. -/

/-- A request in order that anyone may send completes with its answer. -/
theorem freeCmd_does {i : Instr} {m : M s Ans} (h : exec i s = act i.wf s (freeCmd w cmd m)) (hwf : i.wf = decide (w.port < 2))
    (hreq : FreeReq s w cmd) :
    Does i s fun t => Answered s t w cmd (m ⟨s, Reach.refl⟩).1.1 (m ⟨s, Reach.refl⟩).1.2 ∧ Via FP.answer (m ⟨s, Reach.refl⟩).2.1 t := by
  have hport : i.wf = true := hwf.trans (decide_eq_true hreq.1.1)
  refine does_run h hport ⟨freeCmd_answered m hreq, ?_⟩
  rw [freeCmd_run _ _ hreq]
  exact (answer_in ..).via _

theorem Does.answered {i : Instr} {a : Ans} {P : State → Prop} (h : Does i s fun t => Answered s t w cmd a.1 a.2 ∧ P t) :
    Does i s fun t => Answered s t w cmd a.1 a.2 :=
  ⟨h.choose, h.choose_spec.1, h.choose_spec.2.1⟩

/-- A repetition is answered from the port's memory, which stays as it is. -/
theorem ping_repeated {a : Ans} (hport : w.port < 2) (hoff : s.ctl.mode ≠ .off) (hmfg : s.ctl.mode ≠ .mfgTest) (hkept : keptAnswer s w = some a) :
    Does (.ping w) s fun t => t.out = s.out ++ [.worisy w.port w.seq WC.PING a.1 0 a.2] ∧ worPort t w.port = worPort s w.port := by
  refine does_run rfl (decide_eq_true hport) ?_
  simp only [freeCmd, request, M.bind_run, st_run, hoff, hmfg, or_self, if_false, hkept, send_run, apply_out, worPort, and_self]

/-! Register reads. -/

theorem fetchWord_elsewhere {off : Nat} (h : off ≠ regOff .FZ_TIME_LO []) (x : Trace o) : fetchWord off x = (readWord x.1 off, x) := by
  simp only [fetchWord, M.bind_run, st_run, when_off (decide_eq_false h), M.pure_run]

/-- A read of the low half of fabric time keeps its high half (R442). -/
theorem fetchWord_time (x : Trace o) : fetchWord (regOff .FZ_TIME_LO []) x = (readWord x.1 (regOff .FZ_TIME_LO []),
    ⟨apply (.fab fun f => { f with hiLatch := BitVec.ofNat 32 (x.1.clk.time.toNat / 2 ^ 32) }) x.1, Reach.step x.2 _⟩) := rfl

theorem readWord_time (s : State) : readWord s (regOff .FZ_TIME_LO []) = BitVec.ofNat 32 s.clk.time.toNat := by
  have hat : regAt (regOff .FZ_TIME_LO []) = some (.FZ_TIME_LO, []) := by decide +kernel
  have hpart : inParts (regOff .FZ_TIME_LO []) = false := by decide +kernel
  have hwin : inStaging (regOff .FZ_TIME_LO []) = false ∧ inEvtWin (regOff .FZ_TIME_LO []) = false ∧ inTables (regOff .FZ_TIME_LO []) = false := by
    decide +kernel
  obtain ⟨hstaging, hevt, htables⟩ := hwin
  simp only [readWord, partHidden, hpart, hstaging, hevt, htables, hat, regShown, Bool.false_and, Bool.false_eq_true, if_false]
  exact BitVec.eq_of_toNat_eq (by simp)

/-- Words that no read of fabric time is among are read and nothing else. -/
theorem fetchWords_run {n off : Nat} (h : ∀ i < n, off + 4 * i ≠ regOff .FZ_TIME_LO []) (x : Trace o) :
    fetchWords n off x = ((List.range n).map fun i => readWord x.1 (off + 4 * i), x) := by
  induction n generalizing off with
  | zero => rfl
  | succ n ih =>
    have hnext : ∀ i < n, off + 4 + 4 * i ≠ regOff .FZ_TIME_LO [] := fun i hi => by
      have := h (i + 1) (by omega)
      omega
    have hoffs : ∀ i, off + 4 + 4 * i = off + 4 * (i + 1) := fun i => by omega
    rw [fetchWords, M.bind_run, fetchWord_elsewhere (off := off) (h 0 (by omega)), M.bind_run, ih hnext, M.pure_run, List.range_succ_eq_map, List.map_cons,
      List.map_map]
    simp only [hoffs]
    rfl

theorem regRead_does {off cnt : Nat} (hreq : FreeReq s w WC.REG_READ) (hrange : regRange off cnt = true)
    (htime : ∀ i < cnt, off + 4 * i ≠ regOff .FZ_TIME_LO []) :
    Does (.regRead w off cnt) s fun t =>
      Answered s t w WC.REG_READ WS.OK (wordsBytes ((List.range cnt).map fun i => readWord s (off + 4 * i))) := by
  have hdoes := (freeCmd_does (i := .regRead w off cnt) rfl rfl hreq).answered
  simpa only [hrange, if_true, M.bind_run, fetchWords_run htime, M.pure_run] using hdoes

theorem regRead_time (hreq : FreeReq s w WC.REG_READ) : Does (.regRead w (regOff .FZ_TIME_LO []) 1) s fun t =>
    Answered s t w WC.REG_READ WS.OK (wordsBytes [BitVec.ofNat 32 s.clk.time.toNat]) ∧ t.fab.hiLatch = BitVec.ofNat 32 (s.clk.time.toNat / 2 ^ 32) := by
  have hrange : regRange (regOff .FZ_TIME_LO []) 1 = true := by decide +kernel
  obtain ⟨t, hnext, hans, hvia⟩ := freeCmd_does (i := .regRead w (regOff .FZ_TIME_LO []) 1) rfl rfl hreq
  refine ⟨t, hnext, ?_, ?_⟩
  · simpa only [hrange, if_true, fetchWords, M.bind_run, fetchWord_time, M.pure_run, readWord_time] using hans
  · rw [hvia.fab rfl]
    simp only [hrange, if_true, fetchWords, M.bind_run, fetchWord_time, M.pure_run, apply_fab]

theorem regRead_refused {off cnt : Nat} (hreq : FreeReq s w WC.REG_READ) (hrange : regRange off cnt = false) :
    Does (.regRead w off cnt) s fun t => Answered s t w WC.REG_READ WS.BAD_ARG [] := by
  have hdoes := (freeCmd_does (i := .regRead w off cnt) rfl rfl hreq).answered
  simpa only [hrange, Bool.false_eq_true, if_false, M.pure_run, plain] using hdoes

theorem evtRead_refused {off len : Nat} (hreq : FreeReq s w WC.EVT_READ) (hrange : ¬ (len % 8 = 0 ∧ len ≤ 2048 ∧ off + len ≤ 16384 * 4096)) :
    Does (.evtRead w off len) s fun t => Answered s t w WC.EVT_READ WS.BAD_ARG [] := by
  have hdoes := (freeCmd_does (i := .evtRead w off len) rfl rfl hreq).answered
  simpa only [if_neg hrange, M.pure_run, plain] using hdoes

theorem evtRead_does {off len : Nat} (hreq : FreeReq s w WC.EVT_READ) (hrange : len % 8 = 0 ∧ len ≤ 2048 ∧ off + len ≤ 16384 * 4096) :
    Does (.evtRead w off len) s fun t => Answered s t w WC.EVT_READ WS.OK (evtBytes s off len) := by
  have hdoes := (freeCmd_does (i := .evtRead w off len) rfl rfl hreq).answered
  simpa only [if_pos hrange, M.bind_run, st_run, M.pure_run] using hdoes

/-! Register writes. -/

/-- A request of REG_WRITE whose header is in order. -/
structure WriteReq (s : State) (w : WReq) : Prop where
  heard : Heard s w
  rsv : w.rsv = false
  lgen : w.lgen = 0
  badLen : w.badLen = false
  free : worBusy s WC.REG_WRITE = false

section Writes

variable {off : Nat} {ws : List (BitVec 32)}

/-- A range that no register can stand in is refused before any word is written. -/
theorem regWrite_refused (hreq : WriteReq s w) (hrange : regRange off ws.length = false) :
    Does (.regWrite w off ws) s fun t => Answered s t w WC.REG_WRITE WS.BAD_ARG [] := by
  obtain ⟨hheard, hrsv, hlgen, hlen, hbusy⟩ := hreq
  refine does_run rfl (decide_eq_true hheard.1) ?_
  rw [request_run _ _ hheard]
  simp only [M.bind_run, st_run, hrsv, hlgen, hlen, hbusy, hrange, bne_self_eq_false, Bool.or_self, Bool.or_true, Bool.not_false, Bool.false_eq_true, if_false, if_true,
    M.pure_run]
  exact answer_answered_from (plain WS.BAD_ARG) _

/-- A single word in range: written, or refused where it belongs to a command. -/
theorem regWrite_word {v : BitVec 32} {E : State → Prop} (hreq : WriteReq s w) (hrange : regRange off 1 = true)
    (hcommand : commandOnly off = true → E (answer w WC.REG_WRITE (plain WS.USE_COMMAND)
      (wordRec (portSrc w.port) off v.toNat WR.REFUSED ⟨s, Reach.refl⟩).2).2.1)
    (hplain : commandOnly off = false → E (answer w WC.REG_WRITE (plain WS.OK) (barWord (portSrc w.port) off v.toNat ⟨s, Reach.refl⟩).2).2.1) :
    Does (.regWrite w off [v]) s E := by
  obtain ⟨hheard, hrsv, hlgen, hlen, hbusy⟩ := hreq
  refine does_run rfl (decide_eq_true hheard.1) ?_
  rw [request_run _ _ hheard]
  simp only [M.bind_run, st_run, hrsv, hlgen, hlen, hbusy, List.length_singleton, hrange, bne_self_eq_false, Bool.or_self, Bool.not_true, Bool.false_eq_true, if_false]
  cases hcmd : commandOnly off
  · simpa [hcmd, M.bind_run, M.pure_run, putWords] using hplain hcmd
  · simpa [hcmd, M.bind_run, M.pure_run, List.range_succ, each_cons] using hcommand hcmd

end Writes

/-- Registers stand within the module's register space. -/
theorem regRange_reg {k : RegKind} {ix : List Nat} (hat : regAt (regOff k ix) = some (k, ix)) : regRange (regOff k ix) 1 = true := by
  have hspan : ∀ j ∈ regKinds, (regRow j).base + dimSpan (regRow j).dims + 3 ≤ 0x4000000 := by decide +kernel
  have hbound := hspan k (mem_regKinds k)
  have hoff := dimOff_lt (regFind_sound hat).1
  have halign := regOff_aligned k ix
  have hend : regOff k ix + 4 * 1 ≤ 0x4000000 := by
    unfold regOff
    omega
  simp [regRange, halign, hend]

/-- A plain register is written and its record kept; the response follows. -/
theorem regWrite_plain {k : RegKind} {ix : List Nat} {v : BitVec 32} (hreq : WriteReq s w) (hplain : plainReg k = true)
    (hat : regAt (regOff k ix) = some (k, ix)) (hp : Passes s (portSrc w.port) (regOff k ix)) :
    Does (.regWrite w (regOff k ix) [v]) s fun t => Sent s t (.worisy w.port w.seq WC.REG_WRITE WS.OK 0 []) ∧
      (regWord t k ix).toNat = v.toNat &&& regMask k := by
  have hk := mem_plainKinds hplain
  obtain ⟨-, -, -, -, hcmd, hseen⟩ := hp
  have hsrc : portSrc w.port = .worA ∨ portSrc w.port = .worB := by
    unfold portSrc
    split <;> simp
  refine regWrite_word hreq (regRange_reg hat) (fun h => absurd (hcmd hsrc) (by simp [h])) fun hown => ⟨?_, ?_⟩
  · exact (answer_answered_from (plain WS.OK) _).1
  · obtain ⟨-, -, -, hword⟩ := putWord_plain hk hat (v := v.toNat) (c := srcCode (portSrc w.port)) (d := Src.kind (portSrc w.port)) (x := ⟨s, Reach.refl⟩) hseen
    have hkeep : ∀ j ∈ plainKinds, FP.evRaw.testBit (64 + j.ctorIdx) = false ∧ FP.answer.testBit (64 + j.ctorIdx) = false := by decide +kernel
    obtain ⟨hrec, hanswer⟩ := hkeep k hk
    rw [((answer_in ..).via _).word k ix hanswer rfl, barWord, hown, Bool.and_false, if_neg Bool.false_ne_true, M.bind_run,
      ((wordRec_in ..).via _).word k ix hrec rfl]
    exact hword

/-- A register that belongs to a command keeps its word. -/
theorem regWrite_command {k : RegKind} {ix : List Nat} {v : BitVec 32} (hreq : WriteReq s w) (hat : regAt (regOff k ix) = some (k, ix))
    (hown : commandOnly (regOff k ix) = true) :
    Does (.regWrite w (regOff k ix) [v]) s fun t => Answered s t w WC.REG_WRITE WS.USE_COMMAND [] ∧ regWord t k ix = regWord s k ix := by
  refine regWrite_word hreq (regRange_reg hat) (fun _ => ⟨answer_answered_from (plain WS.USE_COMMAND) _, ?_⟩) fun h => absurd hown (by simp [h])
  have hkeep : ∀ j ∈ regKinds, FP.evRaw.testBit (64 + j.ctorIdx) = true ∨ FP.answer.testBit (64 + j.ctorIdx) = true →
      (0x300000 ≤ (regRow j).base ∨ (regRow j).base + dimSpan (regRow j).dims ≤ 0x200000) ∧
        ((regRow j).base + dimSpan (regRow j).dims ≤ regOff .RST_REQ [] ∨ regOff .RST_REQ [] < (regRow j).base) := by decide +kernel
  have hoff := dimOff_lt (regFind_sound hat).1
  have hfree : ¬ (FP.evRaw.testBit (64 + k.ctorIdx) = true ∨ FP.answer.testBit (64 + k.ctorIdx) = true) := by
    intro hwritten
    obtain ⟨hpwr, hreqs⟩ := hkeep k (mem_regKinds k) hwritten
    simp only [commandOnly, inPwr, Bool.or_eq_true, Bool.and_eq_true, decide_eq_true_eq] at hown
    have hbase : regOff k ix = (regRow k).base + dimOff (regRow k).dims ix := rfl
    omega
  obtain ⟨hrec, hanswer⟩ := not_or.1 hfree
  rw [((answer_in ..).via _).word k ix (Bool.eq_false_of_not_eq_true hanswer) rfl, ((wordRec_in ..).via _).word k ix (Bool.eq_false_of_not_eq_true hrec) rfl]

/-- Settles O55: a request in order is answered with what its meaning gives; a word written is a plain register's, or is refused. -/
theorem worisyReadsAndWritesComplete : Obligations.WorisyReadsAndWritesComplete := by
  refine ⟨fun s w hreq => (freeCmd_does (i := .ping w) rfl rfl hreq).answered,
    fun s w a hport hoff hmfg hkept => ping_repeated hport hoff hmfg hkept,
    fun s w hreq => (freeCmd_does (i := .info w) rfl rfl hreq).answered,
    fun s w off cnt hreq hrange htime => regRead_does hreq hrange htime,
    fun s w hreq => regRead_time hreq,
    fun s w off cnt hreq hrange => regRead_refused hreq hrange,
    fun s w k ix v hheard hrsv hlgen hlen hbusy hplain hat hp => regWrite_plain ⟨hheard, hrsv, hlgen, hlen, hbusy⟩ hplain hat hp,
    fun s w k ix v hheard hrsv hlgen hlen hbusy hat hown => regWrite_command ⟨hheard, hrsv, hlgen, hlen, hbusy⟩ hat hown,
    fun s w off ws hheard hrsv hlgen hlen hbusy hrange => regWrite_refused ⟨hheard, hrsv, hlgen, hlen, hbusy⟩ hrange,
    fun s w off len hreq hrange => evtRead_refused hreq hrange,
    fun s w off len hreq h8 hmany hend => evtRead_does hreq ⟨h8, hmany, hend⟩⟩

end Sys2Proof.Machine
end

section
/-!
PROOFS. Fazar ports: what a change of a port's state leaves (R210 to R216), and their bit-error tests (R215).
-/

set_option Elab.async false

namespace Sys2Proof.Machine

variable {o s t : State} {n : Nat}

/-- A register of a kind outside the footprint, whatever its indices. -/
theorem Via.rdKind {N : Nat} (h : Via N s t) {f : Fld} (k : RegKind) (hf : f.k = k) (hk : N.testBit (64 + k.ctorIdx) = false)
    (hn : N &&& 0x200000001 = 0) : t.rd f = s.rd f := h.rd f (by rw [hf]; exact hk) hn

/-! A change of state. -/

/-- A port's own state. -/
abbrev portAt (s : State) (n : Nat) : PortSt := tget PortSt.init s.fab.ports n

/-- What a port forgets of fabric time when it leaves UP. -/
def PortSt.untimed (p : PortSt) : PortSt := { p with alive := false, rootFa := 0, repoch := 0, rseq := 0, rx := none }

/-- The state and reason that a port shows. -/
def portShown (n state reason : Nat) (s : State) : State := apply (.reg (R.FZ_PORT_STAT.REASON n) reason) (apply (.reg (R.FZ_PORT_STAT.STATE n) state) s)

theorem portShown_state {state reason : Nat} (h : state < 16) : (portShown n state reason s).rd (R.FZ_PORT_STAT.STATE n) = state := by
  simp (disch := decide) only [portShown, rd_reg_apart, rd_reg_same]
  exact Nat.mod_eq_of_lt h

theorem portShown_reason {state reason : Nat} (h : reason < 16) : (portShown n state reason s).rd (R.FZ_PORT_STAT.REASON n) = reason := by
  simp (disch := decide) only [portShown, rd_reg_same]
  exact Nat.mod_eq_of_lt h

theorem portShown_elsewhere {state reason : Nat} {f : Fld} (h : f.k ≠ .FZ_PORT_STAT) : (portShown n state reason s).rd f = s.rd f := by
  rw [portShown, rd_reg_kind _ _ _ _ h, rd_reg_kind _ _ _ _ h]

/-- What may follow from a port's change of state: the wait of a start, fabric time and its message, and FAULT_N. -/
def FP.portMoved : Nat := 0x1000000000000000013000000000000000000000000100229000

theorem FP.portMoved_eq : FP.portMoved =
  foot [.kind .HIF_BOOT_STATUS, .kind .HIF_PBA, .kind .RST_FAULT, .kind .RST_PIN_STAT, .ctl, .fab, .out, .seen, .wor] := by decide +kernel

/-- The message and the marks of a change from `was` to `state`. -/
def portMoves (n was state m firstUp : Nat) : M o Unit := do
  when_ (was != state) (mark (K.portUp n))
  (if was = PS.UP ∧ state ≠ PS.UP then do
    upPort n fun p => p.untimed
    svc 0xFFFFF 1 SV.PORT_STATE [m, n, 0]
  else if was ≠ PS.UP ∧ state = PS.UP then do
    when_ (decide (firstUp = 0)) (mark K.firstUp)
    svc 0xFFFFF 1 SV.PORT_STATE [m, n, 1]
  else pure ())
  when_ (decide (was = PS.TEST ∨ state = PS.TEST)) refreshTestWait
  refreshPortFault

theorem setPort_run (n state reason : Nat) (x : Trace o) : setPort n state reason x =
    portMoves n (x.1.rd (R.FZ_PORT_STAT.STATE n)) state (locM (ownLoc x.1)) (tget 0 x.1.clk.seen K.firstUp)
      ⟨portShown n state reason x.1, Reach.step (Reach.step x.2 _) _⟩ := by
  simp only [setPort, portMoves, M.bind_run, st_run, wr_run, portShown, PortSt.untimed]

theorem portMoves_in (n was state m firstUp : Nat) : Within FP.portMoved (portMoves n was state m firstUp : M o Unit) := by
  have hmark : ∀ k, Within FP.portMoved (mark k : M o Unit) := fun k => (mark_in k).mono rfl
  have hsvc : ∀ code fields, Within FP.portMoved (svc 0xFFFFF 1 code fields : M o Unit) := fun code fields => (svc_in ..).mono rfl
  refine within_bind (within_when (hmark _)) fun _ => within_bind ?_ fun _ => within_bind (within_when (refreshTestWait_in.mono rfl)) fun _ =>
    refreshPortFault_in.mono rfl
  split
  · exact within_bind ((upPort_in ..).mono rfl) fun _ => hsvc ..
  split
  · exact within_bind (within_when (hmark _)) fun _ => hsvc ..
  · exact within_pure ()

theorem setPort_via (n state reason : Nat) (x : Trace o) : Via FP.portMoved (portShown n state reason x.1) (setPort n state reason x).2.1 := by
  rw [setPort_run]
  exact (portMoves_in ..).via ⟨portShown n state reason x.1, _⟩

/-- Of the port's own state a change of state touches fabric time alone. -/
theorem portMoves_port {α : Type} {f : PortSt → α} (hf : ∀ p, f p.untimed = f p) (n was state m firstUp : Nat) (y : Trace o) :
    f (portAt (portMoves n was state m firstUp y).2.1 n) = f (portAt y.1 n) := by
  have hkeep : ∀ {N : Nat} {a : M o Unit}, Within N a → N &&& 0x200020000 = 0 → ∀ z : Trace o, portAt (a z).2.1 n = portAt z.1 n :=
    fun hin hN z => by rw [portAt, portAt, (hin.via z).fab hN]
  simp only [portMoves, M.bind_run]
  rw [hkeep refreshPortFault_in rfl, hkeep (within_when refreshTestWait_in) rfl]
  rw [ite_run, ite_run]
  split
  · rw [M.bind_run, hkeep (svc_in ..) rfl, ← hkeep (within_when (c := was != state) (mark_in (K.portUp n))) rfl y]
    simp only [upPort, eff_run, apply_fab, portAt, tget_tset_self, hf]
  split
  · rw [M.bind_run, hkeep (svc_in ..) rfl, hkeep (within_when (mark_in _)) rfl, hkeep (within_when (mark_in _)) rfl]
  · rw [M.pure_run, hkeep (within_when (mark_in _)) rfl]

theorem setPort_port {α : Type} {f : PortSt → α} (hf : ∀ p, f p.untimed = f p) (n state reason : Nat) (x : Trace o) :
    f (portAt (setPort n state reason x).2.1 n) = f (portAt x.1 n) := by
  rw [setPort_run, portMoves_port hf]
  simp only [portAt, portShown, apply_reg]

theorem setPort_state {state : Nat} (h : state < 16) (reason : Nat) (x : Trace o) :
    (setPort n state reason x).2.1.rd (R.FZ_PORT_STAT.STATE n) = state :=
  ((setPort_via n state reason x).rdKind .FZ_PORT_STAT rfl rfl rfl).trans (portShown_state h)

theorem setPort_reason {reason : Nat} (h : reason < 16) (state : Nat) (x : Trace o) :
    (setPort n state reason x).2.1.rd (R.FZ_PORT_STAT.REASON n) = reason :=
  ((setPort_via n state reason x).rdKind .FZ_PORT_STAT rfl rfl rfl).trans (portShown_reason h)

theorem setPort_mono (n state reason : Nat) (x : Trace o) : (setPort n state reason x).2.1.clk.mono = x.1.clk.mono :=
  ((setPort_via n state reason x).clkMono rfl).trans (by simp only [portShown, apply_reg])

/-- A register of a kind that a port's change of state does not reach. -/
theorem setPort_rd {f : Fld} (k : RegKind) (hf : f.k = k) (hk : k ≠ .FZ_PORT_STAT) (hm : FP.portMoved.testBit (64 + k.ctorIdx) = false)
    (n state reason : Nat) (x : Trace o) : (setPort n state reason x).2.1.rd f = x.1.rd f :=
  ((setPort_via n state reason x).rdKind k hf hm rfl).trans (portShown_elsewhere (by rw [hf]; exact hk))

/-! Tests. -/

theorem portSt_run (n : Nat) (x : Trace o) : (portSt n : M o PortSt) x = (portAt x.1 n, x) := id rfl

theorem upPort_port (n : Nat) (f : PortSt → PortSt) (x : Trace o) : portAt (upPort n f x).2.1 n = f (portAt x.1 n) := by
  simp only [upPort, eff_run, portAt, apply_fab, tget_tset_self]

theorem upPort_rd (n : Nat) (f : PortSt → PortSt) (x : Trace o) (g : Fld) : (upPort n f x).2.1.rd g = x.1.rd g := id rfl

theorem upPort_out (n : Nat) (f : PortSt → PortSt) (x : Trace o) : (upPort n f x).2.1.out = x.1.out := ((upPort_in ..).via x).out rfl

theorem upPort_mono (n : Nat) (f : PortSt → PortSt) (x : Trace o) : (upPort n f x).2.1.clk.mono = x.1.clk.mono := ((upPort_in ..).via x).clkMono rfl

theorem send_sent (y : Out) (x : Trace o) : Sent x.1 (send y x).2.1 y := by
  simp only [send_run, Sent, apply_out, List.drop_left, List.mem_singleton]

theorem send_reach (y : Out) (x : Trace o) : Reach x.1 (send y x).2.1 := Reach.step .refl (.out y)

theorem send_fab (y : Out) (x : Trace o) : (send y x).2.1.fab = x.1.fab := rfl

theorem send_rd (y : Out) (x : Trace o) (f : Fld) : (send y x).2.1.rd f = x.1.rd f := rfl

theorem runPrbs_run (n : Nat) (x : Trace o) : (portAt (runPrbs n x).2.1 n).agreed = true ∧
    (runPrbs n x).2.1.out = x.1.out ++ [.prbs n] ∧ ∀ f, (runPrbs n x).2.1.rd f = x.1.rd f := by
  simp only [runPrbs, M.bind_run, send_run, portAt, apply_out, upPort_out]
  refine ⟨?_, trivial, fun f => upPort_rd ..⟩
  exact congrArg PortSt.agreed (upPort_port ..)

/-- The end with the smaller location begins a test and asks for it (R215). -/
theorem enterTest_first {x : Trace o} (hfirst : ownLoc x.1 < x.1.rd (R.FZ_PORT_FAR.LOC n)) :
    (enterTest n x).2.1.rd (R.FZ_PORT_STAT.STATE n) = PS.TEST ∧ (portAt (enterTest n x).2.1 n).starter = true ∧
      Sent x.1 (enterTest n x).2.1 (.linkFrame n LK.TEST_REQ []) := by
  simp only [enterTest, M.bind_run, st_run, decide_eq_true hfirst, if_true]
  refine ⟨?_, ?_, (send_sent _ _).of_later ((setPort_via ..).reach.trans ((upPort_in ..).via _).reach |> Reach.trans ?_)⟩
  · rw [send_rd, upPort_rd, setPort_state (by decide)]
  · rw [portAt, send_fab]
    exact congrArg PortSt.starter (upPort_port ..)
  · exact Reach.step (Reach.step .refl _) _

/-- The other end answers and sends the pattern. -/
theorem answerTest_run {x : Trace o} {t : State} (ht : t = (runPrbs n (send (.linkFrame n LK.TEST_ACK []) (setPort n PS.TEST PR.NONE x).2).2).2.1) :
    t.rd (R.FZ_PORT_STAT.STATE n) = PS.TEST ∧ (portAt t n).agreed = true ∧ Sent x.1 t (.linkFrame n LK.TEST_ACK []) ∧ Sent x.1 t (.prbs n) := by
  subst ht
  obtain ⟨hagreed, hout, hrd⟩ := runPrbs_run n (send (.linkFrame n LK.TEST_ACK []) (setPort n PS.TEST PR.NONE x).2).2
  have hmoved : Reach x.1 (setPort n PS.TEST PR.NONE x).2.1 := ((setPort_in ..).via x).reach
  have hacked : Reach x.1 (send (.linkFrame n LK.TEST_ACK []) (setPort n PS.TEST PR.NONE x).2).2.1 :=
    hmoved.trans (send_reach ..)
  refine ⟨?_, hagreed, ((send_sent _ _).of_later hmoved).of_earlier ((runPrbs_in ..).via _).reach, ?_⟩
  · rw [hrd, send_rd, setPort_state (by decide)]
  · refine Sent.of_later (u := (send (.linkFrame n LK.TEST_ACK []) (setPort n PS.TEST PR.NONE x).2).2.1) ?_ hacked
    rw [Sent, hout, List.drop_left]
    exact List.mem_singleton_self _

theorem testReq_up (hn : n < 36) (hup : s.rd (R.FZ_PORT_STAT.STATE n) = PS.UP) :
    Does (.testReq n) s fun t => t.rd (R.FZ_PORT_STAT.STATE n) = PS.TEST ∧
      if ownLoc s < s.rd (R.FZ_PORT_FAR.LOC n) then (portAt t n).starter = true ∧ Sent s t (.linkFrame n LK.TEST_REQ [])
      else (portAt t n).agreed = true ∧ Sent s t (.linkFrame n LK.TEST_ACK []) ∧ Sent s t (.prbs n) := by
  refine does_run rfl (decide_eq_true hn) ?_
  have hident : ¬ PS.UP = PS.IDENT := by decide
  simp only [M.bind_run, st_run, portSt_run, hup, if_neg hident, true_and, true_or, if_true]
  by_cases hfirst : ownLoc s < s.rd (R.FZ_PORT_FAR.LOC n)
  · simp only [if_pos hfirst]
    exact enterTest_first (x := ⟨s, Reach.refl⟩) hfirst
  · simp only [if_neg hfirst, M.bind_run]
    exact answerTest_run (x := ⟨s, Reach.refl⟩) rfl

theorem testReq_ident (hn : n < 36) (hident : s.rd (R.FZ_PORT_STAT.STATE n) = PS.IDENT) :
    Does (.testReq n) s fun t => portAt t n = { portAt s n with agreed := true } ∧ t.regs = s.regs := by
  refine does_run rfl (decide_eq_true hn) ?_
  simp only [M.bind_run, st_run, portSt_run, hident, if_true]
  exact ⟨upPort_port .., rfl⟩

theorem testAck_does (hn : n < 36) (htest : s.rd (R.FZ_PORT_STAT.STATE n) = PS.TEST) (hstarter : (portAt s n).starter = true)
    (hnew : (portAt s n).agreed = false) :
    Does (.testAck n) s fun t => (portAt t n).agreed = true ∧ t.out = s.out ++ [.prbs n] := by
  refine does_run rfl (decide_eq_true hn) ?_
  simp only [portSt_run, M.bind_run, rd_run, htest, hstarter, hnew, Bool.not_false, and_self, if_true]
  obtain ⟨hagreed, hout, -⟩ := runPrbs_run n ⟨s, Reach.refl⟩
  exact ⟨hagreed, hout⟩

/-- The test's outcome: the state it ends in. -/
theorem testOutcome_run {α : Type} {f : PortSt → α} (hf : ∀ p, f p.untimed = f p) (pass : Bool) (x : Trace o) :
    let t := (testOutcome n pass x).2.1
    f (portAt t n) = f (portAt x.1 n) ∧ t.clk.mono = x.1.clk.mono ∧ (∀ g : Fld, g.k = .FZ_PORT_BER → t.rd g = x.1.rd g) ∧
      if pass then t.rd (R.FZ_PORT_STAT.STATE n) = PS.UP
      else t.rd (R.FZ_PORT_STAT.STATE n) = PS.HELD ∧ t.rd (R.FZ_PORT_STAT.REASON n) = PR.BER_FAIL := by
  cases pass
  · have hcheck := (portCheck_in (o := o) n PR.BER_FAIL).via x
    simp only [testOutcome, Bool.false_eq_true, if_false, M.bind_run]
    refine ⟨?_, ?_, fun g hg => ?_, setPort_state (by decide) .., setPort_reason (by decide) ..⟩
    · rw [setPort_port hf, portAt, portAt, hcheck.fab rfl]
    · rw [setPort_mono, hcheck.clkMono rfl]
    · rw [setPort_rd .FZ_PORT_BER hg (by decide) rfl, hcheck.rdKind .FZ_PORT_BER hg rfl rfl]
  · simp only [testOutcome, if_true]
    exact ⟨setPort_port hf .., setPort_mono .., fun g hg => setPort_rd .FZ_PORT_BER hg (by decide) rfl .., setPort_state (by decide) ..⟩

theorem testResult_does {pass : Bool} (hn : n < 36) (htest : s.rd (R.FZ_PORT_STAT.STATE n) = PS.TEST) :
    Does (.testResult n pass) s fun t => (portAt t n).farPass = some pass ∧
      (if pass then t.rd (R.FZ_PORT_STAT.STATE n) = (if (portAt s n).passed then PS.UP else PS.TEST)
       else t.rd (R.FZ_PORT_STAT.STATE n) = PS.HELD ∧ t.rd (R.FZ_PORT_STAT.REASON n) = PR.BER_FAIL) := by
  refine does_run rfl (decide_eq_true hn) ?_
  have hnoted : ∀ x : Trace s, (portAt (upPort n (fun p => { p with farPass := some pass }) x).2.1 n).farPass = some pass :=
    fun x => congrArg PortSt.farPass (upPort_port ..)
  simp only [portSt_run, M.bind_run, rd_run, htest, true_or, and_true, true_and]
  cases pass
  · simp only [Bool.not_false, if_true, Bool.false_eq_true, if_false]
    obtain ⟨hfar, -, -, hends⟩ := testOutcome_run (n := n) (f := PortSt.farPass) (fun _ => rfl) false (upPort n (fun p => { p with farPass := some false }) ⟨s, Reach.refl⟩).2
    exact ⟨hfar.trans (hnoted _), hends⟩
  · simp only [Bool.not_true, Bool.false_eq_true, if_false, if_true]
    by_cases hpassed : (portAt s n).passed = true
    · simp only [if_pos hpassed]
      obtain ⟨hfar, -, -, hends⟩ := testOutcome_run (n := n) (f := PortSt.farPass) (fun _ => rfl) true (upPort n (fun p => { p with farPass := some true }) ⟨s, Reach.refl⟩).2
      exact ⟨hfar.trans (hnoted _), hends⟩
    · simp only [if_neg hpassed]
      exact ⟨hnoted _, htest⟩

/-- The marks of a change of state: those of the port, of the first port UP and of a start's waits. -/
theorem setPort_seen {k : Nat} (hport : k ≠ K.portUp n) (hfirst : k ≠ K.firstUp) (hwait : k ≠ K.waitAt) (hstart : k ≠ K.startAt) (state reason : Nat) (x : Trace o) :
    tget 0 (setPort n state reason x).2.1.clk.seen k = tget 0 x.1.clk.seen k := by
  have hkeep : ∀ {N : Nat} {a : M o Unit}, Within N a → N &&& 0x200001000 = 0 → ∀ z : Trace o, tget 0 (a z).2.1.clk.seen k = tget 0 z.1.clk.seen k :=
    fun hin hN z => by rw [(hin.via z).seen hN]
  have hmark : ∀ c j, k ≠ j → ∀ z : Trace o, tget 0 (when_ c (mark j) z).2.1.clk.seen k = tget 0 z.1.clk.seen k := by
    intro c j hj z
    cases c
    · rw [when_off rfl]
    · rw [when_on rfl, mark_run]
      simp only [apply_seen, tget_tset_ne _ _ _ _ _ hj]
  have htest : ∀ c, ∀ z : Trace o, tget 0 (when_ c refreshTestWait z).2.1.clk.seen k = tget 0 z.1.clk.seen k := by
    intro c z
    cases c
    · rw [when_off rfl]
    rw [when_on rfl, refreshTestWait, M.bind_run, st_run, ite_run, ite_run]
    split
    · rfl
    split
    · simp only [beginWait, M.bind_run, st_run, eff_run, setF_run, apply_reg, apply_ctl, hmark _ _ hwait]
    · rw [endWait, M.bind_run, st_run, ite_run]
      split
      · simp only [M.bind_run, eff_run]
        generalize (z.1.ctl.waits.filter (· ≠ 1)).isEmpty = c
        cases c
        · rw [when_off rfl]
          simp only [apply_ctl]
        · rw [when_on rfl, M.bind_run, wr_run, eff_run]
          simp only [apply_seen, apply_reg, apply_ctl, tget_tset_ne _ _ _ _ _ hstart]
      · rfl
  rw [setPort_run]
  simp only [portMoves, M.bind_run]
  rw [hkeep refreshPortFault_in rfl, htest, ite_run, ite_run]
  split
  · rw [M.bind_run, hkeep (svc_in ..) rfl, hkeep (upPort_in ..) rfl, hmark _ _ hport]
    simp only [portShown, apply_reg]
  split
  · rw [M.bind_run, hkeep (svc_in ..) rfl, hmark _ _ hfirst, hmark _ _ hport]
    simp only [portShown, apply_reg]
  · rw [M.pure_run, hmark _ _ hport]
    simp only [portShown, apply_reg]

section Results

variable {errs : Nat}

/-- What the end of a test shows before its outcome is known (R215). -/
def testShown (n errs : Nat) (s : State) : State :=
  apply (.reg (R.FZ_PORT_BER.ERRORS n) (min (2 ^ 30 - 1) errs)) (apply (.reg (R.FZ_PORT_BER.PASS n) (if decide (errs ≤ berLimit s) then 1 else 0))
    (apply (.reg (R.FZ_PORT_BER.DONE n) 1) (apply (.pass (1000000000 * max 1 (s.rd R.FZ_VERIFY_CFG.BER_SECONDS))) s)))

theorem testShown_reads (n errs : Nat) (s : State) :
    (testShown n errs s).clk.mono = s.clk.mono + 1000000000 * max 1 (s.rd R.FZ_VERIFY_CFG.BER_SECONDS) ∧
    (testShown n errs s).rd (R.FZ_PORT_BER.DONE n) = 1 ∧ (testShown n errs s).rd (R.FZ_PORT_BER.ERRORS n) = min (2 ^ 30 - 1) errs ∧
    (testShown n errs s).rd (R.FZ_PORT_BER.PASS n) = (if errs ≤ berLimit s then 1 else 0) ∧
    (testShown n errs s).rd (R.FZ_PORT_STAT.STATE n) = s.rd (R.FZ_PORT_STAT.STATE n) ∧ (testShown n errs s).fab = s.fab := by
  have herrors : min (2 ^ 30 - 1) errs % 2 ^ 30 = min (2 ^ 30 - 1) errs := Nat.mod_eq_of_lt (by omega)
  have hpass : (if decide (errs ≤ berLimit s) = true then 1 else 0) % 2 ^ 1 = if errs ≤ berLimit s then 1 else 0 := by
    simp only [decide_eq_true_eq]
    split <;> rfl
  have hone : 1 % 2 ^ 1 = 1 := rfl
  simp (disch := decide) only [testShown, apply_reg, apply_pass, rd_reg_apart, rd_reg_same, rd_reg_elsewhere, herrors, hpass, hone, and_self]

/-- The outcome of a test whose result has been shown and sent. -/
def testEnds (n errs : Nat) (s : State) : M o Unit := do
  send (.linkFrame n LK.TEST_RESULT [if decide (errs ≤ berLimit s) then 1 else 0])
  upPort n fun x => { x with starter := false, agreed := false, passed := decide (errs ≤ berLimit s) }
  if decide (errs ≤ berLimit s) ∧ (portAt s n).farPass = none then pure ()
  else testOutcome n (decide (errs ≤ berLimit s) && (portAt s n).farPass == some true)

theorem berTestDone_run (hn : n < 36) (htest : s.rd (R.FZ_PORT_STAT.STATE n) = PS.TEST) (hagreed : (portAt s n).agreed = true)
    {E : State → Prop} (hE : ∀ r, E (testEnds n errs s ⟨testShown n errs s, r⟩ : Unit × Trace s).2.1) : Does (.berTestDone n errs) s E := by
  refine does_run rfl (decide_eq_true hn) ?_
  simp only [M.bind_run, st_run, portSt_run, htest, hagreed, and_self, if_true, eff_run, setF_run, wrB_run, wr_run]
  exact hE (Reach.step (Reach.step (Reach.step (Reach.step Reach.refl _) _) _) _)

theorem testEnds_run {x : Trace o} (hstate : x.1.rd (R.FZ_PORT_STAT.STATE n) = PS.TEST) {t : State} (ht : t = (testEnds n errs s x).2.1) :
    t.clk.mono = x.1.clk.mono ∧ (∀ g : Fld, g.k = .FZ_PORT_BER → t.rd g = x.1.rd g) ∧
      if errs ≤ berLimit s ∧ (portAt s n).farPass ≠ some false then
        t.rd (R.FZ_PORT_STAT.STATE n) = (if (portAt s n).farPass = some true then PS.UP else PS.TEST)
      else t.rd (R.FZ_PORT_STAT.STATE n) = PS.HELD ∧ t.rd (R.FZ_PORT_STAT.REASON n) = PR.BER_FAIL := by
  subst ht
  have hends : ∀ pass, ∀ y : Trace o, y.1.clk.mono = x.1.clk.mono → (∀ g, y.1.rd g = x.1.rd g) →
      (testOutcome n pass y).2.1.clk.mono = x.1.clk.mono ∧ (∀ g : Fld, g.k = .FZ_PORT_BER → (testOutcome n pass y).2.1.rd g = x.1.rd g) ∧
        if pass then (testOutcome n pass y).2.1.rd (R.FZ_PORT_STAT.STATE n) = PS.UP
        else (testOutcome n pass y).2.1.rd (R.FZ_PORT_STAT.STATE n) = PS.HELD ∧
          (testOutcome n pass y).2.1.rd (R.FZ_PORT_STAT.REASON n) = PR.BER_FAIL := by
    intro pass y hmono hrd
    obtain ⟨-, hm, hber, hend⟩ := testOutcome_run (n := n) (f := fun _ => ()) (fun _ => rfl) pass y
    exact ⟨hm.trans hmono, fun g hg => (hber g hg).trans (hrd g), hend⟩
  have hmono : ∀ l f, (upPort n f (send (.linkFrame n LK.TEST_RESULT l) x).2).2.1.clk.mono = x.1.clk.mono := fun l f => by
    rw [upPort_mono, ((send_in ..).via x).clkMono rfl]
  have hrd : ∀ l f, ∀ g, (upPort n f (send (.linkFrame n LK.TEST_RESULT l) x).2).2.1.rd g = x.1.rd g := fun l f g => by rw [upPort_rd, send_rd]
  simp only [testEnds, M.bind_run, ite_run]
  by_cases hpass : errs ≤ berLimit s
  · rcases hfar : (portAt s n).farPass with _ | _ | _
    · simp only [hpass, decide_true, and_self, if_true, M.pure_snd, ne_eq, reduceCtorEq, not_false_eq_true, if_false]
      exact ⟨hmono .., fun g _ => hrd .., (hrd ..).trans hstate⟩
    · simpa [hpass] using hends false _ (hmono ..) (hrd _ _)
    · simpa [hpass] using hends true _ (hmono ..) (hrd _ _)
  · simpa [hpass] using hends false _ (hmono ..) (hrd _ _)

theorem berTestDone_does (hn : n < 36) (htest : s.rd (R.FZ_PORT_STAT.STATE n) = PS.TEST) (hagreed : (portAt s n).agreed = true) :
    Does (.berTestDone n errs) s fun t => t.clk.mono = s.clk.mono + 1000000000 * max 1 (s.rd R.FZ_VERIFY_CFG.BER_SECONDS) ∧
      t.rd (R.FZ_PORT_BER.DONE n) = 1 ∧ t.rd (R.FZ_PORT_BER.ERRORS n) = min (2 ^ 30 - 1) errs ∧
      t.rd (R.FZ_PORT_BER.PASS n) = (if errs ≤ berLimit s then 1 else 0) ∧
      (if errs ≤ berLimit s ∧ (portAt s n).farPass ≠ some false then
        t.rd (R.FZ_PORT_STAT.STATE n) = (if (portAt s n).farPass = some true then PS.UP else PS.TEST)
       else t.rd (R.FZ_PORT_STAT.STATE n) = PS.HELD ∧ t.rd (R.FZ_PORT_STAT.REASON n) = PR.BER_FAIL) := by
  obtain ⟨hmono, hdone, herrors, hpass, hstate, -⟩ := testShown_reads n errs s
  refine berTestDone_run hn htest hagreed fun r => ?_
  obtain ⟨hm, hber, hend⟩ := testEnds_run (s := s) (n := n) (errs := errs) (x := ⟨testShown n errs s, r⟩) (hstate.trans htest) rfl
  exact ⟨hm.trans hmono, (hber _ rfl).trans hdone, (hber _ rfl).trans herrors, (hber _ rfl).trans hpass, hend⟩

end Results

/-- The end with the smaller location begins its periodic test; the other asks for it (R215). -/
theorem askTest_run {x : Trace o} (hup : x.1.rd (R.FZ_PORT_STAT.STATE n) = PS.UP) {t : State} (ht : t = (askTest n x).2.1) :
    Sent x.1 t (.linkFrame n LK.TEST_REQ []) ∧
      if ownLoc x.1 < x.1.rd (R.FZ_PORT_FAR.LOC n) then t.rd (R.FZ_PORT_STAT.STATE n) = PS.TEST ∧ (portAt t n).starter = true
      else (portAt t n).testDue = true := by
  subst ht
  simp only [askTest, M.bind_run, st_run, hup, ne_eq, not_true_eq_false, if_false]
  by_cases hfirst : ownLoc x.1 < x.1.rd (R.FZ_PORT_FAR.LOC n)
  · obtain ⟨htest, hstarter, hsent⟩ := enterTest_first hfirst
    simp only [if_pos hfirst]
    exact ⟨hsent, htest, hstarter⟩
  · simp only [if_neg hfirst, M.bind_run]
    refine ⟨(send_sent _ _).of_later ((upPort_in ..).via _).reach, ?_⟩
    rw [portAt, send_fab]
    exact congrArg PortSt.testDue (upPort_port ..)

theorem askTest_seen {x : Trace o} {k : Nat} (hport : k ≠ K.portUp n) (hfirst : k ≠ K.firstUp) (hwait : k ≠ K.waitAt) (hstart : k ≠ K.startAt) :
    tget 0 (askTest n x).2.1.clk.seen k = tget 0 x.1.clk.seen k := by
  have hsend : ∀ y, Within FP.runPrbs (send y : M o Unit) := fun y => (send_in y).mono rfl
  have henter : tget 0 (enterTest n x).2.1.clk.seen k = tget 0 x.1.clk.seen k := by
    have hlast : ∀ first asked : Prop, ∀ [Decidable first] [Decidable asked], Within FP.runPrbs ((if first then send (.linkFrame n LK.TEST_REQ [])
        else if asked then do
          send (.linkFrame n LK.TEST_ACK [])
          runPrbs n
        else pure ()) : M o Unit) := by
      intro first asked _ _
      split
      · exact hsend _
      split
      · exact within_bind (hsend _) fun _ => runPrbs_in n
      · exact within_pure ()
    rw [enterTest, M.bind_run, st_run, M.bind_run, M.bind_run, ((hlast ..).via _).seen rfl, ((upPort_in ..).via _).seen rfl,
      setPort_seen hport hfirst hwait hstart]
  rw [askTest, M.bind_run, st_run, ite_run, ite_run]
  split
  · rfl
  split
  · exact henter
  · rw [M.bind_run, ((hsend _).via _).seen rfl, ((upPort_in ..).via _).seen rfl]

/-- A periodic test, once its interval has passed. -/
theorem askTest_due {x : Trace o} {i : Nat} (hx : x.1 = waitNoted (K.port n) i s) (hup : s.rd (R.FZ_PORT_STAT.STATE n) = PS.UP) {t : State}
    (ht : t = (askTest n x).2.1) : (t.clk.mono = max s.clk.mono i ∧ tget 0 t.clk.seen (K.port n) = t.clk.mono) ∧ Sent s t (.linkFrame n LK.TEST_REQ []) ∧
      if ownLoc s < s.rd (R.FZ_PORT_FAR.LOC n) then t.rd (R.FZ_PORT_STAT.STATE n) = PS.TEST ∧ (portAt t n).starter = true
      else (portAt t n).testDue = true := by
  have hseen := askTest_seen (x := x) (k := K.port n) (n := n) (by unfold K.port K.portUp; omega) (by unfold K.port K.firstUp; omega)
    (by unfold K.port K.waitAt; omega) (by unfold K.port K.startAt; omega)
  have hmono := ((askTest_in n).via x).clkMono rfl
  obtain ⟨hsent, hends⟩ := askTest_run (x := x) (by rw [hx, waitNoted_rd, hup]) ht
  rw [← ht, hx] at hseen hmono
  simp only [hx, ownLoc, waitNoted_rd, Sent, waitNoted_out] at hsent hends
  exact ⟨⟨hmono.trans (waitNoted_mono ..), hseen.trans ((waitNoted_seen ..).trans (hmono.trans (waitNoted_mono ..)).symm)⟩, hsent, hends⟩

theorem berInterval_does (hn : n < 36) (hhours : 0 < s.rd R.FZ_VERIFY_CFG.BER_INTERVAL_H)
    (hfree : ∀ m < 36, s.rd (R.FZ_PORT_STAT.STATE m) ≠ PS.TEST) (hup : s.rd (R.FZ_PORT_STAT.STATE n) = PS.UP) :
    Does (.berInterval n) s fun t => Fired s t (K.port n) (s.rd R.FZ_VERIFY_CFG.BER_INTERVAL_H * 3600000000000) ∧
      Sent s t (.linkFrame n LK.TEST_REQ []) ∧
      if ownLoc s < s.rd (R.FZ_PORT_FAR.LOC n) then t.rd (R.FZ_PORT_STAT.STATE n) = PS.TEST ∧ (portAt t n).starter = true
      else (portAt t n).testDue = true := by
  refine does_run rfl (decide_eq_true hn) ?_
  have hgo : ¬ (s.rd R.FZ_VERIFY_CFG.BER_INTERVAL_H = 0 ∨ ((List.range 36).any fun m => s.rd (R.FZ_PORT_STAT.STATE m) == PS.TEST) = true) := by
    rintro (h | h)
    · omega
    · obtain ⟨m, hm, htest⟩ := List.any_eq_true.1 h
      exact hfree m (List.mem_range.1 hm) (beq_iff_eq.1 htest)
  simp only [M.bind_run, st_run, if_neg hgo, periodic_run, waitNoted_run]
  exact askTest_due (x := ⟨waitNoted _ _ s, _⟩) rfl hup rfl

/-- Settles O47: each message and each end of a test moves the port as its state and its end of the link say. -/
theorem portTestsComplete : Obligations.PortTestsComplete :=
  ⟨fun _ _ hn hup => testReq_up hn hup, fun _ _ hn hident => testReq_ident hn hident,
    fun _ _ hn htest hstarter hnew => testAck_does hn htest hstarter hnew, fun _ _ _ hn htest => testResult_does hn htest,
    fun _ _ _ hn htest hagreed => berTestDone_does hn htest hagreed, fun _ _ hn hhours hfree hup => berInterval_does hn hhours hfree hup⟩

end Sys2Proof.Machine
end

section
/-!
PROOFS. Commands of Fazar ports: training, identification, loss and retraining (R210 to R216).
-/

set_option Elab.async false

namespace Sys2Proof.Machine

variable {o s : State} {n : Nat}

/-! Training and identification. -/

/-- What the ends of a link say to each other at a test's beginning. -/
def testCall (n : Nat) (first asked : Bool) : M o Unit :=
  if first then send (.linkFrame n LK.TEST_REQ [])
  else if asked then do
    send (.linkFrame n LK.TEST_ACK [])
    runPrbs n
  else pure ()

theorem testCall_keeps (n : Nat) (first asked : Bool) (x : Trace o) : (∀ f, (testCall n first asked x).2.1.rd f = x.1.rd f) ∧
    (portAt (testCall n first asked x).2.1 n).starter = (portAt x.1 n).starter := by
  cases first
  · cases asked
    · exact ⟨fun _ => rfl, rfl⟩
    · obtain ⟨-, -, hrd⟩ := runPrbs_run n (send (.linkFrame n LK.TEST_ACK []) x).2
      simp only [testCall, Bool.false_eq_true, if_false, if_true, M.bind_run]
      refine ⟨fun f => (hrd f).trans (send_rd ..), ?_⟩
      rw [runPrbs, M.bind_run, portAt, send_fab]
      exact (congrArg PortSt.starter (upPort_port ..)).trans (by rw [portAt, send_fab])
  · exact ⟨fun f => send_rd .., rfl⟩

/-- A test's beginning, whichever end begins it. -/
theorem enterTest_run (x : Trace o) : (enterTest n x).2.1.rd (R.FZ_PORT_STAT.STATE n) = PS.TEST ∧
    (portAt (enterTest n x).2.1 n).starter = decide (ownLoc x.1 < x.1.rd (R.FZ_PORT_FAR.LOC n)) ∧
    ∀ f : Fld, f.k = .FZ_PORT_FAR → (enterTest n x).2.1.rd f = x.1.rd f := by
  have hrun : (enterTest n x).2 = (testCall n (decide (ownLoc x.1 < x.1.rd (R.FZ_PORT_FAR.LOC n))) (portAt x.1 n).agreed
      (upPort n (fun p => { p with starter := decide (ownLoc x.1 < x.1.rd (R.FZ_PORT_FAR.LOC n)), agreed := false })
        (setPort n PS.TEST PR.NONE x).2).2).2 := by
    simp only [enterTest, testCall, M.bind_run, st_run]
  obtain ⟨hrd, hstarter⟩ := testCall_keeps n (decide (ownLoc x.1 < x.1.rd (R.FZ_PORT_FAR.LOC n))) (portAt x.1 n).agreed
    (upPort n (fun p => { p with starter := decide (ownLoc x.1 < x.1.rd (R.FZ_PORT_FAR.LOC n)), agreed := false }) (setPort n PS.TEST PR.NONE x).2).2
  rw [hrun]
  refine ⟨?_, hstarter.trans (congrArg PortSt.starter (upPort_port ..)), fun f hf => ?_⟩
  · rw [hrd, upPort_rd, setPort_state (by decide)]
  · rw [hrd, upPort_rd, setPort_rd .FZ_PORT_FAR hf (by decide) rfl]

/-- A port that has identified its far end goes UP, or into the test that is due. -/
theorem afterIdent_run {x : Trace o} (hused : idleSpare x.1 n = false) (hfar : x.1.rd (R.FZ_PORT_FAR.VALID n) = 1) {t : State}
    (ht : t = (afterIdent n x).2.1) : t.rd (R.FZ_PORT_STAT.STATE n) = (if testWanted x.1 n then PS.TEST else PS.UP) ∧
      (testWanted x.1 n = true → (portAt t n).starter = decide (ownLoc x.1 < x.1.rd (R.FZ_PORT_FAR.LOC n))) ∧
      ∀ f : Fld, f.k = .FZ_PORT_FAR → t.rd f = x.1.rd f := by
  subst ht
  rw [afterIdent, M.bind_run, st_run, hused, if_neg Bool.false_ne_true]
  cases hwanted : testWanted x.1 n
  · simp only [Bool.false_eq_true, if_false]
    exact ⟨setPort_state (by decide) .., fun h => h.elim, fun f hf => setPort_rd .FZ_PORT_FAR hf (by decide) rfl ..⟩
  · simp only [hfar, if_true]
    obtain ⟨hstate, hstarter, hrd⟩ := enterTest_run (n := n) x
    exact ⟨hstate, fun _ => hstarter, hrd⟩

/-- The IDENT frame that a port sends. -/
abbrev identFrame (s : State) (n : Nat) : Out := .linkFrame n LK.IDENT [ownLoc s, n, ownFa s, s.rd R.FZ_SELF.GEN]

theorem sendIdent_run (n : Nat) (x : Trace o) : sendIdent n x = send (identFrame x.1 n) x := rfl

theorem identFrame_setPort (n state reason : Nat) (x : Trace o) : identFrame (setPort n state reason x).2.1 n = identFrame x.1 n := by
  simp only [identFrame, ownLoc, ownFa, setPort_rd (f := R.RST_STRAP.LOC) _ rfl (by decide) rfl, setPort_rd (f := R.FZ_SELF.FA) _ rfl (by decide) rfl,
    setPort_rd (f := R.FZ_SELF.GEN) _ rfl (by decide) rfl]

/-- A trained port shows itself to the far end. -/
theorem linkTrained_run {x : Trace o} {y : Trace o} (hy : y = (sendIdent n (setPort n PS.IDENT PR.NONE x).2).2) :
    y.1.rd (R.FZ_PORT_STAT.STATE n) = PS.IDENT ∧ y.1.rd (R.FZ_PORT_STAT.REASON n) = PR.NONE ∧ Sent x.1 y.1 (identFrame x.1 n) := by
  subst hy
  rw [sendIdent_run, identFrame_setPort]
  exact ⟨(send_rd ..).trans (setPort_state (by decide) ..), (send_rd ..).trans (setPort_reason (by decide) ..),
    (send_sent ..).of_later ((setPort_in ..).via x).reach⟩

theorem linkTrained_ident (hn : n < 36) (htrain : s.rd (R.FZ_PORT_STAT.STATE n) = PS.TRAINING) (hlive : portsLive s = true)
    (hcompare : s.rd R.FZ_VERIFY_CFG.IDENT_EN = 1) : Does (.linkTrained n) s fun t => t.rd (R.FZ_PORT_STAT.STATE n) = PS.IDENT ∧
      t.rd (R.FZ_PORT_STAT.REASON n) = PR.NONE ∧ Sent s t (identFrame s n) := by
  refine does_run rfl (decide_eq_true hn) ?_
  have hskip : decide (s.rd R.FZ_VERIFY_CFG.IDENT_EN = 0) = false := by rw [hcompare]; rfl
  simp only [M.bind_run, st_run, htrain, hlive, and_self, if_true, when_off hskip]
  exact linkTrained_run rfl

theorem afterIdent_free {x : Trace o} (hused : idleSpare x.1 n = false) (hfree : testWanted x.1 n = false) :
    afterIdent n x = setPort n PS.UP PR.NONE x := by
  rw [afterIdent, M.bind_run, st_run, hused, hfree, if_neg Bool.false_ne_true, if_neg Bool.false_ne_true]

/-- Neither its map nor the tests that it wants depend on a port's state. -/
theorem wanted_setPort (n state reason : Nat) (x : Trace o) : idleSpare (setPort n state reason x).2.1 n = idleSpare x.1 n ∧
    testWanted (setPort n state reason x).2.1 n = testWanted x.1 n := by
  have hdue := setPort_port (f := PortSt.testDue) (fun _ => rfl) n state reason x
  have hagreed := setPort_port (f := PortSt.agreed) (fun _ => rfl) n state reason x
  simp only [idleSpare, testWanted, setPort_rd (f := R.FZ_PORT_MAP.USED n) .FZ_PORT_MAP rfl (by decide) rfl,
    setPort_rd (f := R.FZ_PORT_MAP.SUBST n) .FZ_PORT_MAP rfl (by decide) rfl, setPort_rd (f := R.FZ_VERIFY_CFG.BER_BOOT) _ rfl (by decide) rfl,
    hdue, hagreed, and_self]

theorem wanted_sendIdent (n : Nat) (x : Trace o) : idleSpare (sendIdent n x).2.1 n = idleSpare x.1 n ∧
    testWanted (sendIdent n x).2.1 n = testWanted x.1 n := by
  simp only [sendIdent_run, idleSpare, testWanted, send_rd, send_fab, and_self]

theorem linkTrained_up (hn : n < 36) (htrain : s.rd (R.FZ_PORT_STAT.STATE n) = PS.TRAINING) (hlive : portsLive s = true)
    (hcompare : s.rd R.FZ_VERIFY_CFG.IDENT_EN = 0) (hused : idleSpare s n = false) (hfree : testWanted s n = false) :
    Does (.linkTrained n) s fun t => t.rd (R.FZ_PORT_STAT.STATE n) = PS.UP ∧ Sent s t (identFrame s n) := by
  refine does_run rfl (decide_eq_true hn) ?_
  have hgo : decide (s.rd R.FZ_VERIFY_CFG.IDENT_EN = 0) = true := decide_eq_true hcompare
  obtain ⟨hstill, hstillFree⟩ := wanted_setPort n PS.IDENT PR.NONE ⟨s, Reach.refl⟩
  obtain ⟨-, -, hsent⟩ := linkTrained_run (n := n) (x := ⟨s, Reach.refl⟩) rfl
  simp only [M.bind_run, st_run, htrain, hlive, and_self, if_true, when_on hgo]
  rw [afterIdent_free ((wanted_sendIdent ..).1.trans (hstill.trans hused)) ((wanted_sendIdent ..).2.trans (hstillFree.trans hfree))]
  exact ⟨setPort_state (by decide) .., hsent.of_earlier ((setPort_in ..).via _).reach⟩

section Ident

variable {loc port : Nat}

/-- What an IDENT frame shows of the far end. -/
def farShown (n loc port : Nat) (s : State) : State :=
  putAll [(R.FZ_PORT_FAR.VALID n, 1), (R.FZ_PORT_FAR.PORT n, port), (R.FZ_PORT_FAR.LOC n, loc)] s

theorem farShown_far (hloc : loc < 2 ^ 19) (hport : port < 64) (s : State) : (farShown n loc port s).rd (R.FZ_PORT_FAR.VALID n) = 1 ∧
    (farShown n loc port s).rd (R.FZ_PORT_FAR.LOC n) = loc ∧ (farShown n loc port s).rd (R.FZ_PORT_FAR.PORT n) = port := by
  have hl : loc % 2 ^ 19 = loc := Nat.mod_eq_of_lt hloc
  have hp : port % 2 ^ 6 = port := Nat.mod_eq_of_lt hport
  have hone : 1 % 2 ^ 1 = 1 := rfl
  simp (disch := decide) only [farShown, putAll, List.foldl, rd_reg_apart, rd_reg_same, hl, hp, hone, and_self]

theorem farShown_elsewhere {f : Fld} (hf : f.k ≠ .FZ_PORT_FAR) (s : State) : (farShown n loc port s).rd f = s.rd f := by
  simp only [farShown, putAll, List.foldl]
  rw [rd_reg_kind _ _ _ _ hf, rd_reg_kind _ _ _ _ hf, rd_reg_kind _ _ _ _ hf]

theorem farShown_fab (s : State) : (farShown n loc port s).fab = s.fab := putAll_keeps (fun _ _ _ => rfl) _ s

theorem ident_run (hn : n < 36) (hident : s.rd (R.FZ_PORT_STAT.STATE n) = PS.IDENT)
    (hcompare : s.rd R.FZ_VERIFY_CFG.IDENT_EN = 1) {E : State → Prop}
    (hE : ∀ x : Trace s, x.1 = farShown n loc port s → E ((if s.rd (R.FZ_PORT_MAP.USED n) = 0 then do
        portCheck n PR.EXTRA
        setPort n PS.HELD PR.EXTRA
      else if s.rd (R.FZ_PORT_MAP.FAR_LOC n) = loc ∧ s.rd (R.FZ_PORT_MAP.FAR_PORT n) = port ∧ loc ≠ ownLoc s then afterIdent n
      else do
        portCheck n PR.MISMATCH
        setPort n PS.HELD PR.MISMATCH : M s Unit) x).2.1) : Does (.ident n loc port) s E := by
  refine does_run rfl (decide_eq_true hn) ?_
  have hopen : ¬ (PS.IDENT = PS.DISABLED ∨ PS.IDENT = PS.TRAINING ∨ PS.IDENT = PS.DOWN) := by decide
  have hone : ¬ (1 : Nat) = 0 := by decide
  simp only [M.bind_run, st_run, hident, if_neg hopen, hcompare, hone, and_false, if_false, if_true, wrs_run]
  exact hE _ rfl

/-- A port whose far end is not the one that its map names is held. -/
theorem held_run {x : Trace o} {reason : Nat} (h : reason < 16) {t : State} (ht : t = (setPort n PS.HELD reason (portCheck n reason x).2).2.1) :
    t.rd (R.FZ_PORT_STAT.STATE n) = PS.HELD ∧ t.rd (R.FZ_PORT_STAT.REASON n) = reason := by
  subst ht
  exact ⟨setPort_state (by decide) .., setPort_reason h ..⟩

theorem ident_match (hn : n < 36) (hident : s.rd (R.FZ_PORT_STAT.STATE n) = PS.IDENT) (hcompare : s.rd R.FZ_VERIFY_CFG.IDENT_EN = 1)
    (hmap : s.rd (R.FZ_PORT_MAP.USED n) = 1) (hfarLoc : s.rd (R.FZ_PORT_MAP.FAR_LOC n) = loc) (hfarPort : s.rd (R.FZ_PORT_MAP.FAR_PORT n) = port)
    (hown : loc ≠ ownLoc s) (hused : idleSpare s n = false) :
    Does (.ident n loc port) s fun t => t.rd (R.FZ_PORT_STAT.STATE n) = (if testWanted s n then PS.TEST else PS.UP) ∧
      (testWanted s n = true → (portAt t n).starter = decide (ownLoc s < loc)) ∧ t.rd (R.FZ_PORT_FAR.VALID n) = 1 ∧
      t.rd (R.FZ_PORT_FAR.LOC n) = loc ∧ t.rd (R.FZ_PORT_FAR.PORT n) = port := by
  have hloc : loc < 2 ^ 19 := hfarLoc ▸ rd_lt ..
  have hport : port < 64 := hfarPort ▸ rd_lt ..
  refine ident_run hn hident hcompare fun x hx => ?_
  obtain ⟨hvalid, hfarIs, hportIs⟩ := farShown_far (n := n) hloc hport s
  have hidle : idleSpare x.1 n = idleSpare s n := by
    rw [hx, idleSpare, idleSpare, farShown_elsewhere (by simp), farShown_elsewhere (by simp)]
  have hwanted : testWanted x.1 n = testWanted s n := by
    simp only [hx, testWanted, farShown_elsewhere (f := R.FZ_VERIFY_CFG.BER_BOOT) (by decide), farShown_fab]
  have hownLoc : ownLoc x.1 = ownLoc s := by rw [hx, ownLoc, ownLoc, farShown_elsewhere (by simp)]
  have hone : ¬ (1 : Nat) = 0 := by decide
  simp only [hmap, hone, if_false, hfarLoc, hfarPort, hown, ne_eq, not_false_eq_true, and_self, if_true]
  obtain ⟨hstate, hstarter, hfar⟩ := afterIdent_run (x := x) (hidle.trans hused) (by rw [hx, hvalid]) rfl
  rw [hwanted] at hstate hstarter
  rw [hownLoc, hx, hfarIs] at hstarter
  refine ⟨hstate, hstarter, (hfar _ rfl).trans ?_, (hfar _ rfl).trans ?_, (hfar _ rfl).trans ?_⟩
  · rw [hx, hvalid]
  · rw [hx, hfarIs]
  · rw [hx, hportIs]

theorem ident_mismatch (hn : n < 36) (hident : s.rd (R.FZ_PORT_STAT.STATE n) = PS.IDENT)
    (hcompare : s.rd R.FZ_VERIFY_CFG.IDENT_EN = 1) (hmap : s.rd (R.FZ_PORT_MAP.USED n) = 1)
    (hother : s.rd (R.FZ_PORT_MAP.FAR_LOC n) ≠ loc ∨ s.rd (R.FZ_PORT_MAP.FAR_PORT n) ≠ port ∨ loc = ownLoc s) :
    Does (.ident n loc port) s fun t => t.rd (R.FZ_PORT_STAT.STATE n) = PS.HELD ∧ t.rd (R.FZ_PORT_STAT.REASON n) = PR.MISMATCH := by
  refine ident_run hn hident hcompare fun x _ => ?_
  have hone : ¬ (1 : Nat) = 0 := by decide
  have hno : ¬ (s.rd (R.FZ_PORT_MAP.FAR_LOC n) = loc ∧ s.rd (R.FZ_PORT_MAP.FAR_PORT n) = port ∧ loc ≠ ownLoc s) :=
    fun ⟨hl, hp, how⟩ => hother.elim (· hl) fun h => h.elim (· hp) how
  simp only [hmap, hone, if_false, if_neg hno, M.bind_run]
  exact held_run (by decide) rfl

theorem ident_extra (hn : n < 36) (hident : s.rd (R.FZ_PORT_STAT.STATE n) = PS.IDENT)
    (hcompare : s.rd R.FZ_VERIFY_CFG.IDENT_EN = 1) (hmap : s.rd (R.FZ_PORT_MAP.USED n) = 0) :
    Does (.ident n loc port) s fun t => t.rd (R.FZ_PORT_STAT.STATE n) = PS.HELD ∧ t.rd (R.FZ_PORT_STAT.REASON n) = PR.EXTRA := by
  refine ident_run hn hident hcompare fun x _ => ?_
  simp only [hmap, if_true, M.bind_run]
  exact held_run (by decide) rfl

end Ident

/-! Frames at intervals. -/

/-- A port whose far end has not shown itself: excluded where the map uses it, disabled where it does not. -/
def identLost (n used : Nat) : M o Unit :=
  if used = 1 then do
    portCheck n PR.MISSING
    setPort n PS.EXCLUDED PR.MISSING
  else setPort n PS.DISABLED PR.NONE

theorem identLost_run (n used : Nat) (x : Trace o) : (identLost n used x).2.1.clk.mono = x.1.clk.mono ∧ if used = 1 then
      (identLost n used x).2.1.rd (R.FZ_PORT_STAT.STATE n) = PS.EXCLUDED ∧ (identLost n used x).2.1.rd (R.FZ_PORT_STAT.REASON n) = PR.MISSING
    else (identLost n used x).2.1.rd (R.FZ_PORT_STAT.STATE n) = PS.DISABLED ∧ (identLost n used x).2.1.rd (R.FZ_PORT_STAT.REASON n) = PR.NONE := by
  by_cases hused : used = 1
  · simp only [identLost, if_pos hused, M.bind_run]
    refine ⟨?_, setPort_state (by decide) .., setPort_reason (by decide) ..⟩
    rw [setPort_mono, ((portCheck_in ..).via x).clkMono rfl]
  · simp only [identLost, if_neg hused]
    exact ⟨setPort_mono .., setPort_state (by decide) .., setPort_reason (by decide) ..⟩

theorem identTimeout_does (hn : n < 36) (hwait : s.rd (R.FZ_PORT_STAT.STATE n) = PS.TRAINING ∨
      (s.rd (R.FZ_PORT_STAT.STATE n) = PS.IDENT ∧ s.rd R.FZ_VERIFY_CFG.IDENT_EN = 1 ∧ s.rd (R.FZ_PORT_FAR.VALID n) = 0)) :
    Does (.identTimeout n) s fun t =>
      (s.rd (R.FZ_PORT_STAT.STATE n) = PS.IDENT → tget 0 s.clk.seen (K.portUp n) + 10000000 ≤ t.clk.mono) ∧ if s.rd (R.FZ_PORT_MAP.USED n) = 1 then
        t.rd (R.FZ_PORT_STAT.STATE n) = PS.EXCLUDED ∧ t.rd (R.FZ_PORT_STAT.REASON n) = PR.MISSING
      else t.rd (R.FZ_PORT_STAT.STATE n) = PS.DISABLED ∧ t.rd (R.FZ_PORT_STAT.REASON n) = PR.NONE := by
  refine does_run rfl (decide_eq_true hn) ?_
  simp only [M.bind_run, st_run, if_pos hwait]
  by_cases hident : s.rd (R.FZ_PORT_STAT.STATE n) = PS.IDENT
  · simp only [if_pos hident, M.bind_run, seenAt_run, advTo_run]
    obtain ⟨hmono, hends⟩ := identLost_run n (s.rd (R.FZ_PORT_MAP.USED n))
      ⟨apply (.pass (tget 0 s.clk.seen (K.portUp n) + 10000000 - s.clk.mono)) s, Reach.step Reach.refl _⟩
    rw [mono_until] at hmono
    exact ⟨fun _ => (le_max_right ..).trans_eq hmono.symm, hends⟩
  · simp only [if_neg hident, M.pure_run]
    exact ⟨fun h => absurd h hident, (identLost_run n (s.rd (R.FZ_PORT_MAP.USED n)) ⟨s, Reach.refl⟩).2⟩

theorem identRepeat_does (hn : n < 36) (hwait : s.rd (R.FZ_PORT_STAT.STATE n) = PS.IDENT ∨ s.rd (R.FZ_PORT_STAT.STATE n) = PS.UP)
    (hfar : s.rd (R.FZ_PORT_FAR.VALID n) = 0) :
    Does (.identRepeat n) s fun t => t.clk.mono = s.clk.mono + 1000000 ∧ t.out = s.out ++ [identFrame s n] := by
  refine does_run rfl (decide_eq_true hn) ?_
  simp only [M.bind_run, st_run, if_pos (And.intro hwait hfar), eff_run, sendIdent_run, send_run, identFrame, ownLoc, ownFa, apply_pass, apply_out,
    and_self]

theorem keepaliveSend_does (hn : n < 36) (hlive : s.rd (R.FZ_PORT_STAT.STATE n) = PS.UP ∨ s.rd (R.FZ_PORT_STAT.STATE n) = PS.IDENT ∨
      s.rd (R.FZ_PORT_STAT.STATE n) = PS.HELD) :
    Does (.keepaliveSend n) s fun t => t.clk.mono = s.clk.mono + 2000 ∧ t.out = s.out ++ [.linkFrame n LK.KEEPALIVE []] := by
  refine does_run rfl (decide_eq_true hn) ?_
  simp only [M.bind_run, rd_run, if_pos hlive, eff_run, send_run, apply_pass, apply_out, and_self]

/-! Loss of a port. -/

/-- A change of state leaves the other fields of the port's status. -/
theorem setPort_downs (n state reason : Nat) (x : Trace o) :
    (setPort n state reason x).2.1.rd (R.FZ_PORT_STAT.DOWNS n) = x.1.rd (R.FZ_PORT_STAT.DOWNS n) := by
  rw [(setPort_via n state reason x).rdKind .FZ_PORT_STAT rfl rfl rfl]
  simp (disch := decide) only [portShown, rd_reg_apart]

/-- What a loss notes before the port leaves its state. -/
def lossNoted (n reason : Nat) (s : State) : M o Unit := do
  incSat (R.FZ_PORT_STAT.DOWNS n)
  upPort n fun x => { x with downs := (x.downs.filter fun t => decide (s.clk.mono < t + 60000000000)) ++ [s.clk.mono] }
  ev E.FZ_PORT_DOWN SK.hw 0 [I.VALUE n, I.REASON reason]

theorem incSat_plain {f : Fld} (hf : f.plain = true) (x : Trace o) : (incSat f x).2.1.rd f = min (x.1.rd f + 1) (2 ^ f.w - 1) := by
  have hlt := rd_lt x.1 f
  rw [incSat, M.bind_run, rd_run]
  by_cases hroom : x.1.rd f + 1 < 2 ^ f.w
  · simp only [if_pos hroom, wr_run]
    rw [rd_self _ _ _ hf, Nat.mod_eq_of_lt hroom]
    omega
  · simp only [if_neg hroom, M.pure_run]
    omega

theorem downs_plain : (R.FZ_PORT_STAT.DOWNS n).plain = true := by
  change (R.FZ_PORT_STAT.DOWNS 0).plain = true
  decide

theorem lossNoted_downs (n reason : Nat) (s : State) (x : Trace o) : (lossNoted n reason s x).2.1.rd (R.FZ_PORT_STAT.DOWNS n) =
    min (x.1.rd (R.FZ_PORT_STAT.DOWNS n) + 1) (2 ^ (R.FZ_PORT_STAT.DOWNS n).w - 1) := by
  rw [lossNoted, M.bind_run, M.bind_run, ((ev_in ..).via _).rdKind .FZ_PORT_STAT rfl rfl rfl, upPort_rd, incSat_plain downs_plain]

/-- A port that is lost goes DOWN, or is held where it is the third loss within 60 s (R214). -/
theorem losePort_run {reason : Nat} (hreason : reason < 16) {x : Trace o}
    (hlive : x.1.rd (R.FZ_PORT_STAT.STATE n) = PS.UP ∨ x.1.rd (R.FZ_PORT_STAT.STATE n) = PS.TEST) {t : State} (ht : t = (losePort n reason x).2.1) :
    (t.rd (R.FZ_PORT_STAT.STATE n), t.rd (R.FZ_PORT_STAT.REASON n)) = (if thirdDown x.1 n then (PS.HELD, PR.FLAP) else (PS.DOWN, reason)) ∧
      t.rd (R.FZ_PORT_STAT.DOWNS n) = min (x.1.rd (R.FZ_PORT_STAT.DOWNS n) + 1) (2 ^ (R.FZ_PORT_STAT.DOWNS n).w - 1) := by
  subst ht
  have hdowns := lossNoted_downs n reason x.1 x
  have hrun : (losePort n reason x).2 =
      (when_ (thirdDown x.1 n) (setPort n PS.HELD PR.FLAP) (setPort n PS.DOWN reason (lossNoted n reason x.1 x).2).2).2 := by
    simp only [losePort, lossNoted, M.bind_run, st_run, if_pos hlive]
  rw [hrun]
  cases hthird : thirdDown x.1 n
  · rw [when_off rfl, setPort_state (by decide), setPort_reason hreason, setPort_downs]
    exact ⟨rfl, hdowns⟩
  · rw [when_on rfl, setPort_state (by decide), setPort_reason (by decide), setPort_downs, setPort_downs]
    exact ⟨rfl, hdowns⟩

theorem portDown_does {why : Nat} (hn : n < 36) (hlive : s.rd (R.FZ_PORT_STAT.STATE n) = PS.UP ∨ s.rd (R.FZ_PORT_STAT.STATE n) = PS.TEST) :
    Does (.portDown n why) s fun t => (t.rd (R.FZ_PORT_STAT.STATE n), t.rd (R.FZ_PORT_STAT.REASON n)) =
        (if thirdDown s n then (PS.HELD, PR.FLAP) else (PS.DOWN, if why = PR.FEC then PR.FEC else PR.LOS)) ∧
      t.rd (R.FZ_PORT_STAT.DOWNS n) = min (s.rd (R.FZ_PORT_STAT.DOWNS n) + 1) (2 ^ (R.FZ_PORT_STAT.DOWNS n).w - 1) := by
  refine does_run rfl (decide_eq_true hn) (losePort_run (x := ⟨s, Reach.refl⟩) ?_ hlive rfl)
  split <;> decide

theorem flitTimeout_does (hn : n < 36) (hup : s.rd (R.FZ_PORT_STAT.STATE n) = PS.UP) :
    Does (.flitTimeout n) s fun t => (t.rd (R.FZ_PORT_STAT.STATE n), t.rd (R.FZ_PORT_STAT.REASON n)) =
      (if thirdDown s n then (PS.HELD, PR.FLAP) else (PS.DOWN, PR.KEEPALIVE)) :=
  does_run rfl (decide_eq_true hn) (losePort_run (x := ⟨s, Reach.refl⟩) (by decide) (.inl hup) rfl).1

/-- The codewords have been counted; above 1,000 the port is lost (R213). -/
theorem fecLost {cnt v : Nat} {x : Trace o} (hx : x.1 = apply (.reg (R.FZ_PORT_CNTk.COUNT n 3) v) s) (hv : v % 2 ^ 32 = v)
    (hup : s.rd (R.FZ_PORT_STAT.STATE n) = PS.UP) {t : State} (ht : t = ((if 1000 < cnt then losePort n PR.FEC else pure () : M o Unit) x).2.1) :
    t.rd (R.FZ_PORT_CNTk.COUNT n 3) = v ∧ (if 1000 < cnt then (t.rd (R.FZ_PORT_STAT.STATE n), t.rd (R.FZ_PORT_STAT.REASON n)) =
        (if thirdDown s n then (PS.HELD, PR.FLAP) else (PS.DOWN, PR.FEC)) else t.rd (R.FZ_PORT_STAT.STATE n) = PS.UP) := by
  have hcount : x.1.rd (R.FZ_PORT_CNTk.COUNT n 3) = v := by
    rw [hx]
    simp (disch := decide) only [rd_reg_same, hv]
  have hstate : x.1.rd (R.FZ_PORT_STAT.STATE n) = PS.UP := by
    rw [hx, rd_reg_kind _ _ _ _ (by simp), hup]
  have hthird : thirdDown x.1 n = thirdDown s n := by
    simp only [hx, thirdDown, apply_reg]
  by_cases hmany : 1000 < cnt
  · simp only [if_pos hmany] at ht ⊢
    obtain ⟨hends, -⟩ := losePort_run (by decide) (.inl hstate) ht
    rw [hthird] at hends
    refine ⟨?_, hends⟩
    rw [ht, ((losePort_in ..).via x).rdKind .FZ_PORT_CNTk rfl rfl rfl, hcount]
  · simp only [if_neg hmany] at ht ⊢
    rw [ht]
    exact ⟨hcount, hstate⟩

theorem fecErrorLimit_does {cnt : Nat} (hn : n < 36) (hup : s.rd (R.FZ_PORT_STAT.STATE n) = PS.UP) :
    Does (.fecErrorLimit n cnt) s fun t => t.rd (R.FZ_PORT_CNTk.COUNT n 3) = min (2 ^ 32 - 1) (s.rd (R.FZ_PORT_CNTk.COUNT n 3) + cnt) ∧
      (if 1000 < cnt then (t.rd (R.FZ_PORT_STAT.STATE n), t.rd (R.FZ_PORT_STAT.REASON n)) =
        (if thirdDown s n then (PS.HELD, PR.FLAP) else (PS.DOWN, PR.FEC)) else t.rd (R.FZ_PORT_STAT.STATE n) = PS.UP) := by
  refine does_run rfl (decide_eq_true hn) ?_
  generalize hv : min (2 ^ 32 - 1) (s.rd (R.FZ_PORT_CNTk.COUNT n 3) + cnt) = v
  have hfits : v % 2 ^ 32 = v := Nat.mod_eq_of_lt (by omega)
  have hcount : (addSat (R.FZ_PORT_CNTk.COUNT n 3) cnt ⟨s, Reach.refl⟩).2.1 = apply (.reg (R.FZ_PORT_CNTk.COUNT n 3) v) s := by
    rw [← hv]
    simp only [addSat, M.bind_run, rd_run, wr_run]
  rw [M.bind_run]
  exact fecLost (x := (addSat (R.FZ_PORT_CNTk.COUNT n 3) cnt ⟨s, Reach.refl⟩).2) hcount hfits hup rfl

/-! Training again, and the state of far ports. -/

theorem startTraining_run {x : Trace o} {t : State} (ht : t = (startTraining n x).2.1) : t.rd (R.FZ_PORT_STAT.STATE n) = PS.TRAINING ∧
    t.rd (R.FZ_PORT_STAT.REASON n) = PR.NONE ∧ t.rd (R.FZ_PORT_FAR.VALID n) = 0 ∧ t.clk.mono = x.1.clk.mono := by
  subst ht
  simp only [startTraining, M.bind_run]
  refine ⟨setPort_state (by decide) .., setPort_reason (by decide) .., ?_, ?_⟩
  · rw [setPort_rd .FZ_PORT_FAR rfl (by decide) rfl, upPort_rd, wr_run]
    simp (disch := decide) only [rd_reg_same, Nat.zero_mod]
  · rw [setPort_mono, upPort_mono, wr_run]
    simp only [apply_reg]

theorem retrain_does (hn : n < 36) (hdown : s.rd (R.FZ_PORT_STAT.STATE n) = PS.DOWN) :
    Does (.retrain n) s fun t => t.clk.mono = max s.clk.mono (tget 0 s.clk.seen (K.portUp n) + 100000000) ∧
      t.rd (R.FZ_PORT_STAT.STATE n) = PS.TRAINING ∧ t.rd (R.FZ_PORT_STAT.REASON n) = PR.NONE ∧ t.rd (R.FZ_PORT_FAR.VALID n) = 0 := by
  refine does_run rfl (decide_eq_true hn) ?_
  simp only [M.bind_run, rd_run, hdown, ne_eq, not_true_eq_false, if_false, seenAt_run, advTo_run]
  obtain ⟨hstate, hreason, hfar, hmono⟩ := startTraining_run (n := n)
    (x := ⟨apply (.pass (tget 0 s.clk.seen (K.portUp n) + 100000000 - s.clk.mono)) s, Reach.step Reach.refl _⟩) rfl
  exact ⟨hmono.trans (mono_until ..), hstate, hreason, hfar⟩

theorem portState_does {fa gen m port : Nat} {up : Bool} (hok : genOk s fa gen = true) (hwf : (Instr.portState fa gen m port up).wf = true) :
    Does (.portState fa gen m port up) s fun t => t.fab = { s.fab with
      down := if up then (s.fab.down.filter (· ≠ 36 * m + port)) else s.fab.down.filter (· ≠ 36 * m + port) ++ [36 * m + port] } := by
  refine does_run rfl hwf ?_
  rw [fromPeer_run (x := ⟨s, Reach.refl⟩) hok]
  simp only [eff_run, apply_fab]

/-- Settles O46: each command moves the port from the state that it finds it in. -/
theorem portCommandsComplete : Obligations.PortCommandsComplete := by
  refine ⟨fun s n hn htrain hlive hcompare => linkTrained_ident hn htrain hlive hcompare,
    fun s n hn htrain hlive hcompare hused hfree => linkTrained_up hn htrain hlive hcompare hused hfree,
    fun s n loc port hn hident hcompare hmap hloc hport hown hused => ident_match hn hident hcompare hmap hloc hport hown hused,
    fun s n loc port hn hident hcompare hmap hother => ident_mismatch hn hident hcompare hmap hother,
    fun s n loc port hn _ _ hident hcompare hmap => ident_extra hn hident hcompare hmap,
    fun s n hn hwait => identTimeout_does hn hwait,
    fun s n hn hwait hfar => identRepeat_does hn hwait hfar,
    fun s n hn hlive => keepaliveSend_does hn hlive,
    fun s n why hn hlive => portDown_does hn hlive,
    fun s n cnt hn hup => fecErrorLimit_does hn hup,
    fun s n hn hup => flitTimeout_does hn hup,
    fun s n hn hdown => retrain_does hn hdown,
    fun s fa gen m port up hfa hgen hm hport hok => portState_does hok ?_⟩
  simp [Instr.wf, hm, hport]

end Sys2Proof.Machine
end

section
/-!
PROOFS. Configuration banks, membership and fabric time (R218 to R224, R250 to R258).
-/

set_option Elab.async false

namespace Sys2Proof.Machine

variable {o s : State}

/-- An action that begins by reading the state goes on as what it reads says. -/
theorem st_bind {β : Type} (f : State → M o β) (x : Trace o) : (st >>= f) x = f x.1 x := id rfl

/-! Directory updates. -/

/-- Cleaning an entry keeps its kind (Table 06-7). -/
theorem fget_entClean {x : BitVec 64} {i : Nat} (hi : 32 ≤ i) : fget (entClean x).toNat i 1 = fget x.toNat i 1 := by
  have hbit : ∀ (m : BitVec 64), m.toNat < 2 ^ 32 → fget (x &&& ~~~m).toNat i 1 = fget x.toNat i 1 := by
    intro m hm
    refine Nat.eq_of_testBit_eq fun j => ?_
    rw [testBit_fget, testBit_fget]
    by_cases hj : j < 1
    · have hmj : m.getLsbD (i + j) = false := Nat.testBit_lt_two_pow (hm.trans_le (Nat.pow_le_pow_right (by decide) (by omega)))
      have hand : (x &&& ~~~m).toNat.testBit (i + j) = x.toNat.testBit (i + j) := by
        change (x &&& ~~~m).getLsbD (i + j) = x.getLsbD (i + j)
        rw [BitVec.getLsbD_and, BitVec.getLsbD_not, hmj]
        by_cases h64 : i + j < 64
        · simp [h64]
        · simp [h64, BitVec.getLsbD_of_ge x (i + j) (by omega)]
      rw [hand]
    · simp [hj]
  unfold entClean
  split
  · rfl
  split
  · exact hbit _ (by decide)
  · exact hbit _ (by decide)

theorem entGrp_entClean (x : BitVec 64) : entGrp (entClean x).toNat = entGrp x.toNat := by
  rw [entGrp, entGrp, fget_entClean (by decide), fget_entClean (by decide)]

theorem bankOf_upBank_self {e : Nat} (f : Bank → Bank) (x : Trace o) : bankOf (upBank e f x).2.1 e = f (bankOf x.1 e) := by
  simp only [upBank, eff_run, bankOf, apply_fab]
  split <;> rfl

theorem bankOf_upBank_other {e d : Nat} (h : (e = 0) ≠ (d = 0)) (f : Bank → Bank) (x : Trace o) : bankOf (upBank e f x).2.1 d = bankOf x.1 d := by
  simp only [upBank, eff_run, bankOf, apply_fab]
  by_cases he : e = 0 <;> by_cases hd : d = 0 <;> simp_all

/-- Half an entry of a member that is no group is written to the inactive bank (R219). -/
theorem tablePut_entry {x : Trace o} {f : Nat} {hi : Bool} {v : BitVec 32} (hf : f < 2 ^ 20) (hopen : x.1.rd R.FZ_BANK_STAT.HOLD = 0)
    (hgroup : entGrp (setWord (tget 0 (bankOf x.1 (1 - activeEpoch x.1)).dir f) hi v).toNat = false) :
    (tablePut (0x600000 + 8 * f + (if hi then 4 else 0)) v x).2.1 = apply (.reg R.FZ_BANK_STAT.READY 0)
      (upBank (1 - activeEpoch x.1) (fun b => { b with
        dir := tset 0 b.dir f (entClean (setWord (tget 0 (bankOf x.1 (1 - activeEpoch x.1)).dir f) hi v)) }) x).2.1 := by
  have hfa : (0x600000 + 8 * f + (if hi then 4 else 0) - 0x600000) / 8 % 2 ^ 20 = f := by
    split <;> omega
  have hhalf : ((0x600000 + 8 * f + if hi = true then 4 else 0) % 8 == 4) = hi := by
    cases hi
    · simp only [Bool.false_eq_true, if_false, beq_eq_false_iff_ne]
      omega
    · simp only [if_true, beq_iff_eq]
      omega
  have hdir : 0x600000 ≤ 0x600000 + 8 * f + (if hi then 4 else 0) := by omega
  have hnotHeld : ¬ (0 : Nat) = 1 := by decide
  have hmember := entGrp_entClean (setWord (tget 0 (bankOf x.1 (1 - activeEpoch x.1)).dir f) hi v)
  rw [hgroup] at hmember
  simp only [tablePut, M.bind_run, st_run, hopen, if_neg hnotHeld, if_pos hdir, hfa, hhalf, hmember, Bool.false_eq_true, false_and, if_false, M.pure_snd,
    wr_run]

section Update

variable {fa gen : Nat}

/-- A member that a manager of the current generation updates by one word. -/
theorem dirUpdate_run {a : Nat} {v : BitVec 32} (hgen : genOk s fa gen = true) (hmgr : entMgr (dirEnt s (activeEpoch s) fa) = true)
    (hself : s.rd R.FZ_SELF.VALID = 0) {E : State → Prop}
    (hE : ∀ t, Via FP.evRaw (tablePut a v ⟨s, Reach.refl⟩).2.1 t → E t) : Does (.dirUpdate fa gen [(a, v)]) s E := by
  refine does_run rfl rfl ?_
  simp only [M.bind_run, st_run, hgen, hmgr, Bool.not_true, Bool.false_eq_true, if_false, dirWords]
  have hput : (tablePut a v ⟨s, Reach.refl⟩).2.1.rd R.FZ_SELF.VALID = 0 := by rw [((tablePut_in ..).via _).rd _ rfl rfl, hself]
  have hvia := fun c => (dirRun_in (o := s) fa c).via (tablePut a v ⟨s, Reach.refl⟩).2
  have hlost : ∀ c, ¬ ((dirRun fa c (tablePut a v ⟨s, Reach.refl⟩).2).2.1.rd R.FZ_SELF.VALID = 1 ∧
      selfNewer (dirRun fa c (tablePut a v ⟨s, Reach.refl⟩).2).2.1 (1 - activeEpoch (dirRun fa c (tablePut a v ⟨s, Reach.refl⟩).2).2.1)
        (ownFa (dirRun fa c (tablePut a v ⟨s, Reach.refl⟩).2).2.1)
        ((dirRun fa c (tablePut a v ⟨s, Reach.refl⟩).2).2.1.rd R.FZ_SELF.GEN) = true) := by
    rintro c ⟨hvalid, -⟩
    rw [(hvia c).rd _ rfl rfl, hput] at hvalid
    cases hvalid
  simp only [if_neg (hlost _), M.pure_snd]
  exact hE _ (hvia _)

theorem dirUpdate_entry {f : Nat} {hi : Bool} {v : BitVec 32} (hgen : genOk s fa gen = true) (hmgr : entMgr (dirEnt s (activeEpoch s) fa) = true)
    (hf : f < 2 ^ 20) (hopen : s.rd R.FZ_BANK_STAT.HOLD = 0) (hself : s.rd R.FZ_SELF.VALID = 0)
    (hgroup : entGrp (setWord (tget 0 (bankOf s (1 - activeEpoch s)).dir f) hi v).toNat = false) :
    Does (.dirUpdate fa gen [(0x600000 + 8 * f + (if hi then 4 else 0), v)]) s fun t =>
      let b := bankOf s (1 - activeEpoch s)
      bankOf t (1 - activeEpoch s) = { b with dir := tset 0 b.dir f (entClean (setWord (tget 0 b.dir f) hi v)) } ∧
      bankOf t (activeEpoch s) = bankOf s (activeEpoch s) ∧ t.rd R.FZ_BANK_STAT.READY = 0 := by
  refine dirUpdate_run hgen hmgr hself fun t hvia => ?_
  have hfab : ∀ e, bankOf t e = bankOf (tablePut (0x600000 + 8 * f + (if hi then 4 else 0)) v ⟨s, Reach.refl⟩).2.1 e := fun e => by
    rw [bankOf, bankOf, hvia.fab rfl]
  have hepoch : activeEpoch s < 2 := rd_lt s R.FZ_BANK_STAT.ACTIVE
  have hput := tablePut_entry (x := ⟨s, Reach.refl⟩) hf hopen hgroup
  have hreg : ∀ u e, bankOf (apply (.reg R.FZ_BANK_STAT.READY 0) u) e = bankOf u e := fun u e => by simp only [bankOf, apply_reg]
  refine ⟨?_, ?_, ?_⟩
  · rw [hfab, hput, hreg, bankOf_upBank_self]
  · rw [hfab, hput, hreg, bankOf_upBank_other (by simp only [ne_eq, eq_iff_iff]; omega)]
  · rw [hvia.rd _ rfl rfl, hput, rd_self _ _ _ (by decide)]
    rfl

theorem dirUpdate_held {a : Nat} {v : BitVec 32} (hgen : genOk s fa gen = true) (hmgr : entMgr (dirEnt s (activeEpoch s) fa) = true)
    (hheld : s.rd R.FZ_BANK_STAT.HOLD = 1) (hself : s.rd R.FZ_SELF.VALID = 0) :
    Does (.dirUpdate fa gen [(a, v)]) s fun t => t.fab = s.fab ∧ t.rd R.FZ_BANK_STAT.REFUSED = 1 := by
  refine dirUpdate_run hgen hmgr hself fun t hvia => ?_
  have hput : (tablePut a v ⟨s, Reach.refl⟩).2.1 = apply (.reg R.FZ_BANK_STAT.REFUSED 1) s := by
    simp only [tablePut, bankRefuse, M.bind_run, st_run, hheld, if_true, setF_run, M.pure_snd]
  rw [hvia.fab rfl, hvia.rd _ rfl rfl, hput, rd_self _ _ _ (by decide)]
  simp only [apply_reg]
  exact ⟨trivial, rfl⟩

end Update

/-! The laying of a bank. -/

section Fenced

variable {α : Type} {g : Fab → α}

/-- Nothing of the fabric but its ports changes with a port's state. -/
theorem setPort_fab (hg : ∀ h ports, g { h with ports := ports } = g h) (n state reason : Nat) (x : Trace o) :
    g (setPort n state reason x).2.1.fab = g x.1.fab := by
  have hkeep : ∀ {N : Nat} {a : M o Unit}, Within N a → N &&& 0x200020000 = 0 → ∀ z : Trace o, (a z).2.1.fab = z.1.fab :=
    fun hin hN z => (hin.via z).fab hN
  rw [setPort_run]
  simp only [portMoves, M.bind_run]
  rw [hkeep refreshPortFault_in rfl, hkeep (within_when refreshTestWait_in) rfl, ite_run, ite_run]
  split
  · rw [M.bind_run, hkeep (svc_in ..) rfl]
    simp only [upPort, eff_run, apply_fab, hg, hkeep (within_when (mark_in _)) rfl, portShown, apply_reg]
  split
  · rw [M.bind_run, hkeep (svc_in ..) rfl, hkeep (within_when (mark_in _)) rfl, hkeep (within_when (mark_in _)) rfl]
    simp only [portShown, apply_reg]
  · rw [M.pure_run, hkeep (within_when (mark_in _)) rfl]
    simp only [portShown, apply_reg]

theorem portsIdle_fab (hg : ∀ h ports, g { h with ports := ports } = g h) (l : List Nat) (x : Trace o) :
    g ((each l fun n => do
      setPort n PS.DISABLED PR.FENCED
      send (.portIdle n) : M o Unit) x).2.1.fab = g x.1.fab := by
  induction l generalizing x with
  | nil => rfl
  | cons n l ih =>
    rw [each_cons, M.bind_run, M.bind_run]
    rw [ih, send_fab, setPort_fab hg]

theorem enterFenced_fab (hg : ∀ h ports, g { h with ports := ports } = g h) (why : Nat) (x : Trace o) :
    g (enterFenced why x).2.1.fab = g x.1.fab := by
  have hkeep : ∀ {N : Nat} {a : M o Unit}, Within N a → N &&& 0x200020000 = 0 → ∀ z : Trace o, (a z).2.1.fab = z.1.fab :=
    fun hin hN z => (hin.via z).fab hN
  have hfault : ∀ z : Trace o, (faultCond R.RST_FAULT.FENCED true z).2.1.fab = z.1.fab := fun z => by
    rw [(faultCond_via ..).fab rfl]
    simp only [apply_reg]
  rw [enterFenced, mode, M.bind_run, M.bind_run, st_run, M.pure_run, ite_run]
  split
  · rfl
  rw [M.bind_run, M.bind_run, M.bind_run, M.bind_run, ite_run]
  have hnoted : ∀ z : Trace o, (eff (.nor fun n => { n with fenceMark := true }) z : Unit × Trace o).2.1.fab = z.1.fab := fun z => by
    simp only [eff_run, apply_nor]
  have hset : ∀ z : Trace o, (setF R.FZ_MEMBER.FENCED z : Unit × Trace o).2.1.fab = z.1.fab := fun z => by
    simp only [setF_run, apply_reg]
  split
  · rw [hfault, hnoted, hkeep (ev_in ..) rfl, st_run, hset]
  · simp only [M.bind_run]
    rw [hfault, hkeep (driveReady_in _) rfl, hkeep scrubStop_in rfl, hkeep (setMode_in _) rfl, portsIdle_fab hg, hnoted, hkeep (ev_in ..) rfl, st_run, hset]

end Fenced

/-- The other bank is active and unsealed, and the settings store holds both (R223). -/
def bankTurned (s : State) : State :=
  apply (.reg R.FZ_BANK_STAT.READY 0) (apply (.reg R.FZ_BANK_STAT.ACTIVE (1 - activeEpoch s))
    (apply (.settings fun x => { x with bank0 := s.fab.bank0, bank1 := s.fab.bank1 }) s))

theorem makeActive_via (x : Trace o) : Via FP.refreshSelf (bankTurned x.1) (makeActive (1 - activeEpoch x.1) x).2.1 := by
  rw [makeActive, st_bind, M.bind_run, M.bind_run, M.bind_run, eff_run, wr_run, wr_run]
  exact refreshSelf_in.viaFrom rfl

theorem bankTurned_reads (s : State) : (bankTurned s).rd R.FZ_BANK_STAT.ACTIVE = 1 - activeEpoch s ∧
    (bankTurned s).rd R.FZ_BANK_STAT.READY = 0 ∧ (bankTurned s).rd R.FZ_BANK_STAT.ARMED = s.rd R.FZ_BANK_STAT.ARMED ∧
    (bankTurned s).fab = s.fab ∧ (bankTurned s).clk = s.clk := by
  have hfits : (1 - activeEpoch s) % 2 ^ 1 = 1 - activeEpoch s := Nat.mod_eq_of_lt (by omega)
  simp (disch := decide) only [bankTurned, rd_reg_apart, rd_reg_same, hfits, Nat.zero_mod, apply_reg, apply_settings, and_self]

/-- What follows the turn of the banks: the hold, and what the new bank says of this module. -/
def bankHeld (fenced : State → Prop) [DecidablePred fenced] : M o Unit := do
  setF R.FZ_BANK_STAT.HOLD
  mark K.hold
  noteUnlocked
  let s ← st
  if fenced s then enterFenced 1 else pure ()

theorem bankHeld_run {α : Type} {g : Fab → α} (hg : ∀ h ports, g { h with ports := ports } = g h) (fenced : State → Prop) [DecidablePred fenced]
    (x : Trace o) {t : State} (ht : t = (bankHeld fenced x).2.1) :
    t.rd R.FZ_BANK_STAT.ACTIVE = x.1.rd R.FZ_BANK_STAT.ACTIVE ∧ t.rd R.FZ_BANK_STAT.HOLD = 1 ∧
      t.rd R.FZ_BANK_STAT.ARMED = x.1.rd R.FZ_BANK_STAT.ARMED ∧ t.rd R.FZ_BANK_STAT.READY = x.1.rd R.FZ_BANK_STAT.READY ∧
      t.clk.mono = x.1.clk.mono ∧ g t.fab = g x.1.fab := by
  subst ht
  have htail : ∀ z : Trace o, Via FP.enterFenced z.1 ((if fenced z.1 then enterFenced 1 else pure () : M o Unit) z).2.1 ∧
      g ((if fenced z.1 then enterFenced 1 else pure () : M o Unit) z).2.1.fab = g z.1.fab := by
    intro z
    split
    · exact ⟨(enterFenced_in 1).via z, enterFenced_fab hg 1 z⟩
    · exact ⟨.refl, rfl⟩
  rw [bankHeld, M.bind_run, M.bind_run, M.bind_run, st_bind]
  have hheld : (mark K.hold (setF R.FZ_BANK_STAT.HOLD x).2).2.1 = apply (.seen K.hold x.1.clk.mono) (apply (.reg R.FZ_BANK_STAT.HOLD 1) x.1) := by
    rw [mark_run, setF_run]
    simp only [apply_reg]
  obtain ⟨hvia, hfab⟩ := htail (noteUnlocked (mark K.hold (setF R.FZ_BANK_STAT.HOLD x).2).2).2
  have hnote := (noteUnlocked_in (o := o)).via (mark K.hold (setF R.FZ_BANK_STAT.HOLD x).2).2
  rw [hfab, hvia.clkMono rfl, hvia.rd _ rfl rfl, hvia.rd _ rfl rfl, hvia.rd _ rfl rfl, hvia.rd _ rfl rfl, hnote.fab rfl, hnote.clkMono rfl,
    hnote.rd _ rfl rfl, hnote.rd _ rfl rfl, hnote.rd _ rfl rfl, hnote.rd _ rfl rfl, hheld]
  simp (disch := decide) only [rd_seen, rd_reg_apart, rd_reg_same, apply_seen, apply_reg, Nat.reducePow, Nat.reduceMod, and_self]

theorem layNow_run {α : Type} {g : Fab → α} (hg : ∀ h ports, g { h with ports := ports } = g h) (x : Trace o) {t : State} (ht : t = (layNow x).2.1) :
    t.rd R.FZ_BANK_STAT.ACTIVE = 1 - activeEpoch x.1 ∧ t.rd R.FZ_BANK_STAT.HOLD = 1 ∧
      t.rd R.FZ_BANK_STAT.ARMED = x.1.rd R.FZ_BANK_STAT.ARMED ∧ t.rd R.FZ_BANK_STAT.READY = 0 ∧ t.clk.mono = x.1.clk.mono ∧ g t.fab = g x.1.fab := by
  have hvia := makeActive_via x
  obtain ⟨hactive, hready, harmed, hfab, hclk⟩ := bankTurned_reads x.1
  have hturn : ∀ f : Fld, f.k = .FZ_BANK_STAT → (makeActive (1 - activeEpoch x.1) x).2.1.rd f = (bankTurned x.1).rd f :=
    fun f hf => hvia.rdKind .FZ_BANK_STAT hf rfl rfl
  obtain ⟨h1, h2, h3, h4, h5, h6⟩ := bankHeld_run hg (fun s => x.1.rd R.FZ_SELF.VALID = 1 ∧
    (selfLost s (1 - activeEpoch x.1) (ownFa x.1) (x.1.rd R.FZ_SELF.GEN) ∨ selfNewer s (1 - activeEpoch x.1) (ownFa x.1) (x.1.rd R.FZ_SELF.GEN)))
    (makeActive (1 - activeEpoch x.1) x).2 (t := t) (by
      rw [ht, layNow, st_bind, M.bind_run, bankHeld])
  refine ⟨h1.trans ((hturn _ rfl).trans hactive), h2, h3.trans ((hturn _ rfl).trans harmed), h4.trans ((hturn _ rfl).trans hready), ?_, ?_⟩
  · rw [h5, hvia.clkMono rfl, hclk]
  · rw [h6, hvia.fab rfl, hfab]

/-- The laying's instant has come and nothing is armed any more. -/
def disarmed (at_ : Nat) (s : State) : State :=
  apply (.reg R.FZ_BANK_STAT.ARMED 0) (apply (.fab fun f => { f with armed := none }) (apply (.pass (at_ - s.clk.time.toNat)) s))

theorem disarmed_reads (at_ : Nat) (s : State) : (disarmed at_ s).rd R.FZ_BANK_STAT.ACTIVE = s.rd R.FZ_BANK_STAT.ACTIVE ∧
    (disarmed at_ s).rd R.FZ_BANK_STAT.ARMED = 0 ∧ (disarmed at_ s).fab = { s.fab with armed := none } ∧
    (disarmed at_ s).clk.mono = s.clk.mono + (at_ - s.clk.time.toNat) := by
  simp (disch := decide) only [disarmed, rd_reg_apart, rd_reg_same, rd_fab, rd_pass, apply_reg, apply_fab, apply_pass, Nat.zero_mod, and_self]

/-- A laying goes on from there, as the seal of the bank says. -/
theorem laying_run {at_ : Nat} (harmed : s.fab.armed = some at_) {Q : State → Prop}
    (hQ : ∀ x : Trace s, x.1 = disarmed at_ s → Q ((if s.rd R.FZ_BANK_STAT.READY = 0 then do
        setF R.FZ_BANK_STAT.LAY_MISS
        ev E.FZ_LAY_MISS SK.fw 0 [I.TIME at_]
      else layNow : M s Unit) x).2.1) : Does .laying s Q := by
  refine does_run rfl rfl ?_
  rw [st_bind]
  simp only [harmed]
  rw [M.bind_run, M.bind_run]
  exact hQ (bankCancel (eff (.pass (at_ - s.clk.time.toNat)) ⟨s, Reach.refl⟩).2).2 rfl

theorem laying_laid {at_ : Nat} (harmed : s.fab.armed = some at_) (hready : s.rd R.FZ_BANK_STAT.READY = 1) :
    Does .laying s fun t => t.rd R.FZ_BANK_STAT.ACTIVE = 1 - activeEpoch s ∧ t.rd R.FZ_BANK_STAT.HOLD = 1 ∧ t.rd R.FZ_BANK_STAT.ARMED = 0 ∧
      t.rd R.FZ_BANK_STAT.READY = 0 ∧ t.fab.armed = none ∧ t.clk.mono = s.clk.mono + (at_ - s.clk.time.toNat) ∧
      t.fab.bank0 = s.fab.bank0 ∧ t.fab.bank1 = s.fab.bank1 := by
  refine laying_run harmed fun x hx => ?_
  obtain ⟨hactive, hoff, hfab, hmono⟩ := disarmed_reads at_ s
  obtain ⟨h1, h2, h3, h4, h5, h6⟩ := layNow_run (g := fun f => (f.armed, f.bank0, f.bank1)) (fun _ _ => rfl) x rfl
  have hgo : ¬ s.rd R.FZ_BANK_STAT.READY = 0 := by rw [hready]; decide
  have hepoch : activeEpoch x.1 = activeEpoch s := by rw [activeEpoch, activeEpoch, hx, hactive]
  rw [hepoch] at h1
  rw [hx, hoff] at h3
  rw [hx, hmono] at h5
  rw [hx, hfab] at h6
  simp only [if_neg hgo]
  simp only [Prod.mk.injEq] at h6
  obtain ⟨hnone, h0, h1'⟩ := h6
  exact ⟨h1, h2, h3, h4, hnone, h5, h0, h1'⟩

theorem laying_missed {at_ : Nat} (harmed : s.fab.armed = some at_) (hready : s.rd R.FZ_BANK_STAT.READY = 0) :
    Does .laying s fun t => t.rd R.FZ_BANK_STAT.ACTIVE = activeEpoch s ∧ t.rd R.FZ_BANK_STAT.LAY_MISS = 1 ∧ t.rd R.FZ_BANK_STAT.ARMED = 0 ∧
      t.fab.armed = none := by
  refine laying_run harmed fun x hx => ?_
  obtain ⟨hactive, hoff, hfab, -⟩ := disarmed_reads at_ s
  have hev := (ev_in (o := s) E.FZ_LAY_MISS SK.fw 0 [I.TIME at_]).via (setF R.FZ_BANK_STAT.LAY_MISS x).2
  have hset : (setF R.FZ_BANK_STAT.LAY_MISS x).2.1 = apply (.reg R.FZ_BANK_STAT.LAY_MISS 1) (disarmed at_ s) := by
    rw [← hx]
    rfl
  simp only [if_pos hready, M.bind_run]
  rw [hev.rd _ rfl rfl, hev.rd _ rfl rfl, hev.rd _ rfl rfl, hev.fab rfl, hset]
  simp (disch := decide) only [rd_reg_apart, rd_reg_same, apply_reg, hactive, hoff, hfab, Nat.reducePow, Nat.reduceMod, activeEpoch, and_self]

/-! Holds and memberships. -/

theorem epochHoldEnd_does (hheld : s.rd R.FZ_BANK_STAT.HOLD = 1) : Does .epochHoldEnd s fun t => t.rd R.FZ_BANK_STAT.HOLD = 0 ∧
    t.clk.mono = max s.clk.mono (tget 0 s.clk.seen K.hold + 1000 * max 1000 (s.rd R.FZ_RT_CFG.EPOCH_HOLD_US)) := by
  refine does_run rfl rfl ?_
  have hgo : ¬ (1 : Nat) = 0 := by decide
  simp (disch := decide) only [M.bind_run, st_run, hheld, if_neg hgo, seenAt_run, advTo_run, wr_run, rd_reg_same, apply_reg, mono_until, Nat.zero_mod, and_self]

/-- A condition that is shown drives FAULT_N low. -/
theorem faultCond_pin {lo : Nat} (hf : Fld.plain ⟨.RST_FAULT, [], lo, 1⟩ = true) (x : Trace o) :
    (faultCond ⟨.RST_FAULT, [], lo, 1⟩ true x).2.1.rd R.RST_PIN_STAT.FAULT_N = 0 := by
  have hshown : ∀ y : Trace o, y.1.rd ⟨.RST_FAULT, [], lo, 1⟩ = 1 → (refreshFault y).2.1.rd R.RST_PIN_STAT.FAULT_N = 0 := by
    intro y hy
    have hany : decide ((regWord y.1 .RST_FAULT []).toNat ≠ 0) = true := by
      refine decide_eq_true fun hzero => ?_
      rw [State.rd, hzero] at hy
      simp [fget] at hy
    rw [refreshFault, st_bind, hany]
    simp only [true_and, Bool.not_true, Bool.false_eq_true, false_and, or_false]
    rw [ite_run]
    split
    · rw [M.bind_run, M.bind_run, ((alert_in (o := o)).via _).rd _ rfl rfl, ((notice_in ..).via _).rd _ rfl rfl, wrB_run]
      simp (disch := decide) only [rd_reg_same, Bool.false_eq_true, if_false, Nat.zero_mod]
    · next hhigh =>
      have hlt : y.1.rd R.RST_PIN_STAT.FAULT_N < 2 := rd_lt y.1 R.RST_PIN_STAT.FAULT_N
      change y.1.rd R.RST_PIN_STAT.FAULT_N = 0
      omega
  rw [faultCond, M.bind_run]
  refine hshown _ ?_
  rw [wrB_run]
  exact rd_self _ _ _ hf

/-- A membership that lapses is shown, recorded and a condition of FAULT_N. -/
theorem lapse_run (items : List Nat) {x : Trace o} {t : State}
    (ht : t = (faultCond R.RST_FAULT.LAPSED true (ev E.MEMBER_LAPSED SK.fw 0 items (setF R.FZ_MEMBER.LAPSED x).2).2).2.1) :
    t.rd R.FZ_MEMBER.LAPSED = 1 ∧ t.rd R.RST_FAULT.LAPSED = 1 ∧ t.rd R.RST_PIN_STAT.FAULT_N = 0 ∧ t.clk.mono = x.1.clk.mono := by
  have hev := (ev_in (o := o) E.MEMBER_LAPSED SK.fw 0 items).via (setF R.FZ_MEMBER.LAPSED x).2
  have hfault := faultCond_via R.RST_FAULT.LAPSED true (ev E.MEMBER_LAPSED SK.fw 0 items (setF R.FZ_MEMBER.LAPSED x).2).2
  have hset : (setF R.FZ_MEMBER.LAPSED x).2.1 = apply (.reg R.FZ_MEMBER.LAPSED 1) x.1 := rfl
  refine ⟨?_, ?_, by rw [ht]; exact faultCond_pin (by decide) _, ?_⟩
  · rw [ht, hfault.rd _ rfl rfl, rd_reg_kind _ _ _ _ (by decide), hev.rd _ rfl rfl, hset, rd_self _ _ _ (by decide)]
    rfl
  · rw [ht, hfault.rd _ rfl rfl, rd_self _ _ _ (by decide)]
    rfl
  · rw [ht, hfault.clkMono rfl]
    simp only [apply_reg, hev.clkMono rfl, hset]

theorem membershipLapse_does {at_ : Nat} (hmember : s.fab.renewed = some at_) (hlive : s.rd R.FZ_MEMBER.LAPSED = 0) :
    Does .membershipLapse s fun t => t.rd R.FZ_MEMBER.LAPSED = 1 ∧ t.rd R.RST_FAULT.LAPSED = 1 ∧ t.rd R.RST_PIN_STAT.FAULT_N = 0 ∧
      t.clk.mono = max s.clk.mono (at_ + 1000000000) := by
  refine does_run rfl rfl ?_
  have hgo : ¬ (0 : Nat) = 1 := by decide
  rw [st_bind]
  simp only [hmember]
  rw [M.bind_run, rd_run]
  simp only [hlive, if_neg hgo]
  rw [M.bind_run, M.bind_run, st_bind, M.bind_run]
  obtain ⟨hlapsed, hshown, hpin, hmono⟩ := lapse_run (o := s) [I.FA (ownFa (setF R.FZ_MEMBER.LAPSED (advTo (at_ + 1000000000) ⟨s, Reach.refl⟩).2).2.1)]
    (x := (advTo (at_ + 1000000000) ⟨s, Reach.refl⟩).2) rfl
  refine ⟨hlapsed, hshown, hpin, hmono.trans ?_⟩
  simp only [advTo_run, mono_until]

/-! Fabric time. -/

/-- Each of some frames goes out in its turn. -/
theorem each_send {α : Type} (l : List α) (f : α → Out) (x : Trace o) : ∀ y : Trace o, y = (each l (fun a => send (f a)) x).2 →
    y.1.out = x.1.out ++ l.map f ∧ y.1.clk = x.1.clk ∧ y.1.fab = x.1.fab := by
  induction l generalizing x with
  | nil =>
    rintro _ rfl
    exact ⟨(List.append_nil _).symm, rfl, rfl⟩
  | cons a l ih =>
    intro y hy
    rw [each_cons, M.bind_run] at hy
    obtain ⟨hout, hclk, hfab⟩ := ih _ y hy
    have hsent : (send (f a) x).2.1 = apply (.out (f a)) x.1 := rfl
    rw [hsent] at hout hclk hfab
    simp only [apply_out] at hout hclk hfab
    refine ⟨?_, hclk, hfab⟩
    rw [hout, List.map_cons, List.append_assoc]
    rfl

/-- The time frame that leaves on a port. -/
def timeFrameOf (s : State) (n : Nat) : Out :=
  .timeFrame n (s.rd R.FZ_TIME_STAT.DIST) s.fab.rootFa s.fab.repoch s.fab.rseq (2 * s.clk.time.toNat)
    ((tget PortSt.init s.fab.ports n).rx.map fun t2 => (t2, 2 * s.clk.time.toNat))

/-- A root's next frames are due: its sequence number counts on. -/
def framesDue (i : Nat) (s : State) : State := apply (.fab fun f => { f with rseq := (f.rseq + 1) % 65536 }) (waitNoted K.timeSend i s)

theorem framesDue_reads (i : Nat) (s : State) : (framesDue i s).fab = { s.fab with rseq := (s.fab.rseq + 1) % 65536 } ∧
    (framesDue i s).clk.mono = max s.clk.mono i ∧ tget 0 (framesDue i s).clk.seen K.timeSend = max s.clk.mono i ∧
    (framesDue i s).out = s.out ∧ ∀ f, (framesDue i s).rd f = s.rd f := by
  simp only [framesDue, apply_fab, waitNoted_fab, waitNoted_mono, waitNoted_seen, waitNoted_out, waitNoted_rd, and_self, implies_true]

theorem frames_run {x : Trace o} {i : Nat} (hx : x.1 = framesDue i s) {t : State}
    (ht : t = (each ((List.range 36).filter (portUp x.1)) (fun n => send (timeFrameOf x.1 n)) x).2.1) :
    (t.clk.mono = max s.clk.mono i ∧ tget 0 t.clk.seen K.timeSend = t.clk.mono) ∧ t.fab = { s.fab with rseq := (s.fab.rseq + 1) % 65536 } ∧
      t.out = s.out ++ ((List.range 36).filter (portUp s)).map fun n => .timeFrame n (s.rd R.FZ_TIME_STAT.DIST) s.fab.rootFa s.fab.repoch
        ((s.fab.rseq + 1) % 65536) (2 * t.clk.time.toNat) ((tget PortSt.init s.fab.ports n).rx.map fun t2 => (t2, 2 * t.clk.time.toNat)) := by
  subst ht
  obtain ⟨hfab, hmono, hseen, hout, hrd⟩ := framesDue_reads i s
  obtain ⟨ho, hc, hf⟩ := each_send ((List.range 36).filter (portUp x.1)) (timeFrameOf x.1) x _ rfl
  rw [ho, hc, hf, hx]
  refine ⟨⟨hmono, hseen.trans hmono.symm⟩, hfab, ?_⟩
  have hup : portUp (framesDue i s) = portUp s := funext fun n => by rw [portUp, portUp, hrd]
  rw [hout, hup]
  refine congrArg (s.out ++ ·) (List.map_congr_left fun n _ => ?_)
  simp only [timeFrameOf, hrd, hfab]

/-- A root sends its frames with the next sequence number (R251). -/
theorem timeFrameSend_does (hroot : s.rd R.FZ_TIME_STAT.TSTATE = TS.ROOT) :
    Does .timeFrameSend s fun t => Fired s t K.timeSend 1000000 ∧ t.fab = { s.fab with rseq := (s.fab.rseq + 1) % 65536 } ∧
      t.out = s.out ++ ((List.range 36).filter (portUp s)).map fun n => .timeFrame n (s.rd R.FZ_TIME_STAT.DIST) s.fab.rootFa s.fab.repoch
        ((s.fab.rseq + 1) % 65536) (2 * t.clk.time.toNat) ((tget PortSt.init s.fab.ports n).rx.map fun t2 => (t2, 2 * t.clk.time.toNat)) := by
  refine does_run rfl rfl ?_
  have hsteady : ¬ (TS.ROOT = TS.LOCKED ∨ TS.ROOT = TS.HOLDOVER) := by decide
  simp only [M.bind_run, st_run, periodic_run, waitNoted_run, waitNoted_rd, hroot, hsteady, false_and, if_false, M.pure_run, decide_true, when_on rfl, eff_run]
  exact frames_run (x := ⟨framesDue (tget 0 s.clk.seen K.timeSend + 1000000) s, _⟩) rfl rfl

theorem rootLoss_does (hfollows : s.rd R.FZ_TIME_STAT.TSTATE = TS.ACQUIRE ∨ s.rd R.FZ_TIME_STAT.TSTATE = TS.LOCKED) :
    Does .rootLoss s fun t => t.rd R.FZ_TIME_STAT.TSTATE = TS.HOLDOVER ∧ t.rd R.FZ_TIME_STAT.DIST = 7 ∧
      t.clk.mono = max s.clk.mono (tget 0 s.clk.seen K.rootAdv + 5000000) ∧ tget 0 t.clk.seen K.holdover = t.clk.mono := by
  refine does_run rfl rfl ?_
  have hports : Within FP.upPort (each (List.range 36) fun n => upPort n fun x => { x with alive := false } : M s Unit) :=
    within_each fun n => upPort_in ..
  rw [M.bind_run, rd_run, ite_run, if_pos hfollows, M.bind_run, M.bind_run, M.bind_run, M.bind_run, M.bind_run, (hports.via _).rd _ rfl rfl,
    (hports.via _).rd _ rfl rfl, (hports.via _).clkMono rfl, (hports.via _).seen rfl, mark_run, wr_run, wr_run, advTo_run, seenAt_run]
  simp (disch := decide) only [rd_seen, rd_reg_apart, rd_reg_same, apply_seen, apply_reg, mono_until, tget_tset_self, TS.HOLDOVER, Nat.reducePow,
    Nat.reduceMod, and_self]

/-- What a module that becomes the root shows (R256). -/
def rootShown (epoch : Nat) (s : State) : State :=
  apply (.fab fun f => { f with rootFa := ownFa s, repoch := epoch % 256, newest := some (epoch % 256), okRun := 0, badRun := 0, slew := 0 })
    (apply (.reg R.FZ_TIME_STAT.DIST 0) (apply (.reg R.FZ_TIME_STAT.TSTATE TS.ROOT) s))

theorem becomeRoot_run (epoch : Nat) (x : Trace o) : (becomeRoot epoch x).2.1 = rootShown epoch x.1 := rfl

theorem rootShown_reads (epoch : Nat) (s : State) : (rootShown epoch s).rd R.FZ_TIME_STAT.TSTATE = TS.ROOT ∧
    (rootShown epoch s).rd R.FZ_TIME_STAT.DIST = 0 ∧ (rootShown epoch s).fab.rootFa = ownFa s ∧ (rootShown epoch s).fab.repoch = epoch % 256 ∧
    (rootShown epoch s).clk = s.clk := by
  simp (disch := decide) only [rootShown, rd_fab, rd_reg_apart, rd_reg_same, apply_fab, apply_reg, TS.ROOT, Nat.reducePow, Nat.reduceMod, Nat.zero_mod, and_self]

theorem rootPromotion_does (hhold : s.rd R.FZ_TIME_STAT.TSTATE = TS.HOLDOVER) (hbackup : 0 < s.rd R.FZ_TIME_CFG.BACKUP) :
    Does .rootPromotion s fun t => t.rd R.FZ_TIME_STAT.TSTATE = TS.ROOT ∧ t.rd R.FZ_TIME_STAT.DIST = 0 ∧ t.fab.rootFa = ownFa s ∧
      t.fab.repoch = (s.fab.newest.getD 0 + 1) % 256 ∧
      t.clk.mono = max s.clk.mono (tget 0 s.clk.seen K.holdover + s.rd R.FZ_TIME_CFG.BACKUP * 10000000) := by
  refine does_run rfl rfl ?_
  have hgo : s.rd R.FZ_TIME_STAT.TSTATE = TS.HOLDOVER ∧ s.rd R.FZ_TIME_CFG.BACKUP ≠ 0 := ⟨hhold, by omega⟩
  rw [st_bind]
  simp only [if_pos hgo]
  rw [M.bind_run, M.bind_run, M.bind_run, ((ev_in ..).via _).rd _ rfl rfl, ((ev_in ..).via _).rd _ rfl rfl, ((ev_in ..).via _).fab rfl,
    ((ev_in ..).via _).clkMono rfl, becomeRoot_run]
  simp only [advTo_run, seenAt_run]
  obtain ⟨hstate, hdist, hfa, hepoch, hclk⟩ := rootShown_reads (nextEpoch s)
    (apply (.pass (tget 0 s.clk.seen K.holdover + s.rd R.FZ_TIME_CFG.BACKUP * 10000000 - s.clk.mono)) s)
  refine ⟨hstate, hdist, hfa.trans (rd_pass ..), hepoch.trans ?_, ?_⟩
  · rw [nextEpoch, Nat.mod_mod]
  · rw [hclk, mono_until]

theorem rootStartWait_does (hroot : s.rd R.FZ_TIME_CFG.ROOT = 1) (hfree : s.rd R.FZ_TIME_STAT.TSTATE = TS.FREE)
    (hup : (List.range 36).any (portUp s) = true) (hnone : timeParent s = none) :
    Does .rootStartWait s fun t => t.rd R.FZ_TIME_STAT.TSTATE = TS.ROOT ∧ t.rd R.FZ_TIME_STAT.DIST = 0 ∧ t.fab.rootFa = ownFa s ∧
      t.clk.mono = max s.clk.mono (tget 0 s.clk.seen K.firstUp + 10000000) := by
  refine does_run rfl rfl ?_
  rw [st_bind, if_pos ⟨hroot, hfree, hup, hnone⟩, M.bind_run, M.bind_run, becomeRoot_run]
  simp only [advTo_run, seenAt_run]
  obtain ⟨hstate, hdist, hfa, -, hclk⟩ := rootShown_reads (s.fab.newest.getD 0) (apply (.pass (tget 0 s.clk.seen K.firstUp + 10000000 - s.clk.mono)) s)
  refine ⟨hstate, hdist, hfa.trans (rd_pass ..), ?_⟩
  rw [hclk, mono_until]

theorem timeLoRead_does : Does .timeLoRead s fun t => t.out = s.out ++ [.regData .bar0 [BitVec.ofNat 32 s.clk.time.toNat]] ∧
    t.fab = { s.fab with hiLatch := BitVec.ofNat 32 (s.clk.time.toNat / 2 ^ 32) } := by
  refine does_run rfl rfl ?_
  simp only [M.bind_run, st_run, eff_run, send_run, apply_out, apply_fab, and_self]

section Follow

variable {n : Nat} {f : TimeFrame}

/-- One UP port that hears time is the parent. -/
theorem timeParent_only (hn : n < 36) (hup : portUp s n = true) (hothers : ∀ m < 36, m ≠ n → portUp s m = false) (halive : (portAt s n).alive = true)
    (hdist : (portAt s n).dist < 7) : timeParent s = some n := by
  have hone : ∀ n < 36, (List.range 36).filter (· == n) = [n] := by decide
  have honly : (List.range 36).filter (fun m => portUp s m && (portAt s m).alive && decide ((portAt s m).dist < 7)) = [n] := by
    rw [← hone n hn]
    refine List.filter_congr fun m hm => ?_
    by_cases hmn : m = n
    · rw [hmn, hup, halive, decide_eq_true hdist]
      simp
    · rw [hothers m (List.mem_range.1 hm) hmn]
      simp [hmn]
  rw [timeParent]
  simp only [honly, List.foldl]

/-- The state of a port that has heard a time frame (R255). -/
def PortSt.hears (f : TimeFrame) (same adv : Bool) : PortSt → PortSt := fun p =>
  { p with dist := f.dist, rootFa := f.rootFa, repoch := f.repoch, rseq := f.rseq, alive := (p.alive && same) || adv, rx := some f.t4 }

/-- A free module follows a port (R254). -/
def followed (n : Nat) (s : State) : State :=
  apply (.fab fun f => { f with rootFa := (portAt s n).rootFa, repoch := (portAt s n).repoch, rseq := (portAt s n).rseq })
    (apply (.fab fun f => { f with okRun := 0, badRun := 0, slew := 0 }) (apply (.reg R.FZ_TIME_STAT.TSTATE TS.ACQUIRE)
      (apply (.reg R.FZ_TIME_STAT.DIST (min 7 ((portAt s n).dist + 1))) (apply (.reg R.FZ_TIME_STAT.PARENT n) s))))

theorem follow_free {x : Trace o} (hfree : x.1.rd R.FZ_TIME_STAT.TSTATE = TS.FREE) : (follow n x).2.1 = followed n x.1 := by
  simp only [follow, M.bind_run, st_run, hfree, true_or, if_true, wr_run, eff_run, followed]

theorem followed_reads (hn : n < 36) (hdist : (portAt s n).dist < 7) : (followed n s).rd R.FZ_TIME_STAT.PARENT = n ∧
    (followed n s).rd R.FZ_TIME_STAT.DIST = (portAt s n).dist + 1 ∧ (followed n s).rd R.FZ_TIME_STAT.TSTATE = TS.ACQUIRE ∧
    (followed n s).fab.rootFa = (portAt s n).rootFa ∧ (followed n s).fab.repoch = (portAt s n).repoch ∧
    (followed n s).fab.rseq = (portAt s n).rseq ∧ (followed n s).fab.okRun = 0 ∧ (followed n s).clk = s.clk ∧
    (followed n s).rd (R.FZ_PORT_ASYM.ASYM n) = s.rd (R.FZ_PORT_ASYM.ASYM n) := by
  have hparent : n % 64 = n := Nat.mod_eq_of_lt (by omega)
  have hhop : min 7 ((portAt s n).dist + 1) % 8 = (portAt s n).dist + 1 := by omega
  simp (disch := decide) only [followed, rd_fab, rd_reg_apart, rd_reg_same, rd_reg_elsewhere, hparent, hhop, apply_fab, apply_reg, TS.ACQUIRE, Nat.reducePow, Nat.reduceMod, and_self]

/-- The offset that a reply gives, in ns (R253). -/
def replyOffset (s : State) (n : Nat) (f : TimeFrame) : Int :=
  (2 * (((f.t2 : Int) - f.t1) - ((f.t4 : Int) - f.t3)) - sx 16 (s.rd (R.FZ_PORT_ASYM.ASYM n))).tdiv 8

/-- A first reply steps the clock of a module that has just begun to follow. -/
theorem exchange_first {x : Trace o} (hstate : x.1.rd R.FZ_TIME_STAT.TSTATE = TS.ACQUIRE) (hnew : x.1.fab.okRun = 0) {t : State}
    (ht : t = (exchange n f x).2.1) : t.rd R.FZ_TIME_STAT.PARENT = x.1.rd R.FZ_TIME_STAT.PARENT ∧ t.rd R.FZ_TIME_STAT.DIST = x.1.rd R.FZ_TIME_STAT.DIST ∧
      t.rd R.FZ_TIME_STAT.TSTATE = TS.ACQUIRE ∧ t.fab.rootFa = x.1.fab.rootFa ∧ t.fab.repoch = x.1.fab.repoch ∧ t.fab.rseq = x.1.fab.rseq ∧
      t.clk.time = BitVec.ofInt 64 ((x.1.clk.time.toNat : Int) + replyOffset x.1 n f) := by
  subst ht
  have hacquire : ¬ TS.ACQUIRE = TS.LOCKED := by decide
  have hfew : ∀ c : Bool, ¬ 16 ≤ (if c = true then 0 + 1 else 0) := fun c => by cases c <;> decide
  simp only [exchange, M.bind_run, st_run, wr_run, eff_run, apply_fab, apply_reg, hstate, hnew, if_neg hacquire, if_neg (hfew _), M.pure_run]
  simp (disch := decide) only [rd_reg_apart, apply_setTime, apply_fab, apply_reg, hstate, replyOffset, and_self]

/-- What a time frame leaves at the port that hears it. -/
theorem heard_run {x y : Trace o} {c same adv : Bool} {e : Nat}
    (hy : y = (when_ c (seeEpoch e) (upPort n (PortSt.hears f same adv) x).2).2) :
    portAt y.1 n = PortSt.hears f same adv (portAt x.1 n) ∧ y.1.clk = x.1.clk ∧ ∀ g, y.1.rd g = x.1.rd g := by
  subst hy
  have hport := upPort_port n (PortSt.hears f same adv) x
  cases c
  · rw [when_off rfl]
    exact ⟨hport, rfl, upPort_rd n _ x⟩
  · rw [when_on rfl, seeEpoch, eff_run]
    simp only [apply_fab, portAt]
    exact ⟨hport, rfl, fun g => (rd_fab ..).trans (upPort_rd n (PortSt.hears f same adv) x g)⟩

/-- Before it follows, the module notes a conflict of roots and the advance of the root. -/
theorem noted_run {x y : Trace o} {c d : Bool} (hy : y = (when_ d (mark K.rootAdv) (when_ c (setF R.FZ_TIME_STAT.ROOT_CONFLICT) x).2).2) :
    y.1.rd R.FZ_TIME_STAT.TSTATE = x.1.rd R.FZ_TIME_STAT.TSTATE ∧ y.1.rd (R.FZ_PORT_ASYM.ASYM n) = x.1.rd (R.FZ_PORT_ASYM.ASYM n) ∧
      y.1.fab = x.1.fab ∧ y.1.clk.time = x.1.clk.time := by
  have hconflict : ∀ z : Trace o, z = (when_ c (setF R.FZ_TIME_STAT.ROOT_CONFLICT) x).2 →
      z.1.rd R.FZ_TIME_STAT.TSTATE = x.1.rd R.FZ_TIME_STAT.TSTATE ∧ z.1.rd (R.FZ_PORT_ASYM.ASYM n) = x.1.rd (R.FZ_PORT_ASYM.ASYM n) ∧
        z.1.fab = x.1.fab ∧ z.1.clk.time = x.1.clk.time := by
    rintro _ rfl
    cases c
    · rw [when_off rfl]
      exact ⟨rfl, rfl, rfl, rfl⟩
    · rw [when_on rfl, setF_run]
      simp (disch := decide) only [rd_reg_apart, rd_reg_elsewhere, apply_reg, and_self]
  subst hy
  obtain ⟨h1, h2, h3, h4⟩ := hconflict _ rfl
  cases d
  · rw [when_off rfl]
    exact ⟨h1, h2, h3, h4⟩
  · rw [when_on rfl, mark_run]
    simp only [rd_seen, apply_seen, h1, h2, h3, h4, and_self]

/-- A free module follows the port and takes a reply's offset. -/
theorem follow_run {x y : Trace o} (hn : n < 36) (hfree : x.1.rd R.FZ_TIME_STAT.TSTATE = TS.FREE) (hdist : (portAt x.1 n).dist < 7)
    (hy : y = ((if f.reply = true then exchange n f else pure () : M o Unit) (follow n x).2).2) :
    y.1.rd R.FZ_TIME_STAT.PARENT = n ∧ y.1.rd R.FZ_TIME_STAT.DIST = (portAt x.1 n).dist + 1 ∧ y.1.rd R.FZ_TIME_STAT.TSTATE = TS.ACQUIRE ∧
      y.1.fab.rootFa = (portAt x.1 n).rootFa ∧ y.1.fab.repoch = (portAt x.1 n).repoch ∧ y.1.fab.rseq = (portAt x.1 n).rseq ∧
      y.1.clk.time = if f.reply then BitVec.ofInt 64 ((x.1.clk.time.toNat : Int) + replyOffset x.1 n f) else x.1.clk.time := by
  have hfollow := follow_free (n := n) hfree
  obtain ⟨hparent, hhops, hstate, hfa, hepoch, hseq, hrun, hclk, hasym⟩ := followed_reads (s := x.1) hn hdist
  have hoffset : replyOffset (followed n x.1) n f = replyOffset x.1 n f := by rw [replyOffset, replyOffset, hasym]
  rw [← hfollow] at hparent hhops hstate hfa hepoch hseq hrun hclk hoffset
  subst hy
  cases hreply : f.reply
  · simp only [Bool.false_eq_true, if_false]
    rw [M.pure_snd]
    exact ⟨hparent, hhops, hstate, hfa, hepoch, hseq, congrArg Clk.time hclk⟩
  · simp only [if_true]
    obtain ⟨h1, h2, h3, h4, h5, h6, h7⟩ := exchange_first (n := n) (f := f) hstate hrun rfl
    rw [hoffset, hclk] at h7
    exact ⟨h1.trans hparent, h2.trans hhops, h3, h4.trans hfa, h5.trans hepoch, h6.trans hseq, h7⟩

/-- What a module does with a time frame once its port has heard it (R254, R255). -/
def hearing (port : Nat) (t : TimeFrame) (adv : Bool) (s : State) : M o Unit :=
  let v := s.rd R.FZ_TIME_STAT.TSTATE
  match timeParent s with
  | none => pure ()
  | some n =>
    let y := tget PortSt.init s.fab.ports n
    if v = TS.ROOT then
      (if y.rootFa ≠ ownFa s ∧ rootBefore y.rootFa y.repoch (ownFa s) s.fab.repoch then do
        setF R.FZ_TIME_STAT.ROOT_CONFLICT
        mark K.rootAdv
        follow n
      else pure ())
    else do
      when_ (decide (v = TS.FREE) && s.rd R.FZ_TIME_CFG.ROOT == 1) (setF R.FZ_TIME_STAT.ROOT_CONFLICT)
      when_ (decide (n = port) && adv) (mark K.rootAdv)
      follow n
      if n = port ∧ t.reply then exchange port t else pure ()

theorem hearing_run {adv : Bool} {x : Trace o} (hn : n < 36) (hparent : timeParent x.1 = some n) (hfree : x.1.rd R.FZ_TIME_STAT.TSTATE = TS.FREE)
    (hdist : (portAt x.1 n).dist < 7) {t : State} (ht : t = (hearing n f adv x.1 x).2.1) :
    t.rd R.FZ_TIME_STAT.PARENT = n ∧ t.rd R.FZ_TIME_STAT.DIST = (portAt x.1 n).dist + 1 ∧ t.rd R.FZ_TIME_STAT.TSTATE = TS.ACQUIRE ∧
      t.fab.rootFa = (portAt x.1 n).rootFa ∧ t.fab.repoch = (portAt x.1 n).repoch ∧ t.fab.rseq = (portAt x.1 n).rseq ∧
      t.clk.time = if f.reply then BitVec.ofInt 64 ((x.1.clk.time.toNat : Int) + replyOffset x.1 n f) else x.1.clk.time := by
  have hroot : ¬ TS.FREE = TS.ROOT := by decide
  have hends : ∀ c d, ∀ t : State, t = ((if f.reply = true then exchange n f else pure () : M o Unit)
      (follow n (when_ d (mark K.rootAdv) (when_ c (setF R.FZ_TIME_STAT.ROOT_CONFLICT) x).2).2).2).2.1 →
      t.rd R.FZ_TIME_STAT.PARENT = n ∧ t.rd R.FZ_TIME_STAT.DIST = (portAt x.1 n).dist + 1 ∧ t.rd R.FZ_TIME_STAT.TSTATE = TS.ACQUIRE ∧
      t.fab.rootFa = (portAt x.1 n).rootFa ∧ t.fab.repoch = (portAt x.1 n).repoch ∧ t.fab.rseq = (portAt x.1 n).rseq ∧
      t.clk.time = if f.reply then BitVec.ofInt 64 ((x.1.clk.time.toNat : Int) + replyOffset x.1 n f) else x.1.clk.time := by
    rintro c d _ rfl
    obtain ⟨hstate, hasym, hfab, htime⟩ := noted_run (n := n) (x := x) (c := c) (d := d) rfl
    have hport : portAt (when_ d (mark K.rootAdv) (when_ c (setF R.FZ_TIME_STAT.ROOT_CONFLICT) x).2).2.1 n = portAt x.1 n := by
      rw [portAt, portAt, hfab]
    have hoffset : replyOffset (when_ d (mark K.rootAdv) (when_ c (setF R.FZ_TIME_STAT.ROOT_CONFLICT) x).2).2.1 n f = replyOffset x.1 n f := by
      rw [replyOffset, replyOffset, hasym]
    have hrun := follow_run (f := f) hn (hstate.trans hfree) (by rw [hport]; exact hdist) rfl
    rwa [hport, hoffset, htime] at hrun
  simp only [hearing, hparent, hfree, if_neg hroot, true_and] at ht
  rw [M.bind_run, M.bind_run, M.bind_run] at ht
  exact hends _ _ t ht

theorem timeFrame_does (hn : n < 36) (hup : portUp s n = true) (hothers : ∀ m < 36, m ≠ n → portUp s m = false)
    (hcounts : frameCounts s (portAt s n) f = true) (hfree : s.rd R.FZ_TIME_STAT.TSTATE = TS.FREE) :
    Does (.timeFrame n f) s fun t => t.rd R.FZ_TIME_STAT.PARENT = n ∧ t.rd R.FZ_TIME_STAT.DIST = f.dist + 1 ∧ t.rd R.FZ_TIME_STAT.TSTATE = TS.ACQUIRE ∧
      t.fab.rootFa = f.rootFa ∧ t.fab.repoch = f.repoch ∧ t.fab.rseq = f.rseq ∧
      t.clk.time = (if f.reply then BitVec.ofInt 64 ((s.clk.time.toNat : Int) + replyOffset s n f) else s.clk.time) := by
  have hdist : f.dist < 7 := by
    simp only [frameCounts, Bool.and_eq_true, decide_eq_true_eq] at hcounts
    exact hcounts.1.2
  have hends : ∀ y : Trace s, portAt y.1 n = PortSt.hears f ((portAt s n).rootFa == f.rootFa && (portAt s n).repoch == f.repoch)
      (frameCounts s (portAt s n) f) (portAt s n) → y.1.clk = s.clk → (∀ g, y.1.rd g = s.rd g) → ∀ t, t = (hearing n f (frameCounts s (portAt s n) f) y.1 y).2.1 →
      t.rd R.FZ_TIME_STAT.PARENT = n ∧ t.rd R.FZ_TIME_STAT.DIST = f.dist + 1 ∧ t.rd R.FZ_TIME_STAT.TSTATE = TS.ACQUIRE ∧
      t.fab.rootFa = f.rootFa ∧ t.fab.repoch = f.repoch ∧ t.fab.rseq = f.rseq ∧
      t.clk.time = (if f.reply then BitVec.ofInt 64 ((s.clk.time.toNat : Int) + replyOffset s n f) else s.clk.time) := by
    intro y hport hclk hrd t ht
    have hupy : ∀ m, portUp y.1 m = portUp s m := fun m => by rw [portUp, portUp, hrd]
    have hoffset : replyOffset y.1 n f = replyOffset s n f := by rw [replyOffset, replyOffset, hrd]
    have hhears : (portAt y.1 n).alive = true ∧ (portAt y.1 n).dist = f.dist ∧ (portAt y.1 n).rootFa = f.rootFa ∧
        (portAt y.1 n).repoch = f.repoch ∧ (portAt y.1 n).rseq = f.rseq := by
      rw [hport, hcounts]
      exact ⟨Bool.or_true _, rfl, rfl, rfl, rfl⟩
    obtain ⟨halive, hd, hfa, hepoch, hseq⟩ := hhears
    have hparent := timeParent_only hn ((hupy n).trans hup) (fun m hm hne => (hupy m).trans (hothers m hm hne)) halive (hd.trans_lt hdist)
    have hrun := hearing_run hn hparent ((hrd _).trans hfree) (hd.trans_lt hdist) ht
    rwa [hd, hfa, hepoch, hseq, hoffset, hclk] at hrun
  refine does_run rfl (decide_eq_true hn) ?_
  rw [st_bind, hup]
  simp only [Bool.not_true, Bool.false_eq_true, if_false]
  rw [M.bind_run, M.bind_run, st_bind]
  obtain ⟨hport, hclk, hrd⟩ := heard_run (x := ⟨s, Reach.refl⟩) (n := n) (f := f) (c := f.rootFa != 0) (e := f.repoch)
    (same := (portAt s n).rootFa == f.rootFa && (portAt s n).repoch == f.repoch) (adv := frameCounts s (portAt s n) f) rfl
  exact hends _ hport hclk hrd _ rfl

end Follow

/-- Settles O60: the state of the banks, of the membership and of fabric time says what each command does. -/
theorem banksAndFabricClockComplete : Obligations.BanksAndFabricClockComplete :=
  ⟨fun _ _ _ _ _ _ hgen hmgr hf hopen hself hgroup => dirUpdate_entry hgen hmgr hf hopen hself hgroup,
    fun _ _ _ _ _ hgen hmgr hheld hself => dirUpdate_held hgen hmgr hheld hself,
    fun _ _ harmed hready => laying_laid harmed hready, fun _ _ harmed hready => laying_missed harmed hready,
    fun _ hheld => epochHoldEnd_does hheld, fun _ _ hmember hlive => membershipLapse_does hmember hlive,
    fun _ hroot => timeFrameSend_does hroot,
    fun _ _ _ hn hup hothers hcounts hfree => timeFrame_does hn hup hothers hcounts hfree,
    fun _ hfollows => rootLoss_does hfollows, fun _ hhold hbackup => rootPromotion_does hhold hbackup,
    fun _ hroot hfree hup hnone => rootStartWait_does hroot hfree hup hnone, fun _ => timeLoRead_does⟩

end Sys2Proof.Machine
end

section
/-!
PROOFS. Programming, activation, votes, confirmation, rollback and plan activation (R414, R416 to R424).
-/

set_option Elab.async false

namespace Sys2Proof.Machine

variable {o s : State}

theorem Does.mono {i : Instr} {E F : State → Prop} (h : Does i s E) (hmono : ∀ t, E t → F t) : Does i s F := by
  obtain ⟨t, hnext, ht⟩ := h
  exact ⟨t, hnext, hmono t ht⟩

/-- An actuating command in order is answered with what its meaning answers, and leaves what its meaning leaves but for the record and the
response. -/
theorem actCmd_does {i : Instr} {w : WReq} {cmd v : Nat} {m : M s Ans} {a : Ans} {u : State} (h : exec i s = act i.wf s (actCmd w cmd v m))
    (hwf : i.wf = true) (hreq : ByHolder s w cmd) (ha : (m ⟨s, Reach.refl⟩).1 = a) (hvia : Via FP.actCmd u (m ⟨s, Reach.refl⟩).2.1) :
    Does i s fun t => Answered s t w cmd a.1 a.2 ∧ Via FP.actCmd u t :=
  does_run h hwf ⟨ha ▸ actCmd_answered v m hreq, actCmd_via v m hreq hvia⟩

/-! Parts that several commands share. -/

section Parts

variable {x : Trace o}

/-- Module firmware runs from an image and is measured (Table 11-8). -/
def fwRuns (i : FwImg) (s : State) : State :=
  apply (.sec fun y => { y with meas := tset [] y.meas 2 (Config.sha512 (wordBytes i.words 0 (16384 * 24))) })
    (apply (.reg R.UPD_VER_RUN.VERSION i.version) (apply (.ctl fun c => { c with fw := i }) s))

theorem runFw_run (i : FwImg) (x : Trace o) : (runFw i x).2.1 = fwRuns i x.1 := id rfl

theorem fwRuns_ctl (i : FwImg) (s : State) : (fwRuns i s).ctl = { s.ctl with fw := i } := by
  simp only [fwRuns, apply_sec, apply_reg, apply_ctl]

theorem fwRuns_version (i : FwImg) (s : State) : (fwRuns i s).rd R.UPD_VER_RUN.VERSION = i.version % 2 ^ 32 := by
  simp (disch := decide) only [fwRuns, apply_sec, rd_reg_self]

theorem fwRuns_nor (i : FwImg) (s : State) : (fwRuns i s).nv.nor = s.nv.nor := by
  simp only [fwRuns, apply_sec, apply_reg, apply_ctl]

/-- Slot F of the management firmware has gone back into slot R, and the update is IDLE in the fallback (R421). -/
def fellBack (s : State) : State :=
  updSet UP.IDLE (apply (.reg R.UPD_STAT.FALLBACK 1) (apply (.nor fun n => { n with fallback := true })
    (apply (.settings fun x => { x with fmts := [s.nv.nor.slotF.fmt] })
      (apply (.nor fun n => { n with slotR := n.slotF, slotWord := .valid }) s))))

theorem copiedBack (fmt : Nat) (x : Trace o) : (setFallback true (keepFormat fmt (copyBack 1 x).2).2).2.1 =
    apply (.reg R.UPD_STAT.FALLBACK 1) (apply (.nor fun n => { n with fallback := true })
      (apply (.settings fun x => { x with fmts := [fmt] }) (apply (.nor fun n => { n with slotR := n.slotF, slotWord := .valid }) x.1))) := id rfl

theorem revertUpd_via (x : Trace o) : Via FP.evRaw (fellBack x.1) (revertUpd 1 x).2.1 := by
  have hnoted (s : State) : Within FP.evRaw (updEvent FU.REVERTED s.nv.nor.slotF.version : M o _) := updEvent_in ..
  rw [revertUpd, M.bind_run, st_bind, M.bind_run, when_on (by decide), M.bind_run, M.bind_run, st_bind]
  refine Via.trans ?_ ((hnoted _).via _)
  exact Via.mono (n := FP.notice) (m := FP.evRaw) (setUpd_via (copiedBack _ x)) rfl

theorem fellBack_reads (s : State) : (fellBack s).rd R.UPD_STAT.STATE = UP.IDLE ∧ (fellBack s).rd R.UPD_STAT.FALLBACK = 1 ∧
    (fellBack s).nv.nor.slotR = s.nv.nor.slotF ∧ (fellBack s).nv.nor.slotWord = .valid ∧ (fellBack s).ctl = s.ctl ∧
    (fellBack s).clk = s.clk := by
  refine ⟨updSet_state (by decide) _, ?_, ?_, ?_, ?_, ?_⟩
  · simp (disch := decide) only [fellBack, updSet, rd_reg_apart, apply_nor, rd_reg_same, Nat.reducePow, Nat.reduceMod]
  all_goals simp only [fellBack, updSet, apply_reg, apply_nor, apply_settings]

/-- What a revert of the management firmware in service leaves (R421). -/
theorem revertNow_reads (hkind : x.1.nv.nor.updKind = 1) {t : State} (ht : t = (revertNow x).2.1) :
    t.rd R.UPD_STAT.STATE = UP.IDLE ∧ t.rd R.UPD_STAT.FALLBACK = 1 ∧ t.nv.nor.slotR = x.1.nv.nor.slotF ∧ t.nv.nor.slotWord = .valid ∧
      t.ctl = { x.1.ctl with fw := x.1.nv.nor.slotF } ∧ t.clk.mono = x.1.clk.mono ∧ Reach x.1 t := by
  subst ht
  have hset : Via FP.notice (updSet UP.REVERTING x.1) (setUpd UP.REVERTING x).2.1 := setUpd_via rfl
  have hnor : (setUpd UP.REVERTING x).2.1.nv.nor = { x.1.nv.nor with updState := UP.REVERTING } := (hset.nor rfl).trans (updSet_nor ..)
  have hback := revertUpd_via (runFw x.1.nv.nor.slotF (setUpd UP.REVERTING x).2).2
  rw [runFw_run] at hback
  have hreach : Reach x.1 (revertNow x).2.1 := ((revertNow_in).via x).reach
  have hrun : (revertNow x).2.1 = (revertUpd 1 (runFw x.1.nv.nor.slotF (setUpd UP.REVERTING x).2).2).2.1 := by
    rw [revertNow, M.bind_run, st_run, M.bind_run, M.bind_run, hkind, if_neg (by decide)]
  obtain ⟨hstate, hfall, hslot, hword, hctl, hclk⟩ := fellBack_reads (fwRuns x.1.nv.nor.slotF (setUpd UP.REVERTING x).2.1)
  rw [fwRuns_nor, hnor] at hslot
  refine ⟨?_, ?_, ?_, ?_, ?_, ?_, hreach⟩ <;> rw [hrun]
  · exact (hback.rd _ rfl rfl).trans hstate
  · exact (hback.rd _ rfl rfl).trans hfall
  · rw [hback.nor rfl, hslot]
  · rw [hback.nor rfl, hword]
  · rw [hback.ctl rfl, hctl, fwRuns_ctl, hset.ctl rfl]
    simp only [updSet, apply_reg, apply_nor]
  · rw [hback.clkMono rfl, hclk, fwRuns]
    simp only [apply_sec, apply_reg, apply_ctl]
    rw [hset.clkMono rfl, updSet]
    simp only [apply_reg, apply_nor]

end Parts

/-! Programming. -/

/-- The slot written has read back right (R414). -/
def readBack (n : Nor) : Nor :=
  if n.updKind = 2 then { n with coreR := { n.coreR with ok := true }, coreWord := .new }
  else { n with slotR := { n.slotR with ok := true }, slotWord := .new }

theorem programDone_good (hstate : s.rd R.UPD_STAT.STATE = UP.PROGRAMMING) (hkind : s.nv.nor.updKind = 1) :
    Does (.programDone true) s fun t => t.rd R.UPD_STAT.STATE = UP.PROGRAMMED ∧ t.nv.nor.slotWord = .new ∧
      t.nv.nor.slotR = { s.nv.nor.slotR with ok := true } := by
  have hset : Via FP.notice (updSet UP.PROGRAMMED (apply (.nor readBack) s))
      (setUpd UP.PROGRAMMED (⟨_, Reach.step Reach.refl (.nor readBack)⟩ : Trace s)).2.1 := setUpd_via rfl
  have hmgmt : ¬ s.nv.nor.updKind = 2 := by omega
  refine Does.mono (E := Via FP.notice (updSet UP.PROGRAMMED (apply (.nor readBack) s))) (does_run rfl rfl ?_) fun t hset => ?_
  · rw [M.bind_run, rd_run, if_neg (not_not.2 hstate), if_pos rfl, M.bind_run, eff_run]
    exact hset
  · refine ⟨(hset.mono rfl).updState (by decide), ?_⟩
    rw [hset.nor rfl, updSet_nor]
    simp only [apply_nor, readBack, if_neg hmgmt, and_self]

theorem programDone_bad (hstate : s.rd R.UPD_STAT.STATE = UP.PROGRAMMING) :
    Does (.programDone false) s fun t => t.rd R.UPD_STAT.STATE = UP.REJECTED ∧ t.rd R.UPD_STAT.ERR = UE.NOR_VERIFY ∧
      t.nv.nor.slotWord = s.nv.nor.slotWord := by
  refine does_run rfl rfl ?_
  rw [M.bind_run, rd_run, if_neg (not_not.2 hstate), if_neg (by decide), M.bind_run, wr_run]
  have hset : Via FP.notice _ (setUpd UP.REJECTED (⟨_, Reach.step Reach.refl (.reg R.UPD_STAT.ERR UE.NOR_VERIFY)⟩ : Trace s)).2.1 := setUpd_via rfl
  refine ⟨(hset.mono rfl).updState (by decide), (hset.rd _ rfl rfl).trans ?_, ?_⟩
  · simp (disch := decide) only [updSet, rd_reg_apart, apply_nor, rd_reg_same, UE.NOR_VERIFY, Nat.reducePow, Nat.reduceMod]
  · rw [hset.nor rfl, updSet_nor]
    simp only [apply_reg]

/-! Arming. -/

section Arming

variable {w : WReq} {tA grp n secs : Nat}

theorem activate_arms (hreq : ByHolder s w WC.ACTIVATE) (hstate : s.rd R.UPD_STAT.STATE = UP.PROGRAMMED)
    (hahead : s.clk.time.toNat + 20000000 ≤ tA) (hmin : 60 ≤ secs) (hmax : secs ≤ 86400) :
    Does (.activate w tA grp n secs) s fun t => Answered s t w WC.ACTIVATE WS.OK [] ∧ t.upd.armed = some (tA, grp, n, secs) ∧
      t.upd.votes = [] := by
  obtain ⟨⟨hport, -⟩, -⟩ := id hreq
  have hlegal : ¬ (secs ≠ 0 ∧ (secs < 60 ∨ 86400 < secs)) := by omega
  have htime : ¬ tA < s.clk.time.toNat + 20000000 := by omega
  refine (actCmd_does (i := .activate w tA grp n secs) (a := plain WS.OK)
    (u := apply (.upd fun u => { u with armed := some (tA, grp, n, secs), votes := [], voted := false }) s) rfl (decide_eq_true hport) hreq ?_ ?_).mono ?_
  · rw [st_bind, if_neg (by omega), if_neg hlegal, if_neg (not_not.2 hstate), if_neg htime, M.bind_run]
    rfl
  · rw [st_bind, if_neg (by omega), if_neg hlegal, if_neg (not_not.2 hstate), if_neg htime, M.bind_run, M.pure_snd, eff_run, if_neg (by omega)]
    exact .refl
  · rintro t ⟨hanswered, hvia⟩
    refine ⟨hanswered, ?_⟩
    rw [hvia.upd rfl]
    simp only [apply_upd, and_self]

theorem activate_late (hreq : ByHolder s w WC.ACTIVATE) (hstate : s.rd R.UPD_STAT.STATE = UP.PROGRAMMED) (hfuture : 0 < tA)
    (hlate : tA < s.clk.time.toNat + 20000000) :
    Does (.activate w tA grp n 0) s fun t => Answered s t w WC.ACTIVATE WS.BAD_ARG [] ∧ t.rd R.UPD_STAT.ERR = UE.TIME_PAST ∧
      t.rd R.UPD_STAT.STATE = UP.PROGRAMMED ∧ t.upd.armed = s.upd.armed := by
  obtain ⟨⟨hport, -⟩, -⟩ := id hreq
  have hlegal : ¬ ((0 : Nat) ≠ 0 ∧ (0 < 60 ∨ 86400 < 0)) := by omega
  refine (actCmd_does (i := .activate w tA grp n 0) (a := plain WS.BAD_ARG)
    (u := apply (.reg R.UPD_STAT.ERR UE.TIME_PAST) s) rfl (decide_eq_true hport) hreq ?_ ?_).mono ?_
  · rw [st_bind, if_neg (by omega), if_neg hlegal, if_neg (not_not.2 hstate), if_pos hlate, M.bind_run]
    rfl
  · rw [st_bind, if_neg (by omega), if_neg hlegal, if_neg (not_not.2 hstate), if_pos hlate, M.bind_run, M.pure_snd, wr_run]
    exact .refl
  · rintro t ⟨hanswered, hvia⟩
    refine ⟨hanswered, (hvia.rd _ rfl rfl).trans ?_, (hvia.rd _ rfl rfl).trans ?_, ?_⟩
    · simp (disch := decide) only [rd_reg_same, UE.TIME_PAST, Nat.reducePow, Nat.reduceMod]
    · simp (disch := decide) only [rd_reg_apart, hstate]
    · rw [hvia.upd rfl]
      simp only [apply_reg]

end Arming

/-! Votes. -/

section Votes

variable {tA grp n secs fa gen : Nat}

theorem voted_run {c : Bool} {fa : Nat} {x : Trace o} (hc : c = !x.1.upd.votes.contains fa) :
    (when_ c (eff (.upd fun u => { u with votes := u.votes ++ [fa] })) x).2.1.upd.votes.contains fa = true ∧
    (when_ c (eff (.upd fun u => { u with votes := u.votes ++ [fa] })) x).2.1.clk = x.1.clk := by
  by_cases hin : x.1.upd.votes.contains fa = true
  · rw [when_off (by rw [hc, hin]; rfl)]
    exact ⟨hin, rfl⟩
  · rw [when_on (by rw [hc, Bool.eq_false_of_not_eq_true hin]; rfl), eff_run]
    simp only [apply_upd, List.contains_eq_mem, List.mem_append, List.mem_singleton, or_true, decide_true, and_self]

/-- What UPD_VOTE_SEND does once its instant has come. -/
theorem voteSent_run {x : Trace o} {own : Nat} (hown : ownFa x.1 = own) (hready : updReady x.1 = true) {t : State} (ht : t = ((do
      svc grp 0 SV.UPD_VOTE [ownFa x.1, if updReady x.1 then 1 else 0]
      when_ (updReady x.1 && !x.1.upd.votes.contains (ownFa x.1)) (eff (.upd fun u => { u with votes := u.votes ++ [ownFa x.1] })) : M o Unit) x).2.1) :
    t.clk.mono = x.1.clk.mono ∧ t.upd.votes.contains own = true := by
  have hsent := (svc_in (o := o) grp 0 SV.UPD_VOTE [ownFa x.1, if updReady x.1 then 1 else 0]).via x
  rw [M.bind_run] at ht
  subst ht hown
  obtain ⟨hvoted, hclk⟩ := voted_run (c := updReady x.1 && !x.1.upd.votes.contains (ownFa x.1)) (fa := ownFa x.1)
    (x := (svc grp 0 SV.UPD_VOTE [ownFa x.1, if updReady x.1 then 1 else 0] x).2) (by rw [hsent.upd rfl, hready, Bool.true_and])
  exact ⟨by rw [hclk, hsent.clkMono rfl], hvoted⟩

/-- Fabric time reaches an instant. The state stands by its own name: the kernel would compute a difference of numbers to see that two forms of it
agree. -/
theorem timeTo_keeps (i : Nat) {x : Trace o} (hx : x.1 = s) : (timeTo i x).2.1.clk.mono = s.clk.mono + (i - s.clk.time.toNat) ∧
    (timeTo i x).2.1.upd = s.upd ∧ updReady (timeTo i x).2.1 = updReady s ∧ ownFa (timeTo i x).2.1 = ownFa s := by
  subst hx
  exact id ⟨rfl, rfl, rfl, rfl⟩

theorem updVoteSend_run (harmed : s.upd.armed = some (tA, grp, n, secs)) (hgroup : grp ≠ 0) {Q : State → Prop} (hQ : Q ((do
      timeTo (tA - 10000000)
      let s ← st
      svc grp 0 SV.UPD_VOTE [ownFa s, if updReady s then 1 else 0]
      when_ (updReady s && !s.upd.votes.contains (ownFa s)) (eff (.upd fun u => { u with votes := u.votes ++ [ownFa s] })) : M s Unit)
        ⟨s, .refl⟩).2.1) : Does .updVoteSend s Q := by
  refine does_run rfl rfl ?_
  rw [st_bind]
  simp only [harmed, if_neg hgroup]
  exact hQ

theorem updVoteSend_does (harmed : s.upd.armed = some (tA, grp, n, secs)) (hgroup : grp ≠ 0) (hready : updReady s = true) :
    Does .updVoteSend s fun t => t.clk.mono = s.clk.mono + (tA - 10000000 - s.clk.time.toNat) ∧ t.upd.votes.contains (ownFa s) = true := by
  refine updVoteSend_run harmed hgroup ?_
  rw [M.bind_run, st_bind]
  obtain ⟨hmono, -, hstill, hfa⟩ := timeTo_keeps (tA - 10000000) (x := (⟨s, .refl⟩ : Trace s)) rfl
  obtain ⟨hclk, hvoted⟩ := voteSent_run (grp := grp) (x := (timeTo (tA - 10000000) ⟨s, .refl⟩).2) hfa (hstill.trans hready) rfl
  exact ⟨hclk.trans hmono, hvoted⟩

/-- A vote counts where it is a ready one of a new member, in time (R418). -/
def voteCounts (s : State) (fa : Nat) (ready : Bool) : Bool :=
  s.upd.armed.any (fun a => decide (s.clk.time.toNat + 1000000 ≤ a.1)) && ready && !s.upd.voted && !s.upd.votes.contains fa

theorem updVote_run {ready : Bool} (hok : genOk s fa gen = true) {Q : State → Prop} (hQ : Q (when_ (voteCounts s fa ready)
    (eff (.upd fun u => { u with votes := u.votes ++ [fa] })) (⟨s, .refl⟩ : Trace s)).2.1) : Does (.updVote fa gen ready) s Q := by
  refine does_run rfl rfl ?_
  rw [st_bind]
  simp only [hok, Bool.not_true, Bool.false_eq_true, if_false]
  exact hQ

theorem updVote_counts (hok : genOk s fa gen = true) (harmed : s.upd.armed = some (tA, grp, n, secs)) (hintime : s.clk.time.toNat + 1000000 ≤ tA)
    (hopen : s.upd.voted = false) (hnew : s.upd.votes.contains fa = false) :
    Does (.updVote fa gen true) s fun t => t.upd = { s.upd with votes := s.upd.votes ++ [fa] } := by
  have hcounts : voteCounts s fa true = true := by
    rw [voteCounts, harmed, Option.any_some, decide_eq_true hintime, hopen, hnew, Bool.not_false, Bool.and_self, Bool.and_self, Bool.and_self]
  refine updVote_run hok ?_
  rw [when_on hcounts, eff_run]
  simp only [apply_upd]

theorem updVote_late {ready : Bool} (hok : genOk s fa gen = true) (harmed : s.upd.armed = some (tA, grp, n, secs))
    (hlate : tA < s.clk.time.toNat + 1000000) : Does (.updVote fa gen ready) s fun t => t.upd = s.upd := by
  have hcounts : voteCounts s fa ready = false := by
    rw [voteCounts, harmed, Option.any_some, decide_eq_false (Nat.not_le.2 hlate), Bool.false_and, Bool.false_and, Bool.false_and]
  refine updVote_run hok ?_
  rw [when_off hcounts]

theorem voteCounted_via {x : Trace o} {t : State} (ht : t = ((do
      eff (.upd fun u => { u with voted := decide (n ≤ x.1.upd.votes.length) })
      when_ (!decide (n ≤ x.1.upd.votes.length)) (ev E.UPD_VOTE_MISS SK.fw 0 [I.COUNT x.1.upd.votes.length]) : M o Unit) x).2.1) :
    Via FP.evRaw (apply (.upd fun u => { u with voted := decide (n ≤ x.1.upd.votes.length) }) x.1) t := by
  have hmiss (c : Bool) (k : Nat) : Within FP.evRaw (when_ c (ev E.UPD_VOTE_MISS SK.fw 0 [I.COUNT k]) : M o _) := within_when (ev_in ..)
  rw [M.bind_run] at ht
  subst ht
  exact (hmiss _ _).viaFrom rfl

theorem voteCount_run (harmed : s.upd.armed = some (tA, grp, n, secs)) (hgroup : grp ≠ 0) {Q : State → Prop} (hQ : Q ((do
      timeTo (tA - 1000000)
      let s ← st
      eff (.upd fun u => { u with voted := decide (n ≤ s.upd.votes.length) })
      when_ (!decide (n ≤ s.upd.votes.length)) (ev E.UPD_VOTE_MISS SK.fw 0 [I.COUNT s.upd.votes.length]) : M s Unit) ⟨s, .refl⟩).2.1) :
    Does .voteCount s Q := by
  refine does_run rfl rfl ?_
  rw [st_bind]
  simp only [harmed, if_neg hgroup]
  exact hQ

theorem voteCount_does (harmed : s.upd.armed = some (tA, grp, n, secs)) (hgroup : grp ≠ 0) :
    Does .voteCount s fun t => t.clk.mono = s.clk.mono + (tA - 1000000 - s.clk.time.toNat) ∧
      t.upd = { s.upd with voted := decide (n ≤ s.upd.votes.length) } := by
  refine voteCount_run harmed hgroup ?_
  rw [M.bind_run, st_bind]
  obtain ⟨hmono, hupd, -⟩ := timeTo_keeps (tA - 1000000) (x := (⟨s, .refl⟩ : Trace s)) rfl
  have hvia := voteCounted_via (n := n) (x := (timeTo (tA - 1000000) ⟨s, .refl⟩).2) rfl
  refine ⟨(hvia.clkMono rfl).trans ?_, (hvia.upd rfl).trans ?_⟩
  · rw [← hmono]
    simp only [apply_upd]
  · simp only [apply_upd, hupd]

end Votes

/-! Activation. -/

section Activation

variable {tA grp n secs : Nat}

/-- The deadline of a new image begins, unconfirmed (R417, R421). -/
theorem startDeadline_reads {x : Trace o} {t : State} (ht : t = (startDeadline x).2.1) : t.rd R.UPD_STAT.STATE = UP.UNCONFIRMED ∧
    tget 0 t.clk.seen K.confirm = x.1.clk.mono ∧ t.clk.mono = x.1.clk.mono ∧ t.ctl = x.1.ctl ∧ t.nv.nor.confirmS = x.1.nv.nor.confirmS ∧
    t.rd R.UPD_VER_RUN.VERSION = x.1.rd R.UPD_VER_RUN.VERSION := by
  subst ht
  have hconv := (convertSettings_in (o := o)).via x
  have hset : Via FP.notice (updSet UP.UNCONFIRMED (convertSettings x).2.1) (setUpd UP.UNCONFIRMED (convertSettings x).2).2.1 := setUpd_via rfl
  have hmono : (setUpd UP.UNCONFIRMED (convertSettings x).2).2.1.clk.mono = x.1.clk.mono := by
    rw [hset.clkMono rfl, updSet]
    simp only [apply_reg, apply_nor]
    rw [hconv.clkMono rfl]
  rw [startDeadline, M.bind_run, M.bind_run, mark_run]
  simp only [apply_seen, tget_tset_self]
  refine ⟨(hset.mono rfl).updState (by decide), hmono, hmono, ?_, ?_, (hset.rd _ rfl rfl).trans ?_⟩
  · rw [hset.ctl rfl, updSet]
    simp only [apply_reg, apply_nor]
    rw [hconv.ctl rfl]
  · rw [hset.nor rfl, updSet_nor, hconv.nor rfl]
  · simp (disch := decide) only [updSet, rd_reg_elsewhere, apply_nor]
    exact hconv.rd _ rfl rfl

/-- An image is run unconfirmed (R417). -/
theorem fwActivated_reads {i : FwImg} {x : Trace o} {t : State} (ht : t = ((do
      runFw i
      setFallback false
      startDeadline
      updEvent FU.ACTIVATED i.version : M o Unit) x).2.1) :
    t.rd R.UPD_STAT.STATE = UP.UNCONFIRMED ∧ tget 0 t.clk.seen K.confirm = x.1.clk.mono ∧ t.clk.mono = x.1.clk.mono ∧
    t.ctl = { x.1.ctl with fw := i } ∧ t.nv.nor.confirmS = x.1.nv.nor.confirmS ∧ t.rd R.UPD_VER_RUN.VERSION = i.version % 2 ^ 32 := by
  have hev : Within FP.evRaw (updEvent FU.ACTIVATED i.version : M o _) := updEvent_in ..
  have hshown : (setFallback false (runFw i x).2).2.1 =
    apply (.reg R.UPD_STAT.FALLBACK 0) (apply (.nor fun n => { n with fallback := false }) (fwRuns i x.1)) := id rfl
  obtain ⟨hstate, hseen, hmono, hctl, hsecs, hversion⟩ := startDeadline_reads (x := (setFallback false (runFw i x).2).2) rfl
  rw [M.bind_run, M.bind_run, M.bind_run] at ht
  subst ht
  have hvia := hev.via (startDeadline (setFallback false (runFw i x).2).2).2
  have hclk : (setFallback false (runFw i x).2).2.1.clk = x.1.clk := by
    rw [hshown]
    simp only [apply_reg, apply_nor, fwRuns, apply_sec, apply_ctl]
  refine ⟨(hvia.rd _ rfl rfl).trans hstate, ?_, ?_, ?_, ?_, (hvia.rd _ rfl rfl).trans (hversion.trans ?_)⟩
  · rw [hvia.seen rfl, hseen, hclk]
  · rw [hvia.clkMono rfl, hmono, hclk]
  · rw [hvia.ctl rfl, hctl, hshown]
    simp only [apply_reg, apply_nor, fwRuns_ctl]
  · rw [hvia.nor rfl, hsecs, hshown]
    simp only [apply_reg, apply_nor, fwRuns_nor]
  · rw [hshown]
    simp (disch := decide) only [rd_reg_elsewhere, apply_nor, fwRuns_version]

/-- New management firmware whose slot verifies runs unconfirmed (R417). -/
theorem activateFw_reads {x : Trace o} (hok : slotOk x.1 x.1.nv.nor.slotR = true) {t : State} (ht : t = (activateFw x).2.1) :
    t.rd R.UPD_STAT.STATE = UP.UNCONFIRMED ∧ tget 0 t.clk.seen K.confirm = x.1.clk.mono ∧ t.clk.mono = x.1.clk.mono ∧
    t.ctl = { x.1.ctl with fw := x.1.nv.nor.slotR } ∧ t.nv.nor.confirmS = x.1.nv.nor.confirmS ∧
    t.rd R.UPD_VER_RUN.VERSION = x.1.nv.nor.slotR.version % 2 ^ 32 := by
  have hset : Via FP.notice (updSet UP.ACTIVATING x.1) (setUpd UP.ACTIVATING x).2.1 := setUpd_via rfl
  have hnor : (setUpd UP.ACTIVATING x).2.1.nv.nor = { x.1.nv.nor with updState := UP.ACTIVATING } := (hset.nor rfl).trans (updSet_nor ..)
  have hkeep : (updSet UP.ACTIVATING x.1).nv.fuses = x.1.nv.fuses ∧ (updSet UP.ACTIVATING x.1).clk = x.1.clk ∧
      (updSet UP.ACTIVATING x.1).ctl = x.1.ctl := by
    rw [updSet]
    simp only [apply_reg, apply_nor, and_self]
  obtain ⟨hfuses, hclk, hctl⟩ := hkeep
  have hslot : (setUpd UP.ACTIVATING x).2.1.nv.nor.slotR = x.1.nv.nor.slotR := by rw [hnor]
  have hgood : slotOk (setUpd UP.ACTIVATING x).2.1 (setUpd UP.ACTIVATING x).2.1.nv.nor.slotR = true := by
    rw [slotOk, hslot, hset.fuses rfl, hfuses]
    exact hok
  rw [activateFw, M.bind_run, st_bind, if_pos hgood] at ht
  obtain ⟨hstate, hseen, hmono, hfw, hsecs, hversion⟩ := fwActivated_reads ht
  rw [hset.clkMono rfl, hclk] at hseen hmono
  rw [hset.ctl rfl, hctl, hslot] at hfw
  rw [hnor] at hsecs
  rw [hslot] at hversion
  exact ⟨hstate, hseen, hmono, hfw, hsecs, hversion⟩

theorem running_via {t : State} (h : Via FP.evRaw s t) : running t = running s := by
  rw [running, running]
  simp only [phaseOf, h.host rfl]

theorem updReady_via {t : State} (h : Via FP.evRaw s t) : updReady t = updReady s := by
  rw [updReady, updReady, running_via h, h.ctl rfl, h.rd _ rfl rfl]

/-- What the firing of an activation finds, when it may go on. -/
theorem activationFires_ready {x : Trace o} (hstate : x.1.rd R.UPD_STAT.STATE = UP.PROGRAMMED) (hready : updReady x.1 = true) :
    ∃ y : Trace o, Via FP.evRaw x.1 y.1 ∧ activationFires grp secs x = (if grp ≠ 0 ∧ !y.1.upd.voted then abortAct UE.VOTE_FAIL
      else do
        eff (.nor fun n => { n with confirmS := secs })
        if y.1.nv.nor.updKind = 2 ∨ y.1.ctl.mode = .minimal then askModule 5 SK.fw else activateFw : M o Unit) y := by
  have hnoted := (noteUnlocked_in (o := o)).via x
  have hgo : ¬ ((noteUnlocked x).2.1.rd R.UPD_STAT.STATE ≠ UP.PROGRAMMED ∨ (!updReady (noteUnlocked x).2.1) = true) := by
    rw [hnoted.rd _ rfl rfl, hstate, updReady_via hnoted, hready]
    decide
  refine ⟨(noteUnlocked x).2, hnoted, ?_⟩
  rw [activationFires, M.bind_run, st_bind, if_neg hgo]

theorem activationFires_missed {x : Trace o} (hstate : x.1.rd R.UPD_STAT.STATE = UP.PROGRAMMED) (hready : updReady x.1 = true) (hgroup : grp ≠ 0)
    (hvotes : x.1.upd.voted = false) {t : State} (ht : t = (activationFires grp secs x).2.1) :
    t.rd R.UPD_STAT.STATE = UP.PROGRAMMED ∧ t.rd R.UPD_STAT.ERR = UE.VOTE_FAIL ∧ t.ctl = x.1.ctl := by
  obtain ⟨y, hvia, hrun⟩ := activationFires_ready (grp := grp) (secs := secs) hstate hready
  have hmiss : grp ≠ 0 ∧ (!y.1.upd.voted) = true := ⟨hgroup, by rw [hvia.upd rfl, hvotes]; rfl⟩
  have hev (n : Nat) : Within FP.evRaw (updEvent FU.ACT_ABORTED n : M o _) := updEvent_in ..
  rw [hrun, if_pos hmiss, abortAct, M.bind_run, st_bind] at ht
  subst ht
  have hlast := (hev (versionNew (wr R.UPD_STAT.ERR UE.VOTE_FAIL y).2.1)).via (wr R.UPD_STAT.ERR UE.VOTE_FAIL y).2
  refine ⟨(hlast.rd _ rfl rfl).trans ?_, (hlast.rd _ rfl rfl).trans ?_, (hlast.ctl rfl).trans ?_⟩ <;> rw [wr_run]
  · simp (disch := decide) only [rd_reg_apart]
    exact (hvia.rd _ rfl rfl).trans hstate
  · simp (disch := decide) only [rd_reg_same, UE.VOTE_FAIL, Nat.reducePow, Nat.reduceMod]
  · simp only [apply_reg]
    exact hvia.ctl rfl

theorem activationFires_runs {x : Trace o} (hstate : x.1.rd R.UPD_STAT.STATE = UP.PROGRAMMED) (hready : updReady x.1 = true)
    (hmode : x.1.ctl.mode ≠ .minimal) (hkind : x.1.nv.nor.updKind = 1) (hok : slotOk x.1 x.1.nv.nor.slotR = true) {t : State}
    (ht : t = (activationFires 0 secs x).2.1) :
    t.rd R.UPD_STAT.STATE = UP.UNCONFIRMED ∧ tget 0 t.clk.seen K.confirm = x.1.clk.mono ∧ t.clk.mono = x.1.clk.mono ∧
    t.ctl = { x.1.ctl with fw := x.1.nv.nor.slotR } ∧ t.nv.nor.confirmS = secs ∧
    t.rd R.UPD_VER_RUN.VERSION = x.1.nv.nor.slotR.version % 2 ^ 32 := by
  obtain ⟨y, hvia, hrun⟩ := activationFires_ready (grp := 0) (secs := secs) hstate hready
  have hmgmt : ¬ (y.1.nv.nor.updKind = 2 ∨ y.1.ctl.mode = .minimal) := by
    rw [hvia.nor rfl, hvia.ctl rfl]
    exact fun hor => hor.elim (by omega) hmode
  rw [hrun, if_neg (fun h => h.1 rfl), if_neg hmgmt, M.bind_run] at ht
  have hkeep : (eff (.nor fun n => { n with confirmS := secs }) y).2.1.clk = y.1.clk ∧ (eff (.nor fun n => { n with confirmS := secs }) y).2.1.ctl = y.1.ctl ∧
      (eff (.nor fun n => { n with confirmS := secs }) y).2.1.nv.nor = { y.1.nv.nor with confirmS := secs } ∧
      (eff (.nor fun n => { n with confirmS := secs }) y).2.1.nv.fuses = y.1.nv.fuses := by
    rw [eff_run]
    simp only [apply_nor, and_self]
  obtain ⟨hclk, hctl, hnor, hfuses⟩ := hkeep
  have hslot : (eff (.nor fun n => { n with confirmS := secs }) y).2.1.nv.nor.slotR = x.1.nv.nor.slotR := by rw [hnor, hvia.nor rfl]
  have hgood : slotOk (eff (.nor fun n => { n with confirmS := secs }) y).2.1
      (eff (.nor fun n => { n with confirmS := secs }) y).2.1.nv.nor.slotR = true := by
    rw [slotOk, hslot, hfuses, hvia.fuses rfl]
    exact hok
  obtain ⟨h1, h2, h3, h4, h5, h6⟩ := activateFw_reads hgood ht
  rw [hclk, hvia.clkMono rfl] at h2 h3
  rw [hctl, hslot, hvia.ctl rfl] at h4
  rw [hnor] at h5
  rw [hslot] at h6
  exact ⟨h1, h2, h3, h4, h5, h6⟩

/-- An activation is armed no more. -/
def unarmed (s : State) : State := apply (.upd fun u => { u with armed := none, votes := [], voted := false }) s

theorem firmwareActivation_run (harmed : s.upd.armed = some (tA, grp, n, secs)) {Q : State → Prop}
    (hQ : Q (unarmed (activationFires grp secs (timeTo tA (⟨s, .refl⟩ : Trace s)).2).2.1)) : Does .firmwareActivation s Q := by
  refine does_run rfl rfl ?_
  rw [st_bind]
  simp only [harmed]
  rw [M.bind_run, M.bind_run, eff_run]
  exact hQ

theorem unarmed_keeps (s : State) : (unarmed s).clk = s.clk ∧ (unarmed s).ctl = s.ctl ∧ (unarmed s).nv = s.nv ∧ (unarmed s).upd.armed = none ∧
    ∀ f, (unarmed s).rd f = s.rd f := by
  simp only [unarmed, apply_upd, implies_true, and_self]

/-- The state in which an instant of fabric time has come. -/
theorem timeTo_state (i : Nat) {x : Trace o} (hx : x.1 = s) : (timeTo i x).2.1.nv = s.nv ∧ (timeTo i x).2.1.ctl = s.ctl ∧
    ∀ f, (timeTo i x).2.1.rd f = s.rd f := by
  subst hx
  exact id ⟨rfl, rfl, fun _ => rfl⟩

theorem firmwareActivation_runs (harmed : s.upd.armed = some (tA, 0, n, secs)) (hstate : s.rd R.UPD_STAT.STATE = UP.PROGRAMMED)
    (hmode : s.ctl.mode = .ready) (hserve : s.rd R.HIF_CTL.SERVE = 0) (hidle : running s = []) (hkind : s.nv.nor.updKind = 1)
    (hok : slotOk s s.nv.nor.slotR = true) :
    Does .firmwareActivation s fun t => t.clk.mono = s.clk.mono + (tA - s.clk.time.toNat) ∧ t.rd R.UPD_STAT.STATE = UP.UNCONFIRMED ∧
      t.ctl = { s.ctl with fw := s.nv.nor.slotR } ∧ t.rd R.UPD_VER_RUN.VERSION = s.nv.nor.slotR.version % 2 ^ 32 ∧ t.upd.armed = none ∧
      tget 0 t.clk.seen K.confirm = t.clk.mono ∧ t.nv.nor.confirmS = secs := by
  have hready : updReady s = true := by
    rw [updReady, hmode, hserve, hidle]
    rfl
  obtain ⟨hmono, -, hstill, -⟩ := timeTo_keeps tA (x := (⟨s, .refl⟩ : Trace s)) rfl
  obtain ⟨hnv, hctl, hrd⟩ := timeTo_state tA (x := (⟨s, .refl⟩ : Trace s)) rfl
  refine firmwareActivation_run harmed ?_
  obtain ⟨h1, h2, h3, h4, h5, h6⟩ := activationFires_runs (secs := secs) (x := (timeTo tA (⟨s, .refl⟩ : Trace s)).2) ((hrd _).trans hstate)
    (hstill.trans hready) (by rw [hctl, hmode]; decide) (by rw [hnv, hkind]) (by rw [slotOk, hnv]; exact hok) rfl
  obtain ⟨hclk', hctl', hnv', hnone, hrd'⟩ := unarmed_keeps (activationFires 0 secs (timeTo tA (⟨s, .refl⟩ : Trace s)).2).2.1
  rw [hctl, hnv] at h4
  rw [hnv] at h6
  rw [hclk', hctl', hnv', hrd', hrd', h2, h3]
  exact ⟨hmono, h1, h4, h6, hnone, rfl, h5⟩

theorem firmwareActivation_missed (harmed : s.upd.armed = some (tA, grp, n, secs)) (hgroup : grp ≠ 0) (hvotes : s.upd.voted = false)
    (hstate : s.rd R.UPD_STAT.STATE = UP.PROGRAMMED) (hready : updReady s = true) :
    Does .firmwareActivation s fun t => t.rd R.UPD_STAT.STATE = UP.PROGRAMMED ∧ t.rd R.UPD_STAT.ERR = UE.VOTE_FAIL ∧ t.ctl = s.ctl ∧
      t.upd.armed = none := by
  obtain ⟨-, hupd, hstill, -⟩ := timeTo_keeps tA (x := (⟨s, .refl⟩ : Trace s)) rfl
  obtain ⟨-, hctl, hrd⟩ := timeTo_state tA (x := (⟨s, .refl⟩ : Trace s)) rfl
  refine firmwareActivation_run harmed ?_
  obtain ⟨h1, h2, h3⟩ := activationFires_missed (secs := secs) (x := (timeTo tA (⟨s, .refl⟩ : Trace s)).2) ((hrd _).trans hstate)
    (hstill.trans hready) hgroup (by rw [hupd, hvotes]) rfl
  obtain ⟨-, hctl', -, hnone, hrd'⟩ := unarmed_keeps (activationFires grp secs (timeTo tA (⟨s, .refl⟩ : Trace s)).2).2.1
  rw [hctl', hrd', hrd']
  exact ⟨h1, h2, h3.trans hctl, hnone⟩

end Activation

/-! Confirmation. -/

section Confirmation

variable {w : WReq}

/-- The image is kept as the fallback, and its security version is blown (R420). -/
def confirmed (s : State) : State :=
  apply (.nor fun n => if n.updKind = 2 then { n with coreF := n.coreR, coreWord := .valid } else { n with slotF := n.slotR, slotWord := .valid })
    (apply (.svnBlow (if s.nv.nor.updKind = 2 then s.nv.nor.coreR.svn else s.nv.nor.slotR.svn)) s)

theorem confirmed_nor (hkind : s.nv.nor.updKind = 1) : (confirmed s).nv.nor = { s.nv.nor with slotF := s.nv.nor.slotR, slotWord := .valid } ∧
    (confirmed s).nv.fuses.svn = max s.nv.fuses.svn (min 64 s.nv.nor.slotR.svn) := by
  have hmgmt : ¬ s.nv.nor.updKind = 2 := by omega
  simp only [confirmed, apply_nor, apply_svnBlow, if_neg hmgmt, Nat.min_comm, and_self]

theorem confirmRest_reads {c : Bool} {fmt : Nat} {x : Trace o} {t : State}
    (ht : Via FP.actCmd (setUpd UP.IDLE (showOwner (when_ c (keepFormat fmt) x).2).2).2.1 t) (hx : x.1 = s) :
    t.rd R.UPD_STAT.STATE = UP.IDLE ∧ t.nv.nor = { s.nv.nor with updState := UP.IDLE } ∧ t.nv.fuses = s.nv.fuses := by
  have hformat := (within_when (c := c) (keepFormat_in (o := o) fmt)).via x
  have hshown := (showOwner_in (o := o)).via (when_ c (keepFormat fmt) x).2
  have hset : Via FP.notice (updSet UP.IDLE (showOwner (when_ c (keepFormat fmt) x).2).2.1)
    (setUpd UP.IDLE (showOwner (when_ c (keepFormat fmt) x).2).2).2.1 := setUpd_via rfl
  subst hx
  refine ⟨(ht.rd _ rfl rfl).trans ((hset.mono rfl).updState (by decide)), (ht.nor rfl).trans ?_, (ht.fuses rfl).trans ?_⟩
  · rw [hset.nor rfl, updSet_nor, hshown.nor rfl, hformat.nor rfl]
  · rw [hset.fuses rfl, updSet]
    simp only [apply_reg, apply_nor]
    rw [hshown.fuses rfl, hformat.fuses rfl]

theorem confirm_does (hreq : ByHolder s w WC.CONFIRM) (hstate : s.rd R.UPD_STAT.STATE = UP.UNCONFIRMED) (hkind : s.nv.nor.updKind = 1) :
    Does (.confirm w) s fun t => Answered s t w WC.CONFIRM WS.IN_PROGRESS [] ∧ t.rd R.UPD_STAT.STATE = UP.IDLE ∧ t.nv.nor.slotF = s.nv.nor.slotR ∧
      t.nv.nor.slotWord = .valid ∧ t.nv.fuses.svn = max s.nv.fuses.svn (min 64 s.nv.nor.slotR.svn) := by
  obtain ⟨⟨hport, -⟩, -⟩ := id hreq
  obtain ⟨hnor, hsvn⟩ := confirmed_nor hkind
  refine (actCmd_does (i := .confirm w) (a := plain WS.IN_PROGRESS) rfl (decide_eq_true hport) hreq ?_ .refl).mono ?_
  · rw [st_bind, if_neg (not_not.2 hstate), M.bind_run, M.bind_run, M.bind_run, M.bind_run, M.bind_run]
    rfl
  · rintro t ⟨hanswered, hvia⟩
    rw [st_bind, if_neg (not_not.2 hstate), M.bind_run, M.bind_run, M.bind_run, M.bind_run, M.bind_run, M.pure_snd] at hvia
    obtain ⟨hidle, hkept, hblown⟩ := confirmRest_reads (s := confirmed s) hvia rfl
    rw [hkept, hblown, hnor]
    exact ⟨hanswered, hidle, rfl, rfl, hsvn⟩

theorem rollback_does (hreq : ByHolder s w WC.ROLLBACK) (hstate : s.rd R.UPD_STAT.STATE = UP.UNCONFIRMED) (hkind : s.nv.nor.updKind = 1) :
    Does (.rollback w) s fun t => Answered s t w WC.ROLLBACK WS.IN_PROGRESS [] ∧ t.rd R.UPD_STAT.STATE = UP.IDLE ∧ t.nv.nor.slotR = s.nv.nor.slotF ∧
      t.nv.nor.slotWord = .valid ∧ t.rd R.UPD_STAT.FALLBACK = 1 ∧ t.ctl = { s.ctl with fw := s.nv.nor.slotF } := by
  obtain ⟨⟨hport, -⟩, -⟩ := id hreq
  refine (actCmd_does (i := .rollback w) (a := plain WS.IN_PROGRESS) rfl (decide_eq_true hport) hreq ?_ .refl).mono ?_
  · rw [M.bind_run, rd_run, if_neg (not_not.2 hstate), M.bind_run]
    rfl
  · rintro t ⟨hanswered, hvia⟩
    rw [M.bind_run, rd_run, if_neg (not_not.2 hstate), M.bind_run, M.pure_snd] at hvia
    obtain ⟨h1, h2, h3, h4, h5, -⟩ := revertNow_reads (x := (⟨s, .refl⟩ : Trace s)) hkind rfl
    refine ⟨hanswered, (hvia.rd _ rfl rfl).trans h1, ?_, ?_, (hvia.rd _ rfl rfl).trans h2, (hvia.ctl rfl).trans h5⟩
    · rw [hvia.nor rfl, h3]
    · rw [hvia.nor rfl, h4]

theorem confirmDeadline_does (hstate : s.rd R.UPD_STAT.STATE = UP.UNCONFIRMED) (hkind : s.nv.nor.updKind = 1) :
    Does .confirmDeadline s fun t => t.clk.mono = max s.clk.mono (tget 0 s.clk.seen K.confirm + 1000000000 * s.nv.nor.confirmS) ∧
      t.rd R.UPD_STAT.STATE = UP.IDLE ∧ t.nv.nor.slotR = s.nv.nor.slotF ∧ t.ctl = { s.ctl with fw := s.nv.nor.slotF } := by
  refine does_run rfl rfl ?_
  rw [st_bind, if_neg (not_not.2 hstate), M.bind_run, advTo_run]
  generalize tget 0 s.clk.seen K.confirm + 1000000000 * s.nv.nor.confirmS = i
  obtain ⟨h1, -, h3, -, h5, h6, -⟩ := revertNow_reads (x := (⟨apply (.pass (i - s.clk.mono)) s, .step .refl _⟩ : Trace s)) hkind rfl
  exact ⟨h6.trans (mono_until s i), h1, h3, h5⟩

end Confirmation

/-! Plan slots. -/

section Plans

variable {w : WReq} {tA slot : Nat}

theorem activatePlan_arms (hreq : ByHolder s w WC.ACTIVATE_PLAN) (hslot : slot < 2) (hahead : s.clk.time.toNat < tA) :
    Does (.activatePlan w tA slot) s fun t => Answered s t w WC.ACTIVATE_PLAN WS.OK [] ∧ t.upd.planAt = some (tA, slot) := by
  obtain ⟨⟨hport, -⟩, -⟩ := id hreq
  have hlegal : ¬ (1 < slot ∨ (tA ≠ 0 ∧ tA ≤ s.clk.time.toNat)) := by omega
  have hlater : tA ≠ 0 := by omega
  refine (actCmd_does (i := .activatePlan w tA slot) (a := plain WS.OK)
    (u := apply (.upd fun u => { u with planAt := some (tA, slot) }) s) rfl (decide_eq_true hport) hreq ?_ ?_).mono ?_
  · rw [st_bind, if_neg hlegal, if_pos hlater, M.bind_run]
    rfl
  · rw [st_bind, if_neg hlegal, if_pos hlater, M.bind_run, M.pure_snd, eff_run]
    exact .refl
  · rintro t ⟨hanswered, hvia⟩
    refine ⟨hanswered, ?_⟩
    rw [hvia.upd rfl]
    simp only [apply_upd]

theorem journalRest_in (c : Bool) (f : Qs → Qs) (g : HostIf → HostIf) (h : Vault → Vault) : Within (foot [.host, .qs, .seen, .vlt]) (do
    when_ c (do
      eff (.qs f)
      mark K.qsNew)
    eff (.host g)
    eff (.vlt h)
    mark K.journal : M o Unit) :=
  within_bind (within_when (within_bind (eff_in .qs rfl rfl) fun _ => (mark_in _).mono rfl)) fun _ =>
    within_bind (eff_in .host rfl rfl) fun _ => within_bind (eff_in .vlt rfl rfl) fun _ => (mark_in _).mono rfl

theorem commitJournal_active (x : Trace o) : (commitJournal x).2.1.nv.super.active = x.1.nv.super.active := by
  unfold commitJournal
  rw [st_bind, st_bind]
  cases x.1.vlt.life with
  | none =>
    rw [M.bind_run, M.pure_snd, ((journalRest_in ..).via x).super rfl]
  | some l =>
    rw [M.bind_run, ((journalRest_in ..).via _).super rfl]
    simp only [eff_run, apply_super]

/-- The owner's key of the active image is checked: at most its slot is verified no more. -/
theorem checkOwner_active (x : Trace o) : (checkOwner x).2.1.nv.super.active = x.1.nv.super.active := by
  rw [checkOwner, st_bind]
  cases hc : activeVerified x.1 && (ownerModulus x.1 (peek x.1 (imgBase x.1 + 0x40) 64)).isNone with
  | false => rw [when_off rfl]
  | true =>
    rw [when_on rfl, markSlot, eff_run]
    simp only [apply_super]
    split <;> rfl

theorem planSwitch_reads (hslot : slot < 2) {x : Trace o} {t : State} (ht : t = (planSwitch slot x).2.1) : t.nv.super.active = slot ∧
    t.rd R.MEM_VLT_STAT.ACTIVE_SLOT = slot ∧ t.clk.mono = x.1.clk.mono ∧ t.upd = x.1.upd := by
  have hvia : Via FP.planSwitch x.1 t := ht ▸ (planSwitch_in slot).via x
  have hfits : slot % 2 ^ 1 = slot := Nat.mod_eq_of_lt hslot
  have hev := (ev_in (o := o) E.PLAN_ACTIVATED SK.fw 0 [I.VALUE slot]).via
  have hjournal := (commitJournal_in (o := o)).via
  have howner := (checkOwner_in (o := o)).via
  rw [planSwitch, M.bind_run, M.bind_run, M.bind_run, M.bind_run, M.bind_run] at ht
  refine ⟨?_, ?_, hvia.clkMono rfl, hvia.upd rfl⟩ <;> rw [ht]
  · rw [checkOwner_active, (hev _).super rfl, eff_run]
    simp only [apply_mem]
    rw [commitJournal_active, wr_run, eff_run]
    simp only [apply_reg, apply_super]
  · rw [(howner _).rd _ rfl rfl, (hev _).rd _ rfl rfl, eff_run]
    simp only [apply_mem]
    rw [(hjournal _).rd _ rfl rfl, wr_run]
    simp (disch := decide) only [rd_reg_same, hfits]

theorem activatePlan_now (hreq : ByHolder s w WC.ACTIVATE_PLAN) (hslot : slot < 2) (hready : planReady s slot = true) :
    Does (.activatePlan w 0 slot) s fun t => Sent s t (.worisy w.port w.seq WC.ACTIVATE_PLAN WS.OK 0 []) ∧ t.nv.super.active = slot ∧
      t.rd R.MEM_VLT_STAT.ACTIVE_SLOT = slot := by
  obtain ⟨⟨hport, -⟩, -⟩ := id hreq
  have hlegal : ¬ (1 < slot ∨ ((0 : Nat) ≠ 0 ∧ 0 ≤ s.clk.time.toNat)) := by omega
  refine (actCmd_does (i := .activatePlan w 0 slot) (a := plain WS.OK) rfl (decide_eq_true hport) hreq ?_ .refl).mono ?_
  · rw [st_bind, if_neg hlegal, if_neg (not_not.2 rfl), if_pos hready, M.bind_run]
    rfl
  · rintro t ⟨⟨hsent, -⟩, hvia⟩
    rw [st_bind, if_neg hlegal, if_neg (not_not.2 rfl), if_pos hready, M.bind_run, M.pure_snd] at hvia
    obtain ⟨hactive, hshown, -⟩ := planSwitch_reads hslot (x := (⟨s, .refl⟩ : Trace s)) rfl
    exact ⟨hsent, by rw [hvia.super rfl, hactive], (hvia.rd _ rfl rfl).trans hshown⟩

theorem planReady_kept {t : State} (hs : t.nv.super = s.nv.super)
    (hk : ∀ c, t.rd (R.HIF_CTX_STATc.STATE c) = s.rd (R.HIF_CTX_STATc.STATE c)) : planReady t slot = planReady s slot := by
  simp only [planReady, hs, hk]

theorem planActivation_run (harmed : s.upd.planAt = some (tA, slot)) {Q : State → Prop} (hQ : ∀ x : Trace s,
    x.1 = apply (.upd fun u => { u with planAt := none }) (apply (.pass (tA - s.clk.time.toNat)) s) →
    Q ((if planReady (noteUnlocked x).2.1 slot then planSwitch slot else ev E.PLAN_ACTIVATE_FAIL SK.fw 0 [I.VALUE slot] : M s Unit)
      (noteUnlocked x).2).2.1) : Does .planActivation s Q := by
  refine does_run rfl rfl ?_
  rw [st_bind]
  simp only [harmed]
  rw [M.bind_run, M.bind_run, M.bind_run, st_bind]
  exact hQ _ rfl

theorem planActivation_does (harmed : s.upd.planAt = some (tA, slot)) (hslot : slot < 2) (hready : planReady s slot = true) :
    Does .planActivation s fun t => s.clk.mono + (tA - s.clk.time.toNat) ≤ t.clk.mono ∧ t.nv.super.active = slot ∧
      t.rd R.MEM_VLT_STAT.ACTIVE_SLOT = slot ∧ t.upd.planAt = none := by
  refine planActivation_run harmed fun x hx => ?_
  have hnoted := (noteUnlocked_in (o := s)).via x
  have hsuper : (noteUnlocked x).2.1.nv.super = s.nv.super := by
    rw [hnoted.super rfl, hx]
    simp only [apply_upd, apply_pass]
  have hgo : planReady (noteUnlocked x).2.1 slot = true := by
    refine (planReady_kept hsuper fun c => ?_).trans hready
    rw [hnoted.rdKind .HIF_CTX_STATc rfl rfl rfl, hx]
    simp only [apply_upd, apply_pass]
  obtain ⟨hactive, hshown, hmono, hupd⟩ := planSwitch_reads hslot (x := (noteUnlocked x).2) rfl
  rw [if_pos hgo, hmono, hupd, hnoted.clkMono rfl, hnoted.upd rfl, hx]
  refine ⟨?_, hactive, hshown, ?_⟩
  · simp only [apply_upd, apply_pass, le_refl]
  · simp only [apply_upd]

end Plans

/-- Settles O58: what each command of the update procedure leaves, read off the states that its parts go through. -/
theorem updateCommandsComplete : Obligations.UpdateCommandsComplete := by
  refine ⟨fun s ok hstate hkind => ?programmed, fun s w tA grp n secs h1 h2 h3 h4 h5 => activate_arms h1 h2 h3 h4 h5,
    fun s w tA grp n h1 h2 h3 h4 => activate_late h1 h2 h3 h4, fun s tA grp n secs h1 h2 h3 => updVoteSend_does h1 h2 h3,
    fun s fa gen tA grp n secs h1 h2 h3 h4 h5 => updVote_counts h1 h2 h3 h4 h5, fun s fa gen tA grp n secs ready h1 h2 h3 => updVote_late h1 h2 h3,
    fun s tA grp n secs h1 h2 => voteCount_does h1 h2, fun s tA n secs h1 h2 h3 h4 h5 h6 h7 => firmwareActivation_runs h1 h2 h3 h4 h5 h6 h7,
    fun s tA grp n secs h1 h2 h3 h4 h5 => firmwareActivation_missed h1 h2 h3 h4 h5, fun s w h1 h2 h3 => confirm_does h1 h2 h3,
    fun s w h1 h2 h3 => rollback_does h1 h2 h3, fun s h1 h2 => confirmDeadline_does h1 h2,
    fun s w tA slot h1 h2 h3 => activatePlan_arms h1 h2 h3, fun s w slot h1 h2 h3 => activatePlan_now h1 h2 h3,
    fun s tA slot h1 h2 h3 => planActivation_does h1 h2 h3⟩
  cases ok with
  | true => exact programDone_good hstate hkind
  | false => exact programDone_bad hstate

end Sys2Proof.Machine
end

section
/-!
PROOFS. Any write of the vault's own state brings its wear budget to the budget's size (R157): of a budget beyond it, which no step from reset
reaches, a recorder page takes more than one unit.
-/

set_option Elab.async false

namespace Sys2Proof.Machine

/-- A closed page stands in staging, and the wear budget holds 400,000,000 units, more than its size. -/
def wearBeyondSize : State :=
  { State.reset with rcd.stage := [⟨0, [], true, 0⟩], ctl.doneTrain := true, vlt.wear := 400000000, vlt.held := false }

/-- The page is written, and the budget is cut to its size. -/
theorem recorderPageWrite_caps : ∃ t, exec .recorderPageWrite wearBeyondSize = .next t ∧ t.vlt.wear = 305000000 := ⟨_, rfl, by decide +kernel⟩

/-- Refutes O57: RECORDER_PAGE_WRITE takes 95,000,000 units of a wear budget that stands above its size. -/
theorem not_securityAndRecorderComplete : ¬ Obligations.SecurityAndRecorderComplete := by
  rintro ⟨-, -, -, -, -, -, -, hwrite, -⟩
  obtain ⟨t, hnext, -, hwear, -⟩ := hwrite wearBeyondSize ⟨0, [], true, 0⟩ rfl rfl rfl (by decide +kernel) (by decide +kernel) (by decide +kernel) rfl
  obtain ⟨t', hnext', hcapped⟩ := recorderPageWrite_caps
  obtain rfl : t' = t := by injection hnext'.symm.trans hnext
  rw [hcapped] at hwear
  exact absurd hwear (by decide +kernel)

end Sys2Proof.Machine
end

section
/-!
PROOFS. A page is written back only where the codewords that it covers in part can be read (R134): an error noted at an address that no codeword
begins at, which no step from reset does, keeps MEM_RESTORED from writing.
-/

set_option Elab.async false

namespace Sys2Proof.Machine

/-- Page 0 of tier 0 holds a byte that its image has not, and an uncorrectable error stands at its last byte, found lost. -/
def lostInPart : State :=
  { State.reset with
    host.ctx := [(0, { Ctx.init with ranges := [(0, 0, 4096, 0)] })]
    bytes := [(0, 1)]
    mem.stale := []
    mem.badPages := []
    mem.errs := [(4095, [(0, 1), (1, 1)])]
    mem.lostCw := [4095] }

theorem memRestored_reads : ∃ t, exec (.memRestored 0) lostInPart = .next t ∧ byteAt t 0 = 1 := ⟨_, rfl, by decide +kernel⟩

/-- Refutes O43: MEM_RESTORED does not bring back a page whose last codeword is noted across its end. -/
theorem not_memoryTierCommandsComplete : ¬ Obligations.MemoryTierCommandsComplete := by
  rintro ⟨-, -, -, -, -, -, -, -, hrestored, -⟩
  obtain ⟨t, hnext, hbytes⟩ := hrestored lostInPart 0 (vaultBase + 0x180000000) 4095 (by decide +kernel) (by decide +kernel) (by decide +kernel)
    (by decide +kernel) (by decide +kernel) (by decide +kernel) (by decide +kernel) (by decide +kernel) (by decide +kernel)
  obtain ⟨t', hnext', hkept⟩ := memRestored_reads
  obtain rfl : t' = t := by injection hnext'.symm.trans hnext
  have himage : (peek lostInPart (vaultBase + 0x180000000) 4096).getD 0 0 = 0 := by decide +kernel
  exact absurd ((hkept.symm.trans (hbytes 0 (by decide))).trans himage) (by decide)

end Sys2Proof.Machine
end

section
/-!
PROOFS. General core operations: registers, stores, lanes and illegal instructions (R106 to R112, R118, R119).
-/

set_option Elab.async false

namespace Sys2Proof.Machine

variable {o s : State} {p g : Nat}

/-! Stores. -/

theorem leBytes_length (n x : Nat) : (leBytes n x).length = n := by
  induction n generalizing x with
  | zero => rfl
  | succ n ih => simp [leBytes, ih]

theorem leBytes_get {n : Nat} (x : Nat) {i : Nat} (hi : i < n) : (leBytes n x)[i]'(by rw [leBytes_length]; exact hi) = BitVec.ofNat 8 (x / 256 ^ i) := by
  induction n generalizing x i with
  | zero => exact absurd hi (Nat.not_lt_zero i)
  | succ n ih =>
    cases i with
    | zero => simp [leBytes]
    | succ i =>
      have hrest := ih (x / 256) (Nat.lt_of_succ_lt_succ hi)
      simp only [leBytes, List.getElem_cons_succ]
      rw [hrest, Nat.div_div_eq_div_mul, Nat.pow_succ']

theorem writeMem_clean (x : Trace o) {rdr unit a : Nat} (bs : List Byte) (h : onChip a) (hclean : x.1.mem.errs = []) :
    writeMem rdr unit a bs x = (.ok (), ⟨apply (.write a bs) x.1, .step x.2 _⟩) := by
  have hnone (s : State) (hs : s.mem.errs = []) : errCws s a bs.length = [] := errCws_of_no_errs hs a _
  have hpart : partCws x.1 a bs.length = [] := by rw [partCws, hnone _ hclean, List.filter_nil]
  rw [writeMem, st_bind, chanFailed_onChip _ _ h, if_neg Bool.false_ne_true, hpart]
  simp only [checkCws, M.bind_run, M.pure_run, st_run, hnone _ hclean, List.isEmpty_nil, Bool.not_true, eff_run, when_run, Bool.false_eq_true, if_false,
    if_true]

theorem coreStore_run (x : Trace o) (h : CoreAt x.1 p g) (herrs : x.1.mem.errs = []) {a m : Nat} {bs : List Byte} (hlen : 0 < bs.length)
    (hm : coreAddr p g a bs.length = some m) : coreStore p g a bs x = (true, ⟨apply (.write m bs) x.1, .step x.2 _⟩) := by
  obtain ⟨hp, hg, -⟩ := h
  have hwrite := writeMem_clean x (rdr := RC.core) (unit := uidOf p 1 g) bs (onChip_coreAddr hp hg hm hlen) herrs
  simp only [coreStore, hm, M.bind_run, hwrite, M.pure_run]

/-- The core has stored bytes and goes on at the next word. -/
def storedAt (p g m : Nat) (bs : List Byte) (s : State) : State :=
  jumped p g (s.rd (R.PART_CORE_STAT.PC p g) + 1) (apply (.write m bs) s)

theorem storeNext_fin (x : Trace o) (h : CoreAt x.1 p g) (herrs : x.1.mem.errs = []) {a m : Nat} {bs : List Byte} (hlen : 0 < bs.length)
    (hm : coreAddr p g a bs.length = some m) : ((coreStore p g a bs >>= fun ok => if ok = true then coreNext p g else pure ()) x).2.1 =
      storedAt p g m bs x.1 := by
  obtain ⟨hp, hg, -, -, -, -, hpc, -⟩ := id h
  rw [M.bind_run, coreStore_run x h herrs hlen hm, if_pos rfl, coreNext_fin _ hp hg] <;> simp only [apply_write, storedAt]
  exact hpc

theorem storedAt_byte (m : Nat) (bs : List Byte) (s : State) {i : Nat} (hi : i < bs.length) : byteAt (storedAt p g m bs s) (m + i) = bs[i] := by
  simp only [byteAt, storedAt, jumped, apply_reg, apply_core, apply_write]
  exact tget_twrite_in _ _ _ _ hi

theorem storedAt_committed (hpc : s.rd (R.PART_CORE_STAT.PC p g) < 65535) (m : Nat) (bs : List Byte) : Committed s (storedAt p g m bs s) p g :=
  ⟨jumped_pc _ (by omega), jumped_state _⟩

theorem store_does (h : CoreAt s p g) {x a len m : Nat} {off : Int} (hx : x < 32) (ha : a < 32) (hlen : len = 1 ∨ len = 2 ∨ len = 4 ∨ len = 8)
    (herrs : s.mem.errs = []) (hm : coreAddr p g (effAddr (coreOf s p g) a off) len = some m) :
    Does (.ewcInstruction p g (.store x a off len) Flt.none) s (· = storedAt p g m (leBytes len ((coreOf s p g).getX x).toNat) s) := by
  have hlength := leBytes_length len ((coreOf s p g).getX x).toNat
  refine ewc_does h (by simp [EwcOp.wf, hx, ha]) ?_
  rw [ewcBody, M.bind_run, core_run_coreOf]
  simp only [if_pos hlen]
  exact storeNext_fin _ h herrs (by omega) (by rw [hlength]; exact hm)

theorem vstore_does (h : CoreAt s p g) {x a m : Nat} {off : Int} (hx : x < 32) (ha : a < 32) (herrs : s.mem.errs = [])
    (hm : coreAddr p g (effAddr (coreOf s p g) a off) 64 = some m) :
    Does (.ewcInstruction p g (.vstore x a off) Flt.none) s (· = storedAt p g m (leBytes 64 ((coreOf s p g).getV x).toNat) s) := by
  have hlength := leBytes_length 64 ((coreOf s p g).getV x).toNat
  refine ewc_does h (by simp [EwcOp.wf, hx, ha]) ?_
  rw [ewcBody, M.bind_run, core_run_coreOf]
  exact storeNext_fin _ h herrs (by rw [hlength]; decide) (by rw [hlength]; exact hm)

theorem storedAt_bytes (m len x : Nat) (s : State) : ∀ i < len, byteAt (storedAt p g m (leBytes len x) s) (m + i) = BitVec.ofNat 8 (x / 256 ^ i) := by
  intro i hi
  rw [storedAt_byte _ _ _ (by rw [leBytes_length]; exact hi), leBytes_get _ hi]

/-! Committed registers. -/

theorem committed_commits (hpc : s.rd (R.PART_CORE_STAT.PC p g) < 65535) (f : Core → Core) : Committed s (committed p g f s) p g :=
  ⟨jumped_pc _ (by omega), jumped_state _⟩

theorem committed_core (f : Core → Core) (s : State) : (coreOf (committed p g f s) p g).x = (f (coreOf s p g)).x ∧
    (coreOf (committed p g f s) p g).v = (f (coreOf s p g)).v := by
  simp only [coreOf, committed, jumped, apply_reg, apply_core, tget_tset_self, and_self]

theorem committed_getX (f : Core → Core) (s : State) (r : Nat) : (coreOf (committed p g f s) p g).getX r = (f (coreOf s p g)).getX r := by
  rw [Core.getX, Core.getX, (committed_core f s).1]

theorem committed_getV (f : Core → Core) (s : State) (r : Nat) : (coreOf (committed p g f s) p g).getV r = (f (coreOf s p g)).getV r := by
  rw [Core.getV, Core.getV, (committed_core f s).2]

theorem setX_reads (c : Core) (d : Nat) (v : BitVec 64) : XReads (c.setX d v) d v := by
  unfold XReads Core.setX Core.getX
  by_cases hd : d = 0
  · simp only [if_pos hd]
  · simp only [if_neg hd, tget_tset_self]

theorem setX_other (c : Core) {d r : Nat} (v : BitVec 64) (h : r ≠ d) : (c.setX d v).getX r = c.getX r := by
  unfold Core.setX Core.getX
  by_cases hd : d = 0
  · simp only [if_pos hd]
  · simp only [if_neg hd, tget_tset_ne _ _ _ _ _ h]

theorem setV_get (c : Core) (d : Nat) (v : BitVec 512) : (c.setV d v).getV d = v := tget_tset_self _ _ _ _

theorem xReads_committed {d : Nat} {v : BitVec 64} (f : Core → Core) (hf : f (coreOf s p g) = (coreOf s p g).setX d v) :
    XReads (coreOf (committed p g f s) p g) d v := by
  have hset := setX_reads (coreOf s p g) d v
  unfold XReads at hset ⊢
  rw [committed_getX, hf, hset]

theorem vReads_committed {d : Nat} {v : BitVec 512} (f : Core → Core) (hf : f (coreOf s p g) = (coreOf s p g).setV d v) :
    (coreOf (committed p g f s) p g).getV d = v := by rw [committed_getV, hf, setV_get]

/-! Lanes. -/

/-- A draw of free bits. The value stands by a name of its own: the kernel would compute it. -/
theorem freeBits_run (w : Nat) (x : Trace o) : ∃ (n : Nat) (y : Trace o), freeBits w x = (n, y) ∧ y.1 = apply .draw x.1 := ⟨_, _, rfl, rfl⟩

/-- `upNext_fin` for a state that differs from the one the turn began with. -/
theorem upNext_run (x : Trace o) (h : CoreAt s p g) (hpc : x.1.rd (R.PART_CORE_STAT.PC p g) = s.rd (R.PART_CORE_STAT.PC p g)) (f : Core → Core) :
    ((upCore p g f >>= fun _ => coreNext p g) x).2.1 = committed p g f x.1 := by
  obtain ⟨hp, hg, -, -, -, -, hlast, -⟩ := h
  rw [M.bind_run, upCore_run, coreNext_fin _ hp hg] <;> simp only [apply_core, committed, hpc]
  exact hlast

theorem aluOpen_does (h : CoreAt s p g) {op : AluOp} {d a b : Nat} (hd : d < 32) (ha : a < 32) (hb : b < 32)
    (hopen : aluOpen op ((coreOf s p g).getX b) = true) : Does (.ewcInstruction p g (.alu op d a b) Flt.none) s fun t =>
      ∃ v, t = committed p g (fun c => c.setX d (aluOp op (c.getX a) (c.getX b) v)) (apply .draw s) := by
  refine ewc_does h (by simp [EwcOp.wf, hd, ha, hb]) ?_
  rw [ewcBody, M.bind_run, core_run_coreOf]
  obtain ⟨n, y, hrun, hy⟩ := freeBits_run 64 (⟨s, Reach.refl⟩ : Trace s)
  simp only [hopen, if_true]
  rw [M.bind_run, hrun, ← hy]
  exact ⟨_, upNext_run y h (by rw [hy, rd_draw]) _⟩

theorem vred_does (h : CoreAt s p g) (ty : VTy) (rtz : Bool) {d a : Nat} (hd : d < 32) (ha : a < 32) :
    Does (.ewcInstruction p g (.vred ty rtz d a) Flt.none) s (· = committed p g (fun c => c.setV d (vRed ty (rndMode rtz) (c.getV a))) s) := by
  refine ewc_does h (by simp [EwcOp.wf, hd, ha]) ?_
  rw [ewcBody, M.bind_run, core_run_coreOf]
  exact upNext_fin _ h _

/-- Lanes that each have a value are converted without a draw. -/
theorem vCvtLanes_run (src dst : VTy) (md : Rnd) (a : BitVec 512) (l : List Nat) (x : Trace o)
    (h : ∀ k ∈ l, (vCvtLane src dst md (laneOf src a k)).isSome = true) :
    vCvtLanes src dst md a l x = (l.map fun k => (vCvtLane src dst md (laneOf src a k)).getD 0, x) := by
  induction l with
  | nil => rfl
  | cons k l ih =>
    obtain ⟨v, hv⟩ := Option.isSome_iff_exists.1 (h k List.mem_cons_self)
    have hrest := ih fun j hj => h j (List.mem_cons_of_mem _ hj)
    rw [vCvtLanes, hv]
    simp only [M.bind_run, M.pure_run, hrest, List.map_cons, hv, Option.getD_some]

theorem vcvt_does (h : CoreAt s p g) {src dst : VTy} {rtz : Bool} {d a : Nat} (hd : d < 32) (ha : a < 32)
    (hlanes : ∀ k < min (vLanes src) (vLanes dst), (vCvtLane src dst (rndMode rtz) (laneOf src ((coreOf s p g).getV a) k)).isSome = true) :
    Does (.ewcInstruction p g (.vcvt src dst rtz d a) Flt.none) s (· = committed p g (fun c => c.setV d (ofLanes (vBits dst)
      ((List.range (min (vLanes src) (vLanes dst))).map fun k =>
        (vCvtLane src dst (rndMode rtz) (laneOf src ((coreOf s p g).getV a) k)).getD 0))) s) := by
  refine ewc_does h (by simp [EwcOp.wf, hd, ha]) ?_
  rw [ewcBody, M.bind_run, core_run_coreOf]
  simp only []
  rw [M.bind_run, vCvtLanes_run _ _ _ _ _ _ fun k hk => hlanes k (List.mem_range.1 hk)]
  exact upNext_fin _ h _

theorem vunpack_does (h : CoreAt s p g) {f : Nat} {rtz : Bool} {d a b x : Nat} (hd : d < 32) (ha : a < 32) (hb : b < 32) (hx : x < 32)
    (hf : packFmt f = true) : Does (.ewcInstruction p g (.vunpack f rtz d a b x) Flt.none) s
      (· = committed p g (fun c => c.setV d (vUnpack f (rndMode rtz) (c.getV a) (c.getV b) (c.getX x).toNat)) s) := by
  refine ewc_does h (by simp [EwcOp.wf, hd, ha, hb, hx]) ?_
  rw [ewcBody, M.bind_run, core_run_coreOf]
  simp only [if_pos hf]
  exact upNext_fin _ h _

/-- A pack whose scale byte is not 0xFF takes no free lanes. -/
theorem vpack_closed (h : CoreAt s p g) {f : Nat} {rtz : Bool} {d a b x : Nat} (hd : d < 32) (ha : a < 32) (hb : b < 32) (hx : x < 32)
    (hf : packFmt f = true) (hclosed : (packScaled f && decide (((coreOf s p g).getX x).toNat % 256 = 255)) = false) :
    Does (.ewcInstruction p g (.vpack f rtz d a b x) Flt.none) s
      (· = committed p g (fun c => c.setV d (vPack f (rndMode rtz) (c.getV a) (c.getV b) ((coreOf s p g).getX x).toNat)) s) := by
  refine ewc_does h (by simp [EwcOp.wf, hd, ha, hb, hx]) ?_
  rw [ewcBody, M.bind_run, core_run_coreOf]
  simp only [hf, Bool.not_true, Bool.false_eq_true, if_false, hclosed]
  rw [M.bind_run, M.pure_run]
  exact upNext_fin _ h _

theorem vpack_open (h : CoreAt s p g) {f : Nat} {rtz : Bool} {d a b x : Nat} (hd : d < 32) (ha : a < 32) (hb : b < 32) (hx : x < 32)
    (hf : packFmt f = true) (hopen : (packScaled f && decide (((coreOf s p g).getX x).toNat % 256 = 255)) = true) :
    Does (.ewcInstruction p g (.vpack f rtz d a b x) Flt.none) s fun t => ∃ v, t = committed p g (fun c => c.setV d v) (apply .draw s) := by
  refine ewc_does h (by simp [EwcOp.wf, hd, ha, hb, hx]) ?_
  rw [ewcBody, M.bind_run, core_run_coreOf]
  obtain ⟨n, y, hrun, hy⟩ := freeBits_run (16 * packBits f) (⟨s, Reach.refl⟩ : Trace s)
  simp only [hf, Bool.not_true, Bool.false_eq_true, if_false, hopen, if_true]
  rw [M.bind_run, hrun, ← hy]
  exact ⟨_, upNext_run y h (by rw [hy, rd_draw]) _⟩

/-! Illegal instructions. -/

/-- An action after which a property of the state still stands. -/
def Keeps (P : State → Prop) {α : Type} (m : M o α) : Prop := ∀ x : Trace o, P x.1 → P (m x).2.1

section Keeps

variable {P : State → Prop} {α β : Type}

theorem Keeps.pure (a : α) : Keeps P (pure a : M o α) := fun _ h => h

theorem Keeps.bind {m : M o α} {f : α → M o β} (hm : Keeps P m) (hf : ∀ a, Keeps P (f a)) : Keeps P (m >>= f) := fun x h => hf _ _ (hm x h)

theorem Keeps.each {l : List α} {f : α → M o Unit} (hf : ∀ a, Keeps P (f a)) : Keeps P (each l f) := by
  induction l with
  | nil => exact .pure ()
  | cons a l ih => exact .bind (hf a) fun _ => ih

theorem Keeps.when {c : Bool} {m : M o Unit} (hm : Keeps P m) : Keeps P (when_ c m) := by
  cases c with
  | false => exact .pure ()
  | true => exact hm

/-- An action whose footprint leaves the property alone. -/
theorem Keeps.within {N : Nat} {m : M o α} (h : Within N m) (hP : ∀ {s t}, Via N s t → P s → P t) : Keeps P m := fun x hx => hP (h.via x) hx

end Keeps

/-- Core g of partition p has stopped at an illegal instruction. -/
def IllegalStop (p g : Nat) (s : State) : Prop := s.rd (R.PART_CORE_STAT.ILLEGAL p g) = 1 ∧ s.rd (R.PART_CORE_STAT.STATE p g) = US.STOPPED

theorem illegalStop_via {N : Nat} (hk : N.testBit (64 + RegKind.PART_CORE_STAT.ctorIdx) = false) (hn : N &&& 0x200000001 = 0) {s t : State}
    (h : Via N s t) : IllegalStop p g s → IllegalStop p g t := by
  rintro ⟨hflag, hstop⟩
  exact ⟨(h.rdKind .PART_CORE_STAT rfl hk hn).trans hflag, (h.rdKind .PART_CORE_STAT rfl hk hn).trans hstop⟩

/-- The word of a core is one word under all the indices that name it. -/
theorem regWord_core_key {ix jx : List Nat} (s : State) (h : regKey .PART_CORE_STAT ix = regKey .PART_CORE_STAT jx) :
    regWord s .PART_CORE_STAT ix = regWord s .PART_CORE_STAT jx := by
  rw [regWord, regWord, h]
  rfl

theorem illegalStop_stopped (u : Nat) : Keeps (IllegalStop p g) (wr (stFld u) US.STOPPED : M o Unit) := by
  rintro x ⟨hflag, hstop⟩
  rw [wr_run]
  by_cases hcore : uKind u = 1
  · have hfld : stFld u = R.PART_CORE_STAT.STATE (uPart u) (uIdx u) := by simp [stFld, hcore]
    rw [hfld]
    by_cases hkey : regKey .PART_CORE_STAT [p, g] = regKey .PART_CORE_STAT [uPart u, uIdx u]
    · have hword (s : State) (lo w : Nat) : s.rd ⟨.PART_CORE_STAT, [p, g], lo, w⟩ = s.rd ⟨.PART_CORE_STAT, [uPart u, uIdx u], lo, w⟩ := by
        rw [State.rd, State.rd, regWord_core_key s hkey]
      rw [hword] at hflag hstop
      refine ⟨(hword ..).trans ?_, (hword ..).trans ?_⟩
      · simp (disch := decide) only [rd_reg_apart, hflag]
      · simp (disch := decide) only [rd_reg_same, US.STOPPED, Nat.reducePow, Nat.reduceMod]
    · exact ⟨(rd_reg_key _ _ _ _ hkey).trans hflag, (rd_reg_key _ _ _ _ hkey).trans hstop⟩
  · have hkind : RegKind.PART_CORE_STAT ≠ (stFld u).k := by
      unfold stFld
      rw [if_neg hcore]
      split
      · change RegKind.PART_CORE_STAT ≠ .PART_ARR_STAT
        decide
      · change RegKind.PART_CORE_STAT ≠ .PART_STR_STAT
        decide
    exact ⟨(rd_reg_kind _ _ _ _ hkind).trans hflag, (rd_reg_kind _ _ _ _ hkind).trans hstop⟩

theorem Keeps.illegalStop {N : Nat} {α : Type} {m : M o α} (h : Within N m) (hk : N.testBit (64 + RegKind.PART_CORE_STAT.ctorIdx) = false)
    (hn : N &&& 0x200000001 = 0) : Keeps (IllegalStop p g) m := .within h (illegalStop_via hk hn)

theorem stopUnit_keeps (u : Nat) : Keeps (IllegalStop p g) (stopUnit u : M o Unit) := by
  have hrest : Keeps (IllegalStop p g) (restUnit u : M o Unit) := .illegalStop (restUnit_in u) rfl rfl
  unfold stopUnit
  refine .bind (m := rd (stFld u)) (fun _ h => h) fun v => ?_
  dsimp only
  split
  · exact hrest
  · exact .bind (illegalStop_stopped u) fun _ => hrest

theorem refreshPhase_keeps (c : Nat) : Keeps (IllegalStop p g) (refreshPhase c : M o Unit) := .illegalStop (refreshPhase_in c) rfl rfl

theorem upPhase_keeps (c : Nat) (f : Phase → Phase) : Keeps (IllegalStop p g) (upPhase c f : M o Unit) := .illegalStop (upPhase_in c f) rfl rfl

theorem stopPhase_keeps (c : Nat) : Keeps (IllegalStop p g) (stopPhase c : M o Unit) := by
  have hwait (f : Fld) (k : RegKind) (hf : f.k = k) (hk : RegKind.PART_CORE_STAT ≠ k) : Keeps (IllegalStop p g) (wr f 0 : M o Unit) := by
    rintro x ⟨hflag, hstop⟩
    subst hf
    exact ⟨(rd_reg_kind _ _ _ _ hk).trans hflag, (rd_reg_kind _ _ _ _ hk).trans hstop⟩
  unfold stopPhase
  refine .bind (m := st) (fun _ h => h) fun s => ?_
  split
  · exact .pure ()
  · refine .bind (.each fun u => .bind (m := st) (fun _ h => h) fun s => ?_) fun _ => .bind (upPhase_keeps c _) fun _ =>
      .bind (.each fun pq => .bind ?_ fun _ => ?_) fun _ => refreshPhase_keeps c
    · split
      · exact .pure ()
      · exact stopUnit_keeps u
    · exact hwait _ .PART_Q_OCC rfl (by decide)
    · exact hwait _ .PART_Q_CREDIT rfl (by decide)

theorem lockPhase_keeps (c status detail unit info0 : Nat) : Keeps (IllegalStop p g) (lockPhase c status detail unit info0 : M o Unit) := by
  unfold lockPhase
  refine .bind (m := st) (fun _ h => h) fun s => ?_
  split
  · exact .pure ()
  split
  · exact .pure ()
  · exact .bind (m := now) (fun _ h => h) fun t => .bind (upPhase_keeps c _) fun _ => .bind (fun _ h => h) fun _ => stopPhase_keeps c

/-- What follows a unit's stop. -/
theorem unitFailRest_keeps (u status detail : Nat) : Keeps (IllegalStop p g) (do
    restUnit u
    when_ (decide (detail = D.RESIDUE)) (noteFault 1 u)
    when_ (decide (detail = D.SHADOW_MISMATCH)) (noteFault 2 u)
    match unitCtx (← st) u with
    | some c => do
      lockPhase c status detail u 0
      refreshPhase c
    | none => pure () : M o Unit) := by
  refine .bind (.illegalStop (restUnit_in u) rfl rfl) fun _ => .bind (.when fun _ h => h) fun _ => .bind (.when fun _ h => h) fun _ =>
    .bind (m := st) (fun _ h => h) fun s => ?_
  split
  · exact .bind (lockPhase_keeps _ _ _ _ _) fun _ => refreshPhase_keeps _
  · exact .pure ()

theorem unitFail_illegalStop {x : Trace o} (hp : p < 8) (hg : g < 48) (status detail : Nat) (h : x.1.rd (R.PART_CORE_STAT.ILLEGAL p g) = 1) :
    IllegalStop p g (unitFail (uidOf p 1 g) status detail x).2.1 := by
  have hstop : IllegalStop p g (wr (stFld (uidOf p 1 g)) US.STOPPED x).2.1 := by
    rw [stFld_core hp hg, wr_run]
    refine ⟨?_, ?_⟩
    · simp (disch := decide) only [rd_reg_apart, h]
    · simp (disch := decide) only [rd_reg_same, US.STOPPED, Nat.reducePow, Nat.reduceMod]
  rw [unitFail, M.bind_run]
  exact unitFailRest_keeps _ _ _ _ hstop

theorem coreIllegal_stops (x : Trace o) (hp : p < 8) (hg : g < 48) : IllegalStop p g (coreIllegal p g x).2.1 := by
  rw [coreIllegal, coreFail, st_bind, M.bind_run, M.bind_run]
  refine unitFail_illegalStop hp hg _ _ (((ev_in ..).via _).rdKind .PART_CORE_STAT rfl rfl rfl |>.trans ?_)
  rw [setF_run]
  simp (disch := decide) only [rd_reg_same, Nat.reducePow, Nat.reduceMod]

theorem illegal_does (h : CoreAt s p g) : Does (.ewcInstruction p g .illegal Flt.none) s (IllegalStop p g) := by
  refine ewc_does h rfl ?_
  obtain ⟨hp, hg, -⟩ := h
  rw [ewcBody, M.bind_run, core_run_coreOf]
  exact coreIllegal_stops _ hp hg

/-- Settles O40: each instruction's body writes the core's registers or memory and goes on at the next word; an illegal one stops the core. -/
theorem coreOperationsComplete : Obligations.CoreOperationsComplete := by
  have hcommits {s : State} {p g : Nat} (h : CoreAt s p g) (f : Core → Core) : Committed s (committed p g f s) p g := by
    obtain ⟨-, -, -, -, -, -, hpc, -⟩ := h
    exact committed_commits hpc f
  have hstored {s : State} {p g : Nat} (h : CoreAt s p g) (m : Nat) (bs : List Byte) : Committed s (storedAt p g m bs s) p g := by
    obtain ⟨-, -, -, -, -, -, hpc, -⟩ := h
    exact storedAt_committed hpc m bs
  have hdrawn {s : State} {p g : Nat} (h : CoreAt s p g) (f : Core → Core) : Committed s (committed p g f (apply .draw s)) p g := by
    obtain ⟨-, -, -, -, -, -, hpc, -⟩ := h
    obtain ⟨hnext, hrun⟩ := committed_commits (s := apply .draw s) (p := p) (g := g) (by rw [rd_draw]; exact hpc) f
    exact ⟨hnext.trans (by rw [rd_draw]), hrun⟩
  refine ⟨fun s p g op d a b h hd ha hb hclosed => (alu_does h hd ha hb hclosed).mono ?alu,
    fun s p g op d a b h hd ha hb hopen => (aluOpen_does h hd ha hb hopen).mono ?open_,
    fun s p g d v h hd => (li_does h v hd).mono ?li,
    fun s p g d a len m off h hd ha hlen herrs hm => (load_does h hd ha hlen herrs hm).mono ?load,
    fun s p g x a len m off h hx ha hlen herrs hm => (store_does h hx ha hlen herrs hm).mono ?store,
    fun s p g d a m off h hd ha herrs hm => (vload_does h hd ha herrs hm).mono ?vload,
    fun s p g x a m off h hx ha herrs hm => (vstore_does h hx ha herrs hm).mono ?vstore,
    fun s p g op ty rtz d a b e h hd ha hb he => (vop_does h op ty rtz hd ha hb he).mono ?vop,
    fun s p g ty rtz d a h hd ha => (vred_does h ty rtz hd ha).mono ?vred,
    fun s p g src dst rtz d a h hd ha _ hlanes => (vcvt_does h hd ha hlanes).mono ?vcvt,
    fun s p g f rtz d a b x h hd ha hb hx hf => (vunpack_does h hd ha hb hx hf).mono ?vunpack,
    fun s p g f rtz d a b x h hd ha hb hx hf => ?vpack,
    fun s p g op a b tgt h ha hb htgt => (br_does h op ha hb htgt).mono ?br,
    fun s p g h => illegal_does h⟩
  case alu =>
    rintro t rfl
    exact ⟨hcommits h _, xReads_committed _ rfl⟩
  case open_ =>
    rintro t ⟨v, rfl⟩
    refine ⟨hdrawn h _, ?_, fun r _ hr => (committed_getX _ _ _).trans (setX_other _ _ hr)⟩
    simp only [committed, jumped, apply_reg, apply_core, apply_draw]
  case li =>
    rintro t rfl
    exact ⟨hcommits h _, xReads_committed _ rfl⟩
  case load =>
    rintro t rfl
    exact ⟨hcommits h _, xReads_committed _ rfl⟩
  case store =>
    rintro t rfl
    exact ⟨hstored h _ _, storedAt_bytes _ _ _ _⟩
  case vload =>
    rintro t rfl
    exact ⟨hcommits h _, vReads_committed _ rfl⟩
  case vstore =>
    rintro t rfl
    exact ⟨hstored h _ _, storedAt_bytes _ _ _ _⟩
  case vop =>
    rintro t rfl
    exact ⟨hcommits h _, vReads_committed _ rfl⟩
  case vred =>
    rintro t rfl
    exact ⟨hcommits h _, vReads_committed _ rfl⟩
  case vcvt =>
    rintro t rfl
    exact ⟨hcommits h _, vReads_committed _ rfl⟩
  case vunpack =>
    rintro t rfl
    exact ⟨hcommits h _, vReads_committed _ rfl⟩
  case vpack =>
    cases hscale : packScaled f && decide (((coreOf s p g).getX x).toNat % 256 = 255) with
    | false =>
      refine (vpack_closed h hd ha hb hx hf hscale).mono ?_
      rintro t rfl
      exact ⟨hcommits h _, fun _ => vReads_committed _ rfl⟩
    | true =>
      obtain ⟨hscaled, hbyte⟩ := Bool.and_eq_true_iff.1 hscale
      refine (vpack_open h hd ha hb hx hf hscale).mono ?_
      rintro t ⟨v, rfl⟩
      exact ⟨hdrawn h _, fun hor => hor.elim (by simp [hscaled]) fun hne => absurd (of_decide_eq_true hbyte) hne⟩
  case br =>
    rintro t rfl
    obtain ⟨-, -, -, -, -, -, hpc, -⟩ := h
    refine ⟨jumped_state _, jumped_pc _ ?_⟩
    split <;> omega

end Sys2Proof.Machine
end

section
/-!
PROOFS. General core queue instructions (R60 to R63, R119): slots popped, acquired, released, published and posted.
-/

set_option Elab.async false

namespace Sys2Proof.Machine

variable {o s : State} {p g q k : Nat}

/-! What waking the ends of a queue keeps: a core's PC, a queue's credits, and what an array still has to do. -/

/-- A core's PC and an array's tiles and result slots. -/
def turnsOf (p g k : Nat) (s : State) : Nat × List TileRun × List (List Byte) :=
  (s.rd (R.PART_CORE_STAT.PC p g), (tget Arr.init s.arrs k).tiles, (tget Arr.init s.arrs k).outBuf)

theorem turnsOf_via {N : Nat} {t : State} (h : Via N s t) (hk : N.testBit (64 + RegKind.PART_CORE_STAT.ctorIdx) = false)
    (hn : N &&& 0x200000001 = 0) (harr : t.arrs = s.arrs) : turnsOf p g k t = turnsOf p g k s := by
  rw [turnsOf, turnsOf, h.rdKind .PART_CORE_STAT rfl hk hn, harr]

theorem turnsOf_reg {f : Fld} {v : Nat} (j : RegKind) (hj : f.k = j) (hne : j ≠ .PART_CORE_STAT) (s : State) : turnsOf p g k (apply (.reg f v) s) = turnsOf p g k s := by
  rw [turnsOf, turnsOf, rd_reg_kind _ _ _ _ (Ne.symm (hj ▸ hne))]
  simp only [apply_reg]

/-- The state of a unit is no part of a core's PC. -/
theorem turnsOf_stFld (u v : Nat) (s : State) : turnsOf p g k (apply (.reg (stFld u) v) s) = turnsOf p g k s := by
  by_cases hcore : uKind u = 1
  · have hfld : stFld u = R.PART_CORE_STAT.STATE (uPart u) (uIdx u) := by simp [stFld, hcore]
    have hpc : (apply (.reg (stFld u) v) s).rd (R.PART_CORE_STAT.PC p g) = s.rd (R.PART_CORE_STAT.PC p g) := by
      rw [hfld]
      by_cases hkey : regKey .PART_CORE_STAT [p, g] = regKey .PART_CORE_STAT [uPart u, uIdx u]
      · have hword (s : State) : s.rd (R.PART_CORE_STAT.PC p g) = s.rd (R.PART_CORE_STAT.PC (uPart u) (uIdx u)) := by
          rw [State.rd, State.rd, regWord_core_key s hkey]
        rw [hword, hword]
        simp (disch := decide) only [rd_reg_apart]
      · exact rd_reg_key _ _ _ _ hkey
    rw [turnsOf, turnsOf, hpc]
    simp only [apply_reg]
  · unfold stFld
    rw [if_neg hcore]
    split
    · exact turnsOf_reg .PART_ARR_STAT rfl (by decide) s
    · exact turnsOf_reg .PART_STR_STAT rfl (by decide) s

/-- A change of an array's slope leaves its tiles and result slots. -/
theorem turnsOf_arr (j : Nat) (f : Arr → Arr) (hf : ∀ a, (f a).tiles = a.tiles ∧ (f a).outBuf = a.outBuf) (s : State) :
    turnsOf p g k (apply (.arr j f) s) = turnsOf p g k s := by
  simp only [turnsOf, apply_arr]
  by_cases hj : k = j
  · subst hj
    simp only [tget_tset_self, hf]
  · simp only [tget_tset_ne _ _ _ _ _ hj]

/-- An action that keeps an observation of the state. -/
abbrev KeepsObs {α β : Type} (obs : State → β) (m : M o α) : Prop := ∀ b, Keeps (fun t => obs t = b) m

section Obs

variable {β : Type} {obs : State → β}

theorem KeepsObs.eff {e : Eff} (h : ∀ s, obs (apply e s) = obs s) : KeepsObs obs (eff e : M o Unit) := fun _ _ hx => (h _).trans hx

theorem slopeStart_turns (j : Nat) : KeepsObs (turnsOf p g k) (slopeStart j : M o Unit) := by
  intro b
  have hgrant (f : List (Nat × Bool) → List (Nat × Bool)) : Keeps (fun t => turnsOf p g k t = b) (upGrant j f : M o Unit) := by
    unfold upGrant
    split
    · exact KeepsObs.eff (fun _ => rfl) b
    · exact KeepsObs.eff (fun _ => rfl) b
  unfold slopeStart
  refine .bind (m := st) (fun _ h => h) fun s => ?_
  split
  · exact .bind (KeepsObs.eff (by exact turnsOf_arr _ _ fun _ => ⟨rfl, rfl⟩) b) fun _ => hgrant _
  · exact .bind (KeepsObs.eff (by exact turnsOf_arr _ _ fun _ => ⟨rfl, rfl⟩) b) fun _ => hgrant _
  · exact .pure ()

theorem runUnit_turns (u : Nat) : KeepsObs (turnsOf p g k) (runUnit u : M o Unit) := by
  intro b
  unfold runUnit
  refine .bind (KeepsObs.eff (turnsOf_stFld _ _) b) fun _ => ?_
  split
  · exact .bind (m := st) (fun _ h => h) fun s => .each fun j => slopeStart_turns j b
  · exact .pure ()

theorem wakeQ_turns (p' q : Nat) : KeepsObs (turnsOf p g k) (wakeQ p' q : M o Unit) := by
  intro b
  have hwake {c : Prop} [Decidable c] (u : Nat) : Keeps (fun t => turnsOf p g k t = b) (if c then runUnit u else pure () : M o Unit) := by
    split
    · exact runUnit_turns u b
    · exact .pure ()
  unfold wakeQ
  refine .bind (m := st) (fun _ h => h) fun s => .bind ?_ fun _ => .bind (m := st) (fun _ h => h) fun s => ?_
  · split
    · exact .bind (KeepsObs.eff (turnsOf_reg .PART_Q_OCC rfl (by decide)) b) fun _ => hwake _
    · exact .pure ()
  · split
    · exact .bind (KeepsObs.eff (turnsOf_reg .PART_Q_CREDIT rfl (by decide)) b) fun _ => hwake _
    · exact .pure ()

theorem refreshEnds_turns (p' q : Nat) : KeepsObs (turnsOf p g k) (refreshEnds p' q : M o Unit) := fun _ =>
  .within (refreshEnds_in p' q) fun hvia h => (turnsOf_via hvia rfl rfl (hvia.arrs rfl)).trans h

theorem releaseSlot_turns (p' q : Nat) : KeepsObs (turnsOf p g k) (releaseSlot p' q : M o Unit) := by
  intro b
  unfold releaseSlot
  refine .bind (m := st) (fun _ h => h) fun s => .bind (KeepsObs.eff (fun _ => rfl) b) fun _ => .bind (KeepsObs.eff (turnsOf_reg .PART_Q_OCC rfl (by decide)) b) fun _ =>
    .bind ?_ fun _ => .bind (wakeQ_turns p' q b) fun _ => refreshEnds_turns p' q b
  split
  · exact KeepsObs.eff (turnsOf_reg .PART_Q_CREDIT rfl (by decide)) b
  · exact .bind (.when (.bind (m := now) (fun _ h => h) fun _ => KeepsObs.eff (fun _ => rfl) b)) fun _ => KeepsObs.eff (fun _ => rfl) b

theorem publishSlot_turns (p' q : Nat) : KeepsObs (turnsOf p g k) (publishSlot p' q : M o Unit) := by
  intro b
  have hended (c u : Nat) : Keeps (fun t => turnsOf p g k t = b) (unitEnded c u : M o Unit) :=
    .within (unitEnded_in c u) fun hvia h => (turnsOf_via hvia rfl rfl (hvia.arrs rfl)).trans h
  unfold publishSlot
  refine .bind (m := st) (fun _ h => h) fun s => .bind (KeepsObs.eff (fun _ => rfl) b) fun _ => .bind (KeepsObs.eff (turnsOf_reg .PART_Q_OCC rfl (by decide)) b) fun _ =>
    .bind (wakeQ_turns p' q b) fun _ => .bind (refreshEnds_turns p' q b) fun _ => ?_
  split
  · refine .bind (KeepsObs.eff (fun _ => rfl) b) fun _ => .bind (releaseSlot_turns p' q b) fun _ => ?_
    dsimp only
    split
    · exact hended _ _
    · exact .pure ()
  · exact .pure ()

end Obs

/-! Arrays with nothing left to do. -/

theorem loop_stops {f : M o Bool} {x : Trace o} (h : f x = (false, x)) (n : Nat) : loop n f x = ((), x) := by
  cases n with
  | zero => rfl
  | succ n =>
    rw [loop, M.bind_run, h]
    rfl

/-- A unit that is no array with work left. -/
def Idle (s : State) (u : Nat) : Prop := uKind u = 0 → (arrOf s (uPart u) (uIdx u)).tiles = [] ∧ (arrOf s (uPart u) (uIdx u)).outBuf = []

theorem kickUnit_idle {x : Trace o} {u : Nat} (h : Idle x.1 u) : kickUnit u x = ((), x) := by
  unfold kickUnit
  by_cases hu : uKind u = 0 ∧ uIdx u < 24
  · obtain ⟨htiles, hout⟩ := h hu.1
    have hstream : streamStep (uPart u) (uIdx u) Flt.none x = (false, x) := by
      rw [streamStep, st_bind, M.bind_run, arr_run]
      change (match (arrOf x.1 (uPart u) (uIdx u)).tiles with
        | [] => _
        | t :: l => _ : M o Bool) x = _
      rw [htiles]
      rfl
    have hdrain : drainStep (uPart u) (uIdx u) x = (false, x) := by
      rw [drainStep, st_bind, M.bind_run, arr_run]
      change (match (arrOf x.1 (uPart u) (uIdx u)).outBuf with
        | [] => _
        | t :: l => _ : M o Bool) x = _
      rw [hout]
      rfl
    rw [if_pos hu, arrWork, M.bind_run, loop_stops hstream, loop_stops hdrain]
  · rw [if_neg hu]
    rfl

theorem kickQ_idle {x : Trace o} (hcons : Idle x.1 (x.1.rd (R.PART_Q_ENDS.CONS p q))) (hprod : Idle x.1 (x.1.rd (R.PART_Q_ENDS.PROD p q))) :
    kickQ p q x = ((), x) := by
  rw [kickQ, st_bind, M.bind_run, kickUnit_idle hcons, kickUnit_idle hprod]

/-! Going on at the next word. -/

theorem jumped_keeps (pc : Nat) (s : State) : (jumped p g pc s).ques = s.ques ∧ (jumped p g pc s).bytes = s.bytes ∧ (jumped p g pc s).arrs = s.arrs ∧
    (coreOf (jumped p g pc s) p g).x = (coreOf s p g).x ∧ (coreOf (jumped p g pc s) p g).popped = (coreOf s p g).popped ∧
    (coreOf (jumped p g pc s) p g).acquired = (coreOf s p g).acquired := by
  simp only [jumped, coreOf, apply_reg, apply_core, tget_tset_self, and_self]

theorem jumped_rd {f : Fld} (pc : Nat) (s : State) (hf : RegKind.PART_CORE_STAT ≠ f.k) : (jumped p g pc s).rd f = s.rd f := by
  rw [jumped, rd_reg_kind _ _ _ _ (Ne.symm hf)]
  simp only [apply_core]
  rw [rd_reg_kind _ _ _ _ (Ne.symm hf)]

/-- The next word, from a state in which the core's PC is still the one that the turn began with. -/
theorem coreNext_from {x : Trace o} (h : CoreAt s p g) (hpc : x.1.rd (R.PART_CORE_STAT.PC p g) = s.rd (R.PART_CORE_STAT.PC p g)) :
    (coreNext p g x).2.1 = jumped p g (s.rd (R.PART_CORE_STAT.PC p g) + 1) x.1 := by
  obtain ⟨hp, hg, -, -, -, -, hlast, -⟩ := h
  rw [coreNext_fin x hp hg (hpc ▸ hlast), hpc]

theorem jumped_committed (h : CoreAt s p g) (t : State) : Committed s (jumped p g (s.rd (R.PART_CORE_STAT.PC p g) + 1) t) p g := by
  obtain ⟨-, -, -, -, -, -, hlast, -⟩ := h
  exact ⟨jumped_pc _ (by omega), jumped_state _⟩

theorem xReads_of_x {c d : Core} {r : Nat} {v : BitVec 64} (hx : c.x = (d.setX r v).x) : XReads c r v := by
  have hset := setX_reads d r v
  unfold XReads Core.getX at hset ⊢
  rw [hx, hset]

theorem setX_lists (c : Core) (r : Nat) (v : BitVec 64) : (c.setX r v).popped = c.popped ∧ (c.setX r v).acquired = c.acquired := by
  unfold Core.setX
  split <;> exact ⟨rfl, rfl⟩

/-! Slots popped. -/

section Pops

variable {d : Nat}

/-- The core holds the next slot of a queue's consumer end. -/
def took (p g d q : Nat) (s : State) : State :=
  apply (.core (48 * p + g) fun c => { c.setX d (BitVec.ofNat 64 (qSlot s p q (queOf s p q).rd)) with popped := c.popped ++ [q] })
    (apply (.que (1024 * p + q) fun x => { x with rd := x.rd + 1 }) s)

theorem coreTake_fin {x : Trace o} (h : CoreAt x.1 p g) : (coreTake p g d q x).2.1 =
    jumped p g (x.1.rd (R.PART_CORE_STAT.PC p g) + 1) (took p g d q x.1) := by
  rw [coreTake, st_bind, M.bind_run, M.bind_run, upCore_run, upQue_run, coreNext_from h]
  · rfl
  · simp only [apply_core, apply_que]

theorem took_reads (hnone : (coreOf s p g).popped = []) : (coreOf (took p g d q s) p g).popped = [q] ∧
    queOf (took p g d q s) p q = { queOf s p q with rd := (queOf s p q).rd + 1 } ∧
    (coreOf (took p g d q s) p g).x = ((coreOf s p g).setX d (BitVec.ofNat 64 (qSlot s p q (queOf s p q).rd))).x := by
  simp only [coreOf] at hnone
  simp only [took, coreOf, queOf, apply_core, apply_que, tget_tset_self, hnone, List.nil_append, and_self]

theorem took_does {i : Instr} {m : M s Unit} (h : CoreAt s p g) (he : exec i s = act i.wf s (coreTurn p g Flt.none m)) (hwf : i.wf = true)
    (hm : m ⟨s, .refl⟩ = coreTake p g d q ⟨s, .refl⟩) (hnone : (coreOf s p g).popped = []) :
    Does i s fun t => Committed s t p g ∧ XReads (coreOf t p g) d (BitVec.ofNat 64 (qSlot s p q (queOf s p q).rd)) ∧
      (coreOf t p g).popped = [q] ∧ queOf t p q = { queOf s p q with rd := (queOf s p q).rd + 1 } := by
  refine coreTurn_does h he hwf ?_
  rw [hm, coreTake_fin (x := ⟨s, .refl⟩) h]
  obtain ⟨hques, -, -, hx, hpopped, -⟩ := jumped_keeps (p := p) (g := g) (s.rd (R.PART_CORE_STAT.PC p g) + 1) (took p g d q s)
  obtain ⟨hone, hrd, hset⟩ := took_reads (d := d) (q := q) hnone
  exact ⟨jumped_committed h _, xReads_of_x (hx.trans hset), hpopped.trans hone, by rw [queOf, hques]; exact hrd⟩

theorem qwait_takes (h : CoreAt s p g) (hd : d < 32) (hq : q < 1024) (hcons : isCons s p q (uidOf p 1 g) = true) (hnone : (coreOf s p g).popped = [])
    (hsome : 0 < qAvail s p q) : Does (.qwait p g d q Flt.none) s fun t => Committed s t p g ∧
      XReads (coreOf t p g) d (BitVec.ofNat 64 (qSlot s p q (queOf s p q).rd)) ∧ (coreOf t p g).popped = [q] ∧
      queOf t p q = { queOf s p q with rd := (queOf s p q).rd + 1 } := by
  obtain ⟨hp, hg, -⟩ := id h
  refine took_does h rfl (by simp [Instr.wf, hp, hg, hd, hq]) ?_ hnone
  have hgo : ¬ qAvail s p q = 0 := by omega
  rw [st_bind, M.bind_run, core_run_coreOf]
  simp only [hcons, hnone, List.contains_nil, Bool.not_true, Bool.or_self, Bool.false_eq_true, if_false, if_neg hgo]

theorem restUnit_core {x : Trace o} (hg : g < 48) : restUnit (uidOf p 1 g) x = ((), x) := by
  have hkind : uKind (uidOf p 1 g) = 1 := uKind_uidOf (by decide) (by omega)
  rw [restUnit, hkind]
  rfl

theorem qwait_waits (h : CoreAt s p g) (hd : d < 32) (hq : q < 1024) (hcons : isCons s p q (uidOf p 1 g) = true) (hnone : (coreOf s p g).popped = [])
    (hempty : qAvail s p q = 0) : Does (.qwait p g d q Flt.none) s fun t => t.rd (R.PART_CORE_STAT.STATE p g) = US.WAIT_Q ∧
      t.rd (R.PART_Q_OCC.WAIT_C p q) = 1 ∧ t.rd (R.PART_CORE_STAT.PC p g) = s.rd (R.PART_CORE_STAT.PC p g) := by
  obtain ⟨hp, hg, -⟩ := id h
  refine coreTurn_does h rfl (by simp [Instr.wf, hp, hg, hd, hq]) ?_
  rw [st_bind, M.bind_run, core_run_coreOf]
  simp only [hcons, hnone, List.contains_nil, Bool.not_true, Bool.or_self, Bool.false_eq_true, if_false, if_pos hempty]
  rw [stallC, M.bind_run, M.bind_run, restUnit_core hg, stFld_core hp hg, wr_run, setF_run]
  simp (disch := decide) only [rd_reg_same, rd_reg_apart, rd_reg_elsewhere, US.WAIT_Q, Nat.reducePow, Nat.reduceMod, and_self]

theorem qpoll_does (h : CoreAt s p g) (hd : d < 32) (hq : q < 1024) (hcons : isCons s p q (uidOf p 1 g) = true) (hnone : (coreOf s p g).popped = []) :
    Does (.qpoll p g d q Flt.none) s fun t => Committed s t p g ∧
      if qAvail s p q = 0 then XReads (coreOf t p g) d 0 ∧ queOf t p q = queOf s p q
      else XReads (coreOf t p g) d (BitVec.ofNat 64 (qSlot s p q (queOf s p q).rd)) ∧ (coreOf t p g).popped = [q] ∧
        queOf t p q = { queOf s p q with rd := (queOf s p q).rd + 1 } := by
  obtain ⟨hp, hg, -⟩ := id h
  have hwf : (Instr.qpoll p g d q Flt.none).wf = true := by simp [Instr.wf, hp, hg, hd, hq]
  by_cases hempty : qAvail s p q = 0
  · simp only [if_pos hempty]
    refine coreTurn_does h rfl hwf ?_
    rw [st_bind, M.bind_run, core_run_coreOf]
    simp only [hcons, hnone, List.contains_nil, Bool.not_true, Bool.or_self, Bool.false_eq_true, if_false, if_pos hempty]
    rw [upNext_fin _ h]
    refine ⟨jumped_committed h _, xReads_committed _ rfl, ?_⟩
    simp only [queOf, committed, jumped, apply_reg, apply_core]
  · simp only [if_neg hempty]
    refine took_does h rfl hwf ?_ hnone
    rw [st_bind, M.bind_run, core_run_coreOf]
    simp only [hcons, hnone, List.contains_nil, Bool.not_true, Bool.or_self, Bool.false_eq_true, if_false, if_neg hempty]

end Pops

/-! Slots acquired. -/

section Acquires

variable {d : Nat}

/-- The core holds the next slot of a queue's producer end. -/
def acquiredOne (p g d q : Nat) (s : State) : State :=
  apply (.core (48 * p + g) fun c => { c.setX d (BitVec.ofNat 64 (qSlot s p q (queOf s p q).wr)) with acquired := c.acquired ++ [q] })
    (apply (.que (1024 * p + q) fun x => { x with wr := x.wr + 1 })
      (apply (.reg (R.PART_Q_CREDIT.CREDIT p q) (s.rd (R.PART_Q_CREDIT.CREDIT p q) - 1)) s))

theorem acquiredOne_reads (hnone : (coreOf s p g).acquired = []) : (coreOf (acquiredOne p g d q s) p g).acquired = [q] ∧
    queOf (acquiredOne p g d q s) p q = { queOf s p q with wr := (queOf s p q).wr + 1 } ∧
    (coreOf (acquiredOne p g d q s) p g).x = ((coreOf s p g).setX d (BitVec.ofNat 64 (qSlot s p q (queOf s p q).wr))).x ∧
    (acquiredOne p g d q s).rd (R.PART_Q_CREDIT.CREDIT p q) = s.rd (R.PART_Q_CREDIT.CREDIT p q) - 1 ∧
    (acquiredOne p g d q s).rd (R.PART_CORE_STAT.PC p g) = s.rd (R.PART_CORE_STAT.PC p g) := by
  have hfits : (s.rd (R.PART_Q_CREDIT.CREDIT p q) - 1) % 2 ^ 17 = s.rd (R.PART_Q_CREDIT.CREDIT p q) - 1 :=
    Nat.mod_eq_of_lt ((Nat.sub_le _ _).trans_lt (rd_lt s _))
  simp only [coreOf] at hnone
  refine ⟨?_, ?_, ?_, ?_, ?_⟩
  · simp only [acquiredOne, coreOf, apply_core, apply_que, apply_reg, tget_tset_self, hnone, List.nil_append]
  · simp only [acquiredOne, queOf, apply_core, apply_que, apply_reg, tget_tset_self]
  · simp only [acquiredOne, coreOf, apply_core, apply_que, apply_reg, tget_tset_self]
  · simp (disch := decide) only [acquiredOne, apply_core, apply_que, rd_reg_same, hfits]
  · simp (disch := decide) only [acquiredOne, apply_core, apply_que, rd_reg_elsewhere]

/-- The slot acquired, the ends of its queue are shown and the core goes on. -/
theorem acquireRest_reads {x : Trace o} (h : CoreAt s p g) (hnone : (coreOf s p g).acquired = []) (hx : x.1 = acquiredOne p g d q s) {t : State}
    (ht : t = (coreNext p g (refreshEnds p q x).2).2.1) :
    Committed s t p g ∧ XReads (coreOf t p g) d (BitVec.ofNat 64 (qSlot s p q (queOf s p q).wr)) ∧
      (coreOf t p g).acquired = [q] ∧ queOf t p q = { queOf s p q with wr := (queOf s p q).wr + 1 } ∧
      t.rd (R.PART_Q_CREDIT.CREDIT p q) = s.rd (R.PART_Q_CREDIT.CREDIT p q) - 1 := by
  obtain ⟨hone, hwr, hset, hcredit, hpc⟩ := acquiredOne_reads (d := d) (q := q) hnone
  have hends : Via FP.istatWord (acquiredOne p g d q s) (refreshEnds p q x).2.1 := (refreshEnds_in p q).viaFrom hx
  rw [coreNext_from h ((hends.rdKind .PART_CORE_STAT rfl rfl rfl).trans hpc)] at ht
  obtain ⟨hques, -, -, hregs, -, hacquired⟩ := jumped_keeps (p := p) (g := g) (s.rd (R.PART_CORE_STAT.PC p g) + 1) (refreshEnds p q x).2.1
  have hcore : coreOf (refreshEnds p q x).2.1 p g = coreOf (acquiredOne p g d q s) p g := by rw [coreOf, hends.cores rfl, coreOf]
  rw [hcore] at hregs hacquired
  subst ht
  refine ⟨jumped_committed h _, xReads_of_x (hregs.trans hset), hacquired.trans hone, ?_, (jumped_rd _ _ (by nofun)).trans ?_⟩
  · rw [queOf, hques, hends.ques rfl]
    exact hwr
  · exact (hends.rdKind .PART_Q_CREDIT rfl rfl rfl).trans hcredit

theorem acquire_does {i : Instr} {m : M s Unit} (h : CoreAt s p g) (he : exec i s = act i.wf s (coreTurn p g Flt.none m)) (hwf : i.wf = true)
    (hm : m ⟨s, .refl⟩ = coreAcquire p g d q ⟨s, .refl⟩) (hnone : (coreOf s p g).acquired = []) :
    Does i s fun t => Committed s t p g ∧ XReads (coreOf t p g) d (BitVec.ofNat 64 (qSlot s p q (queOf s p q).wr)) ∧
      (coreOf t p g).acquired = [q] ∧ queOf t p q = { queOf s p q with wr := (queOf s p q).wr + 1 } ∧
      t.rd (R.PART_Q_CREDIT.CREDIT p q) = s.rd (R.PART_Q_CREDIT.CREDIT p q) - 1 := by
  refine coreTurn_does h he hwf ?_
  rw [hm, coreAcquire, st_bind, M.bind_run, M.bind_run, M.bind_run, M.bind_run]
  exact acquireRest_reads h hnone rfl rfl

theorem qacq_acquires (h : CoreAt s p g) (hd : d < 32) (hq : q < 1024) (hprod : isProd s p q (uidOf p 1 g) = true)
    (hnone : (coreOf s p g).acquired = []) (hcredit : 0 < s.rd (R.PART_Q_CREDIT.CREDIT p q)) :
    Does (.qacq p g d q Flt.none) s fun t => Committed s t p g ∧ XReads (coreOf t p g) d (BitVec.ofNat 64 (qSlot s p q (queOf s p q).wr)) ∧
      (coreOf t p g).acquired = [q] ∧ queOf t p q = { queOf s p q with wr := (queOf s p q).wr + 1 } ∧
      t.rd (R.PART_Q_CREDIT.CREDIT p q) = s.rd (R.PART_Q_CREDIT.CREDIT p q) - 1 := by
  obtain ⟨hp, hg, -⟩ := id h
  refine acquire_does h rfl (by simp [Instr.wf, hp, hg, hd, hq]) ?_ hnone
  have hgo : ¬ s.rd (R.PART_Q_CREDIT.CREDIT p q) = 0 := by omega
  rw [st_bind, M.bind_run, core_run_coreOf]
  simp only [hprod, hnone, List.contains_nil, Bool.not_true, Bool.or_self, Bool.false_eq_true, if_false, if_neg hgo]

theorem qacq_waits (h : CoreAt s p g) (hd : d < 32) (hq : q < 1024) (hprod : isProd s p q (uidOf p 1 g) = true)
    (hnone : (coreOf s p g).acquired = []) (hcredit : s.rd (R.PART_Q_CREDIT.CREDIT p q) = 0) :
    Does (.qacq p g d q Flt.none) s fun t => t.rd (R.PART_CORE_STAT.STATE p g) = US.WAIT_CREDIT ∧
      t.rd (R.PART_Q_CREDIT.WAIT_P p q) = 1 ∧ t.rd (R.PART_CORE_STAT.PC p g) = s.rd (R.PART_CORE_STAT.PC p g) := by
  obtain ⟨hp, hg, -⟩ := id h
  refine coreTurn_does h rfl (by simp [Instr.wf, hp, hg, hd, hq]) ?_
  rw [st_bind, M.bind_run, core_run_coreOf]
  simp only [hprod, hnone, List.contains_nil, Bool.not_true, Bool.or_self, Bool.false_eq_true, if_false, if_pos hcredit]
  rw [stallP, M.bind_run, M.bind_run, restUnit_core hg, stFld_core hp hg, wr_run, setF_run]
  simp (disch := decide) only [rd_reg_same, rd_reg_apart, rd_reg_elsewhere, US.WAIT_CREDIT, Nat.reducePow, Nat.reduceMod, and_self]

theorem qtry_does (h : CoreAt s p g) (hd : d < 32) (hq : q < 1024) (hprod : isProd s p q (uidOf p 1 g) = true)
    (hnone : (coreOf s p g).acquired = []) : Does (.qtry p g d q Flt.none) s fun t => Committed s t p g ∧
      if s.rd (R.PART_Q_CREDIT.CREDIT p q) = 0 then XReads (coreOf t p g) d 0 ∧ queOf t p q = queOf s p q
      else XReads (coreOf t p g) d (BitVec.ofNat 64 (qSlot s p q (queOf s p q).wr)) ∧ (coreOf t p g).acquired = [q] ∧
        queOf t p q = { queOf s p q with wr := (queOf s p q).wr + 1 } ∧
        t.rd (R.PART_Q_CREDIT.CREDIT p q) = s.rd (R.PART_Q_CREDIT.CREDIT p q) - 1 := by
  obtain ⟨hp, hg, -⟩ := id h
  have hwf : (Instr.qtry p g d q Flt.none).wf = true := by simp [Instr.wf, hp, hg, hd, hq]
  by_cases hcredit : s.rd (R.PART_Q_CREDIT.CREDIT p q) = 0
  · simp only [if_pos hcredit]
    refine coreTurn_does h rfl hwf ?_
    rw [st_bind, M.bind_run, core_run_coreOf]
    simp only [hprod, hnone, List.contains_nil, Bool.not_true, Bool.or_self, Bool.false_eq_true, if_false, if_pos hcredit]
    rw [upNext_fin _ h]
    refine ⟨jumped_committed h _, xReads_committed _ rfl, ?_⟩
    simp only [queOf, committed, jumped, apply_reg, apply_core]
  · simp only [if_neg hcredit]
    refine acquire_does h rfl hwf ?_ hnone
    rw [st_bind, M.bind_run, core_run_coreOf]
    simp only [hprod, hnone, List.contains_nil, Bool.not_true, Bool.or_self, Bool.false_eq_true, if_false, if_neg hcredit]

end Acquires

/-! Slots released and published. -/

theorem queOf_que (f : Que → Que) (s : State) : queOf (apply (.que (1024 * p + q) f) s) p q = f (queOf s p q) := by
  simp only [queOf, apply_que, tget_tset_self]

theorem queOf_of_ques {t : State} (h : t.ques = s.ques) : queOf t p q = queOf s p q := by rw [queOf, queOf, h]

theorem queOf_wr (f : Fld) (v : Nat) (x : Trace o) : queOf (wr f v x).2.1 p q = queOf x.1 p q := queOf_of_ques (by rw [wr_run]; simp only [apply_reg])

/-- A release counts once. -/
theorem releaseSlot_rel (x : Trace o) : (queOf (releaseSlot p q x).2.1 p q).rel = (queOf x.1 p q).rel + 1 ∧
    (queOf (releaseSlot p q x).2.1 p q).pub = (queOf x.1 p q).pub := by
  rw [releaseSlot, st_bind, M.bind_run, M.bind_run, M.bind_run, M.bind_run,
    queOf_of_ques (((refreshEnds_in p q).via _).ques rfl), queOf_of_ques (((wakeQ_in p q).via _).ques rfl)]
  have hcount : queOf (wr (R.PART_Q_OCC.OCC p q) (x.1.rd (R.PART_Q_OCC.OCC p q) - 1) (upQue p q (fun y => { y with rel := y.rel + 1 }) x).2).2.1 p q =
      { queOf x.1 p q with rel := (queOf x.1 p q).rel + 1 } := by
    rw [queOf_wr, upQue_run, queOf_que]
  split
  · rw [queOf_wr, hcount]
    exact ⟨rfl, rfl⟩
  · have howed : Within (foot [.seen]) (when_ (decide ((queOf x.1 p q).owed = 0)) (mark (K.credit p q)) : M o Unit) :=
      within_when ((mark_in _).mono rfl)
    rw [M.bind_run, upQue_run, queOf_que, queOf_of_ques ((howed.via _).ques rfl), hcount]
    exact ⟨rfl, rfl⟩

/-- A publication counts once. -/
theorem publishSlot_pub (x : Trace o) : (queOf (publishSlot p q x).2.1 p q).pub = (queOf x.1 p q).pub + 1 := by
  have hkept {N : Nat} {m : M o Unit} (h : Within N m) (hN : N &&& 0x200000300 = 0) (b : Nat) : Keeps (fun t => (queOf t p q).pub = b) m :=
    .within h fun hvia hb => by rw [queOf_of_ques (hvia.ques hN)]; exact hb
  have hfirst : (queOf (upQue p q (fun y => { y with pub := y.pub + 1 }) x).2.1 p q).pub = (queOf x.1 p q).pub + 1 := by rw [upQue_run, queOf_que]
  rw [publishSlot, st_bind, M.bind_run]
  refine Keeps.bind (P := fun t => (queOf t p q).pub = (queOf x.1 p q).pub + 1) (KeepsObs.eff (fun _ => rfl) _) (fun _ =>
    .bind (hkept (wakeQ_in p q) rfl _) fun _ => .bind (hkept (refreshEnds_in p q) rfl _) fun _ => ?_) _ hfirst
  split
  · refine .bind (fun y hy => ?_) fun _ => .bind (fun y hy => (releaseSlot_rel y).2.trans hy) fun _ => ?_
    · rw [upQue_run, queOf_que]
      exact hy
    · dsimp only
      split
      · exact hkept (unitEnded_in ..) rfl _
      · exact .pure ()
  · exact .pure ()

/-! The end of a turn that changed a queue. -/

/-- The arrays at a queue's ends are idle where the core is one end and the other end is quiet. -/
theorem kickQ_quiet {x : Trace o} {u : Nat} (hg : g < 48)
    (hends : (x.1.rd (R.PART_Q_ENDS.CONS p q) = uidOf p 1 g ∧ x.1.rd (R.PART_Q_ENDS.PROD p q) = u) ∨
      (x.1.rd (R.PART_Q_ENDS.PROD p q) = uidOf p 1 g ∧ x.1.rd (R.PART_Q_ENDS.CONS p q) = u))
    (hquiet : Idle x.1 u) : kickQ p q x = ((), x) := by
  have hcore : Idle x.1 (uidOf p 1 g) := fun h => by
    rw [uKind_uidOf (by decide) (by omega)] at h
    exact absurd h (by decide)
  obtain ⟨hcons, hprod⟩ | ⟨hprod, hcons⟩ := hends
  · exact kickQ_idle (by rw [hcons]; exact hcore) (by rw [hprod]; exact hquiet)
  · exact kickQ_idle (by rw [hcons]; exact hquiet) (by rw [hprod]; exact hcore)

/-- Once the core has gone on, the queue's other end being as quiet as it was, nothing more happens. -/
theorem nextKick_fin {x : Trace o} (h : CoreAt s p g) {u : Nat} (hturns : turnsOf p g (24 * uPart u + uIdx u) x.1 = turnsOf p g (24 * uPart u + uIdx u) s)
    (hcons : x.1.rd (R.PART_Q_ENDS.CONS p q) = s.rd (R.PART_Q_ENDS.CONS p q)) (hprod : x.1.rd (R.PART_Q_ENDS.PROD p q) = s.rd (R.PART_Q_ENDS.PROD p q))
    (hends : (s.rd (R.PART_Q_ENDS.CONS p q) = uidOf p 1 g ∧ s.rd (R.PART_Q_ENDS.PROD p q) = u) ∨
      (s.rd (R.PART_Q_ENDS.PROD p q) = uidOf p 1 g ∧ s.rd (R.PART_Q_ENDS.CONS p q) = u)) (hquiet : Quiet s u) :
    (kickQ p q (coreNext p g x).2).2.1 = jumped p g (s.rd (R.PART_CORE_STAT.PC p g) + 1) x.1 := by
  simp only [turnsOf, Prod.mk.injEq] at hturns
  obtain ⟨hpc, htiles, hout⟩ := hturns
  have hnext := coreNext_from h hpc
  have harrs : (coreNext p g x).2.1.arrs = x.1.arrs := by rw [hnext, (jumped_keeps _ _).2.2.1]
  obtain ⟨-, hg, -⟩ := h
  rw [kickQ_quiet (u := u) hg, hnext]
  · rw [hnext, jumped_rd _ _ (by nofun), jumped_rd _ _ (by nofun), hcons, hprod]
    exact hends
  · intro hkind
    obtain ⟨hnone, hempty⟩ := hquiet hkind
    rw [arrOf, harrs, htiles, hout]
    exact ⟨hnone, hempty⟩

theorem ends_of_isCons {u : Nat} (h : isCons s p q u = true) : s.rd (R.PART_Q_ENDS.CONS p q) = u := by
  rw [isCons, Bool.and_eq_true, decide_eq_true_eq, decide_eq_true_eq] at h
  exact h.2

theorem ends_of_isProd {u : Nat} (h : isProd s p q u = true) : s.rd (R.PART_Q_ENDS.PROD p q) = u := by
  rw [isProd, Bool.and_eq_true, decide_eq_true_eq, decide_eq_true_eq] at h
  exact h.2

/-- The core has let go of a slot that it held. -/
theorem coreLists_reads (f : Core → Core) (s : State) : coreOf (apply (.core (48 * p + g) f) s) p g = f (coreOf s p g) ∧
    (∀ k, turnsOf p g k (apply (.core (48 * p + g) f) s) = turnsOf p g k s) ∧ queOf (apply (.core (48 * p + g) f) s) p q = queOf s p q := by
  refine ⟨?_, fun k => ?_, ?_⟩
  · simp only [coreOf, apply_core, tget_tset_self]
  · simp only [turnsOf, apply_core]
  · simp only [queOf, apply_core]

theorem releaseTurn_reads {x : Trace o} (h : CoreAt s p g) (hcons : isCons s p q (uidOf p 1 g) = true) {f : Core → Core}
    (hx : x.1 = apply (.core (48 * p + g) f) s) (hquiet : Quiet s (s.rd (R.PART_Q_ENDS.PROD p q))) {t : State}
    (ht : t = (kickQ p q (coreNext p g (releaseSlot p q x).2).2).2.1) :
    Committed s t p g ∧ (coreOf t p g).popped = (f (coreOf s p g)).popped ∧ (queOf t p q).rel = (queOf s p q).rel + 1 := by
  obtain ⟨hcore, hturns, hque⟩ := coreLists_reads (p := p) (g := g) (q := q) f s
  have hrelease := (releaseSlot_in (o := o) p q).viaFrom hx
  have hend (lo w : Nat) : (releaseSlot p q x).2.1.rd ⟨.PART_Q_ENDS, [p, q], lo, w⟩ = s.rd ⟨.PART_Q_ENDS, [p, q], lo, w⟩ :=
    (hrelease.rdKind .PART_Q_ENDS rfl rfl rfl).trans (by simp only [apply_core])
  rw [nextKick_fin h (releaseSlot_turns p q _ x (by rw [hx]; exact hturns _)) (hend ..) (hend ..) (.inl ⟨ends_of_isCons hcons, rfl⟩) hquiet] at ht
  subst ht
  obtain ⟨hques, -, -, -, hpopped, -⟩ := jumped_keeps (p := p) (g := g) (s.rd (R.PART_CORE_STAT.PC p g) + 1) (releaseSlot p q x).2.1
  refine ⟨jumped_committed h _, hpopped.trans ?_, ?_⟩
  · rw [coreOf, hrelease.cores rfl, ← coreOf, hcore]
  · rw [queOf_of_ques hques, (releaseSlot_rel x).1, hx, hque]

theorem publishTurn_reads {x : Trace o} (h : CoreAt s p g) (hprod : isProd s p q (uidOf p 1 g) = true)
    (hturns : ∀ k, turnsOf p g k x.1 = turnsOf p g k s) (hends : ∀ lo w, x.1.rd ⟨.PART_Q_ENDS, [p, q], lo, w⟩ = s.rd ⟨.PART_Q_ENDS, [p, q], lo, w⟩)
    (hquiet : Quiet s (s.rd (R.PART_Q_ENDS.CONS p q))) {t : State} (ht : t = (kickQ p q (coreNext p g (publishSlot p q x).2).2).2.1) :
    Committed s t p g ∧ (coreOf t p g).acquired = (coreOf x.1 p g).acquired ∧ (queOf t p q).pub = (queOf x.1 p q).pub + 1 ∧
      t.bytes = x.1.bytes ∧ t.ques = (publishSlot p q x).2.1.ques ∧
      t.rd (R.PART_Q_CREDIT.CREDIT p q) = (publishSlot p q x).2.1.rd (R.PART_Q_CREDIT.CREDIT p q) := by
  have hpublish := (publishSlot_in (o := o) p q).via x
  have hend (lo w : Nat) : (publishSlot p q x).2.1.rd ⟨.PART_Q_ENDS, [p, q], lo, w⟩ = s.rd ⟨.PART_Q_ENDS, [p, q], lo, w⟩ :=
    (hpublish.rdKind .PART_Q_ENDS rfl rfl rfl).trans (hends ..)
  rw [nextKick_fin h (publishSlot_turns p q _ x (hturns _)) (hend ..) (hend ..) (.inr ⟨ends_of_isProd hprod, rfl⟩) hquiet] at ht
  subst ht
  obtain ⟨hques, hbytes, -, -, -, hacquired⟩ := jumped_keeps (p := p) (g := g) (s.rd (R.PART_CORE_STAT.PC p g) + 1) (publishSlot p q x).2.1
  refine ⟨jumped_committed h _, hacquired.trans ?_, ?_, hbytes.trans (hpublish.bytes rfl), hques, jumped_rd _ _ (by nofun)⟩
  · rw [coreOf, hpublish.cores rfl, ← coreOf]
  · rw [queOf_of_ques hques, publishSlot_pub]

theorem qrel_does (h : CoreAt s p g) (hq : q < 1024) (hcons : isCons s p q (uidOf p 1 g) = true) (hheld : (coreOf s p g).popped = [q])
    (hquiet : Quiet s (s.rd (R.PART_Q_ENDS.PROD p q))) :
    Does (.qrel p g q Flt.none) s fun t => Committed s t p g ∧ (coreOf t p g).popped = [] ∧ (queOf t p q).rel = (queOf s p q).rel + 1 := by
  obtain ⟨hp, hg, -⟩ := id h
  refine coreTurn_does h rfl (by simp [Instr.wf, hp, hg, hq]) ?_
  have hlegal : ¬ ((!isCons s p q (uidOf p 1 g) || !(coreOf s p g).popped.contains q) = true) := by simp [hcons, hheld]
  rw [st_bind, M.bind_run, core_run_coreOf, if_neg hlegal, M.bind_run, M.bind_run, M.bind_run]
  obtain ⟨hdone, hpopped, hrel⟩ := releaseTurn_reads (x := (upCore p g (fun c => { c with popped := c.popped.filter (· ≠ q) }) (⟨s, .refl⟩ : Trace s)).2)
    (f := fun c => { c with popped := c.popped.filter (· ≠ q) }) h hcons rfl hquiet rfl
  refine ⟨hdone, hpopped.trans ?_, hrel⟩
  simp [hheld]

theorem qpub_does (h : CoreAt s p g) (hq : q < 1024) (hprod : isProd s p q (uidOf p 1 g) = true) (hheld : (coreOf s p g).acquired = [q])
    (hquiet : Quiet s (s.rd (R.PART_Q_ENDS.CONS p q))) :
    Does (.qpub p g q Flt.none) s fun t => Committed s t p g ∧ (coreOf t p g).acquired = [] ∧ (queOf t p q).pub = (queOf s p q).pub + 1 := by
  obtain ⟨hp, hg, -⟩ := id h
  refine coreTurn_does h rfl (by simp [Instr.wf, hp, hg, hq]) ?_
  have hlegal : ¬ ((!isProd s p q (uidOf p 1 g) || !(coreOf s p g).acquired.contains q) = true) := by simp [hprod, hheld]
  obtain ⟨hcore, hturns, hque⟩ := coreLists_reads (p := p) (g := g) (q := q) (fun c => { c with acquired := c.acquired.filter (· ≠ q) }) s
  rw [st_bind, M.bind_run, core_run_coreOf, if_neg hlegal, M.bind_run, M.bind_run, M.bind_run]
  obtain ⟨hdone, hacquired, hpub, -⟩ := publishTurn_reads
    (x := (upCore p g (fun c => { c with acquired := c.acquired.filter (· ≠ q) }) (⟨s, .refl⟩ : Trace s)).2) h hprod hturns
    (fun _ _ => by rw [upCore_run]; simp only [apply_core]) hquiet rfl
  refine ⟨hdone, hacquired.trans ?_, hpub.trans ?_⟩
  · rw [upCore_run, hcore]
    simp [hheld]
  · rw [upCore_run, hque]

/-! Tokens posted. -/

/-- A queue's credits while its ends are woken. -/
theorem wakeQ_credit : KeepsObs (fun t => t.rd (R.PART_Q_CREDIT.CREDIT p q)) (wakeQ p q : M o Unit) := by
  intro b
  have hrun (u : Nat) : Keeps (fun t => t.rd (R.PART_Q_CREDIT.CREDIT p q) = b) (runUnit u : M o Unit) :=
    .within (runUnit_in u) fun hvia h => (hvia.rdKind .PART_Q_CREDIT rfl rfl rfl).trans h
  have hwake {c : Prop} [Decidable c] (u : Nat) : Keeps (fun t => t.rd (R.PART_Q_CREDIT.CREDIT p q) = b) (if c then runUnit u else pure () : M o Unit) := by
    split
    · exact hrun u
    · exact .pure ()
  unfold wakeQ
  refine .bind (m := st) (fun _ h => h) fun s => .bind ?_ fun _ => .bind (m := st) (fun _ h => h) fun s => ?_
  · split
    · exact .bind (KeepsObs.eff (fun _ => by simp (disch := decide) only [rd_reg_elsewhere]) b) fun _ => hwake _
    · exact .pure ()
  · split
    · exact .bind (KeepsObs.eff (fun _ => by simp (disch := decide) only [rd_reg_apart]) b) fun _ => hwake _
    · exact .pure ()

/-- A publication to a consumer that is not the energy gate keeps the credits and the producer's count. -/
theorem publishSlot_unit {x : Trace o} (hcons : uKind (x.1.rd (R.PART_Q_ENDS.CONS p q)) ≠ 4) :
    (publishSlot p q x).2.1.rd (R.PART_Q_CREDIT.CREDIT p q) = x.1.rd (R.PART_Q_CREDIT.CREDIT p q) ∧
    (queOf (publishSlot p q x).2.1 p q).wr = (queOf x.1 p q).wr := by
  rw [publishSlot, st_bind, M.bind_run, M.bind_run, M.bind_run, M.bind_run, if_neg hcons, M.pure_snd]
  have hends := (refreshEnds_in (o := o) p q).via
  refine ⟨((hends _).rdKind .PART_Q_CREDIT rfl rfl rfl).trans (wakeQ_credit _ _ ?_), ?_⟩
  · rw [wr_run, upQue_run]
    simp (disch := decide) only [rd_reg_elsewhere, apply_que]
  · rw [queOf_of_ques ((hends _).ques rfl), queOf_of_ques (((wakeQ_in p q).via _).ques rfl), queOf_wr, upQue_run, queOf_que]

theorem onChip_qSlot (s : State) (hp : p < 8) (i : Nat) : onChip (qSlot s p q i) := by
  have hbase : s.rd (R.PART_Q_CFG.BASE p q) < 2 ^ 18 := rd_lt s _
  have hdepth : s.rd (R.PART_Q_CFG.DEPTH_LOG2 p q) < 2 ^ 5 := rd_lt s _
  have hslot : i % 2 ^ s.rd (R.PART_Q_CFG.DEPTH_LOG2 p q) < 2 ^ 31 :=
    (Nat.mod_lt _ (Nat.two_pow_pos _)).trans_le (Nat.pow_le_pow_right (by decide) (by omega))
  unfold onChip qSlot poolBase
  generalize s.rd (R.PART_Q_CFG.BASE p q) = b at hbase
  generalize i % 2 ^ s.rd (R.PART_Q_CFG.DEPTH_LOG2 p q) = j at hslot
  omega

/-- A slot has been written at a queue's producer end, a credit taken, its ends not yet shown. -/
def pushed (p q : Nat) (bs : List Byte) (s : State) : State :=
  apply (.que (1024 * p + q) fun x => { x with wr := x.wr + 1 })
    (apply (.write (qSlot s p q (queOf s p q).wr) (padTo 256 (bs.take 256)))
      (apply (.reg (R.PART_Q_CREDIT.CREDIT p q) (s.rd (R.PART_Q_CREDIT.CREDIT p q) - 1)) s))

theorem pushSlot_via {x : Trace o} (hx : x.1 = s) (hp : p < 8) (herrs : s.mem.errs = []) (u : Nat) (bs : List Byte) :
    Via FP.istatWord (pushed p q bs s) (pushSlot p q u bs x).2.1 := by
  subst hx
  have hwrite := writeMem_clean (wr (R.PART_Q_CREDIT.CREDIT p q) (x.1.rd (R.PART_Q_CREDIT.CREDIT p q) - 1) x).2 (rdr := rdrOf u) (unit := u)
    (padTo 256 (bs.take 256)) (onChip_qSlot (q := q) x.1 hp (queOf x.1 p q).wr) (by rw [wr_run]; simp only [apply_reg, herrs])
  rw [pushSlot, st_bind, M.bind_run, M.bind_run, hwrite, M.bind_run]
  exact (refreshEnds_in p q).viaFrom rfl

theorem pushed_reads (bs : List Byte) (s : State) : (queOf (pushed p q bs s) p q).wr = (queOf s p q).wr + 1 ∧
    (queOf (pushed p q bs s) p q).pub = (queOf s p q).pub ∧
    (pushed p q bs s).rd (R.PART_Q_CREDIT.CREDIT p q) = s.rd (R.PART_Q_CREDIT.CREDIT p q) - 1 ∧
    (∀ k, turnsOf p g k (pushed p q bs s) = turnsOf p g k s) ∧
    (∀ lo w, (pushed p q bs s).rd ⟨.PART_Q_ENDS, [p, q], lo, w⟩ = s.rd ⟨.PART_Q_ENDS, [p, q], lo, w⟩) := by
  have hfits : (s.rd (R.PART_Q_CREDIT.CREDIT p q) - 1) % 2 ^ 17 = s.rd (R.PART_Q_CREDIT.CREDIT p q) - 1 :=
    Nat.mod_eq_of_lt ((Nat.sub_le _ _).trans_lt (rd_lt s _))
  refine ⟨?_, ?_, ?_, fun k => ?_, fun lo w => ?_⟩
  · rw [pushed, queOf_que]
    simp only [queOf, apply_write, apply_reg]
  · rw [pushed, queOf_que]
    simp only [queOf, apply_write, apply_reg]
  · simp (disch := decide) only [pushed, apply_que, apply_write, rd_reg_same, hfits]
  · rw [pushed, turnsOf, turnsOf]
    simp (disch := decide) only [apply_que, apply_write, rd_reg_elsewhere, apply_reg]
  · simp (disch := decide) only [pushed, apply_que, apply_write, rd_reg_elsewhere]

theorem pushed_byte (bs : List Byte) (s : State) {i : Nat} (hi : i < (padTo 256 (bs.take 256)).length) :
    byteAt (pushed p q bs s) (qSlot s p q (queOf s p q).wr + i) = (padTo 256 (bs.take 256))[i] := by
  simp only [byteAt, pushed, apply_que, apply_write, apply_reg]
  exact tget_twrite_in _ _ _ _ hi

/-- The first bytes of a slot that holds a token. -/
theorem tokenBytes_slot (w : Nat) {i : Nat} (hi : i < 4) :
    ∃ h : i < (padTo 256 ((tokenBytes (w % 2 ^ 32)).take 256)).length,
      (padTo 256 ((tokenBytes (w % 2 ^ 32)).take 256))[i] = BitVec.ofNat 8 (w / 256 ^ i) := by
  have hlen : i < (leBytes 4 (w % 2 ^ 32)).length := by rw [leBytes_length]; exact hi
  have hpad (n : Nat) (l : List Byte) (h : i < l.length) : ∃ h' : i < (padTo n l).length, (padTo n l)[i] = l[i] :=
    ⟨by rw [padTo, List.length_append]; omega, by simp only [padTo]; exact List.getElem_append_left h⟩
  obtain ⟨h1, e1⟩ := hpad 256 _ hlen
  have htake : i < ((tokenBytes (w % 2 ^ 32)).take 256).length := by
    rw [List.length_take]
    exact lt_min (by omega) h1
  obtain ⟨h2, e2⟩ := hpad 256 _ htake
  refine ⟨h2, e2.trans ?_⟩
  rw [List.getElem_take]
  refine e1.trans ((leBytes_get _ hi).trans ?_)
  apply BitVec.eq_of_toNat_eq
  rw [BitVec.toNat_ofNat, BitVec.toNat_ofNat]
  interval_cases i <;> omega

theorem corePostq_does {x : Nat} (h : CoreAt s p g) (hq : q < 1024) (hx : x < 32) (hprod : isProd s p q (uidOf p 1 g) = true)
    (hnone : (coreOf s p g).acquired = []) (hcredit : 0 < s.rd (R.PART_Q_CREDIT.CREDIT p q)) (herrs : s.mem.errs = [])
    (hcons : uKind (s.rd (R.PART_Q_ENDS.CONS p q)) ≠ 4) (hquiet : Quiet s (s.rd (R.PART_Q_ENDS.CONS p q))) :
    Does (.corePostq p g q x Flt.none) s fun t => Committed s t p g ∧ (queOf t p q).wr = (queOf s p q).wr + 1 ∧
      (queOf t p q).pub = (queOf s p q).pub + 1 ∧ t.rd (R.PART_Q_CREDIT.CREDIT p q) = s.rd (R.PART_Q_CREDIT.CREDIT p q) - 1 ∧
      ∀ i < 4, byteAt t (qSlot s p q (queOf s p q).wr + i) = BitVec.ofNat 8 (((coreOf s p g).getX x).toNat / 256 ^ i) := by
  obtain ⟨hp, hg, -⟩ := id h
  refine coreTurn_does h rfl (by simp [Instr.wf, hp, hg, hq, hx]) ?_
  have hgo : ¬ s.rd (R.PART_Q_CREDIT.CREDIT p q) = 0 := by omega
  have hlegal : ¬ ((!isProd s p q (uidOf p 1 g) || (coreOf s p g).acquired.contains q) = true) := by simp [hprod, hnone]
  rw [st_bind, M.bind_run, core_run_coreOf, if_neg hlegal, if_neg hgo, M.bind_run, M.bind_run, M.bind_run]
  have hpush := pushSlot_via (q := q) (x := (⟨s, .refl⟩ : Trace s)) rfl hp herrs (uidOf p 1 g) (tokenBytes (((coreOf s p g).getX x).toNat % 2 ^ 32))
  obtain ⟨hwr, hpub, hleft, hturns, hends⟩ := pushed_reads (p := p) (g := g) (q := q) (tokenBytes (((coreOf s p g).getX x).toNat % 2 ^ 32)) s
  obtain ⟨hdone, -, hpub', hbytes, hques, hcr⟩ := publishTurn_reads h hprod
    (x := (pushSlot p q (uidOf p 1 g) (tokenBytes (((coreOf s p g).getX x).toNat % 2 ^ 32)) (⟨s, .refl⟩ : Trace s)).2)
    (fun k => (turnsOf_via hpush rfl rfl (hpush.arrs rfl)).trans (hturns k))
    (fun lo w => (hpush.rdKind .PART_Q_ENDS rfl rfl rfl).trans (hends lo w)) hquiet rfl
  obtain ⟨hkept, hwr'⟩ := publishSlot_unit (p := p) (q := q)
    (x := (pushSlot p q (uidOf p 1 g) (tokenBytes (((coreOf s p g).getX x).toNat % 2 ^ 32)) (⟨s, .refl⟩ : Trace s)).2)
    (by rw [hpush.rdKind .PART_Q_ENDS rfl rfl rfl, hends]; exact hcons)
  refine ⟨hdone, ?_, ?_, ?_, fun i hi => ?_⟩
  · rw [queOf_of_ques hques, hwr', queOf_of_ques (hpush.ques rfl), hwr]
  · rw [hpub', queOf_of_ques (hpush.ques rfl), hpub]
  · rw [hcr, hkept, hpush.rdKind .PART_Q_CREDIT rfl rfl rfl, hleft]
  · obtain ⟨hlen, hbyte⟩ := tokenBytes_slot ((coreOf s p g).getX x).toNat hi
    rw [byteAt, hbytes, hpush.bytes rfl, ← byteAt, pushed_byte _ _ hlen, hbyte]

/-- Settles O42: each instruction's turn, read off the queue and the core that it leaves; the other end of the queue has nothing to do. -/
theorem coreQueueInstructionsComplete : Obligations.CoreQueueInstructionsComplete :=
  ⟨fun _ _ _ _ _ h hd hq hcons hnone hsome => qwait_takes h hd hq hcons hnone hsome,
    fun _ _ _ _ _ h hd hq hcons hnone hempty => qwait_waits h hd hq hcons hnone hempty,
    fun _ _ _ _ _ h hd hq hcons hnone => qpoll_does h hd hq hcons hnone,
    fun _ _ _ _ _ h hd hq hprod hnone hcredit => qacq_acquires h hd hq hprod hnone hcredit,
    fun _ _ _ _ _ h hd hq hprod hnone hcredit => qacq_waits h hd hq hprod hnone hcredit,
    fun _ _ _ _ _ h hd hq hprod hnone => qtry_does h hd hq hprod hnone,
    fun _ _ _ _ h hq hcons hheld hquiet => qrel_does h hq hcons hheld hquiet,
    fun _ _ _ _ h hq hprod hheld hquiet => qpub_does h hq hprod hheld hquiet,
    fun _ _ _ _ _ h hq hx hprod hnone hcredit herrs hcons hquiet => corePostq_does h hq hx hprod hnone hcredit herrs hcons hquiet⟩

end Sys2Proof.Machine
end

section
/-!
PROOFS. Stores (R61, R69, R119, R153, R429): each changes no byte of memory outside the bytes it stores.
-/

set_option Elab.async false

namespace Sys2Proof.Machine

variable {o s : State} {p n g w c : Nat}

/-! One byte of memory. -/

theorem byteAt_write_out {a : Nat} {bs : List Byte} (h : c < a ∨ a + bs.length ≤ c) (s : State) : byteAt (apply (.write a bs) s) c = byteAt s c := by
  simp only [byteAt, apply_write]
  exact tget_twrite_out _ _ _ _ h

theorem byteAt_of_bytes {t : State} (h : t.bytes = s.bytes) (c : Nat) : byteAt t c = byteAt s c := by rw [byteAt, byteAt, h]

/-- An action whose footprint holds no bytes. -/
theorem keepsByte {N : Nat} {α : Type} {m : M o α} (h : Within N m) (hN : N &&& 0x200000006 = 0) : KeepsObs (byteAt · c) m := fun _ =>
  .within h fun hvia hb => (byteAt_of_bytes (hvia.bytes hN) c).trans hb

/-- A write of bytes that no codeword error touches and no failed channel takes. -/
theorem writeMem_plain (x : Trace o) {rdr unit a : Nat} (bs : List Byte) (hchan : chanFailed x.1 a bs.length = false) (hclean : x.1.mem.errs = []) :
    writeMem rdr unit a bs x = (.ok (), ⟨apply (.write a bs) x.1, .step x.2 _⟩) := by
  have hnone : errCws x.1 a bs.length = [] := errCws_of_no_errs hclean a _
  have hpart : partCws x.1 a bs.length = [] := by rw [partCws, hnone, List.filter_nil]
  rw [writeMem, st_bind, hchan, if_neg Bool.false_ne_true, hpart]
  simp only [checkCws, M.bind_run, M.pure_run, st_run, hnone, List.isEmpty_nil, Bool.not_true, eff_run, when_run, Bool.false_eq_true, if_false,
    if_true]

/-- A write, taken or refused, leaves the bytes beside its own. -/
theorem writeMem_others (x : Trace o) {rdr unit a : Nat} {bs : List Byte} (hclean : x.1.mem.errs = []) (hc : c < a ∨ a + bs.length ≤ c) :
    byteAt (writeMem rdr unit a bs x).2.1 c = byteAt x.1 c := by
  cases hchan : chanFailed x.1 a bs.length with
  | false =>
    rw [writeMem_plain x bs hchan hclean]
    exact byteAt_write_out hc x.1
  | true =>
    rw [writeMem, st_bind, hchan, if_pos rfl, M.bind_run]
    exact byteAt_of_bytes (((noteChan_in x.1 a).via x).bytes rfl) c

/-! General cores and BAR4. -/

theorem storedAt_others {m : Nat} {bs : List Byte} {len : Nat} (hlen : bs.length = len) : OtherBytes s (storedAt p g m bs s) m len := by
  subst hlen
  intro c hc
  rw [storedAt, byteAt_of_bytes (jumped_keeps _ _).2.1, byteAt_write_out hc]

theorem bar4Write_others {off a : Nat} {b : List Byte} {ide : Bool} (ha : bar4Addr s off b.length = some a) (hide : ideRefuses s ide = false)
    (herrs : s.mem.errs = []) (hchan : chanFailed s a b.length = false) : Does (.bar4Write off b ide) s (OtherBytes s · a b.length) := by
  refine does_run rfl rfl ?_
  have hpart : partCws s a b.length = [] := by rw [partCws, errCws_of_no_errs herrs, List.filter_nil]
  rw [st_bind]
  simp only [hide, ha, hpart, hchan, Bool.false_eq_true, if_false, List.isEmpty_nil, Bool.not_false, and_self, if_true]
  rw [M.bind_run, writeMem_plain _ b hchan herrs]
  exact fun c hc => byteAt_write_out hc s

/-! The turn of an array with nothing left to do. -/

theorem ArrAt.unitTurn (x : Trace o) (h : ArrAt x.1 p n w) : unitTurn (uidOf p 0 n) x = (true, x) := by
  obtain ⟨hp, hn, hissue, hreset, hctx, -, hrun, -⟩ := h
  have hkind : uKind (uidOf p 0 n) = 0 := uKind_uidOf (by decide) (by omega)
  have hidx : uIdx (uidOf p 0 n) = n := uIdx_uidOf (by omega)
  have hpart : uPart (uidOf p 0 n) = p := uPart_uidOf hp (by decide) (by omega)
  have hbound : unitCtx x.1 (uidOf p 0 n) ≠ none := by
    rw [unitCtx, hkind, hidx, hpart]
    exact Option.isSome_iff_ne_none.1 hctx
  simp [Machine.unitTurn, M.bind_run, M.pure_run, st_run, hpart, hissue, hreset, hbound, stFld, hkind, hidx, hrun]

theorem arrWork_idle {x : Trace o} (htiles : (arrOf x.1 p n).tiles = []) (hout : (arrOf x.1 p n).outBuf = []) : arrWork p n Flt.none x = ((), x) := by
  have hstream : streamStep p n Flt.none x = (false, x) := by
    rw [streamStep, st_bind, M.bind_run, arr_run]
    change (match (arrOf x.1 p n).tiles with
      | [] => _
      | t :: l => _ : M o Bool) x = _
    rw [htiles]
    rfl
  have hdrain : drainStep p n x = (false, x) := by
    rw [drainStep, st_bind, M.bind_run, arr_run]
    change (match (arrOf x.1 p n).outBuf with
      | [] => _
      | t :: l => _ : M o Bool) x = _
    rw [hout]
    rfl
  rw [arrWork, M.bind_run, loop_stops hstream, loop_stops hdrain]

theorem onChip_storeBase {a : Nat} (hp : p < 8) (hn : n < 24) (ha : a < 0x200000) : onChip (storeBase p n + a) := by
  unfold onChip storeBase
  omega

theorem ArrAt.quiet (h : ArrAt s p n w) : (arrOf s p n).tiles = [] ∧ (arrOf s p n).outBuf = [] := by
  obtain ⟨hp, hn, -, -, -, hquiet, -⟩ := h
  have hidx : uIdx (uidOf p 0 n) = n := uIdx_uidOf (by omega)
  have hpart : uPart (uidOf p 0 n) = p := uPart_uidOf hp (by decide) (by omega)
  rw [Quiet, hidx, hpart] at hquiet
  exact hquiet (uKind_uidOf (by decide) (by omega))

theorem arrTurn_run (x : Trace o) (body : Nat → M o Unit) (h : ArrAt x.1 p n w) {opc : Nat} (hopc : insOpc w = opc) :
    arrTurn p n opc Flt.none body x = body w x := by
  obtain ⟨hp, hn, -, -, -, -, hrun, hpair, hclean, hword, hlegal⟩ := id h
  obtain ⟨htiles, hout⟩ := h.quiet
  have hpc : x.1.rd (R.PART_ARR_STAT.PC p n) < 2 ^ 12 := rd_lt _ _
  have hread := readMem_clean x (rdr := RC.array) (unit := uidOf p 0 n) (onChip_storeBase hp hn (a := 16 * x.1.rd (R.PART_ARR_STAT.PC p n)) (by omega))
    hclean
  have hlive : arrLive x.1 p n = true := by simp only [arrLive, hrun, BEq.rfl, Bool.true_or]
  have harr : (arr p n : M o Arr) x = (arrOf x.1 p n, x) := arr_run p n x
  simp only [arrTurn, Flt.none, applyUps, applyCells, M.bind_run, M.pure_run, rd_run, if_neg hpair, h.unitTurn x, Bool.not_true, Bool.false_eq_true,
    if_false]
  have hidle := arrWork_idle htiles hout
  simp only [Flt.none] at hidle
  simp only [hidle, st_run, hlive, Bool.not_true, Bool.false_eq_true, if_false, M.bind_run, hread, hword, hopc, ne_eq, not_true_eq_false, false_and,
    harr, hlegal]

theorem arrTurn_does {i : Instr} {m : M s Unit} {E : State → Prop} (h : ArrAt s p n w) (he : exec i s = act i.wf s m) (hwf : i.wf = true)
    {opc : Nat} {body : Nat → M s Unit} (hm : m = arrTurn p n opc Flt.none body) (hopc : insOpc w = opc) (hE : E (body w ⟨s, .refl⟩).2.1) :
    Does i s E := by
  refine does_run he hwf ?_
  rw [hm, arrTurn_run _ _ h hopc]
  exact hE

/-! POSTQ. -/

theorem retire_keepsByte (p n : Nat) : KeepsObs (byteAt · c) (retire p n : M o Unit) := keepsByte (retire_in p n) rfl

theorem padTo_length {k : Nat} {l : List Byte} (h : l.length ≤ k) : (padTo k l).length = k := by
  rw [padTo, List.length_append, zeros, List.length_replicate]
  omega

/-- A pushed slot is a write of 256 bytes at the queue's next place. -/
theorem pushSlot_others (x : Trace o) {p q u : Nat} {bs : List Byte} (hp : p < 8) (herrs : x.1.mem.errs = [])
    (hc : c < qSlot x.1 p q (queOf x.1 p q).wr ∨ qSlot x.1 p q (queOf x.1 p q).wr + 256 ≤ c) : byteAt (pushSlot p q u bs x).2.1 c = byteAt x.1 c := by
  have hlen : (padTo 256 (bs.take 256)).length = 256 := padTo_length (List.length_take_le _ _)
  rw [byteAt_of_bytes ((pushSlot_via rfl hp herrs u bs).bytes rfl)]
  simp only [byteAt, pushed, apply_que, apply_write, apply_reg]
  exact tget_twrite_out _ _ _ _ (by rwa [hlen])

theorem postq_others (h : ArrAt s p n w) (hopc : insOpc w = 11) (hcredit : 0 < s.rd (R.PART_Q_CREDIT.CREDIT p (insQ w))) (herrs : s.mem.errs = []) :
    Does (.postq p n) s (OtherBytes s · (qSlot s p (insQ w) (queOf s p (insQ w)).wr) 256) := by
  obtain ⟨hp, hn, -⟩ := id h
  refine arrTurn_does h rfl (by simp [Instr.wf, hp, hn]) rfl hopc fun c hc => ?_
  rw [M.bind_run, rd_run, if_neg hcredit.ne', M.bind_run]
  exact retire_keepsByte p n _ _ (pushSlot_others ⟨s, .refl⟩ hp herrs hc)

/-! EMIT. -/

theorem setF_keepsByte (f : Fld) : KeepsObs (byteAt · c) (setF f : M o Unit) := fun _ x h => by
  rw [setF_run]
  exact (byteAt_of_bytes (by simp only [apply_reg]) c).trans h

theorem emitFail_none {a : Arr} {b w : Nat} (hpm : (a.bank b).pm = 0) (hres : residueOk (a.bank b) 0 16384 = true) (hcb : isCb (emitFmt w) = false) :
    emitFail a b w = none := by
  have hout : outBank (a.bank b) (a.obank b) = a.bank b := by rw [outBank, hpm, if_neg (by decide)]
  simp [emitFail, bankFail, hres, hpm, hout, hcb]

theorem emitFree_lists (a : Arr) (b w : Nat) : (emitFree a b w).tiles = a.tiles ∧ (emitFree a b w).outBuf = a.outBuf := by
  have hbank (a : Arr) (i : Nat) (b : Acc) : (a.setBank i b).tiles = a.tiles ∧ (a.setBank i b).outBuf = a.outBuf := by
    unfold Arr.setBank
    split <;> exact ⟨rfl, rfl⟩
  have hobank (a : Arr) (i : Nat) (b : Acc) : (a.setObank i b).tiles = a.tiles ∧ (a.setObank i b).outBuf = a.outBuf := by
    unfold Arr.setObank
    split <;> exact ⟨rfl, rfl⟩
  unfold emitFree
  dsimp only
  split <;> simp only [hbank, hobank, and_self]

theorem writeMem_turns {a : Nat} (rdr unit : Nat) (bs : List Byte) (j : Nat) : KeepsObs (turnsOf p g j) (writeMem rdr unit a bs : M o (Except Nat Unit)) :=
  fun _ => .within (writeMem_in ..) fun hvia h => (turnsOf_via hvia rfl rfl (hvia.arrs rfl)).trans h

/-- The byte `c` and what an array has left to do. -/
def restOf (p n c : Nat) (s : State) : Byte × Nat × List TileRun × List (List Byte) := (byteAt s c, turnsOf p 0 (24 * p + n) s)

theorem restOf_same {t : State} (h : restOf p n c t = restOf p n c s) : byteAt t c = byteAt s c ∧ (arrOf t p n).tiles = (arrOf s p n).tiles ∧
    (arrOf t p n).outBuf = (arrOf s p n).outBuf := by
  simp only [restOf, turnsOf, Prod.mk.injEq] at h
  obtain ⟨hbyte, -, htiles, hout⟩ := h
  exact ⟨hbyte, htiles, hout⟩

/-- An idle array's work after an action that kept what it has left to do. -/
theorem arrWork_rest {x y : Trace o} (hrest : restOf p n c y.1 = restOf p n c x.1) (htiles : (arrOf x.1 p n).tiles = [])
    (hout : (arrOf x.1 p n).outBuf = []) : byteAt (arrWork p n Flt.none y).2.1 c = byteAt x.1 c := by
  obtain ⟨hbyte, htiles', hout'⟩ := restOf_same hrest
  rw [arrWork_idle (htiles'.trans htiles) (hout'.trans hout)]
  exact hbyte

theorem KeepsObs.rest {α : Type} {m : M o α} (hbyte : KeepsObs (byteAt · c) m) (hturns : KeepsObs (turnsOf p 0 (24 * p + n)) m) : KeepsObs (restOf p n c) m :=
  fun _ x h => (Prod.ext (hbyte (byteAt x.1 c) x rfl) (hturns _ x rfl) : restOf p n c (m x).2.1 = restOf p n c x.1).trans h

theorem retire_rest : KeepsObs (restOf p n c) (retire p n : M o Unit) := by
  refine .rest (retire_keepsByte p n) fun b => ?_
  exact .bind (m := rd _) (fun _ h => h) fun v => .bind (KeepsObs.eff (turnsOf_reg .PART_ARR_STAT rfl (by decide)) b) fun _ => runUnit_turns _ b

theorem writeMem_rest (x : Trace o) {rdr unit a : Nat} {bs : List Byte} (hclean : x.1.mem.errs = []) (hc : c < a ∨ a + bs.length ≤ c) :
    restOf p n c (writeMem rdr unit a bs x).2.1 = restOf p n c x.1 :=
  Prod.ext (writeMem_others x hclean hc) (writeMem_turns _ _ _ _ _ x rfl)

theorem emitStore_run (x : Trace o) (slot : Nat) (bs : List Byte) :
    (emitStore p n slot false bs x).2 = (writeMem RC.array (uidOf p 0 n) (storeBase p n + slot * 256) bs x).2 := by
  rw [emitStore, if_neg Bool.false_ne_true]
  dsimp only
  rw [M.bind_run, M.pure_snd]

theorem emitStore_rest (x : Trace o) {slot : Nat} {bs : List Byte} (hclean : x.1.mem.errs = [])
    (hc : c < storeBase p n + slot * 256 ∨ storeBase p n + slot * 256 + bs.length ≤ c) :
    restOf p n c (emitStore p n slot false bs x).2.1 = restOf p n c x.1 := by
  rw [emitStore_run]
  exact writeMem_rest x hclean hc

theorem excFlags_rest (e : Exc) : KeepsObs (restOf p n c) (excFlags p n e : M o Unit) :=
  .rest (keepsByte (excFlags_in p n e) rfl) fun _ => .within (excFlags_in p n e) fun hvia h => (turnsOf_via hvia rfl rfl (hvia.arrs rfl)).trans h

theorem emitFree_rest (b w : Nat) : KeepsObs (restOf p n c) (upArr p n fun a => emitFree a b w : M o Unit) :=
  .rest (keepsByte (upArr_in ..) rfl) (KeepsObs.eff (turnsOf_arr _ _ fun a => emitFree_lists a _ _))

/-- Storing the result and freeing the bank: the bytes outside the stored ones and what the array has left to do stay. -/
theorem emitRest_rest {b slot : Nat} {bs : List Byte} {r : Exc} (x : Trace o) (hclean : x.1.mem.errs = [])
    (hc : c < storeBase p n + slot * 256 ∨ storeBase p n + slot * 256 + bs.length ≤ c) :
    restOf p n c ((do
      excFlags p n r
      emitStore p n slot false bs
      upArr p n fun a => emitFree a b w
      retire p n : M o Unit) x).2.1 = restOf p n c x.1 := by
  have hmem : (excFlags p n r x).2.1.mem = x.1.mem := ((excFlags_in p n r).via x).mem rfl
  have hstart : restOf p n c (excFlags p n r x).2.1 = restOf p n c x.1 := excFlags_rest r _ x rfl
  rw [M.bind_run, M.bind_run]
  exact Keeps.bind (P := fun t => restOf p n c t = restOf p n c x.1) (emitFree_rest b w _) (fun _ => retire_rest _) _
    ((emitStore_rest _ (by rw [hmem]; exact hclean) hc).trans hstart)

theorem emit_others {b : Nat} (h : ArrAt s p n w) (hopc : insOpc w = 2) (hlast : lastBank (arrOf s p n) = some b)
    (hst : ((arrOf s p n).bank b).st = .complete) (hpm : ((arrOf s p n).bank b).pm = 0) (hres : residueOk ((arrOf s p n).bank b) 0 16384 = true)
    (hjoin : emitJoin w = false) (hdk : emitDk w = true) (hcb : isCb (emitFmt w) = false) (herrs : s.mem.errs = []) :
    Does (.emit p n Flt.none) s (OtherBytes s ·
      (storeBase p n + effSlot (arrOf s p n) (emitBsel w) (emitDst w) * 256) (emitBytes (arrOf s p n) b w).1.length) := by
  obtain ⟨hp, hn, -⟩ := id h
  obtain ⟨htiles, hout⟩ := h.quiet
  refine does_run rfl (by simp [Instr.wf, hp, hn]) fun c hc => ?_
  have harr : (arr p n : M s Arr) ⟨s, .refl⟩ = (arrOf s p n, ⟨s, .refl⟩) := arr_run p n _
  have hodd : (arr p (n + 1) : M s Arr) ⟨s, .refl⟩ = (arrOf s p (n + 1), ⟨s, .refl⟩) := arr_run p (n + 1) _
  have hshadow : ¬ ((0 : Nat) = 3) := by decide
  have hsplit : decide (emitFmt w = F.LANE ∧ (0 : Nat) = 1) = false := by simp
  rw [M.bind_run]
  refine arrWork_rest (x := ⟨s, .refl⟩) ?_ htiles hout
  rw [arrTurn_run _ _ h hopc, M.bind_run]
  simp only [harr, hlast, hst, hout, hjoin, emitFail_none hpm hres hcb, hpm, hdk, Flt.none, outFlip, List.foldl_nil, ne_eq, not_true_eq_false, or_self, if_false,
    Bool.false_eq_true, hshadow, false_and, if_true, hsplit]
  rw [M.bind_run, hodd]
  exact emitRest_rest ⟨s, .refl⟩ herrs hc

/-! Host operations. -/

/-- A host operation that may start is carried out. -/
theorem withOp_run {opid opc : Nat} {y : Op} (x : Trace o) (hop : opOf x.1 opid = some y) (hopc : y.opc = opc) (hmay : mayStart x.1 y = true)
    (f : Op → M o Unit) : withOp opid (isOpc opc) f x = f y (upOp opid (fun z => { z with st := .started }) x).2 := by
  have hgo : (isOpc opc y && mayStart x.1 y) = true := by rw [hmay, isOpc, hopc, BEq.rfl, Bool.and_self]
  rw [withOp, M.bind_run, startOp, st_bind, hop]
  dsimp only
  rw [if_pos hgo, M.bind_run]
  rfl

theorem upOp_state (opid : Nat) (f : Op → Op) (x : Trace o) : ∃ h : HostIf → HostIf, (upOp opid f x).2.1 = apply (.host h) x.1 := by
  exact ⟨fun h => { h with ops := h.ops.map fun y => if y.opid = opid then f y else y }, by rw [upOp, eff_run]⟩

theorem copy_others {opid : Nat} {y : Op} {b : List Byte} (hop : opOf s opid = some y) (hopc : y.opc = OPC.COPY) (hmay : mayStart s y = true)
    (hsrc : y.f 3 32 1 = 0) (hdst : y.f 3 33 1 = 1) (hvault : y.f 2 0 64 < vaultBase) (herrs : s.mem.errs = [])
    (hlen : b.length = y.f 3 0 32) : Does (.copy opid (.data b) Flt.none) s (OtherBytes s · (y.f 2 0 64) b.length) := by
  refine does_run rfl (by simp [Instr.wf]) fun c hc => ?_
  have htake : padTo (y.f 3 0 32) (b.take (y.f 3 0 32)) = b := by rw [← hlen, List.take_length, padTo, Nat.sub_self, zeros, List.replicate_zero, List.append_nil]
  have hbelow : ¬ vaultBase ≤ y.f 2 0 64 := Nat.not_le_of_lt hvault
  have hnohost : ¬ ((0 : Nat) = 1) := by decide
  rw [withOp_run ⟨s, .refl⟩ hop hopc hmay]
  obtain ⟨h, hstate⟩ := upOp_state opid (fun z => { z with st := .started }) (⟨s, .refl⟩ : Trace s)
  generalize (upOp opid (fun z => { z with st := .started }) (⟨s, .refl⟩ : Trace s)).2 = x at hstate ⊢
  have hmem : x.1.mem.errs = [] := by rw [hstate]; simpa only [apply_host] using herrs
  have hbyte : byteAt x.1 c = byteAt s c := byteAt_of_bytes (by rw [hstate]; simp only [apply_host]) c
  simp only [Flt.none, applyUps, hdst, hsrc, hbelow, and_false, if_false, hnohost, if_true, M.bind_run, M.pure_run, htake]
  refine Eq.trans ?_ ((writeMem_others x (rdr := RC.host) (unit := 0) hmem hc).trans hbyte)
  obtain ⟨r, z⟩ := writeMem RC.host 0 (y.f 2 0 64) b x
  cases r with
  | error e => exact keepsByte (failOp_in ..) rfl _ _ rfl
  | ok v => exact keepsByte (doneOp_in ..) rfl _ _ rfl

theorem wearTake_keepsByte (bytes : Nat) (spill : Bool) : KeepsObs (byteAt · c) (wearTake bytes spill : M o Bool) := keepsByte (wearTake_in ..) rfl

/-- A page write is a write of its bytes. -/
theorem pageWrite_others (x : Trace o) {a : Nat} {bs : List Byte} (hc : c < a ∨ a + bs.length ≤ c) :
    byteAt (pageWrite a bs x).2.1 c = byteAt x.1 c := by
  rw [pageWrite, M.bind_run, eff_run, eff_run]
  exact (byteAt_of_bytes (by simp only [apply_mem]) c).trans (byteAt_write_out hc _)

theorem loadImage_others {opid : Nat} {y : Op} {b : List Byte} {i : Install} (hop : opOf s opid = some y) (hopc : y.opc = OPC.LOAD)
    (hmay : mayStart s y = true) (hfirst : y.first = false) (hheld : s.vlt.held = false) (hinst : s.vlt.inst = some i)
    (hlen : b.length = y.f 3 0 32) :
    Does (.loadImage opid (.data b)) s (OtherBytes s · (slotBase (1 - s.nv.super.active) + y.f 2 0 64) b.length) := by
  refine does_run rfl rfl fun c hc => ?_
  have htake : padTo (y.f 3 0 32) (b.take (y.f 3 0 32)) = b := by rw [← hlen, List.take_length, padTo, Nat.sub_self, zeros, List.replicate_zero, List.append_nil]
  rw [st_bind, hheld, if_neg Bool.false_ne_true, withOp_run ⟨s, .refl⟩ hop hopc hmay, hfirst]
  obtain ⟨h, hstate⟩ := upOp_state opid (fun z => { z with st := .started }) (⟨s, .refl⟩ : Trace s)
  generalize (upOp opid (fun z => { z with st := .started }) (⟨s, .refl⟩ : Trace s)).2 = x at hstate ⊢
  have hbyte : byteAt x.1 c = byteAt s c := byteAt_of_bytes (by rw [hstate]; simp only [apply_host]) c
  have hvlt : x.1.vlt.inst = some i := by rw [hstate]; simpa only [apply_host] using hinst
  have hactive : x.1.nv.super.active = s.nv.super.active := by rw [hstate]; simp only [apply_host]
  rw [M.bind_run, when_run, if_neg Bool.false_ne_true, st_bind]
  simp only [hvlt, htake, hactive]
  refine (?_ : Keeps (fun t => byteAt t c = byteAt s c) _) x hbyte
  split
  · exact keepsByte (failOp_in ..) rfl _
  · refine .bind (wearTake_keepsByte _ _ _) fun ok => ?_
    split
    · exact .bind (setF_keepsByte _ _) fun _ => keepsByte (failOp_in ..) rfl _
    · refine .bind (fun z hz => (pageWrite_others z hc).trans hz) fun _ => .bind (KeepsObs.eff (fun _ => rfl) _) fun _ =>
        .bind (keepsByte (upOp_in ..) rfl _) fun _ => ?_
      split
      · exact .pure ()
      · exact keepsByte (lockOp_in ..) rfl _

/-! Recorder pages. -/

/-- The byte `c` as before, and the page alone in staging, or none. -/
def PageKept (q : Page) (c : Nat) (b : Byte) (s : State) : Prop := byteAt s c = b ∧ (s.rcd.stage = [q] ∨ s.rcd.stage = [])

theorem pageKept_via {q : Page} {b : Byte} {N : Nat} {α : Type} {m : M o α} (h : Within N m) (hbytes : N &&& 0x200000006 = 0)
    (hrcd : ∀ {s t}, Via N s t → t.rcd = s.rcd) : Keeps (PageKept q c b) m :=
  .within h fun hvia hq => ⟨(byteAt_of_bytes (hvia.bytes hbytes) c).trans hq.1, by rw [hrcd hvia]; exact hq.2⟩

theorem Keeps.loop {P : State → Prop} {f : M o Bool} (hf : Keeps P f) : ∀ n, Keeps P (loop n f)
  | 0 => .pure ()
  | n + 1 => .bind hf fun go => by
    split
    · exact Keeps.loop hf n
    · exact .pure ()

theorem pageImage_length {b : List Byte} (h : b.length ≤ 4096) : (pageImage b).length = 4096 := by
  rw [pageImage, List.length_append, List.length_replicate]
  omega

theorem writePage_keeps {q : Page} {b : Byte} (hlen : q.bytes.length ≤ 4096) (hc : c < evtBase + 4096 * q.idx ∨ evtBase + 4096 * q.idx + 4096 ≤ c) :
    Keeps (PageKept q c b) (writePage : M o Bool) := by
  intro x hx
  rw [writePage, st_bind]
  rcases hx.2 with hone | hnone
  · rw [hone]
    refine (?_ : Keeps (PageKept q c b) _) x hx
    dsimp only
    split
    · exact .pure _
    split
    · exact .pure _
    refine .bind (pageKept_via (wearTake_in ..) rfl fun h => h.rcd rfl) fun ok => ?_
    split
    · exact .bind (pageKept_via (incSat_in .MEM_VLT_STAT rfl (n := foot [.kind .MEM_VLT_STAT]) rfl) rfl fun h => h.rcd rfl) fun _ => .pure _
    · refine .bind (fun z hz => ⟨(pageWrite_others z (by rwa [pageImage_length hlen])).trans hz.1, ?_⟩) fun _ =>
        .bind (pageKept_via (N := foot [.super]) (eff_in .super rfl rfl) rfl fun h => h.rcd rfl) fun _ => .bind (fun z hz => ⟨hz.1, .inr rfl⟩) fun _ => .pure _
      rw [((pageWrite_in _ _).via z).rcd rfl]
      exact hz.2
  · rw [hnone]
    exact hx

theorem recorderPageWrite_others {q : Page} (hstage : s.rcd.stage = [q]) (hclosed : q.closed = true) (hlen : q.bytes.length ≤ 4096) :
    Does .recorderPageWrite s (OtherBytes s · (evtBase + 4096 * q.idx) 4096) := by
  refine does_run rfl rfl fun c hc => ?_
  have hadv (t : Nat) : Keeps (PageKept q c (byteAt s c)) (advTo t : M s Unit) := pageKept_via (advTo_in t) rfl fun h => h.rcd rfl
  have hpages : Keeps (PageKept q c (byteAt s c)) (loop 256 (do
      match (← st).rcd.stage with
      | [] => return false
      | q :: _ => if q.closed then writePage else return false) : M s Unit) := by
    refine .loop (.bind (m := st) (fun _ h => h) fun t => ?_) _
    split
    · exact .pure _
    split
    · exact writePage_keeps hlen hc
    · exact .pure _
  have hlast : s.rcd.stage.getLast? = some q := by rw [hstage, List.getLast?_singleton]
  rw [pagesDue, st_bind, hlast]
  refine ((?_ : Keeps (PageKept q c (byteAt s c)) _) ⟨s, .refl⟩ ⟨rfl, .inl hstage⟩).1
  simp only [hclosed, Bool.not_true, Bool.false_and, Bool.false_eq_true, if_false]
  refine .bind (.pure ()) fun _ => .bind (m := st) (fun _ h => h) fun t => .bind (.when (hadv _)) fun _ => .bind hpages fun _ =>
    .bind (pageKept_via (mark_in _) rfl fun h => h.rcd rfl) fun _ => .bind (m := st) (fun _ h => h) fun t => ?_
  exact pageKept_via (N := foot [.seen]) (eff_in .seen rfl rfl) rfl fun h => h.rcd rfl

/-- Settles O20: each command writes memory through one write of its own bytes, and nothing else that it does holds a write. -/
theorem storesTouchOnlyTheirBytes : Obligations.StoresTouchOnlyTheirBytes := by
  unfold Obligations.StoresTouchOnlyTheirBytes
  refine ⟨?_, ?_, ?_, ?_, ?_, ?_, ?_, ?_⟩
  · intro s p g x a len m off h hx ha hlen herrs hm
    refine (store_does h hx ha hlen herrs hm).mono ?_
    rintro t rfl
    exact storedAt_others (leBytes_length _ _)
  · intro s p g x a m off h hx ha herrs hm
    refine (vstore_does h hx ha herrs hm).mono ?_
    rintro t rfl
    exact storedAt_others (leBytes_length _ _)
  · intro s off a b ide ha hide herrs hchan
    exact bar4Write_others ha hide herrs hchan
  · intro s p n x b h hopc hlast hst hpm hres hjoin hdk hcb herrs
    exact emit_others h hopc hlast hst hpm hres hjoin hdk hcb herrs
  · intro s p n x h hopc hcredit herrs
    exact postq_others h hopc hcredit herrs
  · intro s opid x b hop hopc hmay hsrc hdst hvault herrs hchan hlen
    exact copy_others hop hopc hmay hsrc hdst hvault herrs hlen
  · intro s opid x b i hop hopc hmay hfirst hlast hheld hinst hlen hunits hwear
    exact loadImage_others hop hopc hmay hfirst hheld hinst hlen
  · intro s q hstage hclosed hdone hlen hidx hwear hheld
    exact recorderPageWrite_others hstage hclosed hlen

end Sys2Proof.Machine
end

section
/-!
PROOFS. The 48 V input (R258 to R262, R306, R314 to R319): what a loss of power and a switch-off leave, and what each supply command does.
-/

set_option Elab.async false

namespace Sys2Proof.Machine

variable {o s : State}

/-! Power is lost. -/

theorem losePower_reads (x : Trace o) : (losePower x).2.1.hs = { x.1.hs with rails := [] } ∧ (losePower x).2.1.nv.latch = x.1.nv.latch ∧
    (losePower x).2.1.ctl.mode = .off ∧ (losePower x).2.1.regs = [] ∧ (losePower x).2.1.clk.mono = x.1.clk.mono := by
  have hheld := (within_when (c := !x.1.hs.rails.isEmpty) (holdUp_in (o := o))).via x
  rw [losePower, st_bind, M.bind_run, M.bind_run, M.bind_run]
  simp only [eff_run, apply_hs, apply_ctl, apply_por]
  exact ⟨by rw [hheld.hs rfl], hheld.latch rfl, trivial, trivial, hheld.clkMono rfl⟩

/-- The latch written, the input goes off. -/
theorem switchedOff_reads {y : Trace o} {latched : Bool} {t : State} (ht : t = (mark K.hsOff (eff (.hs fun h => { h with
      on := false, latched := h.latched || latched, porSeen := false }) (losePower y).2).2).2.1) :
    t.hs = { y.1.hs with rails := [], on := false, latched := y.1.hs.latched || latched, porSeen := false } ∧ t.ctl.mode = .off ∧
      t.clk.mono = y.1.clk.mono ∧ t.nv.latch = y.1.nv.latch := by
  obtain ⟨hhs, hlatch, hmode, -, hmono⟩ := losePower_reads y
  rw [mark_run, eff_run] at ht
  subst ht
  simp only [apply_hs, apply_seen, hhs, hlatch, hmode, hmono, and_self]

/-- The input is switched off for `cause`. -/
theorem switchOff_reads (x : Trace o) (cause detail : Nat) (latched : Bool) (hon : x.1.hs.on = true) :
    (switchOff cause detail latched x).2.1.hs =
      { x.1.hs with rails := [], on := false, latched := x.1.hs.latched || latched, porSeen := false } ∧
    (switchOff cause detail latched x).2.1.ctl.mode = .off ∧ (switchOff cause detail latched x).2.1.clk.mono = x.1.clk.mono ∧
    (switchOff cause detail latched x).2.1.nv.latch.cause = cause ∧
    (cause ≠ 1 ∨ x.1.hs.porSeen = false → (switchOff cause detail latched x).2.1.nv.latch.detail = detail % 256) := by
  rw [switchOff, st_bind, if_pos hon, M.bind_run, M.bind_run, M.bind_run]
  split
  next hpor =>
    obtain ⟨hcause, hseen, hlatch⟩ := hpor
    obtain ⟨hhs, hmode, hmono, hnoted⟩ := switchedOff_reads (y := (eff (.latch fun l => { l with detail := 0 }) x).2) (latched := latched) rfl
    refine ⟨hhs, hmode, hmono, ?_, fun hfirst => ?_⟩
    · rw [hnoted, hcause]
      exact hlatch
    · simp [hcause, hseen] at hfirst
  next =>
    obtain ⟨hhs, hmode, hmono, hnoted⟩ := switchedOff_reads (y := (latchWrite cause detail x).2) (latched := latched) rfl
    exact ⟨hhs, hmode, hmono, by rw [hnoted]; rfl, fun _ => by rw [hnoted]; rfl⟩

theorem powerOnReset_does (hon : s.hs.on = true) : Does .powerOnReset s fun t => t.nv.latch.cause = 1 ∧ t.nv.latch.detail = 1 ∧
    t.ctl.mode = .off ∧ t.hs.rails = [] ∧ t.regs = [] := by
  refine does_run rfl rfl ?_
  rw [st_bind, if_pos hon, M.bind_run, M.bind_run]
  obtain ⟨hhs, hnv, hmode, hregs, -⟩ := losePower_reads (latchWrite 1 1 (⟨s, .refl⟩ : Trace s)).2
  simp only [eff_run, apply_hs, hhs, hnv, hmode, hregs]
  simp [latchWrite, eff_run]

theorem mate_does (s : State) : Does .mate s fun t => t.hs = { s.hs with mated := true } ∧ tget 0 t.clk.seen K.mate = s.clk.mono := by
  refine does_run rfl rfl ?_
  rw [M.bind_run, eff_run, mark_run]
  simp only [apply_seen, apply_hs, tget_tset_self, and_self]

theorem unmate_does (hon : s.hs.on = true) : Does .unmate s fun t => t.nv.latch.cause = 2 ∧ t.ctl.mode = .off ∧ t.hs.on = false ∧
    t.hs.mated = false ∧ t.hs.latched = false ∧ t.hs.rails = [] := by
  refine does_run rfl rfl ?_
  obtain ⟨hhs, hmode, -, hcause, -⟩ := switchOff_reads (⟨s, .refl⟩ : Trace s) 2 0 false hon
  rw [M.bind_run, eff_run]
  simp only [apply_hs, hhs, hmode, hcause, and_self]

theorem hotSwapOn_does {vin : Nat} (hmated : s.hs.mated = true) (hepo : s.hs.epo = false) (hlatched : s.hs.latched = false)
    (hoff : s.hs.on = false) (hvin : 420 ≤ vin) (hover : s.nv.latch.cause = 6 → vin < 600) :
    Does (.hotSwapOn vin) s fun t => t.hs = { s.hs with on := true } ∧ tget 0 s.clk.seen K.mate + 10000000 ≤ t.clk.mono ∧
      (s.nv.latch.cause = 1 → tget 0 s.clk.seen K.hsOff + 10000000 ≤ t.clk.mono) ∧
      (s.nv.latch.cause = 6 → tget 0 s.clk.seen K.hsOff + 100000000 ≤ t.clk.mono) ∧
      (s.nv.latch.cause = 7 → tget 0 s.clk.seen K.hsOff + 1000000000 ≤ t.clk.mono) ∧
      (tget 0 s.clk.seen K.epo ≠ 0 → tget 0 s.clk.seen K.epo + 1000000000 ≤ t.clk.mono) := by
  refine does_run rfl rfl ?_
  have hgo : (s.hs.mated && !s.hs.epo && !s.hs.latched && !s.hs.on && decide (420 ≤ vin) &&
      (s.nv.latch.cause != 6 || decide (vin < 600))) = true := by
    by_cases h : s.nv.latch.cause = 6 <;> simp [hmated, hepo, hlatched, hoff, hvin, h, hover]
  rw [st_bind]
  simp only [hgo, if_true]
  rw [M.bind_run, M.bind_run, advTo_run, eff_run, mark_run]
  simp only [apply_seen, apply_hs, apply_pass]
  refine ⟨trivial, ?_, ?_, ?_, ?_, ?_⟩
  · omega
  · intro h
    rw [if_pos h]
    omega
  · intro h
    rw [if_neg (show ¬ s.nv.latch.cause = 1 by omega), if_pos h]
    omega
  · intro h
    rw [if_neg (show ¬ s.nv.latch.cause = 1 by omega), if_neg (show ¬ s.nv.latch.cause = 6 by omega), if_pos h]
    omega
  · intro h
    rw [if_neg h]
    omega

theorem inputGood_does {vin : Nat} (hon : s.hs.on = true) (hrails : s.hs.rails = []) (hvin : 400 ≤ vin) :
    Does (.inputGood vin) s fun t => t.hs = { s.hs with rails := [0], tries := 0 } ∧ t.ctl = { s.ctl with mode := .start } ∧
      t.nv.super.pcc = (s.nv.super.pcc + 1) % 2 ^ 24 := by
  refine does_run rfl rfl ?_
  have hgo : (s.hs.on && s.hs.rails.isEmpty && decide (400 ≤ vin)) = true := by simp [hon, hrails, hvin]
  rw [st_bind, if_pos hgo, M.bind_run, M.bind_run, eff_run, eff_run, setMode, eff_run]
  simp only [apply_ctl, apply_super, apply_hs, and_self]

theorem undervoltageOff_does (hon : s.hs.on = true) (hpor : s.hs.porSeen = false) : Does .undervoltageOff s fun t =>
    t.nv.latch.cause = 1 ∧ t.nv.latch.detail = 0 ∧ t.hs.on = false ∧ t.ctl.mode = .off := by
  refine does_run rfl rfl ?_
  obtain ⟨hhs, hmode, -, hcause, hdetail⟩ := switchOff_reads (⟨s, .refl⟩ : Trace s) 1 0 false hon
  exact ⟨hcause, hdetail (.inr hpor), by rw [hhs], hmode⟩

theorem overvoltageOff_does {highest : Nat} (hon : s.hs.on = true) : Does (.overvoltageOff highest) s fun t =>
    t.nv.latch.cause = 6 ∧ t.nv.latch.detail = min 255 ((highest - 600) / 5) ∧ t.hs.on = false ∧ t.ctl.mode = .off := by
  refine does_run rfl rfl ?_
  obtain ⟨hhs, hmode, -, hcause, hdetail⟩ := switchOff_reads (⟨s, .refl⟩ : Trace s) 6 (min 255 ((highest - 600) / 5)) false hon
  exact ⟨hcause, (hdetail (.inl (by decide))).trans (by omega), by rw [hhs], hmode⟩

theorem overcurrentOff_does {instant : Bool} (hon : s.hs.on = true) : Does (.overcurrentOff instant) s fun t =>
    t.nv.latch.cause = 5 ∧ t.nv.latch.detail = (if instant then 1 else 0) ∧ t.hs.on = false ∧ t.hs.latched = true ∧ t.ctl.mode = .off := by
  refine does_run rfl rfl ?_
  obtain ⟨hhs, hmode, -, hcause, hdetail⟩ := switchOff_reads (⟨s, .refl⟩ : Trace s) 5 (if instant then 1 else 0) true hon
  refine ⟨hcause, (hdetail (.inl (by decide))).trans ?_, by rw [hhs], by rw [hhs, Bool.or_true], hmode⟩
  split <;> rfl

theorem inrushFault_does (hon : s.hs.on = true) (hrails : s.hs.rails = []) : Does .inrushFault s fun t =>
    t.nv.latch.cause = 7 ∧ t.hs.on = false ∧ t.hs.tries = s.hs.tries + 1 ∧ tget 0 s.clk.seen K.hsOn + 50000000 ≤ t.clk.mono ∧
      (s.hs.latched = false → (t.hs.latched = true ↔ 4 ≤ s.hs.tries + 1)) := by
  refine does_run rfl rfl ?_
  have hgo : (s.hs.on && s.hs.rails.isEmpty) = true := by simp [hon, hrails]
  rw [st_bind, if_pos hgo, M.bind_run, M.bind_run]
  obtain ⟨hhs, -, hmono, hcause, -⟩ := switchOff_reads
    (eff (.hs fun h => { h with tries := h.tries + 1 }) (advTo (tget 0 s.clk.seen K.hsOn + 50000000) (⟨s, .refl⟩ : Trace s)).2).2
    7 (s.hs.tries + 1) (decide (4 ≤ s.hs.tries + 1)) (by simp only [eff_run, apply_hs, advTo_run, apply_pass, hon])
  refine ⟨hcause, by rw [hhs], ?_, ?_, fun hlatched => ?_⟩
  · rw [hhs, eff_run, advTo_run]
    simp only [apply_hs, apply_pass]
  · rw [hmono, eff_run, advTo_run]
    simp only [apply_hs, mono_until]
    omega
  · rw [hhs, eff_run, advTo_run]
    simp [apply_hs, apply_pass, hlatched]

theorem epo_does (hon : s.hs.on = true) : Does .epo s fun t =>
    t.nv.latch.cause = 3 ∧ t.hs.on = false ∧ t.hs.epo = true ∧ t.ctl.mode = .off := by
  refine does_run rfl rfl ?_
  obtain ⟨hhs, hmode, -, hcause, -⟩ := switchOff_reads (⟨s, .refl⟩ : Trace s) 3 0 false hon
  rw [M.bind_run, eff_run]
  simp only [apply_hs, hhs, hmode, hcause, and_self]

theorem epoRelease_does (hepo : s.hs.epo = true) : Does .epoRelease s fun t =>
    t.hs = { s.hs with epo := false } ∧ tget 0 t.clk.seen K.epo = s.clk.mono := by
  refine does_run rfl rfl ?_
  rw [st_bind, if_pos hepo, M.bind_run, eff_run, mark_run]
  simp only [apply_seen, apply_hs, tget_tset_self, and_self]

theorem latchClear_does (hoff : s.hs.on = false) : Does .latchClear s fun t =>
    t.hs = { s.hs with latched := false, tries := 0 } ∧ tget 0 s.clk.seen K.hsOff + 100000000 ≤ t.clk.mono ∧
      tget 0 t.clk.seen K.mate = t.clk.mono := by
  refine does_run rfl rfl ?_
  rw [st_bind, if_neg (by rw [hoff]; decide), M.bind_run, M.bind_run, advTo_run, eff_run, mark_run]
  simp only [apply_seen, apply_hs, apply_pass, tget_tset_self, true_and, and_true]
  omega

theorem vinHigh_does {vin : Nat} (hrails : s.hs.rails ≠ []) (hvin : 600 < vin) (hlow : s.rd R.PWR_STAT.VIN_HIGH = 0) :
    Does (.vinHigh vin) s fun t => t.rd R.PWR_STAT.VIN_HIGH = 1 := by
  refine does_run rfl rfl ?_
  have hgo : (!s.hs.rails.isEmpty && decide (600 < vin) && s.rd R.PWR_STAT.VIN_HIGH == 0) = true := by simp [hrails, hvin, hlow]
  rw [st_bind, if_pos hgo, M.bind_run, ((ev_in E.VIN_HIGH SK.hw 0 [I.VALUE vin]).via _).rdKind .PWR_STAT rfl rfl rfl, setF_run]
  exact rd_reg_same _ _ _ (by decide)

/-! HOLD. -/

/-- A forced drop shows operating point 7 and leaves the other fields of its register. -/
theorem forceDrop_reads (x : Trace o) : (forceDrop x).2.1.rd R.PWR_STAT.OP_NOW = 7 ∧
    (forceDrop x).2.1.rd R.PWR_STAT.HOLD_BROWN = x.1.rd R.PWR_STAT.HOLD_BROWN := by
  have htop := topPoint_lt x.1.nv.fuses.variant
  rw [forceDrop, st_bind, M.bind_run, M.bind_run, wr_run, wr_run, eff_run]
  constructor
  · simp (disch := decide) only [apply_pw, rd_op_now_other, rd_op_now]
    simp only [apply_reg]
    omega
  · simp (disch := decide) only [apply_pw, rd_reg_apart]

/-- A module that serves enters HOLD for a brownout. -/
theorem enterHold_brown (x : Trace o) (hserves : x.1.ctl.mode = .run ∨ x.1.ctl.mode = .ready ∨ x.1.ctl.mode = .drain) :
    (enterHold R.PWR_STAT.HOLD_BROWN x).2.1.ctl = { x.1.ctl with mode := .hold, ret := x.1.ctl.mode } ∧
    (enterHold R.PWR_STAT.HOLD_BROWN x).2.1.rd R.PWR_STAT.HOLD_BROWN = 1 ∧ (enterHold R.PWR_STAT.HOLD_BROWN x).2.1.rd R.PWR_STAT.OP_NOW = 7 := by
  have hin : (enterHold R.PWR_STAT.HOLD_BROWN x).2 = (forceDrop (setF R.PWR_STAT.HOLD_BROWN (mark K.holdAt
      (eff (.ctl fun c => { c with mode := .hold, ret := x.1.ctl.mode }) x).2).2).2).2 := by
    simp only [enterHold, mode, M.bind_run, M.pure_run, st_run, if_pos hserves]
  rw [hin]
  obtain ⟨hop, hflag⟩ := forceDrop_reads (setF R.PWR_STAT.HOLD_BROWN (mark K.holdAt
      (eff (.ctl fun c => { c with mode := .hold, ret := x.1.ctl.mode }) x).2).2).2
  refine ⟨?_, hflag.trans (rd_reg_same _ _ _ (by decide)), hop⟩
  rw [(forceDrop_in.via _).ctl rfl, setF_run, mark_run, eff_run]
  simp only [apply_reg, apply_seen, apply_ctl]

/-- After the commit of a serving module nothing of the vault is pending. -/
theorem commitServing_pend (x : Trace o) : (commitServing x).2.1.vlt.pend = 0 := by
  rw [commitServing, st_bind, M.bind_run, ((within_when qsRefresh_in).via _).vlt rfl, commitJournal]
  simp only [M.bind_run, eff_run, mark_run, apply_seen, apply_vlt]

theorem brownout_does {vin : Nat} (hserves : s.ctl.mode = .run ∨ s.ctl.mode = .ready ∨ s.ctl.mode = .drain)
    (hfirst : s.rd R.PWR_STAT.HOLD_BROWN = 0) : Does (.brownout vin) s fun t => t.ctl.mode = .hold ∧ t.ctl.ret = s.ctl.mode ∧
      t.rd R.PWR_STAT.HOLD_BROWN = 1 ∧ t.rd R.PWR_STAT.OP_NOW = 7 ∧ t.hs.brownAt = s.clk.mono ∧ t.hs.vinMin = vin ∧ t.vlt.pend = 0 := by
  refine does_run rfl rfl ?_
  rw [st_bind, if_pos (by tauto), M.bind_run]
  simp only [hfirst, if_true, decide_true, when_on, M.bind_run]
  set y : Trace s := (eff (.hs fun h => { h with holdCount := false, brownAt := s.clk.mono, vinMin := vin }) (⟨s, .refl⟩ : Trace s)).2
  obtain ⟨hctl, hflag, hop⟩ := enterHold_brown y hserves
  have hcommit := (commitServing_in (o := s)).via (enterHold R.PWR_STAT.HOLD_BROWN y).2
  have hkept (f : Fld) (hf : f.k = .PWR_STAT) := hcommit.rdKind .PWR_STAT hf rfl rfl
  have hhs : (enterHold R.PWR_STAT.HOLD_BROWN y).2.1.hs = y.1.hs := ((enterHold_in (fp := FP.enterHold) .PWR_STAT rfl rfl rfl).via y).hs rfl
  rw [eff_run]
  simp only [apply_vlt, hcommit.ctl rfl, hcommit.hs rfl, hkept R.PWR_STAT.HOLD_BROWN rfl, hkept R.PWR_STAT.OP_NOW rfl, hctl, hflag, hop,
    hhs, commitServing_pend]
  simp only [y, eff_run, apply_hs, and_self]

theorem inputRecover_does {vin : Nat} (hheld : s.rd R.PWR_STAT.HOLD_BROWN = 1) : Does (.inputRecover vin) s fun t =>
    t.hs.holdCount = decide (400 ≤ vin) ∧ t.hs.vinMin = min vin s.hs.vinMin ∧
      tget 0 t.clk.seen K.brown = if 400 ≤ vin ∧ s.hs.holdCount = false then s.clk.mono else tget 0 s.clk.seen K.brown := by
  refine does_run rfl rfl ?_
  rw [st_bind, if_pos hheld, M.bind_run, when_run, eff_run]
  by_cases hcount : 400 ≤ vin ∧ s.hs.holdCount = false
  · rw [if_pos (by simp [hcount]), if_pos hcount, mark_run]
    simp only [apply_seen, apply_hs, tget_tset_self, and_self]
  · rw [if_neg (by simpa using hcount), if_neg hcount]
    simp only [apply_hs, and_self]

theorem drainDone_elsewhere {x : Trace o} (h : x.1.ctl.mode ≠ .drain) : drainDone x = ((), x) := by
  rw [drainDone, st_bind, if_neg fun hdrain => h hdrain.1, M.pure_run]

/-- With neither hold flag set the module leaves HOLD to the mode that it came from. -/
theorem leaveHold_mode (x : Trace o) (hhold : x.1.ctl.mode = .hold) (hbrown : x.1.rd R.PWR_STAT.HOLD_BROWN = 0)
    (hoper : x.1.rd R.PWR_STAT.HOLD_OPER = 0) (hret : x.1.ctl.ret ≠ .drain) : (leaveHold x).2.1.ctl.mode = x.1.ctl.ret := by
  have hphases (f : Nat → Phase → Phase) : Within FP.upCtx (each (running x.1) fun c => upPhase c (f c) : M o Unit) :=
    within_each fun c => upPhase_in c (f c)
  have hback : (each (running x.1) (fun c => upPhase c fun y => { y with held := y.held + (x.1.clk.mono - max y.admitAt
      (tget 0 x.1.clk.seen K.holdAt)) }) (setMode x.1.ctl.ret x).2).2.1.ctl.mode = x.1.ctl.ret := by
    rw [((hphases _).via _).ctl rfl, setMode, eff_run]
    simp only [apply_ctl]
  rw [leaveHold, st_bind, if_pos ⟨hhold, hbrown, hoper⟩, M.bind_run, (forcedOff_in.via _).ctl rfl, M.bind_run, M.bind_run,
    drainDone_elsewhere (by rw [hback]; exact hret), hback]

/-- A brownout's end once its flag is clear: plan blocks are stored, the count stops and the event is recorded. -/
theorem brownoutTold_reads (w : Trace o) (items : List Nat) {t : State} (ht : t = (ev E.BROWNOUT SK.hw 0 items
      (eff (.hs fun h => { h with holdCount := false }) (qsResume w).2).2).2.1) :
    t.ctl = w.1.ctl ∧ t.hs = { w.1.hs with holdCount := false } ∧ t.clk.mono = w.1.clk.mono ∧ ∀ f : Fld, f.k = .PWR_STAT → t.rd f = w.1.rd f := by
  have hresume : Via FP.qsCheckData w.1 (qsResume w).2.1 := qsResume_in.via w
  have hev := (ev_in E.BROWNOUT SK.hw 0 items).via (eff (.hs fun h => { h with holdCount := false }) (qsResume w).2).2
  subst ht
  refine ⟨(hev.ctl rfl).trans ?_, (hev.hs rfl).trans ?_, (hev.clkMono rfl).trans ?_, fun f hf => (hev.rdKind .PWR_STAT hf rfl rfl).trans ?_⟩
  · simp only [eff_run, apply_hs, hresume.ctl rfl]
  · simp only [eff_run, apply_hs, hresume.hs rfl]
  · simp only [eff_run, apply_hs, hresume.clkMono rfl]
  · simp only [eff_run, apply_hs, hresume.rdKind .PWR_STAT hf rfl rfl]

theorem brownoutEnd_does (hheld : s.rd R.PWR_STAT.HOLD_BROWN = 1) (hcount : s.hs.holdCount = true) (hhold : s.ctl.mode = .hold)
    (hoper : s.rd R.PWR_STAT.HOLD_OPER = 0) (hret : s.ctl.ret ≠ .drain) : Does .brownoutEnd s fun t =>
      t.rd R.PWR_STAT.HOLD_BROWN = 0 ∧ t.hs.holdCount = false ∧ tget 0 s.clk.seen K.brown + 100000 ≤ t.clk.mono ∧ t.ctl.mode = s.ctl.ret := by
  refine does_run rfl rfl ?_
  rw [st_bind, if_pos ⟨hheld, hcount⟩, M.bind_run, M.bind_run, M.bind_run, M.bind_run, M.bind_run, M.bind_run, now_run, M.bind_run]
  generalize hz : (ev E.BROWNOUT SK.hw 0 _ _).2 = z
  obtain ⟨hctl, hhs, hmono, hpwr⟩ := brownoutTold_reads _ _ (congrArg Subtype.val hz).symm
  simp only [eff_run, wr_run, advTo_run, apply_vlt, apply_reg, apply_pass] at hctl hhs
  simp only [eff_run, wr_run, advTo_run, apply_vlt, apply_reg, mono_until] at hmono
  have hbrown : z.1.rd R.PWR_STAT.HOLD_BROWN = 0 := by
    rw [hpwr _ rfl, eff_run, rd_vlt, wr_run]
    exact rd_reg_same _ _ _ (by decide)
  have hoper' : z.1.rd R.PWR_STAT.HOLD_OPER = 0 := by
    rw [hpwr _ rfl, eff_run, rd_vlt, wr_run]
    exact (rd_reg_apart _ _ _ (by decide) (by decide)).trans hoper
  have hleave : Via FP.leaveHold z.1 (leaveHold z).2.1 := leaveHold_in.via z
  refine ⟨?_, ?_, ?_, ?_⟩
  · rw [hleave.rdKind .PWR_STAT rfl rfl rfl, hbrown]
  · rw [hleave.hs rfl, hhs]
  · rw [hleave.clkMono rfl, hmono]
    omega
  · rw [leaveHold_mode z (by rw [hctl, hhold]) hbrown hoper' (by rwa [hctl]), hctl]

/-- Settles O30: each command's run, read off; a loss of power and a switch-off by their own lemmas, the hold by what enters and leaves it. -/
theorem inputSupplyCommandsComplete : Obligations.InputSupplyCommandsComplete :=
  ⟨fun _ hon => powerOnReset_does hon, mate_does, fun _ hon => unmate_does hon,
    fun _ _ hmated hepo hlatched hoff hvin hover => hotSwapOn_does hmated hepo hlatched hoff hvin hover,
    fun _ _ hon hrails hvin => inputGood_does hon hrails hvin, fun _ hon hpor => undervoltageOff_does hon hpor,
    fun _ _ hon => overvoltageOff_does hon, fun _ _ hon => overcurrentOff_does hon, fun _ hon hrails => inrushFault_does hon hrails,
    fun _ hon => epo_does hon, fun _ hepo => epoRelease_does hepo, fun _ hoff => latchClear_does hoff,
    fun _ _ hrails hvin hlow => vinHigh_does hrails hvin hlow, fun _ _ hserves hfirst => brownout_does hserves hfirst,
    fun _ _ hheld => inputRecover_does hheld,
    fun _ hheld hcount hhold hoper hret => brownoutEnd_does hheld hcount hhold hoper hret⟩

end Sys2Proof.Machine
end

section
/-!
PROOFS. Host rings (R174 to R179, R183), the energy gate (R191 to R194) and the end of a phase (R65, R191).
-/

set_option Elab.async false

namespace Sys2Proof.Machine

variable {o s : State} {n c : Nat} {v : BitVec 32} {ph : Phase}

/-! Doorbells. -/

/-- A doorbell of an enabled ring pair acts. -/
theorem doorbell_run {off : Nat} {m : M o Unit} (x : Trace o) (hide : ideBlocks x.1 = false) (hen : x.1.rd (R.HIF_RING_CFGn.EN n) = 1) :
    doorbell n off v m x = m x := by
  rw [doorbell, st_bind, if_neg (by rw [hide]; decide), if_neg (by rw [hen]; decide)]

theorem upRing_run (n : Nat) (f : Ring → Ring) (x : Trace o) :
    ringOf (upRing n f x).2.1 n = f (ringOf x.1 n) ∧ (upRing n f x).2.1.regs = x.1.regs := by
  rw [upRing, eff_run]
  simp only [ringOf, apply_host, tget_tset_self, and_self]

/-- The first error of a ring pair shows. -/
theorem ringError_reads {code : Nat} (x : Trace o) (hcode : code < 8) (hnone : x.1.rd (R.HIF_RING_STATn.ERR n) = 0) :
    (ringError n code x).2.1.rd (R.HIF_RING_STATn.ERR n) = 1 ∧ (ringError n code x).2.1.rd (R.HIF_RING_STATn.ERR_CODE n) = code ∧
      (ringError n code x).2.1.host = x.1.host := by
  rw [ringError, M.bind_run, rd_run, if_pos (.inl hnone), wrs_run]
  refine ⟨?_, ?_, putAll_keeps (fun _ _ _ => by simp only [apply_reg]) _ _⟩
  · simp (disch := decide) only [putAll, List.foldl, rd_reg_same, rd_reg_apart, Nat.reducePow, Nat.reduceMod]
  · simp (disch := decide) only [putAll, List.foldl, rd_reg_same, Nat.reducePow]
    omega

theorem sqTail_moves (hn : n < 256) (hide : ideBlocks s = false) (hen : s.rd (R.HIF_RING_CFGn.EN n) = 1) (hv : v.toNat < sqSize s n) :
    Does (.sqTail n v) s fun t => ringOf t n = { ringOf s n with tail := v.toNat } ∧ t.regs = s.regs := by
  refine does_run rfl (by simpa [Instr.wf] using hn) ?_
  rw [doorbell_run _ hide hen, st_bind, if_neg (Nat.not_le.mpr hv)]
  exact upRing_run n _ _

theorem sqTail_error (hn : n < 256) (hide : ideBlocks s = false) (hen : s.rd (R.HIF_RING_CFGn.EN n) = 1) (hv : sqSize s n ≤ v.toNat)
    (hnone : s.rd (R.HIF_RING_STATn.ERR n) = 0) :
    Does (.sqTail n v) s fun t => t.rd (R.HIF_RING_STATn.ERR n) = 1 ∧ t.rd (R.HIF_RING_STATn.ERR_CODE n) = 1 ∧ t.host = s.host := by
  refine does_run rfl (by simpa [Instr.wf] using hn) ?_
  rw [doorbell_run _ hide hen, st_bind, if_pos hv]
  exact ringError_reads _ (by decide) hnone

theorem cqHead_moves {k : Nat} (hn : n < 256) (hide : ideBlocks s = false) (hen : s.rd (R.HIF_RING_CFGn.EN n) = 1) (hv : v.toNat < cqSize s n)
    (hk : k = (v.toNat + cqSize s n - (ringOf s n).cqHead) % cqSize s n) (hused : k ≤ (ringOf s n).used) :
    Does (.cqHead n v) s fun t => ringOf t n = { ringOf s n with cqHead := v.toNat, used := (ringOf s n).used - k } ∧ t.regs = s.regs := by
  subst hk
  refine does_run rfl (by simpa [Instr.wf] using hn) ?_
  rw [doorbell_run _ hide hen, st_bind]
  dsimp only
  rw [if_neg (by omega)]
  exact upRing_run n _ _

/-! Descriptors and completion entries. -/

theorem descriptorFetch_error (hnext : nextRing s = some n) (hnone : s.rd (R.HIF_RING_STATn.ERR n) = 0) :
    Does (.descriptorFetch .error) s fun t => t.rd (R.HIF_RING_STATn.ERR n) = 1 ∧ t.rd (R.HIF_RING_STATn.ERR_CODE n) = 2 ∧ t.host = s.host := by
  refine does_run rfl rfl ?_
  rw [st_bind]
  simp only [hnext]
  exact ringError_reads _ (by decide) hnone

/-- Locking an operation keeps every OPID. -/
theorem lockOp_opids (opid status detail unit info0 : Nat) (ready : Bool) (x : Trace o) :
    (lockOp opid status detail unit info0 ready x).2.1.host.ops.map (·.opid) = x.1.host.ops.map (·.opid) := by
  rw [lockOp, upOp, eff_run]
  simp only [apply_host, List.map_map]
  refine List.map_congr_left fun y _ => ?_
  simp only [Function.comp_apply]
  split_ifs <;> rfl

/-- An illegal descriptor that has come last is locked. -/
theorem failOp_last (x : Trace o) {y : Op} {detail : Nat} (hlast : x.1.host.ops.getLast? = some y) (hopen : y.st ≠ .locked) :
    (failOp y.opid S.CHECK_FAIL detail 0 x).2.1.host.ops.getLast?.map (fun z => (z.words, z.st, z.detail)) = some (y.words, .locked, detail) := by
  rw [failOp, lockOp, upOp, eff_run]
  simp only [apply_host, List.getLast?_map, hlast, Option.map_some, if_true, if_neg hopen]

/-- An operation as its descriptor's fetch makes it. -/
def fetchedOp (opid n : Nat) (ws : List (BitVec 64)) : Op := ⟨opid, n, ws, .accepted, 0, 0, 0, 0, 0, 0, 0, false, []⟩

theorem descriptorFetch_takes {b : List Byte} (hnext : nextRing s = some n) :
    Does (.descriptorFetch (.data b)) s fun t =>
      t.host.ops.map (·.opid) = s.host.ops.map (·.opid) ++ [opKeyOf n (ringOf s n).wraps (s.rd (R.HIF_RING_POSn.SQ_HEAD n))] ∧
      t.host.ops.getLast?.map (fun x => (x.words, x.st, x.detail)) =
        some (descWords b, if opLegal s (descWords b) then (.accepted, 0) else (.locked, D.BAD_DESCRIPTOR)) ∧
      t.rd (R.HIF_RING_POSn.SQ_HEAD n) = (if s.rd (R.HIF_RING_POSn.SQ_HEAD n) + 1 = sqSize s n then 0 else s.rd (R.HIF_RING_POSn.SQ_HEAD n) + 1) % 65536 := by
  refine does_run rfl rfl ?_
  rw [st_bind]
  simp only [hnext, M.bind_run]
  generalize hy : (eff (.host fun h => { h with ops := _ }) _ : Unit × Trace s).2 = y
  have hops : y.1.host.ops = s.host.ops ++ [fetchedOp (opKeyOf n (ringOf s n).wraps (s.rd (R.HIF_RING_POSn.SQ_HEAD n))) n (descWords b)] := by
    rw [← hy]
    simp only [eff_run, wr_run, upRing, apply_host, apply_reg, fetchedOp]
  have hhead : y.1.rd (R.HIF_RING_POSn.SQ_HEAD n) =
      (if s.rd (R.HIF_RING_POSn.SQ_HEAD n) + 1 = sqSize s n then 0 else s.rd (R.HIF_RING_POSn.SQ_HEAD n) + 1) % 65536 := by
    rw [← hy]
    simp (disch := decide) only [eff_run, wr_run, upRing, apply_host, rd_reg_elsewhere, rd_reg_same, decide_eq_true_eq, Nat.reducePow]
  cases hlegal : opLegal s (descWords b) with
  | true =>
    rw [Bool.not_true, when_off rfl]
    simp [hops, hhead, fetchedOp]
  | false =>
    rw [Bool.not_false, when_on rfl]
    refine ⟨by rw [failOp, lockOp_opids, hops]; simp [fetchedOp], failOp_last y (by rw [hops, List.getLast?_append]; rfl) (by simp [fetchedOp]), ?_⟩
    rw [((failOp_in ..).via y).rdKind .HIF_RING_POSn rfl rfl rfl, hhead]


/-- An operation that leaves the module is found no more; its ring pair's tables stay. -/
theorem dropOp_reads (y : Op) (x : Trace o) : opOf (dropOp y x).2.1 y.opid = none ∧ (dropOp y x).2.1.host.rings = x.1.host.rings ∧
    ∀ lo w, (dropOp y x).2.1.rd ⟨.HIF_RING_POSn, [y.ring], lo, w⟩ = x.1.rd ⟨.HIF_RING_POSn, [y.ring], lo, w⟩ := by
  rw [dropOp, M.bind_run, M.bind_run, rd_run, M.bind_run, wr_run, refreshActive, st_bind, wrB_run, eff_run]
  refine ⟨?_, ?_, fun lo w => ?_⟩
  · simp only [opOf, apply_reg, apply_host, List.find?_eq_none, List.mem_filter]
    intro z hz
    simpa using hz.2
  · simp only [apply_reg, apply_host]
  · simp (disch := decide) only [rd_reg_elsewhere, apply_host]

theorem ringOf_of_host {t : State} (h : t.host = s.host) : ringOf t n = ringOf s n := by rw [ringOf, ringOf, h]

/-- A ring pair's message signals what it covers. -/
theorem ringMessage_reads (n : Nat) (x : Trace o) : (ringMessage n x).2.1.host.ops = x.1.host.ops ∧
    ringOf (ringMessage n x).2.1 n = { ringOf x.1 n with unsig := 0 } := by
  rw [ringMessage, M.bind_run, M.bind_run, rd_run, ringOf, ((sendMsix_in _).via _).host rfl, ← ringOf, (upRing_run n _ x).1, upRing, eff_run]
  simp only [apply_host, and_self]

/-- The message of an entry, or its wait, keeps the operations and what the ring pair has used. -/
theorem entryIrq_reads (n : Nat) (irq : Bool) (x : Trace o) : (entryIrq n irq x).2.1.host.ops = x.1.host.ops ∧
    (ringOf (entryIrq n irq x).2.1 n).used = (ringOf x.1 n).used := by
  have hcount (k : Nat) : (upRing n (fun r => { r with unsig := k }) x).2.1.host.ops = x.1.host.ops ∧
      (ringOf (upRing n (fun r => { r with unsig := k }) x).2.1 n).used = (ringOf x.1 n).used := by
    rw [(upRing_run n _ x).1, upRing, eff_run]
    simp only [apply_host, and_self]
  rw [entryIrq, st_bind, M.bind_run]
  split
  next =>
    obtain ⟨hops, hring⟩ := ringMessage_reads n (upRing n (fun r => { r with unsig := (ringOf x.1 n).unsig + 1 }) x).2
    rw [hops, hring]
    exact hcount _
  next =>
    have hhost := ((within_when (c := decide ((ringOf x.1 n).unsig + 1 = 1)) (mark_in (o := o) (K.ring n))).via
      (upRing n (fun r => { r with unsig := (ringOf x.1 n).unsig + 1 }) x).2).host rfl
    rw [ringOf_of_host hhost, hhost]
    exact hcount _

theorem completionWrite_does {opid : Nat} {x : Op} (hop : opOf s opid = some x) (hlocked : x.st = .locked) (hready : x.ready = true)
    (hafter : x.after = []) (hheld : s.rd (R.HIF_RING_STATn.ERR_CODE x.ring) ≠ 3) :
    Does (.completionWrite opid false) s fun t => opOf t opid = none ∧
      t.out.take (s.out.length + 1) = s.out ++ [.entry x.ring (s.rd (R.HIF_RING_POSn.CQ_TAIL x.ring)) (entryWords s x)] ∧
      t.rd (R.HIF_RING_POSn.CQ_TAIL x.ring) =
        (if s.rd (R.HIF_RING_POSn.CQ_TAIL x.ring) + 1 = cqSize s x.ring then 0 else s.rd (R.HIF_RING_POSn.CQ_TAIL x.ring) + 1) % 65536 ∧
      (ringOf t x.ring).used = (ringOf s x.ring).used + 1 := by
  refine does_run rfl rfl ?_
  have hid : x.opid = opid := by simpa using List.find?_some hop
  rw [st_bind]
  simp only [hop]
  rw [if_neg (by simp [hlocked, hready, hafter]), if_neg hheld, if_neg (by decide), M.bind_run, M.bind_run, M.bind_run, M.bind_run, send_run, wr_run]
  generalize hy : (upRing x.ring _ _ : Unit × Trace s).2 = y
  have hout : y.1.out = s.out ++ [.entry x.ring (s.rd (R.HIF_RING_POSn.CQ_TAIL x.ring)) (entryWords s x)] := by
    rw [← hy, upRing, eff_run]
    simp only [apply_host, apply_reg, apply_out]
  have hused : (ringOf y.1 x.ring).used = (ringOf s x.ring).used + 1 := by
    rw [← hy, (upRing_run ..).1, ringOf]
    simp only [apply_reg, apply_out, ringOf]
  have htail : y.1.rd (R.HIF_RING_POSn.CQ_TAIL x.ring) =
      (if s.rd (R.HIF_RING_POSn.CQ_TAIL x.ring) + 1 = cqSize s x.ring then 0 else s.rd (R.HIF_RING_POSn.CQ_TAIL x.ring) + 1) % 65536 := by
    rw [← hy, upRing, eff_run]
    simp (disch := decide) only [apply_host, rd_reg_same, decide_eq_true_eq, Nat.reducePow]
  clear hy
  obtain ⟨hnone, hrings, hpos⟩ := dropOp_reads x y
  obtain ⟨hops, hkept⟩ := entryIrq_reads x.ring x.irq (dropOp x y).2
  refine ⟨?_, ?_, ?_, ?_⟩
  · rw [opOf, hops, ← opOf, ← hid, hnone]
  · have hprefix : y.1.out <+: (entryIrq x.ring x.irq (dropOp x y).2).2.1.out :=
      (((dropOp_in x).via y).reach.out_prefix).trans (((entryIrq_in x.ring x.irq).via _).reach.out_prefix)
    rw [hout] at hprefix
    simpa using (List.prefix_iff_eq_take.mp hprefix).symm
  · rw [((entryIrq_in x.ring x.irq).via _).rdKind .HIF_RING_POSn rfl rfl rfl, hpos, htail]
  · rw [hkept, ringOf, hrings, ← ringOf, hused]

theorem msixCoalesceTimer_does (hn : n < 256) (hunsig : 0 < (ringOf s n).unsig) (hce : s.rd (R.HIF_RING_IRQn.CE n) = 1) :
    Does (.msixCoalesceTimer n) s fun t => (ringOf t n).unsig = 0 ∧
      t.clk.mono = max s.clk.mono (tget 0 s.clk.seen (K.ring n) + 1000 * max 1 (s.rd (R.HIF_RING_IRQn.TIME n))) ∧
      (s.rd (R.HIF_MSIX.WORD (s.rd (R.HIF_RING_CFGn.VEC n)) 3) % 2 = 0 → t.out = s.out ++ [.msix (s.rd (R.HIF_RING_CFGn.VEC n))]) := by
  refine does_run rfl (by simpa [Instr.wf] using hn) ?_
  rw [st_bind, if_pos ⟨hunsig, hce⟩, M.bind_run, seenAt_run, M.bind_run, advTo_run]
  refine ⟨?_, ?_, fun hopen => ?_⟩
  · rw [(ringMessage_reads n _).2]
  · rw [((ringMessage_in n).via _).clkMono rfl, mono_until]
  · rw [ringMessage, M.bind_run, M.bind_run, rd_run, upRing, eff_run, sendMsix, st_bind, if_neg, send_run]
    · simp only [apply_out, apply_host, apply_pass]
    · simp only [apply_host, rd_pass]
      omega

/-! The energy gate. -/

theorem phaseOf_upPhase (c : Nat) (f : Phase → Phase) (x : Trace o) : phaseOf (upPhase c f x).2.1 c = (phaseOf x.1 c).map f := by
  rw [upPhase, upCtx, eff_run]
  simp only [phaseOf, apply_host, tget_tset_self]

theorem phaseOf_of_host {t : State} (h : t.host = s.host) : phaseOf t c = phaseOf s c := by rw [phaseOf, phaseOf, h]

/-- A phase that locks COMPLETE once its units have ended stays as admitted as it was. -/
theorem lockDone_reads (c : Nat) (x : Trace o) : (lockDone c x).2.1.host.gateQ = x.1.host.gateQ ∧ (lockDone c x).2.1.host.level = x.1.host.level ∧
    (phaseOf (lockDone c x).2.1 c).map (fun y => (y.admitted, y.admitAt)) = (phaseOf x.1 c).map (fun y => (y.admitted, y.admitAt)) := by
  refine ⟨?_, ?_, ?_⟩
  · rw [lockDone, upPhase, upCtx, eff_run]
    simp only [apply_host]
  · rw [lockDone, upPhase, upCtx, eff_run]
    simp only [apply_host]
  · rw [lockDone, phaseOf_upPhase, Option.map_map]
    congr 1
    funext y
    simp only [Function.comp_apply]
    split <;> rfl

/-- A phase is admitted that has no unit and no argument slot. -/
theorem admitPhase_reads (x : Trace o) (hphase : phaseOf x.1 c = some ph) (hunits : ph.units = []) (hargs : ph.argQ = 0xFFFF) :
    (admitPhase c x).2.1.host.gateQ = x.1.host.gateQ.filter (· ≠ c) ∧
    (admitPhase c x).2.1.host.level = max (-gateCap) (x.1.host.level - (1000 * ph.decl : Nat)) ∧
    (phaseOf (admitPhase c x).2.1 c).map (fun y => (y.admitted, y.admitAt)) = some (true, x.1.clk.mono) ∧
    (admitPhase c x).2.1.clk.mono = x.1.clk.mono := by
  rw [admitPhase, st_bind]
  simp only [hphase, hunits, hargs]
  rw [M.bind_run, M.bind_run, M.bind_run, M.bind_run, M.bind_run, M.bind_run, M.bind_run, when_off (by decide), each_nil, M.pure_snd]
  generalize hy : (upPhase c _ _ : Unit × Trace o).2 = y
  have hgate : y.1.host.gateQ = x.1.host.gateQ.filter (· ≠ c) ∧ y.1.host.level = max (-gateCap) (x.1.host.level - (1000 * ph.decl : Nat)) ∧
      y.1.clk.mono = x.1.clk.mono := by
    rw [← hy, upPhase, upCtx, eff_run, eff_run]
    simp only [apply_host, and_self]
  have hadmitted : (phaseOf y.1 c).map (fun y => (y.admitted, y.admitAt)) = some (true, x.1.clk.mono) := by
    rw [← hy, phaseOf_upPhase, eff_run]
    simp only [phaseOf, apply_host] at hphase ⊢
    rw [hphase]
    rfl
  clear hy
  obtain ⟨hqueue, hlevel, hmono⟩ := hgate
  generalize hz : (retarget (upOp ph.opid _ y).2 : Unit × Trace o).2 = z
  have hkept : z.1.host.gateQ = y.1.host.gateQ ∧ z.1.host.level = y.1.host.level ∧ phaseOf z.1 c = phaseOf y.1 c ∧ z.1.clk.mono = y.1.clk.mono := by
    rw [← hz, phaseOf_of_host ((retarget_in.via _).host rfl), (retarget_in.via _).host rfl, (retarget_in.via _).clkMono rfl, upOp, eff_run]
    simp only [apply_host, phaseOf, and_self]
  clear hz
  obtain ⟨hqueue', hlevel', hphase', hmono'⟩ := hkept
  obtain ⟨hqueue'', hlevel'', hphase''⟩ := lockDone_reads c z
  have hrefresh := (refreshPhase_in (o := o) c).via (lockDone c z).2
  rw [phaseOf_of_host (hrefresh.host rfl), hrefresh.host rfl, hrefresh.clkMono rfl, ((lockDone_in c).via z).clkMono rfl, hqueue'', hlevel'', hphase'',
    hqueue', hlevel', hphase', hmono']
  exact ⟨hqueue, hlevel, hadmitted, hmono⟩

theorem fabricAdmitDeadline_does (hc : c < 64) (hopen : gateClosed s = false) (hqueue : s.host.gateQ = [c]) (hphase : phaseOf s c = some ph)
    (hunits : ph.units = []) (hargs : ph.argQ = 0xFFFF) (hfabric : ph.fabric = true) :
    Does (.fabricAdmitDeadline c) s fun t => t.host.gateQ = [] ∧ t.clk.mono = max s.clk.mono (ph.enterAt + 20000000) ∧
      (phaseOf t c).map (fun x => (x.admitted, x.admitAt)) = some (true, t.clk.mono) ∧
      t.host.level = max (-gateCap) (s.host.level - (1000 * ph.decl : Nat)) := by
  refine does_run rfl (by simpa [Instr.wf] using hc) ?_
  rw [st_bind]
  simp only [hphase, hfabric, hqueue, hopen, Bool.true_and, List.contains_cons, BEq.rfl, Bool.true_or, Bool.not_false, if_true]
  rw [M.bind_run]
  have hhost : (advTo (ph.enterAt + 20000000) (⟨s, .refl⟩ : Trace s)).2.1.host = s.host := by
    rw [advTo_run]
    simp only [apply_pass]
  have hmono : (advTo (ph.enterAt + 20000000) (⟨s, .refl⟩ : Trace s)).2.1.clk.mono = max s.clk.mono (ph.enterAt + 20000000) := by
    rw [advTo_run, mono_until]
  generalize (advTo (ph.enterAt + 20000000) (⟨s, .refl⟩ : Trace s)).2 = x at hhost hmono
  obtain ⟨hqueue', hlevel, hadmitted, hmono'⟩ := admitPhase_reads x ((phaseOf_of_host hhost).trans hphase) hunits hargs
  rw [hqueue', hlevel, hadmitted, hmono', hhost, hmono, hqueue]
  simp

/-- One round of a tick's admissions: it tells whether a phase was admitted. -/
def gateRound : M o Bool := do
  let s ← st
  if gateClosed s then return false
  else match gatePick s with
    | none => return false
    | some c => do
      admitPhase c
      return true

/-- What a tick does once its instant has come. -/
def gateTurn : M o Unit := do
  let s ← st
  if s.ctl.mode = .ready ∨ s.ctl.mode = .run ∨ s.ctl.mode = .drain ∨ s.ctl.mode = .hold then do
    let p := s.rd R.PWR_INPUT.POWER_W
    eff (.host fun h => { h with
      level := min gateCap (h.level + ((s.rd R.PWR_CLIP.EFF_W - h.otherW : Nat) : Int))
      moduleUj := h.moduleUj + p, unattrUj := h.unattrUj + p })
    loop 65 gateRound
  else pure ()

/-- The bucket of the gate has filled for one tick. -/
def filled (s : State) : State := apply (.host fun h => { h with
  level := min gateCap (h.level + ((s.rd R.PWR_CLIP.EFF_W - h.otherW : Nat) : Int))
  moduleUj := h.moduleUj + s.rd R.PWR_INPUT.POWER_W, unattrUj := h.unattrUj + s.rd R.PWR_INPUT.POWER_W }) s

theorem gateTurn_fills {x : Trace o} (hserves : x.1.ctl.mode = .ready ∨ x.1.ctl.mode = .run ∨ x.1.ctl.mode = .drain ∨ x.1.ctl.mode = .hold) :
    ∃ y : Trace o, y.1 = filled x.1 ∧ gateTurn x = loop 65 gateRound y := by
  rw [gateTurn, st_bind, if_pos hserves, M.bind_run, eff_run]
  exact ⟨_, rfl, rfl⟩

theorem gateRound_closed {x : Trace o} (hclosed : gateClosed x.1 = true) : gateRound x = (false, x) := by
  rw [gateRound, st_bind, if_pos hclosed, M.pure_run]

theorem gateRound_empty {x : Trace o} (hempty : x.1.host.gateQ = []) : gateRound x = (false, x) := by
  have hnone : gatePick x.1 = none := by simp only [gatePick, hempty, List.find?_nil]
  rw [gateRound, st_bind, hnone]
  split <;> rfl

theorem gateRound_admits {x : Trace o} (hopen : gateClosed x.1 = false) (hpick : gatePick x.1 = some c) :
    gateRound x = (true, (admitPhase c x).2) := by
  rw [gateRound, st_bind, hpick, if_neg (by rw [hopen]; decide)]
  rfl

theorem waitNoted_host (k i : Nat) (s : State) : (waitNoted k i s).host = s.host := by
  rw [waitNoted]
  simp only [apply_seen, apply_pass]

/-- The instant of a tick. -/
theorem gateTick_does {E : State → Prop} (hE : ∀ x : Trace s, x.1 = waitNoted K.gate (tget 0 s.clk.seen K.gate + 1000) s → E (gateTurn x).2.1) :
    Does .gateTick s E := by
  refine does_run (m := do periodic K.gate 1000; gateTurn) rfl rfl ?_
  rw [M.bind_run, periodic_run]
  exact hE _ (waitNoted_run ..)

theorem gateTick_idle (hmode : s.ctl.mode = .ready ∨ s.ctl.mode = .drain ∨ s.ctl.mode = .hold) :
    Does .gateTick s fun t => Fired s t K.gate 1000 ∧ t.host = { s.host with
      level := min gateCap (s.host.level + ((s.rd R.PWR_CLIP.EFF_W - s.host.otherW : Nat) : Int))
      moduleUj := s.host.moduleUj + s.rd R.PWR_INPUT.POWER_W, unattrUj := s.host.unattrUj + s.rd R.PWR_INPUT.POWER_W } := by
  refine gateTick_does fun x hx => ?_
  have hctl : x.1.ctl = s.ctl := by rw [hx, waitNoted_ctl]
  obtain ⟨y, hy, hturn⟩ := gateTurn_fills (x := x) (by rw [hctl]; tauto)
  have hclosed : gateClosed y.1 = true := by
    have hnot : y.1.ctl.mode ≠ .run := by
      rw [hy, filled]
      simp only [apply_host, hctl]
      rintro hrun
      simp [hrun] at hmode
    simp [gateClosed, hnot]
  rw [hturn, loop_stops (gateRound_closed hclosed), hy, filled, hx]
  simp only [Fired, apply_host, waitNoted_mono, waitNoted_seen, waitNoted_rd, waitNoted_host, and_self]

theorem gateTick_admits (hmode : s.ctl.mode = .run) (hlag : s.rd R.PWR_STAT.CLIP_LAG = 0) (hstop : s.rd R.HIF_CTL.GATE_STOP = 0)
    (hqueue : s.host.gateQ = [c]) (hphase : phaseOf s c = some ph) (hunits : ph.units = []) (hargs : ph.argQ = 0xFFFF)
    (hfabric : ph.fabric = false) (hcovers : (1000 * ph.decl : Nat) ≤ s.host.level) (hcap : s.host.level ≤ gateCap) :
    Does .gateTick s fun t => t.host.gateQ = [] ∧ (phaseOf t c).map (fun x => (x.admitted, x.admitAt)) = some (true, t.clk.mono) ∧
      t.host.level = min gateCap (s.host.level + ((s.rd R.PWR_CLIP.EFF_W - s.host.otherW : Nat) : Int)) - (1000 * ph.decl : Nat) := by
  refine gateTick_does fun x hx => ?_
  obtain ⟨y, hy, hturn⟩ := gateTurn_fills (x := x) (by rw [hx, waitNoted_ctl, hmode]; decide)
  have hhost : x.1.host = s.host := by rw [hx, waitNoted_host]
  have hlevel : y.1.host.level = min gateCap (s.host.level + ((s.rd R.PWR_CLIP.EFF_W - s.host.otherW : Nat) : Int)) := by
    rw [hy, filled, hhost.symm]
    simp only [apply_host, hx, waitNoted_rd]
  have hkept : y.1.host.gateQ = [c] ∧ phaseOf y.1 c = some ph := by
    rw [hy, filled]
    simp only [apply_host, phaseOf, hhost, hqueue, true_and]
    exact hphase
  obtain ⟨hqueue', hphase'⟩ := hkept
  have hopen : gateClosed y.1 = false := by
    rw [hy, filled]
    simp only [gateClosed, apply_host, hx, waitNoted_rd, waitNoted_ctl, hmode, hlag, hstop]
    decide
  have hpick : gatePick y.1 = some c := by
    have hcovers' : ((1000 * ph.decl : Nat) : Int) ≤ y.1.host.level := by rw [hlevel]; omega
    simp only [gatePick, hqueue', hphase', hfabric, List.find?_cons, List.find?_nil, Bool.false_and, if_pos hcovers']
  obtain ⟨hempty, hcharged, hadmitted, hmono⟩ := admitPhase_reads y hphase' hunits hargs
  have hdone : (admitPhase c y).2.1.host.gateQ = [] := by rw [hempty, hqueue']; simp
  rw [hturn, loop, M.bind_run, gateRound_admits hopen hpick]
  simp only [if_true]
  rw [loop_stops (gateRound_empty hdone), hadmitted, hmono, hcharged, hlevel]
  refine ⟨hdone, rfl, ?_⟩
  unfold gateCap at *
  omega

/-! The end of a phase. -/

theorem opOf_upOp {opid : Nat} {f : Op → Op} (hf : ∀ y, (f y).opid = y.opid) (x : Trace o) :
    opOf (upOp opid f x).2.1 opid = (opOf x.1 opid).map f := by
  have hsame : ((fun y : Op => y.opid == opid) ∘ fun y => if y.opid = opid then f y else y) = fun y => y.opid == opid := by
    funext y
    simp only [Function.comp_apply]
    split
    · rw [hf]
    · rfl
  rw [upOp, eff_run]
  simp only [opOf, apply_host, List.find?_map, hsame]
  cases hfound : x.1.host.ops.find? (fun y => y.opid == opid) with
  | none => rfl
  | some y =>
    have hid : y.opid = opid := by simpa using List.find?_some hfound
    simp only [Option.map_some, if_pos hid]

theorem opOf_of_host {t : State} {opid : Nat} (h : t.host.ops = s.host.ops) : opOf t opid = opOf s opid := by rw [opOf, opOf, h]

/-- The first lock of an operation's status. -/
theorem lockOp_ends {opid status detail unit info0 : Nat} {y : Op} {x : Trace o} (hop : opOf x.1 opid = some y) (hopen : y.st ≠ .locked) :
    Ended (lockOp opid status detail unit info0 true x).2.1 opid status detail := by
  rw [Ended, lockOp, opOf_upOp (fun z => by split <;> rfl), hop]
  simp only [Option.map_some, if_neg hopen]

/-- The word of a queue's registers is one word under all the indices that name it. -/
theorem rd_cfg_key {ix jx : List Nat} (s : State) (h : regKey .PART_Q_CFG ix = regKey .PART_Q_CFG jx) (lo w : Nat) :
    s.rd ⟨.PART_Q_CFG, ix, lo, w⟩ = s.rd ⟨.PART_Q_CFG, jx, lo, w⟩ := by
  rw [State.rd, State.rd, regWord, regWord, h]
  rfl

/-- A queue's leftover slots, told. -/
theorem leftover_cfg {f : Fld} (hf : f.k = .PART_Q_CFG) (c : Bool) (p q src : Nat) (items : List Nat) :
    KeepsObs (·.rd f) (when_ c (do setF (R.PART_Q_OCC.LEFTOVER p q); ev E.Q_LEFTOVER src 0 items) : M o Unit) := fun _ =>
  .when <| .bind (KeepsObs.eff (fun t => rd_reg_kind t _ _ _ (by rw [hf]; nofun)) _) fun _ =>
    .within (ev_in ..) fun hvia h => (hvia.rdKind .PART_Q_CFG hf rfl rfl).trans h

/-- A queue of a phase that did not complete stays wired. -/
theorem dropQueue_keeps (p q : Nat) (x : Trace o) {f : Fld} (hf : f.k = .PART_Q_CFG) : (dropQueue p q true x).2.1.rd f = x.1.rd f := by
  rw [dropQueue, st_bind, M.bind_run, Bool.not_true, when_off rfl]
  exact leftover_cfg hf _ p q _ _ _ x rfl

/-- A queue is wired no more: its registers and its counts. -/
theorem unwire_reads (p q p' q' : Nat) (g : Que → Que) (x : Trace o) {v : Nat}
    (hv : ∀ t : State, t.rd (R.PART_Q_CFG.VALID p q) = x.1.rd (R.PART_Q_CFG.VALID p q) →
      (apply (.reg (R.PART_Q_CFG.VALID p' q') 0) t).rd (R.PART_Q_CFG.VALID p q) = v) :
    ((do wrs [(R.PART_Q_OCC.OCC p' q', 0), (R.PART_Q_CFG.VALID p' q', 0)]; upQue p' q' g; refreshEnds p' q' : M o Unit) x).2.1.rd
      (R.PART_Q_CFG.VALID p q) = v := by
  rw [M.bind_run, M.bind_run, ((refreshEnds_in p' q').via _).rdKind .PART_Q_CFG rfl rfl rfl, upQue_run, wrs_run]
  simp only [apply_que, putAll, List.foldl]
  exact hv _ (rd_reg_kind _ _ _ _ (by nofun))

/-- A queue of a phase that completed is wired no more. -/
theorem dropQueue_unwires (p q : Nat) (x : Trace o) : (dropQueue p q false x).2.1.rd (R.PART_Q_CFG.VALID p q) = 0 := by
  rw [dropQueue, st_bind, M.bind_run, Bool.not_false, when_on rfl]
  exact unwire_reads p q p q _ _ fun _ _ => rd_reg_same _ _ _ (by decide)

/-- A queue that a phase leaves unwired stays so while the phase's other queues go. -/
theorem dropQueue_unwired (p q p' q' : Nat) : Keeps (fun t => t.rd (R.PART_Q_CFG.VALID p q) = 0) (dropQueue p' q' false : M o Unit) := by
  intro x hx
  rw [dropQueue, st_bind, M.bind_run, Bool.not_false, when_on rfl]
  refine unwire_reads p q p' q' _ _ fun t ht => ?_
  by_cases hkey : regKey .PART_Q_CFG [p, q] = regKey .PART_Q_CFG [p', q']
  · rw [rd_cfg_key _ hkey]
    exact rd_reg_same _ _ _ (by decide)
  · rw [rd_reg_key _ _ _ _ hkey]
    exact ht.trans ((leftover_cfg rfl _ p' q' _ _ _ x rfl).trans hx)

/-- The queues of a phase that completed are all unwired. -/
theorem dropQueues_unwire (l : List (Nat × Nat)) (x : Trace o) {pq : Nat × Nat} (hpq : pq ∈ l) :
    (each l (fun pq => dropQueue pq.1 pq.2 false) x).2.1.rd (R.PART_Q_CFG.VALID pq.1 pq.2) = 0 := by
  have hstay (k : List (Nat × Nat)) : Keeps (fun t => t.rd (R.PART_Q_CFG.VALID pq.1 pq.2) = 0)
      (each k (fun pq => dropQueue pq.1 pq.2 false) : M o Unit) := .each fun b => dropQueue_unwired _ _ b.1 b.2
  induction l generalizing x with
  | nil => cases hpq
  | cons a l ih =>
    rw [each_cons, M.bind_run]
    obtain rfl | hrest := List.mem_cons.mp hpq
    · exact hstay l _ (dropQueue_unwires _ _ x)
    · exact ih _ hrest

/-- The queues of a phase that did not complete stay as they are wired. -/
theorem dropQueues_keep (l : List (Nat × Nat)) (x : Trace o) {f : Fld} (hf : f.k = .PART_Q_CFG) :
    (each l (fun pq => dropQueue pq.1 pq.2 true) x).2.1.rd f = x.1.rd f := by
  have hstay : Keeps (fun t => t.rd f = x.1.rd f) (each l (fun pq => dropQueue pq.1 pq.2 true) : M o Unit) :=
    .each fun pq y hy => (dropQueue_keeps pq.1 pq.2 y hf).trans hy
  exact hstay x rfl

/-- Settlement charges the energy measured in place of the energy declared. -/
theorem settle_reads (x : Trace o) : (settle c ph x).2.1.host.level =
      max (-gateCap) (min gateCap (x.1.host.level + (1000 * ph.decl : Nat) - (ph.meas / 1000000 : Nat))) ∧
    ∀ y, opOf x.1 ph.opid = some y → ∃ z, opOf (settle c ph x).2.1 ph.opid = some z ∧ z.st = y.st := by
  have hev (b : Bool) (y : Trace o) := ((within_when (c := b) (ev_in (o := o) E.PHASE_ENERGY_OVER SK.hw 0
    [I.PHASE (c * 2 ^ 32 + ph.num), I.VALUE ph.decl, I.VALUE (ph.meas / 1000000)])).via y).host rfl
  rw [settle, st_bind, M.bind_run, M.bind_run, M.bind_run, M.bind_run, eff_run, eff_run]
  refine ⟨?_, fun y hy => ?_⟩
  · simp only [apply_pw, hev, upOp, upCtx, eff_run, apply_host]
  · have hops (f : Op → Op) (z : Trace o) (b : Bool) (g : Power → Power) : (apply (.pw g) (when_ b (ev E.PHASE_ENERGY_OVER SK.hw 0
        [I.PHASE (c * 2 ^ 32 + ph.num), I.VALUE ph.decl, I.VALUE (ph.meas / 1000000)]) (upOp ph.opid f z).2).2.1).host.ops =
        (upOp ph.opid f z).2.1.host.ops := by simp only [apply_pw, hev]
    rw [opOf_of_host (hops ..), opOf_upOp, opOf_of_host (s := x.1), hy]
    · exact ⟨_, rfl, rfl⟩
    · rw [upCtx, eff_run]
      simp only [apply_host]
    · exact fun _ => rfl

/-- The rest of a phase's end once its queues and units are let go and its energy is settled. -/
theorem phaseLeaves_reads {x : Trace o} {y : Op} {status detail unit info0 : Nat} {admitted : Bool} (hrun : x.1.rd (R.HIF_CTX_STATc.STATE c) = CS.RUN)
    (hop : opOf x.1 ph.opid = some y) (hopen : y.st ≠ .locked) {t : State} (ht : t = (when_ admitted (do retarget; drainDone) (slotAfter c
      (upCtx c (fun z => { z with phase := none }) (lockOp ph.opid status detail unit info0 true x).2).2).2).2.1) :
    phaseOf t c = none ∧ t.rd (R.HIF_CTX_STATc.STATE c) = CS.IDLE ∧ Ended t ph.opid status detail ∧ t.host.level = x.1.host.level ∧
      ∀ f : Fld, f.k = .PART_Q_CFG → t.rd f = x.1.rd f := by
  have hlast : Within (foot [.kind .PWR_STAT, .ctl]) (when_ admitted (do retarget; drainDone) : M o Unit) :=
    within_when (within_bind (retarget_in.mono rfl) fun _ => drainDone_in.mono rfl)
  generalize hz : (upCtx c (fun z => { z with phase := none }) (lockOp ph.opid status detail unit info0 true x).2).2 = z at ht
  have hstate : z.1.rd (R.HIF_CTX_STATc.STATE c) = CS.RUN := by
    rw [← hz, ((upCtx_in ..).via _).rdKind .HIF_CTX_STATc rfl rfl rfl, ((lockOp_in ..).via _).rdKind .HIF_CTX_STATc rfl rfl rfl, hrun]
  have hcfg (f : Fld) (hf : f.k = .PART_Q_CFG) : z.1.rd f = x.1.rd f := by
    rw [← hz, ((upCtx_in ..).via _).rdKind .PART_Q_CFG hf rfl rfl, ((lockOp_in ..).via _).rdKind .PART_Q_CFG hf rfl rfl]
  have hphase : phaseOf z.1 c = none := by
    rw [← hz, upCtx, eff_run]
    simp only [phaseOf, apply_host, tget_tset_self]
  have hlevel : z.1.host.level = x.1.host.level := by
    rw [← hz, upCtx, eff_run, lockOp, upOp, eff_run]
    simp only [apply_host]
  have hended : Ended z.1 ph.opid status detail := by
    rw [Ended, opOf_of_host (s := (lockOp ph.opid status detail unit info0 true x).2.1)]
    · exact lockOp_ends hop hopen
    · rw [← hz, upCtx, eff_run]
      simp only [apply_host]
  have hidle : (slotAfter c z).2.1 = apply (.reg (R.HIF_CTX_STATc.STATE c) CS.IDLE) z.1 := by
    rw [slotAfter, st_bind, if_neg (by rw [hstate]; decide), wr_run]
  have hvia := hlast.via (slotAfter c z).2
  rw [← ht, hidle] at hvia
  have hhost : t.host = z.1.host := (hvia.host rfl).trans (by simp only [apply_reg])
  refine ⟨(phaseOf_of_host hhost).trans hphase, (hvia.rdKind .HIF_CTX_STATc rfl rfl rfl).trans (rd_reg_same _ _ _ (by decide)), ?_,
    by rw [hhost, hlevel], fun f hf => ?_⟩
  · rw [Ended, opOf_of_host (congrArg HostIf.ops hhost)]
    exact hended
  · rw [hvia.rdKind .PART_Q_CFG hf rfl rfl, rd_reg_kind _ _ _ _ (by rw [hf]; nofun), hcfg f hf]

/-- The queues and units of a phase are let go. -/
theorem phaseLets_reads (ph : Phase) (status : Nat) (x : Trace o) {t : State} (ht : t = (each ph.units unbindUnit
      (each ph.queues (fun pq => dropQueue pq.1 pq.2 (decide (status ≠ S.COMPLETE))) x).2).2.1) :
    t.host = x.1.host ∧ t.rd (R.HIF_CTX_STATc.STATE c) = x.1.rd (R.HIF_CTX_STATc.STATE c) ∧
      ∀ pq ∈ ph.queues, t.rd (R.PART_Q_CFG.VALID pq.1 pq.2) = if status = S.COMPLETE then 0 else x.1.rd (R.PART_Q_CFG.VALID pq.1 pq.2) := by
  have hqueues := (within_each (l := ph.queues) fun pq => dropQueue_in (o := o) pq.1 pq.2 (decide (status ≠ S.COMPLETE))).via x
  have hunits := (within_each (l := ph.units) (unbindUnit_in (o := o))).via
    (each ph.queues (fun pq => dropQueue pq.1 pq.2 (decide (status ≠ S.COMPLETE))) x).2
  rw [← ht] at hunits
  refine ⟨(hunits.host rfl).trans (hqueues.host rfl),
    (hunits.rdKind .HIF_CTX_STATc rfl rfl rfl).trans (hqueues.rdKind .HIF_CTX_STATc rfl rfl rfl), fun pq hpq => ?_⟩
  rw [hunits.rdKind .PART_Q_CFG rfl rfl rfl]
  by_cases hdone : status = S.COMPLETE
  · have hkeep : decide (status ≠ S.COMPLETE) = false := by simp [hdone]
    rw [if_pos hdone, hkeep]
    exact dropQueues_unwire ph.queues x hpq
  · have hkeep : decide (status ≠ S.COMPLETE) = true := by simp [hdone]
    rw [if_neg hdone, hkeep]
    exact dropQueues_keep ph.queues x rfl

theorem phaseEnd_does {status detail unit info0 : Nat} {y : Op} (hc : c < 64) (hphase : phaseOf s c = some ph)
    (houtcome : ph.outcome = some (status, detail, unit, info0)) (hover : ph.units.all (ph.ended.contains ·) = true)
    (hrun : s.rd (R.HIF_CTX_STATc.STATE c) = CS.RUN) (hop : opOf s ph.opid = some y) (hopen : y.st ≠ .locked) :
    Does (.phaseEnd c) s fun t => phaseOf t c = none ∧ t.rd (R.HIF_CTX_STATc.STATE c) = CS.IDLE ∧ Ended t ph.opid status detail ∧
      (∀ pq ∈ ph.queues, t.rd (R.PART_Q_CFG.VALID pq.1 pq.2) = if status = S.COMPLETE then 0 else s.rd (R.PART_Q_CFG.VALID pq.1 pq.2)) ∧
      (ph.admitted = true → t.host.level = max (-gateCap) (min gateCap (s.host.level + (1000 * ph.decl : Nat) - (ph.meas / 1000000 : Nat)))) := by
  refine does_run rfl (by simpa [Instr.wf] using hc) ?_
  rw [st_bind]
  simp only [hphase, houtcome]
  rw [if_neg (by simpa [Phase.over] using hover), M.bind_run, M.bind_run, M.bind_run, M.bind_run, M.bind_run, M.bind_run]
  generalize hx : (each ph.units unbindUnit _ : Unit × Trace s).2 = x
  obtain ⟨hhost, hstate, hqueues⟩ := phaseLets_reads (c := c) ph status _ (congrArg Subtype.val hx).symm
  obtain ⟨hlevel, hfound⟩ := settle_reads (c := c) (ph := ph) x
  have hsettle := (within_when (c := ph.admitted) (settle_in (o := s) c ph)).via x
  have hcharged (ha : ph.admitted = true) : (when_ ph.admitted (settle c ph) x).2.1.host.level =
      max (-gateCap) (min gateCap (s.host.level + (1000 * ph.decl : Nat) - (ph.meas / 1000000 : Nat))) := by
    rw [when_on ha, hlevel, hhost]
  have hopen' : ∃ z, opOf (when_ ph.admitted (settle c ph) x).2.1 ph.opid = some z ∧ z.st ≠ .locked := by
    have hop' : opOf x.1 ph.opid = some y := (opOf_of_host (congrArg HostIf.ops hhost)).trans hop
    cases ha : ph.admitted with
    | false => exact ⟨y, by rw [when_off rfl, hop'], hopen⟩
    | true =>
      obtain ⟨z, hz, hst⟩ := hfound y hop'
      exact ⟨z, by rw [when_on rfl, hz], by rw [hst]; exact hopen⟩
  obtain ⟨z, hz, hzopen⟩ := hopen'
  obtain ⟨hnone, hidle, hended, hkept, hcfg⟩ := phaseLeaves_reads (c := c) (ph := ph) (x := (when_ ph.admitted (settle c ph) x).2)
    ((hsettle.rdKind .HIF_CTX_STATc rfl rfl rfl).trans (hstate.trans hrun)) hz hzopen rfl
  refine ⟨hnone, hidle, hended, fun pq hpq => ?_, fun ha => hkept.trans (hcharged ha)⟩
  rw [hcfg _ rfl, hsettle.rdKind .PART_Q_CFG rfl rfl rfl, hqueues pq hpq]

/-- Settles O44: each command's run, read off; a tick's admissions end with the one phase that waits, a phase's end is followed part by part. -/
theorem ringsAndGateComplete : Obligations.RingsAndGateComplete :=
  ⟨fun _ _ _ hn hide hen hv => sqTail_moves hn hide hen hv, fun _ _ _ hn hide hen hv hnone => sqTail_error hn hide hen hv hnone,
    fun _ _ _ _ hn hide hen hv hk hused => cqHead_moves hn hide hen hv hk hused, fun _ _ _ hnext => descriptorFetch_takes hnext,
    fun _ _ hnext hnone => descriptorFetch_error hnext hnone,
    fun _ _ _ hop _ hlocked hready hafter hheld => completionWrite_does hop hlocked hready hafter hheld,
    fun _ _ hn hunsig hce => msixCoalesceTimer_does hn hunsig hce, fun _ hmode => gateTick_idle hmode,
    fun _ _ _ hmode hlag hstop hqueue hphase hunits hargs hfabric hcovers hcap =>
      gateTick_admits hmode hlag hstop hqueue hphase hunits hargs hfabric hcovers hcap,
    fun _ _ _ hc hopen hqueue hphase hunits hargs hfabric => fabricAdmitDeadline_does hc hopen hqueue hphase hunits hargs hfabric,
    fun _ _ _ _ _ _ _ _ hc hphase houtcome hover hrun hop hopen => phaseEnd_does hc hphase houtcome hover hrun hop hopen⟩

end Sys2Proof.Machine
end

section
/-!
PROOFS. A streamer's turn (R82, R86, R454): the descriptor is read, the streamer runs, and its memory is as plain for it as for the module.
-/

set_option Elab.async false

namespace Sys2Proof.Machine

variable {o s t : State} {p k : Nat} {d : SDesc}

/-! Plain reads. -/

/-- The length of a run of bytes read from memory. -/
theorem treadFrom_length (l : Tbl Byte) (a n : Nat) : (treadFrom l a n).length = n := by
  induction n generalizing l a with
  | zero => cases l <;> rfl
  | succ n ih =>
    cases l with
    | nil => rw [treadFrom, List.length_cons, ih]
    | cons e l =>
      rw [treadFrom]
      split
      · rw [List.length_cons, ih]
      · rw [List.length_cons, ih]

theorem peek_length (s : State) (a len : Nat) : (peek s a len).length = len := by
  unfold peek
  split
  · exact treadFrom_length _ _ _
  · rw [List.length_map, List.length_range]

/-- A read that meets no stored error, no failed page and no failed channel. -/
theorem readMem_plain (x : Trace o) {rdr unit a len : Nat} (herrs : x.1.mem.errs = []) (hpages : x.1.mem.badPages = [])
    (hchan : chanFailed x.1 a len = false) : readMem rdr unit a len x = (.ok (peek x.1 a len), x) := by
  have hvault : readVault rdr unit a len x = (.ok (peek x.1 a len), x) := by
    rw [readVault, st_bind, hpages]
    rfl
  rw [readMem, st_bind, hchan, if_neg Bool.false_ne_true, errCws_of_no_errs herrs]
  cases regionOf x.1 a with
  | vault off => exact hvault
  | _ => rfl

/-! The turn. -/

theorem stFld_streamer (hp : p < 8) (hk : k < 16) : stFld (uidOf p 2 k) = R.PART_STR_STAT.STATE p k := by
  have hkind : uKind (uidOf p 2 k) = 2 := uKind_uidOf (by decide) (by omega)
  have hidx : uIdx (uidOf p 2 k) = k := uIdx_uidOf (by omega)
  have hpart : uPart (uidOf p 2 k) = p := uPart_uidOf hp (by decide) (by omega)
  simp [stFld, hkind, hidx, hpart]

theorem runUnit_streamer (hp : p < 8) (hk : k < 16) (x : Trace o) :
    runUnit (uidOf p 2 k) x = wr (R.PART_STR_STAT.STATE p k) US.RUN x := by
  have hkind : uKind (uidOf p 2 k) = 2 := uKind_uidOf (by decide) (by omega)
  rw [runUnit, M.bind_run, stFld_streamer hp hk, if_neg (by rw [hkind]; decide)]
  rfl

theorem restUnit_streamer (hk : k < 16) (x : Trace o) : restUnit (uidOf p 2 k) x = ((), x) := by
  have hkind : uKind (uidOf p 2 k) = 2 := uKind_uidOf (by decide) (by omega)
  rw [restUnit, if_neg (by rw [hkind]; decide), M.pure_run]

theorem StrAt.unitTurn (x : Trace o) (h : StrAt x.1 p k d) : unitTurn (uidOf p 2 k) x = (true, x) := by
  obtain ⟨hp, hk, -, hissue, hreset, hctx, -, hrun, -⟩ := h
  have hkind : uKind (uidOf p 2 k) = 2 := uKind_uidOf (by decide) (by omega)
  have hidx : uIdx (uidOf p 2 k) = k := uIdx_uidOf (by omega)
  have hpart : uPart (uidOf p 2 k) = p := uPart_uidOf hp (by decide) (by omega)
  have hbound : unitCtx x.1 (uidOf p 2 k) ≠ none := by
    rw [unitCtx, hkind, hidx, hpart]
    exact Option.isSome_iff_ne_none.1 hctx
  simp [Machine.unitTurn, M.bind_run, M.pure_run, st_run, hpart, hissue, hreset, hbound, stFld, hkind, hidx, hrun]

/-- The turn of a streamer at a legal descriptor carries the descriptor out, the streamer running. -/
theorem strTurn_run (x : Trace o) {opc : Nat} (body : SDesc → M o Unit) (h : StrAt x.1 p k d) (hopc : d.opc = opc) :
    strTurn p k opc Flt.none body x = body d (wr (R.PART_STR_STAT.STATE p k) US.RUN x).2 := by
  obtain ⟨hp, hk, hmode, -, -, -, -, -, herrs, hpages, hchan, hdesc, hlegal⟩ := id h
  have hread := readMem_plain x (rdr := RC.streamer) (unit := uidOf p 2 k) herrs hpages hchan
  have hups : applyUps Flt.none.ups x = ((), x) := rfl
  have hnow : (mode : M o Mode) x = (x.1.ctl.mode, x) := rfl
  simp only [strOf] at hread hdesc
  simp only [strTurn, M.bind_run, hups, hnow, if_neg hmode, h.unitTurn, Bool.not_true, Bool.false_eq_true, if_false, strm_run, rd_run, hread, hdesc,
    hopc, ne_eq, not_true_eq_false, false_and, st_run, hlegal, runUnit_streamer hp hk]

/-- A command whose meaning is a streamer's turn carries the descriptor out. -/
theorem strTurn_does {i : Instr} {opc : Nat} {body : SDesc → M s Unit} {E : State → Prop} (h : StrAt s p k d) (hopc : d.opc = opc)
    (he : exec i s = act i.wf s (strTurn p k opc Flt.none body)) (hwf : i.wf = true)
    (hE : ∀ x : Trace s, x.1 = apply (.reg (R.PART_STR_STAT.STATE p k) US.RUN) s → E (body d x).2.1) : Does i s E := by
  refine does_run he hwf ?_
  rw [strTurn_run _ body h hopc]
  exact hE _ rfl

/-! Pieces of a descriptor. -/

/-- The pieces that `f` carries out from `x` end within `j` of them, and leave `E`. -/
def Ends (f : M o Bool) (E : State → Prop) (j : Nat) (x : Trace o) : Prop := ∀ n, j ≤ n → E (loop n f x).2.1

theorem Ends.stop {f : M o Bool} {E : State → Prop} {x y : Trace o} (h : f x = (false, y)) (hE : E y.1) : Ends f E 1 x := by
  intro n hn
  obtain ⟨n, rfl⟩ := Nat.exists_eq_add_of_le' hn
  rw [loop, M.bind_run, h]
  exact hE

theorem Ends.go {f : M o Bool} {E : State → Prop} {j : Nat} {x y : Trace o} (h : f x = (true, y)) (hE : Ends f E j y) : Ends f E (j + 1) x := by
  intro n hn
  obtain ⟨n, rfl⟩ := Nat.exists_eq_add_of_le' (Nat.le_of_add_left_le hn)
  rw [loop, M.bind_run, h]
  exact hE n (by omega)

/-- A command whose meaning is a streamer's run, in a few pieces. -/
theorem strRun_does {i : Instr} {opc : Nat} {E : State → Prop} (h : StrAt s p k d) (hopc : d.opc = opc)
    (he : exec i s = act i.wf s (strRun p k opc Flt.none)) (hwf : i.wf = true) {j : Nat} (hj : j ≤ 6)
    (hE : ∀ x : Trace s, x.1 = apply (.reg (R.PART_STR_STAT.STATE p k) US.RUN) s → Ends (strStep p k d) E j x) : Does i s E :=
  strTurn_does h hopc he hwf fun x hx => hE x hx _ (hj.trans (by norm_num))

/-- A streamer part way through a descriptor that began in `s`: its progress, the memory that it has before it and the queues; the registers of
others are as they were. -/
structure Streaming (s : State) (p k : Nat) (r : StrRun) (b : Tbl Byte × Mem) (Q : Tbl Que) (t : State) : Prop where
  run : (strOf t p k).run = r
  store : (t.bytes, t.mem) = b
  ques : t.ques = Q
  nv : t.nv = s.nv
  vlt : t.vlt = s.vlt
  regs : ∀ f : Fld, f.k ≠ .PART_STR_STAT → t.rd f = s.rd f
  desc : t.rd (R.PART_STR_STAT.DESC p k) = s.rd (R.PART_STR_STAT.DESC p k)
  state : t.rd (R.PART_STR_STAT.STATE p k) = US.RUN

section Streaming

variable {r : StrRun} {b : Tbl Byte × Mem} {Q : Tbl Que} {x : Trace o} {a len : Nat}

/-- A descriptor begins. -/
theorem StrAt.begins (h : StrAt s p k d) (ht : t = apply (.reg (R.PART_STR_STAT.STATE p k) US.RUN) s) :
    Streaming s p k StrRun.init (s.bytes, s.mem) s.ques t := by
  obtain ⟨-, -, -, -, -, -, hinit, -⟩ := h
  subst ht
  refine ⟨?_, ?_, ?_, ?_, ?_, fun f hf => rd_reg_kind _ _ _ _ hf, rd_reg_apart _ _ _ (by decide) (by decide), rd_reg_same _ _ _ (by decide)⟩
  all_goals simp only [strOf, apply_reg]
  exact hinit

theorem upRun_streams (h : Streaming s p k r b Q x.1) (f : StrRun → StrRun) : Streaming s p k (f r) b Q (upRun p k f x).2.1 := by
  obtain ⟨hrun, hstore, hques, hnv, hvlt, hregs, hdesc, hstate⟩ := h
  rw [upRun, upStr_run]
  refine ⟨?_, ?_, ?_, ?_, ?_, fun g hg => ?_, ?_, ?_⟩
  · simp only [strOf, apply_str, tget_tset_self]
    exact congrArg f hrun
  all_goals simp only [apply_str]
  · exact hstore
  · exact hques
  · exact hnv
  · exact hvlt
  · exact hregs g hg
  · exact hdesc
  · exact hstate

/-- The map of memory as the streamer meets it. -/
theorem Streaming.regionOf (h : Streaming s p k r b Q t) (a : Nat) : regionOf t a = regionOf s a := by
  have hunavail (q : Nat) : unavail t q = unavail s q := by rw [unavail, unavail, h.regs _ (by nofun)]
  simp only [Machine.regionOf, hunavail]

theorem Streaming.accessOk (h : Streaming s p k r b Q t) (a len : Nat) : accessOk t a len = accessOk s a len := by
  have hunavail (q : Nat) : unavail t q = unavail s q := by rw [unavail, unavail, h.regs _ (by nofun)]
  simp only [Machine.accessOk, spanOk, h.regionOf, hunavail]

theorem Streaming.chanFailed (h : Streaming s p k r b Q t) (a len : Nat) : chanFailed t a len = chanFailed s a len := by
  have hfailed (c : Nat) : t1Failed t c = t1Failed s c := by rw [t1Failed, t1Failed, h.regs _ (by nofun)]
  have hall : t1Failed t = t1Failed s := funext hfailed
  simp only [Machine.chanFailed, h.regionOf, hall]

/-- Before its writes the streamer reads what stood at the beginning. -/
theorem Streaming.peek (h : Streaming s p k r (s.bytes, s.mem) Q t) (a len : Nat) : peek t a len = peek s a len := by
  obtain ⟨hbytes, hmem⟩ := Prod.mk.inj h.store
  have hbyte (c : Nat) : byteOf t c = byteOf s c := by rw [byteOf, byteOf, hbytes, hmem, h.nv]
  simp only [Machine.peek, hbytes, hmem, hbyte]

/-- A plain read of a move. -/
theorem strRead_plain (h : Streaming s p k r (s.bytes, s.mem) Q x.1) (herrs : s.mem.errs = []) (hpages : s.mem.badPages = [])
    (hok : accessOk s a len = true) (hchan : chanFailed s a len = false) :
    strRead p k a len x = (some (peek s a len), x) := by
  obtain ⟨-, hmem⟩ := Prod.mk.inj h.store
  have hread := readMem_plain x (rdr := RC.streamer) (unit := uidOf p 2 k) (a := a) (len := len) (by rw [hmem, herrs]) (by rw [hmem, hpages])
    ((h.chanFailed a len).trans hchan)
  rw [strRead, st_bind, h.accessOk, hok, if_neg (by decide), M.bind_run, hread, h.peek]
  rfl

/-- A plain write of a move: its bytes land. -/
theorem strWrite_plain {bs : List Byte} (h : Streaming s p k r (s.bytes, s.mem) Q x.1) (herrs : s.mem.errs = [])
    (hspan : PlainSpan s a bs.length) : ∃ y b', strWrite p k a bs x = (true, y) ∧ Streaming s p k r b' Q y.1 ∧
      ∀ i (hi : i < bs.length), tget 0 b'.1 (a + i) = bs[i] := by
  obtain ⟨hok, hvault, hchan⟩ := hspan
  by_cases hnil : bs = []
  · subst hnil
    exact ⟨x, _, by rw [strWrite, if_pos rfl, M.pure_run], h, fun i hi => absurd hi (by simp)⟩
  · obtain ⟨-, hmem⟩ := Prod.mk.inj h.store
    have hwrite := writeMem_plain x (rdr := RC.streamer) (unit := uidOf p 2 k) (a := a) bs ((h.chanFailed _ _).trans hchan) (by rw [hmem, herrs])
    refine ⟨⟨apply (.write a bs) x.1, .step x.2 _⟩, ((apply (.write a bs) x.1).bytes, (apply (.write a bs) x.1).mem), ?_,
      ⟨?_, rfl, ?_, ?_, ?_, fun g hg => ?_, ?_, ?_⟩, fun i hi => ?_⟩
    · rw [strWrite, if_neg hnil, st_bind, h.accessOk, hok, if_neg (by decide), hvault, if_neg (by decide), M.bind_run, hwrite]
      rfl
    · simp only [strOf, apply_write]
      exact h.run
    all_goals simp only [apply_write]
    · exact h.ques
    · exact h.nv
    · exact h.vlt
    · exact h.regs g hg
    · exact h.desc
    · exact h.state
    · exact tget_twrite_in _ _ _ _ hi

end Streaming

end Sys2Proof.Machine
end

section
/-!
PROOFS. The descriptors of a streamer (R82 to R87, R454), piece by piece, and the grants of its die's slope limiter.
-/

set_option Elab.async false

namespace Sys2Proof.Machine

variable {o s t : State} {p k : Nat} {d : SDesc} {r r' : StrRun} {b : Tbl Byte × Mem} {Q : Tbl Que} {x y : Trace o} {a q : Nat} {E : State → Prop}

/-- A streamer's progress in its table. -/
theorem Streaming.tget_run (h : Streaming s p k r b Q t) : (tget Str.init t.strs (16 * p + k)).run = r := h.run

/-! From piece to piece. -/

/-- The descriptor runs once, waits for no queue of its own and for no commit of the journal. -/
abbrev RunsOnce (s : State) (p k : Nat) (d : SDesc) : Prop :=
  d.reps = 1 ∧ d.preEn = false ∧ d.postEn = false ∧ s.vlt.waiting.contains (strKey (uidOf p 2 k)) = false

theorem strStep_moves (h : Streaming s p k r b Q x.1) (hpre : d.preEn = false) (hmoved : r.moved = false) {go : Bool}
    (hmove : moveStep p k d x = (some go, y)) : strStep p k d x = (go, y) := by
  rw [strStep, st_bind]
  simp only [h.tget_run, hpre, hmoved, Bool.false_eq_true, false_and, if_false, Bool.not_false, if_true, M.bind_run, hmove, M.pure_run]

/-- The moves of a descriptor are done. -/
theorem strStep_moved (h : Streaming s p k r b Q x.1) (hpre : d.preEn = false) (hmoved : r.moved = false) (hout : r.outB = [])
    (hmove : moveStep p k d x = (none, y)) (hplain : (d.isRow && d.dstKind == 0 && isVault d.dst && decide (d.rows ≠ 0)) = false) :
    strStep p k d x = (true, (upRun p k (fun r => { r with moved := true }) y).2) := by
  rw [strStep, st_bind]
  simp only [h.tget_run, hpre, hmoved, hout, Bool.false_eq_true, false_and, and_false, if_false, Bool.not_false, if_true, M.bind_run, hmove,
    ne_eq, not_true_eq_false, hplain, M.pure_run, when_run]

/-- Its moves done, the descriptor is finished. -/
theorem strStep_ends (h : Streaming s p k r b Q x.1) (honce : RunsOnce s p k d) (hmoved : r.moved = true) (hreps : r.reps = 0) :
    strStep p k d x = (false, (strNext p k x).2) := by
  obtain ⟨hone, hpre, hpost, hwaits⟩ := honce
  rw [strStep, st_bind]
  simp only [h.tget_run, hpre, hmoved, h.vlt, hwaits, hpost, hreps, hone, Bool.false_eq_true, false_and, if_false, Bool.not_true, M.bind_run,
    M.pure_run, when_run, Nat.lt_irrefl, Nat.zero_add]

theorem strNext_reads (h : Streaming s p k r b Q x.1) :
    DescDone s (strNext p k x).2.1 p k ∧ (strNext p k x).2.1.bytes = b.1 ∧ (strNext p k x).2.1.ques = Q ∧
      ∀ f : Fld, f.k ≠ .PART_STR_STAT → (strNext p k x).2.1.rd f = s.rd f := by
  rw [strNext, M.bind_run, M.bind_run, rd_run, wr_run, upRun, upStr_run]
  obtain ⟨hbytes, -⟩ := Prod.mk.inj h.store
  refine ⟨⟨?_, ?_, ?_⟩, ?_, ?_, fun f hf => ?_⟩
  · simp (disch := decide) only [apply_str, rd_reg_same, h.desc, Nat.reducePow]
  · simp (disch := decide) only [apply_str, rd_reg_apart, h.state]
  · simp only [strOf, apply_str, tget_tset_self]
  · simp only [apply_str, apply_reg]
    exact hbytes
  · simp only [apply_str, apply_reg, h.ques]
  · simp only [apply_str]
    exact (rd_reg_kind _ _ _ _ hf).trans (h.regs f hf)

/-- With nothing left to move the streamer goes to the next descriptor. -/
theorem moved_ends (h : Streaming s p k r b Q x.1) (honce : RunsOnce s p k d) (hmoved : r.moved = false) (hout : r.outB = [])
    (hmove : moveStep p k d x = (none, y)) (hplain : (d.isRow && d.dstKind == 0 && isVault d.dst && decide (d.rows ≠ 0)) = false)
    (hy : Streaming s p k r' b Q y.1) (hreps : r'.reps = 0) (hE : ∀ t, DescDone s t p k → t.bytes = b.1 → t.ques = Q → E t) :
    Ends (strStep p k d) E 2 x := by
  obtain ⟨-, hpre, -⟩ := id honce
  have hlast := upRun_streams hy fun r => { r with moved := true }
  obtain ⟨hdone, hbytes, hques, -⟩ := strNext_reads hlast
  exact .go (strStep_moved h hpre hmoved hout hmove hplain) (.stop (strStep_ends hlast honce rfl hreps) (hE _ hdone hbytes hques))

/-- A descriptor that moves nothing. -/
theorem moveStep_nothing (x : Trace o) (hopc : d.opc = 0 ∨ d.opc = 6) : moveStep p k d x = (none, x) := by
  have hidle : (d.isRow = true ∨ d.isPanel = true) ↔ False := by
    obtain hopc | hopc := hopc <;> simp [SDesc.isRow, SDesc.isPanel, hopc]
  rw [moveStep, M.bind_run, strm_run, if_neg (by rw [hidle]; simp)]
  obtain hopc | hopc := hopc
  · simp only [hopc, M.pure_run]
  · simp only [hopc, M.pure_run]

theorem streamerNop_does (h : StrAt s p k d) (hopc : d.opc = 0) (honce : RunsOnce s p k d) : Does (.streamerNop p k) s (DescDone s · p k) := by
  obtain ⟨hp, hk, -⟩ := id h
  refine strRun_does h hopc rfl (by simp [Instr.wf, hp, hk]) (j := 2) (by decide) fun x hx => ?_
  exact moved_ends (h.begins hx) honce rfl rfl (moveStep_nothing x (.inl hopc)) (by simp [SDesc.isRow, hopc]) (h.begins hx) rfl fun _ hdone _ _ => hdone

/-! Rows. -/

theorem SDesc.src_lt (d : SDesc) : d.src < 2 ^ 56 := fget_lt ..

theorem SDesc.dst_lt (d : SDesc) : d.dst < 2 ^ 56 := fget_lt ..

/-- The first row stands at the base address. -/
theorem strAddr_zero {base : Nat} (hbase : base < 2 ^ 56) (stride : Int) : strAddr base 0 stride = some base := by
  have hfits : (0 : Int) ≤ (base : Int) + (0 : Nat) * stride ∧ (base : Int) + (0 : Nat) * stride < 2 ^ 56 := by
    simp only [Nat.cast_zero, zero_mul, add_zero]
    omega
  simp only [strAddr, if_pos hfits]
  simp

/-- The bytes `bs` stand at `a`. -/
def Landed (l : Tbl Byte) (a : Nat) (bs : List Byte) : Prop := ∀ i (hi : i < bs.length), tget 0 l (a + i) = bs[i]

theorem Landed.byte {l : Tbl Byte} {bs : List Byte} (h : Landed l a bs) (ht : t.bytes = l) {i : Nat} (hi : i < bs.length) :
    byteAt t (a + i) = bs.getD i 0 := by
  rw [byteAt, ht, h i hi, List.getD_eq_getElem _ _ hi]

/-- One row or panel is delivered to its address. -/
theorem strPut_plain {bs : List Byte} (h : Streaming s p k r (s.bytes, s.mem) Q x.1) (herrs : s.mem.errs = []) (hdst : d.dstKind = 0)
    (hspan : PlainSpan s a bs.length) : ∃ y b', strPut p k d (some a) bs x = (true, y) ∧
      Streaming s p k { r with row := r.row + 1 } b' Q y.1 ∧ Landed b'.1 a bs := by
  obtain ⟨y, b', hwrite, hy, hland⟩ := strWrite_plain h herrs hspan
  refine ⟨_, b', ?_, upRun_streams hy fun r => { r with row := r.row + 1 }, hland⟩
  rw [strPut, if_neg (by rw [hdst]; decide)]
  simp only [M.bind_run, hwrite, if_true, M.pure_run]

/-- The first row of COPY, whatever its source. -/
theorem copyRow_plain {bs : List Byte} (h : Streaming s p k r (s.bytes, s.mem) Q x.1) (hfirst : r.row = 0) (herrs : s.mem.errs = [])
    (hpages : s.mem.badPages = []) (hdst : d.dstKind = 0) (hspan : PlainSpan s d.dst bs.length)
    (hsrc : (d.srcKind = 0 ∧ PlainSpan s d.src d.rowBytes ∧ bs = peek s d.src d.rowBytes) ∨ (d.srcKind = 2 ∧ bs = zeros d.rowBytes)) :
    ∃ y b', copyRow p k d x = (true, y) ∧ Streaming s p k { r with row := r.row + 1 } b' Q y.1 ∧ Landed b'.1 d.dst bs := by
  obtain ⟨y, b', hput, hy, hland⟩ := strPut_plain h herrs hdst hspan
  refine ⟨y, b', ?_, hy, hland⟩
  rw [copyRow, M.bind_run, strm_run]
  simp only [h.tget_run, hfirst, strAddr_zero d.dst_lt, strAddr_zero d.src_lt]
  obtain ⟨hkind, ⟨hok, -, hchan⟩, rfl⟩ | ⟨hkind, rfl⟩ := hsrc
  · rw [if_neg (by rw [hkind]; decide), if_neg (by rw [hkind]; decide), M.bind_run, strRead_plain h herrs hpages hok hchan]
    exact hput
  · simp only [hkind, if_true, hput]

/-- No full slot waits for the destination queue. -/
theorem not_flushes (hout : r.outB = []) : ¬ (d.dstKind = 1 ∧ (d.isRow = true ∨ d.isPanel = true) ∧ 256 ≤ r.outB.length) := by
  simp [hout]

theorem moveStep_copy (h : Streaming s p k r b Q x.1) (hout : r.outB = []) (hopc : d.opc = 1) {go : Bool}
    (hrow : r.row < d.rows) (hcopy : copyRow p k d x = (go, y)) : moveStep p k d x = (some go, y) := by
  rw [moveStep, M.bind_run, strm_run]
  simp only [if_neg (not_flushes hout), h.tget_run, hopc, if_pos hrow, M.bind_run, hcopy, M.pure_run]

theorem moveStep_copied (h : Streaming s p k r b Q x.1) (hout : r.outB = []) (hopc : d.opc = 1) (hrow : d.rows ≤ r.row) :
    moveStep p k d x = (none, x) := by
  rw [moveStep, M.bind_run, strm_run]
  simp only [if_neg (not_flushes hout), h.tget_run, hopc, if_neg (Nat.not_lt.mpr hrow), M.pure_run]

/-- COPY of one row, whatever its source. -/
theorem streamerCopy_does {bs : List Byte} (h : StrAt s p k d) (hopc : d.opc = 1) (honce : RunsOnce s p k d) (hdst : d.dstKind = 0)
    (hrows : d.rows = 1) (hspan : PlainSpan s d.dst bs.length)
    (hsrc : (d.srcKind = 0 ∧ PlainSpan s d.src d.rowBytes ∧ bs = peek s d.src d.rowBytes) ∨ (d.srcKind = 2 ∧ bs = zeros d.rowBytes)) :
    Does (.streamerCopy p k Flt.none) s fun t => DescDone s t p k ∧ ∀ i < bs.length, byteAt t (d.dst + i) = bs.getD i 0 := by
  obtain ⟨hp, hk, -, -, -, -, -, -, herrs, hpages, -⟩ := id h
  obtain ⟨-, hpre, -⟩ := id honce
  obtain ⟨-, hvault, -⟩ := id hspan
  refine strRun_does h hopc rfl (by simp [Instr.wf, hp, hk]) (j := 3) (by decide) fun x hx => ?_
  have hbegin := h.begins hx
  obtain ⟨y, b', hcopy, hy, hland⟩ := copyRow_plain hbegin rfl herrs hpages hdst hspan hsrc
  refine .go (strStep_moves hbegin hpre rfl (moveStep_copy hbegin rfl hopc (by rw [hrows]; decide) hcopy)) ?_
  refine moved_ends hy honce rfl rfl (moveStep_copied hy rfl hopc (by rw [hrows]; decide)) (by simp [hvault]) hy rfl fun t hdone hbytes _ => ?_
  exact ⟨hdone, fun i hi => hland.byte hbytes hi⟩


/-! The index stream. -/

/-- The queues of `s` once the oldest slot of queue q has been popped. -/
def poppedOf (s : State) (p q : Nat) : Tbl Que := tset Que.init s.ques (1024 * p + q) { queOf s p q with rd := (queOf s p q).rd + 1 }

theorem queOf_popped (h : t.ques = poppedOf s p q) : queOf t p q = { queOf s p q with rd := (queOf s p q).rd + 1 } := by
  rw [queOf, h, poppedOf, tget_tset_self]

/-- The entries of the oldest index slot. -/
abbrev slotEntries (s : State) (p q : Nat) : List Nat := idxEntries (peek s (qSlot s p q (queOf s p q).rd) 256)

/-- A published slot of a queue is popped. -/
theorem strPop_plain (h : Streaming s p k r (s.bytes, s.mem) s.ques x.1) (hp : p < 8) (herrs : s.mem.errs = []) (hpages : s.mem.badPages = [])
    (hsome : 0 < qAvail s p q) : ∃ y, strPop p k q x = (some (peek s (qSlot s p q (queOf s p q).rd) 256), y) ∧
      Streaming s p k r (s.bytes, s.mem) (poppedOf s p q) y.1 := by
  obtain ⟨hbytes, hmem⟩ := Prod.mk.inj h.store
  have hque : queOf x.1 p q = queOf s p q := queOf_of_ques h.ques
  have havail : ¬ qAvail x.1 p q = 0 := by
    rw [qAvail, hque]
    exact Nat.pos_iff_ne_zero.mp hsome
  have hslot (i : Nat) : qSlot x.1 p q i = qSlot s p q i := by rw [qSlot, qSlot, h.regs _ (by nofun), h.regs _ (by nofun)]
  have hread := readMem_plain x (rdr := rdrOf (uidOf p 2 k)) (unit := uidOf p 2 k) (by rw [hmem, herrs]) (by rw [hmem, hpages])
    (chanFailed_onChip x.1 256 (onChip_qSlot (q := q) s hp (queOf s p q).rd))
  refine ⟨(upQue p q (fun y => { y with rd := y.rd + 1 }) x).2, ?_, ?_⟩
  · rw [strPop, M.bind_run, popSlot, st_bind, if_neg havail, hque, hslot, M.bind_run, hread, h.peek]
    rfl
  · rw [upQue_run]
    refine ⟨?_, ?_, ?_, ?_, ?_, fun g hg => ?_, ?_, ?_⟩
    all_goals simp only [strOf, apply_que]
    · exact h.run
    · exact h.store
    · rw [h.ques]
      rfl
    · exact h.nv
    · exact h.vlt
    · exact h.regs g hg
    · exact h.desc
    · exact h.state

/-- Without entries at hand the next index slot is popped. -/
theorem nextIdx_pops {cnt lim : Nat} (h : Streaming s p k r (s.bytes, s.mem) s.ques x.1) (hp : p < 8) (hend : r.idxEnd = false)
    (hrest : r.idxRest = []) (herrs : s.mem.errs = []) (hpages : s.mem.badPages = []) (hsome : 0 < qAvail s p d.idxQ) :
    ∃ y, nextIdx p k d cnt lim x = (.wait, y) ∧
      Streaming s p k { r with idxRest := slotEntries s p d.idxQ } (s.bytes, s.mem) (poppedOf s p d.idxQ) y.1 := by
  obtain ⟨y, hpop, hy⟩ := strPop_plain h hp herrs hpages hsome
  refine ⟨_, ?_, upRun_streams hy fun r => { r with idxRest := slotEntries s p d.idxQ }⟩
  rw [nextIdx, M.bind_run, strm_run]
  simp only [h.tget_run, hend, hrest, Bool.false_eq_true, if_false, M.bind_run, hpop, M.pure_run]

/-- The next entry of the slot at hand. -/
theorem nextIdx_takes {cnt lim e : Nat} {l : List Nat} (h : Streaming s p k r b Q x.1) (hend : r.idxEnd = false) (hrest : r.idxRest = e :: l)
    (he : e < IX.PAD) (hcnt : cnt < lim) (hlimit : d.idxLimit = 0 ∨ e < d.idxLimit) :
    nextIdx p k d cnt lim x = (.entry e, (upRun p k (fun r => { r with idxRest := l }) x).2) := by
  rw [nextIdx, M.bind_run, strm_run]
  simp only [h.tget_run, hend, hrest, Bool.false_eq_true, if_false]
  rw [if_neg (by unfold IX.PAD at he; unfold IX.END; omega), if_neg (by omega), if_neg (by omega), M.bind_run, M.pure_run]

/-- END ends the stream. -/
theorem nextIdx_ends {cnt lim : Nat} {l : List Nat} (h : Streaming s p k r b Q x.1) (hend : r.idxEnd = false) (hrest : r.idxRest = IX.END :: l) :
    nextIdx p k d cnt lim x = (.done, (upRun p k (fun r => { r with idxEnd := true, idxRest := [] }) x).2) := by
  rw [nextIdx, M.bind_run, strm_run]
  simp only [h.tget_run, hend, hrest, Bool.false_eq_true, if_false, if_true, M.bind_run, M.pure_run]

/-- The oldest index slot of a descriptor holds one entry in range. -/
abbrev OneEntry (s : State) (p : Nat) (d : SDesc) (e : Nat) (l : List Nat) : Prop :=
  0 < qAvail s p d.idxQ ∧ slotEntries s p d.idxQ = e :: IX.END :: l ∧ e < IX.PAD ∧ (d.idxLimit = 0 ∨ e < d.idxLimit)

/-! Indexed rows. -/

theorem moveStep_gather (hopc : d.opc = 2) (h : Streaming s p k r b Q x.1) (hout : r.outB = []) : moveStep p k d x = gatherRow p k d x := by
  rw [moveStep, M.bind_run, strm_run]
  simp only [h.tget_run, if_neg (not_flushes hout), hopc]

theorem moveStep_scatter (hopc : d.opc = 3) (h : Streaming s p k r b Q x.1) (hout : r.outB = []) : moveStep p k d x = scatterRow p k d x := by
  rw [moveStep, M.bind_run, strm_run]
  simp only [h.tget_run, if_neg (not_flushes hout), hopc]

theorem gatherRow_waits (h : Streaming s p k r b Q x.1) (hidx : nextIdx p k d r.row d.rows x = (.wait, y)) : gatherRow p k d x = (some true, y) := by
  rw [gatherRow, M.bind_run, strm_run]
  simp only [h.tget_run, M.bind_run, hidx, M.pure_run]

theorem gatherRow_ends (h : Streaming s p k r b Q x.1) (hidx : nextIdx p k d r.row d.rows x = (.done, y)) : gatherRow p k d x = (none, y) := by
  rw [gatherRow, M.bind_run, strm_run]
  simp only [h.tget_run, M.bind_run, hidx, M.pure_run]

/-- The first row of GATHER. -/
theorem gatherRow_plain {e : Nat} (h : Streaming s p k r b Q x.1) (hfirst : r.row = 0) (hidx : nextIdx p k d r.row d.rows x = (.entry e, y))
    (hy : Streaming s p k r' (s.bytes, s.mem) Q y.1) (he : e < IX.PAD) (herrs : s.mem.errs = []) (hpages : s.mem.badPages = [])
    (hdst : d.dstKind = 0) (haddr : strAddr d.src e d.srcStride = some a) (hsrc : PlainSpan s a d.rowBytes) (hspan : PlainSpan s d.dst d.rowBytes) :
    ∃ z b', gatherRow p k d x = (some true, z) ∧ Streaming s p k { r' with row := r'.row + 1 } b' Q z.1 ∧ Landed b'.1 d.dst (peek s a d.rowBytes) := by
  obtain ⟨hok, -, hchan⟩ := hsrc
  obtain ⟨z, b', hput, hz, hland⟩ := strPut_plain (d := d) (bs := peek s a d.rowBytes) hy herrs hdst (by rw [peek_length]; exact hspan)
  refine ⟨z, b', ?_, hz, hland⟩
  rw [gatherRow, M.bind_run, strm_run]
  simp only [h.tget_run, hfirst] at hidx ⊢
  simp only [M.bind_run, hidx, strAddr_zero d.dst_lt, if_neg (Nat.ne_of_lt he), haddr, strRead_plain hy herrs hpages hok hchan, hput, M.pure_run]

theorem gather_does {e : Nat} {l : List Nat} (h : StrAt s p k d) (hopc : d.opc = 2) (honce : RunsOnce s p k d) (hdst : d.dstKind = 0)
    (hrows : 0 < d.rows) (hentry : OneEntry s p d e l) (haddr : strAddr d.src e d.srcStride = some a) (hsrc : PlainSpan s a d.rowBytes)
    (hspan : PlainSpan s d.dst d.rowBytes) : Does (.gather p k Flt.none) s fun t => DescDone s t p k ∧
      (queOf t p d.idxQ).rd = (queOf s p d.idxQ).rd + 1 ∧ ∀ i < d.rowBytes, byteAt t (d.dst + i) = (peek s a d.rowBytes).getD i 0 := by
  obtain ⟨hp, hk, -, -, -, -, -, -, herrs, hpages, -⟩ := id h
  obtain ⟨-, hpre, -⟩ := id honce
  obtain ⟨-, hvault, -⟩ := id hspan
  obtain ⟨hsome, hslot, he, hlimit⟩ := hentry
  refine strRun_does h hopc rfl (by simp [Instr.wf, hp, hk]) (j := 4) (by decide) fun x hx => ?_
  have hbegin := h.begins hx
  obtain ⟨y, hpops, hy⟩ := nextIdx_pops (d := d) (cnt := 0) (lim := d.rows) hbegin hp rfl rfl herrs hpages hsome
  rw [hslot] at hy
  have htakes := nextIdx_takes (d := d) (cnt := 0) (lim := d.rows) hy rfl rfl he hrows hlimit
  obtain ⟨z, b', hrow, hz, hland⟩ := gatherRow_plain hy rfl htakes (upRun_streams hy fun r => { r with idxRest := IX.END :: l }) he herrs hpages
    hdst haddr hsrc hspan
  have hends := nextIdx_ends (d := d) (cnt := 1) (lim := d.rows) hz rfl rfl
  refine .go (strStep_moves hbegin hpre rfl ((moveStep_gather hopc hbegin rfl).trans (gatherRow_waits hbegin hpops))) ?_
  refine .go (strStep_moves hy hpre rfl ((moveStep_gather hopc hy rfl).trans hrow)) ?_
  refine moved_ends hz honce rfl rfl ((moveStep_gather hopc hz rfl).trans (gatherRow_ends hz hends)) (by simp [hvault])
    (upRun_streams hz fun r => { r with idxEnd := true, idxRest := [] }) rfl fun t hdone hbytes hques => ⟨hdone, ?_, fun i hi => ?_⟩
  · rw [queOf_popped hques]
  · exact hland.byte hbytes (by rwa [peek_length])

theorem scatterRow_waits (h : Streaming s p k r b Q x.1) (hidx : nextIdx p k d r.row d.rows x = (.wait, y)) : scatterRow p k d x = (some true, y) := by
  rw [scatterRow, M.bind_run, strm_run]
  simp only [h.tget_run, M.bind_run, hidx, M.pure_run]

theorem scatterRow_ends (h : Streaming s p k r b Q x.1) (hidx : nextIdx p k d r.row d.rows x = (.done, y)) : scatterRow p k d x = (none, y) := by
  rw [scatterRow, M.bind_run, strm_run]
  simp only [h.tget_run, M.bind_run, hidx, M.pure_run]

/-- The first row of SCATTER. -/
theorem scatterRow_plain {e : Nat} (h : Streaming s p k r b Q x.1) (hfirst : r.row = 0) (hidx : nextIdx p k d r.row d.rows x = (.entry e, y))
    (hy : Streaming s p k r' (s.bytes, s.mem) Q y.1) (he : e < IX.PAD) (herrs : s.mem.errs = []) (hpages : s.mem.badPages = [])
    (hdst : d.dstKind = 0) (hkind : d.srcKind = 0) (haddr : strAddr d.dst e d.dstStride = some a) (hsrc : PlainSpan s d.src d.rowBytes)
    (hspan : PlainSpan s a d.rowBytes) : ∃ z b', scatterRow p k d x = (some true, z) ∧
      Streaming s p k { r' with row := r'.row + 1 } b' Q z.1 ∧ Landed b'.1 a (peek s d.src d.rowBytes) := by
  obtain ⟨hok, -, hchan⟩ := hsrc
  obtain ⟨z, b', hput, hz, hland⟩ := strPut_plain (d := d) (bs := peek s d.src d.rowBytes) hy herrs hdst (by rw [peek_length]; exact hspan)
  refine ⟨z, b', ?_, hz, hland⟩
  have hqueue : ¬ d.srcKind = 1 := by rw [hkind]; decide
  rw [scatterRow, M.bind_run, strm_run]
  simp only [h.tget_run, hfirst] at hidx ⊢
  simp only [M.bind_run, hidx, if_neg hqueue, strAddr_zero d.src_lt, strRead_plain hy herrs hpages hok hchan, if_neg (Nat.ne_of_lt he), haddr, hput,
    M.pure_run]

/-- An indexed destination is an address. -/
theorem dstKind_of_scatter {u : Nat} (hlegal : descLegal s p u d = true) (hopc : d.opc = 3) : d.dstKind = 0 := by
  simp only [descLegal, Bool.and_eq_true] at hlegal
  obtain ⟨⟨⟨⟨⟨⟨⟨-, hkind⟩, -⟩, -⟩, -⟩, -⟩, -⟩, -⟩ := hlegal
  simpa [hopc] using hkind

theorem scatter_does {e : Nat} {l : List Nat} (h : StrAt s p k d) (hopc : d.opc = 3) (honce : RunsOnce s p k d) (hkind : d.srcKind = 0)
    (hrows : 0 < d.rows) (hentry : OneEntry s p d e l) (haddr : strAddr d.dst e d.dstStride = some a) (hsrc : PlainSpan s d.src d.rowBytes)
    (hspan : PlainSpan s a d.rowBytes) (hvault : isVault d.dst = false) : Does (.scatter p k Flt.none) s fun t => DescDone s t p k ∧
      (queOf t p d.idxQ).rd = (queOf s p d.idxQ).rd + 1 ∧ ∀ i < d.rowBytes, byteAt t (a + i) = (peek s d.src d.rowBytes).getD i 0 := by
  obtain ⟨hp, hk, -, -, -, -, -, -, herrs, hpages, -, -, hlegal⟩ := id h
  obtain ⟨-, hpre, -⟩ := id honce
  obtain ⟨hsome, hslot, he, hlimit⟩ := hentry
  refine strRun_does h hopc rfl (by simp [Instr.wf, hp, hk]) (j := 4) (by decide) fun x hx => ?_
  have hbegin := h.begins hx
  obtain ⟨y, hpops, hy⟩ := nextIdx_pops (d := d) (cnt := 0) (lim := d.rows) hbegin hp rfl rfl herrs hpages hsome
  rw [hslot] at hy
  have htakes := nextIdx_takes (d := d) (cnt := 0) (lim := d.rows) hy rfl rfl he hrows hlimit
  obtain ⟨z, b', hrow, hz, hland⟩ := scatterRow_plain hy rfl htakes (upRun_streams hy fun r => { r with idxRest := IX.END :: l }) he herrs hpages
    (dstKind_of_scatter hlegal hopc) hkind haddr hsrc hspan
  have hends := nextIdx_ends (d := d) (cnt := 1) (lim := d.rows) hz rfl rfl
  refine .go (strStep_moves hbegin hpre rfl ((moveStep_scatter hopc hbegin rfl).trans (scatterRow_waits hbegin hpops))) ?_
  refine .go (strStep_moves hy hpre rfl ((moveStep_scatter hopc hy rfl).trans hrow)) ?_
  refine moved_ends hz honce rfl rfl ((moveStep_scatter hopc hz rfl).trans (scatterRow_ends hz hends)) (by simp [hvault])
    (upRun_streams hz fun r => { r with idxEnd := true, idxRest := [] }) rfl fun t hdone hbytes hques => ⟨hdone, ?_, fun i hi => ?_⟩
  · rw [queOf_popped hques]
  · exact hland.byte hbytes (by rwa [peek_length])

/-! Panels. -/

/-- The opcodes that move panels by an index stream. -/
abbrev PanelOp (d : SDesc) : Prop := d.opc = 4 ∨ d.opc = 5

/-- Entries are read before the panels move. -/
theorem moveStep_indexes (hopc : PanelOp d) (h : Streaming s p k r b Q x.1) (hout : r.outB = []) (hend : r.idxEnd = false) {i : Idx}
    (hidx : nextIdx p k d r.idx.length 128 x = (i, y)) : moveStep p k d x = match i with
      | .wait => (some true, y)
      | .failed => (some false, y)
      | .done => (some true, y)
      | .entry e => (some true, (upRun p k (fun r => { r with idx := r.idx ++ [e] }) y).2) := by
  rw [moveStep, M.bind_run, strm_run]
  obtain hopc | hopc := hopc
  all_goals
    simp only [h.tget_run, if_neg (not_flushes hout), hopc, hend, Bool.not_false, if_true, M.bind_run, hidx]
    cases i <;> rfl

/-- The panels of an execution are done. -/
theorem moveStep_paneled (hopc : PanelOp d) (h : Streaming s p k r b Q x.1) (hout : r.outB = []) (hend : r.idxEnd = true) (hrow : d.np ≤ r.row) :
    moveStep p k d x = (none, x) := by
  rw [moveStep, M.bind_run, strm_run]
  obtain hopc | hopc := hopc
  all_goals
    simp only [h.tget_run, if_neg (not_flushes hout), hopc, hend, Bool.not_true, Bool.false_eq_true, if_false, if_pos (Or.inr hrow), M.pure_run]

/-- A panel moves once its index stream has ended. -/
theorem moveStep_panel (h : Streaming s p k r b Q x.1) (hout : r.outB = []) (hend : r.idxEnd = true) (hidx : r.idx ≠ []) (hrow : r.row < d.np) {go : Bool}
    (hmove : (d.opc = 4 ∧ pgatherPanel p k d x = (go, y)) ∨ (d.opc = 5 ∧ pscatterPanel p k d x = (go, y))) : moveStep p k d x = (some go, y) := by
  have hmore : ¬ (r.idx = [] ∨ d.np ≤ r.row) := by
    rintro (hnil | hle)
    · exact hidx hnil
    · omega
  rw [moveStep, M.bind_run, strm_run]
  obtain ⟨hopc, hmove⟩ | ⟨hopc, hmove⟩ := hmove
  · simp only [h.tget_run, if_neg (not_flushes hout), hopc, hend, Bool.not_true, Bool.false_eq_true, if_false, if_neg hmore, if_true, M.bind_run, hmove,
      M.pure_run]
  · simp only [h.tget_run, if_neg (not_flushes hout), hopc, hend, Bool.not_true, Bool.false_eq_true, if_false, if_neg hmore,
      if_neg (show ¬ (5 : Nat) = 4 by decide), M.bind_run, hmove, M.pure_run]

/-- A descriptor of one index and one panel: the slot is popped, its entry and its END are taken, the panel moves. -/
theorem onePanel_ends {x : Trace s} {e : Nat} {l : List Nat} {bs : List Byte} (h : StrAt s p k d) (hx : Streaming s p k StrRun.init (s.bytes, s.mem) s.ques x.1)
    (hopc : PanelOp d) (honce : RunsOnce s p k d) (hnp : d.np = 1) (hentry : OneEntry s p d e l)
    (hpanel : ∀ z : Trace s, Streaming s p k { StrRun.init with idxEnd := true, idx := [e] } (s.bytes, s.mem) (poppedOf s p d.idxQ) z.1 →
      ∃ w b', moveStep p k d z = (some true, w) ∧
        Streaming s p k { StrRun.init with idxEnd := true, idx := [e], row := 1 } b' (poppedOf s p d.idxQ) w.1 ∧ Landed b'.1 a bs) :
    Ends (strStep p k d) (fun t => DescDone s t p k ∧ ∀ i < bs.length, byteAt t (a + i) = bs.getD i 0) 6 x := by
  obtain ⟨hp, -, -, -, -, -, -, -, herrs, hpages, -⟩ := id h
  obtain ⟨-, hpre, -⟩ := id honce
  obtain ⟨hsome, hslot, he, hlimit⟩ := hentry
  have hrow : d.isRow = false := by
    obtain hopc | hopc := hopc <;> simp [SDesc.isRow, hopc]
  obtain ⟨y, hpops, hy⟩ := nextIdx_pops (d := d) (cnt := 0) (lim := 128) hx hp rfl rfl herrs hpages hsome
  rw [hslot] at hy
  have htakes := nextIdx_takes (d := d) (cnt := 0) (lim := 128) hy rfl rfl he (by decide) hlimit
  have hz := upRun_streams (upRun_streams hy fun r => { r with idxRest := IX.END :: l }) fun r => { r with idx := r.idx ++ [e] }
  have hends := nextIdx_ends (d := d) (cnt := 1) (lim := 128) hz rfl rfl
  have hz' := upRun_streams hz fun r => { r with idxEnd := true, idxRest := [] }
  obtain ⟨w, b', hmove, hw, hland⟩ := hpanel _ hz'
  refine .go (strStep_moves hx hpre rfl (moveStep_indexes hopc hx rfl rfl hpops)) ?_
  refine .go (strStep_moves hy hpre rfl (moveStep_indexes hopc hy rfl rfl htakes)) ?_
  refine .go (strStep_moves hz hpre rfl (moveStep_indexes hopc hz rfl rfl hends)) ?_
  refine .go (strStep_moves hz' hpre rfl hmove) ?_
  exact moved_ends hw honce rfl rfl (moveStep_paneled hopc hw rfl rfl (by rw [hnp])) (by simp [hrow]) hw rfl
    fun t hdone hbytes _ => ⟨hdone, fun i hi => hland.byte hbytes hi⟩

/-- The lanes of a panel fit it. -/
theorem lanes_le_panel (f : Nat) : 128 * laneBytes f ≤ panelBytes f := by
  unfold panelBytes panelSlots
  omega

theorem zeroLane_length (f : Nat) : (zeroLane f).length = laneBytes f := by
  unfold zeroLane laneBytes
  split
  · rw [zeroRecord, padTo_length]
    simp only [List.length_singleton, cbRecBytes]
    omega
  · rw [zeros, List.length_replicate]

/-- The panel of one gathered lane. -/
def lanePanel (f : Nat) (lane : List Byte) : List Byte :=
  padTo (panelBytes f) (lane ++ (List.replicate 127 (zeroLane f, (0 : Byte))).flatMap (·.1))

theorem lanePanel_length {f : Nat} {lane : List Byte} (hlane : lane.length = laneBytes f) : (lanePanel f lane).length = panelBytes f := by
  refine padTo_length ?_
  have hfits := lanes_le_panel f
  simp only [List.length_append, List.length_flatMap, List.map_replicate, List.sum_replicate, zeroLane_length, hlane, smul_eq_mul]
  omega

theorem lanePanel_get {f : Nat} {lane : List Byte} {i : Nat} (hi : i < lane.length) : (lanePanel f lane).getD i 0 = lane.getD i 0 := by
  rw [lanePanel, padTo, List.append_assoc, List.getD_append _ _ _ _ hi]

/-- The lane that the one entry of a gathered panel names. -/
theorem pgatherLanes_one {e : Nat} (h : Streaming s p k r (s.bytes, s.mem) Q x.1) (he : e < IX.PAD) (herrs : s.mem.errs = [])
    (hpages : s.mem.badPages = []) (hscale : hasScale d.fmt = false) (haddr : strAddr d.src (e / 128) d.srcStride = some a)
    (hsrc : PlainSpan s (a + e % 128 * laneBytes d.fmt) (laneBytes d.fmt)) :
    pgatherLanes p k d 0 [e] x = (some [(peek s (a + e % 128 * laneBytes d.fmt) (laneBytes d.fmt), 0)], x) := by
  obtain ⟨hok, -, hchan⟩ := hsrc
  have hread := strRead_plain h herrs hpages hok hchan
  rw [pgatherLanes]
  simp only [if_neg (Nat.ne_of_lt he), haddr, Nat.zero_mul, Nat.add_zero, M.bind_run, hread, hscale, Bool.false_eq_true, if_false, M.pure_run,
    pgatherLanes]

/-- The first panel of PGATHER. -/
theorem pgatherPanel_plain {e : Nat} (h : Streaming s p k r (s.bytes, s.mem) Q x.1) (hidx : r.idx = [e]) (hfirst : r.row = 0) (he : e < IX.PAD)
    (herrs : s.mem.errs = []) (hpages : s.mem.badPages = []) (hdst : d.dstKind = 0) (hscale : hasScale d.fmt = false)
    (haddr : strAddr d.src (e / 128) d.srcStride = some a) (hsrc : PlainSpan s (a + e % 128 * laneBytes d.fmt) (laneBytes d.fmt))
    (hspan : PlainSpan s d.dst (panelBytes d.fmt)) :
    ∃ z b', pgatherPanel p k d x = (true, z) ∧ Streaming s p k { r with row := r.row + 1 } b' Q z.1 ∧
      Landed b'.1 d.dst (lanePanel d.fmt (peek s (a + e % 128 * laneBytes d.fmt) (laneBytes d.fmt))) := by
  have hlen := lanePanel_length (peek_length s (a + e % 128 * laneBytes d.fmt) (laneBytes d.fmt))
  obtain ⟨z, b', hput, hz, hland⟩ := strPut_plain (d := d) h herrs hdst (by rw [hlen]; exact hspan)
  refine ⟨z, b', ?_, hz, hland⟩
  rw [pgatherPanel, M.bind_run, strm_run]
  simp only [h.tget_run, hidx, hfirst, M.bind_run, pgatherLanes_one h he herrs hpages hscale haddr hsrc, hscale, Bool.false_eq_true, if_false,
    Nat.zero_mul, strAddr_zero d.dst_lt, List.append_nil, List.length_singleton]
  exact hput

theorem pgather_does {e : Nat} {l : List Nat} (h : StrAt s p k d) (hopc : d.opc = 4) (honce : RunsOnce s p k d) (hdst : d.dstKind = 0)
    (hnp : d.np = 1) (hscale : hasScale d.fmt = false) (hentry : OneEntry s p d e l) (haddr : strAddr d.src (e / 128) d.srcStride = some a)
    (hsrc : PlainSpan s (a + e % 128 * laneBytes d.fmt) (laneBytes d.fmt)) (hspan : PlainSpan s d.dst (panelBytes d.fmt)) :
    Does (.pgather p k Flt.none) s fun t => DescDone s t p k ∧
      ∀ i < laneBytes d.fmt, byteAt t (d.dst + i) = (peek s (a + e % 128 * laneBytes d.fmt) (laneBytes d.fmt)).getD i 0 := by
  obtain ⟨hp, hk, -, -, -, -, -, -, herrs, hpages, -⟩ := id h
  obtain ⟨-, -, he, -⟩ := id hentry
  have hlane := peek_length s (a + e % 128 * laneBytes d.fmt) (laneBytes d.fmt)
  refine (strRun_does h hopc rfl (by simp [Instr.wf, hp, hk]) (Nat.le_refl 6) fun x hx => onePanel_ends (a := d.dst)
    (bs := lanePanel d.fmt (peek s (a + e % 128 * laneBytes d.fmt) (laneBytes d.fmt))) h (h.begins hx) (.inl hopc) honce hnp hentry fun z hz => ?_).mono
    fun t ⟨hdone, hbytes⟩ => ⟨hdone, fun i hi => ?_⟩
  · obtain ⟨w, b', hpanel, hw, hland⟩ := pgatherPanel_plain hz rfl rfl he herrs hpages hdst hscale haddr hsrc hspan
    exact ⟨w, b', moveStep_panel hz rfl rfl (by simp) (by rw [hnp]; exact Nat.zero_lt_one) (.inl ⟨hopc, hpanel⟩), hw, hland⟩
  · have hfits := lanes_le_panel d.fmt
    rw [hbytes i (by rw [lanePanel_length hlane]; omega), lanePanel_get (by rwa [hlane])]

/-- The lane that the one entry of a scattered panel names. -/
theorem pscatterLanes_one {e : Nat} {panel : List Byte} (h : Streaming s p k r (s.bytes, s.mem) Q x.1) (he : e < IX.PAD) (herrs : s.mem.errs = [])
    (hscale : hasScale d.fmt = false) (haddr : strAddr d.dst (e / 128) d.dstStride = some a)
    (hspan : PlainSpan s (a + e % 128 * laneBytes d.fmt) (panelLane d.fmt panel 0).length) :
    ∃ z b', pscatterLanes p k d 0 panel 0 [e] x = (true, z) ∧ Streaming s p k r b' Q z.1 ∧
      Landed b'.1 (a + e % 128 * laneBytes d.fmt) (panelLane d.fmt panel 0) := by
  obtain ⟨z, b', hwrite, hz, hland⟩ := strWrite_plain h herrs hspan
  refine ⟨z, b', ?_, hz, hland⟩
  rw [pscatterLanes]
  simp only [if_neg (Nat.ne_of_lt he), haddr, Nat.zero_mul, Nat.add_zero, M.bind_run, hwrite, Bool.not_true, hscale, Bool.false_eq_true, if_false,
    pscatterLanes, M.pure_run]

/-- The first panel of PSCATTER. -/
theorem pscatterPanel_plain {e : Nat} (h : Streaming s p k r (s.bytes, s.mem) Q x.1) (hidx : r.idx = [e]) (hfirst : r.row = 0) (he : e < IX.PAD)
    (herrs : s.mem.errs = []) (hpages : s.mem.badPages = []) (hkind : d.srcKind = 0) (hscale : hasScale d.fmt = false)
    (haddr : strAddr d.dst (e / 128) d.dstStride = some a) (hsrc : PlainSpan s d.src (panelBytes d.fmt))
    (hspan : PlainSpan s (a + e % 128 * laneBytes d.fmt) (panelLane d.fmt (peek s d.src (panelBytes d.fmt)) 0).length) :
    ∃ z b', pscatterPanel p k d x = (true, z) ∧ Streaming s p k { r with row := r.row + 1 } b' Q z.1 ∧
      Landed b'.1 (a + e % 128 * laneBytes d.fmt) (panelLane d.fmt (peek s d.src (panelBytes d.fmt)) 0) := by
  obtain ⟨hok, -, hchan⟩ := hsrc
  obtain ⟨z, b', hlanes, hz, hland⟩ := pscatterLanes_one h he herrs hscale haddr hspan
  refine ⟨_, b', ?_, upRun_streams hz fun r => { r with row := r.row + 1 }, hland⟩
  have hqueue : ¬ d.srcKind = 1 := by rw [hkind]; decide
  rw [pscatterPanel, M.bind_run, strm_run]
  simp only [h.tget_run, if_neg hqueue, hidx, hfirst, Nat.zero_mul, strAddr_zero d.src_lt, M.bind_run, strRead_plain h herrs hpages hok hchan,
    scatterPut, hlanes, if_true, M.pure_run]

/-- A lane of a panel is whole. -/
theorem firstLane_length {f : Nat} {panel : List Byte} (h : panel.length = panelBytes f) : (panelLane f panel 0).length = laneBytes f := by
  have hfits := lanes_le_panel f
  rw [panelLane, Nat.zero_mul, List.drop_zero, List.length_take, h]
  omega

theorem pscatter_does {e : Nat} {l : List Nat} (h : StrAt s p k d) (hopc : d.opc = 5) (honce : RunsOnce s p k d) (hkind : d.srcKind = 0)
    (hnp : d.np = 1) (hscale : hasScale d.fmt = false) (hentry : OneEntry s p d e l) (haddr : strAddr d.dst (e / 128) d.dstStride = some a)
    (hspan : PlainSpan s (a + e % 128 * laneBytes d.fmt) (laneBytes d.fmt)) (hsrc : PlainSpan s d.src (panelBytes d.fmt)) :
    Does (.pscatter p k Flt.none) s fun t => DescDone s t p k ∧ ∀ i < laneBytes d.fmt,
      byteAt t (a + e % 128 * laneBytes d.fmt + i) = (panelLane d.fmt (peek s d.src (panelBytes d.fmt)) 0).getD i 0 := by
  obtain ⟨hp, hk, -, -, -, -, -, -, herrs, hpages, -⟩ := id h
  obtain ⟨-, -, he, -⟩ := id hentry
  have hlane := firstLane_length (peek_length s d.src (panelBytes d.fmt))
  refine (strRun_does h hopc rfl (by simp [Instr.wf, hp, hk]) (Nat.le_refl 6) fun x hx => onePanel_ends (a := a + e % 128 * laneBytes d.fmt)
    (bs := panelLane d.fmt (peek s d.src (panelBytes d.fmt)) 0) h (h.begins hx) (.inr hopc) honce hnp hentry fun z hz => ?_).mono
    fun t ⟨hdone, hbytes⟩ => ⟨hdone, fun i hi => hbytes i (by rwa [hlane])⟩
  obtain ⟨w, b', hpanel, hw, hland⟩ := pscatterPanel_plain hz rfl rfl he herrs hpages hkind hscale haddr hsrc (by rw [hlane]; exact hspan)
  exact ⟨w, b', moveStep_panel hz rfl rfl (by simp) (by rw [hnp]; exact Nat.zero_lt_one) (.inr ⟨hopc, hpanel⟩), hw, hland⟩

/-! Tokens. -/

/-- A streamer that runs, seen from its own state. -/
theorem Streaming.self (h : t.rd (R.PART_STR_STAT.STATE p k) = US.RUN) : Streaming t p k (strOf t p k).run (t.bytes, t.mem) t.ques t :=
  ⟨rfl, rfl, rfl, rfl, rfl, fun _ _ => rfl, rfl, h⟩

/-- Its POST token pushed, the descriptor is finished. -/
theorem strStep_posts (h : Streaming s p k r b Q x.1) (hone : d.reps = 1) (hpre : d.preEn = false) (hpost : d.postEn = true)
    (hwaits : s.vlt.waiting.contains (strKey (uidOf p 2 k)) = false) (hcredit : 0 < s.rd (R.PART_Q_CREDIT.CREDIT p d.postQ))
    (hmoved : r.moved = true) (hreps : r.reps = 0) : strStep p k d x = (false, (strNext p k (pushSlot p d.postQ (uidOf p 2 k)
      (tokenBytes (uidOf p 2 k + s.rd (R.PART_STR_STAT.DESC p k) * 65536)) x).2).2) := by
  have hgo : ¬ s.rd (R.PART_Q_CREDIT.CREDIT p d.postQ) = 0 := Nat.pos_iff_ne_zero.mp hcredit
  have hcr : x.1.rd (R.PART_Q_CREDIT.CREDIT p d.postQ) = s.rd (R.PART_Q_CREDIT.CREDIT p d.postQ) := h.regs _ (by nofun)
  rw [strStep, st_bind]
  simp only [h.tget_run, hpre, hmoved, h.vlt, h.desc, hcr, hgo, hwaits, hpost, hreps, hone, Bool.false_eq_true, false_and, and_false, if_false,
    Bool.not_true, M.bind_run, M.pure_run, when_run, if_true, Nat.lt_irrefl, Nat.zero_add]

theorem streamerToken_lt (hp : p < 8) (hk : k < 16) : uidOf p 2 k + s.rd (R.PART_STR_STAT.DESC p k) * 65536 < 2 ^ 32 := by
  have hdesc : s.rd (R.PART_STR_STAT.DESC p k) < 2 ^ 16 := rd_lt s _
  unfold uidOf
  omega

theorem sync_posts (h : StrAt s p k d) (hopc : d.opc = 6) (hone : d.reps = 1) (hpre : d.preEn = false) (hpost : d.postEn = true)
    (hcredit : 0 < s.rd (R.PART_Q_CREDIT.CREDIT p d.postQ)) (hwaits : s.vlt.waiting.contains (strKey (uidOf p 2 k)) = false) :
    Does (.sync p k) s fun t => DescDone s t p k ∧ (queOf t p d.postQ).wr = (queOf s p d.postQ).wr + 1 ∧
      t.rd (R.PART_Q_CREDIT.CREDIT p d.postQ) = s.rd (R.PART_Q_CREDIT.CREDIT p d.postQ) - 1 ∧
      ∀ i < 4, byteAt t (qSlot s p d.postQ (queOf s p d.postQ).wr + i) =
        BitVec.ofNat 8 ((uidOf p 2 k + s.rd (R.PART_STR_STAT.DESC p k) * 65536) / 256 ^ i) := by
  obtain ⟨hp, hk, -, -, -, -, -, -, herrs, -⟩ := id h
  refine strRun_does h hopc rfl (by simp [Instr.wf, hp, hk]) (j := 2) (by decide) fun x hx => ?_
  have hbegin := h.begins hx
  have hz := upRun_streams hbegin fun r => { r with moved := true }
  refine .go (strStep_moved hbegin hpre rfl rfl (moveStep_nothing x (.inr hopc)) (by simp [SDesc.isRow, hopc])) ?_
  refine .stop (strStep_posts hz hone hpre hpost hwaits hcredit rfl rfl) ?_
  generalize (upRun p k (fun r => { r with moved := true }) x).2 = z at hz
  obtain ⟨-, hmem⟩ := Prod.mk.inj hz.store
  set token := tokenBytes (uidOf p 2 k + s.rd (R.PART_STR_STAT.DESC p k) * 65536) with htoken
  have hpush := pushSlot_via (q := d.postQ) (x := z) rfl hp (by rw [hmem, herrs]) (uidOf p 2 k) token
  obtain ⟨hwr, -, hleft, -⟩ := pushed_reads (p := p) (g := 0) (q := d.postQ) token z.1
  have hkept (f : Fld) (hf : f.k = .PART_STR_STAT) : (pushed p d.postQ token z.1).rd f = z.1.rd f := by
    simp only [pushed, apply_que, apply_write]
    exact rd_reg_kind _ _ _ _ (by rw [hf]; nofun)
  generalize (pushSlot p d.postQ (uidOf p 2 k) token z).2 = y at hpush
  have hself : Streaming y.1 p k (strOf y.1 p k).run (y.1.bytes, y.1.mem) y.1.ques y.1 :=
    .self ((hpush.rdKind .PART_STR_STAT rfl rfl rfl).trans ((hkept _ rfl).trans hz.state))
  obtain ⟨⟨hdesc, hstate, hinit⟩, hbytes, hques, hregs⟩ := strNext_reads hself
  have hque : queOf z.1 p d.postQ = queOf s p d.postQ := queOf_of_ques hz.ques
  have hslot (i : Nat) : qSlot z.1 p d.postQ i = qSlot s p d.postQ i := by rw [qSlot, qSlot, hz.regs _ (by nofun), hz.regs _ (by nofun)]
  refine ⟨⟨?_, hstate, hinit⟩, ?_, ?_, fun i hi => ?_⟩
  · rw [hdesc, hpush.rdKind .PART_STR_STAT rfl rfl rfl, hkept _ rfl, hz.desc]
  · rw [queOf_of_ques hques, queOf_of_ques (hpush.ques rfl), hwr, hque]
  · rw [hregs _ (by nofun), hpush.rdKind .PART_Q_CREDIT rfl rfl rfl, hleft, hz.regs _ (by nofun)]
  · obtain ⟨hlen, hbyte⟩ := tokenBytes_slot (uidOf p 2 k + s.rd (R.PART_STR_STAT.DESC p k) * 65536) hi
    simp only [Nat.mod_eq_of_lt (streamerToken_lt (s := s) hp hk), ← htoken] at hlen hbyte
    rw [← hslot, ← hque, byteAt, hbytes, hpush.bytes rfl, ← byteAt, pushed_byte _ _ hlen, hbyte]

theorem sync_waits (h : StrAt s p k d) (hopc : d.opc = 6) (hpre : d.preEn = true) (hempty : qAvail s p d.preQ = 0) :
    Does (.sync p k) s fun t => t.rd (R.PART_STR_STAT.STATE p k) = US.WAIT_Q ∧ t.rd (R.PART_Q_OCC.WAIT_C p d.preQ) = 1 ∧
      t.rd (R.PART_STR_STAT.DESC p k) = s.rd (R.PART_STR_STAT.DESC p k) := by
  obtain ⟨hp, hk, -⟩ := id h
  refine strRun_does h hopc rfl (by simp [Instr.wf, hp, hk]) (j := 1) (by decide) fun x hx => ?_
  have hbegin := h.begins hx
  have hnone : qAvail x.1 p d.preQ = 0 := by rw [qAvail, queOf_of_ques hbegin.ques, ← qAvail, hempty]
  have hstep : strStep p k d x = (false, (stallC (uidOf p 2 k) p d.preQ x).2) := by
    rw [strStep, st_bind]
    simp only [hbegin.tget_run, StrRun.init, hpre, hnone, Bool.not_false, and_self, if_true, M.bind_run, M.pure_run]
  refine .stop hstep ?_
  rw [stallC, M.bind_run, M.bind_run, restUnit_streamer hk, stFld_streamer hp hk, wr_run, setF_run]
  refine ⟨rd_reg_same _ _ _ (by decide), ?_, ?_⟩
  · simp (disch := decide) only [rd_reg_elsewhere, rd_reg_same, Nat.reducePow, Nat.reduceMod]
  · simp (disch := decide) only [rd_reg_apart, rd_reg_elsewhere, hbegin.desc]

/-- The end of a list without tokens of its own. -/
theorem strEnd_run (h : Streaming s p k StrRun.init b Q x.1) (hend : (strOf x.1 p k).endQ = q) (hpre : d.preEn = false) (hpost : d.postEn = false)
    (hcredit : 0 < s.rd (R.PART_Q_CREDIT.CREDIT p q)) : ∃ m : M o Unit, Within FP.istatWord m ∧ strEnd p k d x =
      m (upRun p k (fun _ => StrRun.init) (pushSlot p q (uidOf p 2 k) (tokenBytes (uidOf p 2 k)) (wr (R.PART_STR_STAT.STATE p k) US.IDLE x).2).2).2 := by
  have hgo : ¬ s.rd (R.PART_Q_CREDIT.CREDIT p q) = 0 := Nat.pos_iff_ne_zero.mp hcredit
  have hcr : x.1.rd (R.PART_Q_CREDIT.CREDIT p q) = s.rd (R.PART_Q_CREDIT.CREDIT p q) := h.regs _ (by nofun)
  rw [strOf] at hend
  rw [strEnd, st_bind]
  simp only [hpre, hpost, hend, hcr, hgo, Bool.false_eq_true, false_and, if_false, Bool.false_and, M.bind_run, when_run, rd_run]
  cases (tget Str.init x.1.strs (16 * p + k)).ctx with
  | none => exact ⟨pure (), within_pure _, rfl⟩
  | some c => exact ⟨refreshPhase c, refreshPhase_in c, rfl⟩

theorem streamerEnd_does (h : StrAt s p k d) (hopc : d.opc = 63) (hpre : d.preEn = false) (hpost : d.postEn = false)
    (hcredit : 0 < s.rd (R.PART_Q_CREDIT.CREDIT p (strOf s p k).endQ)) :
    Does (.streamerEnd p k) s fun t => t.rd (R.PART_STR_STAT.STATE p k) = US.IDLE ∧ (strOf t p k).run = StrRun.init ∧
      (queOf t p (strOf s p k).endQ).wr = (queOf s p (strOf s p k).endQ).wr + 1 ∧
      t.rd (R.PART_Q_CREDIT.CREDIT p (strOf s p k).endQ) = s.rd (R.PART_Q_CREDIT.CREDIT p (strOf s p k).endQ) - 1 := by
  obtain ⟨hp, hk, -, -, -, -, -, -, herrs, -⟩ := id h
  refine strTurn_does h hopc rfl (by simp [Instr.wf, hp, hk]) fun x hx => ?_
  have hbegin := h.begins hx
  have hend : (strOf x.1 p k).endQ = (strOf s p k).endQ := by
    rw [hx]
    simp only [strOf, apply_reg]
  obtain ⟨m, hm, hrun⟩ := strEnd_run (d := d) hbegin hend hpre hpost hcredit
  generalize (strOf s p k).endQ = q at *
  obtain ⟨-, hmem⟩ := Prod.mk.inj hbegin.store
  have hidle : (wr (R.PART_STR_STAT.STATE p k) US.IDLE x).2.1 = apply (.reg (R.PART_STR_STAT.STATE p k) US.IDLE) x.1 := by rw [wr_run]
  have hpush := pushSlot_via (q := q) hidle hp (by simp only [apply_reg, hmem, herrs]) (uidOf p 2 k) (tokenBytes (uidOf p 2 k))
  obtain ⟨hwr, -, hleft, -⟩ := pushed_reads (p := p) (g := 0) (q := q) (tokenBytes (uidOf p 2 k)) (apply (.reg (R.PART_STR_STAT.STATE p k) US.IDLE) x.1)
  have hlast := hm.via (upRun p k (fun _ => StrRun.init) (pushSlot p q (uidOf p 2 k) (tokenBytes (uidOf p 2 k))
    (wr (R.PART_STR_STAT.STATE p k) US.IDLE x).2).2).2
  have hstr := (upRun_in (o := s) p k fun _ => StrRun.init).via (pushSlot p q (uidOf p 2 k) (tokenBytes (uidOf p 2 k))
    (wr (R.PART_STR_STAT.STATE p k) US.IDLE x).2).2
  have hque : (queOf (apply (.reg (R.PART_STR_STAT.STATE p k) US.IDLE) x.1) p q) = queOf s p q :=
    queOf_of_ques (by simp only [apply_reg, hbegin.ques])
  rw [hrun]
  refine ⟨?_, ?_, ?_, ?_⟩
  · rw [hlast.rdKind .PART_STR_STAT rfl rfl rfl, hstr.rdKind .PART_STR_STAT rfl rfl rfl, hpush.rdKind .PART_STR_STAT rfl rfl rfl, pushed]
    simp (disch := decide) only [apply_que, apply_write, rd_reg_elsewhere, rd_reg_same, US.IDLE, Nat.reducePow, Nat.zero_mod]
  · rw [strOf, hlast.strs rfl, upRun, upStr_run]
    simp only [apply_str, tget_tset_self]
  · rw [queOf_of_ques (hlast.ques rfl), queOf_of_ques (hstr.ques rfl), queOf_of_ques (hpush.ques rfl), hwr, hque]
  · rw [hlast.rdKind .PART_Q_CREDIT rfl rfl rfl, hstr.rdKind .PART_Q_CREDIT rfl rfl rfl, hpush.rdKind .PART_Q_CREDIT rfl rfl rfl, hleft,
      rd_reg_elsewhere _ _ _ _ (by nofun), hbegin.regs _ (by nofun)]

/-! The slope limiter. -/

/-- The interval between grants passes alone. -/
theorem grantWait_arrs (c : Bool) (i : Nat) (x : Trace o) : (when_ c (advTo i) x).2.1.arrs = x.1.arrs :=
  ((within_when (advTo_in i)).via x).arrs rfl

theorem grantWait_rd (c : Bool) (i : Nat) (x : Trace o) (f : Fld) : (when_ c (advTo i) x).2.1.rd f = x.1.rd f := by
  rw [when_run]
  split
  · rw [advTo_run, rd_pass]
  · rfl

theorem slopeGrant_starts {key : Nat} {l : List (Nat × Bool)} (hkey : key < 96) (hfirst : s.pw.grant0 = (key, true) :: l)
    (hwaits : (tget Arr.init s.arrs key).slope = .wantStart) (hpair : s.rd (R.PART_ARR_STAT.PAIR (key / 24) (key % 24)) = 0)
    (hquiet : Quiet s (uidOf (key / 24) 0 (key % 24))) :
    Does (.slopeGrant 0) s fun t => t.pw.grant0 = l ∧ (tget Arr.init t.arrs key).slope = .active := by
  refine does_run rfl rfl ?_
  have hkind : uKind (uidOf (key / 24) 0 (key % 24)) = 0 := uKind_uidOf (by decide) (by omega)
  have hidx : uIdx (uidOf (key / 24) 0 (key % 24)) = key % 24 := uIdx_uidOf (by omega)
  have hpart : uPart (uidOf (key / 24) 0 (key % 24)) = key / 24 := uPart_uidOf (by omega) (by decide) (by omega)
  obtain ⟨htiles, hout⟩ := hquiet hkind
  rw [hidx, hpart, arrOf, Nat.div_add_mod] at htiles hout
  rw [st_bind]
  simp only [if_true, hfirst, M.bind_run, st_run, rd_run]
  generalize hy : (eff (.arr key _) _ : Unit × Trace s).2 = y
  have hgrants : y.1.pw.grant0 = l := by
    rw [← hy, eff_run, eff_run]
    simp only [apply_arr, apply_pw]
  have hslope : tget Arr.init y.1.arrs key = { tget Arr.init s.arrs key with slope := .active } := by
    rw [← hy, eff_run, eff_run, mark_run]
    simp only [apply_arr, apply_pw, apply_seen, tget_tset_self, grantWait_arrs, hwaits, if_true]
  have hpair' : y.1.rd (R.PART_ARR_STAT.PAIR (key / 24) (key % 24)) = 0 := by
    rw [← hy, eff_run, eff_run, mark_run]
    simp only [apply_arr, apply_pw, rd_seen, grantWait_rd, hpair]
  have harr : arrOf y.1 (key / 24) (key % 24) = { tget Arr.init s.arrs key with slope := .active } := by
    rw [arrOf, Nat.div_add_mod, hslope]
  rw [if_neg (by rw [hpair']; decide), arrWork_idle (by rw [harr]; exact htiles) (by rw [harr]; exact hout), hslope]
  exact ⟨hgrants, rfl⟩

theorem slopeGrant_ends {key : Nat} {l : List (Nat × Bool)} (hfirst : s.pw.grant1 = (key, false) :: l)
    (hfills : (tget Arr.init s.arrs key).slope = .filler) :
    Does (.slopeGrant 1) s fun t => t.pw.grant1 = l ∧ (tget Arr.init t.arrs key).slope = .idle := by
  refine does_run rfl rfl ?_
  rw [st_bind]
  rw [if_neg (by decide), hfirst]
  simp only [M.bind_run, st_run, rd_run]
  simp only [if_neg (show ¬ (1 : Nat) = 0 by decide), Bool.false_eq_true, if_false, M.pure_snd, eff_run, mark_run, apply_arr, apply_pw, apply_seen,
    tget_tset_self, grantWait_arrs, hfills, if_true, and_self]

/-- Settles O39: each descriptor's pieces, one after the other; before its one write a move reads what stood at its beginning. -/
theorem streamerDescriptorsComplete : Obligations.StreamerDescriptorsComplete := by
  refine ⟨?_, ?_, ?_, ?_, ?_, ?_, ?_, ?_, ?_, ?_, ?_, ?_⟩
  · exact fun s p k d h hopc hone hpre hpost _ hwaits => streamerNop_does h hopc ⟨hone, hpre, hpost, hwaits⟩
  · intro s p k d h hopc hone hpre hpost hkind hdst hrows _ hsrc hspan hwaits
    have hcopy := streamerCopy_does (bs := peek s d.src d.rowBytes) h hopc ⟨hone, hpre, hpost, hwaits⟩ hdst hrows
      (by rw [peek_length]; exact hspan) (.inl ⟨hkind, hsrc, rfl⟩)
    rwa [peek_length] at hcopy
  · intro s p k d h hopc hone hpre hpost hkind hdst hrows _ hspan hwaits
    have hzeros : (zeros d.rowBytes).length = d.rowBytes := by rw [zeros, List.length_replicate]
    refine (streamerCopy_does (bs := zeros d.rowBytes) h hopc ⟨hone, hpre, hpost, hwaits⟩ hdst hrows (by rw [hzeros]; exact hspan)
      (.inr ⟨hkind, rfl⟩)).mono fun t ⟨hdone, hbytes⟩ => ⟨hdone, fun i hi => ?_⟩
    rw [hbytes i (by rwa [hzeros]), zeros, List.getD_replicate]
    exact hi
  · exact fun s p k a d e l h hopc hone hpre hpost hdst hrows _ hsome hslot he hlimit haddr hsrc hspan hwaits =>
      gather_does h hopc ⟨hone, hpre, hpost, hwaits⟩ hdst hrows ⟨hsome, hslot, he, hlimit⟩ haddr hsrc hspan
  · exact fun s p k a d e l h hopc hone hpre hpost hkind hrows _ hsome hslot he hlimit haddr hsrc hspan hvault hwaits =>
      scatter_does h hopc ⟨hone, hpre, hpost, hwaits⟩ hkind hrows ⟨hsome, hslot, he, hlimit⟩ haddr hsrc hspan hvault
  · exact fun s p k a d e l h hopc hone hpre hpost hdst hnp hscale hsome hslot he hlimit haddr hsrc hspan _ hwaits =>
      pgather_does h hopc ⟨hone, hpre, hpost, hwaits⟩ hdst hnp hscale ⟨hsome, hslot, he, hlimit⟩ haddr hsrc hspan
  · exact fun s p k a d e l h hopc hone hpre hpost hkind hnp hscale hsome hslot he hlimit haddr hspan hsrc _ hwaits =>
      pscatter_does h hopc ⟨hone, hpre, hpost, hwaits⟩ hkind hnp hscale ⟨hsome, hslot, he, hlimit⟩ haddr hspan hsrc
  · exact fun s p k d h hopc hone hpre hpost _ hcredit hwaits => sync_posts h hopc hone hpre hpost hcredit hwaits
  · exact fun s p k d h hopc hpre hempty => sync_waits h hopc hpre hempty
  · exact fun s p k d h hopc hpre hpost hcredit => streamerEnd_does h hopc hpre hpost hcredit
  · exact fun s key l hkey hfirst hwaits hpair hquiet => slopeGrant_starts hkey hfirst hwaits hpair hquiet
  · exact fun s key l hfirst hfills => slopeGrant_ends hfirst hfills

end Sys2Proof.Machine
end
